-- ==== Sys2Proof/Word.lean ====
section
/-! DEFINITION. The word and byte types of the part's registers and memories (spec 00 R5, R9), and the shape of a
sparse map: a list of keyed values in one canonical form. Only types stand here; every operation is in Machine/. -/
namespace Sys2Proof

/-- A 32-bit register or table word (R5). -/
abbrev Word := BitVec 32

/-- One byte of host memory, DRAM or DSP local memory. -/
abbrev Byte := BitVec 8

/-- A sparse map: keys strictly rising, no entry equal to what an unlisted key reads as
(`Machine.smWf` states the form; the operations of Machine/Num.lean keep it). -/
abbrev SMap (α : Type) := List (Nat × α)

end Sys2Proof
end

