-- ==== Sys2Proof/Config.lean ====
section
/-! DEFINITION. What one part fixes and the free values (values the spec leaves open). A free value is opaque: nothing in
Lean can evaluate it, so a statement about it holds for every value of it. -/
namespace Sys2Proof

/-- Instructions of the JTAG port that IEEE 1149.1 and R534 call for. -/
inductive JtagInst where
  | bypass | idcode | sample | extest
  deriving DecidableEq, Repr, Inhabited

/-- A cell of the boundary scan register: the level or the drive of an output ball by class and index, or an input ball. -/
inductive ScanCell where
  | output (cls idx : Nat)
  | enable (cls idx : Nat)
  | input (ball : Nat)
  deriving DecidableEq, Repr, Inhabited

end Sys2Proof

namespace Sys2Proof.Config

/-- Silicon revision, TOP_PART.SIREV ("Per silicon", 01 R52). Log 12. -/
opaque sirev : BitVec 8

/-- Design version of a unit type, UNIT_ID.VERSION ("Per unit", 01 R45). Log 12. -/
opaque version : Nat → BitVec 8

/-- The n-th free value a step draws (State.free counts them). Log 13. -/
opaque freeValue : Nat → Nat

/-- The n-th value that a core draws since it started, where an instruction's result is open (14 R422). Log 13. -/
opaque coreValue : Nat → Nat

/-- Error of log2 in units of 2^-64 for a binary64 argument m * 2^e; used only within the bound of 2^-20 that 03 R132
gives. Log 16. -/
opaque log2Error : Int → Int → Int

/-- Result of a floating-point division by zero in the pan stage, as an integer significand. Log 17. -/
opaque fdivZero : Int → Int

/-- Error of the partitioned convolution at one output sample, from the taps beyond the head, the inputs of the last 64 P0
samples and the segment phase; used only within the bound of 06 R204. Log 19. -/
opaque firError : List Int → List Int → Nat → Int

/-- Granules of a chain's region that its convolution data (06 R205) moves through: kind (0 read for a block, 1 history at a segment's start,
2 spectra of a bank), chain, tick. The spec does not give the region's layout. Log 106. -/
opaque convGranules : Nat → Nat → Nat → List Nat

/-- Payload bytes of the n-th mirror frame that this unit forms (13 R400); the spec gives no layout. Log 142. -/
opaque framePayload : Nat → List Nat

/-- Q3.28 coefficient of a ROM response of the Slipway (07 R237): response, rate column (0 for a decimator, whose edges are relative to
its output rate), section, coefficient (B0, B1, B2, A1, A2). The spec gives no coefficients. Log 25. -/
opaque romCoef : Nat → Nat → Nat → Nat → Int

/-- Output sample of an ASRC channel in H7.24 (07 R240), from its last inputs, its input and output rate, its ratio estimate and the
number of the output sample since it locked. Log 13. -/
opaque asrcOut : List Int → Nat → Nat → Int → Nat → Int

/-- Delay of an ASRC channel's read point as a Q20.12 code (07 R245), from its output rate, its estimate and the outputs since it locked;
used within the bound of R240 while it is LOCKED. Log 13. -/
opaque asrcDelay : Nat → Int → Nat → Nat

/-- Where the tracking loop stands (07 R242): ASRC_BW, the estimate and the measured ratio; used between the two. Log 111. -/
opaque asrcTrack : Nat → Int → Int → Int

/-- Phase correction of a DPLL in ppt before its bound of ±FSLEW (12 R362 to R364): loop bandwidth in mHz, at a damping of 0.707, phase
error in 4·10^-18 ns, TIME cycle. Log 30. -/
opaque loopCorrection : Nat → Int → Nat → Int

/-- Samples that the AUX clock gives in a tick beyond the nominal number, less 1, modulo 3 (10 R323): by tick. Log 24. -/
opaque auxSlip : Nat → Nat

/-- Length of the JTAG instruction register, the instruction that a value other than all ones selects, and the boundary scan cells in their
order (20 R534). The spec gives none of them. Log 104. -/
opaque jtagIrLength : Nat
opaque jtagInst : List Bool → JtagInst
opaque scanCells : List ScanCell

end Sys2Proof.Config
end

