-- ==== Sys2Proof/Machine/Num.lean ====
section
/-! DEFINITION. Bit fields, exact rounding and saturation (spec 00 R9 to R12), and the operations on sparse maps. -/
namespace Sys2Proof.Machine

/-! Bit fields of naturals and two's complement. -/

/-- The `w`-bit field of `x` whose lowest bit is `lo`. -/
def bits (x lo w : Nat) : Nat := x / 2 ^ lo % 2 ^ w

/-- Bit `i` of `x`. -/
def bitAt (x i : Nat) : Bool := x / 2 ^ i % 2 == 1

/-- `x` with its `w`-bit field at `lo` replaced by `v` (taken modulo 2^w). -/
def setBits (x lo w v : Nat) : Nat := x - bits x lo w * 2 ^ lo + v % 2 ^ w * 2 ^ lo

/-- Read `w` bits as two's complement. -/
def sx (w n : Nat) : Int :=
  let m := n % 2 ^ w
  if 2 * m < 2 ^ w then m else (m : Int) - 2 ^ w

/-- Two's complement of `i` in `w` bits. -/
def tc (w : Nat) (i : Int) : Nat := (i % (2 ^ w : Int)).toNat

/-- A flag as 0 or 1. -/
def b2n (b : Bool) : Nat := if b then 1 else 0

/-! Rounding and saturation. -/

/-- Clamp an integer into an interval. -/
def clampI (lo hi i : Int) : Int := if i < lo then lo else if hi < i then hi else i

/-- Clamp a natural into an interval. -/
def clampN (lo hi n : Nat) : Nat := if n < lo then lo else if hi < n then hi else n

/-- Saturate to `w`-bit two's complement. -/
def satS (w : Nat) (i : Int) : Int := clampI (-(2 ^ (w - 1) : Int)) (2 ^ (w - 1) - 1) i

/-- Saturate a count at 0xFFFF. -/
def sat16 (n : Nat) : Nat := min n 0xFFFF

/-- Saturate a count at 0xFFFF_FFFF. -/
def sat32 (n : Nat) : Nat := min n 0xFFFFFFFF

/-- `a / b` rounded to the nearest integer, ties to even (R11); `b` positive. -/
def divEven (a : Int) (b : Nat) : Int :=
  let q := a / (b : Int)
  let r := a % (b : Int)
  if 2 * r < b then q else if (b : Int) < 2 * r then q + 1 else if q % 2 = 0 then q else q + 1

/-- `a / b` rounded to the nearest integer, ties away from zero; `b` positive. -/
def divAway (a : Int) (b : Nat) : Int :=
  if 0 ≤ a then (2 * a + b) / (2 * (b : Int)) else -((2 * (-a) + b) / (2 * (b : Int)))

/-- `a / b` truncated toward minus infinity. -/
def divFloor (a : Int) (b : Nat) : Int := a / (b : Int)

/-- Integer square root (rounded down) of a number below 4^k, digit by digit. -/
def isqrtGo : Nat → Nat → Nat → Nat
  | 0, _, r => r
  | k + 1, n, r =>
    let t := r + 2 ^ k
    if t * t ≤ n then isqrtGo k n t else isqrtGo k n r

/-- Integer square root, rounded down. -/
def isqrt (n : Nat) : Nat := isqrtGo (n.log2 / 2 + 1) n 0

/-- Number of bits needed to write `n`. -/
def bitLen (n : Nat) : Nat := if n = 0 then 0 else n.log2 + 1

/-! Samples and gains. -/

/-- H7.24 saturation (R9). -/
def satH (i : Int) : Int := satS 32 i

/-- Import an S24 sample as H7.24 (R10). -/
def importS24 (w : Nat) : Int := sx 24 w * 2

/-- Import an L16 sample as H7.24 (R10). -/
def importL16 (w : Nat) : Int := sx 24 (w % 65536 * 256) * 2

/-- Export an H7.24 sample as S24, after the clip policy (R11). -/
def exportS24 (s : Int) : Int := clampI (-0x800000) 0x7FFFFF (divEven s 2)

/-- `(2m - 1)^10240 * 10^52224 <= 2^(25*10240) * 10^code`: the test that decides R12's rounding exactly. -/
def gainFits (code m : Nat) : Bool :=
  m = 0 || decide ((2 * m - 1) ^ 10240 * 10 ^ 52224 ≤ 2 ^ 256000 * 10 ^ code)

/-- Largest multiplier that passes `gainFits`, found bit by bit from bit `k`. -/
def gainGo (code : Nat) : Nat → Nat → Nat
  | 0, m => if gainFits code (m + 1) then m + 1 else m
  | k + 1, m => if gainFits code (m + 2 ^ (k + 1)) then gainGo code k (m + 2 ^ (k + 1)) else gainGo code k m

/-- The Q5.24 multiplier of a G16 gain code, rounded half away from zero (R12). -/
def gainM (code : Nat) : Nat :=
  if code = 0 then 0 else if code = 0xCC00 then 0x1000000 else gainGo code 28 0

/-! Sparse maps. -/

/-- Value of key `k`; an unlisted key reads as `d k`. -/
def smGet {α : Type} (d : Nat → α) : SMap α → Nat → α
  | [], k => d k
  | (j, v) :: r, k => if j = k then v else smGet d r k

/-- Put an entry before the first greater key. -/
def smInsert {α : Type} (k : Nat) (v : α) : SMap α → SMap α
  | [] => [(k, v)]
  | (j, w) :: r => if k < j then (k, v) :: (j, w) :: r else (j, w) :: smInsert k v r

/-- Set key `k` to `v`, keeping the keys rising and listing nothing equal to its default. -/
def smSet {α : Type} [DecidableEq α] (d : Nat → α) (m : SMap α) (k : Nat) (v : α) : SMap α :=
  let rest := m.filter (fun e => e.1 != k)
  if v = d k then rest else smInsert k v rest

/-- Remove the keys that `p` picks (they read as their default again). -/
def smDrop {α : Type} (p : Nat → Bool) (m : SMap α) : SMap α := m.filter (fun e => !p e.1)

/-- Keys strictly rising and all above `lo` (where `lo` is one more than the last key). -/
def smRising {α : Type} : Nat → SMap α → Bool
  | _, [] => true
  | lo, (k, _) :: r => decide (lo ≤ k) && smRising (k + 1) r

/-- The canonical form of a sparse map: rising keys, no entry equal to its default. -/
def smWf {α : Type} [DecidableEq α] (d : Nat → α) (m : SMap α) : Bool :=
  smRising 0 m && m.all (fun e => e.2 ≠ d e.1)

end Sys2Proof.Machine
end

