-- ==== Sys2Proof/Machine/Crc.lean ====
section
/-! DEFINITION. CRC-32C with initial value and final XOR 0xFFFF_FFFF (spec 02 R84, 16 "Check-value units"), with the
advance over a run of zero bytes that lets a sparse table be digested (13 R401). -/
namespace Sys2Proof.Machine

/-- The CRC-32C polynomial, bits reflected. -/
def crcPoly : Nat := 0x82F63B78

/-- Advance the reflected register by one zero bit (multiply by x). -/
def crcBit (s : Nat) : Nat := if s % 2 = 1 then (s / 2) ^^^ crcPoly else s / 2

/-- Advance by `k` zero bits. -/
def crcBits : Nat → Nat → Nat
  | 0, s => s
  | k + 1, s => crcBits k (crcBit s)

/-- Take in one byte. -/
def crcByte (s b : Nat) : Nat := crcBits 8 (s ^^^ (b % 256))

/-- Take in bytes in address order. -/
def crcBytes (s : Nat) (l : List Nat) : Nat := l.foldl crcByte s

/-- Product of two reflected residues modulo the polynomial; `k` is the number of bits of `b` still to take. -/
def crcMulGo : Nat → Nat → Nat → Nat → Nat
  | 0, _, _, acc => acc
  | k + 1, a, b, acc =>
    crcMulGo k (crcBit a) b (if bitAt b k then acc ^^^ a else acc)

/-- Product of two reflected residues. -/
def crcMul (a b : Nat) : Nat := crcMulGo 32 a b 0

/-- `base^n` by repeated squaring; `fuel` bounds the bits of `n`. -/
def crcPowGo : Nat → Nat → Nat → Nat → Nat
  | 0, _, _, acc => acc
  | f + 1, base, n, acc =>
    if n = 0 then acc else crcPowGo f (crcMul base base) (n / 2) (if n % 2 = 1 then crcMul acc base else acc)

/-- Advance over `n` zero bytes. -/
def crcZeros (s n : Nat) : Nat := crcMul s (crcPowGo 40 0x800000 n 0x80000000)

/-- Little-endian bytes of a value. -/
def leBytes : Nat → Nat → List Nat
  | 0, _ => []
  | k + 1, v => v % 256 :: leBytes k (v / 256)

/-- Value of little-endian bytes. -/
def ofLe : List Nat → Nat
  | [] => 0
  | b :: r => b + 256 * ofLe r

/-- Check value over an 8-byte prefix and data (R84). -/
def checkValue (pre : List Nat) (data : List Nat) : Nat :=
  crcBytes (crcBytes 0xFFFFFFFF pre) data ^^^ 0xFFFFFFFF

/-- The frame check sequence of IEEE 802.3 (CRC-32, reflected polynomial 0xEDB88320), by the same register. Log 22. -/
def fcsOf (l : List Nat) : Nat :=
  let bit := fun (s : Nat) => if s % 2 = 1 then (s / 2) ^^^ 0xEDB88320 else s / 2
  (l.foldl (fun s b => (List.range 8).foldl (fun s _ => bit s) (s ^^^ (b % 256))) 0xFFFFFFFF) ^^^ 0xFFFFFFFF

/-- Big-endian bytes of a value. -/
def beBytes (k v : Nat) : List Nat := (leBytes k v).reverse

/-- Value of big-endian bytes. -/
def ofBe (l : List Nat) : Nat := ofLe l.reverse

/-- `n` bytes from offset `o`; missing bytes are absent. -/
def slice (l : List Nat) (o n : Nat) : List Nat := (l.drop o).take n

/-- Replace the bytes at offset `o`. -/
def patchBytes (l : List Nat) (o : Nat) (v : List Nat) : List Nat := l.take o ++ v ++ l.drop (o + v.length)

end Sys2Proof.Machine
end

