-- ==== Sys2Proof/Machine/Regs.lean ====
section
/-! DEFINITION. The register table of BAR0: every unit-specific register with its address, its array shape, and each
field's place, access type (R6) and reset value, as the chapters' register tables give them; and a name for every field.
Unit headers (R44) stand in Machine/Units.lean. Per-grade and per-type reset values are set in `resetReg` of Machine/State.lean. -/
namespace Sys2Proof.Machine

/-- Access types of R6. -/
inductive Acc where
  | rw | ro | wo | w1c | rc | rws
  deriving DecidableEq, Repr

/-- One field of a register row: lowest bit, width, access type, reset value. -/
structure FieldRow where
  lo : Nat
  w : Nat
  acc : Acc
  rst : Nat
  deriving DecidableEq, Repr

/-- One row of the register table: address of element 0, number of elements, their stride, the fields. -/
structure RegRow where
  base : Nat
  count : Nat
  stride : Nat
  fields : List FieldRow
  deriving DecidableEq, Repr

/-- A named field of one register. -/
structure Field where
  addr : Nat
  lo : Nat
  w : Nat
  deriving DecidableEq, Repr

/-- Register rows of TOP. -/
def rowsTop : List RegRow := [
  /- TOP_STATE: 01 R40 -/ ⟨0x100, 1, 0x0, [⟨16, 4, .ro, 0⟩, ⟨8, 8, .ro, 0⟩, ⟨4, 3, .ro, 0⟩, ⟨0, 3, .ro, 0⟩]⟩,
  /- TOP_STATE_REQ: 01 R40 -/ ⟨0x104, 1, 0x0, [⟨0, 3, .wo, 0⟩]⟩,
  /- TOP_RATE: 01 R19 -/ ⟨0x108, 1, 0x0, [⟨8, 1, .rw, 0⟩, ⟨4, 2, .rw, 1⟩, ⟨2, 1, .rw, 0⟩, ⟨0, 2, .rw, 1⟩]⟩,
  /- TOP_PIPE: 01 R36 -/ ⟨0x10C, 1, 0x0, [⟨12, 1, .rw, 0⟩, ⟨8, 4, .rw, 2⟩, ⟨0, 8, .rw, 8⟩]⟩,
  /- TOP_TICK_LO: 01 R22 -/ ⟨0x110, 1, 0x0, [⟨0, 32, .ro, 0⟩]⟩,
  /- TOP_TICK_HI: 01 R22 -/ ⟨0x114, 1, 0x0, [⟨0, 16, .ro, 0⟩]⟩,
  /- TOP_TICK_PHASE: 01 R22 -/ ⟨0x118, 1, 0x0, [⟨0, 24, .ro, 0⟩]⟩,
  /- TOP_TICK_LOAD_LO: 01 R22 -/ ⟨0x11C, 1, 0x0, [⟨0, 32, .wo, 0⟩]⟩,
  /- TOP_TICK_LOAD_HI: 01 R22 -/ ⟨0x120, 1, 0x0, [⟨31, 1, .wo, 0⟩, ⟨0, 16, .wo, 0⟩]⟩,
  /- TOP_OVERRUN: 01 R36 -/ ⟨0x124, 1, 0x0, [⟨0, 16, .rc, 0⟩]⟩,
  /- TOP_DSP_MISS: 01 R36 -/ ⟨0x128, 1, 0x0, [⟨0, 16, .rc, 0⟩]⟩,
  /- TOP_PART: 01 R52 -/ ⟨0x130, 1, 0x0, [⟨16, 16, .ro, 0x5140⟩, ⟨8, 8, .ro, 0x43⟩, ⟨0, 8, .ro, 0⟩]⟩,
  /- TOP_RESET: 18 R524 -/ ⟨0x140, 1, 0x0, [⟨16, 16, .wo, 0⟩, ⟨0, 1, .wo, 0⟩]⟩,
  /- TOP_BOOT: 18 R524 -/ ⟨0x144, 1, 0x0, [⟨31, 1, .ro, 0⟩, ⟨30, 1, .ro, 0⟩, ⟨29, 1, .ro, 0⟩, ⟨24, 2, .ro, 0⟩, ⟨20, 4, .ro, 0⟩, ⟨8, 8, .ro, 0⟩, ⟨1, 1, .ro, 0⟩, ⟨0, 1, .wo, 0⟩]⟩,
  /- TOP_BOOT_ADDR_LO: 18 R524 -/ ⟨0x148, 1, 0x0, [⟨8, 24, .rw, 0⟩]⟩,
  /- TOP_BOOT_ADDR_HI: 18 R524 -/ ⟨0x14C, 1, 0x0, [⟨0, 32, .rw, 0⟩]⟩,
  /- TOP_RESET_CAUSE: 18 R524 -/ ⟨0x154, 1, 0x0, [⟨0, 3, .ro, 0⟩]⟩,
  /- TOP_FW_DIGEST: 18 R524 -/ ⟨0x160, 12, 0x4, [⟨0, 32, .ro, 0⟩]⟩]

/-- Register rows of HRE. -/
def rowsHre : List RegRow := [
  /- HRE_CTL: 02 R64 -/ ⟨0x10100, 1, 0x0, [⟨16, 11, .rw, 0x100⟩, ⟨8, 4, .rw, 4⟩, ⟨1, 1, .rw, 0⟩, ⟨0, 1, .rw, 0⟩]⟩,
  /- HRE_DB_LO: 02 R64 -/ ⟨0x10108, 1, 0x0, [⟨9, 23, .rw, 0⟩]⟩,
  /- HRE_DB_HI: 02 R64 -/ ⟨0x1010C, 1, 0x0, [⟨0, 32, .rw, 0⟩]⟩,
  /- HRE_ST_LO: 02 R64 -/ ⟨0x10110, 1, 0x0, [⟨10, 22, .rw, 0⟩]⟩,
  /- HRE_ST_HI: 02 R64 -/ ⟨0x10114, 1, 0x0, [⟨0, 32, .rw, 0⟩]⟩,
  /- HRE_URGENT: 02 R64 -/ ⟨0x10118, 1, 0x0, [⟨0, 1, .wo, 0⟩]⟩,
  /- HRE_PAQ: 02 R64 -/ ⟨0x1011C, 1, 0x0, [⟨16, 13, .rc, 0⟩, ⟨0, 13, .ro, 0⟩]⟩,
  /- HRE_EVT: 02 R92 -/ ⟨0x10120, 1, 0x0, [⟨8, 1, .rw, 0⟩, ⟨0, 6, .rw, 0⟩]⟩,
  /- RING_BASE_LO: 02 R63 -/ ⟨0x10400, 64, 0x20, [⟨12, 20, .rw, 0⟩]⟩,
  /- RING_BASE_HI: 02 R63 -/ ⟨0x10404, 64, 0x20, [⟨0, 32, .rw, 0⟩]⟩,
  /- RING_CFG: 02 R63 -/ ⟨0x10408, 64, 0x20, [⟨24, 6, .rw, 0⟩, ⟨12, 5, .rw, 4⟩, ⟨8, 3, .rw, 0⟩, ⟨4, 4, .ro, 0⟩, ⟨1, 1, .ro, 0⟩, ⟨0, 1, .rw, 0⟩]⟩,
  /- RING_INIT: 02 R63 -/ ⟨0x1040C, 64, 0x20, [⟨0, 32, .rw, 0⟩]⟩,
  /- RING_DEV_IDX: 02 R63 -/ ⟨0x10410, 64, 0x20, [⟨0, 32, .ro, 0⟩]⟩,
  /- RING_HOST_IDX: 02 R63 -/ ⟨0x10414, 64, 0x20, [⟨0, 32, .ro, 0⟩]⟩,
  /- RING_VEC: 02 R63 -/ ⟨0x10418, 64, 0x20, [⟨16, 16, .rw, 1⟩, ⟨8, 8, .rw, 0⟩, ⟨0, 6, .rw, 0⟩]⟩,
  /- RING_DROP: 02 R63 -/ ⟨0x1041C, 64, 0x20, [⟨0, 16, .rc, 0⟩]⟩,
  /- MSIX_ADDR_LO: 02 R56 -/ ⟨0x18000, 64, 0x10, [⟨2, 30, .rw, 0⟩]⟩,
  /- MSIX_ADDR_HI: 02 R56 -/ ⟨0x18004, 64, 0x10, [⟨0, 32, .rw, 0⟩]⟩,
  /- MSIX_DATA: 02 R56 -/ ⟨0x18008, 64, 0x10, [⟨0, 32, .rw, 0⟩]⟩,
  /- MSIX_CTRL: 02 R56 -/ ⟨0x1800C, 64, 0x10, [⟨0, 1, .rw, 1⟩]⟩,
  /- MSIX_PBA: 02 R56 -/ ⟨0x19000, 2, 0x4, [⟨0, 32, .ro, 0⟩]⟩]

/-- Register rows of FAB. -/
def rowsFab : List RegRow := [
  /- FAB_QOS: 16 R481 -/ ⟨0x20100, 10, 0x4, [⟨4, 4, .rw, 0⟩, ⟨0, 4, .rw, 0⟩]⟩,
  /- FAB_AGE: 16 R481 -/ ⟨0x20140, 1, 0x0, [⟨0, 16, .rw, 0x100⟩]⟩,
  /- FAB_ERR_INFO: 16 R481 -/ ⟨0x20150, 1, 0x0, [⟨31, 1, .w1c, 0⟩, ⟨30, 1, .w1c, 0⟩, ⟨28, 2, .ro, 0⟩, ⟨27, 1, .ro, 0⟩, ⟨16, 4, .ro, 0⟩, ⟨0, 8, .ro, 0⟩]⟩,
  /- FAB_ERR_ADDR_LO: 16 R481 -/ ⟨0x20154, 1, 0x0, [⟨0, 32, .ro, 0⟩]⟩,
  /- FAB_ERR_ADDR_HI: 16 R481 -/ ⟨0x20158, 1, 0x0, [⟨0, 3, .ro, 0⟩]⟩,
  /- FAB_ERR_CNT: 16 R481 -/ ⟨0x2015C, 1, 0x0, [⟨0, 16, .rc, 0⟩]⟩]

/-- Register rows of DMC. -/
def rowsDmc : List RegRow := [
  /- DMC_CFG: 16 R482 -/ ⟨0x30100, 1, 0x0, [⟨20, 5, .rw, 8⟩, ⟨16, 2, .rw, 1⟩, ⟨8, 1, .rw, 0⟩]⟩,
  /- DMC_REF: 16 R491 -/ ⟨0x30104, 1, 0x0, [⟨31, 1, .rw, 1⟩, ⟨16, 8, .rw, 0xA⟩, ⟨0, 12, .rw, 0x118⟩]⟩,
  /- DMC_RT_QOS: 16 R491 -/ ⟨0x30108, 1, 0x0, [⟨0, 4, .rw, 0xC⟩]⟩,
  /- DMC_PD_TIMER: 16 R493 -/ ⟨0x3010C, 1, 0x0, [⟨0, 16, .rw, 0x400⟩]⟩,
  /- DMC_CH_STAT: 16 R491 -/ ⟨0x30110, 4, 0x4, [⟨31, 1, .ro, 0⟩, ⟨30, 1, .ro, 0⟩, ⟨28, 2, .ro, 0⟩, ⟨23, 5, .ro, 0⟩, ⟨16, 5, .ro, 0⟩]⟩,
  /- DMC_CHECK: 16 R488 -/ ⟨0x30180, 1, 0x0, [⟨31, 1, .wo, 0⟩, ⟨30, 1, .ro, 0⟩, ⟨29, 1, .ro, 0⟩, ⟨28, 1, .ro, 0⟩, ⟨16, 8, .ro, 0⟩, ⟨8, 8, .rw, 0⟩, ⟨0, 8, .rw, 0x64⟩]⟩,
  /- DMC_POSTPONED: 16 R497 -/ ⟨0x30190, 1, 0x0, [⟨0, 16, .rc, 0⟩]⟩,
  /- DMC_FORCED: 16 R497 -/ ⟨0x30194, 1, 0x0, [⟨0, 16, .rc, 0⟩]⟩,
  /- DMC_HOT_BURST: 16 R497 -/ ⟨0x30198, 1, 0x0, [⟨0, 16, .rc, 0⟩]⟩,
  /- DMC_OUTSIDE: 16 R497 -/ ⟨0x3019C, 1, 0x0, [⟨0, 16, .rc, 0⟩]⟩,
  /- REG_BASE_LO: 16 R484 -/ ⟨0x30200, 8, 0x20, [⟨16, 16, .rw, 0⟩]⟩,
  /- REG_BASE_HI: 16 R484 -/ ⟨0x30204, 8, 0x20, [⟨0, 2, .rw, 0⟩]⟩,
  /- REG_SIZE: 16 R484 -/ ⟨0x30208, 8, 0x20, [⟨0, 18, .rw, 0⟩]⟩,
  /- REG_CTL: 16 R484 -/ ⟨0x3020C, 8, 0x20, [⟨31, 1, .rw, 0⟩, ⟨30, 1, .rw, 0⟩, ⟨29, 1, .rw, 0⟩]⟩,
  /- REG_CV_LO: 16 R484 -/ ⟨0x30210, 8, 0x20, [⟨8, 24, .rw, 0⟩]⟩,
  /- REG_CV_HI: 16 R484 -/ ⟨0x30214, 8, 0x20, [⟨0, 2, .rw, 0⟩]⟩,
  /- DLY_WL: 16 R486 -/ ⟨0x30400, 8, 0x40, [⟨0, 10, .rw, 0⟩]⟩,
  /- DLY_RG: 16 R486 -/ ⟨0x30404, 8, 0x40, [⟨0, 14, .rw, 0⟩]⟩,
  /- DLY_WDSK: 16 R486 -/ ⟨0x30408, 8, 0x40, [⟨0, 32, .rw, 0⟩]⟩,
  /- DLY_RDSK: 16 R486 -/ ⟨0x3040C, 8, 0x40, [⟨0, 32, .rw, 0⟩]⟩]

/-- Register rows of CVU. -/
def rowsCvu : List RegRow := [
  /- CVU_ERR: 16 R496 -/ ⟨0x40500, 4, 0x200, [⟨0, 16, .rc, 0⟩]⟩,
  /- CVU_TAG_LO: 16 R496 -/ ⟨0x40504, 4, 0x200, [⟨0, 32, .ro, 0⟩]⟩,
  /- CVU_TAG_HI: 16 R496 -/ ⟨0x40508, 4, 0x200, [⟨0, 32, .ro, 0⟩]⟩,
  /- CVU_GOT: 16 R496 -/ ⟨0x4050C, 4, 0x200, [⟨0, 32, .ro, 0⟩]⟩,
  /- CVU_EXP: 16 R496 -/ ⟨0x40510, 4, 0x200, [⟨0, 32, .ro, 0⟩]⟩,
  /- CVU_DONE: 16 R496 -/ ⟨0x40514, 4, 0x200, [⟨0, 32, .rc, 0⟩]⟩]

/-- Register rows of PWR. -/
def rowsPwr : List RegRow := [
  /- PWR_TMAX: 17 R508 -/ ⟨0x50100, 1, 0x0, [⟨16, 4, .ro, 0⟩, ⟨0, 16, .ro, 0⟩]⟩,
  /- PWR_THERM: 17 R508 -/ ⟨0x50104, 1, 0x0, [⟨24, 8, .rw, 0x5F⟩, ⟨16, 8, .rw, 0x4B⟩, ⟨0, 4, .rw, 2⟩]⟩,
  /- PWR_CORE: 17 R508 -/ ⟨0x50108, 1, 0x0, [⟨16, 16, .ro, 0⟩, ⟨0, 16, .ro, 0⟩]⟩,
  /- PWR_ENERGY: 17 R508 -/ ⟨0x5010C, 1, 0x0, [⟨16, 16, .rw, 0x12C⟩, ⟨0, 16, .rw, 0xC8⟩]⟩,
  /- PWR_EACC: 17 R508 -/ ⟨0x50110, 1, 0x0, [⟨0, 24, .ro, 0⟩]⟩,
  /- PWR_LEVEL: 17 R508 -/ ⟨0x50114, 1, 0x0, [⟨16, 16, .rw, 0x1000⟩, ⟨12, 3, .rw, 7⟩, ⟨8, 3, .ro, 7⟩, ⟨4, 3, .ro, 7⟩, ⟨0, 3, .ro, 7⟩]⟩,
  /- PWR_DSPF_LO: 17 R508 -/ ⟨0x50118, 1, 0x0, [⟨24, 8, .rw, 0x46⟩, ⟨16, 8, .rw, 0x3C⟩, ⟨8, 8, .rw, 0x32⟩, ⟨0, 8, .rw, 0x28⟩]⟩,
  /- PWR_DSPF_HI: 17 R508 -/ ⟨0x5011C, 1, 0x0, [⟨24, 8, .rw, 0x64⟩, ⟨16, 8, .rw, 0x64⟩, ⟨8, 8, .rw, 0x5A⟩, ⟨0, 8, .rw, 0x50⟩]⟩,
  /- PWR_SUPPLY: 17 R508 -/ ⟨0x50120, 1, 0x0, [⟨8, 6, .ro, 0⟩, ⟨0, 6, .ro, 0⟩]⟩,
  /- PWR_ITRIP: 17 R508 -/ ⟨0x50124, 1, 0x0, [⟨0, 16, .rw, 0x157C⟩]⟩,
  /- PWR_DROPS: 17 R508 -/ ⟨0x50140, 1, 0x0, [⟨0, 16, .rc, 0⟩]⟩,
  /- PWR_SENS: 17 R508 -/ ⟨0x50200, 16, 0x4, [⟨31, 1, .rw, 1⟩, ⟨30, 1, .ro, 0⟩, ⟨0, 16, .ro, 0⟩]⟩]

/-- Register rows of TBU. -/
def rowsTbu : List RegRow := [
  /- TB_SNAP_CTL: 11 R346 -/ ⟨0x60100, 1, 0x0, [⟨0, 1, .wo, 0⟩]⟩,
  /- CAP_TRIG: 11 R346 -/ ⟨0x60104, 1, 0x0, [⟨0, 1, .wo, 0⟩]⟩,
  /- TB_SNAP_NS: 11 R346 -/ ⟨0x60110, 4, 0x8, [⟨0, 32, .ro, 0⟩]⟩,
  /- TB_SNAP_FRAC: 11 R346 -/ ⟨0x60114, 4, 0x8, [⟨0, 32, .ro, 0⟩]⟩,
  /- TB_SNAP_TICK_LO: 11 R346 -/ ⟨0x60130, 1, 0x0, [⟨0, 32, .ro, 0⟩]⟩,
  /- TB_SNAP_TICK_HI: 11 R346 -/ ⟨0x60134, 1, 0x0, [⟨0, 16, .ro, 0⟩]⟩,
  /- TB_SNAP_PHASE: 11 R346 -/ ⟨0x60138, 1, 0x0, [⟨0, 24, .ro, 0⟩]⟩,
  /- TB_NS: 11 R347 -/ ⟨0x60200, 4, 0x80, [⟨0, 32, .ro, 0⟩]⟩,
  /- TB_FRAC: 11 R347 -/ ⟨0x60204, 4, 0x80, [⟨0, 32, .ro, 0⟩]⟩,
  /- TB_RATE: 11 R347 -/ ⟨0x60208, 4, 0x80, [⟨0, 32, .rws, 0⟩]⟩,
  /- TB_SERVO: 11 R347 -/ ⟨0x6020C, 4, 0x80, [⟨30, 2, .ro, 0⟩, ⟨16, 10, .rw, 0x64⟩, ⟨4, 2, .rw, 0⟩, ⟨0, 3, .rw, 0⟩]⟩,
  /- TB_LIM: 11 R347 -/ ⟨0x60210, 4, 0x80, [⟨0, 9, .rw, 0x64⟩]⟩,
  /- TB_STEP_THR: 11 R347 -/ ⟨0x60214, 4, 0x80, [⟨0, 20, .rw, 0x3E8⟩]⟩,
  /- TB_OUTLIER: 11 R347 -/ ⟨0x60218, 4, 0x80, [⟨0, 24, .rw, 0x2710⟩]⟩,
  /- TB_LOCK_THR: 11 R347 -/ ⟨0x6021C, 4, 0x80, [⟨0, 16, .rw, 0x64⟩]⟩,
  /- TB_OFFSET: 11 R347 -/ ⟨0x60220, 4, 0x80, [⟨0, 32, .ro, 0⟩]⟩,
  /- TB_PPS_NEXT: 11 R347 -/ ⟨0x60224, 4, 0x80, [⟨0, 32, .rw, 0⟩]⟩,
  /- TB_OUTLIERS: 11 R347 -/ ⟨0x60228, 4, 0x80, [⟨0, 16, .rc, 0⟩]⟩,
  /- TB_STEPS: 11 R347 -/ ⟨0x6022C, 4, 0x80, [⟨0, 16, .rc, 0⟩]⟩,
  /- TB_TICK_NS: 11 R347 -/ ⟨0x60230, 4, 0x80, [⟨0, 32, .ro, 0⟩]⟩,
  /- TB_TICK_FRAC: 11 R347 -/ ⟨0x60234, 4, 0x80, [⟨0, 32, .ro, 0⟩]⟩,
  /- CAP_CTL: 11 R348 -/ ⟨0x60400, 8, 0x20, [⟨31, 1, .rw, 0⟩, ⟨30, 1, .rw, 0⟩, ⟨16, 2, .rw, 0⟩, ⟨0, 3, .rw, 0⟩]⟩,
  /- CAP_LAT: 11 R348 -/ ⟨0x60404, 8, 0x20, [⟨0, 16, .rw, 0⟩]⟩,
  /- CAP_NS: 11 R348 -/ ⟨0x60408, 8, 0x20, [⟨0, 32, .ro, 0⟩]⟩,
  /- CAP_FRAC: 11 R348 -/ ⟨0x6040C, 8, 0x20, [⟨0, 32, .ro, 0⟩]⟩,
  /- CAP_CNT: 11 R348 -/ ⟨0x60410, 8, 0x20, [⟨0, 32, .ro, 0⟩]⟩]

/-- Register rows of REF. -/
def rowsRef : List RegRow := [
  /- REF_SOFT: 12 R376 -/ ⟨0x70100, 1, 0x0, [⟨0, 24, .rw, 0x1388⟩]⟩,
  /- REF_HARD: 12 R376 -/ ⟨0x70104, 1, 0x0, [⟨0, 24, .rw, 0x2710⟩]⟩,
  /- REF_DISAGREE_PPB: 12 R376 -/ ⟨0x70108, 1, 0x0, [⟨0, 24, .rw, 0x7D0⟩]⟩,
  /- REF_TIMES: 12 R376 -/ ⟨0x7010C, 1, 0x0, [⟨16, 16, .rw, 0x28⟩, ⟨0, 16, .rw, 0x14⟩]⟩,
  /- REF_FSLEW: 12 R376 -/ ⟨0x70110, 1, 0x0, [⟨0, 17, .rw, 0x1388⟩]⟩,
  /- REF_TICK_SYNC: 12 R376 -/ ⟨0x70114, 1, 0x0, [⟨31, 1, .rw, 0⟩, ⟨30, 1, .ro, 0⟩, ⟨0, 4, .rw, 0⟩]⟩,
  /- DPLL_CTL: 12 R378 -/ ⟨0x70200, 2, 0x40, [⟨31, 1, .rw, 0⟩, ⟨30, 1, .rw, 0⟩, ⟨29, 1, .rw, 0⟩]⟩,
  /- DPLL_STAT: 12 R378 -/ ⟨0x70204, 2, 0x40, [⟨29, 3, .ro, 0⟩, ⟨28, 1, .ro, 0⟩, ⟨27, 1, .ro, 0⟩, ⟨26, 1, .ro, 0⟩, ⟨25, 1, .ro, 0⟩, ⟨24, 1, .ro, 0⟩, ⟨20, 4, .ro, 0xF⟩]⟩,
  /- DPLL_FB: 12 R378 -/ ⟨0x70208, 2, 0x40, [⟨0, 32, .rws, 0⟩]⟩,
  /- DPLL_LOCK: 12 R378 -/ ⟨0x7020C, 2, 0x40, [⟨16, 16, .rw, 0x64⟩, ⟨0, 16, .rw, 0x3E8⟩]⟩,
  /- DPLL_PHERR: 12 R378 -/ ⟨0x70210, 2, 0x40, [⟨0, 32, .ro, 0⟩]⟩,
  /- DPLL_FREQ: 12 R378 -/ ⟨0x70214, 2, 0x40, [⟨0, 32, .ro, 0⟩]⟩,
  /- DPLL_AVG: 12 R378 -/ ⟨0x70218, 2, 0x40, [⟨0, 32, .ro, 0⟩]⟩,
  /- DPLL_DCO: 12 R378 -/ ⟨0x7021C, 2, 0x40, [⟨0, 32, .ro, 0⟩]⟩,
  /- DPLL_SWITCH: 12 R378 -/ ⟨0x70220, 2, 0x40, [⟨0, 16, .rc, 0⟩]⟩,
  /- REF_OUT_WCK: 12 R379 -/ ⟨0x70300, 2, 0x4, [⟨31, 1, .rw, 0⟩, ⟨30, 1, .rw, 0⟩, ⟨29, 1, .rw, 0⟩, ⟨0, 17, .rw, 0x800⟩]⟩,
  /- REF_OUT_MCLK: 12 R379 -/ ⟨0x70308, 2, 0x4, [⟨31, 1, .rw, 0⟩, ⟨0, 2, .rw, 1⟩]⟩,
  /- REF_OUT_PPS: 12 R379 -/ ⟨0x70310, 1, 0x0, [⟨31, 1, .rw, 0⟩, ⟨30, 1, .rw, 0⟩, ⟨29, 1, .rw, 0⟩, ⟨0, 16, .rw, 0x2710⟩]⟩,
  /- REF_IN_CFG: 12 R377 -/ ⟨0x70400, 14, 0x20, [⟨31, 1, .rw, 0⟩, ⟨26, 4, .rw, 0⟩, ⟨22, 4, .rw, 0⟩, ⟨21, 1, .rw, 0⟩, ⟨20, 1, .rw, 0⟩, ⟨0, 18, .rw, 0⟩]⟩,
  /- REF_IN_BW: 12 R377 -/ ⟨0x70404, 14, 0x20, [⟨0, 20, .rw, 0⟩]⟩,
  /- REF_IN_STAT: 12 R377 -/ ⟨0x70408, 14, 0x20, [⟨30, 2, .ro, 0⟩, ⟨29, 1, .ro, 0⟩, ⟨28, 1, .ro, 0⟩, ⟨27, 1, .ro, 0⟩, ⟨26, 1, .ro, 0⟩, ⟨25, 1, .ro, 0⟩]⟩,
  /- REF_IN_FOFS: 12 R377 -/ ⟨0x7040C, 14, 0x20, [⟨0, 32, .ro, 0⟩]⟩]

/-- Register rows of ETH. -/
def rowsEth : List RegRow := [
  /- ETH_MODE: 09 R281 -/ ⟨0x80100, 2, 0x10000, [⟨8, 1, .rw, 0⟩, ⟨4, 1, .rw, 0⟩, ⟨3, 1, .rw, 0⟩, ⟨2, 1, .rw, 0⟩, ⟨0, 1, .rw, 0⟩]⟩,
  /- ETH_SERDES_TX: 09 R282 -/ ⟨0x80104, 2, 0x10000, [⟨24, 6, .rw, 4⟩, ⟨16, 6, .rw, 0x34⟩, ⟨8, 6, .rw, 2⟩]⟩,
  /- ETH_LINK: 09 R283 -/ ⟨0x80108, 2, 0x10000, [⟨5, 1, .ro, 0⟩, ⟨4, 1, .ro, 0⟩, ⟨3, 1, .ro, 0⟩, ⟨2, 1, .ro, 0⟩, ⟨1, 1, .ro, 0⟩, ⟨0, 1, .ro, 0⟩]⟩,
  /- ETH_MAXFRM: 09 R285 -/ ⟨0x80110, 2, 0x10000, [⟨0, 14, .rw, 0x5F2⟩]⟩,
  /- ETH_FILT_CTL: 09 R289 -/ ⟨0x80114, 2, 0x10000, [⟨1, 1, .rw, 0⟩, ⟨0, 1, .rw, 0⟩]⟩,
  /- ETH_PAUSE: 09 R300 -/ ⟨0x80120, 2, 0x10000, [⟨16, 16, .rw, 0xFFFF⟩, ⟨8, 7, .rw, 0x4B⟩, ⟨0, 7, .rw, 0x19⟩]⟩,
  /- ETH_PAUSE_CTL: 09 R300 -/ ⟨0x80124, 2, 0x10000, [⟨1, 1, .rw, 0⟩, ⟨0, 1, .rw, 0⟩]⟩,
  /- ETH_SA_LO: 09 R289 -/ ⟨0x80128, 2, 0x10000, [⟨0, 32, .rw, 0⟩]⟩,
  /- ETH_SA_HI: 09 R289 -/ ⟨0x8012C, 2, 0x10000, [⟨0, 16, .rw, 0⟩]⟩,
  /- ETH_PAUSE_STAT: 09 R300 -/ ⟨0x80130, 2, 0x10000, [⟨31, 1, .ro, 0⟩, ⟨30, 1, .ro, 0⟩, ⟨0, 16, .ro, 0⟩]⟩,
  /- ETH_TS_CTL: 09 R303 -/ ⟨0x80134, 2, 0x10000, [⟨0, 2, .rw, 0⟩]⟩,
  /- ETH_TS_LAT: 09 R303 -/ ⟨0x80138, 2, 0x10000, [⟨16, 16, .rw, 0⟩, ⟨0, 16, .rw, 0⟩]⟩,
  /- ETH_FIFO: 09 R292 -/ ⟨0x8013C, 2, 0x10000, [⟨16, 9, .rc, 0⟩, ⟨0, 9, .ro, 0⟩]⟩,
  /- ETHA_MAC_LO: 09 R289 -/ ⟨0x80200, 32, 0x8, [⟨0, 32, .rw, 0⟩]⟩,
  /- ETHA_MAC_HI: 09 R289 -/ ⟨0x80204, 32, 0x8, [⟨16, 2, .rw, 0⟩, ⟨0, 16, .rw, 0⟩]⟩,
  /- ETHB_MAC_LO: 09 R289 -/ ⟨0x90200, 32, 0x8, [⟨0, 32, .rw, 0⟩]⟩,
  /- ETHB_MAC_HI: 09 R289 -/ ⟨0x90204, 32, 0x8, [⟨16, 2, .rw, 0⟩, ⟨0, 16, .rw, 0⟩]⟩,
  /- ETHA_CNT_LO: 09 R306 -/ ⟨0x80400, 25, 0x8, [⟨0, 32, .rc, 0⟩]⟩,
  /- ETHA_CNT_HI: 09 R306 -/ ⟨0x80404, 25, 0x8, [⟨0, 32, .ro, 0⟩]⟩,
  /- ETHB_CNT_LO: 09 R306 -/ ⟨0x90400, 25, 0x8, [⟨0, 32, .rc, 0⟩]⟩,
  /- ETHB_CNT_HI: 09 R306 -/ ⟨0x90404, 25, 0x8, [⟨0, 32, .ro, 0⟩]⟩]

/-- Register rows of STR. -/
def rowsStr : List RegRow := [
  /- STR_POOL: 10 R328 -/ ⟨0xA0100, 1, 0x0, [⟨0, 21, .ro, 0⟩]⟩,
  /- STR_VALID: 10 R328 -/ ⟨0xA0104, 1, 0x0, [⟨31, 1, .ro, 0⟩, ⟨30, 1, .ro, 0⟩, ⟨8, 4, .ro, 0⟩, ⟨0, 8, .ro, 0⟩]⟩,
  /- STR_RX_STAT: 10 R328 -/ ⟨0xA4000, 256, 0x40, [⟨30, 2, .ro, 0⟩, ⟨29, 1, .ro, 0⟩, ⟨28, 1, .ro, 0⟩, ⟨27, 1, .ro, 0⟩, ⟨26, 1, .ro, 0⟩, ⟨0, 16, .ro, 0⟩]⟩,
  /- STR_RX_PKT_A: 10 R328 -/ ⟨0xA4004, 256, 0x40, [⟨0, 32, .rc, 0⟩]⟩,
  /- STR_RX_PKT_B: 10 R328 -/ ⟨0xA4008, 256, 0x40, [⟨0, 32, .rc, 0⟩]⟩,
  /- STR_RX_USED_A: 10 R328 -/ ⟨0xA400C, 256, 0x40, [⟨0, 32, .rc, 0⟩]⟩,
  /- STR_RX_USED_B: 10 R328 -/ ⟨0xA4010, 256, 0x40, [⟨0, 32, .rc, 0⟩]⟩,
  /- STR_RX_DUP: 10 R328 -/ ⟨0xA4014, 256, 0x40, [⟨0, 32, .rc, 0⟩]⟩,
  /- STR_RX_LATE: 10 R328 -/ ⟨0xA4018, 256, 0x40, [⟨0, 32, .rc, 0⟩]⟩,
  /- STR_RX_EARLY: 10 R328 -/ ⟨0xA401C, 256, 0x40, [⟨0, 32, .rc, 0⟩]⟩,
  /- STR_RX_MISSING: 10 R328 -/ ⟨0xA4020, 256, 0x40, [⟨0, 32, .rc, 0⟩]⟩,
  /- STR_RX_BAD: 10 R328 -/ ⟨0xA4024, 256, 0x40, [⟨0, 32, .rc, 0⟩]⟩,
  /- STR_RX_TS_TICK: 10 R328 -/ ⟨0xA4028, 256, 0x40, [⟨31, 1, .ro, 0⟩, ⟨0, 31, .ro, 0⟩]⟩,
  /- STR_RX_TS: 10 R328 -/ ⟨0xA402C, 256, 0x40, [⟨0, 32, .ro, 0⟩]⟩,
  /- STR_RX_CHK: 10 R328 -/ ⟨0xA4030, 256, 0x40, [⟨0, 32, .ro, 0⟩]⟩,
  /- STR_RX_CHK_SEQ: 10 R328 -/ ⟨0xA4034, 256, 0x40, [⟨0, 16, .ro, 0⟩]⟩,
  /- STR_TX_STAT: 10 R328 -/ ⟨0xA8000, 256, 0x20, [⟨31, 1, .ro, 0⟩, ⟨0, 16, .ro, 0⟩]⟩,
  /- STR_TX_PKT: 10 R328 -/ ⟨0xA8004, 256, 0x20, [⟨0, 32, .rc, 0⟩]⟩,
  /- STR_TX_LATE: 10 R328 -/ ⟨0xA8008, 256, 0x20, [⟨0, 32, .rc, 0⟩]⟩,
  /- STR_TX_DROP: 10 R328 -/ ⟨0xA800C, 256, 0x20, [⟨0, 32, .rc, 0⟩]⟩,
  /- STR_TX_TS_TICK: 10 R328 -/ ⟨0xA8010, 256, 0x20, [⟨0, 31, .ro, 0⟩]⟩,
  /- STR_TX_TS: 10 R328 -/ ⟨0xA8014, 256, 0x20, [⟨0, 32, .ro, 0⟩]⟩]

/-- Register rows of SLP. -/
def rowsSlp : List RegRow := [
  /- SLP_CFG: 07 R248 -/ ⟨0xB0100, 1, 0x0, [⟨8, 7, .rw, 8⟩, ⟨0, 2, .rw, 1⟩]⟩,
  /- SLP_SAT: 07 R248 -/ ⟨0xB0104, 1, 0x0, [⟨0, 16, .rc, 0⟩]⟩,
  /- SLP_RELOCK: 07 R248 -/ ⟨0xB0108, 1, 0x0, [⟨0, 16, .rc, 0⟩]⟩,
  /- SLP_NO_ASRC: 07 R248 -/ ⟨0xB010C, 1, 0x0, [⟨0, 11, .ro, 0⟩]⟩,
  /- SLP_ASRC_STAT: 07 R248 -/ ⟨0xB1000, 256, 0x4, [⟨30, 2, .ro, 0⟩, ⟨29, 1, .ro, 0⟩, ⟨0, 24, .ro, 0⟩]⟩,
  /- SLP_IN_DLY: 07 R248 -/ ⟨0xB2000, 1024, 0x4, [⟨0, 32, .ro, 0⟩]⟩,
  /- SLP_EG_DLY: 07 R248 -/ ⟨0xB3000, 288, 0x4, [⟨0, 32, .ro, 0⟩]⟩]

/-- Register rows of SAP. -/
def rowsSap : List RegRow := [
  /- SAP_SLOTS: 08 R276 -/ ⟨0xC0100, 1, 0x0, [⟨16, 11, .ro, 0⟩, ⟨0, 11, .ro, 0⟩]⟩,
  /- PORT_CTL: 08 R277 -/ ⟨0xC0300, 32, 0x400, [⟨0, 32, .ro, 0⟩]⟩,
  /- PORT_MASK_IN: 08 R277 -/ ⟨0xC0304, 32, 0x400, [⟨0, 32, .ro, 0⟩]⟩,
  /- PORT_MASK_OUT: 08 R277 -/ ⟨0xC0308, 32, 0x400, [⟨0, 32, .ro, 0⟩]⟩,
  /- PORT_PEND: 08 R277 -/ ⟨0xC030C, 32, 0x400, [⟨1, 1, .ro, 0⟩, ⟨0, 1, .ro, 0⟩]⟩,
  /- PORT_CAP_BASE_LO: 08 R277 -/ ⟨0xC0310, 32, 0x400, [⟨0, 32, .ro, 0⟩]⟩,
  /- PORT_CAP_BASE_HI: 08 R277 -/ ⟨0xC0314, 32, 0x400, [⟨0, 32, .ro, 0⟩]⟩,
  /- PORT_PLY_BASE_LO: 08 R277 -/ ⟨0xC0318, 32, 0x400, [⟨0, 32, .ro, 0⟩]⟩,
  /- PORT_PLY_BASE_HI: 08 R277 -/ ⟨0xC031C, 32, 0x400, [⟨0, 32, .ro, 0⟩]⟩,
  /- PORT_CAP_WIDX: 08 R277 -/ ⟨0xC0320, 32, 0x400, [⟨0, 32, .ro, 0⟩]⟩,
  /- PORT_CAP_RIDX: 08 R277 -/ ⟨0xC0324, 32, 0x400, [⟨0, 32, .rw, 0⟩]⟩,
  /- PORT_PLY_WIDX: 08 R277 -/ ⟨0xC0328, 32, 0x400, [⟨0, 32, .rw, 0⟩]⟩,
  /- PORT_PLY_RIDX: 08 R277 -/ ⟨0xC032C, 32, 0x400, [⟨0, 32, .ro, 0⟩]⟩,
  /- PORT_STAMP_SEL: 08 R277 -/ ⟨0xC0330, 32, 0x400, [⟨8, 5, .rw, 0⟩, ⟨0, 5, .rw, 0⟩]⟩,
  /- PORT_TS_IN_TICK: 08 R277 -/ ⟨0xC0334, 32, 0x400, [⟨31, 1, .ro, 0⟩, ⟨0, 31, .ro, 0⟩]⟩,
  /- PORT_TS_IN: 08 R277 -/ ⟨0xC0338, 32, 0x400, [⟨0, 32, .ro, 0⟩]⟩,
  /- PORT_TS_OUT_TICK: 08 R277 -/ ⟨0xC033C, 32, 0x400, [⟨0, 31, .ro, 0⟩]⟩,
  /- PORT_TS_OUT: 08 R277 -/ ⟨0xC0340, 32, 0x400, [⟨0, 32, .ro, 0⟩]⟩,
  /- PORT_UNDERRUN: 08 R277 -/ ⟨0xC0344, 32, 0x400, [⟨0, 16, .rc, 0⟩]⟩,
  /- PORT_OVERRUN: 08 R277 -/ ⟨0xC0348, 32, 0x400, [⟨0, 16, .rc, 0⟩]⟩,
  /- GRP_FMT: 08 R276 -/ ⟨0xC8100, 8, 0x400, [⟨0, 32, .ro, 0⟩]⟩,
  /- GRP_CTL: 08 R276 -/ ⟨0xC8104, 8, 0x400, [⟨0, 32, .ro, 0⟩]⟩,
  /- GRP_STAT: 08 R276 -/ ⟨0xC8108, 8, 0x400, [⟨30, 2, .ro, 0⟩, ⟨29, 1, .ro, 0⟩, ⟨28, 1, .ro, 0⟩, ⟨0, 16, .ro, 0⟩]⟩,
  /- GRP_PHASE: 08 R276 -/ ⟨0xC810C, 8, 0x400, [⟨0, 12, .ro, 0⟩]⟩,
  /- GRP_FRAME_ERR: 08 R276 -/ ⟨0xC8110, 8, 0x400, [⟨0, 16, .rc, 0⟩]⟩,
  /- GRP_CLK_LOST: 08 R276 -/ ⟨0xC8114, 8, 0x400, [⟨0, 16, .rc, 0⟩]⟩,
  /- GRP_SLIP: 08 R276 -/ ⟨0xC8118, 8, 0x400, [⟨0, 16, .rc, 0⟩]⟩]

/-- Register rows of XPT. -/
def rowsXpt : List RegRow := [
  /- XPT_AUTO: 05 R193 -/ ⟨0xD0100, 1, 0x0, [⟨0, 11, .ro, 0⟩]⟩,
  /- XPT_SAT: 05 R193 -/ ⟨0xD0104, 1, 0x0, [⟨0, 16, .rc, 0⟩]⟩,
  /- XPT_CLIPPED: 05 R193 -/ ⟨0xD0108, 1, 0x0, [⟨0, 16, .rc, 0⟩]⟩,
  /- XPT_PARITY: 05 R193 -/ ⟨0xD010C, 1, 0x0, [⟨0, 16, .rc, 0⟩]⟩,
  /- OSC_CTL: 05 R184 -/ ⟨0xD0200, 16, 0x10, [⟨31, 1, .rw, 0⟩, ⟨16, 2, .rw, 0⟩, ⟨0, 16, .rw, 0⟩]⟩,
  /- OSC_INC: 05 R184 -/ ⟨0xD0204, 16, 0x10, [⟨0, 32, .rw, 0⟩]⟩,
  /- OSC_PHASE: 05 R184 -/ ⟨0xD0208, 16, 0x10, [⟨0, 32, .rw, 0⟩]⟩]

/-- Register rows of OBJ. -/
def rowsObj : List RegRow := [
  /- OBJ_C: 03 R107 -/ ⟨0xE0100, 1, 0x0, [⟨0, 32, .rw, 0x1570000⟩]⟩,
  /- OBJ_LANE_CFG: 04 R161 -/ ⟨0xE0104, 1, 0x0, [⟨16, 16, .rw, 0x40⟩, ⟨8, 5, .rw, 0⟩, ⟨0, 1, .rw, 0⟩]⟩,
  /- OBJ_CD_BASE_LO: 04 R161 -/ ⟨0xE0108, 1, 0x0, [⟨12, 20, .rw, 0⟩]⟩,
  /- OBJ_CD_BASE_HI: 04 R161 -/ ⟨0xE010C, 1, 0x0, [⟨0, 2, .rw, 0⟩]⟩,
  /- OBJ_DSUB: 04 R161 -/ ⟨0xE0110, 1, 0x0, [⟨0, 32, .rw, 0⟩]⟩,
  /- OBJ_ADMIT_LO: 04 R161 -/ ⟨0xE0114, 1, 0x0, [⟨24, 8, .rw, 0x40⟩, ⟨16, 8, .rw, 0x30⟩, ⟨8, 8, .rw, 0x20⟩, ⟨0, 8, .rw, 0x10⟩]⟩,
  /- OBJ_ADMIT_HI: 04 R161 -/ ⟨0xE0118, 1, 0x0, [⟨24, 8, .rw, 0x80⟩, ⟨16, 8, .rw, 0x70⟩, ⟨8, 8, .rw, 0x60⟩, ⟨0, 8, .rw, 0x50⟩]⟩,
  /- OBJ_ADMIT: 04 R161 -/ ⟨0xE011C, 1, 0x0, [⟨16, 12, .ro, 0⟩, ⟨0, 12, .ro, 0⟩]⟩,
  /- OBJ_UNITS_USED: 04 R161 -/ ⟨0xE0120, 1, 0x0, [⟨0, 20, .ro, 0⟩]⟩,
  /- OBJ_UNITS_CAP: 04 R161 -/ ⟨0xE0124, 1, 0x0, [⟨0, 20, .ro, 0⟩]⟩,
  /- OBJ_LANES: 04 R161 -/ ⟨0xE0128, 1, 0x0, [⟨0, 6, .ro, 0⟩]⟩,
  /- OBJ_CLAMP: 04 R162 -/ ⟨0xE0130, 1, 0x0, [⟨0, 16, .rc, 0⟩]⟩,
  /- OBJ_RESEAT: 04 R162 -/ ⟨0xE0134, 1, 0x0, [⟨0, 16, .rc, 0⟩]⟩,
  /- OBJ_FEED_SAT: 04 R162 -/ ⟨0xE0138, 1, 0x0, [⟨0, 16, .rc, 0⟩]⟩,
  /- OBJ_CD_LATE: 04 R162 -/ ⟨0xE013C, 1, 0x0, [⟨0, 16, .rc, 0⟩]⟩,
  /- OBJ_LANE_LOST: 04 R162 -/ ⟨0xE0140, 1, 0x0, [⟨0, 16, .rc, 0⟩]⟩,
  /- OBJ_CUT: 04 R162 -/ ⟨0xE0144, 1, 0x0, [⟨0, 16, .rc, 0⟩]⟩,
  /- PAN_VALID: 03 R108 -/ ⟨0xE1100, 1, 0x0, [⟨16, 12, .ro, 0⟩, ⟨8, 2, .ro, 0⟩, ⟨0, 4, .ro, 0⟩]⟩,
  /- PAN_HELD: 03 R108 -/ ⟨0xE1104, 1, 0x0, [⟨0, 16, .rc, 0⟩]⟩,
  /- PAN_WALK: 03 R108 -/ ⟨0xE1108, 1, 0x0, [⟨0, 16, .rc, 0⟩]⟩,
  /- PAN_SILENT: 03 R108 -/ ⟨0xE110C, 1, 0x0, [⟨0, 16, .rc, 0⟩]⟩,
  /- PAN_RECOMP: 03 R108 -/ ⟨0xE1110, 1, 0x0, [⟨0, 16, .rc, 0⟩]⟩,
  /- PAN_KF_LATE: 03 R108 -/ ⟨0xE1114, 1, 0x0, [⟨0, 16, .rc, 0⟩]⟩,
  /- LANE_UNITS: 04 R164 -/ ⟨0xE4100, 32, 0x200, [⟨0, 13, .ro, 0⟩]⟩,
  /- OBJ_STAT: 04 R163 -/ ⟨0xE8000, 2048, 0x4, [⟨31, 1, .ro, 0⟩, ⟨30, 1, .ro, 0⟩, ⟨28, 2, .ro, 0⟩, ⟨20, 8, .ro, 0⟩, ⟨19, 1, .ro, 0⟩, ⟨0, 18, .ro, 0⟩]⟩]

/-- Register rows of OUT. -/
def rowsOut : List RegRow := [
  /- OUT_CFG: 06 R225 -/ ⟨0xF0100, 1, 0x0, [⟨8, 5, .rw, 0⟩]⟩,
  /- OUT_DL_BASE_LO: 06 R225 -/ ⟨0xF0104, 1, 0x0, [⟨12, 20, .rw, 0⟩]⟩,
  /- OUT_DL_BASE_HI: 06 R225 -/ ⟨0xF0108, 1, 0x0, [⟨0, 2, .rw, 0⟩]⟩,
  /- OUT_CV_BASE_LO: 06 R225 -/ ⟨0xF010C, 1, 0x0, [⟨12, 20, .rw, 0⟩]⟩,
  /- OUT_CV_BASE_HI: 06 R225 -/ ⟨0xF0110, 1, 0x0, [⟨0, 2, .rw, 0⟩]⟩,
  /- OUT_LIMITING: 06 R225 -/ ⟨0xF0114, 1, 0x0, [⟨0, 11, .ro, 0⟩]⟩,
  /- OUT_LIM_SHED: 06 R225 -/ ⟨0xF0118, 1, 0x0, [⟨0, 11, .ro, 0⟩]⟩,
  /- OUT_CONFLICT: 06 R225 -/ ⟨0xF011C, 1, 0x0, [⟨0, 12, .ro, 0⟩]⟩,
  /- OUT_SAT: 06 R226 -/ ⟨0xF0120, 1, 0x0, [⟨0, 16, .rc, 0⟩]⟩,
  /- OUT_LIM_CLIP: 06 R226 -/ ⟨0xF0124, 1, 0x0, [⟨0, 16, .rc, 0⟩]⟩,
  /- OUT_DRAM_LATE: 06 R226 -/ ⟨0xF0128, 1, 0x0, [⟨0, 16, .rc, 0⟩]⟩,
  /- OUT_VALID: 06 R225 -/ ⟨0xF0130, 1, 0x0, [⟨31, 1, .ro, 0⟩, ⟨0, 11, .ro, 0⟩]⟩,
  /- OUT_STAT: 06 R227 -/ ⟨0xF8000, 1024, 0x4, [⟨31, 1, .ro, 0⟩, ⟨30, 1, .ro, 0⟩, ⟨29, 1, .ro, 0⟩, ⟨28, 1, .ro, 0⟩, ⟨26, 2, .ro, 0⟩, ⟨24, 2, .ro, 0⟩, ⟨16, 8, .ro, 0⟩, ⟨0, 16, .ro, 0⟩]⟩]

/-- Register rows of DSP. -/
def rowsDsp : List RegRow := [
  /- DSP_FREQ: 14 R451 -/ ⟨0x100100, 1, 0x0, [⟨0, 11, .ro, 0x3E8⟩]⟩,
  /- CORE_STAT: 14 R451 -/ ⟨0x100900, 16, 0x1000, [⟨30, 2, .ro, 0⟩, ⟨29, 1, .ro, 0⟩, ⟨28, 1, .ro, 0⟩, ⟨25, 3, .ro, 0⟩]⟩,
  /- CORE_PC: 14 R451 -/ ⟨0x100904, 16, 0x1000, [⟨0, 20, .ro, 0⟩]⟩,
  /- CORE_EXC: 14 R451 -/ ⟨0x100908, 16, 0x1000, [⟨24, 8, .ro, 0⟩]⟩,
  /- CORE_EXC_PC: 14 R451 -/ ⟨0x10090C, 16, 0x1000, [⟨0, 20, .ro, 0⟩]⟩,
  /- CORE_TBLK: 14 R451 -/ ⟨0x100910, 16, 0x1000, [⟨0, 32, .ro, 0⟩]⟩,
  /- CORE_BUSY: 14 R451 -/ ⟨0x100914, 16, 0x1000, [⟨0, 24, .ro, 0⟩]⟩,
  /- CORE_MBOX: 14 R451 -/ ⟨0x100918, 16, 0x1000, [⟨0, 32, .rw, 0⟩]⟩,
  /- CORE_MSG: 14 R451 -/ ⟨0x10091C, 16, 0x1000, [⟨0, 32, .ro, 0⟩]⟩,
  /- CORE_TDONE: 14 R451 -/ ⟨0x100920, 16, 0x1000, [⟨0, 16, .rc, 0⟩]⟩,
  /- CORE_RET_DROP: 14 R451 -/ ⟨0x100924, 16, 0x1000, [⟨0, 16, .rc, 0⟩]⟩,
  /- CORE_STALE: 14 R451 -/ ⟨0x100928, 16, 0x1000, [⟨0, 16, .rc, 0⟩]⟩]

/-- Register rows of FMN. -/
def rowsFmn : List RegRow := [
  /- FMN_LIST_CFG: 15 R471 -/ ⟨0x110100, 4, 0x4, [⟨0, 2, .rw, 0⟩]⟩,
  /- FMN_LIST_NOW_LO: 15 R471 -/ ⟨0x110110, 4, 0x8, [⟨0, 32, .ro, 0⟩]⟩,
  /- FMN_LIST_NOW_HI: 15 R471 -/ ⟨0x110114, 4, 0x8, [⟨0, 16, .ro, 0⟩]⟩,
  /- FMN_EMIN: 15 R471 -/ ⟨0x110130, 1, 0x0, [⟨8, 3, .rw, 6⟩, ⟨4, 3, .rw, 4⟩, ⟨0, 3, .rw, 2⟩]⟩,
  /- FMN_SWTICK: 15 R471 -/ ⟨0x110134, 1, 0x0, [⟨0, 1, .wo, 0⟩]⟩,
  /- FMN_SEQ: 15 R471 -/ ⟨0x110138, 1, 0x0, [⟨0, 32, .ro, 0⟩]⟩,
  /- FMN_SUBMITTED: 15 R472 -/ ⟨0x110140, 1, 0x0, [⟨0, 16, .rc, 0⟩]⟩,
  /- FMN_RELEASED: 15 R472 -/ ⟨0x110144, 1, 0x0, [⟨0, 16, .rc, 0⟩]⟩,
  /- FMN_LATE: 15 R472 -/ ⟨0x110148, 1, 0x0, [⟨0, 16, .rc, 0⟩]⟩,
  /- FMN_CANCELLED: 15 R472 -/ ⟨0x11014C, 1, 0x0, [⟨0, 16, .rc, 0⟩]⟩,
  /- FMN_SKIP: 15 R472 -/ ⟨0x110150, 1, 0x0, [⟨0, 16, .rc, 0⟩]⟩,
  /- FMN_NOTDONE: 15 R472 -/ ⟨0x110154, 1, 0x0, [⟨0, 16, .rc, 0⟩]⟩,
  /- FMN_CPL_DROP: 15 R472 -/ ⟨0x110158, 1, 0x0, [⟨0, 16, .rc, 0⟩]⟩]

/-- Register rows of TTH. -/
def rowsTth : List RegRow := [
  /- TTH_CTL: 13 R415 -/ ⟨0x120100, 1, 0x0, [⟨16, 8, .rw, 0xA⟩, ⟨11, 1, .rw, 0⟩, ⟨10, 1, .rw, 0⟩, ⟨9, 1, .rw, 1⟩, ⟨8, 1, .rw, 0⟩, ⟨3, 1, .rw, 1⟩, ⟨2, 1, .rw, 1⟩, ⟨1, 1, .wo, 0⟩, ⟨0, 1, .wo, 0⟩]⟩,
  /- TTH_TIMES: 13 R416 -/ ⟨0x120104, 1, 0x0, [⟨16, 16, .rw, 0x64⟩, ⟨0, 16, .rw, 0xA⟩]⟩,
  /- TTH_SKEW: 13 R416 -/ ⟨0x120108, 1, 0x0, [⟨0, 16, .rw, 0⟩]⟩,
  /- TTH_STAT: 13 R416 -/ ⟨0x120110, 1, 0x0, [⟨28, 4, .ro, 0⟩, ⟨26, 2, .ro, 0⟩, ⟨25, 1, .ro, 0⟩, ⟨24, 1, .ro, 0⟩, ⟨23, 1, .ro, 0⟩, ⟨22, 1, .ro, 0⟩, ⟨21, 1, .ro, 0⟩, ⟨20, 1, .ro, 0⟩, ⟨19, 1, .ro, 0⟩]⟩,
  /- TTH_UNFIT: 13 R416 -/ ⟨0x120114, 1, 0x0, [⟨0, 9, .ro, 0⟩]⟩,
  /- TTH_PEER: 13 R416 -/ ⟨0x120118, 1, 0x0, [⟨16, 16, .ro, 0⟩, ⟨8, 8, .ro, 0⟩, ⟨0, 2, .ro, 0⟩]⟩,
  /- TTH_LINK: 13 R416 -/ ⟨0x12011C, 1, 0x0, [⟨0, 16, .ro, 0⟩]⟩,
  /- TTH_TBOFS: 13 R416 -/ ⟨0x120120, 1, 0x0, [⟨0, 32, .ro, 0⟩]⟩,
  /- TTH_HANDOVER: 13 R416 -/ ⟨0x120124, 1, 0x0, [⟨0, 32, .ro, 0⟩]⟩,
  /- TTH_SETTLE: 13 R416 -/ ⟨0x120128, 1, 0x0, [⟨0, 20, .ro, 0⟩]⟩,
  /- TTH_TAKEOVER: 13 R417 -/ ⟨0x120140, 1, 0x0, [⟨0, 16, .rc, 0⟩]⟩,
  /- TTH_RETRY: 13 R417 -/ ⟨0x120144, 1, 0x0, [⟨0, 16, .rc, 0⟩]⟩,
  /- TTH_REMIRROR: 13 R417 -/ ⟨0x120148, 1, 0x0, [⟨0, 16, .rc, 0⟩]⟩,
  /- TTH_REALIGN: 13 R417 -/ ⟨0x12014C, 1, 0x0, [⟨0, 16, .rc, 0⟩]⟩,
  /- TTH_DIVERGE: 13 R417 -/ ⟨0x120150, 1, 0x0, [⟨0, 16, .rc, 0⟩]⟩]

/-- Register rows of MTR. -/
def rowsMtr : List RegRow := [
  /- MTR_SNAP: 05 R195 -/ ⟨0x130100, 1, 0x0, [⟨16, 16, .ro, 0⟩, ⟨8, 6, .ro, 0⟩, ⟨0, 1, .ro, 0⟩]⟩,
  /- MTR_RANGE: 05 R195 -/ ⟨0x130104, 1, 0x0, [⟨16, 13, .ro, 0⟩, ⟨0, 12, .ro, 0⟩]⟩,
  /- MTR_LAST: 05 R195 -/ ⟨0x130108, 1, 0x0, [⟨0, 32, .ro, 0⟩]⟩,
  /- MTR_DROP: 05 R195 -/ ⟨0x13010C, 1, 0x0, [⟨0, 16, .rc, 0⟩]⟩,
  /- MTR_LEVEL0: 05 R195 -/ ⟨0x138000, 4096, 0x8, [⟨16, 16, .ro, 0⟩, ⟨0, 16, .ro, 0⟩]⟩,
  /- MTR_LEVEL1: 05 R195 -/ ⟨0x138004, 4096, 0x8, [⟨0, 16, .ro, 0⟩]⟩]

/-- Register rows of PIN. -/
def rowsPin : List RegRow := [
  /- PIN_ACT: 17 R514 -/ ⟨0x140100, 1, 0x0, [⟨16, 7, .rw, 0⟩, ⟨0, 7, .rw, 7⟩]⟩,
  /- PIN_FLAGS: 17 R514 -/ ⟨0x140104, 1, 0x0, [⟨0, 7, .w1c, 0⟩]⟩,
  /- PIN_LAST: 17 R514 -/ ⟨0x140108, 1, 0x0, [⟨16, 3, .ro, 0⟩, ⟨8, 3, .ro, 0⟩, ⟨0, 6, .ro, 0⟩]⟩,
  /- PIN_OPEN_TEST: 17 R511 -/ ⟨0x14010C, 1, 0x0, [⟨31, 1, .wo, 0⟩, ⟨30, 1, .ro, 0⟩]⟩,
  /- PIN_STAT_SEL: 17 R515 -/ ⟨0x140110, 1, 0x0, [⟨31, 1, .rw, 0⟩, ⟨24, 7, .rw, 0⟩, ⟨23, 1, .rw, 0⟩, ⟨16, 7, .rw, 0⟩, ⟨15, 1, .rw, 0⟩, ⟨8, 7, .rw, 0⟩, ⟨7, 1, .rw, 0⟩, ⟨0, 7, .rw, 0⟩]⟩]

/-- The register table, by unit page (BAR0 address / 0x1_0000, spec 19 R528). -/
def rowsOfPage : Nat → List RegRow
  | 0 => rowsTop
  | 1 => rowsHre
  | 2 => rowsFab
  | 3 => rowsDmc
  | 4 => rowsCvu
  | 5 => rowsPwr
  | 6 => rowsTbu
  | 7 => rowsRef
  | 8 => rowsEth
  | 9 => rowsEth
  | 10 => rowsStr
  | 11 => rowsSlp
  | 12 => rowsSap
  | 13 => rowsXpt
  | 14 => rowsObj
  | 15 => rowsOut
  | 16 => rowsDsp
  | 17 => rowsFmn
  | 18 => rowsTth
  | 19 => rowsMtr
  | 20 => rowsPin
  | _ => []

/-! Names of the fields. -/
namespace R

def TOP_STATE_REFUSE : Field := ⟨0x100, 16, 4⟩
def TOP_STATE_SAFE_CAUSE : Field := ⟨0x100, 8, 8⟩
def TOP_STATE_REQUESTED : Field := ⟨0x100, 4, 3⟩
def TOP_STATE_STATE : Field := ⟨0x100, 0, 3⟩
def TOP_STATE_REQ_REQ : Field := ⟨0x104, 0, 3⟩
def TOP_RATE_TICK_RUN : Field := ⟨0x108, 8, 1⟩
def TOP_RATE_BLOCK : Field := ⟨0x108, 4, 2⟩
def TOP_RATE_FAMILY : Field := ⟨0x108, 2, 1⟩
def TOP_RATE_FS_MULT : Field := ⟨0x108, 0, 2⟩
def TOP_PIPE_DSP_MISS : Field := ⟨0x10C, 12, 1⟩
def TOP_PIPE_DSP_LAG : Field := ⟨0x10C, 8, 4⟩
def TOP_PIPE_OVERRUN_LIMIT : Field := ⟨0x10C, 0, 8⟩
def TOP_TICK_LO_TICK_LO : Field := ⟨0x110, 0, 32⟩
def TOP_TICK_HI_TICK_HI : Field := ⟨0x114, 0, 16⟩
def TOP_TICK_PHASE_PHASE : Field := ⟨0x118, 0, 24⟩
def TOP_TICK_LOAD_LO_LOAD_LO : Field := ⟨0x11C, 0, 32⟩
def TOP_TICK_LOAD_HI_LOAD : Field := ⟨0x120, 31, 1⟩
def TOP_TICK_LOAD_HI_LOAD_HI : Field := ⟨0x120, 0, 16⟩
def TOP_OVERRUN_COUNT : Field := ⟨0x124, 0, 16⟩
def TOP_DSP_MISS_COUNT : Field := ⟨0x128, 0, 16⟩
def TOP_PART_PART_NUM : Field := ⟨0x130, 16, 16⟩
def TOP_PART_GRADE : Field := ⟨0x130, 8, 8⟩
def TOP_PART_SIREV : Field := ⟨0x130, 0, 8⟩
def TOP_RESET_KEY : Field := ⟨0x140, 16, 16⟩
def TOP_RESET_SOFT : Field := ⟨0x140, 0, 1⟩
def TOP_BOOT_DONE : Field := ⟨0x144, 31, 1⟩
def TOP_BOOT_BUSY : Field := ⟨0x144, 30, 1⟩
def TOP_BOOT_OPEN : Field := ⟨0x144, 29, 1⟩
def TOP_BOOT_SRC : Field := ⟨0x144, 24, 2⟩
def TOP_BOOT_ERR : Field := ⟨0x144, 20, 4⟩
def TOP_BOOT_ROLLBACK : Field := ⟨0x144, 8, 8⟩
def TOP_BOOT_BOOTSEL : Field := ⟨0x144, 1, 1⟩
def TOP_BOOT_GO : Field := ⟨0x144, 0, 1⟩
def TOP_BOOT_ADDR_LO_ADDR_LO : Field := ⟨0x148, 8, 24⟩
def TOP_BOOT_ADDR_HI_ADDR_HI : Field := ⟨0x14C, 0, 32⟩
def TOP_RESET_CAUSE_LEVEL : Field := ⟨0x154, 0, 3⟩
def TOP_FW_DIGEST_DIGEST (i : Nat) : Field := ⟨0x160 + 0x4 * i, 0, 32⟩
def HRE_CTL_FETCH_MAX : Field := ⟨0x10100, 16, 11⟩
def HRE_CTL_URGENT_MAX : Field := ⟨0x10100, 8, 4⟩
def HRE_CTL_STATUS_EN : Field := ⟨0x10100, 1, 1⟩
def HRE_CTL_POLL_EN : Field := ⟨0x10100, 0, 1⟩
def HRE_DB_LO_DB_LO : Field := ⟨0x10108, 9, 23⟩
def HRE_DB_HI_DB_HI : Field := ⟨0x1010C, 0, 32⟩
def HRE_ST_LO_ST_LO : Field := ⟨0x10110, 10, 22⟩
def HRE_ST_HI_ST_HI : Field := ⟨0x10114, 0, 32⟩
def HRE_URGENT_POLL : Field := ⟨0x10118, 0, 1⟩
def HRE_PAQ_HWM : Field := ⟨0x1011C, 16, 13⟩
def HRE_PAQ_FILL : Field := ⟨0x1011C, 0, 13⟩
def HRE_EVT_EN : Field := ⟨0x10120, 8, 1⟩
def HRE_EVT_RING : Field := ⟨0x10120, 0, 6⟩
def RING_BASE_LO_BASE_LO (i : Nat) : Field := ⟨0x10400 + 0x20 * i, 12, 20⟩
def RING_BASE_HI_BASE_HI (i : Nat) : Field := ⟨0x10404 + 0x20 * i, 0, 32⟩
def RING_CFG_LINK (i : Nat) : Field := ⟨0x10408 + 0x20 * i, 24, 6⟩
def RING_CFG_LOG2_SIZE (i : Nat) : Field := ⟨0x10408 + 0x20 * i, 12, 5⟩
def RING_CFG_TYPE (i : Nat) : Field := ⟨0x10408 + 0x20 * i, 8, 3⟩
def RING_CFG_HALT_CAUSE (i : Nat) : Field := ⟨0x10408 + 0x20 * i, 4, 4⟩
def RING_CFG_HALTED (i : Nat) : Field := ⟨0x10408 + 0x20 * i, 1, 1⟩
def RING_CFG_ENABLE (i : Nat) : Field := ⟨0x10408 + 0x20 * i, 0, 1⟩
def RING_INIT_INIT (i : Nat) : Field := ⟨0x1040C + 0x20 * i, 0, 32⟩
def RING_DEV_IDX_DEV_IDX (i : Nat) : Field := ⟨0x10410 + 0x20 * i, 0, 32⟩
def RING_HOST_IDX_HOST_IDX (i : Nat) : Field := ⟨0x10414 + 0x20 * i, 0, 32⟩
def RING_VEC_COAL_COUNT (i : Nat) : Field := ⟨0x10418 + 0x20 * i, 16, 16⟩
def RING_VEC_COAL_TICKS (i : Nat) : Field := ⟨0x10418 + 0x20 * i, 8, 8⟩
def RING_VEC_VEC (i : Nat) : Field := ⟨0x10418 + 0x20 * i, 0, 6⟩
def RING_DROP_COUNT (i : Nat) : Field := ⟨0x1041C + 0x20 * i, 0, 16⟩
def MSIX_ADDR_LO_ADDR_LO (i : Nat) : Field := ⟨0x18000 + 0x10 * i, 2, 30⟩
def MSIX_ADDR_HI_ADDR_HI (i : Nat) : Field := ⟨0x18004 + 0x10 * i, 0, 32⟩
def MSIX_DATA_DATA (i : Nat) : Field := ⟨0x18008 + 0x10 * i, 0, 32⟩
def MSIX_CTRL_MASK (i : Nat) : Field := ⟨0x1800C + 0x10 * i, 0, 1⟩
def MSIX_PBA_PENDING (i : Nat) : Field := ⟨0x19000 + 0x4 * i, 0, 32⟩
def FAB_QOS_QOS_RD (i : Nat) : Field := ⟨0x20100 + 0x4 * i, 4, 4⟩
def FAB_QOS_QOS_WR (i : Nat) : Field := ⟨0x20100 + 0x4 * i, 0, 4⟩
def FAB_AGE_AGE : Field := ⟨0x20140, 0, 16⟩
def FAB_ERR_INFO_VALID : Field := ⟨0x20150, 31, 1⟩
def FAB_ERR_INFO_OVERFLOW : Field := ⟨0x20150, 30, 1⟩
def FAB_ERR_INFO_TYPE : Field := ⟨0x20150, 28, 2⟩
def FAB_ERR_INFO_WRITE : Field := ⟨0x20150, 27, 1⟩
def FAB_ERR_INFO_MASTER : Field := ⟨0x20150, 16, 4⟩
def FAB_ERR_INFO_ID : Field := ⟨0x20150, 0, 8⟩
def FAB_ERR_ADDR_LO_ADDR_LO : Field := ⟨0x20154, 0, 32⟩
def FAB_ERR_ADDR_HI_ADDR_HI : Field := ⟨0x20158, 0, 3⟩
def FAB_ERR_CNT_COUNT : Field := ⟨0x2015C, 0, 16⟩
def DMC_CFG_GRAIN : Field := ⟨0x30100, 20, 5⟩
def DMC_CFG_DENSITY : Field := ⟨0x30100, 16, 2⟩
def DMC_CFG_RANKS2 : Field := ⟨0x30100, 8, 1⟩
def DMC_REF_POSTPONE_EN : Field := ⟨0x30104, 31, 1⟩
def DMC_REF_MR4_POLL : Field := ⟨0x30104, 16, 8⟩
def DMC_REF_TRFC : Field := ⟨0x30104, 0, 12⟩
def DMC_RT_QOS_RT_QOS : Field := ⟨0x30108, 0, 4⟩
def DMC_PD_TIMER_PD_TIMER : Field := ⟨0x3010C, 0, 16⟩
def DMC_CH_STAT_HOT (i : Nat) : Field := ⟨0x30110 + 0x4 * i, 31, 1⟩
def DMC_CH_STAT_OVERTEMP (i : Nat) : Field := ⟨0x30110 + 0x4 * i, 30, 1⟩
def DMC_CH_STAT_PD (i : Nat) : Field := ⟨0x30110 + 0x4 * i, 28, 2⟩
def DMC_CH_STAT_OWED (i : Nat) : Field := ⟨0x30110 + 0x4 * i, 23, 5⟩
def DMC_CH_STAT_MR4_RATE (i : Nat) : Field := ⟨0x30110 + 0x4 * i, 16, 5⟩
def DMC_CHECK_GO : Field := ⟨0x30180, 31, 1⟩
def DMC_CHECK_BUSY : Field := ⟨0x30180, 30, 1⟩
def DMC_CHECK_CHECKED : Field := ⟨0x30180, 29, 1⟩
def DMC_CHECK_FAIL : Field := ⟨0x30180, 28, 1⟩
def DMC_CHECK_FAIL_LANE : Field := ⟨0x30180, 16, 8⟩
def DMC_CHECK_MARGIN : Field := ⟨0x30180, 8, 8⟩
def DMC_CHECK_RECHECK : Field := ⟨0x30180, 0, 8⟩
def DMC_POSTPONED_COUNT : Field := ⟨0x30190, 0, 16⟩
def DMC_FORCED_COUNT : Field := ⟨0x30194, 0, 16⟩
def DMC_HOT_BURST_COUNT : Field := ⟨0x30198, 0, 16⟩
def DMC_OUTSIDE_COUNT : Field := ⟨0x3019C, 0, 16⟩
def REG_BASE_LO_BASE_LO (i : Nat) : Field := ⟨0x30200 + 0x20 * i, 16, 16⟩
def REG_BASE_HI_BASE_HI (i : Nat) : Field := ⟨0x30204 + 0x20 * i, 0, 2⟩
def REG_SIZE_SIZE (i : Nat) : Field := ⟨0x30208 + 0x20 * i, 0, 18⟩
def REG_CTL_EN (i : Nat) : Field := ⟨0x3020C + 0x20 * i, 31, 1⟩
def REG_CTL_CLASS (i : Nat) : Field := ⟨0x3020C + 0x20 * i, 30, 1⟩
def REG_CTL_CHECK (i : Nat) : Field := ⟨0x3020C + 0x20 * i, 29, 1⟩
def REG_CV_LO_CV_LO (i : Nat) : Field := ⟨0x30210 + 0x20 * i, 8, 24⟩
def REG_CV_HI_CV_HI (i : Nat) : Field := ⟨0x30214 + 0x20 * i, 0, 2⟩
def DLY_WL_WL (i : Nat) : Field := ⟨0x30400 + 0x40 * i, 0, 10⟩
def DLY_RG_RG (i : Nat) : Field := ⟨0x30404 + 0x40 * i, 0, 14⟩
def DLY_WDSK_WDSK (i : Nat) : Field := ⟨0x30408 + 0x40 * i, 0, 32⟩
def DLY_RDSK_RDSK (i : Nat) : Field := ⟨0x3040C + 0x40 * i, 0, 32⟩
def CVU_ERR_COUNT (i : Nat) : Field := ⟨0x40500 + 0x200 * i, 0, 16⟩
def CVU_TAG_LO_TAG_LO (i : Nat) : Field := ⟨0x40504 + 0x200 * i, 0, 32⟩
def CVU_TAG_HI_TAG_HI (i : Nat) : Field := ⟨0x40508 + 0x200 * i, 0, 32⟩
def CVU_GOT_GOT (i : Nat) : Field := ⟨0x4050C + 0x200 * i, 0, 32⟩
def CVU_EXP_EXP (i : Nat) : Field := ⟨0x40510 + 0x200 * i, 0, 32⟩
def CVU_DONE_COUNT (i : Nat) : Field := ⟨0x40514 + 0x200 * i, 0, 32⟩
def PWR_TMAX_SENSOR : Field := ⟨0x50100, 16, 4⟩
def PWR_TMAX_TMAX : Field := ⟨0x50100, 0, 16⟩
def PWR_THERM_T_SAFE : Field := ⟨0x50104, 24, 8⟩
def PWR_THERM_TH_START : Field := ⟨0x50104, 16, 8⟩
def PWR_THERM_TH_STEP : Field := ⟨0x50104, 0, 4⟩
def PWR_CORE_CURRENT : Field := ⟨0x50108, 16, 16⟩
def PWR_CORE_VOLTAGE : Field := ⟨0x50108, 0, 16⟩
def PWR_ENERGY_P_SUST : Field := ⟨0x5010C, 16, 16⟩
def PWR_ENERGY_E_CAP : Field := ⟨0x5010C, 0, 16⟩
def PWR_EACC_E : Field := ⟨0x50110, 0, 24⟩
def PWR_LEVEL_RISE_HOLD : Field := ⟨0x50114, 16, 16⟩
def PWR_LEVEL_CAP : Field := ⟨0x50114, 12, 3⟩
def PWR_LEVEL_OWN : Field := ⟨0x50114, 8, 3⟩
def PWR_LEVEL_L_T : Field := ⟨0x50114, 4, 3⟩
def PWR_LEVEL_LEVEL : Field := ⟨0x50114, 0, 3⟩
def PWR_DSPF_LO_F3 : Field := ⟨0x50118, 24, 8⟩
def PWR_DSPF_LO_F2 : Field := ⟨0x50118, 16, 8⟩
def PWR_DSPF_LO_F1 : Field := ⟨0x50118, 8, 8⟩
def PWR_DSPF_LO_F0 : Field := ⟨0x50118, 0, 8⟩
def PWR_DSPF_HI_F7 : Field := ⟨0x5011C, 24, 8⟩
def PWR_DSPF_HI_F6 : Field := ⟨0x5011C, 16, 8⟩
def PWR_DSPF_HI_F5 : Field := ⟨0x5011C, 8, 8⟩
def PWR_DSPF_HI_F4 : Field := ⟨0x5011C, 0, 8⟩
def PWR_SUPPLY_OVER : Field := ⟨0x50120, 8, 6⟩
def PWR_SUPPLY_UNDER : Field := ⟨0x50120, 0, 6⟩
def PWR_ITRIP_I_TRIP : Field := ⟨0x50124, 0, 16⟩
def PWR_DROPS_COUNT : Field := ⟨0x50140, 0, 16⟩
def PWR_SENS_EN (i : Nat) : Field := ⟨0x50200 + 0x4 * i, 31, 1⟩
def PWR_SENS_FAILED (i : Nat) : Field := ⟨0x50200 + 0x4 * i, 30, 1⟩
def PWR_SENS_TEMP (i : Nat) : Field := ⟨0x50200 + 0x4 * i, 0, 16⟩
def TB_SNAP_CTL_SNAP : Field := ⟨0x60100, 0, 1⟩
def CAP_TRIG_TRIG : Field := ⟨0x60104, 0, 1⟩
def TB_SNAP_NS_NS (i : Nat) : Field := ⟨0x60110 + 0x8 * i, 0, 32⟩
def TB_SNAP_FRAC_FRAC (i : Nat) : Field := ⟨0x60114 + 0x8 * i, 0, 32⟩
def TB_SNAP_TICK_LO_TICK_LO : Field := ⟨0x60130, 0, 32⟩
def TB_SNAP_TICK_HI_TICK_HI : Field := ⟨0x60134, 0, 16⟩
def TB_SNAP_PHASE_PHASE : Field := ⟨0x60138, 0, 24⟩
def TB_NS_NS (i : Nat) : Field := ⟨0x60200 + 0x80 * i, 0, 32⟩
def TB_FRAC_FRAC (i : Nat) : Field := ⟨0x60204 + 0x80 * i, 0, 32⟩
def TB_RATE_RATE (i : Nat) : Field := ⟨0x60208 + 0x80 * i, 0, 32⟩
def TB_SERVO_STATE (i : Nat) : Field := ⟨0x6020C + 0x80 * i, 30, 2⟩
def TB_SERVO_BW (i : Nat) : Field := ⟨0x6020C + 0x80 * i, 16, 10⟩
def TB_SERVO_SRC_TB (i : Nat) : Field := ⟨0x6020C + 0x80 * i, 4, 2⟩
def TB_SERVO_SRC (i : Nat) : Field := ⟨0x6020C + 0x80 * i, 0, 3⟩
def TB_LIM_LIM (i : Nat) : Field := ⟨0x60210 + 0x80 * i, 0, 9⟩
def TB_STEP_THR_THR (i : Nat) : Field := ⟨0x60214 + 0x80 * i, 0, 20⟩
def TB_OUTLIER_THR (i : Nat) : Field := ⟨0x60218 + 0x80 * i, 0, 24⟩
def TB_LOCK_THR_THR (i : Nat) : Field := ⟨0x6021C + 0x80 * i, 0, 16⟩
def TB_OFFSET_THETA (i : Nat) : Field := ⟨0x60220 + 0x80 * i, 0, 32⟩
def TB_PPS_NEXT_NEXT (i : Nat) : Field := ⟨0x60224 + 0x80 * i, 0, 32⟩
def TB_OUTLIERS_COUNT (i : Nat) : Field := ⟨0x60228 + 0x80 * i, 0, 16⟩
def TB_STEPS_COUNT (i : Nat) : Field := ⟨0x6022C + 0x80 * i, 0, 16⟩
def TB_TICK_NS_NS (i : Nat) : Field := ⟨0x60230 + 0x80 * i, 0, 32⟩
def TB_TICK_FRAC_FRAC (i : Nat) : Field := ⟨0x60234 + 0x80 * i, 0, 32⟩
def CAP_CTL_EN (i : Nat) : Field := ⟨0x60400 + 0x20 * i, 31, 1⟩
def CAP_CTL_EDGE (i : Nat) : Field := ⟨0x60400 + 0x20 * i, 30, 1⟩
def CAP_CTL_TB (i : Nat) : Field := ⟨0x60400 + 0x20 * i, 16, 2⟩
def CAP_CTL_SRC (i : Nat) : Field := ⟨0x60400 + 0x20 * i, 0, 3⟩
def CAP_LAT_LAT (i : Nat) : Field := ⟨0x60404 + 0x20 * i, 0, 16⟩
def CAP_NS_NS (i : Nat) : Field := ⟨0x60408 + 0x20 * i, 0, 32⟩
def CAP_FRAC_FRAC (i : Nat) : Field := ⟨0x6040C + 0x20 * i, 0, 32⟩
def CAP_CNT_COUNT (i : Nat) : Field := ⟨0x60410 + 0x20 * i, 0, 32⟩
def REF_SOFT_SOFT : Field := ⟨0x70100, 0, 24⟩
def REF_HARD_HARD : Field := ⟨0x70104, 0, 24⟩
def REF_DISAGREE_PPB_LIMIT : Field := ⟨0x70108, 0, 24⟩
def REF_TIMES_VALID : Field := ⟨0x7010C, 16, 16⟩
def REF_TIMES_DWELL : Field := ⟨0x7010C, 0, 16⟩
def REF_FSLEW_FSLEW : Field := ⟨0x70110, 0, 17⟩
def REF_TICK_SYNC_EN : Field := ⟨0x70114, 31, 1⟩
def REF_TICK_SYNC_MISSED : Field := ⟨0x70114, 30, 1⟩
def REF_TICK_SYNC_REF : Field := ⟨0x70114, 0, 4⟩
def DPLL_CTL_EN (i : Nat) : Field := ⟨0x70200 + 0x40 * i, 31, 1⟩
def DPLL_CTL_REVERTIVE (i : Nat) : Field := ⟨0x70200 + 0x40 * i, 30, 1⟩
def DPLL_CTL_FAMILY (i : Nat) : Field := ⟨0x70200 + 0x40 * i, 29, 1⟩
def DPLL_STAT_STATE (i : Nat) : Field := ⟨0x70204 + 0x40 * i, 29, 3⟩
def DPLL_STAT_CLAMP (i : Nat) : Field := ⟨0x70204 + 0x40 * i, 28, 1⟩
def DPLL_STAT_FORCED (i : Nat) : Field := ⟨0x70204 + 0x40 * i, 27, 1⟩
def DPLL_STAT_DISAGREE (i : Nat) : Field := ⟨0x70204 + 0x40 * i, 26, 1⟩
def DPLL_STAT_STEP_BUSY (i : Nat) : Field := ⟨0x70204 + 0x40 * i, 25, 1⟩
def DPLL_STAT_TETHER (i : Nat) : Field := ⟨0x70204 + 0x40 * i, 24, 1⟩
def DPLL_STAT_SEL (i : Nat) : Field := ⟨0x70204 + 0x40 * i, 20, 4⟩
def DPLL_FB_FB (i : Nat) : Field := ⟨0x70208 + 0x40 * i, 0, 32⟩
def DPLL_LOCK_TIME (i : Nat) : Field := ⟨0x7020C + 0x40 * i, 16, 16⟩
def DPLL_LOCK_THR (i : Nat) : Field := ⟨0x7020C + 0x40 * i, 0, 16⟩
def DPLL_PHERR_PHERR (i : Nat) : Field := ⟨0x70210 + 0x40 * i, 0, 32⟩
def DPLL_FREQ_FREQ (i : Nat) : Field := ⟨0x70214 + 0x40 * i, 0, 32⟩
def DPLL_AVG_AVG (i : Nat) : Field := ⟨0x70218 + 0x40 * i, 0, 32⟩
def DPLL_DCO_DCO (i : Nat) : Field := ⟨0x7021C + 0x40 * i, 0, 32⟩
def DPLL_SWITCH_COUNT (i : Nat) : Field := ⟨0x70220 + 0x40 * i, 0, 16⟩
def REF_OUT_WCK_EN (i : Nat) : Field := ⟨0x70300 + 0x4 * i, 31, 1⟩
def REF_OUT_WCK_FORM (i : Nat) : Field := ⟨0x70300 + 0x4 * i, 30, 1⟩
def REF_OUT_WCK_POL (i : Nat) : Field := ⟨0x70300 + 0x4 * i, 29, 1⟩
def REF_OUT_WCK_DIV (i : Nat) : Field := ⟨0x70300 + 0x4 * i, 0, 17⟩
def REF_OUT_MCLK_EN (i : Nat) : Field := ⟨0x70308 + 0x4 * i, 31, 1⟩
def REF_OUT_MCLK_DIV (i : Nat) : Field := ⟨0x70308 + 0x4 * i, 0, 2⟩
def REF_OUT_PPS_EN : Field := ⟨0x70310, 31, 1⟩
def REF_OUT_PPS_SRC : Field := ⟨0x70310, 30, 1⟩
def REF_OUT_PPS_POL : Field := ⟨0x70310, 29, 1⟩
def REF_OUT_PPS_WIDTH : Field := ⟨0x70310, 0, 16⟩
def REF_IN_CFG_EN (i : Nat) : Field := ⟨0x70400 + 0x20 * i, 31, 1⟩
def REF_IN_CFG_RANK_A (i : Nat) : Field := ⟨0x70400 + 0x20 * i, 26, 4⟩
def REF_IN_CFG_RANK_B (i : Nat) : Field := ⟨0x70400 + 0x20 * i, 22, 4⟩
def REF_IN_CFG_EDGE (i : Nat) : Field := ⟨0x70400 + 0x20 * i, 21, 1⟩
def REF_IN_CFG_DIFF (i : Nat) : Field := ⟨0x70400 + 0x20 * i, 20, 1⟩
def REF_IN_CFG_NOM (i : Nat) : Field := ⟨0x70400 + 0x20 * i, 0, 18⟩
def REF_IN_BW_BW (i : Nat) : Field := ⟨0x70404 + 0x20 * i, 0, 20⟩
def REF_IN_STAT_QSTATE (i : Nat) : Field := ⟨0x70408 + 0x20 * i, 30, 2⟩
def REF_IN_STAT_ACTIVE (i : Nat) : Field := ⟨0x70408 + 0x20 * i, 29, 1⟩
def REF_IN_STAT_SOFT (i : Nat) : Field := ⟨0x70408 + 0x20 * i, 28, 1⟩
def REF_IN_STAT_HARD (i : Nat) : Field := ⟨0x70408 + 0x20 * i, 27, 1⟩
def REF_IN_STAT_SEL_A (i : Nat) : Field := ⟨0x70408 + 0x20 * i, 26, 1⟩
def REF_IN_STAT_SEL_B (i : Nat) : Field := ⟨0x70408 + 0x20 * i, 25, 1⟩
def REF_IN_FOFS_FOFS (i : Nat) : Field := ⟨0x7040C + 0x20 * i, 0, 32⟩
def ETH_MODE_LOOP (i : Nat) : Field := ⟨0x80100 + 0x10000 * i, 8, 1⟩
def ETH_MODE_RX_INV (i : Nat) : Field := ⟨0x80100 + 0x10000 * i, 4, 1⟩
def ETH_MODE_TX_INV (i : Nat) : Field := ⟨0x80100 + 0x10000 * i, 3, 1⟩
def ETH_MODE_FEC (i : Nat) : Field := ⟨0x80100 + 0x10000 * i, 2, 1⟩
def ETH_MODE_SPEED (i : Nat) : Field := ⟨0x80100 + 0x10000 * i, 0, 1⟩
def ETH_SERDES_TX_POST (i : Nat) : Field := ⟨0x80104 + 0x10000 * i, 24, 6⟩
def ETH_SERDES_TX_MAIN (i : Nat) : Field := ⟨0x80104 + 0x10000 * i, 16, 6⟩
def ETH_SERDES_TX_PRE (i : Nat) : Field := ⟨0x80104 + 0x10000 * i, 8, 6⟩
def ETH_LINK_REMOTE_FAULT (i : Nat) : Field := ⟨0x80108 + 0x10000 * i, 5, 1⟩
def ETH_LINK_LOCAL_FAULT (i : Nat) : Field := ⟨0x80108 + 0x10000 * i, 4, 1⟩
def ETH_LINK_FEC_ALIGN (i : Nat) : Field := ⟨0x80108 + 0x10000 * i, 3, 1⟩
def ETH_LINK_HI_BER (i : Nat) : Field := ⟨0x80108 + 0x10000 * i, 2, 1⟩
def ETH_LINK_BLOCK_LOCK (i : Nat) : Field := ⟨0x80108 + 0x10000 * i, 1, 1⟩
def ETH_LINK_LINK_UP (i : Nat) : Field := ⟨0x80108 + 0x10000 * i, 0, 1⟩
def ETH_MAXFRM_MAXFRM (i : Nat) : Field := ⟨0x80110 + 0x10000 * i, 0, 14⟩
def ETH_FILT_CTL_ALLMULTI_CLS (i : Nat) : Field := ⟨0x80114 + 0x10000 * i, 1, 1⟩
def ETH_FILT_CTL_BCAST_ACCEPT (i : Nat) : Field := ⟨0x80114 + 0x10000 * i, 0, 1⟩
def ETH_PAUSE_QUANTA (i : Nat) : Field := ⟨0x80120 + 0x10000 * i, 16, 16⟩
def ETH_PAUSE_HIGH (i : Nat) : Field := ⟨0x80120 + 0x10000 * i, 8, 7⟩
def ETH_PAUSE_LOW (i : Nat) : Field := ⟨0x80120 + 0x10000 * i, 0, 7⟩
def ETH_PAUSE_CTL_OBEY (i : Nat) : Field := ⟨0x80124 + 0x10000 * i, 1, 1⟩
def ETH_PAUSE_CTL_GEN (i : Nat) : Field := ⟨0x80124 + 0x10000 * i, 0, 1⟩
def ETH_SA_LO_SA_LO (i : Nat) : Field := ⟨0x80128 + 0x10000 * i, 0, 32⟩
def ETH_SA_HI_SA_HI (i : Nat) : Field := ⟨0x8012C + 0x10000 * i, 0, 16⟩
def ETH_PAUSE_STAT_RX_PAUSED (i : Nat) : Field := ⟨0x80130 + 0x10000 * i, 31, 1⟩
def ETH_PAUSE_STAT_XOFF_ACTIVE (i : Nat) : Field := ⟨0x80130 + 0x10000 * i, 30, 1⟩
def ETH_PAUSE_STAT_REMAIN (i : Nat) : Field := ⟨0x80130 + 0x10000 * i, 0, 16⟩
def ETH_TS_CTL_TB (i : Nat) : Field := ⟨0x80134 + 0x10000 * i, 0, 2⟩
def ETH_TS_LAT_TX_LAT (i : Nat) : Field := ⟨0x80138 + 0x10000 * i, 16, 16⟩
def ETH_TS_LAT_RX_LAT (i : Nat) : Field := ⟨0x80138 + 0x10000 * i, 0, 16⟩
def ETH_FIFO_HWM (i : Nat) : Field := ⟨0x8013C + 0x10000 * i, 16, 9⟩
def ETH_FIFO_FILL (i : Nat) : Field := ⟨0x8013C + 0x10000 * i, 0, 9⟩
def ETHA_MAC_LO_ADDR_LO (i : Nat) : Field := ⟨0x80200 + 0x8 * i, 0, 32⟩
def ETHA_MAC_HI_TAG (i : Nat) : Field := ⟨0x80204 + 0x8 * i, 16, 2⟩
def ETHA_MAC_HI_ADDR_HI (i : Nat) : Field := ⟨0x80204 + 0x8 * i, 0, 16⟩
def ETHB_MAC_LO_ADDR_LO (i : Nat) : Field := ⟨0x90200 + 0x8 * i, 0, 32⟩
def ETHB_MAC_HI_TAG (i : Nat) : Field := ⟨0x90204 + 0x8 * i, 16, 2⟩
def ETHB_MAC_HI_ADDR_HI (i : Nat) : Field := ⟨0x90204 + 0x8 * i, 0, 16⟩
def ETHA_CNT_LO_LO (i : Nat) : Field := ⟨0x80400 + 0x8 * i, 0, 32⟩
def ETHA_CNT_HI_HI (i : Nat) : Field := ⟨0x80404 + 0x8 * i, 0, 32⟩
def ETHB_CNT_LO_LO (i : Nat) : Field := ⟨0x90400 + 0x8 * i, 0, 32⟩
def ETHB_CNT_HI_HI (i : Nat) : Field := ⟨0x90404 + 0x8 * i, 0, 32⟩
def STR_POOL_USED : Field := ⟨0xA0100, 0, 21⟩
def STR_VALID_FAILED : Field := ⟨0xA0104, 31, 1⟩
def STR_VALID_DIR : Field := ⟨0xA0104, 30, 1⟩
def STR_VALID_CHECK : Field := ⟨0xA0104, 8, 4⟩
def STR_VALID_STREAM : Field := ⟨0xA0104, 0, 8⟩
def STR_RX_STAT_STATE (i : Nat) : Field := ⟨0xA4000 + 0x40 * i, 30, 2⟩
def STR_RX_STAT_LOCKED (i : Nat) : Field := ⟨0xA4000 + 0x40 * i, 29, 1⟩
def STR_RX_STAT_RATE_OUT (i : Nat) : Field := ⟨0xA4000 + 0x40 * i, 28, 1⟩
def STR_RX_STAT_PATH_A (i : Nat) : Field := ⟨0xA4000 + 0x40 * i, 27, 1⟩
def STR_RX_STAT_PATH_B (i : Nat) : Field := ⟨0xA4000 + 0x40 * i, 26, 1⟩
def STR_RX_STAT_DEV (i : Nat) : Field := ⟨0xA4000 + 0x40 * i, 0, 16⟩
def STR_RX_PKT_A_COUNT (i : Nat) : Field := ⟨0xA4004 + 0x40 * i, 0, 32⟩
def STR_RX_PKT_B_COUNT (i : Nat) : Field := ⟨0xA4008 + 0x40 * i, 0, 32⟩
def STR_RX_USED_A_COUNT (i : Nat) : Field := ⟨0xA400C + 0x40 * i, 0, 32⟩
def STR_RX_USED_B_COUNT (i : Nat) : Field := ⟨0xA4010 + 0x40 * i, 0, 32⟩
def STR_RX_DUP_COUNT (i : Nat) : Field := ⟨0xA4014 + 0x40 * i, 0, 32⟩
def STR_RX_LATE_COUNT (i : Nat) : Field := ⟨0xA4018 + 0x40 * i, 0, 32⟩
def STR_RX_EARLY_COUNT (i : Nat) : Field := ⟨0xA401C + 0x40 * i, 0, 32⟩
def STR_RX_MISSING_COUNT (i : Nat) : Field := ⟨0xA4020 + 0x40 * i, 0, 32⟩
def STR_RX_BAD_COUNT (i : Nat) : Field := ⟨0xA4024 + 0x40 * i, 0, 32⟩
def STR_RX_TS_TICK_UNCORR (i : Nat) : Field := ⟨0xA4028 + 0x40 * i, 31, 1⟩
def STR_RX_TS_TICK_TICK (i : Nat) : Field := ⟨0xA4028 + 0x40 * i, 0, 31⟩
def STR_RX_TS_TS (i : Nat) : Field := ⟨0xA402C + 0x40 * i, 0, 32⟩
def STR_RX_CHK_CRC (i : Nat) : Field := ⟨0xA4030 + 0x40 * i, 0, 32⟩
def STR_RX_CHK_SEQ_SEQ (i : Nat) : Field := ⟨0xA4034 + 0x40 * i, 0, 16⟩
def STR_TX_STAT_ACTIVE (i : Nat) : Field := ⟨0xA8000 + 0x20 * i, 31, 1⟩
def STR_TX_STAT_SEQ (i : Nat) : Field := ⟨0xA8000 + 0x20 * i, 0, 16⟩
def STR_TX_PKT_COUNT (i : Nat) : Field := ⟨0xA8004 + 0x20 * i, 0, 32⟩
def STR_TX_LATE_COUNT (i : Nat) : Field := ⟨0xA8008 + 0x20 * i, 0, 32⟩
def STR_TX_DROP_COUNT (i : Nat) : Field := ⟨0xA800C + 0x20 * i, 0, 32⟩
def STR_TX_TS_TICK_TICK (i : Nat) : Field := ⟨0xA8010 + 0x20 * i, 0, 31⟩
def STR_TX_TS_TS (i : Nat) : Field := ⟨0xA8014 + 0x20 * i, 0, 32⟩
def SLP_CFG_ASRC_FADE : Field := ⟨0xB0100, 8, 7⟩
def SLP_CFG_ASRC_BW : Field := ⟨0xB0100, 0, 2⟩
def SLP_SAT_COUNT : Field := ⟨0xB0104, 0, 16⟩
def SLP_RELOCK_COUNT : Field := ⟨0xB0108, 0, 16⟩
def SLP_NO_ASRC_COUNT : Field := ⟨0xB010C, 0, 11⟩
def SLP_ASRC_STAT_STATE (i : Nat) : Field := ⟨0xB1000 + 0x4 * i, 30, 2⟩
def SLP_ASRC_STAT_STANDBY (i : Nat) : Field := ⟨0xB1000 + 0x4 * i, 29, 1⟩
def SLP_ASRC_STAT_DEV (i : Nat) : Field := ⟨0xB1000 + 0x4 * i, 0, 24⟩
def SLP_IN_DLY_D (i : Nat) : Field := ⟨0xB2000 + 0x4 * i, 0, 32⟩
def SLP_EG_DLY_D (i : Nat) : Field := ⟨0xB3000 + 0x4 * i, 0, 32⟩
def SAP_SLOTS_OUT : Field := ⟨0xC0100, 16, 11⟩
def SAP_SLOTS_IN : Field := ⟨0xC0100, 0, 11⟩
def PORT_CTL_CTL (i : Nat) : Field := ⟨0xC0300 + 0x400 * i, 0, 32⟩
def PORT_MASK_IN_MASK (i : Nat) : Field := ⟨0xC0304 + 0x400 * i, 0, 32⟩
def PORT_MASK_OUT_MASK (i : Nat) : Field := ⟨0xC0308 + 0x400 * i, 0, 32⟩
def PORT_PEND_OUT (i : Nat) : Field := ⟨0xC030C + 0x400 * i, 1, 1⟩
def PORT_PEND_IN (i : Nat) : Field := ⟨0xC030C + 0x400 * i, 0, 1⟩
def PORT_CAP_BASE_LO_BASE (i : Nat) : Field := ⟨0xC0310 + 0x400 * i, 0, 32⟩
def PORT_CAP_BASE_HI_BASE (i : Nat) : Field := ⟨0xC0314 + 0x400 * i, 0, 32⟩
def PORT_PLY_BASE_LO_BASE (i : Nat) : Field := ⟨0xC0318 + 0x400 * i, 0, 32⟩
def PORT_PLY_BASE_HI_BASE (i : Nat) : Field := ⟨0xC031C + 0x400 * i, 0, 32⟩
def PORT_CAP_WIDX_IDX (i : Nat) : Field := ⟨0xC0320 + 0x400 * i, 0, 32⟩
def PORT_CAP_RIDX_IDX (i : Nat) : Field := ⟨0xC0324 + 0x400 * i, 0, 32⟩
def PORT_PLY_WIDX_IDX (i : Nat) : Field := ⟨0xC0328 + 0x400 * i, 0, 32⟩
def PORT_PLY_RIDX_IDX (i : Nat) : Field := ⟨0xC032C + 0x400 * i, 0, 32⟩
def PORT_STAMP_SEL_OUT_SLOT (i : Nat) : Field := ⟨0xC0330 + 0x400 * i, 8, 5⟩
def PORT_STAMP_SEL_IN_SLOT (i : Nat) : Field := ⟨0xC0330 + 0x400 * i, 0, 5⟩
def PORT_TS_IN_TICK_UNCORR (i : Nat) : Field := ⟨0xC0334 + 0x400 * i, 31, 1⟩
def PORT_TS_IN_TICK_TICK (i : Nat) : Field := ⟨0xC0334 + 0x400 * i, 0, 31⟩
def PORT_TS_IN_TS (i : Nat) : Field := ⟨0xC0338 + 0x400 * i, 0, 32⟩
def PORT_TS_OUT_TICK_TICK (i : Nat) : Field := ⟨0xC033C + 0x400 * i, 0, 31⟩
def PORT_TS_OUT_TS (i : Nat) : Field := ⟨0xC0340 + 0x400 * i, 0, 32⟩
def PORT_UNDERRUN_COUNT (i : Nat) : Field := ⟨0xC0344 + 0x400 * i, 0, 16⟩
def PORT_OVERRUN_COUNT (i : Nat) : Field := ⟨0xC0348 + 0x400 * i, 0, 16⟩
def GRP_FMT_FMT (i : Nat) : Field := ⟨0xC8100 + 0x400 * i, 0, 32⟩
def GRP_CTL_CTL (i : Nat) : Field := ⟨0xC8104 + 0x400 * i, 0, 32⟩
def GRP_STAT_SYNC_STATE (i : Nat) : Field := ⟨0xC8108 + 0x400 * i, 30, 2⟩
def GRP_STAT_LOCKED (i : Nat) : Field := ⟨0xC8108 + 0x400 * i, 29, 1⟩
def GRP_STAT_RATE_OUT (i : Nat) : Field := ⟨0xC8108 + 0x400 * i, 28, 1⟩
def GRP_STAT_DEV (i : Nat) : Field := ⟨0xC8108 + 0x400 * i, 0, 16⟩
def GRP_PHASE_PHI0 (i : Nat) : Field := ⟨0xC810C + 0x400 * i, 0, 12⟩
def GRP_FRAME_ERR_COUNT (i : Nat) : Field := ⟨0xC8110 + 0x400 * i, 0, 16⟩
def GRP_CLK_LOST_COUNT (i : Nat) : Field := ⟨0xC8114 + 0x400 * i, 0, 16⟩
def GRP_SLIP_COUNT (i : Nat) : Field := ⟨0xC8118 + 0x400 * i, 0, 16⟩
def XPT_AUTO_ENGAGED : Field := ⟨0xD0100, 0, 11⟩
def XPT_SAT_COUNT : Field := ⟨0xD0104, 0, 16⟩
def XPT_CLIPPED_COUNT : Field := ⟨0xD0108, 0, 16⟩
def XPT_PARITY_COUNT : Field := ⟨0xD010C, 0, 16⟩
def OSC_CTL_EN (i : Nat) : Field := ⟨0xD0200 + 0x10 * i, 31, 1⟩
def OSC_CTL_WAVE (i : Nat) : Field := ⟨0xD0200 + 0x10 * i, 16, 2⟩
def OSC_CTL_LEVEL (i : Nat) : Field := ⟨0xD0200 + 0x10 * i, 0, 16⟩
def OSC_INC_INC (i : Nat) : Field := ⟨0xD0204 + 0x10 * i, 0, 32⟩
def OSC_PHASE_PHASE0 (i : Nat) : Field := ⟨0xD0208 + 0x10 * i, 0, 32⟩
def OBJ_C_C : Field := ⟨0xE0100, 0, 32⟩
def OBJ_LANE_CFG_READMIT_HOLD : Field := ⟨0xE0104, 16, 16⟩
def OBJ_LANE_CFG_CD_LOG2 : Field := ⟨0xE0104, 8, 5⟩
def OBJ_LANE_CFG_INTERP : Field := ⟨0xE0104, 0, 1⟩
def OBJ_CD_BASE_LO_BASE_LO : Field := ⟨0xE0108, 12, 20⟩
def OBJ_CD_BASE_HI_BASE_HI : Field := ⟨0xE010C, 0, 2⟩
def OBJ_DSUB_DSUB : Field := ⟨0xE0110, 0, 32⟩
def OBJ_ADMIT_LO_ADMIT_3 : Field := ⟨0xE0114, 24, 8⟩
def OBJ_ADMIT_LO_ADMIT_2 : Field := ⟨0xE0114, 16, 8⟩
def OBJ_ADMIT_LO_ADMIT_1 : Field := ⟨0xE0114, 8, 8⟩
def OBJ_ADMIT_LO_ADMIT_0 : Field := ⟨0xE0114, 0, 8⟩
def OBJ_ADMIT_HI_ADMIT_7 : Field := ⟨0xE0118, 24, 8⟩
def OBJ_ADMIT_HI_ADMIT_6 : Field := ⟨0xE0118, 16, 8⟩
def OBJ_ADMIT_HI_ADMIT_5 : Field := ⟨0xE0118, 8, 8⟩
def OBJ_ADMIT_HI_ADMIT_4 : Field := ⟨0xE0118, 0, 8⟩
def OBJ_ADMIT_SHED : Field := ⟨0xE011C, 16, 12⟩
def OBJ_ADMIT_ADMITTED : Field := ⟨0xE011C, 0, 12⟩
def OBJ_UNITS_USED_USED : Field := ⟨0xE0120, 0, 20⟩
def OBJ_UNITS_CAP_CAP : Field := ⟨0xE0124, 0, 20⟩
def OBJ_LANES_HEALTHY : Field := ⟨0xE0128, 0, 6⟩
def OBJ_CLAMP_COUNT : Field := ⟨0xE0130, 0, 16⟩
def OBJ_RESEAT_COUNT : Field := ⟨0xE0134, 0, 16⟩
def OBJ_FEED_SAT_COUNT : Field := ⟨0xE0138, 0, 16⟩
def OBJ_CD_LATE_COUNT : Field := ⟨0xE013C, 0, 16⟩
def OBJ_LANE_LOST_COUNT : Field := ⟨0xE0140, 0, 16⟩
def OBJ_CUT_COUNT : Field := ⟨0xE0144, 0, 16⟩
def PAN_VALID_ITEM : Field := ⟨0xE1100, 16, 12⟩
def PAN_VALID_TABLE : Field := ⟨0xE1100, 8, 2⟩
def PAN_VALID_CHECK : Field := ⟨0xE1100, 0, 4⟩
def PAN_HELD_COUNT : Field := ⟨0xE1104, 0, 16⟩
def PAN_WALK_COUNT : Field := ⟨0xE1108, 0, 16⟩
def PAN_SILENT_COUNT : Field := ⟨0xE110C, 0, 16⟩
def PAN_RECOMP_COUNT : Field := ⟨0xE1110, 0, 16⟩
def PAN_KF_LATE_COUNT : Field := ⟨0xE1114, 0, 16⟩
def LANE_UNITS_UNITS (i : Nat) : Field := ⟨0xE4100 + 0x200 * i, 0, 13⟩
def OBJ_STAT_RENDERED (i : Nat) : Field := ⟨0xE8000 + 0x4 * i, 31, 1⟩
def OBJ_STAT_SHED (i : Nat) : Field := ⟨0xE8000 + 0x4 * i, 30, 1⟩
def OBJ_STAT_PHASE (i : Nat) : Field := ⟨0xE8000 + 0x4 * i, 28, 2⟩
def OBJ_STAT_NCONTRIB (i : Nat) : Field := ⟨0xE8000 + 0x4 * i, 20, 8⟩
def OBJ_STAT_CLAMPED (i : Nat) : Field := ⟨0xE8000 + 0x4 * i, 19, 1⟩
def OBJ_STAT_DC (i : Nat) : Field := ⟨0xE8000 + 0x4 * i, 0, 18⟩
def OUT_CFG_DL_LOG2 : Field := ⟨0xF0100, 8, 5⟩
def OUT_DL_BASE_LO_BASE_LO : Field := ⟨0xF0104, 12, 20⟩
def OUT_DL_BASE_HI_BASE_HI : Field := ⟨0xF0108, 0, 2⟩
def OUT_CV_BASE_LO_BASE_LO : Field := ⟨0xF010C, 12, 20⟩
def OUT_CV_BASE_HI_BASE_HI : Field := ⟨0xF0110, 0, 2⟩
def OUT_LIMITING_COUNT : Field := ⟨0xF0114, 0, 11⟩
def OUT_LIM_SHED_COUNT : Field := ⟨0xF0118, 0, 11⟩
def OUT_CONFLICT_COUNT : Field := ⟨0xF011C, 0, 12⟩
def OUT_SAT_COUNT : Field := ⟨0xF0120, 0, 16⟩
def OUT_LIM_CLIP_COUNT : Field := ⟨0xF0124, 0, 16⟩
def OUT_DRAM_LATE_COUNT : Field := ⟨0xF0128, 0, 16⟩
def OUT_VALID_FAILED : Field := ⟨0xF0130, 31, 1⟩
def OUT_VALID_CHAIN : Field := ⟨0xF0130, 0, 11⟩
def OUT_STAT_FADING (i : Nat) : Field := ⟨0xF8000 + 0x4 * i, 31, 1⟩
def OUT_STAT_SWAP_PENDING (i : Nat) : Field := ⟨0xF8000 + 0x4 * i, 30, 1⟩
def OUT_STAT_AUDIBLE (i : Nat) : Field := ⟨0xF8000 + 0x4 * i, 29, 1⟩
def OUT_STAT_LIM_SHED (i : Nat) : Field := ⟨0xF8000 + 0x4 * i, 28, 1⟩
def OUT_STAT_STATE_A (i : Nat) : Field := ⟨0xF8000 + 0x4 * i, 26, 2⟩
def OUT_STAT_STATE_B (i : Nat) : Field := ⟨0xF8000 + 0x4 * i, 24, 2⟩
def OUT_STAT_FADE_LEFT (i : Nat) : Field := ⟨0xF8000 + 0x4 * i, 16, 8⟩
def OUT_STAT_GR (i : Nat) : Field := ⟨0xF8000 + 0x4 * i, 0, 16⟩
def DSP_FREQ_MHZ : Field := ⟨0x100100, 0, 11⟩
def CORE_STAT_STATE (i : Nat) : Field := ⟨0x100900 + 0x1000 * i, 30, 2⟩
def CORE_STAT_TASK (i : Nat) : Field := ⟨0x100900 + 0x1000 * i, 29, 1⟩
def CORE_STAT_HA3 (i : Nat) : Field := ⟨0x100900 + 0x1000 * i, 28, 1⟩
def CORE_STAT_LDEPTH (i : Nat) : Field := ⟨0x100900 + 0x1000 * i, 25, 3⟩
def CORE_PC_PC (i : Nat) : Field := ⟨0x100904 + 0x1000 * i, 0, 20⟩
def CORE_EXC_CAUSE (i : Nat) : Field := ⟨0x100908 + 0x1000 * i, 24, 8⟩
def CORE_EXC_PC_PC (i : Nat) : Field := ⟨0x10090C + 0x1000 * i, 0, 20⟩
def CORE_TBLK_TBLK (i : Nat) : Field := ⟨0x100910 + 0x1000 * i, 0, 32⟩
def CORE_BUSY_CYC (i : Nat) : Field := ⟨0x100914 + 0x1000 * i, 0, 24⟩
def CORE_MBOX_MBOX (i : Nat) : Field := ⟨0x100918 + 0x1000 * i, 0, 32⟩
def CORE_MSG_MSG (i : Nat) : Field := ⟨0x10091C + 0x1000 * i, 0, 32⟩
def CORE_TDONE_COUNT (i : Nat) : Field := ⟨0x100920 + 0x1000 * i, 0, 16⟩
def CORE_RET_DROP_COUNT (i : Nat) : Field := ⟨0x100924 + 0x1000 * i, 0, 16⟩
def CORE_STALE_COUNT (i : Nat) : Field := ⟨0x100928 + 0x1000 * i, 0, 16⟩
def FMN_LIST_CFG_SRC (i : Nat) : Field := ⟨0x110100 + 0x4 * i, 0, 2⟩
def FMN_LIST_NOW_LO_NOW_LO (i : Nat) : Field := ⟨0x110110 + 0x8 * i, 0, 32⟩
def FMN_LIST_NOW_HI_NOW_HI (i : Nat) : Field := ⟨0x110114 + 0x8 * i, 0, 16⟩
def FMN_EMIN_EMIN3 : Field := ⟨0x110130, 8, 3⟩
def FMN_EMIN_EMIN2 : Field := ⟨0x110130, 4, 3⟩
def FMN_EMIN_EMIN1 : Field := ⟨0x110130, 0, 3⟩
def FMN_SWTICK_TICK : Field := ⟨0x110134, 0, 1⟩
def FMN_SEQ_SEQ : Field := ⟨0x110138, 0, 32⟩
def FMN_SUBMITTED_COUNT : Field := ⟨0x110140, 0, 16⟩
def FMN_RELEASED_COUNT : Field := ⟨0x110144, 0, 16⟩
def FMN_LATE_COUNT : Field := ⟨0x110148, 0, 16⟩
def FMN_CANCELLED_COUNT : Field := ⟨0x11014C, 0, 16⟩
def FMN_SKIP_COUNT : Field := ⟨0x110150, 0, 16⟩
def FMN_NOTDONE_COUNT : Field := ⟨0x110154, 0, 16⟩
def FMN_CPL_DROP_COUNT : Field := ⟨0x110158, 0, 16⟩
def TTH_CTL_RELEASE_DELAY : Field := ⟨0x120100, 16, 8⟩
def TTH_CTL_UNLOCK_TRIP : Field := ⟨0x120100, 11, 1⟩
def TTH_CTL_DSP_MISS_TRIP : Field := ⟨0x120100, 10, 1⟩
def TTH_CTL_OVERRUN_TRIP : Field := ⟨0x120100, 9, 1⟩
def TTH_CTL_GATE_CLK : Field := ⟨0x120100, 8, 1⟩
def TTH_CTL_REVERT : Field := ⟨0x120100, 3, 1⟩
def TTH_CTL_TAKEOVER_WHEN_UNFIT : Field := ⟨0x120100, 2, 1⟩
def TTH_CTL_HANDOVER : Field := ⟨0x120100, 1, 1⟩
def TTH_CTL_TRIP : Field := ⟨0x120100, 0, 1⟩
def TTH_TIMES_REVERT_HOLD : Field := ⟨0x120104, 16, 16⟩
def TTH_TIMES_OWN_DEFER : Field := ⟨0x120104, 0, 16⟩
def TTH_SKEW_SKEW : Field := ⟨0x120108, 0, 16⟩
def TTH_STAT_ROLE : Field := ⟨0x120110, 28, 4⟩
def TTH_STAT_FIT : Field := ⟨0x120110, 26, 2⟩
def TTH_STAT_OWN_OUT : Field := ⟨0x120110, 25, 1⟩
def TTH_STAT_OWN_IN : Field := ⟨0x120110, 24, 1⟩
def TTH_STAT_HB_OK : Field := ⟨0x120110, 23, 1⟩
def TTH_STAT_LINK_OK : Field := ⟨0x120110, 22, 1⟩
def TTH_STAT_PEER_PRESENT : Field := ⟨0x120110, 21, 1⟩
def TTH_STAT_OWNER : Field := ⟨0x120110, 20, 1⟩
def TTH_STAT_ROLE_PIN : Field := ⟨0x120110, 19, 1⟩
def TTH_UNFIT_CAUSE : Field := ⟨0x120114, 0, 9⟩
def TTH_PEER_PART : Field := ⟨0x120118, 16, 16⟩
def TTH_PEER_SIREV : Field := ⟨0x120118, 8, 8⟩
def TTH_PEER_MISMATCH : Field := ⟨0x120118, 0, 2⟩
def TTH_LINK_DELAY : Field := ⟨0x12011C, 0, 16⟩
def TTH_TBOFS_OFS : Field := ⟨0x120120, 0, 32⟩
def TTH_HANDOVER_TICK : Field := ⟨0x120124, 0, 32⟩
def TTH_SETTLE_LEFT : Field := ⟨0x120128, 0, 20⟩
def TTH_TAKEOVER_COUNT : Field := ⟨0x120140, 0, 16⟩
def TTH_RETRY_COUNT : Field := ⟨0x120144, 0, 16⟩
def TTH_REMIRROR_COUNT : Field := ⟨0x120148, 0, 16⟩
def TTH_REALIGN_COUNT : Field := ⟨0x12014C, 0, 16⟩
def TTH_DIVERGE_COUNT : Field := ⟨0x120150, 0, 16⟩
def MTR_SNAP_INTERVAL : Field := ⟨0x130100, 16, 16⟩
def MTR_SNAP_RING : Field := ⟨0x130100, 8, 6⟩
def MTR_SNAP_EN : Field := ⟨0x130100, 0, 1⟩
def MTR_RANGE_COUNT : Field := ⟨0x130104, 16, 13⟩
def MTR_RANGE_FIRST : Field := ⟨0x130104, 0, 12⟩
def MTR_LAST_TICK : Field := ⟨0x130108, 0, 32⟩
def MTR_DROP_COUNT : Field := ⟨0x13010C, 0, 16⟩
def MTR_LEVEL0_RMS (i : Nat) : Field := ⟨0x138000 + 0x8 * i, 16, 16⟩
def MTR_LEVEL0_PEAK (i : Nat) : Field := ⟨0x138000 + 0x8 * i, 0, 16⟩
def MTR_LEVEL1_HOLD (i : Nat) : Field := ⟨0x138004 + 0x8 * i, 0, 16⟩
def PIN_ACT_SAFE : Field := ⟨0x140100, 16, 7⟩
def PIN_ACT_ACT : Field := ⟨0x140100, 0, 7⟩
def PIN_FLAGS_CLASS : Field := ⟨0x140104, 0, 7⟩
def PIN_LAST_KIND : Field := ⟨0x140108, 16, 3⟩
def PIN_LAST_CLASS : Field := ⟨0x140108, 8, 3⟩
def PIN_LAST_INDEX : Field := ⟨0x140108, 0, 6⟩
def PIN_OPEN_TEST_GO : Field := ⟨0x14010C, 31, 1⟩
def PIN_OPEN_TEST_BUSY : Field := ⟨0x14010C, 30, 1⟩
def PIN_STAT_SEL_INV3 : Field := ⟨0x140110, 31, 1⟩
def PIN_STAT_SEL_SRC3 : Field := ⟨0x140110, 24, 7⟩
def PIN_STAT_SEL_INV2 : Field := ⟨0x140110, 23, 1⟩
def PIN_STAT_SEL_SRC2 : Field := ⟨0x140110, 16, 7⟩
def PIN_STAT_SEL_INV1 : Field := ⟨0x140110, 15, 1⟩
def PIN_STAT_SEL_SRC1 : Field := ⟨0x140110, 8, 7⟩
def PIN_STAT_SEL_INV0 : Field := ⟨0x140110, 7, 1⟩
def PIN_STAT_SEL_SRC0 : Field := ⟨0x140110, 0, 7⟩

end R
end Sys2Proof.Machine
end

