-- ==== Sys2Proof/Machine/Units.lean ====
section
/-! DEFINITION. The tree of units and their fixed header values (spec 01 R44 to R51, 19 R530). A unit is named by the
BAR0 address of its header. -/
namespace Sys2Proof.Machine

/-- The fixed facts of one unit header (R45, R46): type code, instance, parent header, ENABLE at reset, CRITICAL,
HOT_RESET, GROUP, and the UNIT_SPECIFIC capability (at single rate where it depends on the rate). -/
structure UnitRow where
  base : Nat
  code : Nat
  inst : Nat
  parent : Nat
  en : Bool
  crit : Bool
  hot : Bool
  group : Bool
  spec : Nat
  deriving DecidableEq, Repr

/-- Header of a port group (R530). -/
def grpBase (g : Nat) : Nat := 0xC8000 + 0x400 * g
/-- Header of a port (R530). -/
def portBase (p : Nat) : Nat := 0xC0200 + 0x400 * p
/-- Header of a cluster (R530). -/
def clusterBase (c : Nat) : Nat := 0xE2000 + 0x200 * c
/-- Header of a lane (R530). -/
def laneBase (l : Nat) : Nat := 0xE4000 + 0x200 * l
/-- Header of a quad (R530). -/
def quadBase (q : Nat) : Nat := 0x100200 + 0x100 * q
/-- Header of a core (R530). -/
def coreBase (k : Nat) : Nat := 0x100800 + 0x1000 * k
/-- Header of a check-value unit (R530). -/
def cvuBase (k : Nat) : Nat := 0x40400 + 0x200 * k
/-- Header of an Ethernet MAC (R46). -/
def ethBase (m : Nat) : Nat := 0x80000 + 0x10000 * m

def topBase : Nat := 0
def hreBase : Nat := 0x10000
def fabBase : Nat := 0x20000
def dmcBase : Nat := 0x30000
def cvuGroup : Nat := 0x40000
def pwrBase : Nat := 0x50000
def tbuBase : Nat := 0x60000
def refBase : Nat := 0x70000
def strBase : Nat := 0xA0000
def slpBase : Nat := 0xB0000
def sapBase : Nat := 0xC0000
def xptBase : Nat := 0xD0000
def objBase : Nat := 0xE0000
def panBase : Nat := 0xE1000
def outBase : Nat := 0xF0000
def dspBase : Nat := 0x100000
def fmnBase : Nat := 0x110000
def tthBase : Nat := 0x120000
def mtrBase : Nat := 0x130000
def pinBase : Nat := 0x140000

/-- Every unit and group in sibling order (R46, R530). -/
def unitRows : List UnitRow :=
  [⟨topBase, 0x0100, 0, topBase, true, true, false, true, 0⟩,
   ⟨hreBase, 0x0200, 0, topBase, true, true, false, false, 0⟩,
   ⟨fabBase, 0x0300, 0, topBase, true, true, false, false, 0⟩,
   ⟨dmcBase, 0x0400, 0, topBase, true, true, false, false, 0⟩,
   ⟨cvuGroup, 0x0500, 0, topBase, true, false, true, true, 4⟩,
   ⟨pwrBase, 0x0600, 0, topBase, true, true, false, false, 16⟩,
   ⟨tbuBase, 0x0700, 0, topBase, true, false, false, false, 4⟩,
   ⟨refBase, 0x0800, 0, topBase, true, false, false, false, 14⟩,
   ⟨ethBase 0, 0x0900, 0, topBase, false, false, true, false, 0⟩,
   ⟨ethBase 1, 0x0900, 1, topBase, false, false, true, false, 0⟩,
   ⟨strBase, 0x0A00, 0, topBase, true, false, false, false, 256⟩,
   ⟨slpBase, 0x0B00, 0, topBase, true, true, false, false, 256⟩,
   ⟨sapBase, 0x0C00, 0, topBase, true, false, false, true, 32⟩,
   ⟨xptBase, 0x0D00, 0, topBase, true, true, false, true, 1024⟩,
   ⟨objBase, 0x0E00, 0, topBase, true, true, false, true, 32⟩,
   ⟨outBase, 0x0F00, 0, topBase, true, true, false, false, 1024⟩,
   ⟨dspBase, 0x1000, 0, topBase, true, false, false, true, 16⟩,
   ⟨fmnBase, 0x1100, 0, topBase, true, true, false, false, 4096⟩,
   ⟨tthBase, 0x1200, 0, topBase, false, false, false, false, 0⟩,
   ⟨pinBase, 0x1400, 0, topBase, true, false, false, false, 0⟩,
   ⟨mtrBase, 0x1300, 0, xptBase, true, false, true, false, 4096⟩,
   ⟨panBase, 0x0E01, 0, objBase, true, true, false, false, 2048⟩]
  ++ (List.range 4).map (fun k => ⟨cvuBase k, 0x0501, k, cvuGroup, true, false, true, false, 0⟩)
  ++ (List.range 8).map (fun g => ⟨grpBase g, 0x0C01, g, sapBase, true, false, true, true, 4⟩)
  ++ (List.range 32).map (fun p => ⟨portBase p, 0x0C02, p % 4, grpBase (p / 4), false, false, true, false, 32⟩)
  ++ (List.range 8).map (fun c => ⟨clusterBase c, 0x0E02, c, objBase, true, false, true, true, 4⟩)
  ++ (List.range 32).map (fun l => ⟨laneBase l, 0x0E03, l % 4, clusterBase (l / 4), true, false, true, false, 4096⟩)
  ++ (List.range 4).map (fun q => ⟨quadBase q, 0x1001, q, dspBase, true, false, true, true, 4⟩)
  ++ (List.range 16).map (fun k => ⟨coreBase k, 0x1002, k % 4, quadBase (k / 4), false, false, true, false, 512⟩)

/-- The unit whose header lies at an address, if one does. -/
def unitAt (b : Nat) : Option UnitRow := unitRows.find? (fun u => u.base == b)

/-- The header that an address lies in (R44: eight words), if it lies in one. -/
def headerOf (a : Nat) : Option UnitRow := unitRows.find? (fun u => u.base ≤ a && a < u.base + 0x20)

/-- Direct children in sibling order (R530). -/
def kids (b : Nat) : List UnitRow := unitRows.filter (fun u => u.parent == b && u.base != b)

/-- Header of the parent; TOP is its own. -/
def parentOf (b : Nat) : Nat := match unitAt b with | some u => u.parent | none => topBase

/-- UNIT_CHILD: the first child's header, 0 for a leaf (R45, R530). -/
def childLink (b : Nat) : Nat := match kids b with | u :: _ => u.base | [] => 0

/-- The entry after `b` in a sibling list, 0 after the last. -/
def afterIn (b : Nat) : List UnitRow → Nat
  | u :: v :: r => if u.base = b then v.base else afterIn b (v :: r)
  | _ => 0

/-- UNIT_NEXT: the next sibling's header, 0 for the last (R45, R530). -/
def nextLink (b : Nat) : Nat := if b = topBase then 0 else afterIn b (kids (parentOf b))

/-- The unit with its ancestors, itself first, TOP last; the tree is four deep. -/
def pathGo : Nat → Nat → List Nat
  | 0, b => [b]
  | f + 1, b => if b = topBase then [b] else b :: pathGo f (parentOf b)

/-- The unit with its ancestors, itself first, TOP last. -/
def pathUp (b : Nat) : List Nat := pathGo 4 b

/-- `u` is `b` or one of its descendants. -/
def isUnder (b u : Nat) : Bool := (pathUp u).contains b

/-- The unit and all its descendants. -/
def subtree (b : Nat) : List UnitRow := unitRows.filter (fun u => isUnder b u.base)

/-- The innermost unit whose register block an address lies in: ports, groups, lanes, clusters, quads, cores, CVUs and
the pan stage have blocks of their own; every other address belongs to its page's unit (R528). -/
def ownerOf (a : Nat) : Nat :=
  let page := a / 0x10000
  let o := a % 0x10000
  if page = 4 ∧ 0x400 ≤ o then cvuBase ((o - 0x400) / 0x200)
  else if page = 12 ∧ 0x8000 ≤ o then grpBase ((o - 0x8000) / 0x400)
  else if page = 12 ∧ 0x200 ≤ o then portBase ((o - 0x200) / 0x400)
  else if page = 14 ∧ 0x8000 ≤ o then objBase
  else if page = 14 ∧ 0x4000 ≤ o then laneBase ((o - 0x4000) / 0x200)
  else if page = 14 ∧ 0x2000 ≤ o then clusterBase ((o - 0x2000) / 0x200)
  else if page = 14 ∧ 0x1000 ≤ o then panBase
  else if page = 16 ∧ 0x800 ≤ o then coreBase ((o - 0x800) / 0x1000)
  else if page = 16 ∧ 0x200 ≤ o then quadBase ((o - 0x200) / 0x100)
  else page * 0x10000

/-- Decoded spans of a page: offset of the first byte, offset after the last (R528). -/
def spansOf : Nat → List (Nat × Nat)
  | 0 => [(0, 0x200)]
  | 1 => [(0, 0xC00), (0x8000, 0x8400), (0x9000, 0x9008)]
  | 2 => [(0, 0x200)]
  | 3 => [(0, 0x600)]
  | 4 => [(0, 0xC00)]
  | 5 => [(0, 0x240)]
  | 6 => [(0, 0x500)]
  | 7 => [(0, 0x600)]
  | 8 => [(0, 0x600)]
  | 9 => [(0, 0x600)]
  | 10 => [(0, 0xA000)]
  | 11 => [(0, 0x3480)]
  | 12 => [(0, 0xA000)]
  | 13 => [(0, 0x300)]
  | 14 => [(0, 0xA000)]
  | 15 => [(0, 0x9000)]
  | 16 => [(0, 0x10000)]
  | 17 => [(0, 0x200)]
  | 18 => [(0, 0x200)]
  | 19 => [(0, 0x10000)]
  | 20 => [(0, 0x200)]
  | _ => []

/-- An address that some unit decodes (R57, R528). -/
def decoded (a : Nat) : Bool :=
  (spansOf (a / 0x10000)).any (fun s => s.1 ≤ a % 0x10000 && a % 0x10000 < s.2)

end Sys2Proof.Machine
end

