-- ==== Sys2Proof/Machine/Flags.lean ====
section
/-! DEFINITION. The event bits of UNIT_EVENT, unit by unit, as the chapters' event tables give them (R45, R52, R96, R497 and
the others named below). A flag is the unit's header and the bit. -/
namespace Sys2Proof.Machine

/-- One event bit: the unit's header and the bit of UNIT_EVENT. -/
structure Flag where
  base : Nat
  bit : Nat
  deriving DecidableEq, Repr

namespace F

/-- UNIT_HEALTH.STATE changed (R45). -/
def healthChg (b : Nat) : Flag := ⟨b, 30⟩

/-! TOP (R52). -/
def safeEntered : Flag := ⟨topBase, 4⟩
def dspMiss : Flag := ⟨topBase, 3⟩
def overrun : Flag := ⟨topBase, 2⟩
def stateRefused : Flag := ⟨topBase, 1⟩
def topCfgRefused : Flag := ⟨topBase, 0⟩

/-! HRE (R96). -/
def pollMissed : Flag := ⟨hreBase, 6⟩
def dmaErr : Flag := ⟨hreBase, 5⟩
def bar2Denied : Flag := ⟨hreBase, 4⟩
def evtLost : Flag := ⟨hreBase, 3⟩
def urgentLimit : Flag := ⟨hreBase, 2⟩
def paqFull : Flag := ⟨hreBase, 1⟩
def ringHalt : Flag := ⟨hreBase, 0⟩

/-! FAB (R481). -/
def fabMasterReset : Flag := ⟨fabBase, 2⟩
def fabSlverr : Flag := ⟨fabBase, 1⟩
def fabDecerr : Flag := ⟨fabBase, 0⟩

/-! DMC (R497). -/
def dmcCfgRefused : Flag := ⟨dmcBase, 6⟩
def forcedRef : Flag := ⟨dmcBase, 5⟩
def dmcOutside : Flag := ⟨dmcBase, 4⟩
def checkFail : Flag := ⟨dmcBase, 3⟩
def checkDone : Flag := ⟨dmcBase, 2⟩
def dmcOvertemp : Flag := ⟨dmcBase, 1⟩
def hotChg : Flag := ⟨dmcBase, 0⟩

/-! CVU (R496). -/
def mismatch (k : Nat) : Flag := ⟨cvuBase k, 0⟩

/-! PWR (R508). -/
def sensorFail : Flag := ⟨pwrBase, 4⟩
def supply : Flag := ⟨pwrBase, 3⟩
def thermSafe : Flag := ⟨pwrBase, 2⟩
def levelRise : Flag := ⟨pwrBase, 1⟩
def levelDrop : Flag := ⟨pwrBase, 0⟩

/-! TBU (R349). -/
def ppsMissing : Flag := ⟨tbuBase, 4⟩
def tbLockChg : Flag := ⟨tbuBase, 3⟩
def tbOutlier : Flag := ⟨tbuBase, 2⟩
def tbStepped : Flag := ⟨tbuBase, 1⟩
def tbCfgRefused : Flag := ⟨tbuBase, 0⟩

/-! REF (R380). -/
def refCfgRefused : Flag := ⟨refBase, 8⟩
def realigned : Flag := ⟨refBase, 7⟩
def freerunEntered : Flag := ⟨refBase, 6⟩
def refLockChg : Flag := ⟨refBase, 5⟩
def refSwitch : Flag := ⟨refBase, 4⟩
def refDisagree : Flag := ⟨refBase, 3⟩
def disqual : Flag := ⟨refBase, 2⟩
def softWarn : Flag := ⟨refBase, 1⟩
def qual : Flag := ⟨refBase, 0⟩

/-! Ethernet MACs (R307). -/
def ethCfgRefused (m : Nat) : Flag := ⟨ethBase m, 7⟩
def fecUncorr (m : Nat) : Flag := ⟨ethBase m, 6⟩
def txDrop (m : Nat) : Flag := ⟨ethBase m, 5⟩
def fifoDrop (m : Nat) : Flag := ⟨ethBase m, 4⟩
def ringExhaust (m : Nat) : Flag := ⟨ethBase m, 3⟩
def pauseRx (m : Nat) : Flag := ⟨ethBase m, 2⟩
def hiBer (m : Nat) : Flag := ⟨ethBase m, 1⟩
def linkChg (m : Nat) : Flag := ⟨ethBase m, 0⟩

/-! STR (R328). -/
def validFail : Flag := ⟨strBase, 8⟩
def txLate : Flag := ⟨strBase, 7⟩
def strRateChg : Flag := ⟨strBase, 6⟩
def pathLost : Flag := ⟨strBase, 5⟩
def streamInactive : Flag := ⟨strBase, 4⟩
def missing : Flag := ⟨strBase, 3⟩
def pktEarly : Flag := ⟨strBase, 2⟩
def pktLate : Flag := ⟨strBase, 1⟩
def badPkt : Flag := ⟨strBase, 0⟩

/-! SLP (R248). -/
def asrcConflict : Flag := ⟨slpBase, 4⟩
def noAsrc : Flag := ⟨slpBase, 3⟩
def asrcRelock : Flag := ⟨slpBase, 2⟩
def asrcLost : Flag := ⟨slpBase, 1⟩
def slpSat : Flag := ⟨slpBase, 0⟩

/-! Port groups and ports (R276, R277). -/
def slip (g : Nat) : Flag := ⟨grpBase g, 3⟩
def grpRateChg (g : Nat) : Flag := ⟨grpBase g, 2⟩
def frameErr (g : Nat) : Flag := ⟨grpBase g, 1⟩
def clkLost (g : Nat) : Flag := ⟨grpBase g, 0⟩
def portRepeat (p : Nat) : Flag := ⟨portBase p, 2⟩
def portUnderrun (p : Nat) : Flag := ⟨portBase p, 1⟩
def portOverrun (p : Nat) : Flag := ⟨portBase p, 0⟩

/-! XPT and MTR (R193, R195). -/
def xptParity : Flag := ⟨xptBase, 4⟩
def autoReleased : Flag := ⟨xptBase, 3⟩
def autoEngaged : Flag := ⟨xptBase, 2⟩
def clipped : Flag := ⟨xptBase, 1⟩
def busSat : Flag := ⟨xptBase, 0⟩
def snapDrop : Flag := ⟨mtrBase, 0⟩

/-! OBJ, pan stage, clusters and lanes (R107, R108, R164). -/
def objCfgRefused : Flag := ⟨objBase, 0⟩
def kfLate : Flag := ⟨panBase, 4⟩
def noSpeaker : Flag := ⟨panBase, 3⟩
def walkLimit : Flag := ⟨panBase, 2⟩
def setHeld : Flag := ⟨panBase, 1⟩
def hullInvalid : Flag := ⟨panBase, 0⟩
def cdLate (c : Nat) : Flag := ⟨clusterBase c, 4⟩
def laneLost (c : Nat) : Flag := ⟨clusterBase c, 3⟩
def feedSat (c : Nat) : Flag := ⟨clusterBase c, 2⟩
def reseat (c : Nat) : Flag := ⟨clusterBase c, 1⟩
def objClamp (c : Nat) : Flag := ⟨clusterBase c, 0⟩
def laneOvertime (l : Nat) : Flag := ⟨laneBase l, 1⟩
def laneParity (l : Nat) : Flag := ⟨laneBase l, 0⟩

/-! OUT (R228). -/
def limShed : Flag := ⟨outBase, 5⟩
def patchConflict : Flag := ⟨outBase, 4⟩
def bankBad : Flag := ⟨outBase, 3⟩
def dramLate : Flag := ⟨outBase, 2⟩
def limClip : Flag := ⟨outBase, 1⟩
def outSat : Flag := ⟨outBase, 0⟩

/-! Cores (R451). -/
def bootErr (k : Nat) : Flag := ⟨coreBase k, 4⟩
def stale (k : Nat) : Flag := ⟨coreBase k, 3⟩
def retDrop (k : Nat) : Flag := ⟨coreBase k, 2⟩
def coreMsg (k : Nat) : Flag := ⟨coreBase k, 1⟩
def coreExc (k : Nat) : Flag := ⟨coreBase k, 0⟩

/-! FMN (R473). -/
def fmnParity : Flag := ⟨fmnBase, 5⟩
def notDone : Flag := ⟨fmnBase, 4⟩
def cplDrop : Flag := ⟨fmnBase, 3⟩
def skip : Flag := ⟨fmnBase, 2⟩
def lateRelease : Flag := ⟨fmnBase, 1⟩
def fmnCfgRefused : Flag := ⟨fmnBase, 0⟩

/-! TTH (R418). -/
def ownFault : Flag := ⟨tthBase, 12⟩
def diverge : Flag := ⟨tthBase, 11⟩
def handover : Flag := ⟨tthBase, 10⟩
def remirror : Flag := ⟨tthBase, 9⟩
def pairMismatch : Flag := ⟨tthBase, 8⟩
def fitChg : Flag := ⟨tthBase, 7⟩
def hbLost : Flag := ⟨tthBase, 6⟩
def tetherDown : Flag := ⟨tthBase, 5⟩
def peerLost : Flag := ⟨tthBase, 4⟩
def tthRealign : Flag := ⟨tthBase, 3⟩
def tripped : Flag := ⟨tthBase, 2⟩
def released : Flag := ⟨tthBase, 1⟩
def takeover : Flag := ⟨tthBase, 0⟩

/-! PIN (R514). -/
def pinFault : Flag := ⟨pinBase, 0⟩

end F
end Sys2Proof.Machine
end

