-- ==== Sys2Proof/Machine/Float.lean ====
section
/-! DEFINITION. IEEE 754 binary32 and binary64 arithmetic, rounded to nearest with ties to even (spec 03 R118, R132, 04 R140,
11 R337), on finite values kept exactly as m * 2^e; and the exact constants of R124, R149 and R132 by fixed point. -/
namespace Sys2Proof.Machine

/-- A finite floating-point value m * 2^e. -/
structure Fl where
  m : Int
  e : Int
  deriving DecidableEq, Repr

/-- A binary format: significand bits and exponent of the smallest subnormal. -/
structure Fmt where
  p : Nat
  emin : Int
  deriving DecidableEq, Repr

def b32 : Fmt := ⟨24, -149⟩
def b64 : Fmt := ⟨53, -1074⟩

def Fl.zero : Fl := ⟨0, 0⟩

/-- Round m * 2^e to a format, ties to even, with gradual underflow. -/
def Fmt.round (f : Fmt) (m e : Int) : Fl :=
  if m = 0 then .zero
  else
    let len : Int := bitLen m.natAbs
    let e' := max (e + len - f.p) f.emin
    if e' ≤ e then ⟨m, e⟩ else ⟨divEven m (2 ^ (e' - e).toNat), e'⟩

/-- Exact sum of two values, unrounded. -/
def Fl.addX (a b : Fl) : Fl :=
  let e := min a.e b.e
  ⟨a.m * 2 ^ (a.e - e).toNat + b.m * 2 ^ (b.e - e).toNat, e⟩

def Fmt.add (f : Fmt) (a b : Fl) : Fl := let s := a.addX b; f.round s.m s.e
def Fl.neg (a : Fl) : Fl := ⟨-a.m, a.e⟩
def Fmt.sub (f : Fmt) (a b : Fl) : Fl := f.add a b.neg
def Fmt.mul (f : Fmt) (a b : Fl) : Fl := f.round (a.m * b.m) (a.e + b.e)

/-- Division; the quotient carries enough bits and a sticky bit for exact rounding. -/
def Fmt.div (f : Fmt) (a b : Fl) : Fl :=
  if b.m = 0 then ⟨Config.fdivZero a.m, f.emin⟩
  else
    let k := f.p + 2 + bitLen b.m.natAbs
    let n := a.m.natAbs * 2 ^ k
    let q := n / b.m.natAbs
    let s := 2 * q + b2n (n % b.m.natAbs != 0)
    let neg := (a.m < 0) != (b.m < 0)
    f.round (if neg then -(s : Int) else s) (a.e - b.e - k - 1)

/-- Square root of a non-negative value. -/
def Fmt.sqrt (f : Fmt) (a : Fl) : Fl :=
  let k := 2 * (f.p + 2)
  let odd := a.e % 2 != 0
  let n := a.m.natAbs * 2 ^ k * (if odd then 2 else 1)
  let r := isqrt n
  let s := 2 * r + b2n (r * r != n)
  f.round s ((a.e - b2n odd) / 2 - f.p - 2 - 1)

/-- a < b. -/
def Fl.lt (a b : Fl) : Bool := (a.addX b.neg).m < 0
def Fl.le (a b : Fl) : Bool := !(b.lt a)
def Fl.isZero (a : Fl) : Bool := a.m == 0
def Fl.abs (a : Fl) : Fl := ⟨a.m.natAbs, a.e⟩
def Fl.max (a b : Fl) : Fl := if a.lt b then b else a

/-- An integer code divided by 2^k, converted with rounding. -/
def Fmt.ofFix (f : Fmt) (i : Int) (k : Nat) : Fl := f.round i (-(k : Int))

def Fl.one : Fl := ⟨1, 0⟩

/-- floor(x * 2^k). -/
def Fl.floorMul (a : Fl) (k : Nat) : Int :=
  let e := a.e + k
  if 0 ≤ e then a.m * 2 ^ e.toNat else a.m / 2 ^ (-e).toNat

/-- round(x * 2^k), ties to even. -/
def Fl.evenMul (a : Fl) (k : Nat) : Int :=
  let e := a.e + k
  if 0 ≤ e then a.m * 2 ^ e.toNat else divEven a.m (2 ^ (-e).toNat)

/-- round(x * 2^k), half away from zero. -/
def Fl.awayMul (a : Fl) (k : Nat) : Int :=
  let e := a.e + k
  if 0 ≤ e then a.m * 2 ^ e.toNat else divAway a.m (2 ^ (-e).toNat)

/-! Fixed-point constants, scale 2^100. -/

def fixOne : Int := 2 ^ 100

/-- π * 2^120. -/
def pi120 : Int := 0x3243F6A8885A308D313198A2E037073

/-- Taylor series: the term and the sum so far; `n` is the next even or odd index. -/
def taylorGo : Nat → Int → Int → Nat → Int → Int
  | 0, _, _, _, s => s
  | k + 1, x2, t, n, s =>
    let t' := -(t * x2 / fixOne) / ((n * (n + 1) : Nat) : Int)
    taylorGo k x2 t' (n + 2) (s + t')

/-- cos and sin of x in [0, π/4], scale 2^100. -/
def cosSmall (x : Int) : Int := taylorGo 20 (x * x / fixOne) fixOne 1 fixOne
def sinSmall (x : Int) : Int := taylorGo 20 (x * x / fixOne) x 2 x

/-- cos(2π n/d) and sin(2π n/d) for 0 ≤ 8n ≤ d (first octant). -/
def octant (n d : Nat) : Int × Int :=
  let x := 2 * pi120 * n / (d * 2 ^ 20)
  (cosSmall x, sinSmall x)

/-- cos and sin of the angle 2π n/d, scale 2^100, reduced by symmetry. -/
def cosSinTurn (n d : Nat) : Int × Int :=
  let n := n % d
  -- fold into [0, 1/2], [0, 1/4], [0, 1/8] of a turn
  let neg := decide (d < 2 * n)
  let n := if neg then d - n else n
  let back := decide (d < 4 * n)
  let (n, d') := if back then (d - 2 * n, 2 * d) else (n, d)
  let swap := decide (d' < 8 * n)
  let (c, s) := if swap then (let r := octant (d' - 4 * n) (4 * d'); (r.2, r.1)) else octant n d'
  (if back then -c else c, if neg then -s else s)

/-- cos and sin of the angle 2π n/d with a signed n. -/
def cosSinTurnI (n : Int) (d : Nat) : Int × Int :=
  let (c, s) := cosSinTurn n.natAbs d
  (c, if n < 0 then -s else s)

/-- The binary32 value nearest to a fixed-point constant (R118). -/
def fixTo32 (x : Int) : Fl := b32.round x (-100)

/-- Fraction bits of log2 by repeated squaring of a mantissa in [1, 2), scale 2^100; `s` collects them. -/
def log2Go : Nat → Int → Int → Int
  | 0, _, s => s
  | k + 1, x, s =>
    let y := x * x / fixOne
    if 2 * fixOne ≤ y then log2Go k (y / 2) (2 * s + 1) else log2Go k y (2 * s)

/-- log2 of a positive value, scale 2^64, truncated. -/
def log2Fix (a : Fl) : Int :=
  let len := bitLen a.m.natAbs
  let x : Int := (a.m.natAbs : Int) * 2 ^ 100 / 2 ^ (len - 1)
  (a.e + len - 1) * 2 ^ 64 + log2Go 64 x 0

/-- log2 as the part evaluates it: within 2^-20 of the exact value (R132). -/
def log2Part (a : Fl) : Fl :=
  b64.round (log2Fix a + clampI (-(2 ^ 44 - 2)) (2 ^ 44 - 2) (Config.log2Error a.m a.e)) (-64)

end Sys2Proof.Machine
end

