-- ==== Sys2Proof/Machine/Parts.lean ====
section
/-! DEFINITION. The types of commands' operands and of the state's parts: plain data, unit by unit. -/
namespace Sys2Proof


/-- The opcodes of R75. -/
inductive Opcode where
  | nop | barrier | tableWrite | tableRead | sceneCommit | objSet | objKeyframe | xptNodes | xptRampSet | outBankLoad
  | outSwap | patchSet | portCfg | streamCfg | fmnSubmit | fmnCancel | timeSteer | refCmd | mtrCfg
  deriving DecidableEq, Repr

/-- A fetched CMD descriptor (R73): OPCODE, FLAGS, TAG, APPLY, bytes 16 to 63, where and when HRE fetched it, and its place in the
fetch order (R69). -/
structure Cmd where
  code : BitVec 8
  flags : BitVec 8
  tag : BitVec 16
  apply : BitVec 48
  payload : BitVec 384
  ring : Nat
  idx : Nat
  fetch : Nat
  seq : Nat
  deriving DecidableEq, Repr

/-- A BAR0 access of the host (R5): a 32-bit access, or a 64-bit one that acts as two; one byte enable per byte. -/
structure RegAcc where
  addr : Nat
  wide : Bool
  be : BitVec 8
  data : BitVec 64
  tag : BitVec 8
  deriving DecidableEq, Repr

/-- Accesses of the device to host memory that can fail (R97); a copy with the bytes copied before the failure. -/
inductive HostAccess where
  | descriptor (ring : Nat)
  | doorbell
  | ringWrite (ring : Nat)
  | statusPage
  | copy (done : Nat)
  deriving DecidableEq, Repr

/-- What one rank reports in MR4 (R489): its refresh-rate code, whether it requires twice the nominal rate, and whether its
temperature is above the rated range. -/
structure Mr4 where
  code : BitVec 5
  twice : Bool
  tooHot : Bool
  deriving DecidableEq, Repr

/-- A transaction in a channel's queue (R476, R490): its master, 10 for DMC's own rechecks, and whether it writes. -/
structure Queued where
  master : Nat
  write : Bool
  deriving DecidableEq, Repr

/-- A burst that a reset cuts (R480): master, write, ID, address, and what of a write has reached its target. -/
structure CutBurst where
  master : Nat
  write : Bool
  id : Nat
  addr : Nat
  data : List Byte
  deriving DecidableEq, Repr

/-- What the outside world supplies with a tick boundary, a service instant or an urgent poll: TIME cycles since the last
such step, what the host has written to its own memory (address and bytes), the accesses to host memory that fail, and
whether the poll or the page overruns its tick (R98); whether the block due for emission is not complete (R28); objects whose
set is not ready when it is locked (R136); objects with late coarse-line data (R160); chains and spans (chain, first sample,
count) whose convolution data is late, and for delay data the delay of the read too (R205, R214); units (by header) that did not finish the block in time (R49);
bytes of DRAM that no longer hold what was stored there, which CVU0 is to find (R494). -/
structure Boundary where
  cycles : Nat
  hostWrites : List (Nat × List Byte)
  fails : List HostAccess
  pollLate : Bool
  notReady : Bool
  heldObjs : List Nat
  lateObjs : List Nat
  lateConv : List (Nat × Nat × Nat)
  lateDelay : List (Nat × Nat × Nat × Nat)
  overtime : List Nat
  upsets : List (Nat × Byte)
  deriving DecidableEq, Repr

/-- A boundary at which the outside world supplies nothing. -/
def Boundary.quiet : Boundary := ⟨0, [], [], false, false, [], [], [], [], [], []⟩

/-- One whole frame of a port group as its pins carry it: the BCLK edges between its FSYNC edge and the next (0: a frame period
without a clock), the number of the sample grid point before the FSYNC edge and the edge's phase after it in 1/4,096 sample (R259), and
the level of SDI by port of the group: bit j in BCLK period j from the edge on, OFFSET periods into the next frame (R256). Grid points
carry the number of the sample that is whole there at phase 0, as the samples of the blocks do (`Dev.gridAt`). -/
structure TdmFrame where
  bclks : Nat
  point : Nat
  phase : Nat
  sdi : List Nat
  deriving DecidableEq, Repr

/-- An edge on a capture input or on PPS_IN: its direction and its rise or fall time in ns (R344, R543). -/
structure PinEdge where
  rising : Bool
  rise : Nat
  deriving DecidableEq, Repr

/-- A frame as the lane of a MAC brings it (R287): its bytes with FCS, whether the PCS decoded it with an error, whether an
uncorrectable codeword touches it (R284), corrected and uncorrectable codewords since the frame before, and how long ago the first bit
after its SFD crossed the pins, in 1/256 TIME cycles (R303). -/
structure RxFrame where
  bytes : List Nat
  codeErr : Bool
  touched : Bool
  corr : Nat
  uncorr : Nat
  ago : Nat
  deriving DecidableEq, Repr

/-! ## Instructions of the DSP cores (14) -/

/-- Addressing modes (R431), with the number of the offset register or the immediate in words. -/
inductive AMode where
  | plain
  | imm (words : Int)
  | off (j : Fin 16)
  | postOff (j : Fin 16)
  | postImm (words : Int)
  deriving DecidableEq, Repr

/-- One memory operation of an instruction: load or store, of one data register or of an even-odd pair (R424, R426). -/
structure MemOp where
  store : Bool
  wide : Bool
  reg : Fin 32
  a : Fin 16
  mode : AMode
  deriving DecidableEq, Repr

/-- Registers that a move can name (R426). -/
inductive CReg where
  | d (n : Fin 32)
  | a (n : Fin 16)
  | o (n : Fin 16)
  | l (n : Fin 16)
  | xl (n : Fin 4)
  | xm (n : Fin 4)
  | xg (n : Fin 4)
  | lc | ls | le | ipc | sr | isr
  deriving DecidableEq, Repr

/-- Source of EXP: a data register or an accumulator (R430). -/
inductive ExpSrc where
  | d (n : Fin 32)
  | x (n : Fin 4)
  deriving DecidableEq, Repr

/-- The two-operand instructions that R430 lists without a table of their own; an S after the name says that it saturates. -/
inductive AluFn where
  | add | sub | addS | subS | cmp | min | max | band | bor | bxor | lsl | lsr | asr
  deriving DecidableEq, Repr

/-- An instruction of the remaining groups. -/
inductive AluOp where
  | bin (f : AluFn) (d s t : Fin 32)
  | bnot (d s : Fin 32)
  | mov (dst src : CReg)
  deriving DecidableEq, Repr

/-- A count taken from a data register or an immediate (R433, R434). -/
inductive Count where
  | reg (n : Fin 32)
  | imm (n : Nat)
  deriving DecidableEq, Repr

end Sys2Proof

namespace Sys2Proof.Machine

/-! ## Device-level state (01) -/

/-- Device states (R37). -/
inductive DevState where
  | off | setup | run | safe | standby
  deriving DecidableEq, Repr

/-- The two grades (R1). -/
inductive Grade where
  | commercial | industrial
  deriving DecidableEq, Repr

/-- UNIT_HEALTH.STATE (R45). -/
inductive UState where
  | off | ok | degraded | fault
  deriving DecidableEq, Repr

/-- The header registers of one unit that hold state (R45); EFF_EN, CHILD and the RO identity are computed. `fresh` holds
the UNIT_EVENT bits that changed from 0 to 1 since the last boundary (R92), `drain` that FAB may still report a burst which HOLD has cut (R480). -/
structure Hdr where
  enable : Bool
  hold : Bool
  inReset : Bool
  drain : Bool
  cause : Nat
  faultKids : Nat
  shed : Bool
  st : UState
  event : Word
  eventEn : Word
  fresh : Word
  deriving DecidableEq, Repr

/-- What TOP holds beside its registers: the state machine of R37 to R40, the tick counter and position (R22), the
pipeline counters of R28. `idle` lists units that stay out of the running block (R552). `mediaAcc` is the tick position in 1/(2.5·10^26) of a MEDIA cycle. -/
structure Top where
  st : DevState
  req : Option DevState
  refuse : Nat
  safeCause : Nat
  tick : Nat
  tickHi : Nat
  loadLo : Nat
  started : Bool
  mediaAcc : Nat
  overruns : Nat
  overrunHit : Bool
  fading : Bool
  idle : List Nat
  deriving DecidableEq, Repr

/-- What the PCIe configuration space decides here (R56, R95, R523): MSI-X Enable, Function Mask and Bus Master Enable. -/
structure PciCfg where
  msixEnable : Bool
  funcMask : Bool
  busMaster : Bool
  deriving DecidableEq, Repr

/-- Things that happened in an interval between boundaries and that a unit's state or a status field reports from the
next boundary on (R551 says what "the last tick" is). -/
inductive TickEv where
  | overrun | panHeld | hreCopyErr | fabErr | dmcForced | dmcOutside
  | cvuMismatch (k : Nat)
  | xptParity | outLate
  | ethFifo (m : Nat) | strMissing | strLate | fmnSkip
  | grpErr (g : Nat) | grpSlip (g : Nat) | portXrun (p : Nat) | tthDiverge | objShort | coreSoiled (k : Nat) | runEntered
  deriving DecidableEq, Repr

/-! ## Host control (02) -/

/-- One ring beside its registers: `on` is ENABLE as the last poll put it in effect, `offSeen` a recorded write of 0
(R63), `phase` the PHASE of the next entry (R90), `resv` reserved completions (R69), `unrep` and `age` the unreported
entries and the ticks since the first of them (R94). -/
structure RingS where
  on : Bool
  offSeen : Bool
  phase : Bool
  resv : Nat
  unrep : Nat
  age : Nat
  deriving DecidableEq, Repr

/-- A fetched command is named by its ring and ring index (R90), and by its place in the fetch order (R69): a ring that is enabled
again fetches its indices anew. -/
structure CmdId where
  ring : Nat
  idx : Nat
  seq : Nat
  deriving DecidableEq, Repr

/-- A command waiting in the pending-apply queue (R77); a commit stays in it until it acts. -/
structure PaqE where
  op : Opcode
  cmd : Cmd
  deriving DecidableEq, Repr

/-- A copy in progress: a TABLE_WRITE or TABLE_READ; a read keeps the table as it stood at its boundary (R86). -/
structure Copy where
  cmd : Cmd
  write : Bool
  snap : Option (SMap Word)
  late : Bool
  deriving DecidableEq, Repr

/-- What a fetched SCENE_COMMIT waits for beside its apply tick: the TABLE_WRITEs fetched before it that have not completed (R88)
and the boundary at which the pan stage validated, `none` before it (R116). `late`: its apply tick has passed while it waited. -/
structure CommitW where
  id : CmdId
  waits : List CmdId
  validAt : Option Nat
  late : Bool
  deriving DecidableEq, Repr

/-- The CPL ring of an outstanding command, as LINK named it at the fetch, and whether an entry of that ring is reserved (R69). -/
structure CplLink where
  id : CmdId
  ring : Nat
  reserved : Bool
  deriving DecidableEq, Repr

/-- A barrier in progress (R80): the earlier commands of its scope that had not completed when it was fetched, whether its apply tick
had passed by then, and whether that tick has come and the checks of R76 have passed. -/
structure Barrier where
  cmd : Cmd
  waits : List CmdId
  late : Bool
  judged : Bool
  deriving DecidableEq, Repr

/-- What HRE holds beside its registers; `serial` is the next place in the fetch order. -/
structure Hre where
  rings : SMap RingS
  paq : List PaqE
  outst : List CmdId
  links : List CplLink
  serial : Nat
  barriers : List Barrier
  copies : List Copy
  held : List Cmd
  heldGo : Bool
  commits : List CommitW
  evtLost : Nat
  urgentRuns : Nat
  urgentWait : Bool
  skipPage : Bool
  pageFailed : Bool
  vec0 : Bool
  deriving DecidableEq, Repr

/-- One table of R81: live and staged words by word offset, the changed mark of R87, and the bad mark of R85 as the byte
ranges that failed writes have left (offset, length; the table is marked bad while any stands, log 15). A table without a
staged copy uses `live` alone. -/
structure Tab where
  live : SMap Word
  staged : SMap Word
  changed : Bool
  bad : List (Nat × Nat)
  deriving DecidableEq, Repr

/-- What the last BAR0 or BAR2 read returned to the host (R5, R57): data, or a completer abort. -/
structure BusRead where
  data : BitVec 64
  abort : Bool
  deriving DecidableEq, Repr
/-! ## Memory system, power, pins and boot (16 to 18) -/

/-- What DMC and CVU hold beside their registers: the standing recheck fault and whether it has still to force SAFE
(R488), CVU0's EFF_EN as latched at the entry into RUN (R495), and by channel the TIME cycles that refreshes issued back to back because
it has become hot still take (R491). -/
structure Dmc where
  fault : Bool
  causeNew : Bool
  cvu0On : Bool
  burst : SMap Nat
  deriving DecidableEq, Repr

/-- What PWR holds beside its registers: the unit's own level for the running tick's successor (R502), the decisions above it since
it last changed, the power samples since the last decision (sum in 10 µW, count), the standing thermal and supply causes of
R506, whether some enabled sensor gives a valid reading (R498), and the energy account in mJ (R501). -/
structure Pwr where
  own : Nat
  rises : Nat
  powSum : Nat
  powCount : Nat
  thermal : Bool
  supply : Bool
  valid : Bool
  e : Rat
  deriving DecidableEq, Repr

/-- What PIN holds beside its registers: consecutive mismatches by pad (R510) and pads released to high impedance (R514); a
pad is numbered 64 * class + index. -/
structure Pin where
  miss : SMap Nat
  hiz : List Nat
  deriving DecidableEq, Repr

/-- A boot in progress: its source (TOP_BOOT.SRC code) and, once the header has passed, its first 256 bytes (R521). -/
structure BootRun where
  src : Nat
  header : Option (List Nat)
  deriving DecidableEq, Repr

/-- Straps, fuses (key hash as 48 bytes, none where blank; least ROLLBACK), whether RST_N is held low, whether an SPI boot has still
to start, the boot in progress (R516 to R523), and whether a rail has fallen below 90 % (R537). -/
structure Boot where
  role : Bool
  bootsel : Bool
  keyHash : Option (List Nat)
  minRollback : Nat
  rstLow : Bool
  spiDue : Bool
  run : Option BootRun
  dark : Bool
  deriving DecidableEq, Repr

/-! ## The JTAG port (20) -/

/-- States of the controller of IEEE 1149.1. -/
inductive TapState where
  | reset | idle | selectDr | captureDr | shiftDr | exit1Dr | pauseDr | exit2Dr | updateDr
  | selectIr | captureIr | shiftIr | exit1Ir | pauseIr | exit2Ir | updateIr
  deriving DecidableEq, Repr

/-- The JTAG port (R534): controller state, instruction register as shifted, instruction in force, the selected data register as shifted,
and the values held for the balls. -/
structure Jtag where
  tap : TapState
  ir : List Bool
  inst : JtagInst
  dr : List Bool
  held : List Bool
  deriving DecidableEq, Repr

/-! ## Objects and render lanes (03, 04) -/

/-- A move of one field: start value, end value, first tick, length in ticks (R110). -/
structure Move where
  a : Int
  b : Int
  first : Nat
  len : Nat
  deriving DecidableEq, Repr

/-- Moves in progress of an object's moving fields; a field without a move has the value of its live word (R110, R111). -/
structure ObjMoves where
  x : Option Move
  y : Option Move
  z : Option Move
  gain : Option Move
  spread : Option Move
  deriving DecidableEq, Repr

/-- One contribution: speaker feed, Q5.24 gain (R133), Q20.12 delay code (R140); also the state of a rendered one: the gain
at its last sample and its delay state. -/
structure Contrib where
  spk : Nat
  gain : Nat
  tau : Nat
  deriving DecidableEq, Repr

/-- An enabled object in the render lanes: its input blocks since it was enabled, by tick (R139; late samples zeroed, R160),
Dc and whether it has been placed (R142), its contributions as if it were always rendered (R158), whether the last tick's
mode was NONE, the reseat phase (1: silent tick next, 2: entering tick next; R147), whether it was in fact rendered, and
the last set for a held tick (R136). -/
structure ObjR where
  on : Bool
  hist : SMap (List Int)
  dc : Nat
  placed : Bool
  prev : List Contrib
  modeNone : Bool
  phase : Nat
  shown : Bool
  lastSet : List Contrib
  since : Nat
  deriving DecidableEq, Repr

/-- What OBJ holds beside its registers and tables: moves, sets computed ahead by tick (R134), the renderer's object
states, A and the history of P (R155), the lanes healthy at the last two boundaries (R154), lanes lost in this block
(R159), what the differential delay memory holds of BAR2's writes and of earlier runs, until RUN covers it (R58, R137, R139), and objects
whose set for a tick was not complete when it was locked (R136). -/
structure Obj where
  moves : SMap ObjMoves
  sets : SMap (List (Nat × List Contrib))
  rend : SMap ObjR
  admitted : Nat
  pHist : List Nat
  lanesFor : List Nat
  lanesNext : List Nat
  lost : List Nat
  window : SMap Word
  unlocked : List (Nat × Nat)
  deriving DecidableEq, Repr

/-! ## Crosspoint and meters (05) -/

/-- A ramp in progress of a node (R174): start and end multiplier, first block, length in ticks. -/
structure NodeRamp where
  g0 : Nat
  g1 : Nat
  first : Nat
  len : Nat
  deriving DecidableEq, Repr

/-- What XPT holds beside its registers and tables: ramps in progress by node number 1024 b + s (a node without one is at its
target), the live node table as the last block used it (`none`: the next block starts every node at its target, R176),
scale targets of the last block where they differ from 2^24 (R180), buses engaged under R179, and the parity errors of the
running tick: node and first sample that uses the target (R194). -/
structure Xpt where
  ramps : SMap NodeRamp
  last : Option (SMap Word)
  scale : SMap Nat
  auto : List Nat
  parity : List (Nat × Nat)
  deriving DecidableEq, Repr

/-- A meter point (R189): mean square, held level in dB (`none`: minus infinity), hold timer in seconds, peak of the last
block, peak of the snapshot interval. -/
structure Point where
  ms : Fl
  hold : Option Fl
  timer : Fl
  peak : Fl
  top : Fl
  deriving DecidableEq, Repr

/-- What MTR holds beside its registers and table: the points, their live entries as last used, the apply boundary of the
snapshot configuration (R191), and the last boundary at which a snapshot was due and handled. -/
structure Mtr where
  pts : SMap Point
  last : SMap Word
  start : Nat
  done : Nat
  deriving DecidableEq, Repr

/-! ## Output chains (06) -/

/-- State of one second-order section: its last two inputs and outputs (R200). -/
structure Sos where
  u1 : Int
  u2 : Int
  v1 : Int
  v2 : Int
  deriving DecidableEq, Repr

/-- A bank of an enabled chain: section states and the convolution's input by tick (R200, R201). -/
structure BankRun where
  sos : List Sos
  hist : SMap (List Int)
  deriving DecidableEq, Repr

/-- An enabled chain since it last started from rest (R197): the input it used last, its banks, the delay line by tick, the
delay used last, the gain stage multiplier, the limiter gain, the last gain stage block and whether it was unlimited,
whether the limiter was shed. -/
structure ChainR where
  on : Bool
  kind : Nat
  idx : Nat
  bankA : BankRun
  bankB : BankRun
  line : SMap (List Int)
  delay : Nat
  v : Int
  g : Nat
  look : List Int
  lookFree : Bool
  shed : Bool
  since : Nat
  deriving DecidableEq, Repr

/-- A crossfade in progress: source and target bank, first block, length in ticks (R211). -/
structure Fade where
  src : Nat
  tgt : Nat
  first : Nat
  len : Nat
  deriving DecidableEq, Repr

/-- READY, LOADING, BAD (R208). -/
inductive BankState where
  | ready | loading | bad
  deriving DecidableEq, Repr

/-- A coefficient bank: state, image by word, loads that copy or wait to (apply order), loads copied with their check values,
whether its taps are being transformed, whether they have been since the last boundary, and the restart boundary once known, with
lateness (R209). -/
structure CoefBank where
  st : BankState
  image : SMap Word
  copying : List (Cmd × Bool)
  copied : List (Cmd × Bool × Nat)
  transform : Bool
  formed : Bool
  tr : Option (Nat × Bool)
  deriving DecidableEq, Repr

/-- What OUT holds beside its registers and tables: chains since they were enabled, audible banks, crossfades, banks by
2 * chain + bank, the source that drove each destination in the last block (as 1 + 2048 kind + index; `patchNew`: no block
since entry into RUN), the patch entries ignored under R221 (as entry + 4096 destination), chains that were enabled when the banks were
last judged, OUT_STAT by chain as the last boundary left it (R227), and the granules of convolution data that CVU0 holds a value of (R205). -/
structure Out where
  chains : SMap ChainR
  aud : SMap Nat
  fades : SMap Fade
  banks : SMap CoefBank
  patchLast : SMap Nat
  patchNew : Bool
  conflicts : List Nat
  ens : List Nat
  stat : SMap Nat
  conv : List Nat
  deriving DecidableEq, Repr

/-! ## Time bases (11) -/

/-- One time base (R330) in units of 2^-64 ns modulo 2^96, and its servo (R337 to R341): state (0 OFF, 1 ACQUIRE, 2 LOCKED),
integrator in ppb, consecutive samples within LOCK_THR, consecutive outliers, base time since the previous accepted sample
(none before the first), whether it has been LOCKED since its source was last set, and whether it is in holdover. `sec` is its value
less TB_PPS_NEXT modulo 1 s, on a count that its wrap does not affect (R351), and `moved` what a SET, STEP or servo step has moved it by
that REF has not seen (R336). RATE, the tick latch and the rest are in its registers. -/
structure TBase where
  val : Nat
  state : Nat
  integ : Fl
  good : Nat
  outl : Nat
  gap : Option Nat
  locked : Bool
  holdover : Bool
  sec : Nat
  moved : Int
  deriving DecidableEq, Repr

/-- The last capture of a channel: ns and fraction as one number, how many there have been, and 1 + the TIME cycle of the last edge
captured (R343). -/
structure Capt where
  val : Nat
  count : Nat
  last : Nat
  deriving DecidableEq, Repr

/-- TBU: the four bases, the TIME cycles since the last boundary (R334) and since reset, and the capture channels, whose CAP_FRAC and
CAP_CNT registers show what the last read of CAP_NS latched (R348). -/
structure Tbu where
  bases : SMap TBase
  since : Nat
  now : Nat
  caps : SMap Capt
  deriving DecidableEq, Repr

/-! ## Serial ports (08) -/

/-- An envelope (R262): its value, its length, whether it falls, whether it stays silent (R272), right frames to wait for before
it may rise (R261, R271), whether a fault started its excursion (R278). -/
structure Env where
  g : Nat
  f : Nat
  fall : Bool
  silent : Bool
  wait : Nat
  fault : Bool
  deriving DecidableEq, Repr

/-- The memory block being captured (R265, R266): stamp of frame 0, frames so far, flags. -/
structure CapRun where
  tick : Nat
  phase : Nat
  ts : Nat
  frames : List (List Int)
  discont : Bool
  faded : Bool
  clkFault : Bool
  deriving DecidableEq, Repr

/-- The memory block being played (R267): WIDX at the start of the previous block, frames still to play, the last played frame,
whether its record was missing, and whether the block whose first frame comes has started. -/
structure PlyRun where
  seen : Nat
  left : List (List Int)
  last : List Int
  missing : Bool
  begun : Bool
  deriving DecidableEq, Repr

/-- A port beside its registers: envelopes, configuration waiting for them to reach 0 (PORT_CTL, then the four base words),
shadowed masks, frames received and not yet taken with their sample numbers (R259), the last good frame, frames still to emit, frames of
the next block and of the block emitted last, the last frame completed and the one before by raw slot word (`none`: high impedance),
repeat mode, memory mode. -/
structure PortS where
  inE : Env
  outE : Env
  want : Option (List Nat)
  maskIn : Option Nat
  maskOut : Option Nat
  inQ : List (Nat × List Int)
  lastIn : List Int
  outQ : List (List Int)
  next : List (List Int)
  prev : List (List Int)
  lastOut : List (Option Nat)
  prevOut : List (Option Nat)
  rep : Bool
  cap : CapRun
  ply : PlyRun
  deriving DecidableEq, Repr

/-- A group beside its registers: GRP_FMT and GRP_CTL waiting, right frames in a row, φ0 in 1/4,096 sample and whether the next
frame measures it, the sample number of the next frame, whether a slip fault stands and whether envelopes still recover from one
(R259, R278), clocks waiting for a boundary, a rate fault that ends at the next boundary, frames since the group's start, the instant of
the first frame of this tick, the FSYNC edges of the last 1,024 frames by sample number, newest first (R264), frames of this tick, and
whether some envelope was below F at the last boundary (R278). -/
structure Grp where
  want : Option Nat
  ctlWant : Option Nat
  good : Nat
  phi0 : Int
  measure : Bool
  num : Nat
  slipping : Bool
  slipRec : Bool
  restart : Bool
  recover : Bool
  frame : Nat
  edge : Option Nat
  edges : List (Nat × Nat)
  inTick : Nat
  below : Bool
  deriving DecidableEq, Repr

/-- SAP. -/
structure Sap where
  grps : SMap Grp
  ports : SMap PortS
  deriving DecidableEq, Repr

/-! ## Slipway (07) -/

/-- What fixes a path (R229, R230, R247): kind and index of the source or destination, Fn, locked, DEC, DCB, the ASRC channel. -/
structure PathKey where
  kind : Nat
  idx : Nat
  fn : Nat
  locked : Bool
  dec : Nat
  dcb : Nat
  asrc : Option Nat
  deriving DecidableEq, Repr

/-- A path that runs: its key and the states of its decimator and DC block. -/
structure PathRun where
  key : Option PathKey
  dec : List Sos
  dc : List Sos
  deriving DecidableEq, Repr

/-- What is left of a channel that has gone from a target: estimate, gain, inputs and outputs so far, for the changeover block (R247). -/
structure AsrcTail where
  est : Int
  gain : Nat
  hist : List Int
  n : Nat
  deriving DecidableEq, Repr

/-- An ASRC channel beside SLP_ASRC_STAT: the locked estimate in 0.01 ppm, samples of its fade-in done, whether it fades out over
the next block and from which gain, ratio beyond 2 %, not settled in 500 ms, 1 + the target whose path uses it (0: none), its last
512 input samples, the output samples since it locked, and what it leaves to the target before. -/
structure AsrcS where
  est : Int
  faded : Nat
  dying : Bool
  gain : Nat
  ratioOut : Bool
  unsettled : Bool
  target : Nat
  hist : List Int
  n : Nat
  prev : Option AsrcTail
  deriving DecidableEq, Repr

/-- SLP beside its registers and table: paths by slot and by destination, channels, entries ignored under R236 as channel + 256 *
target, whether no block has run since entry into RUN, SLP_CFG in force since the last boundary (R248), and the delay codes of the egress
paths by destination over the last block and the block before (R246). -/
structure Slp where
  ins : SMap PathRun
  egs : SMap PathRun
  asrc : SMap AsrcS
  conflicts : List Nat
  fresh : Bool
  cfg : Nat
  egNow : List (Nat × Nat)
  egWas : List (Nat × Nat)
  deriving DecidableEq, Repr

/-! ## Streams (10) -/

/-- A rate measurement (R315, R316): used packets since its first, RTP timestamp and arrival on TB of the first and of the last. -/
structure RxMeas where
  on : Bool
  count : Nat
  rtp0 : Nat
  ts0 : Nat
  rtp : Nat
  ts : Nat
  deriving DecidableEq, Repr

/-- A receive stream beside its registers: the words in force, the play-out buffer by position (a sample per channel; listed
means valid), the highest sequence number used, the numbers used in the window (`win`: any), the SSRC of the last used packet,
check values by sequence number (R318), whether it has restarted and the changeover block has not been taken, with the previous words,
buffer and, of a free stream, read point (R321), a rate fault that ends at the next boundary, the position read next (R315), the
rate measurement. -/
structure RxS where
  cfg : List Nat
  buf : SMap (List Int)
  win : Bool
  high : Nat
  used : List Nat
  ssrc : Nat
  crcs : List (Nat × Nat)
  moved : Bool
  oldCfg : List Nat
  oldBuf : SMap (List Int)
  oldRead : Option Nat
  recover : Bool
  read : Nat
  meas : RxMeas
  deriving DecidableEq, Repr

/-- A transmit stream beside its registers: next packet number, samples by position, the entries in force with the tick each
applies from (newest first), the positions formed so far on an AUX grid, the first positions there of the last blocks and of those from
which an entry governs, and the block it takes next. -/
structure TxS where
  q : Nat
  line : SMap (List Int)
  cfgs : List (Nat × List Nat)
  made : Nat
  marks : List (Nat × Nat)
  next : Nat
  deriving DecidableEq, Repr

/-- STR. -/
structure Str where
  rx : SMap RxS
  tx : SMap TxS
  deriving DecidableEq, Repr

/-- The source bank and the destination bank as the last block left them, by slot and by bus; a bank lists no silent entry. -/
structure SampleBanks where
  src : SMap (List Int)
  dst : SMap (List Int)
  deriving DecidableEq, Repr

/-! ## Ethernet (09) -/

/-- A frame in a host FIFO: its bytes without FCS, its stamp and time base, the filter entry that matched. -/
structure EthFrame where
  bytes : List Nat
  ts : Nat
  tb : Nat
  hit : Option Nat
  deriving DecidableEq, Repr

/-- A stream packet waiting at a MAC: its stream and its bytes without FCS (R299, R326). -/
structure StxPkt where
  stream : Nat
  bytes : List Nat
  deriving DecidableEq, Repr

/-- A MAC beside its registers: host FIFO, filter entries in force as (low, high) words (R289), 64-bit counters (R306), stream
packets and pause quanta waiting to be sent, whether a frame is in transmission and the frame sent last with its FCS and its stamp, a
pause hold in quanta with the TIME cycles it has lasted, a hold that starts at the end of the frame in transmission, and the time held
that is no whole quantum yet, in 1/25 TIME cycles (R302), and the RX_INV with which its lane has been found inverted (R512). -/
structure EthM where
  fifo : List EthFrame
  filt : SMap (Nat × Nat)
  cnt : SMap Nat
  stx : List StxPkt
  pq : List Nat
  busy : Bool
  last : List Nat
  lastTs : Nat
  hold : Option Nat
  held : Nat
  holdNext : Option Nat
  part : Nat
  rev : Option Bool
  deriving DecidableEq, Repr

/-! ## Ferryman (15) -/

/-- An entry of a delay list: due point, place among equal due points, task entry, period, submission (R458 to R462). -/
structure FWait where
  due : Nat
  order : Nat
  entry : Nat
  period : Nat
  cmd : Cmd
  deriving DecidableEq, Repr

/-- An instance that is ready or delivered: captured W2 to W7, BLOCK, LATE, TIME cycle of readiness, core and dispatch sequence once
delivered, WAIT, whether its missed deadline has been counted, whether its result is discarded (R470). -/
structure Inst where
  entry : Nat
  words : List Nat
  block : Nat
  late : Bool
  cmd : Cmd
  periodic : Bool
  readyAt : Nat
  core : Option Nat
  seq : Nat
  wait : Nat
  missed : Bool
  dead : Bool
  deriving DecidableEq, Repr

/-- FMN: list counters as they stand and as they stand after the running boundary, waiting entries by list, ready instances in
readiness order, delivered instances, insertion counter, SW advances and period starts of PPS_OUT since the last boundary, EMIN in force, parity fault. -/
structure Fmn where
  cnt : SMap Nat
  nxt : SMap Nat
  lists : List (Nat × FWait)
  ready : List Inst
  run : List Inst
  order : Nat
  sw : Nat
  pps : Nat
  emin : Nat
  parity : Bool
  deriving DecidableEq, Repr

/-! ## DSP cores (14) -/

/-- What a core is doing (R451): held, running, waiting in TGET since the given turn, waiting in DWAIT for the given number of
transfers, stalled by a full DMA queue until its instruction can run, stopped. -/
inductive CoreSt where
  | held | running
  | waiting (turn : Nat)
  | dwait (n : Nat)
  | stalled
  | stopped
  deriving DecidableEq, Repr

/-- An entry of the loop stack (R433). -/
structure LoopE where
  lc : Nat
  ls : Nat
  le : Nat
  deriving DecidableEq, Repr

/-- A DMA transfer (R445, R447). -/
structure Dma where
  loc : Nat
  ext : Nat
  len : Nat
  irq : Bool
  toDram : Bool
  deriving DecidableEq, Repr

/-- A core (R426, R427, R447): register files, loop stack (top first), return addresses, status, repeat count, pending branch
(target, delay slots left), task, control space, DMA queue, vector table, what it has stopped with. -/
structure Core where
  d : SMap Word
  a : SMap Word
  o : SMap Word
  l : SMap Word
  x : SMap Int
  loops : List LoopE
  calls : List Nat
  pc : Nat
  ipc : Nat
  ha3 : Bool
  late : Bool
  ie : Bool
  sat : Bool
  ov : Bool
  isr : Nat
  rep : Option Nat
  slot : Option (Nat × Nat)
  st : CoreSt
  task : Bool
  tblk : Nat
  first : Nat
  count : Nat
  ctl : SMap Word
  q : List Dma
  vectors : Nat
  cause : Nat
  drawn : Nat
  deriving DecidableEq, Repr

/-- DSP: cores, the DSP return block of the running tick by channel, send and return buffers by 256 * slot + channel, 1 + the
block that a slot's return buffer holds, the block sealed last, ranges (block, first channel, count) whose task ended without TDONE, and
DSPC time in 1/500 of a cycle. -/
structure Dsp where
  cores : SMap Core
  src : SMap (List Int)
  send : SMap (List Int)
  ret : SMap (List Int)
  owner : SMap Nat
  last : Option Nat
  miss : List (Nat × Nat × Nat)
  clock : Nat
  deriving DecidableEq, Repr

/-! ## References and DPLLs (12) -/

/-- A DPLL beside its registers: forced reference, DCO mode, whether it has been LOCKED since it left OFF, anchor (in 1/500,000
ppt) with its target and whether it is still moving there (R362), remainder of a phase step in 1/500,000,000 ns (R366), phase error
against the selected reference in 4·10^-18 ns (R363), TIME cycles of a retune that are left (R367), and what it put out in LOCKED, newest
first, as TIME cycles and offset times cycles in 1/500,000 ppt (R378). -/
structure Dpll where
  forced : Option Nat
  dco : Bool
  locked : Bool
  anchor : Int
  target : Int
  moving : Bool
  step : Int
  err : Int
  retune : Nat
  avg : List (Nat × Int)
  deriving DecidableEq, Repr

/-- Divider of a clock output (R368, R369): its place in the period, in 1/(2.5·10^26) of a cycle of its clock, and the setting that the
period began with (the register word without EN). -/
structure OutDiv where
  pos : Nat
  cfg : Nat
  deriving DecidableEq, Repr

/-- A REALIGN that waits for edges, with lateness and the TIME cycle of its apply boundary (R370). -/
structure Realign where
  cmd : Cmd
  late : Bool
  since : Nat
  deriving DecidableEq, Repr

/-- REF: the DPLLs, the format last seen of the group a BCLK reference names, REALIGN commands that wait for an edge and those
placed, with lateness (R370; one in part placed keeps in TARGET the outputs that still wait), 1 + the reference that each of WCK_OUT0,
WCK_OUT1 and PPS_OUT was last aligned to, whether the tick waits for its first edge (R371), and the dividers of WCK_OUT0, WCK_OUT1,
MCLK_OUT0, MCLK_OUT1 and PPS_OUT. -/
structure Ref where
  a : Dpll
  b : Dpll
  fmts : SMap Nat
  realigns : List Realign
  placed : List (Cmd × Bool)
  aligned : SMap Nat
  tickWait : Bool
  outs : List OutDiv
  deriving DecidableEq, Repr

/-! ## Tether (13) -/

/-- Roles (R389). -/
inductive Role where
  | solo | join | active | tripped | retired | standby | barred
  deriving DecidableEq, Repr

/-- A HELLO (R392): part number, silicon revision, ROLE pin, role, fitness as TTH_STAT.FIT and TTH_UNFIT show it, boot firmware
digest, TOP_RATE, tick count. -/
structure Hello where
  part : Nat
  sirev : Nat
  rolePin : Bool
  role : Role
  fit : Nat
  causes : Nat
  digest : List Nat
  rate : Nat
  tick : Nat
  deriving DecidableEq, Repr

/-- What every mirror frame carries (R400): sequence number, payload as CVU1 checks it, check value. -/
structure FrameHead where
  seq : BitVec 32
  payload : List Nat
  crc : Word
  deriving DecidableEq, Repr

/-- A tick marker (R396): tick, instant of its boundary in TIME cycles of the active, time bases in units of 2^-64 ns, budget level, config
digest, output digest, declarations of groups and streams (1: free), ASRC states and estimates. -/
structure Marker where
  head : FrameHead
  tick : Nat
  at_ : Nat
  bases : List Nat
  level : Nat
  digest : Nat
  outDigest : Nat
  groups : List (Fin 8 × Bool)
  streams : List (Fin 256 × Bool)
  asrc : List (Fin 256 × Fin 4 × Int)
  deriving DecidableEq, Repr

/-- A marker as it arrives, with half the round trip of the link as measured in ns (R397). -/
structure MarkerIn where
  marker : Marker
  delay : Nat
  deriving DecidableEq, Repr

/-- A command mirrored to the standby (R393). -/
structure MirrorCmd where
  head : FrameHead
  cmd : Cmd
  deriving DecidableEq, Repr

/-- What a mirror frame brings (R393, R395, R403, R450, R457): bytes of a table copy, of a coefficient bank, of DRAM or of a core's local
memory; the value of a mirrored register with the boundary at which it takes effect; an advance of a list; the end of a TABLE_WRITE's or a
bank load's copy on both units with its host read error, its check value and whether that was wrong; the restart boundary of a bank with
its lateness; the boundary at which a late commit acts, by ring and index on the active; and from the standby: its copy of a command's data,
by ring and index on the active, and a frame that it asks for again. -/
inductive Chunk where
  | table (t inst : Nat) (staged : Bool) (off : Nat) (bytes : List Nat)
  | bank (ch b off : Nat) (bytes : List Nat)
  | dram (addr : Nat) (bytes : List Nat)
  | core (k off : Nat) (bytes : List Nat)
  | reg (addr : Nat) (v : Word) (at_ : Nat)
  | list (l : Fin 4) (n at_ : Nat)
  | wrote (err : Option Nat) (v : Nat) (wrong : Bool)
  | loaded (ch b : Nat) (err : Option Nat) (v : Nat) (wrong : Bool)
  | restart (ch b tr : Nat) (late : Bool)
  | commit (ring index at_ : Nat)
  | copied (ring index : Nat)
  | resend (seq : BitVec 32)
  | none
  deriving DecidableEq, Repr

/-- A mirror frame (R400, R403): the tick in which its content was read, and what the payload means. -/
structure MirrorFrame where
  head : FrameHead
  tick : Nat
  chunk : Chunk
  deriving DecidableEq, Repr

/-- The running state that the active copies at the state boundary of a full mirror (R403), with the values of its bases. -/
structure MirrorState where
  head : FrameHead
  xpt : Xpt
  obj : Obj
  out : Out
  slp : Slp
  fmn : Fmn
  bases : List Nat
  deriving DecidableEq, Repr

/-- What a unit sends over the link beside HELLO (R393, R396, R400, R403, R412). -/
inductive Sent where
  | command (m : MirrorCmd) (data : List Nat)
  | marker (m : Marker)
  | frame (f : MirrorFrame)
  | state (m : MirrorState)
  | ack (cs : Nat)
  | announce (h : Nat)
  deriving DecidableEq, Repr

/-- A piece of a full mirror's transfer (R403): bytes of a table copy, of a bank, of DRAM, of a core's local memory; a register. -/
inductive Piece where
  | table (t : Nat) (staged : Bool) (off n : Nat)
  | bank (ch b off n : Nat)
  | dram (addr n : Nat)
  | core (k off n : Nat)
  | reg (addr : Nat)
  deriving DecidableEq, Repr

/-- A mirrored command that the other unit has a part in (R393): a write or a bank load whose data both copy (`mine`: this unit has, whole or
after so many bytes; `theirs`: the other has), or a commit whose boundary has not been told. -/
structure Share where
  id : CmdId
  mine : Option (Option Nat)
  theirs : Bool
  deriving DecidableEq, Repr

/-- Phases of a full mirror (R402, R403). -/
inductive Mirror where
  | idle | transfer | settling
  deriving DecidableEq, Repr

/-- TTH beside its registers: role, own line, the other's line, path states, outputs owned (0 to 31 SDO, 32 to 39 clocks of the
groups, 40 to 44 WCK_OUT0, WCK_OUT1, MCLK_OUT0, MCLK_OUT1, PPS_OUT), stream transmission owned, UNFIT causes of a standby, phase of
its mirror, the last HELLO received and sent, whether both paths are lost, whether markers
arrive, the last marker, whether the counter is to be loaded from it, commands that wait for an acknowledgement, data of mirrored
commands, mirrored register values and list advances with their boundaries, the active's commits (ring, index, boundary at which each acts),
numbers of frames that failed their check with their failures, tick stall,
a handover's boundary and whether this is its incoming unit, output digests of the next and of the running emission, the TIME cycle of
a claim, whether a standby was FIT when the peer was lost, fitness as last reported by FIT_CHG, what was sent in this tick and the last
(with its tick), the next sequence numbers to send and to receive, commands shared with the other unit, what a transfer has still to send,
whether a cancelled handover leaves its outputs to a unit that has released OWN_OUT (R414), and the commands fetched before a handover made
this unit the standby (by serial number). -/
structure Tth where
  role : Role
  ownOut : Bool
  ownIn : Bool
  hbOk : Bool
  linkOk : Bool
  own : List Nat
  ownStr : Bool
  tripped : Bool
  causes : Nat
  mirror : Mirror
  peer : Option Hello
  sent : Option Hello
  peerLost : Bool
  markers : Bool
  marker : Option Marker
  realign : Bool
  acks : List Cmd
  data : List (CmdId × List Nat)
  regs : List (Nat × Nat × Word)
  lists : List (Nat × Fin 4 × Nat)
  commits : List (Nat × Nat × Nat)
  miss : List (Nat × Nat)
  stall : Bool
  handover : Option Nat
  incoming : Bool
  outNext : Nat
  outNow : Nat
  claimed : Option Nat
  lossFit : Bool
  handed : Bool
  fit : Nat
  line : List (Nat × Sent)
  txSeq : Nat
  rxNext : Nat
  shared : List Share
  xfer : List Piece
  kept : Bool
  since : Nat
  deriving DecidableEq, Repr

end Sys2Proof.Machine
end

