-- ==== Sys2Proof/Syntax.lean ====
section
/-! DEFINITION. The commands of the part as syntax: one constructor per row of the opcode table. What a fetched descriptor
carries and what the outside world supplies with an event are the types of Machine/Parts.lean. -/
namespace Sys2Proof
open Machine

/-- The commands and events of the part: one constructor per row of the opcode table, with the rule it follows. -/
inductive Instr where
  /-- TICK_BOUNDARY (R21): The tick generator reaches a tick boundary, the tick counter increments and TICK_OUT marks it. -/
  | tickBoundary (b : Boundary)
  /-- SERVICE_INSTANT (R551): While the tick does not run, the device marks a service instant every 125 µs of the AON clock. -/
  | serviceInstant (b : Boundary)
  /-- OVERRUN_LIMIT (R28): Overruns in OVERRUN_LIMIT consecutive ticks force the device into SAFE with cause OVERRUN. -/
  | overrunLimit
  /-- STATE_REQ_SETUP (R38): A write of REQ = 1 to TOP_STATE_REQ requests SETUP and replaces any earlier request not yet carried out. -/
  | stateReqSetup
  /-- STATE_REQ_RUN (R38): A write of REQ = 2 to TOP_STATE_REQ requests RUN. -/
  | stateReqRun
  /-- STATE_REQ_SAFE (R38): A write of REQ = 3 to TOP_STATE_REQ requests SAFE. -/
  | stateReqSafe
  /-- STATE_REQ_STANDBY (R38): A write of REQ = 4 to TOP_STATE_REQ requests STANDBY. -/
  | stateReqStandby
  /-- STATE_TRANSITION (R38): A requested state transition is judged and carried out or refused at the next boundary, or at once if the tick is not running. -/
  | stateTransition
  /-- SAFE_ENTRY (R39): A standing hardware cause takes the device to SAFE at the next boundary, superseding any request, and records SAFE_CAUSE. -/
  | safeEntry
  /-- TOP_RATE_WRITE (R20): A write to TOP_RATE changes Fs, B or TICK_RUN only in SETUP with the tick stopped, and otherwise sets CFG_REFUSED. -/
  | topRateWrite (v : Word)
  /-- TOP_PIPE_WRITE (R36): A write to TOP_PIPE changes DSP_LAG only in SETUP and the other fields in any state. -/
  | topPipeWrite (v : Word)
  /-- TOP_TICK_LO_READ (R22): A read of TOP_TICK_LO returns counter bits [31:0] and latches bits [47:32] into TOP_TICK_HI. -/
  | topTickLoRead
  /-- TICK_LOAD (R23): A write of LOAD = 1 to TOP_TICK_LOAD_HI loads the tick counter in SETUP with the tick stopped, and is otherwise refused. -/
  | tickLoad (v : Word)
  /-- TICK_SYNC_EDGE (R371): With REF_TICK_SYNC.EN = 1, the first edge of the chosen reference after TICK_RUN is set starts the tick generator. -/
  | tickSyncEdge
  /-- TICK_SYNC_MISSED (R371): No reference edge arrives within 2 s, so the tick starts at once and MISSED reads 1. -/
  | tickSyncMissed
  /-- UNIT_RESET (R48): A write of 1 to UNIT_CTL.RESET pulses a reset of the unit and its descendants, or is refused when HOT_RESET does not allow it. -/
  | unitReset (base : Nat) (v : Word)
  /-- UNIT_HOLD (R48): A write to UNIT_CTL.HOLD holds the unit and its descendants in reset, or releases them. -/
  | unitHold (base : Nat) (v : Word)
  /-- UNIT_ENABLE (R552): A write to UNIT_CTL.ENABLE changes the local enable, and the effective enables of the unit's subtree follow. -/
  | unitEnable (base : Nat) (v : Word)
  /-- UNIT_RESET_DONE (R48): A pulsed reset completes, after any fabric drain of R480, and RESET and IN_RESET return to 0. -/
  | unitResetDone (base : Nat) (cut : List CutBurst)
  /-- REGISTER_WRITE (R6): A write to a register that has no row of its own acts according to the access type of each field. -/
  | registerWrite (a : RegAcc)
  /-- RC_READ (R6): A read of an RC field returns its value and then clears it. -/
  | rcRead (a : RegAcc)
  /-- RING_VECTOR_TRIGGER (R94): A ring's vector fires when COAL_COUNT unreported entries are reached or COAL_TICKS ticks have passed since the first of them. -/
  | ringVectorTrigger
  /-- URGENT_POLL (R67): A write of 1 to HRE_URGENT.POLL requests an immediate doorbell poll, or is deferred or ignored by the limits. -/
  | urgentPoll
  /-- URGENT_POLL_RUN (R67): The urgent poll reads the doorbell page and fetches descriptors once any poll in progress has ended. -/
  | urgentPollRun (b : Boundary)
  /-- HOST_MEMORY_ERROR (R97): A host memory access fails, so the ring concerned halts or STATUS_EN clears, and DMA_ERR is set. -/
  | hostMemoryError (w : HostAccess)
  /-- MSIX_UNMASK (R95): Unmasking an MSI-X vector whose pending bit is set sends one message and clears the bit. -/
  | msixUnmask (v : Fin 64)
  /-- BAR2_ACCESS (R57): A BAR2 read or write reaches the on-chip memories in SETUP, and otherwise reads 0, is discarded and sets BAR2_DENIED. -/
  | bar2Access (write : Bool) (off : Nat) (v : Word) (tag : Nat)
  /-- UNDECODED_ACCESS (R57): A BAR0 access to an undecoded address ends in a completer abort or is discarded, and FAB logs a decode error. -/
  | undecodedAccess (write : Bool) (addr : Nat) (tag : Nat)
  /-- NOP (R75): The NOP command applies at its tick and does nothing. -/
  | nop (c : Cmd)
  /-- BARRIER (R80): A BARRIER stops fetching from its ring until it completes. -/
  | barrier (c : Cmd)
  /-- BARRIER_COMPLETE (R80): A BARRIER completes at the later of its apply tick and the boundary at which every earlier command in its scope has completed. -/
  | barrierComplete
  /-- TABLE_WRITE (R83): A TABLE_WRITE starts copying its data into the staged or only copy of a table when it is fetched. -/
  | tableWrite (c : Cmd)
  /-- TABLE_WRITE_COPY_DONE (R85): A TABLE_WRITE copy ends, the CVU3 check value is compared and the completion is written. -/
  | tableWriteCopyDone (err : Option Nat)
  /-- HELD_WRITE_START (R89): A TABLE_WRITE held behind a pending SCENE_COMMIT starts at the boundary after that commit has acted. -/
  | heldWriteStart
  /-- TABLE_READ (R86): A TABLE_READ copies the live or staged table to host memory at its apply boundary. -/
  | tableRead (c : Cmd)
  /-- TABLE_READ_COPY_DONE (R86): A TABLE_READ copy ends and its completion with the check value is written. -/
  | tableReadCopyDone (err : Option Nat)
  /-- SCENE_COMMIT (R87): A SCENE_COMMIT with DISCARD = 0 makes every changed staged table live, or completes with BAD_TABLE if any is marked bad. -/
  | sceneCommit (c : Cmd)
  /-- SCENE_COMMIT_DISCARD (R87): A SCENE_COMMIT with DISCARD = 1 copies every live table to its staged copy and clears every bad mark. -/
  | sceneCommitDiscard (c : Cmd)
  /-- SCENE_COMMIT_ACT (R88): A commit that waited for earlier TABLE_WRITEs or for pan-stage sets acts at a later boundary with status LATE. -/
  | sceneCommitAct
  /-- PAN_VALIDATE (R116): At boundary v the pan stage validates the staged layout and hull and starts computing sets from the staged tables. -/
  | panValidate
  /-- OBJ_SET (R111): An OBJ_SET writes the selected words of an object entry into both copies and recomputes that object's sets. -/
  | objSet (c : Cmd)
  /-- OBJ_KEYFRAME (R112): An OBJ_KEYFRAME starts a move of the selected fields of an object toward its targets over MOVE_TICKS ticks. -/
  | objKeyframe (c : Cmd)
  /-- PAN_COMPUTE (R134): The pan stage computes the contribution sets of every enabled object up to four ticks ahead. -/
  | panCompute
  /-- OBJ_C_WRITE (R107): A write to OBJ_C changes the speed of sound only in SETUP, and otherwise sets CFG_REFUSED. -/
  | objCWrite (v : Word)
  /-- OBJECT_READMIT (R155): Shed objects are readmitted once the larger prefix has fitted for READMIT_HOLD consecutive ticks. -/
  | objectReadmit
  /-- LANE_LOST (R159): A render lane fails its parity or completion check, adds nothing for the block and enters FAULT. -/
  | laneLost (l : Fin 32) (parity : Bool)
  /-- XPT_NODES (R170): An XPT_NODES command writes node gains into both copies of the node table and starts ramps toward them. -/
  | xptNodes (c : Cmd)
  /-- XPT_RAMP_SET (R177): An XPT_RAMP_SET command writes the ramp length of a range of buses into both copies of XPT_CLIP. -/
  | xptRampSet (c : Cmd)
  /-- PARITY (R194): A parity error in a node's ramp state sets its multiplier to its target and is counted in XPT_PARITY. -/
  | parity (n : Fin 1048576) (k : Fin 64)
  /-- MTR_CFG (R190): An MTR_CFG command replaces the snapshot configuration and can clear every hold. -/
  | mtrCfg (c : Cmd)
  /-- MTR_SNAPSHOT (R191): Every N ticks MTR writes a whole snapshot of the configured meter points, or drops it if the ring lacks room. -/
  | mtrSnapshot
  /-- OUT_BANK_LOAD (R208): An OUT_BANK_LOAD is checked at its apply boundary and starts copying data into a bank, which becomes LOADING. -/
  | outBankLoad (c : Cmd)
  /-- BANK_COPY_DONE (R208): A bank load copy ends, and a check mismatch or host read error sets the bank BAD. -/
  | bankCopyDone (ch : Fin 1024) (b : Fin 2) (err : Option Nat)
  /-- BANK_TRANSFORM_DONE (R209): The transform of a bank's taps into spectra finishes, which fixes the restart boundary Tr. -/
  | bankTransformDone (ch : Fin 1024) (b : Fin 2)
  /-- BANK_RESTART (R209): At Tr the bank becomes READY, its states are zeroed and the load's completion is written. -/
  | bankRestart (ch : Fin 1024) (b : Fin 2)
  /-- OUT_SWAP (R210): An OUT_SWAP writes a chain's BANK field, which starts a crossfade, becomes pending or changes nothing. -/
  | outSwap (c : Cmd)
  /-- CROSSFADE_END (R212): A bank crossfade completes, and any pending swap then starts at once. -/
  | crossfadeEnd
  /-- PATCH_SET (R222): A PATCH_SET writes output patch entries into both copies, and driven destinations change over one block. -/
  | patchSet (c : Cmd)
  /-- PORT_CFG (R252): A PORT_CFG is checked at its apply boundary and writes group or port configuration. -/
  | portCfg (c : Cmd)
  /-- MASK_APPLY (R260): A shadowed slot mask takes effect at the first frame or memory block boundary after its apply boundary. -/
  | maskApply (p : Fin 32)
  /-- PORT_RESTART_APPLY (R261): When the falling envelope of a restart reaches zero, the new port configuration is applied. -/
  | portRestartApply (p : Fin 32)
  /-- TDM_FRAME (R256): A TDM frame begins at the FSYNC active edge, and port envelopes step by one. -/
  | tdmFrame (g : Fin 8) (f : TdmFrame)
  /-- GROUP_RESYNC (R271): After two consecutive frames with the right count, the group is resynchronised and the envelopes may rise. -/
  | groupResync (g : Fin 8)
  /-- CLK_LOST (R270): No BCLK edge for two frame periods puts an external group in CLK_LOST, and its directions fall. -/
  | clkLost (g : Fin 8)
  /-- RATE_CHG (R272): A 1,024-frame rate window lies more than 0.1 % from Fn, and a synchronous group is declared free. -/
  | rateChg (g : Fin 8) (dev : Int)
  /-- GROUP_RATE_RECOVER (R272): After the rate has stayed within 0.1 % for 50 ms, a synchronous group is declared locked again. -/
  | groupRateRecover (g : Fin 8)
  /-- CAPTURE_BLOCK_END (R266): At the end of a memory-mode capture block, a record is written or the block is dropped as an overrun. -/
  | captureBlockEnd (p : Fin 32)
  /-- PLAY_BLOCK_START (R267): A memory-mode play block starts from its record, or an underrun is counted if the record is missing. -/
  | playBlockStart (p : Fin 32)
  /-- CAP_RECORD_COPY (R268): HRE copies a written capture record into the next posted CAP buffer and advances PORT_CAP_RIDX. -/
  | capRecordCopy (p : Fin 32)
  /-- PLY_RECORD_FETCH (R268): HRE fetches a PLY entry's record into the play ring and advances PORT_PLY_WIDX. -/
  | plyRecordFetch (p : Fin 32)
  /-- REPEAT_MODE_ENTRY (R275): After a health trip, an enabled output direction enters repeat mode at its next frame boundary. -/
  | repeatModeEntry (p : Fin 32)
  /-- ASRC_SETTLED (R241): The ratio estimate stays within 1 ppm for 50 ms, and the ASRC channel enters LOCKED and fades in. -/
  | asrcSettled (a : Fin 256) (dev : Int)
  /-- ASRC_ACQUIRE_TIMEOUT (R241): The ASRC estimate has not settled within 500 ms, and ASRC_LOST is set. -/
  | asrcAcquireTimeout (a : Fin 256)
  /-- ASRC_RELOCK (R242): A locked ASRC ratio departs more than 0.1 % from its estimate, and the channel fades out and reacquires. -/
  | asrcRelock (a : Fin 256) (dev : Int)
  /-- ETH_RX_FRAME (R287): A MAC receives a whole frame, checks it, filters it and delivers it to STR or to the host FIFO. -/
  | ethRxFrame (mac : Fin 2) (f : RxFrame)
  /-- PAUSE_HOLD_EXPIRE (R302): The time of a received pause hold runs out and the transmitter resumes. -/
  | pauseHoldExpire (mac : Fin 2)
  /-- XOFF_REFRESH (R301): While XOFF is active and the FIFO fill stays above LOW, a further XOFF is queued once QUANTA × 256 bit times have elapsed. -/
  | xoffRefresh (mac : Fin 2)
  /-- NRX_COPY (R295): The frame at the head of the host FIFO is copied into posted NRX buffers once a buffer is free. -/
  | nrxCopy (mac : Fin 2)
  /-- NTX_FRAME (R298): The MAC takes the next NTX entry and sends the frame or writes back a failure status. -/
  | ntxFrame (mac : Fin 2) (lead : Nat) (readErr : Bool)
  /-- LINK_CHG (R283): The PCS or fault state changes LINK_UP. -/
  | linkChg (mac : Fin 2) (v : BitVec 5)
  /-- ETH_MODE_WRITE (R281): A write to ETH_MODE changes the mode only while the MAC is disabled, and otherwise sets CFG_REFUSED. -/
  | ethModeWrite (mac : Fin 2) (v : Word)
  /-- ETH_MAC_HI_WRITE (R289): A write to ETH_MAC_HI commits the whole filter entry, together with its held ETH_MAC_LO. -/
  | ethMacHiWrite (mac : Fin 2) (e : Fin 32) (v : Word)
  /-- ETH_PAUSE_CTL_WRITE (R301): A write to ETH_PAUSE_CTL that clears GEN while XOFF is active queues an XON at once. -/
  | ethPauseCtlWrite (mac : Fin 2) (v : Word)
  /-- ETH_COUNTER_READ (R306): A read of a counter's LO word returns it, latches the HI word and clears the counter. -/
  | ethCounterRead (mac : Fin 2) (k : Fin 25)
  /-- STREAM_CFG (R313): A STREAM_CFG writes words of a stream entry into both copies after the checks, and may restart the stream. -/
  | streamCfg (c : Cmd)
  /-- STREAM_RATE_CHECK (R316): Every 1,024 used packets a locked stream compares its RTP advance with elapsed time, and may set RATE_OUT. -/
  | streamRateCheck (str : Fin 256) (dev : Int)
  /-- STREAM_RATE_RECOVER (R316): After the rate has stayed within 0.1 % for 50 ms, RATE_OUT clears and the stream is locked again. -/
  | streamRateRecover (str : Fin 256)
  /-- STREAM_INACTIVE (R320): No packet has been used for 16 packet times, and the stream becomes INACTIVE. -/
  | streamInactive (str : Fin 256)
  /-- PATH_LOST (R320): No packet has been taken on a network for 4 packet times, so PATH_A or PATH_B falls to 0. -/
  | pathLost (str : Fin 256) (mac : Fin 2)
  /-- TX_PACKET_QUEUE (R324): A transmit packet is formed and queued once the emission instant of its last sample has passed. -/
  | txPacketQueue (str : Fin 256)
  /-- TX_LATE (R326): A queued packet that has not started transmission within one packet time is discarded. -/
  | txLate (mac : Fin 2) (str : Fin 256)
  /-- TIME_STEER_SET (R334): TIME_STEER with OP SET loads a time base with VALUE at the instant of its apply boundary. -/
  | timeSteerSet (c : Cmd)
  /-- TIME_STEER_STEP (R334): TIME_STEER with OP STEP adds VALUE ns to a time base and puts its servo into ACQUIRE. -/
  | timeSteerStep (c : Cmd)
  /-- TIME_STEER_RATE (R334): TIME_STEER with OP RATE sets the base's RATE word while its servo is OFF. -/
  | timeSteerRate (c : Cmd)
  /-- TIME_STEER_OFFSET (R338): TIME_STEER with OP OFFSET delivers one offset sample to the base's servo while its SRC is SW. -/
  | timeSteerOffset (c : Cmd)
  /-- PPS_EDGE (R341): A PPS_IN edge is paired with the nearest expected value and gives a servo sample. -/
  | ppsEdge (rising : PinEdge)
  /-- PPS_MISSING (R341): An expected PPS edge passes by more than 0.5 s, so PPS_NEXT advances and the base holds over. -/
  | ppsMissing (b : Fin 4)
  /-- SERVO_TB_SAMPLE (R337): Every 1 ms of base time, a TB-sourced servo compares its base with SRC_TB and processes the sample. -/
  | servoTbSample (b : Fin 4)
  /-- TB_RATE_WRITE (R337): A write to TB_RATE sets the rate while the servo is OFF, and is otherwise refused. -/
  | tbRateWrite (b : Fin 4) (v : Word)
  /-- TB_SERVO_WRITE (R339): A write to TB_SERVO that changes SRC or SRC_TB puts the servo into ACQUIRE and initialises its integrator. -/
  | tbServoWrite (b : Fin 4) (v : Word)
  /-- TB_NS_READ (R332): A read of TB_NS latches TB_FRAC of the same base. -/
  | tbNsRead (b : Fin 4)
  /-- SNAP (R332): A write of 1 to TB_SNAP_CTL.SNAP latches all four bases, the tick counter and the tick phase on one TIME cycle. -/
  | snap
  /-- CAP_EDGE (R343): A capture channel stamps an edge of its selected signal, overwriting CAP_NS and incrementing CAP_CNT. -/
  | capEdge (k : Fin 8) (src : Fin 8) (rising : PinEdge)
  /-- CAP_TRIG (R344): A write of 1 to CAP_TRIG takes a software capture on every channel that selects it. -/
  | capTrig
  /-- CAP_NS_READ (R348): A read of CAP_NS latches CAP_FRAC and CAP_CNT. -/
  | capNsRead (k : Fin 8)
  /-- REF_MEASURE (R354): REF updates the measured offset FOFS of an active reference and re-evaluates its limits. -/
  | refMeasure (r : Fin 14) (fofs : Int)
  /-- REF_ACTIVITY_LOSS (R353): A pin reference loses activity after two nominal periods without an edge, and is made INVALID if it was validating or qualified. -/
  | refActivityLoss (r : Fin 5)
  /-- REF_ACTIVITY_RETURN (R353): The first edge after a loss restores a reference's activity. -/
  | refActivityReturn (r : Fin 5)
  /-- QUAL (R355): A reference that has been VALIDATING for VALID becomes QUALIFIED, and selection is re-evaluated. -/
  | qual (r : Fin 14)
  /-- DISQUAL (R355): A qualified reference that has stayed beyond HARD for DWELL becomes INVALID. -/
  | disqual (r : Fin 14)
  /-- DPLL_LOCK_TIME (R361): A DPLL in ACQUIRE with CLAMP = 0 and the phase error within LOCK_THR for LOCK_TIME becomes LOCKED. -/
  | dpllLockTime (p : Fin 2)
  /-- REF_IN_CFG_WRITE (R352): A write to REF_IN_CFG that changes NOM, EDGE or DIFF returns the reference to INVALID, and EN = 0 makes it OFF. -/
  | refInCfgWrite (r : Fin 14) (v : Word)
  /-- DPLL_CTL_WRITE (R378): A write to DPLL_CTL changes DPLL-B's FAMILY only while its EN = 0, and otherwise sets CFG_REFUSED. -/
  | dpllCtlWrite (p : Fin 2) (v : Word)
  /-- DPLL_FB_WRITE (R365): A write to DPLL_FB changes the fallback word, and a free-running anchor slews toward it. -/
  | dpllFbWrite (p : Fin 2) (v : Word)
  /-- SELECT (R359): REF_CMD SELECT forces a DPLL onto one reference. -/
  | select (c : Cmd)
  /-- RELEASE (R359): REF_CMD RELEASE returns a DPLL to automatic selection. -/
  | release (c : Cmd)
  /-- DCO (R366): REF_CMD DCO puts a DPLL into DCO mode with the given frequency word. -/
  | dco (c : Cmd)
  /-- DCO_OFF (R366): REF_CMD DCO_OFF ends DCO mode and enters ACQUIRE or FREERUN. -/
  | dcoOff (c : Cmd)
  /-- PHASE_STEP (R366): REF_CMD PHASE_STEP moves a DCO-mode output's phase by VALUE ns at the slew limit. -/
  | phaseStep (c : Cmd)
  /-- PHASE_STEP_DONE (R366): The remainder of the phase step reaches zero and STEP_BUSY clears. -/
  | phaseStepDone (p : Fin 2)
  /-- REALIGN (R370): REF_CMD REALIGN arms the named outputs to place their next active edge on the next edge of a reference. -/
  | realign (c : Cmd)
  /-- REALIGN_PLACE (R370): A reference edge arrives, the named outputs' periods are adjusted to meet it, and REALIGNED is set. -/
  | realignPlace (r : Fin 14)
  /-- REALIGN_TIMEOUT (R370): The reference gives no edge within 2 s, and REALIGN completes with BAD_TABLE, detail 9. -/
  | realignTimeout (r : Fin 14)
  /-- REQUALIFY (R373): REF_CMD REQUALIFY returns a reference to INVALID so that it revalidates. -/
  | requalify (c : Cmd)
  /-- FMN_SUBMIT (R460): An FMN_SUBMIT makes a task instance ready at once or inserts it into a delay list. -/
  | fmnSubmit (c : Cmd)
  /-- FMN_CANCEL (R463): An FMN_CANCEL removes a scheduled entry's waiting or ready instance and ends its period. -/
  | fmnCancel (c : Cmd)
  /-- FMN_RELEASE (R461): A delay list whose counter reaches an entry's due point releases it as ready, and a periodic entry is reinserted. -/
  | fmnRelease
  /-- TASK_DELIVER (R466): Ferryman pairs the best eligible ready instance with the longest-waiting core and delivers its descriptor. -/
  | taskDeliver
  /-- FMN_SWTICK_WRITE (R456): A write of 1 to FMN_SWTICK.TICK advances every SW list at the next boundary. -/
  | fmnSwtickWrite (v : Word)
  /-- FMN_LIST_CFG_WRITE (R471): A write to FMN_LIST_CFG sets a list's source in SETUP and zeroes its counter, and is otherwise refused. -/
  | fmnListCfgWrite (l : Fin 4) (v : Word)
  /-- FMN_LIST_NOW_LO_READ (R471): A read of FMN_LIST_NOW_LO latches the counter's high bits into FMN_LIST_NOW_HI. -/
  | fmnListNowLoRead (l : Fin 4)
  /-- FMN_PARITY_ERROR (R474): A parity error in list memory puts FMN in FAULT, which forces SAFE. -/
  | fmnParityError
  /-- CORE_START (R449): A core that is enabled, not in reset and in SETUP, RUN or SAFE reads its image header and starts, or stops with BOOT. -/
  | coreStart (k : Fin 16)
  /-- CORE_MBOX_WRITE (R451): A host write to CORE_MBOX sets the core's INT_PEND.MBOX. -/
  | coreMboxWrite (k : Fin 16) (v : Word)
  /-- INTERRUPT (R437): A core takes a pending enabled interrupt, saving PC and SR and jumping to its vector. -/
  | interrupt (k : Fin 16)
  /-- MPY (R428): MPY sets an accumulator to the exact product of two data registers. -/
  | mpy (k : Fin 16) (x : Fin 4) (a b : Fin 32) (ops : List MemOp)
  /-- MAC (R428): MAC adds a product into an accumulator. -/
  | mac (k : Fin 16) (x : Fin 4) (a b : Fin 32) (ops : List MemOp)
  /-- MSU (R428): MSU subtracts a product from an accumulator. -/
  | msu (k : Fin 16) (x : Fin 4) (a b : Fin 32) (ops : List MemOp)
  /-- MAC2 (R428): MAC2 adds two products into one accumulator. -/
  | mac2 (k : Fin 16) (x : Fin 4) (a b e f : Fin 32) (ops : List MemOp)
  /-- PMAC (R428): PMAC adds one product into each of two accumulators. -/
  | pmac (k : Fin 16) (x y : Fin 4) (a b e f : Fin 32) (ops : List MemOp)
  /-- CLR (R428): CLR clears an accumulator. -/
  | clr (k : Fin 16) (x : Fin 4) (ops : List MemOp)
  /-- EXT (R429): EXT extracts a shifted accumulator into a data register, rounding half to even and saturating. -/
  | ext (k : Fin 16) (t : Fin 32) (x : Fin 4) (sh : Fin 64) (ops : List MemOp)
  /-- EXTA (R429): EXTA extracts a shifted accumulator, rounding half away from zero. -/
  | exta (k : Fin 16) (t : Fin 32) (x : Fin 4) (sh : Fin 64) (ops : List MemOp)
  /-- EXTT (R429): EXTT extracts a shifted accumulator, truncating toward minus infinity. -/
  | extt (k : Fin 16) (t : Fin 32) (x : Fin 4) (sh : Fin 64) (ops : List MemOp)
  /-- EXP (R430): EXP counts the redundant sign bits of a data register or accumulator. -/
  | exp (k : Fin 16) (t : Fin 32) (src : ExpSrc) (ops : List MemOp)
  /-- NORM (R430): NORM shifts a data register left by its redundant sign bits. -/
  | norm (k : Fin 16) (t a : Fin 32) (ops : List MemOp)
  /-- BFLT (R430): BFLT keeps the minimum of a register and the exponent of a value, which gives a block exponent. -/
  | bflt (k : Fin 16) (t a : Fin 32) (ops : List MemOp)
  /-- ASH (R430): ASH shifts a data register arithmetically by a signed amount with saturation. -/
  | ash (k : Fin 16) (t a b : Fin 32) (ops : List MemOp)
  /-- ALU_OP (R430): An add, subtract, compare, minimum, maximum, logical, shift or move instruction operates on 32-bit data registers. -/
  | aluOp (k : Fin 16) (op : AluOp) (ops : List MemOp)
  /-- LOAD (R431): A load reads memory at the effective address of its addressing mode and may post-modify the address register. -/
  | load (k : Fin 16) (m : MemOp) (ops : List MemOp)
  /-- STORE (R443): A store writes memory at its effective address, and a store to the current-return window is kept or discarded by the task's range and the seal. -/
  | store (k : Fin 16) (m : MemOp) (ops : List MemOp)
  /-- LOOP (R433): LOOP pushes a hardware loop entry onto the loop stack. -/
  | loop (k : Fin 16) (c : Count) (stop : Nat) (ops : List MemOp)
  /-- LPOP (R433): LPOP pops the top loop entry into three data registers. -/
  | lpop (k : Fin 16) (a b e : Fin 32) (ops : List MemOp)
  /-- LPUSH (R433): LPUSH pushes a loop entry from three data registers. -/
  | lpush (k : Fin 16) (a b e : Fin 32) (ops : List MemOp)
  /-- REP (R434): REP repeats the following instruction count times. -/
  | rep (k : Fin 16) (c : Count) (ops : List MemOp)
  /-- BRANCH (R436): A branch transfers control after its two delay slots. -/
  | branch (k : Fin 16) (target : Nat) (taken : Bool) (ops : List MemOp)
  /-- CALL (R436): A call transfers control to a subroutine after its two delay slots. -/
  | call (k : Fin 16) (target : Nat) (ops : List MemOp)
  /-- RETURN (R436): A return transfers control back after its two delay slots. -/
  | return (k : Fin 16) (ops : List MemOp)
  /-- RTI (R437): RTI restores PC from IPC and SR from ISR. -/
  | rti (k : Fin 16) (ops : List MemOp)
  /-- TGET (R441): TGET asks Ferryman for a task and stalls until one is delivered. -/
  | tget (k : Fin 16) (ops : List MemOp)
  /-- TDONE (R444): TDONE waits for the task's return stores, retires, passes its result and ends the task. -/
  | tdone (k : Fin 16) (a : Fin 32) (ops : List MemOp)
  /-- DWAIT (R445): DWAIT stalls the core until no more than n of its DMA transfers remain. -/
  | dwait (k : Fin 16) (n : Nat) (ops : List MemOp)
  /-- DMA_CMD (R445): A write to DMA_CMD queues a transfer between local memory and DRAM, stalling while the queue is full. -/
  | dmaCmd (k : Fin 16) (v : Word) (ops : List MemOp)
  /-- DMA_TRANSFER_DONE (R445): A DMA transfer completes, setting INT_PEND.DMA if requested, or raises DMA_ERR. -/
  | dmaTransferDone (k : Fin 16) (err : Bool)
  /-- MSG (R447): A core's write to MSG is copied to CORE_MSG and sets MSG in its UNIT_EVENT. -/
  | msg (k : Fin 16) (v : Word) (ops : List MemOp)
  /-- DMC_CFG_WRITE (R482): A write to DMC_CFG in SETUP describes the DRAM fitted and clears CHECKED, and is otherwise refused. -/
  | dmcCfgWrite (v : Word)
  /-- DLY_WRITE (R486): A write to a lane delay register sets the delay and clears CHECKED. -/
  | dlyWrite (lane : Fin 8) (reg : Fin 4) (v : Word)
  /-- DMC_CHECK_GO (R487): A write of GO = 1 in SETUP starts the DRAM delay check. -/
  | dmcCheckGo (v : Word)
  /-- CHECK_DONE (R487): The DRAM delay check ends, setting CHECKED, or FAIL with the failing lanes. -/
  | checkDone (lanes : BitVec 8)
  /-- DMC_RECHECK_WRITE (R488): A write of RECHECK in RUN restarts the recheck period or stops rechecks. -/
  | dmcRecheckWrite (v : Word)
  /-- DRAM_RECHECK (R488): Each RECHECK period in RUN, DMC rereads the check words, and a mismatch puts it in FAULT and forces SAFE. -/
  | dramRecheck (bad : Bool)
  /-- MR4_POLL (R489): DMC reads MR4 of every rank and updates each channel's hot and OVERTEMP states. -/
  | mr4Poll (l : List Mr4)
  /-- REFRESH_EXPIRY (R490): A channel's refresh timer expires, and the refresh is postponed or issued. -/
  | refreshExpiry (c : Fin 4) (qos : List Queued)
  /-- OWED_REFRESH_FLUSH (R490): When no deadline window is open, a channel issues its owed refreshes back to back. -/
  | owedRefreshFlush (c : Fin 4) (qos : List Queued)
  /-- RANK_POWER_DOWN (R492): A rank idle for PD_TIMER DMC cycles enters power-down. -/
  | rankPowerDown (c : Fin 4) (r : Fin 2)
  /-- SENSOR_SAMPLE (R498): Every 100 µs PWR samples the temperature sensors, marks failed sensors and updates T_max. -/
  | sensorSample (readings : List Int)
  /-- RAIL_SAMPLE (R499): Every 10 µs PWR measures the core rail and checks each supply against its window. -/
  | railSample (current voltage : Nat) (rails : List Nat)
  /-- SUPPLY (R506): A rail out of window for 10 µs, or core current above I_TRIP for 100 µs, raises a supply cause of SAFE. -/
  | supply
  /-- SUPPLY_CAUSE_CLEAR (R506): Every rail within its window and the current below I_TRIP for 1 ms clears the supply cause. -/
  | supplyCauseClear
  /-- OVERTEMP_SAFE_CAUSE (R506): A DMC channel OVERTEMP for 1 s raises a thermal cause of SAFE. -/
  | overtempSafeCause
  /-- OVERTEMP_RESET (R507): A valid sensor reading of 125 °C or above for 1 ms resets the device through TOP into OFF. -/
  | overtempReset
  /-- LEVEL_RISE (R502): After RISE_HOLD consecutive decisions above the level, the budget level rises by one step. -/
  | levelRise
  /-- PAD_CHECK (R510): PIN checks a driven pad against its readback and records a short after three consecutive mismatches. -/
  | padCheck (cls : Fin 5) (idx : Fin 64) (j : Nat) (read : Bool)
  /-- PIN_OPEN_TEST_GO (R511): A write of GO = 1 to PIN_OPEN_TEST in SETUP starts the open test of the class 5 inputs. -/
  | pinOpenTestGo (v : Word)
  /-- OPEN_TEST_DONE (R511): The open test ends and marks every input that followed both pulls as OPEN. -/
  | openTestDone (inputs : List Nat)
  /-- PIN_FLAGS_CLEAR (R514): Clearing a class flag in PIN_FLAGS drives and checks the released pads again. -/
  | pinFlagsClear (v : Word)
  /-- HELLO (R392): A HELLO from the peer is checked, which can bar the unit, make the standby unfit or realign its tick counter. -/
  | hello (h : Hello)
  /-- HELLO_SEND (R392): At link-up and every 100 ms, the unit sends HELLO to its peer. -/
  | helloSend
  /-- TICK_MARKER (R396): A standby receives the active's tick marker, places its boundary and takes the digests and declarations. -/
  | tickMarker (m : MarkerIn)
  /-- MIRROR_COMMAND (R393): A standby receives a command mirrored by the active and acknowledges it with its tick. -/
  | mirrorCommand (c : MirrorCmd) (data : List Nat)
  /-- MIRROR_ACK (R393): The active receives the standby's acknowledgement, and the command reaches its pan stage. -/
  | mirrorAck (cs : Nat)
  /-- MIRROR_ACK_TIMEOUT (R393): No acknowledgement arrives within 50 µs, so the active declares TETHER_DOWN and proceeds alone. -/
  | mirrorAckTimeout
  /-- MIRROR_FRAME (R400): A mirror frame is checked by CVU1, resent on failure, and the link is declared down after four failures. -/
  | mirrorFrame (f : MirrorFrame)
  /-- MIRROR_STATE_COPY (R403): At boundary S after the transfer, the active copies its running state and the standby resumes from it. -/
  | mirrorStateCopy (m : MirrorState)
  /-- SETTLE_DONE (R404): The settling count reaches zero, and the MIRROR cause clears when the next digest agrees. -/
  | settleDone
  /-- TETHER_LINK_UP (R403): The Tether link comes up, and a full mirror starts. -/
  | tetherLinkUp
  /-- TETHER_DOWN (R411): The Tether link path stops, so the standby loses mirroring and its TETHER reference and becomes UNFIT. -/
  | tetherDown
  /-- HB_LOST (R384): A heartbeat path shows no edge or heartbeat block for 200 ns and is declared stopped. -/
  | hbLost (pin link : Bool)
  /-- TICK_STALL (R385): In RUN, no tick boundary within two tick periods stops the heartbeat, which is a trip cause. -/
  | tickStall
  /-- OWN_IN_CHANGE (R384): A new OWN_IN level counts once it has held for 40 ns. -/
  | ownInChange (level : Bool)
  /-- OWN_RELEASE_DELAY (R388): The AON domain releases OWN_OUT RELEASE_DELAY after the part's heartbeat stops. -/
  | ownReleaseDelay
  /-- PAD_FORCE_HIZ (R388): An output not released by its frame logic within 25 µs of OWN_OUT release is forced to high impedance. -/
  | padForceHiz (o : Fin 45)
  /-- OWN_DEFER_EXPIRY (R390): A secondary in JOIN that has seen OWN_IN deasserted for OWN_DEFER claims the active role. -/
  | ownDeferExpiry
  /-- OWNERSHIP_CHANGE (R387): At an output's frame boundary, ownership of it is gained or lost according to OWN_OUT and OWN_IN. -/
  | ownershipChange (o : Fin 45)
  /-- TRIP (R407): A write of 1 to TTH_CTL.TRIP trips the active, stopping its heartbeat and packets and sending it toward repeat mode. -/
  | trip
  /-- HANDOVER (R412): A write of 1 to TTH_CTL.HANDOVER on the active announces a handover at boundary H to a fit standby. -/
  | handover
  /-- RECLAIM (R412): A primary with REVERT = 1 that has been a fit standby for REVERT_HOLD announces a handover. -/
  | reclaim
  /-- HANDOVER_ANNOUNCE (R412): A unit receives the handover announcement and stores H in TTH_HANDOVER. -/
  | handoverAnnounce (h : Nat)
  /-- HANDOVER_EXECUTE (R413): At boundaries H−1 and H, the OWN lines, ownership and roles move between the units. -/
  | handoverExecute
  /-- POWER_ON_RESET (R516): Supplies rising reset everything except fuses and put the device in OFF. -/
  | powerOnReset
  /-- SUPPLY_LOSS (R537): A rail falling below 90 % takes the POWER-ON reset, floats the outputs and releases OWN_OUT. -/
  | supplyLoss
  /-- RST_N_RESET (R516): RST_N held low for at least 1 µs resets everything except fuses. -/
  | rstNReset
  /-- RST_N_RISE (R518): When RST_N rises the device samples ROLE and BOOTSEL, reads its fuses and starts its clocks. -/
  | rstNRise (role bootsel : Bool) (keyHash : Option (List Nat)) (minRollback : Nat)
  /-- PERST_N_RESET (R516): PERST_N low resets the PCIe link and configuration space and everything that SOFT clears. -/
  | perstNReset
  /-- SOFT_RESET (R524): A write of SOFT with KEY 0xA5C3 to TOP_RESET takes the SOFT reset into OFF. -/
  | softReset (v : Word)
  /-- SPI_BOOT (R522): With BOOTSEL high, the device starts reading a boot image from SPI flash after each reset that enters OFF. -/
  | spiBoot
  /-- HOST_BOOT_GO (R523): A write of GO = 1 to TOP_BOOT in OFF starts a host boot from TOP_BOOT_ADDR. -/
  | hostBootGo (v : Word)
  /-- BOOT_HEADER_READ (R521): The 256-byte image header has been read and is checked for magic, length and key. -/
  | bootHeaderRead (bytes : Option (List Nat))
  /-- BOOT_BODY_READ (R521): The image body has been read, the signature and rollback are checked, and an authenticated image takes the device to SETUP. -/
  | bootBodyRead (bytes : Option (List Nat))
  /-- DPLL_UNLOCK (R361): A LOCKED DPLL whose phase error exceeds 4 × LOCK_THR, or whose CLAMP becomes 1, leaves LOCKED for ACQUIRE and sets LOCK_CHG. -/
  | dpllUnlock (p : Fin 2)
  /-- HB_PATH_ALIVE (R384): Edges return on HB_IN no more than 150 ns apart, so the pin heartbeat path is alive again and HB_OK becomes 1. -/
  | hbPathAlive
  /-- LANE_REVERSED (R512): A SerDes receiver finds 64b/66b block lock only on inverted data, and PIN records a REVERSED fault for that Ethernet or Tether lane. -/
  | laneReversed (lane : Fin 4)
  /-- TX_FRAME_BOUNDARY (R299): A frame in transmission ends, and the transmitter chooses the next frame among a queued pause frame, the oldest ready STR packet and the next host frame. -/
  | txFrameBoundary (mac : Fin 2) (lead : Nat) (readErr : Bool)
  /-- ASRC_RATIO_OUT (R241): An ASRC channel's measured ratio lies beyond ±2 % of nominal, so it enters LOST, and it returns to ACQUIRE when the ratio comes back within range. -/
  | asrcRatioOut (a : Fin 256) (dev : Int)
  deriving DecidableEq, Repr

end Sys2Proof
end

