-- ==== Sys2Proof/Machine/Crypt.lean ====
section
/-! DEFINITION. SHA-384 and ECDSA P-384 verification (spec 18 R520, R521 name them; the standards FIPS 180-4 and FIPS 186-4 define
them: PRESUMED, log 39). -/
namespace Sys2Proof.Machine

/-! ## SHA-384 -/

/-- Largest `x < 2^k + r` with `x^3 ≤ n`, digit by digit. -/
def cbrtGo : Nat → Nat → Nat → Nat
  | 0, _, r => r
  | k + 1, n, r =>
    let t := r + 2 ^ k
    if t * t * t ≤ n then cbrtGo k n t else cbrtGo k n r

/-- The first 80 primes, by trial division. -/
def shaPrimes : List Nat :=
  ((List.range 410).filter (fun p => 2 ≤ p && (List.range 21).all (fun q => q < 2 || p == q || p % q != 0))).take 80

/-- The round constants: the first 64 bits of the fractional parts of the cube roots of the first 80 primes. -/
def shaK : List Nat := shaPrimes.map (fun p => cbrtGo 68 (p * 2 ^ 192) 0 % 2 ^ 64)

/-- The initial hash of SHA-384: the fractional parts of the square roots of the 9th to 16th primes. -/
def sha384Init : List Nat := ((shaPrimes.drop 8).take 8).map (fun p => isqrt (p * 2 ^ 128) % 2 ^ 64)

def w64 (n : Nat) : Nat := n % 2 ^ 64
def rotr64 (x n : Nat) : Nat := w64 (x / 2 ^ n + x * 2 ^ (64 - n))
def shaS0 (x : Nat) : Nat := rotr64 x 28 ^^^ rotr64 x 34 ^^^ rotr64 x 39
def shaS1 (x : Nat) : Nat := rotr64 x 14 ^^^ rotr64 x 18 ^^^ rotr64 x 41
def shaT0 (x : Nat) : Nat := rotr64 x 1 ^^^ rotr64 x 8 ^^^ (x / 2 ^ 7)
def shaT1 (x : Nat) : Nat := rotr64 x 19 ^^^ rotr64 x 61 ^^^ (x / 2 ^ 6)

/-- One round on the eight working words, with round constant `k` and schedule word `w`. -/
def shaRound (v : List Nat) (k w : Nat) : List Nat :=
  match v with
  | [a, b, c, d, e, f, g, h] =>
    let ch := (e &&& f) ^^^ ((2 ^ 64 - 1 - e) &&& g)
    let maj := (a &&& b) ^^^ (a &&& c) ^^^ (b &&& c)
    let t1 := h + shaS1 e + ch + k + w
    [w64 (t1 + shaS0 a + maj), a, b, c, w64 (d + t1), e, f, g]
  | v => v

/-- The message schedule from the last sixteen words, oldest first. -/
def shaNext (l : List Nat) : Nat := w64 (shaT1 (l.getD 14 0) + l.getD 9 0 + shaT0 (l.getD 1 0) + l.getD 0 0)

/-- Rounds over the round constants; `w` holds the schedule word of this round and the fifteen after it. -/
def shaRounds : List Nat → List Nat → List Nat → List Nat
  | [], _, v => v
  | k :: ks, w, v => shaRounds ks (w.drop 1 ++ [shaNext w]) (shaRound v k (w.getD 0 0))

/-- One block of 128 bytes. -/
def shaBlock (h : List Nat) (block : List Nat) : List Nat :=
  let w := (List.range 16).map (fun i => ofBe (slice block (8 * i) 8))
  (h.zip (shaRounds shaK w h)).map (fun x => w64 (x.1 + x.2))

/-- Blocks of a padded message; the first argument bounds their number. -/
def shaBlocks : Nat → List Nat → List Nat → List Nat
  | 0, h, _ => h
  | n + 1, h, l => shaBlocks n (shaBlock h (l.take 128)) (l.drop 128)

/-- SHA-384 of a byte string, as bytes. -/
def sha384 (l : List Nat) : List Nat :=
  let n := l.length
  let pad := (128 - (n + 17) % 128) % 128
  let m := l ++ [128] ++ List.replicate pad 0 ++ beBytes 16 (8 * n)
  ((shaBlocks (m.length / 128) sha384Init m).take 6).flatMap (beBytes 8)

/-! ## ECDSA P-384 -/

def p384P : Nat := 2 ^ 384 - 2 ^ 128 - 2 ^ 96 + 2 ^ 32 - 1
def p384N : Nat := 0xFFFFFFFFFFFFFFFFFFFFFFFFFFFFFFFFFFFFFFFFFFFFFFFFC7634D81F4372DDF581A0DB248B0A77AECEC196ACCC52973
def p384B : Nat := 0xB3312FA7E23EE7E4988E056BE3F82D19181D9C6EFE8141120314088F5013875AC656398D8A2ED19D2A85C8EDD3EC2AEF
def p384G : Nat × Nat :=
  (0xAA87CA22BE8B05378EB1C71EF320AD746E1D3B628BA79B9859F741E082542A385502F25DBF55296C3A545E3872760AB7,
   0x3617DE4A96262C6F5D9E98BF9292DC29F8F41DBD289A147CE9DA3113B5F0B8C00A60B1CE1D7E819D7A431D7C90EA0E5F)

/-- `a^e mod m`; `k` bounds the bits of `e`. -/
def powMod (m : Nat) : Nat → Nat → Nat → Nat → Nat
  | 0, _, _, acc => acc
  | k + 1, a, e, acc => powMod m k (a * a % m) (e / 2) (if e % 2 = 1 then acc * a % m else acc)

/-- Inverse modulo a prime. -/
def invMod (m a : Nat) : Nat := powMod m 384 (a % m) (m - 2) 1

/-- Difference modulo the field prime. -/
def subP (a b : Nat) : Nat := (a + (p384P - b % p384P)) % p384P

/-- A point in Jacobian coordinates; Z = 0 is the point at infinity. -/
structure JPoint where
  x : Nat
  y : Nat
  z : Nat
  deriving DecidableEq, Repr

def JPoint.dbl (q : JPoint) : JPoint :=
  let zz := q.z * q.z % p384P
  let m := 3 * subP q.x zz * ((q.x + zz) % p384P) % p384P
  let yy := q.y * q.y % p384P
  let s := 4 * q.x * yy % p384P
  let x := subP (m * m) (2 * s)
  ⟨x, subP (m * subP s x) (8 * yy * yy), 2 * q.y * q.z % p384P⟩

def JPoint.add (a b : JPoint) : JPoint :=
  if a.z = 0 then b else if b.z = 0 then a
  else
    let za := a.z * a.z % p384P
    let zb := b.z * b.z % p384P
    let ua := a.x * zb % p384P
    let ub := b.x * za % p384P
    let sa := a.y * b.z * zb % p384P
    let sb := b.y * a.z * za % p384P
    if ua = ub then (if sa = sb then a.dbl else ⟨1, 1, 0⟩)
    else
      let h := subP ub ua
      let r := subP sb sa
      let hh := h * h % p384P
      let hhh := h * hh % p384P
      let v := ua * hh % p384P
      let x := subP (r * r) (hhh + 2 * v)
      ⟨x, subP (r * subP v x) (sa * hhh), h * a.z * b.z % p384P⟩

/-- Scalar multiple; the first argument bounds the bits of the scalar. -/
def JPoint.mul : Nat → JPoint → Nat → JPoint → JPoint
  | 0, _, _, acc => acc
  | k + 1, q, e, acc => JPoint.mul k q.dbl (e / 2) (if e % 2 = 1 then acc.add q else acc)

/-- The point lies on the curve and its coordinates are in range. -/
def onCurve (x y : Nat) : Bool :=
  decide (x < p384P) && decide (y < p384P) && (y * y % p384P == (x * x * x + (p384P - 3) * x + p384B) % p384P)

/-- The signature (r, s) verifies the digest under the public key (x, y). -/
def ecdsaOk (x y r s : Nat) (digest : List Nat) : Bool :=
  let w := invMod p384N s
  let u1 := ofBe digest * w % p384N
  let u2 := r * w % p384N
  let q := (JPoint.mul 384 ⟨p384G.1, p384G.2, 1⟩ u1 ⟨1, 1, 0⟩).add (JPoint.mul 384 ⟨x, y, 1⟩ u2 ⟨1, 1, 0⟩)
  let zi := invMod p384P q.z
  onCurve x y && decide (0 < r) && decide (r < p384N) && decide (0 < s) && decide (s < p384N) && q.z != 0
    && q.x * zi * zi % p384P % p384N == r

end Sys2Proof.Machine
end

