-- ==== Sys2Proof/Machine/State.lean ====
section
/-! DEFINITION. The state of the part: every register, table, queue, buffer, counter and mode the spec gives it, as plain
data, and the state after reset. -/
namespace Sys2Proof.Machine

/-! ## Faults and refusals -/

/-- Reasons a step can stop with a fault. No command of this block stops by a fault: the spec gives every command an
effect, so the type has one constructor that no meaning raises. -/
inductive Fault where
  /-- Raised by no meaning; safe. -/
  | none
  deriving DecidableEq, Repr

/-- Reasons a step can refuse a command. -/
inductive Refusal where
  /-- A command whose meaning has not been written; raised by its arm of `exec` alone; safe. -/
  | notModelled (mnemonic : String)
  deriving DecidableEq, Repr

/-- The part without its queue of waiting commands. -/
structure Dev where
  grade : Grade
  top : Top
  hdr : SMap Hdr
  regs : SMap Word
  latched : SMap Word
  ev : List TickEv
  lastEv : List TickEv
  hre : Hre
  tabs : SMap Tab
  hostMem : List Host.Cell
  dram : List Host.Cell
  localMem : List Host.Cell
  bus : BusRead
  dmc : Dmc
  pwr : Pwr
  pin : Pin
  boot : Boot
  free : Nat
  obj : Obj
  xpt : Xpt
  mtr : Mtr
  out : Out
  tbu : Tbu
  sap : Sap
  slp : Slp
  str : Str
  eth : SMap EthM
  tth : Tth
  dsp : Dsp
  fmn : Fmn
  ref : Ref
  banks : SampleBanks
  cfg : PciCfg
  jtag : Jtag
  deriving DecidableEq, Repr

/-- The part with the queue of commands that wait, first in first out. -/
structure State where
  pending : List Instr
  dev : Dev
  deriving DecidableEq, Repr

/-! ## Reset values -/

/-- A field row's reset value in place. -/
def FieldRow.rstWord (f : FieldRow) : Nat := f.rst * 2 ^ f.lo

/-- The row of the register table that an address names, if one does. -/
def rowAt (a : Nat) : Option RegRow :=
  (rowsOfPage (a / 0x10000)).find? (fun r =>
    if r.count = 1 then r.base == a
    else r.base ≤ a && a < r.base + r.stride * r.count && (a - r.base) % r.stride == 0)

/-- FAB_QOS at reset by master (R476): read value, write value. -/
def qosReset : Nat → Nat × Nat
  | 0 => (4, 4)
  | 1 => (10, 10)
  | 2 => (6, 6)
  | 3 => (6, 6)
  | 4 => (6, 6)
  | 5 => (6, 6)
  | 6 => (14, 13)
  | 7 => (14, 13)
  | 8 => (12, 12)
  | 9 => (14, 13)
  | _ => (0, 0)

/-- REF_IN_BW at reset by reference, in mHz (R377). -/
def refBwReset (i : Nat) : Nat :=
  if i < 2 then 10000 else if i < 4 then 1000 else if i = 4 then 10 else if i < 9 then 100000 else if i < 13 then 100
  else 1000000

/-- Reset value of a register: the sum of its fields' reset values, with the per-grade and per-instance values that the
table cannot hold (R476, R377, R378, R508). -/
def resetReg (g : Grade) (a : Nat) : Word :=
  if a = 0x50104 then
    (match g with | .commercial => 0x5F4B0002#32 | .industrial => 0x735F0002#32)
  else if 0x20100 ≤ a ∧ a < 0x20128 ∧ a % 4 = 0 then
    let q := qosReset ((a - 0x20100) / 4)
    BitVec.ofNat 32 (q.1 * 16 + q.2)
  else if a = 0x70200 ∨ a = 0x705A0 then 0x80000000#32
  else if 0x70400 ≤ a ∧ a < 0x705C0 ∧ a % 0x20 = 4 then BitVec.ofNat 32 (refBwReset ((a - 0x70404) / 0x20))
  else match rowAt a with
    | some r => BitVec.ofNat 32 (r.fields.foldl (fun n f => n + f.rstWord) 0)
    | none => 0#32

/-- Header at reset (R46): a unit whose ENABLE resets to 1 reports OK, one whose ENABLE resets to 0 reports OFF. -/
def resetHdr (b : Nat) : Hdr :=
  let en := match unitAt b with | some u => u.en | none => false
  ⟨en, false, false, false, 0, 0, false, if en then .ok else .off, 0, 0, 0⟩

def RingS.zero : RingS := ⟨false, false, true, 0, 0, 0⟩
def Tab.zero : Tab := ⟨[], [], false, []⟩

/-- MSI-X and bus mastering enabled, no Function Mask. DESIGN CHOICE, log 103. -/
def PciCfg.reset : PciCfg := ⟨true, false, true⟩
def Top.reset : Top := ⟨.off, none, 0, 0, 0, 0, 0, false, 0, 0, false, false, []⟩
def Hre.reset : Hre := ⟨[], [], [], [], 0, [], [], [], false, [], 0, 0, false, false, false, false⟩
def Dmc.reset : Dmc := ⟨false, false, true, []⟩
def Pwr.reset : Pwr := ⟨7, 0, 0, 0, false, false, true, 0⟩
def Pin.reset : Pin := ⟨[], []⟩
def ObjMoves.none : ObjMoves := ⟨.none, .none, .none, .none, .none⟩
def ObjR.zero : ObjR := ⟨false, [], 0, false, [], true, 0, false, [], 0⟩
/-- All 32 lanes are enabled and OK at reset. -/
def Obj.reset : Obj := ⟨[], [], [], 0, [], List.range 32, List.range 32, [], [], []⟩
def Xpt.reset : Xpt := ⟨[], none, [], [], []⟩
def Point.zero : Point := ⟨.zero, none, .zero, .zero, .zero⟩
def Mtr.reset : Mtr := ⟨[], [], 0, 0⟩
def BankRun.zero : BankRun := ⟨[], []⟩
def ChainR.zero : ChainR := ⟨false, 0, 0, .zero, .zero, [], 0, 0, 0x1000000, [], false, false, 0⟩
def CoefBank.zero : CoefBank := ⟨.ready, [], [], [], false, false, none⟩
def Fade.zero : Fade := ⟨0, 0, 0, 0⟩
def Out.reset : Out := ⟨[], [], [], [], [], true, [], [], [], []⟩
def TBase.zero : TBase := ⟨0, 0, .zero, 0, 0, none, false, false, 0, 0⟩
def Capt.zero : Capt := ⟨0, 0, 0⟩
def Tbu.reset : Tbu := ⟨[], 0, 0, []⟩
def Env.zero : Env := ⟨0, 64, false, false, 0, false⟩
def CapRun.zero : CapRun := ⟨0, 0, 0, [], false, false, false⟩
def PlyRun.zero : PlyRun := ⟨0, [], [], false, false⟩
def PortS.zero : PortS := ⟨.zero, .zero, none, none, none, [], [], [], [], [], [], [], false, .zero, .zero⟩
def Grp.zero : Grp := ⟨none, none, 0, 0, false, 0, false, false, false, false, 0, none, [], 0, false⟩
def Sap.reset : Sap := ⟨[], []⟩
def PathRun.zero : PathRun := ⟨none, [], []⟩
def AsrcS.zero : AsrcS := ⟨0, 0, false, 0, false, false, 0, [], 0, none⟩
def Slp.reset : Slp := ⟨[], [], [], [], true, 0x801, [], []⟩
def RxMeas.zero : RxMeas := ⟨false, 0, 0, 0, 0, 0⟩
def RxS.zero : RxS := ⟨[], [], false, 0, [], 0, [], false, [], [], none, false, 0, .zero⟩
def TxS.zero : TxS := ⟨0, [], [], 0, [], 0⟩
def Str.reset : Str := ⟨[], []⟩
def EthM.zero : EthM := ⟨[], [], [], [], [], false, [], 0, none, 0, none, 0, none⟩
def Tth.reset : Tth :=
  ⟨.solo, false, false, false, false, [], false, false, 0, .idle, none, none, false, false, none, false, [], [], [], [], [], [], false,
    none, false, 0, 0, none, false, false, 0, [], 0, 0, [], [], false, 0⟩
def Core.zero : Core :=
  ⟨[], [], [], [], [], [], [], 0, 0, false, false, false, false, false, 0, none, none, .held, false, 0, 0, 0, [], [], 0, 0, 0⟩
def Dsp.reset : Dsp := ⟨[], [], [], [], [], none, [], 0⟩
/-- EMIN in force at reset is FMN_EMIN's reset value (R471). -/
def Fmn.reset : Fmn := ⟨[], [], [], [], [], 0, 0, 0, 0x642, false⟩
def Dpll.zero : Dpll := ⟨none, false, false, 0, 0, false, 0, 0, 0, []⟩
/-- The dividers begin a period with the reset values of their registers (R379); DESIGN CHOICE, log 83. -/
def Ref.reset : Ref := ⟨.zero, .zero, [], [], [], [], false, [⟨0, 0x800⟩, ⟨0, 0x800⟩, ⟨0, 1⟩, ⟨0, 1⟩, ⟨0, 0x2710⟩]⟩
def Boot.reset : Boot := ⟨false, false, none, 0, false, false, none, false⟩
def Jtag.reset : Jtag := ⟨.reset, [], .idcode, [], []⟩

/-- The part after power-on reset: OFF, every register at its reset value, nothing listed in any memory. -/
def Dev.reset : Dev :=
  ⟨.commercial, .reset, [], [], [], [], [], .reset, [], [], [], [], ⟨0, false⟩, .reset, .reset, .reset, .reset, 0,
    .reset, .reset, .reset, .reset, .reset, .reset, .reset, .reset, [], .reset, .reset, .reset, .reset, ⟨[], []⟩, .reset, .reset⟩

/-- The machine right after reset, with no command waiting. -/
def State.reset : State := ⟨[], .reset⟩

end Sys2Proof.Machine
end

