-- ==== Sys2Proof/Machine/Ops.lean ====
section
/-! DEFINITION. The named operations every meaning is written with: registers and fields, headers and events, the unit
tree, device state, host memory, DRAM and the fabric log. -/
namespace Sys2Proof.Machine

/-! ## Registers -/

/-- A register's value; unlisted means its reset value. -/
def Dev.reg (d : Dev) (a : Nat) : Word := smGet (resetReg d.grade) d.regs a

/-- Store a register. -/
def Dev.setReg (d : Dev) (a : Nat) (w : Word) : Dev := { d with regs := smSet (resetReg d.grade) d.regs a w }

/-- Value of a field. -/
def Dev.fld (d : Dev) (f : Field) : Nat := bits (d.reg f.addr).toNat f.lo f.w

/-- A one-bit field as a flag. -/
def Dev.flag (d : Dev) (f : Field) : Bool := d.fld f == 1

/-- Store a field, leaving the register's other bits. -/
def Dev.setFld (d : Dev) (f : Field) (v : Nat) : Dev :=
  d.setReg f.addr (BitVec.ofNat 32 (setBits (d.reg f.addr).toNat f.lo f.w v))

/-- Add to a counter field, saturating at the field's maximum (R36 and the chapters' counters). -/
def Dev.addFld (d : Dev) (f : Field) (n : Nat) : Dev :=
  if n = 0 then d else d.setFld f (min (d.fld f + n) (2 ^ f.w - 1))

/-- Count one. -/
def Dev.count (d : Dev) (f : Field) : Dev := d.addFld f 1

/-- A field as latched at the last entry into RUN (R161, R225, R484, R495). -/
def Dev.lat (d : Dev) (f : Field) : Nat := bits (smGet (resetReg d.grade) d.latched f.addr).toNat f.lo f.w

/-- Latch a register as it stands. -/
def Dev.latchReg (d : Dev) (a : Nat) : Dev :=
  { d with latched := smSet (resetReg d.grade) d.latched a (d.reg a) }

/-- Read-modify a register, field by field. -/
def Dev.setFlds (d : Dev) (l : List (Field × Nat)) : Dev := l.foldl (fun d p => d.setFld p.1 p.2) d

/-- The unit's registers respond (R37): in OFF and STANDBY only those of TOP, PWR, TBU, REF and PIN do; none while RST_N is low (R519). -/
def Dev.opens (d : Dev) (b : Nat) : Bool :=
  !d.boot.rstLow && ((d.top.st != .off && d.top.st != .standby) || [topBase, pwrBase, tbuBase, refBase, pinBase].contains b)

/-- The effect of a write to a register of unit `b`: none while the unit does not respond (R37). -/
def Dev.ifOpen (d : Dev) (b : Nat) (f : Dev → Dev) : Dev := if d.opens b then f d else d

/-- SETUP, RUN or SAFE: every clock runs and the rings are served (R37). -/
def Dev.awake (d : Dev) : Bool := d.top.st == .setup || d.top.st == .run || d.top.st == .safe

/-! ## Rate and time -/

/-- m of R21: 1, 2 or 4 for single, double, quad rate. -/
def Dev.rateM (d : Dev) : Nat := 2 ^ d.fld R.TOP_RATE_FS_MULT

/-- B, samples per block (R4, R19). -/
def Dev.blockB (d : Dev) : Nat := 8 * 2 ^ d.fld R.TOP_RATE_BLOCK

/-- The single rate of the family in Hz (R2). -/
def Dev.familyHz (d : Dev) : Nat := if d.flag R.TOP_RATE_FAMILY then 44100 else 48000

/-- Fs in Hz. -/
def Dev.fs (d : Dev) : Nat := d.familyHz * d.rateM

/-- The tick generator runs (R19, R371): TICK_RUN is set and its first boundary has come. -/
def Dev.running (d : Dev) : Bool := d.flag R.TOP_RATE_TICK_RUN && d.top.started

/-- A capacity that halves with the rate (R3). -/
def Dev.cap (d : Dev) (n : Nat) : Nat := n / d.rateM

/-- Objects, R3. -/
def Dev.nObj (d : Dev) : Nat := d.cap 2048
/-- Speaker feeds, R3. -/
def Dev.nFeed (d : Dev) : Nat := d.cap 1024
/-- Source bank slots and destination buses, R3. -/
def Dev.nBus (d : Dev) : Nat := if d.rateM = 4 then 512 else 1024
/-- Output chains, R3. -/
def Dev.nChain (d : Dev) : Nat := d.cap 1024

/-! ## Headers and events (R44 to R50) -/

def Dev.hd (d : Dev) (b : Nat) : Hdr := smGet resetHdr d.hdr b

def Dev.setHd (d : Dev) (b : Nat) (h : Hdr) : Dev := { d with hdr := smSet resetHdr d.hdr b h }

/-- A unit's reset, by pulse or HOLD, is in progress on it or on an ancestor (R48). -/
def Dev.heldInReset (d : Dev) (b : Nat) : Bool := (pathUp b).any (fun u => (d.hd u).inReset || (d.hd u).hold)

/-- Effective enable (R47): ENABLE and the parent's effective enable. -/
def Dev.effEn (d : Dev) (b : Nat) : Bool := (pathUp b).all (fun u => (d.hd u).enable)

/-- The unit works: effectively enabled and not in reset (R552). -/
def Dev.works (d : Dev) (b : Nat) : Bool := d.effEn b && !d.heldInReset b

/-- Units that a block passes through (R552). -/
def blockUnits : List Nat := [xptBase, objBase, outBase, slpBase]

/-- The unit takes part in the block of the running tick: it works, and has since the boundary that began the tick. One that
returns resumes with the block of the next boundary (R552). -/
def Dev.inBlock (d : Dev) (b : Nat) : Bool := d.works b && !d.top.idle.contains b

/-- Units that do not work now stay out of the running block. -/
def Dev.noteIdle (d : Dev) : Dev :=
  { d with top := { d.top with idle := (d.top.idle ++ blockUnits.filter (fun b => !d.works b)).eraseDups } }

/-- Set an event bit; a unit with EFF_EN = 0 raises none (R47). A bit newly set is remembered for the records (R92). -/
def Dev.raise (d : Dev) (f : Flag) : Dev :=
  if d.effEn f.base then
    let h := d.hd f.base
    let m := BitVec.ofNat 32 (2 ^ f.bit)
    let new := m &&& ~~~ h.event
    d.setHd f.base { h with event := h.event ||| m, fresh := h.fresh ||| new }
  else d

/-- Raise when a condition holds. -/
def Dev.raiseIf (d : Dev) (c : Bool) (f : Flag) : Dev := if c then d.raise f else d

/-- Note something for the next boundary's reports. -/
def Dev.note (d : Dev) (e : TickEv) : Dev := if d.ev.contains e then d else { d with ev := d.ev ++ [e] }

/-- It happened in the last tick (R551). -/
def Dev.last (d : Dev) (e : TickEv) : Bool := d.lastEv.contains e

/-- Own enabled events of a unit, without CHILD. -/
def Dev.ownEvents (d : Dev) (b : Nat) : Word := (d.hd b).event &&& (d.hd b).eventEn &&& 0x40FFFFFF#32

/-- Some descendant's enabled event reaches this unit's CHILD bit (R50). The listed headers are the only ones that can
hold an event. -/
def Dev.childBit (d : Dev) (b : Nat) : Bool :=
  d.hdr.any (fun e =>
    e.1 != b && isUnder b e.1 && d.ownEvents e.1 != 0 &&
    ((pathUp e.1).takeWhile (· != b)).all (fun u => d.effEn u && (u == e.1 || bitAt (d.hd u).eventEn.toNat 31)))

/-- UNIT_EVENT as read (R45, R50). -/
def Dev.eventWord (d : Dev) (b : Nat) : Word :=
  (d.hd b).event ||| (if d.childBit b then 0x80000000#32 else 0#32)

/-- TOP UNIT_EVENT AND TOP UNIT_EVENT_EN, which drives vector 0 (R50, R95). -/
def Dev.topEvents (d : Dev) : Word := d.eventWord topBase &&& (d.hd topBase).eventEn

/-- Code of UNIT_HEALTH.STATE. -/
def UState.code : UState → Nat
  | .off => 0
  | .ok => 1
  | .degraded => 2
  | .fault => 3

/-- UNIT_HEALTH as read (R45); IN_RESET also shows an ancestor's reset. -/
def Dev.healthWord (d : Dev) (b : Nat) : Word :=
  let h := d.hd b
  BitVec.ofNat 32 (h.cause * 2 ^ 24 + h.faultKids * 2 ^ 8 + b2n (d.heldInReset b) * 8 + b2n h.shed * 4 + h.st.code)

/-- Set a unit's STATE and CAUSE; a change of STATE sets HEALTH_CHG (R45). A unit with EFF_EN = 0 reports OFF (R47). -/
def Dev.setHealth (d : Dev) (b : Nat) (st : UState) (cause : Nat) (shed : Bool) (faultKids : Nat) : Dev :=
  let h := d.hd b
  let en := d.effEn b
  let st := if en then st else .off
  let h' := { h with st := st, cause := if en then cause else 0, shed := shed && en, faultKids := faultKids }
  let d' := d.setHd b h'
  if h.st = st then d' else d'.raise (F.healthChg b)

/-! ## Sparse byte memories -/

/-- Bytes of host memory, DRAM and local memory that nothing has written read 0. Log 2. -/
def memDefault : Nat → Byte := fun _ => 0#8

def memGet (m : List Host.Cell) (a : Nat) : Byte := smGet memDefault m a

def memSet (m : List Host.Cell) (a : Nat) (b : Byte) : List Host.Cell := smSet memDefault m a b

/-- Write bytes in ascending address order. -/
def memWrite (m : List Host.Cell) (a : Nat) : List Nat → List Host.Cell
  | [] => m
  | b :: r => memWrite (memSet m a (BitVec.ofNat 8 b)) (a + 1) r

/-- Read `n` bytes in ascending address order. -/
def memRead (m : List Host.Cell) (a : Nat) : Nat → List Nat
  | 0 => []
  | n + 1 => (memGet m a).toNat :: memRead m (a + 1) n

/-- Little-endian value of `n` bytes. -/
def memLe (m : List Host.Cell) (a n : Nat) : Nat := ofLe (memRead m a n)

/-- Device write to host memory. -/
def Dev.hostWrite (d : Dev) (a : Nat) (l : List Nat) : Dev := { d with hostMem := memWrite d.hostMem (a % 2 ^ 64) l }

/-- Writes that the host has made to its own memory. -/
def Dev.hostStores (d : Dev) (l : List (Nat × List Byte)) : Dev :=
  { d with hostMem := l.foldl (fun m w => memWrite m w.1 (w.2.map BitVec.toNat)) d.hostMem }

/-! ## Free values -/

/-- The value of the next draw. Log 13. -/
def Dev.freeNat (d : Dev) (k : Nat) : Nat := Config.freeValue (d.free + k)

/-- Advance past `k` draws. -/
def Dev.drew (d : Dev) (k : Nat) : Dev := { d with free := d.free + k }

/-! ## The fabric log (R479 to R481) -/

/-- Kinds of FAB_ERR_INFO.TYPE. -/
inductive FabErr where
  | decerr | slverr | masterReset
  deriving DecidableEq, Repr

def FabErr.code : FabErr → Nat
  | .decerr => 0
  | .slverr => 1
  | .masterReset => 2

def FabErr.flag : FabErr → Flag
  | .decerr => F.fabDecerr
  | .slverr => F.fabSlverr
  | .masterReset => F.fabMasterReset

/-- Log a fabric error: the first since VALID was cleared is held, later ones set OVERFLOW; every one counts (R481). -/
def Dev.fabLog (d : Dev) (e : FabErr) (write : Bool) (master id addr : Nat) : Dev :=
  let d := (d.count R.FAB_ERR_CNT_COUNT).raise e.flag
  let d := d.note .fabErr
  if d.flag R.FAB_ERR_INFO_VALID then d.setFld R.FAB_ERR_INFO_OVERFLOW 1
  else d.setFlds [(R.FAB_ERR_INFO_VALID, 1), (R.FAB_ERR_INFO_TYPE, e.code), (R.FAB_ERR_INFO_WRITE, b2n write),
    (R.FAB_ERR_INFO_MASTER, master), (R.FAB_ERR_INFO_ID, id), (R.FAB_ERR_ADDR_LO_ADDR_LO, addr % 2 ^ 32),
    (R.FAB_ERR_ADDR_HI_ADDR_HI, addr / 2 ^ 32)]

/-! ## Tables (R81) -/

def Dev.tab (d : Dev) (t : Nat) : Tab := smGet (fun _ => Tab.zero) d.tabs t

def Dev.setTab (d : Dev) (t : Nat) (v : Tab) : Dev := { d with tabs := smSet (fun _ => Tab.zero) d.tabs t v }

def wordDefault : Nat → Word := fun _ => 0#32

/-- Word `i` of a table copy. -/
def wordAt (m : SMap Word) (i : Nat) : Nat := (smGet wordDefault m i).toNat

def wordSet (m : SMap Word) (i v : Nat) : SMap Word := smSet wordDefault m i (BitVec.ofNat 32 v)

/-- Live word of a table. -/
def Dev.live (d : Dev) (t i : Nat) : Nat := wordAt (d.tab t).live i

/-- A bit field of a live word. -/
def Dev.liveBits (d : Dev) (t i lo w : Nat) : Nat := bits (d.live t i) lo w

/-- A unit command writes a word of both copies, without marking the table changed (R79). -/
def Dev.writeBoth (d : Dev) (t i v : Nat) : Dev :=
  let x := d.tab t
  d.setTab t { x with live := wordSet x.live i v, staged := wordSet x.staged i v }

/-- A unit command writes a field of a word in both copies; in each copy the word's other bits keep their value (R79). -/
def Dev.writeBothBits (d : Dev) (t i lo w v : Nat) : Dev :=
  let x := d.tab t
  d.setTab t { x with live := wordSet x.live i (setBits (wordAt x.live i) lo w v),
                      staged := wordSet x.staged i (setBits (wordAt x.staged i) lo w v) }

namespace T
def xptNode : Nat := 0x0001
def xptBus : Nat := 0x0002
def xptClip : Nat := 0x0003
def objLayout : Nat := 0x0010
def objHull : Nat := 0x0011
def objObject : Nat := 0x0012
def outChain : Nat := 0x0020
def outPatch : Nat := 0x0022
def slpMap : Nat := 0x0030
def strRx : Nat := 0x0040
def strTx : Nat := 0x0041
def mtrPoint : Nat := 0x0050
def fmnTask : Nat := 0x0060
def dspImage : Nat := 0x0070
end T

/-- Tables with a staged copy, in ascending TABLE_ID (R81). -/
def stagedTables : List Nat :=
  [T.xptNode, T.xptBus, T.xptClip, T.objLayout, T.objHull, T.objObject, T.outChain, T.outPatch, T.slpMap, T.strRx,
   T.strTx, T.mtrPoint]

/-- Size of a table in bytes (R531; DSP_IMAGE is one core's local memory, 14 R448); 0 for an unknown TABLE_ID. -/
def tableSize (t : Nat) : Nat :=
  if t = T.xptNode then 0x200000 else if t = T.xptBus then 0x400 else if t = T.xptClip then 0x1000
  else if t = T.objLayout then 0x4840 else if t = T.objHull then 0x10B40 else if t = T.objObject then 0x20000
  else if t = T.outChain then 0x8000 else if t = T.outPatch then 0x2000 else if t = T.slpMap then 0x1C00
  else if t = T.strRx then 0x8000 else if t = T.strTx then 0x10000 else if t = T.mtrPoint then 0x8000
  else if t = T.fmnTask then 0x20000 else if t = T.dspImage then 0x80000 else 0

def hasStaged (t : Nat) : Bool := stagedTables.contains t

/-! ## Reserved bits of the tables (00 R8) -/

/-- Bits that are not reserved in word `i` of OBJ_LAYOUT (03 R100 to R102). -/
def layoutMask (i : Nat) : Nat :=
  if i = 0 then 0x807F07FF
  else if i = 1 then 0xFFFF
  else if i < 16 then 0
  else if i < 0x1010 then (if i % 4 = 3 then 0x9F00FFFF else 0xFFFFFFFF)
  else match i % 8 with
    | 3 => 0x80000000
    | k => if k < 3 then 0xFFFFFFFF else 0x87FFFFFF

/-- Bits that are not reserved in word `i` of OBJ_HULL (03 R104). -/
def hullMask (i : Nat) : Nat :=
  if i = 0 then 0x7FF
  else if i < 16 then 0
  else if i < 0x310 then 0xFFFFFFFF
  else match i % 16 with
    | 0 => 0x07FF07FF
    | 1 => 0x03FF07FF
    | 2 => 0x03FF03FF
    | 3 => 0
    | k => if k < 13 then 0xFFFFFFFF else 0

/-- Bits that are not reserved in word `i` of an OBJ_OBJECT entry (03 R106). -/
def objectMask (i : Nat) : Nat :=
  match i with
  | 0 => 0xFFF003FF
  | 3 => 0x07FFFFFF
  | k => if k < 10 then 0xFFFFFFFF else 0

/-- Bits that are not reserved in word `i` of an OUT_CHAIN entry (06 R198). -/
def chainMask (i : Nat) : Nat :=
  match i with
  | 0 => 0xF00007FF
  | 1 => 0xFFFF8000
  | 2 => 0xFFFF
  | 3 => 0xF8FFFFFF
  | 4 => 0x7F
  | _ => 0

/-- Bits that are not reserved in a destination of the output patch or of an ASRC entry, which bit 17 codes (06 R219, 07 R235). -/
def dstMask (w : Nat) : Nat := if w.testBit 17 then 0x23FFF else 0x203FF

/-- Bits that are not reserved in word `i` of SLP_MAP, which holds `w` (07 R232 to R235). -/
def slpMask (i w : Nat) : Nat :=
  if i < 0x400 then 0xFFFFC000
  else if i < 0x520 then 0x3C000
  else if i < 0x600 then 0
  else 0xC0000000 + (if w.testBit 30 then dstMask w else 0x3FF)

/-- Bits that are not reserved in word `i` of a STR_RX entry (10 R310). -/
def rxMask (i : Nat) : Nat :=
  match i with
  | 1 => 0xF1FC03FF
  | 4 => 0x3FFF
  | k => if k = 6 ∨ k = 7 ∨ 24 ≤ k then 0 else 0xFFFFFFFF

/-- Bits that are not reserved in word `i` of a STR_TX entry (10 R311). -/
def txMask (i : Nat) : Nat :=
  match i with
  | 0 => 0xF0F7F800
  | 1 => 0x3FF
  | 2 => 0xFFFFFFFF
  | 3 => 0xFFFF
  | 4 => 0x7F007F
  | k => if k < 16 then 0 else 0xFFFFFFFF

/-- Bits that are not reserved in word `i` of an FMN_TASK entry; those that only a delivery writes are reserved here (15 R453). -/
def taskMask (i : Nat) : Nat :=
  match i with
  | 2 => 0xFFFF0000
  | 3 => 0xFFFF8000
  | k => if k < 2 then 0 else 0xFFFFFFFF

/-- Bits that are not reserved in word `i` of a table, where it holds `w`. XPT_NODE and DSP_IMAGE reserve none. -/
def tableMask (t i w : Nat) : Nat :=
  if t = T.xptBus then 0x800003FF
  else if t = T.xptClip then 0x7F03
  else if t = T.objLayout then layoutMask i
  else if t = T.objHull then hullMask i
  else if t = T.objObject then objectMask (i % 16)
  else if t = T.outChain then chainMask (i % 8)
  else if t = T.outPatch then 0xFFFC0000 + dstMask w
  else if t = T.slpMap then slpMask i w
  else if t = T.strRx then rxMask (i % 32)
  else if t = T.strTx then txMask (i % 64)
  else if t = T.mtrPoint then (if i % 2 = 0 then 0xF00007FF else 0xFFFFFF0F)
  else if t = T.fmnTask then taskMask (i % 8)
  else 0xFFFFFFFF

/-- Word `i` of a table as it reads where `w` was written to it: reserved bits read as 0, whatever was written to them (00 R8). -/
def asRead (t i w : Nat) : Nat := w &&& tableMask t i w

/-- A table copy as it reads. -/
def readMap (t : Nat) (m : SMap Word) : SMap Word := m.map (fun e => (e.1, BitVec.ofNat 32 (asRead t e.1 e.2.toNat)))

/-- Take a sparse table into a check value, zero runs in one step; `pos` is the next byte not yet taken. -/
def crcTableGo (s pos size : Nat) : SMap Word → Nat
  | [] => crcZeros s (size - pos)
  | (i, w) :: r =>
    if size < 4 * i + 4 then crcZeros s (size - pos)
    else crcTableGo (crcBytes (crcZeros s (4 * i - pos)) (leBytes 4 w.toNat)) (4 * i + 4) size r

/-- The config digest: CRC-32C over every live table that has a staged copy, as it reads, each after its prefix (13 R401). -/
def Dev.digest (d : Dev) : Nat :=
  (stagedTables.foldl (fun s t =>
    crcTableGo (crcBytes s (leBytes 2 t ++ [0, 0, 0, 0, 0, 0])) 0 (tableSize t) (readMap t (d.tab t).live)) 0xFFFFFFFF) ^^^ 0xFFFFFFFF

end Sys2Proof.Machine
end

