-- ==== Sys2Proof/Machine/Operands.lean ====
section
/-! DEFINITION. Operands of commands: the fields of a descriptor (R73), apply ticks and lateness (R30, R70), ring entries and
completions (R74, R90, R93), and the outcome of a meaning. -/
namespace Sys2Proof.Machine

/-! ## Outcomes -/

/-- ENABLE of a ring as the last poll put it in effect (R63). -/
def Dev.ringEnabled (d : Dev) (r : Nat) : Bool := (smGet (fun _ => RingS.zero) d.hre.rings r).on

/-- MSI-X message of a vector, or its pending bit while the vector or the function is masked (R56, R95); none while MSI-X is not
enabled. -/
def Dev.msix (d : Dev) (v : Nat) : Dev :=
  if !d.cfg.msixEnable then d
  else if d.cfg.funcMask || d.flag (R.MSIX_CTRL_MASK v) then
    let f := R.MSIX_PBA_PENDING (v / 32)
    d.setFld f (setBits (d.fld f) (v % 32) 1 1)
  else
    d.hostWrite (d.fld (R.MSIX_ADDR_LO_ADDR_LO v) * 4 + d.fld (R.MSIX_ADDR_HI_ADDR_HI v) * 2 ^ 32)
      (leBytes 4 (d.fld (R.MSIX_DATA_DATA v)))

/-- Vector 0 follows TOP's enabled events: a change from zero to non-zero sends it once (R95). -/
def Dev.vector0 (d : Dev) : Dev :=
  let now := d.topEvents != 0
  let d' := { d with hre := { d.hre with vec0 := now } }
  if now && !d.hre.vec0 then d'.msix 0 else d'

/-- A meaning that changes the part and leaves the queue of waiting commands alone; vector 0 is brought up to date (R95). -/
def State.act (s : State) (f : Dev → Dev) : Host.Outcome State Fault Refusal :=
  .next { s with dev := (f s.dev).vector0 }

end Sys2Proof.Machine

namespace Sys2Proof
open Machine

/-! ## Descriptor fields (R73) -/

/-- `w` bits at byte offset `o` (from 16) of the descriptor. -/
def Cmd.bitsAt (c : Cmd) (o w : Nat) : Nat := bits c.payload.toNat (8 * (o - 16)) w
def Cmd.u8 (c : Cmd) (o : Nat) : Nat := c.bitsAt o 8
def Cmd.u16 (c : Cmd) (o : Nat) : Nat := c.bitsAt o 16
def Cmd.u32 (c : Cmd) (o : Nat) : Nat := c.bitsAt o 32
def Cmd.u48 (c : Cmd) (o : Nat) : Nat := c.bitsAt o 48
def Cmd.u64 (c : Cmd) (o : Nat) : Nat := c.bitsAt o 64
def Cmd.cplReq (c : Cmd) : Bool := bitAt c.flags.toNat 0
def Cmd.mirrorReq (c : Cmd) : Bool := bitAt c.flags.toNat 1
def Cmd.id (c : Cmd) : CmdId := ⟨c.ring, c.idx, c.seq⟩
/-- A command that a standby received from the active unit: its ring is 256 above the active's ring (R393). -/
def Cmd.mirrored (c : Cmd) : Bool := 256 ≤ c.ring
/-- A descriptor with `w` bits of its payload at byte offset `o` replaced. -/
def Cmd.withBits (c : Cmd) (o w v : Nat) : Cmd := { c with payload := BitVec.ofNat 384 (Machine.setBits c.payload.toNat (8 * (o - 16)) w v) }
/-- The APPLY field. -/
def Cmd.ap (c : Cmd) : Nat := c.apply.toNat

/-- Boundary at which a command fetched in tick `c.fetch` applies (R30). -/
def Cmd.due (c : Cmd) : Nat := if c.fetch < c.ap then c.ap else c.fetch + 1

/-- Its apply tick had passed when it was fetched (R30). -/
def Cmd.late (c : Cmd) : Bool := c.ap != 0 && c.ap ≤ c.fetch

/-- Opcode of a code (R75). -/
def opcodeOf : Nat → Option Opcode
  | 0x00 => some .nop
  | 0x01 => some .barrier
  | 0x02 => some .tableWrite
  | 0x03 => some .tableRead
  | 0x04 => some .sceneCommit
  | 0x10 => some .objSet
  | 0x11 => some .objKeyframe
  | 0x20 => some .xptNodes
  | 0x21 => some .xptRampSet
  | 0x30 => some .outBankLoad
  | 0x31 => some .outSwap
  | 0x32 => some .patchSet
  | 0x40 => some .portCfg
  | 0x41 => some .streamCfg
  | 0x50 => some .fmnSubmit
  | 0x51 => some .fmnCancel
  | 0x60 => some .timeSteer
  | 0x61 => some .refCmd
  | 0x70 => some .mtrCfg
  | _ => none

/-- Code of an opcode (R75). -/
def Opcode.code : Opcode → Nat
  | .nop => 0x00
  | .barrier => 0x01
  | .tableWrite => 0x02
  | .tableRead => 0x03
  | .sceneCommit => 0x04
  | .objSet => 0x10
  | .objKeyframe => 0x11
  | .xptNodes => 0x20
  | .xptRampSet => 0x21
  | .outBankLoad => 0x30
  | .outSwap => 0x31
  | .patchSet => 0x32
  | .portCfg => 0x40
  | .streamCfg => 0x41
  | .fmnSubmit => 0x50
  | .fmnCancel => 0x51
  | .timeSteer => 0x60
  | .refCmd => 0x61
  | .mtrCfg => 0x70

/-- Opcodes accepted in SAFE (R41). -/
def Opcode.inSafe : Opcode → Bool
  | .nop => true
  | .barrier => true
  | .tableWrite => true
  | .tableRead => true
  | .timeSteer => true
  | .refCmd => true
  | .mtrCfg => true
  | .fmnCancel => true
  | _ => false

/-- A descriptor from its 64 bytes (R73). -/
def cmdOfBytes (l : List Nat) (ring idx fetch seq : Nat) : Cmd :=
  let n := ofLe l
  ⟨BitVec.ofNat 8 n, BitVec.ofNat 8 (n / 2 ^ 8), BitVec.ofNat 16 (n / 2 ^ 16), BitVec.ofNat 48 (n / 2 ^ 64),
   BitVec.ofNat 384 (n / 2 ^ 128), ring, idx, fetch, seq⟩

end Sys2Proof

namespace Sys2Proof.Machine

/-! ## Completion status (R90) -/

inductive Status where
  | ok | late | cancelled | notFound | badOpcode | badTable | noSpace | unfit | refusedState
  deriving DecidableEq, Repr

def Status.code : Status → Nat
  | .ok => 0
  | .late => 1
  | .cancelled => 2
  | .notFound => 3
  | .badOpcode => 4
  | .badTable => 5
  | .noSpace => 6
  | .unfit => 7
  | .refusedState => 8

/-- OK, or LATE for a late command. -/
def lateOk (late : Bool) : Status := if late then .late else .ok

/-- What a command reports when it completes: status, detail, and RESULT as a little-endian value of bytes 24 to 62. -/
structure Cpl where
  status : Status
  detail : Nat
  result : Nat
  deriving DecidableEq, Repr

def Cpl.bad (detail : Nat) : Cpl := ⟨.badTable, detail, 0⟩

/-- Bytes at a host address that a command names; a mirrored command brings its data with it (R393). -/
def Dev.hostData (d : Dev) (c : Cmd) (a n : Nat) : List Nat :=
  if c.mirrored then
    match d.tth.data.find? (fun e => e.1 == c.id) with
    | some e => (e.2 ++ List.replicate (n - e.2.length) 0).take n
    | none => List.replicate n 0
  else memRead d.hostMem a n

/-! ## Rings (R60 to R63, R90 to R94) -/

def Dev.ring (d : Dev) (r : Nat) : RingS := smGet (fun _ => RingS.zero) d.hre.rings r

def Dev.setRing (d : Dev) (r : Nat) (x : RingS) : Dev :=
  { d with hre := { d.hre with rings := smSet (fun _ => RingS.zero) d.hre.rings r x } }

/-- Size of a ring in entries. -/
def Dev.ringSize (d : Dev) (r : Nat) : Nat := 2 ^ d.fld (R.RING_CFG_LOG2_SIZE r)

def Dev.ringType (d : Dev) (r : Nat) : Nat := d.fld (R.RING_CFG_TYPE r)

/-- In service: enabled as of the last poll and not halted. -/
def Dev.ringLive (d : Dev) (r : Nat) : Bool := (d.ring r).on && !d.flag (R.RING_CFG_HALTED r)

/-- Host memory address of an entry. -/
def Dev.ringAddr (d : Dev) (r i : Nat) : Nat :=
  d.fld (R.RING_BASE_LO_BASE_LO r) * 2 ^ 12 + d.fld (R.RING_BASE_HI_BASE_HI r) * 2 ^ 32 + 64 * (i % d.ringSize r)

/-- Entries the host has posted and the device has not consumed, or (CPL, EVT, MTR) device entries the host has not
consumed, modulo 2^32 (R61). -/
def Dev.ringPosted (d : Dev) (r : Nat) : Nat :=
  (d.fld (R.RING_HOST_IDX_HOST_IDX r) + 2 ^ 32 - d.fld (R.RING_DEV_IDX_DEV_IDX r)) % 2 ^ 32

def Dev.ringUsed (d : Dev) (r : Nat) : Nat :=
  (d.fld (R.RING_DEV_IDX_DEV_IDX r) + 2 ^ 32 - d.fld (R.RING_HOST_IDX_HOST_IDX r)) % 2 ^ 32

/-- Entries of a CPL, EVT or MTR ring that are neither used nor reserved (R61, R69). -/
def Dev.ringFree (d : Dev) (r : Nat) : Nat := d.ringSize r - (d.ringUsed r + (d.ring r).resv)

/-- A ring halts (R62, R63, R97). -/
def Dev.haltRing (d : Dev) (r cause : Nat) : Dev :=
  (d.setFlds [(R.RING_CFG_HALTED r, 1), (R.RING_CFG_HALT_CAUSE r, cause)]).raise F.ringHalt

/-- Advance a ring's device index past an entry just written; PHASE flips each time the index comes back to slot 0 (R90,
log 14), and the entry is one more that no message has reported (R94). -/
def Dev.ringAdvance (d : Dev) (r : Nat) : Dev :=
  let x := d.ring r
  let i := (d.fld (R.RING_DEV_IDX_DEV_IDX r) + 1) % 2 ^ 32
  let x' := { x with phase := if i % d.ringSize r = 0 then !x.phase else x.phase, unrep := x.unrep + 1 }
  (d.setFld (R.RING_DEV_IDX_DEV_IDX r) i).setRing r x'

/-- Write one device entry of 63 bytes and the PHASE byte at the device index. -/
def Dev.ringPut (d : Dev) (r : Nat) (body : List Nat) : Dev :=
  let a := d.ringAddr r (d.fld (R.RING_DEV_IDX_DEV_IDX r))
  (d.hostWrite a (body ++ [b2n (d.ring r).phase])).ringAdvance r

/-- A record that finds no room is dropped and counted (R93). -/
def Dev.ringDrop (d : Dev) (r : Nat) : Dev := (d.count (R.RING_DROP_COUNT r)).raise F.evtLost

/-- The 63 bytes of a completion (R90). -/
def cplBody (c : Cmd) (p : Cpl) (done : Nat) : List Nat :=
  [c.code.toNat, p.status.code] ++ leBytes 2 c.tag.toNat ++ [c.ring % 256, 0, 0, 0] ++ leBytes 6 done
    ++ leBytes 2 p.detail ++ leBytes 4 c.idx ++ leBytes 4 c.fetch ++ leBytes 39 p.result

/-- The CPL ring that a command's completion goes to, with whether an entry of it is reserved: LINK as it stood at the fetch, or as it
stands for a command that is not outstanding (R69, log 91). -/
def Dev.cplLink (d : Dev) (c : Cmd) : Nat × Bool :=
  match d.hre.links.find? (fun x => x.id == c.id) with
  | some x => (x.ring, x.reserved)
  | none => (d.fld (R.RING_CFG_LINK c.ring), false)

/-- The command's reservation is used or given back (R69). -/
def Dev.unlink (d : Dev) (c : Cmd) : Dev :=
  let l := d.cplLink c
  let d := if l.2 then d.setRing l.1 { d.ring l.1 with resv := (d.ring l.1).resv - 1 } else d
  { d with hre := { d.hre with links := d.hre.links.filter (fun x => x.id != c.id) } }

/-- A completion entry is written where the ring is in service and takes it: R61 bounds the indices, and an entry that is not reserved
must be free (R69, R93). -/
def Dev.cplRoom (d : Dev) (link : Nat) (reserved : Bool) : Bool :=
  d.ringLive link && d.ringType link == 1 && decide (d.ringUsed link < d.ringSize link) && (reserved || decide (0 < d.ringFree link))

/-- Write a completion if one is due: always with CPL_REQ, else for an error status only (R74). The entry reserved at the
fetch is used; an unreserved one may be dropped (R69, R93). A standby writes none for a mirrored command (R393). DONE_TICK is the
tick in which the command completes also where it applied at an earlier boundary. DEDUCED, log 92. -/
def Dev.writeCpl (d : Dev) (c : Cmd) (p : Cpl) : Dev :=
  let l := d.cplLink c
  let d := d.unlink c
  if c.mirrored || (!c.cplReq && (p.status = .ok || p.status = .late)) then d
  else if d.cplRoom l.1 l.2 then d.ringPut l.1 (cplBody c p d.top.tick)
  else d.ringDrop l.1

/-- A completion that no entry is reserved for: whether it was due and found no room (R469). RING_DROP counts it only where its ring is
disabled or halted (R93). -/
def Dev.writeSpare (d : Dev) (c : Cmd) (p : Cpl) : Bool × Dev :=
  let link := (d.cplLink c).1
  if c.mirrored || (!c.cplReq && (p.status = .ok || p.status = .late)) then (false, d)
  else if d.cplRoom link false then (false, d.ringPut link (cplBody c p d.top.tick))
  else if d.ringLive link then (true, d)
  else (true, d.ringDrop link)

/-- A command completes: its completion is written and it is no longer outstanding (R80, R91). -/
def Dev.complete (d : Dev) (c : Cmd) (p : Cpl) : Dev :=
  let d := d.writeCpl c p
  { d with hre := { d.hre with outst := d.hre.outst.erase c.id },
           tth := { d.tth with data := d.tth.data.filter (fun e => e.1 != c.id), shared := d.tth.shared.filter (fun x => x.id != c.id) } }

/-- Fill of the pending-apply queue as HRE_PAQ shows it, with its highest fill (R64). -/
def Dev.paqFill (d : Dev) : Dev :=
  let n := d.hre.paq.length
  (d.setFld R.HRE_PAQ_FILL n).setFld R.HRE_PAQ_HWM (max (d.fld R.HRE_PAQ_HWM) n)

def Dev.setPaq (d : Dev) (l : List PaqE) : Dev := { d with hre := { d.hre with paq := l } }.paqFill

/-- A command that is fetched will wait in the pending-apply queue; TABLE_WRITE and BARRIER have lists of their own. -/
def Cmd.queues (c : Cmd) : Bool :=
  match opcodeOf c.code.toNat with
  | none => false
  | some op => op != .tableWrite && op != .barrier

/-- The pending-apply queue is full, with the places that commands still to be acknowledged by a standby will take (R77, R393). -/
def Dev.paqTaken (d : Dev) : Bool := decide (4096 ≤ d.hre.paq.length + (d.tth.acks.filter Cmd.queues).length)

/-- A command leaves the pending-apply queue. -/
def Dev.unqueue (d : Dev) (c : Cmd) : Dev := d.setPaq (d.hre.paq.filter (fun e => e.cmd.id != c.id))

/-! ## Applying a command (R41, R70, R76) -/

/-- The command's boundary has come: R30 while the tick runs; while it does not, a command with apply tick at most one
past the counter applies at once (R70). -/
def Dev.isDue (d : Dev) (c : Cmd) : Bool :=
  if d.running then c.due ≤ d.top.tick else c.ap ≤ d.top.tick + 1

/-- Lateness as the completion reports it (R30, R70). A waiting command whose A a load of the counter has passed, where the tick starts before
the next service instant, applies at the first boundary with status OK: of such a command the spec gives neither. DESIGN CHOICE, log 129. -/
def Dev.isLate (d : Dev) (c : Cmd) : Bool :=
  if d.running then c.late else c.ap != 0 && c.ap ≤ d.top.tick

end Sys2Proof.Machine
end

