-- ==== Sys2Proof/Machine/Role.lean ====
section
/-! DEFINITION. Roles of a redundant pair that other units ask about, and trips (spec 13). -/
namespace Sys2Proof

/-- Opcodes that a standby accepts from its own rings (R394). -/
def Opcode.onStandby : Opcode → Bool
  | .nop => true
  | .barrier => true
  | .tableRead => true
  | .mtrCfg => true
  | .refCmd => true
  | _ => false

end Sys2Proof

namespace Sys2Proof.Machine

def Role.code : Role → Nat
  | .solo => 0
  | .join => 1
  | .active => 2
  | .tripped => 3
  | .retired => 4
  | .standby => 5
  | .barred => 6

/-- This unit holds the standby role. -/
def Dev.isStandby (d : Dev) : Bool := d.effEn tthBase && d.tth.role == .standby

/-- The heartbeat runs on both paths (R385). -/
def Dev.heartbeat (d : Dev) : Bool :=
  d.works tthBase && (d.tth.role == .join || d.tth.role == .active || d.tth.role == .standby || d.tth.role == .barred) && !(d.tth.stall && d.top.st == .run)

/-- What this unit measures of rates: a standby uses the active's declarations and ASRC states instead (R396). -/
def Dev.ownMeasure (d : Dev) (f : Dev → Dev) : Dev := if d.isStandby then d else f d

/-- Registers whose writes the active of a pair sends to the standby, and that the standby's own host cannot write: those of R395,
FMN_EMIN and FMN_SWTICK (R457) and the UNIT_CTL of every quad and core (R450). -/
def mirroredReg (a : Nat) : Bool :=
  (0xE0100 ≤ a && a < 0xE011C) || (0xF0100 ≤ a && a < 0xF0114) || a == 0x10C || a == 0xB0100 || (0xD0200 ≤ a && a < 0xD0300)
    || a == 0x110130 || a == 0x110134
    || (List.range 4).any (fun q => a == quadBase q + 8) || (List.range 16).any (fun k => a == coreBase k + 8)

/-- A standby is present: the peer is in STANDBY and the link is up (R393). -/
def Dev.standbyPresent (d : Dev) : Bool :=
  d.effEn tthBase && d.tth.linkOk && (match d.tth.peer with | some h => h.role == .standby | none => false)

/-! ## What a unit sends (R393, R395, R400) -/

/-- A check-value unit computes a value: 0 and uncounted while its EFF_EN is 0 (R554). -/
def Dev.cvuCompute (d : Dev) (k : Nat) (pre l : List Nat) : Nat × Dev :=
  if d.works (cvuBase k) then (checkValue pre l, d.count (R.CVU_DONE_COUNT k)) else (0, d)

/-- Number, payload and check value of a frame that this unit forms: the payload's layout is open (log 142), the value is CVU1's. -/
def Dev.frameHead (d : Dev) (q : Nat) : FrameHead × Dev :=
  let pay := Config.framePayload d.free
  let (v, d) := (d.drew 1).cvuCompute 1 (leBytes 8 q) pay
  (⟨BitVec.ofNat 32 q, pay, BitVec.ofNat 32 v⟩, d)

/-- A numbered frame goes out. -/
def Dev.tthSend (d : Dev) (f : FrameHead → Sent) : Dev :=
  let q := d.tth.txSeq
  let (h, d) := d.frameHead q
  { d with tth := { d.tth with txSeq := (q + 1) % 2 ^ 32, line := d.tth.line ++ [(d.top.tick, f h)] } }

/-- The active of a pair whose standby is present. -/
def Dev.pairActive (d : Dev) : Bool := d.tth.role == .active && d.standbyPresent

/-- The active tells a standby that is present. -/
def Dev.tell (d : Dev) (c : Chunk) : Dev := if d.pairActive then d.tthSend (fun h => .frame ⟨h, d.top.tick, c⟩) else d

/-- An active sends a write of a mirrored register, with the boundary at which it takes effect (R395, R450, R457). -/
def Dev.tellReg (d : Dev) (a : Nat) (v : Word) : Dev := if mirroredReg a then d.tell (.reg a v (d.top.tick + 1)) else d

/-- A write of this part's own host to a register: a standby ignores that of a mirrored register, an active sends it. -/
def Dev.fromHost (d : Dev) (a : Nat) (v : Word) (f : Dev → Dev) : Dev := if d.isStandby && mirroredReg a then d else f (d.tellReg a v)

/-- What the two units share of a command (R393). -/
def Dev.share (d : Dev) (i : CmdId) : Option Share := d.tth.shared.find? (fun x => x.id == i)

/-- This unit has copied the command's data. -/
def Dev.copied (d : Dev) (i : CmdId) : Bool := match d.share i with | some x => x.mine.isSome | none => false

/-- The end of a copy waits for the other unit: on a standby for the active's word, on an active until the standby has copied (R393). -/
def Dev.waitsPeer (d : Dev) (i : CmdId) : Bool :=
  match d.share i with | some x => d.isStandby || (d.pairActive && !x.theirs) | none => false

def Dev.setShare (d : Dev) (i : CmdId) (f : Share → Share) : Dev :=
  { d with tth := { d.tth with shared := d.tth.shared.map (fun x => if x.id == i then f x else x) } }

/-- This unit has copied the data of a shared command; a standby, which reads no host memory for it, says so. -/
def Dev.copiedHere (d : Dev) (i : CmdId) (err : Option Nat) : Dev :=
  if d.isStandby then
    (d.setShare i (fun x => { x with mine := some none })).tthSend (fun h => .frame ⟨h, d.top.tick, .copied (i.ring - 256) i.idx⟩)
  else d.setShare i (fun x => { x with mine := some err })

/-- Pieces of 4,096 bytes of a range. DESIGN CHOICE, log 142. -/
def cut (n : Nat) : List (Nat × Nat) := (List.range ((n + 4095) / 4096)).map (fun i => (4096 * i, min 4096 (n - 4096 * i)))

/-- Core `k`'s image as its local memory declares it (R448): bytes of image, address and bytes of the persistent region. -/
def Dev.imageOf (d : Dev) (k : Nat) : Option (Nat × Nat × Nat) :=
  let w := fun n => memLe d.localMem (k * 0x80000 + 4 * n) 4
  if w 0 = 0x51400D5C then some (min (w 8) 0x80000, w 5 + bits (w 6) 0 2 * 2 ^ 32, w 7) else none

/-- Pieces of every core's persistent region. -/
def Dev.persistPieces (d : Dev) : List Piece :=
  (List.range 16).flatMap (fun k => match d.imageOf k with
    | some (_, a, n) => (cut n).map (fun x => Piece.dram (a + x.1) x.2)
    | none => [])

/-- During a full mirror, what a core's DMA writes into parts of a persistent region that have been sent goes to the standby as well (R450). -/
def Dev.tellPersist (d : Dev) (a : Nat) (l : List Nat) : Dev :=
  if d.pairActive && d.tth.mirror != .idle then
    d.persistPieces.foldl (fun d p => match p with
      | .dram b n =>
        let lo := max a b
        let hi := min (a + l.length) (b + n)
        if lo < hi && !d.tth.xfer.contains p then d.tell (.dram lo ((l.drop (lo - a)).take (hi - lo))) else d
      | _ => d) d
  else d

/-- DPLL-A is LOCKED to TETHER. -/
def Dev.tetherLocked (d : Dev) : Bool := d.fld (R.DPLL_STAT_STATE 0) == 3 && d.fld (R.DPLL_STAT_SEL 0) == 13

/-- UNFIT causes of a standby as they stand (R402): LINK 0, FW 1, DIGEST 2, TIME 3, TICK 4, CONFIG 5, BUDGET 6, CLOCK 7, MIRROR 8.
A unit that a handover has made standby stays FIT (R413): CLOCK waits for its first lock to TETHER. DEDUCED, log 120. -/
def Dev.ownCauses (d : Dev) : Nat :=
  let t := d.tth
  let clock := !d.tetherLocked && !t.handed
  let cfg := match t.peer with | some h => h.rate != (d.reg R.TOP_RATE_TICK_RUN.addr).toNat | none => false
  setBits (setBits (setBits t.causes 8 1 (b2n (t.mirror != .idle))) 7 1 (b2n clock)) 5 1 (b2n cfg)

/-- Fitness of the standby as this unit knows it (TTH_STAT.FIT): its own on a standby, the peer's as last reported otherwise. -/
def Dev.fitCode (d : Dev) : Nat :=
  if d.tth.role = .standby then
    match d.tth.mirror with
    | .transfer => 1
    | .settling => 2
    | .idle => if d.ownCauses = 0 then 0 else 3
  else match d.tth.peer with | some h => h.fit | none => 0

/-- A FIT standby is present. -/
def Dev.fitPresent (d : Dev) : Bool := if d.isStandby then d.fitCode == 0 else d.standbyPresent && d.fitCode == 0

/-- The active unit of a pair whose standby is not fit (R76). -/
def Dev.pairUnfit (d : Dev) : Bool := d.effEn tthBase && d.tth.role == .active && !d.fitPresent

/-- The state check, the check of a standby's own commands and the MIRROR_REQ check, made when a command reaches its apply tick
(R41, R76, R394): the completion that refuses it, if one fails. Commands that a unit fetched as the active still apply where a handover has
made it the standby (R413). -/
def Dev.refused (d : Dev) (op : Opcode) (c : Cmd) : Option Cpl :=
  if d.top.st = .setup ∨ d.top.st = .run ∨ (d.top.st = .safe ∧ op.inSafe = true) then
    if d.isStandby && !c.mirrored && !op.onStandby && d.tth.since ≤ c.seq then some ⟨.refusedState, 10, 0⟩
    else if c.mirrorReq && d.pairUnfit then some ⟨.unfit, 0, 0⟩ else none
  else some ⟨.refusedState, 0, 0⟩

/-- A trip cause (R406, R407, R390): an active unit trips, a standby retires with OWN_OUT released. `may` is the cause's mask bit. A unit
that trips stops its heartbeat and queues no more stream packets; a handover is over for it, so that its outputs follow OWN_OUT (R387, R414). -/
def Dev.trip (d : Dev) (may : Bool) : Dev :=
  if d.works tthBase && may then
    match d.tth.role with
    | .active => { d with tth := { d.tth with role := .tripped, tripped := true, handover := none, kept := false } }.raise F.tripped
    | .standby => { d with tth := { d.tth with role := .retired, ownOut := false, handover := none, incoming := false, mirror := .idle, markers := false } }
    | _ => d
  else d

/-- A maskable cause trips only while a FIT standby is present. -/
def Dev.tripMaskable (d : Dev) (f : Field) : Dev := d.trip (d.flag f && d.fitPresent)

/-- The budget level that governs work: PWR's, or on a standby the active's where PWR's is not lower (R399). -/
def Dev.levelNow (d : Dev) : Nat :=
  let own := d.fld R.PWR_LEVEL_LEVEL
  if d.isStandby then match d.tth.markers, d.tth.marker with | true, some m => min own m.level | _, _ => own else own

/-- PWR_DSPF for a level, as of the last decision (R508). -/
def dspfAt (d : Dev) (l : Nat) : Nat :=
  d.lat (if l < 4 then ⟨R.PWR_DSPF_LO_F0.addr, 8 * l, 8⟩ else ⟨R.PWR_DSPF_HI_F4.addr, 8 * (l - 4), 8⟩)

/-- The DSPC frequency follows the level in force (R504). -/
def Dev.dspFreq (d : Dev) : Dev := if d.works pwrBase then d.setFld R.DSP_FREQ_MHZ (10 * dspfAt d d.levelNow) else d

/-- A SAP direction's driver, a group's clocks or a gated clock output is driven (R275, R387). -/
def Dev.drives (d : Dev) (o : Nat) : Bool := !d.effEn tthBase || d.tth.own.contains o

end Sys2Proof.Machine
end

