-- ==== Sys2Proof/Machine/Tables.lean ====
section
/-! DEFINITION. TABLE_WRITE and TABLE_READ (spec 02 R81 to R86, R89, 16 R494, R554): their checks, copies and completions. -/
namespace Sys2Proof.Machine

namespace Tw
/-! Payload fields of R82. -/
def tableId (c : Cmd) : Nat := c.u16 16
def inst (c : Cmd) : Nat := c.u16 18
def offset (c : Cmd) : Nat := c.u32 20
def length (c : Cmd) : Nat := c.u32 24
def check (c : Cmd) : Bool := bitAt (c.u32 28) 0
def inline (c : Cmd) : Bool := bitAt (c.u32 28) 1
def staged (c : Cmd) : Bool := bitAt (c.u32 28) 2
def hostAddr (c : Cmd) : Nat := c.u64 32
def expected (c : Cmd) : Nat := c.u32 40
/-- The inline data, bytes 32 on. -/
def data (c : Cmd) (n : Nat) : List Nat := leBytes n (c.bitsAt 32 256)
end Tw

/-- The detail code that refuses a TABLE_WRITE or TABLE_READ before any copy, if one does (R82, R85, R86, 14 R448). -/
def Dev.tableDetail (d : Dev) (c : Cmd) (write : Bool) : Option Nat :=
  let t := Tw.tableId c
  let len := Tw.length c
  if tableSize t = 0 then some 1
  else if (if t = T.dspImage then 16 else 1) ≤ Tw.inst c then some 2
  else if Tw.offset c % 4 ≠ 0 ∨ len % 4 ≠ 0 ∨ len < 4 ∨ 0x1000000 < len ∨ tableSize t < Tw.offset c + len ∨
      (write ∧ Tw.inline c ∧ 32 < len) then some 3
  else if write ∧ t = T.dspImage ∧ !d.heldInReset (coreBase (Tw.inst c)) then some 7
  else none

/-- Store bytes into a sparse word map from byte offset `o`. -/
def storeBytes (m : SMap Word) (o : Nat) : List Nat → SMap Word
  | [] => m
  | b :: r => storeBytes (wordSet m (o / 4) (setBits (wordAt m (o / 4)) (8 * (o % 4)) 8 b)) (o + 1) r

/-- Read `n` bytes of a sparse word map from byte offset `o`. -/
def loadBytes (m : SMap Word) (o : Nat) : Nat → List Nat
  | 0 => []
  | n + 1 => bits (wordAt m (o / 4)) (8 * (o % 4)) 8 :: loadBytes m (o + 1) n

/-- The range `b` lies within offset `o`, length `n`; a mark of no length, left by a failed validation, is covered by any
write. -/
def covers (o n : Nat) (b : Nat × Nat) : Bool := b.2 == 0 || (o ≤ b.1 && b.1 + b.2 ≤ o + n)

/-- Write copied bytes into a table's staged or only copy (R83). A failed copy marks a staged table bad; a later good copy
that covers all that a failed one left clears that mark (R85, log 15). -/
def Dev.tableStore (d : Dev) (t inst o : Nat) (l : List Nat) (len : Nat) (failed : Bool) : Dev :=
  if t = T.dspImage then { d with localMem := memWrite d.localMem (inst * 0x80000 + o) l }
  else
    let x := d.tab t
    if hasStaged t then
      d.setTab t { x with staged := storeBytes x.staged o l, changed := x.changed || !l.isEmpty || !failed,
                          bad := if failed then x.bad ++ [(o, len)] else x.bad.filter (fun b => !covers o len b) }
    else d.setTab t { x with live := storeBytes x.live o l }

/-- The 8-byte prefix of R84. -/
def checkPrefix (c : Cmd) : List Nat := leBytes 2 (Tw.tableId c) ++ leBytes 2 (Tw.inst c) ++ leBytes 4 (Tw.offset c)

/-- A comparison of a check-value unit fails (R496). -/
def Dev.cvuFail (d : Dev) (k : Nat) (pre : List Nat) (got want : Nat) : Dev :=
  (((d.count (R.CVU_ERR_COUNT k)).setFlds [(R.CVU_TAG_LO_TAG_LO k, ofLe (pre.take 4)),
    (R.CVU_TAG_HI_TAG_HI k, ofLe ((pre.drop 4).take 4)), (R.CVU_GOT_GOT k, got), (R.CVU_EXP_EXP k, want)]).raise
    (F.mismatch k)).note (.cvuMismatch k)

/-- A SCENE_COMMIT has been fetched before this TABLE_WRITE and has not yet acted (R89): one that does not wait for it. -/
def Dev.commitAhead (d : Dev) (i : CmdId) : Bool := d.hre.commits.any (fun w => !w.waits.contains i)

/-- A TABLE_WRITE has completed: no commit waits for it any longer (R88). -/
def Dev.wroteFor (d : Dev) (i : CmdId) : Dev :=
  { d with hre := { d.hre with commits := d.hre.commits.map (fun w => { w with waits := w.waits.erase i }) } }

/-- A TABLE_WRITE starts its copy, or completes at once with the detail that refuses it (R83, R85). Refused before any copy, it has
a check value of 0 and CVU3 counts nothing. DESIGN CHOICE, log 99. -/
def Dev.startWrite (d : Dev) (c : Cmd) : Dev :=
  match d.tableDetail c true with
  | some n => (d.complete c (.bad n)).wroteFor c.id
  | none => { d with hre := { d.hre with copies := d.hre.copies ++ [⟨c, true, none, false⟩] } }

/-- A fetched TABLE_WRITE: held behind a commit that has not acted if its table has a staged copy (R89), and behind writes that are
held, so that copies keep their fetch order (R83); else started. A write to a table without a staged copy is never held. DEDUCED, log
100. The state check is made first (R41, R76). -/
def Dev.tableWrite (d : Dev) (c : Cmd) : Dev :=
  match d.refused .tableWrite c with
  | some p => d.complete c p
  | none =>
    if hasStaged (Tw.tableId c) && (d.commitAhead c.id || !d.hre.held.isEmpty) then { d with hre := { d.hre with held := d.hre.held ++ [c] } }
    else d.startWrite c

/-- Held writes that start at this boundary: the commits before them had acted by the last one (R89). -/
def Dev.heldReady (d : Dev) : List Cmd :=
  if d.hre.heldGo then d.hre.held.filter (fun c => !d.commitAhead c.id) else []

/-- Held writes start. -/
def Dev.startThese (d : Dev) (l : List Cmd) : Dev :=
  l.foldl Dev.startWrite { d with hre := { d.hre with held := d.hre.held.filter (fun c => !l.contains c) } }

/-- Held writes start at the boundary after the commits before them have acted (R89). -/
def Dev.startHeld (d : Dev) : Dev := { d with hre := { d.hre with heldGo := false } }.startThese d.heldReady

/-- TABLE_WRITEs fetched and not complete: copying or held. -/
def Dev.writesOpen (d : Dev) : List CmdId :=
  (d.hre.copies.filter (·.write)).map (·.cmd.id) ++ d.hre.held.map (·.id)

/-- Bytes that a TABLE_WRITE has copied, all or the first `err`. -/
def Dev.writeBytes (d : Dev) (c : Cmd) (err : Option Nat) : List Nat :=
  let len := Tw.length c
  let n := match err with | some k => min k len | none => len
  if Tw.inline c then Tw.data c n else d.hostData c (Tw.hostAddr c) n

/-- A TABLE_WRITE is over with its bytes, check value and verdict. -/
def Dev.writeOver (d : Dev) (c : Cmd) (err : Option Nat) (l : List Nat) (v : Nat) (wrong : Bool) : Dev :=
  let d := d.tableStore (Tw.tableId c) (Tw.inst c) (Tw.offset c) l (Tw.length c) (err.isSome || wrong)
  let p : Cpl := if err.isSome then ⟨.badTable, 5, v⟩ else if wrong then ⟨.badTable, 4, v⟩ else ⟨.ok, 0, v⟩
  (d.complete c p).wroteFor c.id

/-- A TABLE_WRITE copy ends, whole or after `err` bytes (R83 to R85); an active tells the standby how a shared one ended (R393). -/
def Dev.writeDone (d : Dev) (c : Cmd) (err : Option Nat) : Dev :=
  let l := d.writeBytes c err
  let (v, d) := d.cvuCompute 3 (checkPrefix c) l
  let wrong := err.isNone && Tw.check c && !Tw.inline c && d.works (cvuBase 3) && v != Tw.expected c
  let d := if wrong then d.cvuFail 3 (checkPrefix c) v (Tw.expected c) else d
  let d := if err.isSome then (d.raise F.dmaErr).note .hreCopyErr else d
  let d := if (d.share c.id).isSome then d.tell (.wrote err v wrong) else d
  d.writeOver c err l v wrong

/-- First element that `p` picks, and the list without it. -/
def takeFirst {α : Type} (p : α → Bool) : List α → Option (α × List α)
  | [] => none
  | x :: r =>
    if p x then some (x, r)
    else match takeFirst p r with
      | some (y, s) => some (y, x :: s)
      | none => none

/-- The first TABLE_WRITE copy in progress ends (successive writes copy in fetch order, R83), or waits for the other unit's (R393). -/
def Dev.copyWriteDone (d : Dev) (err : Option Nat) : Dev :=
  match takeFirst (fun (x : Copy) => x.write && !d.copied x.cmd.id) d.hre.copies with
  | some (x, r) => if d.waitsPeer x.cmd.id then d.copiedHere x.cmd.id err else { d with hre := { d.hre with copies := r } }.writeDone x.cmd err
  | none => d

/-- The active's word on the first mirrored TABLE_WRITE: its host read error and its check value stand for this unit's (R393). -/
def Dev.writeTold (d : Dev) (err : Option Nat) (v : Nat) (wrong : Bool) : Dev :=
  match takeFirst (fun (x : Copy) => x.write && x.cmd.mirrored) d.hre.copies with
  | some (x, r) => { d with hre := { d.hre with copies := r } }.writeOver x.cmd err (d.writeBytes x.cmd err) v wrong
  | none => d

/-- Words of a table copy as a TABLE_READ sees them (R86); a core's local memory is read as words of its bytes. -/
def Dev.tableImage (d : Dev) (c : Cmd) : SMap Word :=
  let t := Tw.tableId c
  if t = T.dspImage then
    (d.localMem.filter (fun e => Tw.inst c * 0x80000 ≤ e.1 && e.1 < (Tw.inst c + 1) * 0x80000)).foldl
      (fun m e => storeBytes m (e.1 - Tw.inst c * 0x80000) [e.2.toNat]) []
  else readMap t (if Tw.staged c && hasStaged t then (d.tab t).staged else (d.tab t).live)

/-- A TABLE_READ at its apply boundary: refused by a detail code, with a check value of 0 (log 99), or a copy that starts (R86). -/
def Dev.tableRead (d : Dev) (c : Cmd) (late : Bool) : Option Cpl × Dev :=
  match d.tableDetail c false with
  | some n => (some (.bad n), d)
  | none => (none, { d with hre := { d.hre with copies := d.hre.copies ++ [⟨c, false, none, late⟩] } })

/-- Every read that has applied takes the tables as they stand, after every command of its boundary (R86). -/
def Dev.captureReads (d : Dev) : Dev :=
  let f := fun (x : Copy) =>
    if x.write then x else match x.snap with | some _ => x | none => { x with snap := some (d.tableImage x.cmd) }
  { d with hre := { d.hre with copies := d.hre.copies.map f } }

/-- `n` free bytes at a host address: what a failed write left there (R97). -/
def Dev.hostFree (d : Dev) (a n : Nat) : Dev :=
  (d.hostWrite a ((List.range n).map d.freeNat)).drew n

/-- The first TABLE_READ copy in progress ends, whole or with a host write error after `err` bytes (R86, R97). -/
def Dev.copyReadDone (d : Dev) (err : Option Nat) : Dev :=
  match takeFirst (fun (x : Copy) => !x.write) d.hre.copies with
  | none => d
  | some (x, r) =>
    let d := { d with hre := { d.hre with copies := r } }
    let c := x.cmd
    let m := match x.snap with | some m => m | none => d.tableImage c
    let l := loadBytes m (Tw.offset c) (Tw.length c)
    let (v, d) := d.cvuCompute 3 (checkPrefix c) l
    match err with
    | none => (d.hostWrite (Tw.hostAddr c) l).complete c ⟨lateOk x.late, 0, v⟩
    | some k =>
      let d := (d.hostWrite (Tw.hostAddr c) (l.take k)).hostFree (Tw.hostAddr c + k) (Tw.length c - k)
      ((d.raise F.dmaErr).note .hreCopyErr).complete c ⟨.badTable, 5, v⟩

end Sys2Proof.Machine
end

