-- ==== Sys2Proof/Machine/Mem.lean ====
section
/-! DEFINITION. The memory system (spec 16): the DRAM address map, regions, accesses and their errors, the delay check, refresh,
power-down, partial-array self-refresh, and what the units of the chapter report. -/
namespace Sys2Proof.Machine

/-! ## Organisation (R482, R483) -/

/-- Ranks per channel. -/
def Dev.ranks (d : Dev) : Nat := if d.flag R.DMC_CFG_RANKS2 then 2 else 1

/-- Bytes per rank; DENSITY 3 acts as 2 (R482). -/
def Dev.rankSize (d : Dev) : Nat := 2 ^ (29 + min 2 (d.fld R.DMC_CFG_DENSITY))

/-- Bytes of DRAM fitted. -/
def Dev.dramTotal (d : Dev) : Nat := 4 * d.ranks * d.rankSize

/-- Where a DRAM byte address lies (R483). -/
structure DramPlace where
  channel : Nat
  rank : Nat
  bank : Nat
  row : Nat
  col : Nat
  deriving DecidableEq, Repr

def Dev.dramPlace (d : Dev) (a : Nat) : DramPlace :=
  let k := d.fld R.DMC_CFG_GRAIN
  let ca := a / 2 ^ (k + 2) * 2 ^ k + a % 2 ^ k
  let r := 29 + min 2 (d.fld R.DMC_CFG_DENSITY)
  ⟨bits a k 2, if d.ranks = 2 then bits ca r 1 else 0, (bits ca 11 4) ^^^ (bits ca 15 4), bits ca 15 (r - 15), bits ca 0 11⟩

/-- The DRAM byte address of byte `ca` of channel `c`: the inverse of the map. -/
def Dev.dramAddr (d : Dev) (c ca : Nat) : Nat :=
  let k := d.fld R.DMC_CFG_GRAIN
  ca / 2 ^ k * 2 ^ (k + 2) + c * 2 ^ k + ca % 2 ^ k

/-! ## Regions (R484) -/

/-- A region in force: first byte, byte after the last, RETAIN, CHECK. -/
structure Region where
  base : Nat
  stop : Nat
  retain : Bool
  check : Bool
  deriving DecidableEq, Repr

/-- The enabled regions in force, lowest number first. A region of size 0 is empty: no byte lies in it. -/
def Dev.regions (d : Dev) : List Region :=
  ((List.range 8).filter (fun n => d.lat (R.REG_CTL_EN n) == 1 && d.lat (R.REG_SIZE_SIZE n) != 0)).map (fun n =>
    let b := d.lat (R.REG_BASE_LO_BASE_LO n) * 2 ^ 16 + d.lat (R.REG_BASE_HI_BASE_HI n) * 2 ^ 32
    ⟨b, b + d.lat (R.REG_SIZE_SIZE n) * 2 ^ 16, d.lat (R.REG_CTL_CLASS n) == 1, d.lat (R.REG_CTL_CHECK n) == 1⟩)

/-- Every byte from `a` up to `e` lies in a region. Each step leaves a region behind, so eight steps are enough. -/
def coveredGo (rs : List Region) : Nat → Nat → Nat → Bool
  | 0, a, e => e ≤ a
  | f + 1, a, e =>
    if e ≤ a then true
    else match rs.find? (fun r => r.base ≤ a && a < r.stop) with
      | some r => coveredGo rs f r.stop e
      | none => false

/-- An access falls within the enabled regions. -/
def Dev.inRegions (d : Dev) (a n : Nat) : Bool := coveredGo d.regions 8 a (a + n)

/-- Some byte of addresses `lo` up to `hi` has class RETAIN: the lowest-numbered region that holds it says so (R484). -/
def Dev.retains (d : Dev) (lo hi : Nat) : Bool :=
  d.regions.zipIdx.any (fun r =>
    let a := max lo r.1.base
    let e := min hi r.1.stop
    r.1.retain && decide (a < e) && !coveredGo (d.regions.take r.2) 8 a e)

/-- The registers of a region are latched: at the entry into RUN, or at a write in SETUP (R484). -/
def Dev.latchRegion (d : Dev) (n : Nat) : Dev :=
  [0, 4, 8, 0xC, 0x10, 0x14].foldl (fun d o => d.latchReg (0x30200 + 0x20 * n + o)) d

/-! ## Accesses (R479, R483, R484, R487, R492) -/

/-- Fabric masters (R476). `Master.index` is the number of FAB_QOS and FAB_ERR_INFO. -/
inductive Master where
  | hre | tth | quad (q : Nat) | obj | out | sap | cvu0
  deriving DecidableEq, Repr

def Master.index : Master → Nat
  | .hre => 0
  | .tth => 1
  | .quad q => 2 + q % 4
  | .obj => 6
  | .out => 7
  | .sap => 8
  | .cvu0 => 9

/-- A rank leaves power-down when it is accessed (R492). -/
def Dev.wakeRank (d : Dev) (c r : Nat) : Dev :=
  let f := R.DMC_CH_STAT_PD c
  d.setFld f (setBits (d.fld f) r 1 0)

/-- Ranks touched by an access, one address per interleave grain. -/
def Dev.wakeRange (d : Dev) (a n : Nat) : Dev :=
  let k := d.fld R.DMC_CFG_GRAIN
  (List.range ((a + n - 1) / 2 ^ k + 1 - a / 2 ^ k)).foldl (fun d j =>
    let p := d.dramPlace ((a / 2 ^ k + j) * 2 ^ k)
    d.wakeRank p.channel p.rank) d

/-- A burst of `n` bytes: refused with SLVERR at or above the total, while the delays are not checked, or outside every
enabled region; the transaction ID of a master other than the host is not stated and is free (log 13). -/
def Dev.dramBurst (d : Dev) (m : Master) (write : Bool) (a n : Nat) : Bool × Dev :=
  let inside := d.inRegions a n
  let good := decide (a + n ≤ d.dramTotal) && d.flag R.DMC_CHECK_CHECKED && inside
  if n = 0 then (true, d)
  else if good then (true, d.wakeRange a n)
  else
    let d := if inside then d else ((d.count R.DMC_OUTSIDE_COUNT).raise F.dmcOutside).note .dmcOutside
    (false, (d.fabLog .slverr write m.index (d.freeNat 0 % 256) a).drew 1)

/-- The bursts of an access, as (address, bytes): none crosses a 4 KiB boundary (R476). How a master cuts its traffic otherwise is not
stated. DESIGN CHOICE, log 130. -/
def burstsOf (a n : Nat) : List (Nat × Nat) :=
  if n = 0 then []
  else (List.range ((a + n - 1) / 4096 + 1 - a / 4096)).map (fun i =>
    let lo := max a ((a / 4096 + i) * 4096)
    (lo, min (a + n) ((a / 4096 + i + 1) * 4096) - lo))

/-- Every rank is accessed: a delay check and a recheck do so (R487, R488, R492). -/
def Dev.wakeAll (d : Dev) : Dev := (List.range 4).foldl (fun d c => (List.range d.ranks).foldl (fun d r => d.wakeRank c r) d) d

/-- A DRAM access of `n` bytes, burst by burst: whether every burst was granted. -/
def Dev.dramAccess (d : Dev) (m : Master) (write : Bool) (a n : Nat) : Bool × Dev :=
  (burstsOf a n).foldl (fun (x : Bool × Dev) r => let (ok, d) := x.2.dramBurst m write r.1 r.2; (x.1 && ok, d)) (true, d)

/-- A DRAM write: each burst that is granted is stored. -/
def Dev.dramWrite (d : Dev) (m : Master) (a : Nat) (l : List Nat) : Bool × Dev :=
  (burstsOf a l.length).foldl (fun (x : Bool × Dev) r =>
    let (ok, d) := x.2.dramBurst m true r.1 r.2
    (x.1 && ok, if ok then { d with dram := memWrite d.dram r.1 ((l.drop (r.1 - a)).take r.2) } else d)) (true, d)

/-- A DRAM read; `none` where a burst of it is refused. -/
def Dev.dramRead (d : Dev) (m : Master) (a n : Nat) : Option (List Nat) × Dev :=
  let (ok, d) := d.dramAccess m false a n
  (if ok then some (memRead d.dram a n) else none, d)

/-! ## Audio lines (R138, R214, R494, R495) -/

/-- Granules of 256 bytes that `n` bytes from `a` touch, by first byte (R495). -/
def granules (a n : Nat) : List Nat :=
  if n = 0 then [] else (List.range ((a + n - 1) / 256 + 1 - a / 256)).map (fun i => (a / 256 + i) * 256)

/-- Address of the check value of a granule, where the region that decides it has CHECK = 1 (R484, R495). -/
def Dev.checkStore (d : Dev) (g : Nat) : Option Nat :=
  match ((List.range 8).filter (fun n => d.lat (R.REG_CTL_EN n) == 1)).find? (fun n =>
      let b := d.lat (R.REG_BASE_LO_BASE_LO n) * 2 ^ 16 + d.lat (R.REG_BASE_HI_BASE_HI n) * 2 ^ 32
      b ≤ g && g < b + d.lat (R.REG_SIZE_SIZE n) * 2 ^ 16) with
  | some n =>
    let b := d.lat (R.REG_BASE_LO_BASE_LO n) * 2 ^ 16 + d.lat (R.REG_BASE_HI_BASE_HI n) * 2 ^ 32
    if d.lat (R.REG_CTL_CHECK n) == 1 then
      some (d.lat (R.REG_CV_LO_CV_LO n) * 2 ^ 8 + d.lat (R.REG_CV_HI_CV_HI n) * 2 ^ 32 + 4 * ((g - b) / 256))
    else none
  | none => none

/-- A granule has been written: CVU0 writes its check value (R494, R495). -/
def Dev.checkGranule (d : Dev) (g : Nat) : Dev :=
  if d.dmc.cvu0On then
    match d.checkStore g with
    | some a => ((d.count (R.CVU_DONE_COUNT 0)).dramWrite .cvu0 a (leBytes 4 (checkValue (leBytes 8 g) (memRead d.dram g 256)))).2
    | none => d
  else d

/-- Slots of a line of `len` samples, `n` of them from the sample with absolute index `i`, as (first slot, count) runs. -/
def lineRuns (len i n : Nat) : List (Nat × Nat) :=
  let s := i % len
  let n := min n len
  if s + n ≤ len then [(s, n)] else [(s, len - s), (0, s + n - len)]

/-- Samples from absolute index `i` on are written to a line of `len` samples at byte `base`: 32 bits each, the sample with index n in
slot n mod `len`, by whole granules (R138, R214, R495; the slots and the coding are not stated: DESIGN CHOICE, log 48). -/
def Dev.audioWrite (d : Dev) (m : Master) (base len i : Nat) (l : List Int) : Dev :=
  ((lineRuns len i l.length).foldl (fun (acc : Dev × List Int) r =>
    let a := base + 4 * r.1
    let bytes := (acc.2.take r.2).flatMap (fun v => leBytes 4 (tc 32 v))
    let d := (granules a (4 * r.2)).foldl (fun d g =>
      let (ok, d) := d.dramAccess m true g 256
      if ok then
        let lo := max a g
        { d with dram := memWrite d.dram lo ((bytes.drop (lo - a)).take (g + 256 - lo)) }.checkGranule g
      else d) acc.1
    (d, acc.2.drop r.2)) (d, l)).1

/-- A granule is read: CVU0 compares its value, as it stands in DRAM, with the stored one (R494). A stored value that cannot be read is
not compared. DESIGN CHOICE, log 46. -/
def Dev.granuleStands (d : Dev) (g : Nat) : Bool × Dev :=
  if d.dmc.cvu0On then
    match d.checkStore g with
    | some a =>
      let (want, d) := (d.count (R.CVU_DONE_COUNT 0)).dramRead .cvu0 a 4
      let v := checkValue (leBytes 8 g) (memRead d.dram g 256)
      if want.any (fun l => ofLe l != v) then (false, d.cvuFail 0 (leBytes 8 g) v (ofLe (want.getD []))) else (true, d)
    | none => (true, d)
  else (true, d)

/-- `n` samples from absolute index `i` on are read from a line, by whole granules. Answers the samples of each granule with the index of the
first and whether they come: those of a granule whose access is refused or whose check fails do not, and read as zero. -/
def Dev.audioRead (d : Dev) (m : Master) (base len i n : Nat) : List (Nat × List Int × Bool) × Dev :=
  let res := (lineRuns len i n).foldl (fun (acc : Nat × List (Nat × List Int × Bool) × Dev) r =>
    let a := base + 4 * r.1
    let got := (granules a (4 * r.2)).foldl (fun (x : List (Nat × List Int × Bool) × Dev) g =>
      let (ok, d) := x.2.dramAccess m false g 256
      let (good, d) := if ok then d.granuleStands g else (false, d)
      let lo := max a g
      let vs := (List.range ((min (a + 4 * r.2) (g + 256) - lo) / 4)).map (fun k => if good then sx 32 (memLe d.dram (lo + 4 * k) 4) else 0)
      (x.1 ++ [(acc.1 + (lo - a) / 4, vs, good)], d)) acc.2
    (acc.1 + r.2, got)) (i, [], d)
  res.2

/-- A sample with absolute index `n` of a line held by blocks of `b`. -/
def putSample (b : Nat) (h : SMap (List Int)) (n : Nat) (v : Int) : SMap (List Int) :=
  let l := smGet (fun _ => []) h (n / b)
  if l.getD (n % b) 0 = v then h
  else smSet (fun _ => []) h (n / b) ((List.range b).map (fun k => if k = n % b then v else l.getD k 0))

/-- Samples as they have been read take their place in a line. -/
def putSamples (b : Nat) (h : SMap (List Int)) (s : Nat × List Int × Bool) : SMap (List Int) :=
  s.2.1.zipIdx.foldl (fun h x => putSample b h (s.1 + x.2) x.1) h

/-! ## DMC_CFG, delays and the check (R482, R486 to R488) -/

/-- A write to DMC_CFG. -/
def Dev.dmcCfgWrite (d : Dev) (v : Word) : Dev :=
  if d.top.st = .setup then
    d.setFlds [(R.DMC_CFG_GRAIN, clampN 7 16 (bits v.toNat 20 5)), (R.DMC_CFG_DENSITY, bits v.toNat 16 2),
      (R.DMC_CFG_RANKS2, bits v.toNat 8 1), (R.DMC_CHECK_CHECKED, 0)]
  else d.raise F.dmcCfgRefused

/-- A write to delay register `i` (0 WL, 1 RG, 2 WDSK, 3 RDSK) of lane `l` = 2c + l. -/
def Dev.dlyWrite (d : Dev) (l i : Nat) (v : Word) : Dev :=
  let d := match i with
    | 0 => d.setFld (R.DLY_WL_WL l) v.toNat
    | 1 => d.setFld (R.DLY_RG_RG l) v.toNat
    | 2 => d.setFld (R.DLY_WDSK_WDSK l) v.toNat
    | _ => d.setFld (R.DLY_RDSK_RDSK l) v.toNat
  d.setFld R.DMC_CHECK_CHECKED 0

/-- Word i of the delay check. -/
def checkWord (i : Nat) : Nat := (i * 0x9E3779B9 + 0x7F4A7C15) % 2 ^ 32

/-- DRAM addresses and words of the delay check: the top 1 KiB of every channel of every rank. -/
def Dev.checkPlaces (d : Dev) : List (Nat × Nat) :=
  (List.range 4).flatMap (fun c => (List.range d.ranks).flatMap (fun r => (List.range 256).map (fun i =>
    (d.dramAddr c ((r + 1) * d.rankSize - 1024 + 4 * i), checkWord i))))

/-- The check words stand where the check wrote them. -/
def Dev.checkWordsStand (d : Dev) : Bool := d.checkPlaces.all (fun p => memLe d.dram p.1 4 == p.2)

/-- A write to DMC_CHECK: MARGIN and RECHECK are stored; GO starts the check in SETUP unless one runs (R487). -/
def Dev.dmcCheckWrite (d : Dev) (v : Word) : Dev :=
  let go := bitAt v.toNat 31 && d.top.st == .setup && !d.flag R.DMC_CHECK_BUSY && d.works dmcBase
  let d := d.setFlds [(R.DMC_CHECK_MARGIN, bits v.toNat 8 8), (R.DMC_CHECK_RECHECK, bits v.toNat 0 8)]
  if go then
    let m := d.checkPlaces.foldl (fun m p => memWrite m p.1 (leBytes 4 p.2)) d.dram
    { d.wakeAll with dram := m }.setFld R.DMC_CHECK_BUSY 1
  else d

/-- The check ends; `lanes` are the lanes with a comparison that failed, at the nominal delay or at a margin (R487). -/
def Dev.checkDone (d : Dev) (lanes : Nat) : Dev :=
  if d.flag R.DMC_CHECK_BUSY then
    let d := (d.setFlds [(R.DMC_CHECK_BUSY, 0), (R.DMC_CHECK_FAIL_LANE, lanes % 256)]).raise F.checkDone
    if lanes % 256 = 0 then
      { d.setFlds [(R.DMC_CHECK_CHECKED, 1), (R.DMC_CHECK_FAIL, 0)] with dmc := { d.dmc with fault := false, causeNew := false } }
    else (d.setFld R.DMC_CHECK_FAIL 1).raise F.checkFail
  else d

/-- A recheck in RUN: a mismatch, of the interface or of the words as they stand, clears CHECKED and faults DMC (R488). -/
def Dev.dramRecheck (d : Dev) (bad : Bool) : Dev :=
  if d.top.st = .run ∧ d.fld R.DMC_CHECK_RECHECK ≠ 0 ∧ d.works dmcBase = true then
    let d := d.wakeAll
    if bad || !d.checkWordsStand then
      let d := (d.setFld R.DMC_CHECK_CHECKED 0).raise F.checkFail
      { d with dmc := { d.dmc with fault := true, causeNew := true } }
    else d
  else d

/-! ## Refresh and temperature (R489 to R491) -/

/-- The hot interval applies: the channel is hot or over temperature. -/
def Dev.hotInterval (d : Dev) (c : Nat) : Bool := d.flag (R.DMC_CH_STAT_HOT c) || d.flag (R.DMC_CH_STAT_OVERTEMP c)

/-- A poll of MR4: channel and rank reports (the index is ranks * c + r). A channel that becomes hot with owed refreshes owes
twice as many and issues them back to back, TRFC each, after which none is owed (R491). -/
def Dev.mr4Poll (d : Dev) (l : List Mr4) : Dev :=
  if d.awake && d.works dmcBase then
    (List.range 4).foldl (fun d c =>
      let rs := (l.drop (d.ranks * c)).take d.ranks
      let hot := rs.any (·.twice)
      let hotter := rs.any (·.tooHot)
      let was := d.hotInterval c
      let d := d.raiseIf (d.flag (R.DMC_CH_STAT_HOT c) != hot) F.hotChg
      let d := d.raiseIf (hotter && !d.flag (R.DMC_CH_STAT_OVERTEMP c)) F.dmcOvertemp
      let d := d.setFlds [(R.DMC_CH_STAT_HOT c, b2n hot), (R.DMC_CH_STAT_OVERTEMP c, b2n hotter),
        (R.DMC_CH_STAT_MR4_RATE c, (rs.map (·.code.toNat)).foldl max 0)]
      if d.hotInterval c && !was && d.fld (R.DMC_CH_STAT_OWED c) != 0 then
        let o := min 16 (2 * d.fld (R.DMC_CH_STAT_OWED c))
        let left := (o * d.fld R.DMC_REF_TRFC + 1) / 2
        ({ d with dmc := { d.dmc with burst := smSet (fun _ => 0) d.dmc.burst c left } }.setFld (R.DMC_CH_STAT_OWED c) o).count R.DMC_HOT_BURST_COUNT
      else d) d
  else d

/-- QoS of a transaction: its master's FAB_QOS value (R476), 15 for a recheck (R488). -/
def Dev.qosOf (d : Dev) (q : Queued) : Nat :=
  if 10 ≤ q.master then 15 else if q.write then d.fld (R.FAB_QOS_QOS_WR q.master) else d.fld (R.FAB_QOS_QOS_RD q.master)

/-- A deadline window is open while a transaction in the channel's queue has QoS of at least RT_QOS. -/
def Dev.windowOpen (d : Dev) (l : List Queued) : Bool := l.any (fun q => decide (d.fld R.DMC_RT_QOS_RT_QOS ≤ d.qosOf q))

/-- The refresh timer of a channel expires (R490). -/
def Dev.refreshExpiry (d : Dev) (c : Nat) (qos : List Queued) : Dev :=
  if d.awake && d.works dmcBase then
    let o := d.fld (R.DMC_CH_STAT_OWED c)
    let w := d.windowOpen qos
    if d.flag R.DMC_REF_POSTPONE_EN && !d.hotInterval c && w && decide (o < 8) then
      (d.setFld (R.DMC_CH_STAT_OWED c) (o + 1)).count R.DMC_POSTPONED_COUNT
    else if w then ((d.count R.DMC_FORCED_COUNT).raise F.forcedRef).note .dmcForced
    else d
  else d

/-- With no deadline window open, a channel issues what it owes (R490). -/
def Dev.owedFlush (d : Dev) (c : Nat) (qos : List Queued) : Dev :=
  if d.awake && d.works dmcBase && !d.windowOpen qos then d.setFld (R.DMC_CH_STAT_OWED c) 0 else d

/-! ## Power-down and STANDBY (R492, R493) -/

/-- A rank has been idle for PD_TIMER cycles: it powers down unless a RETAIN region overlaps it. -/
def Dev.rankPowerDown (d : Dev) (c r : Nat) : Dev :=
  let half := d.dramTotal / d.ranks
  if d.awake && d.works dmcBase && d.fld R.DMC_PD_TIMER_PD_TIMER != 0 && decide (r < d.ranks) && decide (c < 4)
      && !d.retains (half * r) (half * (r + 1)) then
    let f := R.DMC_CH_STAT_PD c
    d.setFld f (setBits (d.fld f) r 1 1)
  else d

/-- The slice of a byte for partial-array self-refresh. -/
def Dev.dramSlice (d : Dev) (a : Nat) : Nat := a / (d.dramTotal / (8 * d.ranks))

/-- A slice is kept in self-refresh if a RETAIN region overlaps it. -/
def Dev.sliceKept (d : Dev) (s : Nat) : Bool :=
  let n := d.dramTotal / (8 * d.ranks)
  d.retains (s * n) ((s + 1) * n)

/-- Entry into STANDBY: every slice that no RETAIN region overlaps loses its contents and reads again as memory that nothing
has written; CHECKED clears (R487, R493). -/
def Dev.dramStandby (d : Dev) : Dev :=
  { d with dram := d.dram.filter (fun e => d.sliceKept (d.dramSlice e.1)) }.setFlds
    [(R.DMC_CHECK_CHECKED, 0), (R.DMC_CHECK_BUSY, 0)]

/-- Leaving STANDBY: refresh resumes with nothing owed (R493). -/
def Dev.dramResume (d : Dev) : Dev := (List.range 4).foldl (fun d c => d.setFld (R.DMC_CH_STAT_OWED c) 0) d

/-! ## What the units report (R481, R496, R497) -/

def Dev.fabHealth (d : Dev) : UState × Nat := if d.last .fabErr then (.degraded, 1) else (.ok, 0)

def Dev.dmcHealth (d : Dev) : UState × Nat :=
  if d.dmc.fault then (.fault, 1)
  else if (List.range 4).any (fun c => d.flag (R.DMC_CH_STAT_OVERTEMP c)) then (.degraded, 2)
  else if d.last .dmcForced || d.last .dmcOutside then (.degraded, 3)
  else (.ok, 0)

def Dev.cvuHealth (d : Dev) (k : Nat) : UState × Nat := if d.last (.cvuMismatch k) then (.degraded, 1) else (.ok, 0)

/-! ## Meanings -/

/-- DMC_CFG_WRITE (R482). -/
def execDmcCfgWrite (v : Word) (s : State) := s.act (fun d => d.ifOpen dmcBase (·.dmcCfgWrite v))

/-- DLY_WRITE (R486). -/
def execDlyWrite (lane : Fin 8) (reg : Fin 4) (v : Word) (s : State) :=
  s.act (fun d => d.ifOpen dmcBase (·.dlyWrite lane.val reg.val v))

/-- DMC_CHECK_GO (R487): the word written to DMC_CHECK has GO = 1. -/
def execDmcCheckGo (v : Word) (s : State) :=
  s.act (fun d => d.ifOpen dmcBase (·.dmcCheckWrite (v ||| 0x80000000#32)))

/-- CHECK_DONE (R487). -/
def execCheckDone (lanes : BitVec 8) (s : State) := s.act (·.checkDone lanes.toNat)

/-- DMC_RECHECK_WRITE (R488): the word written to DMC_CHECK. -/
def execDmcRecheckWrite (v : Word) (s : State) := s.act (fun d => d.ifOpen dmcBase (·.dmcCheckWrite v))

/-- DRAM_RECHECK (R488). -/
def execDramRecheck (bad : Bool) (s : State) := s.act (·.dramRecheck bad)

/-- MR4_POLL (R489). -/
def execMr4Poll (l : List Mr4) (s : State) := s.act (·.mr4Poll l)

/-- REFRESH_EXPIRY (R490). -/
def execRefreshExpiry (c : Fin 4) (qos : List Queued) (s : State) := s.act (·.refreshExpiry c.val qos)

/-- OWED_REFRESH_FLUSH (R490). -/
def execOwedRefreshFlush (c : Fin 4) (qos : List Queued) (s : State) := s.act (·.owedFlush c.val qos)

/-- RANK_POWER_DOWN (R492). -/
def execRankPowerDown (c : Fin 4) (r : Fin 2) (s : State) := s.act (·.rankPowerDown c.val r.val)

end Sys2Proof.Machine
end

