-- ==== Sys2Proof/Machine/Pan.lean ====
section
/-! DEFINITION. Objects, layouts and the pan stage (spec 03): the tables' fields, moves, object commands, validation, and the
contribution set of an object for a tick (steps 1 to 13 of R119, with 04 R140). -/
namespace Sys2Proof.Machine

/-! ## Table fields (R100 to R106). A table copy is a sparse map of words. -/

namespace Lay
def norm (m : SMap Word) : Bool := bitAt (wordAt m 0) 31
/-- Counts act within their bounds (R553). -/
def vspk (m : SMap Word) : Nat := min 64 (bits (wordAt m 0) 16 7)
def spk (m : SMap Word) : Nat := min 1024 (bits (wordAt m 0) 0 11)
def rawVspk (m : SMap Word) : Nat := bits (wordAt m 0) 16 7
def rawSpk (m : SMap Word) : Nat := bits (wordAt m 0) 0 11
/-- SNAP_ANGLE in 1/128 degree, at most 180 degrees. -/
def snapAngle (m : SMap Word) : Nat := min 23040 (bits (wordAt m 1) 0 16)
/-- First word of real speaker s. -/
def realW (s : Nat) : Nat := 16 + 4 * s
/-- First word of virtual speaker v. -/
def virtW (v : Nat) : Nat := 0x1010 + 8 * v
/-- First word of a speaker by number (R103). -/
def numW (n : Nat) : Nat := if n < 1024 then realW n else virtW (n - 1024)
def en (m : SMap Word) (n : Nat) : Bool := bitAt (wordAt m (numW n + 3)) 31
def zone (m : SMap Word) (s : Nat) : Nat := bits (wordAt m (realW s + 3)) 24 5
def trim (m : SMap Word) (s : Nat) : Nat := bits (wordAt m (realW s + 3)) 0 16
def pos (m : SMap Word) (n i : Nat) : Int := sx 32 (wordAt m (numW n + i))
def tgt (m : SMap Word) (v k : Nat) : Nat := wordAt m (virtW v + 4 + k)
def tgtEn (m : SMap Word) (v k : Nat) : Bool := bitAt (tgt m v k) 31
def tgtSpk (m : SMap Word) (v k : Nat) : Nat := bits (tgt m v k) 16 11
def tgtGain (m : SMap Word) (v k : Nat) : Nat := bits (tgt m v k) 0 16
def atOrigin (m : SMap Word) (n : Nat) : Bool := pos m n 0 == 0 && pos m n 1 == 0 && pos m n 2 == 0
end Lay

namespace Hul
def rawCount (m : SMap Word) : Nat := bits (wordAt m 0) 0 11
def count (m : SMap Word) : Nat := min 1020 (rawCount m)
def hint (m : SMap Word) (cell : Nat) : Nat := bits (wordAt m (16 + cell / 2)) (16 * (cell % 2)) 16
/-- First word of triangle t. -/
def triW (t : Nat) : Nat := 0x310 + 16 * t
def vert (m : SMap Word) (t k : Nat) : Nat :=
  if k = 0 then bits (wordAt m (triW t)) 0 11
  else if k = 1 then bits (wordAt m (triW t)) 16 11
  else bits (wordAt m (triW t + 1)) 0 11
def nbr (m : SMap Word) (t k : Nat) : Nat :=
  if k = 0 then bits (wordAt m (triW t + 1)) 16 10
  else if k = 1 then bits (wordAt m (triW t + 2)) 0 10
  else bits (wordAt m (triW t + 2)) 16 10
/-- Inverse matrix M, row i, column k, signed Q8.24 (R105). -/
def mat (m : SMap Word) (t i k : Nat) : Int := sx 32 (wordAt m (triW t + 4 + 3 * i + k))
end Hul

namespace Ent
/-- Word n of an object's live entry. -/
def w (d : Dev) (j n : Nat) : Nat := d.live T.objObject (16 * j + n)
def enable (d : Dev) (j : Nat) : Bool := bitAt (w d j 0) 31
def priority (d : Dev) (j : Nat) : Nat := bits (w d j 0) 28 3
/-- 0 NONE, 1 OBJECT, 2 PAIR; 3 acts as NONE. -/
def delayMode (d : Dev) (j : Nat) : Nat := bits (w d j 0) 26 2 % 3
def doppler (d : Dev) (j : Nat) : Bool := bitAt (w d j 0) 25
def distEn (d : Dev) (j : Nat) : Bool := bitAt (w d j 0) 24
def spreadN (d : Dev) (j : Nat) : Nat := bits (w d j 0) 22 2 % 3
def snap (d : Dev) (j : Nat) : Nat := bits (w d j 0) 20 2 % 3
def bus (d : Dev) (j : Nat) : Nat := bits (w d j 0) 0 10
def zoneMask (d : Dev) (j : Nat) : Nat := w d j 1
def pinSpk (d : Dev) (j : Nat) : Nat := bits (w d j 3) 16 11
def dslew (d : Dev) (j : Nat) : Nat := bits (w d j 3) 0 16
/-- A reference distance not above 0 acts as 1.0 m. -/
def dref (d : Dev) (j : Nat) : Int := let v := sx 32 (w d j 7); if v ≤ 0 then 0x10000 else v
def dmin (d : Dev) (j : Nat) : Int := max 0x100 (sx 32 (w d j 8))
def rolloff (d : Dev) (j : Nat) : Nat := bits (w d j 9) 16 16
def attenMax (d : Dev) (j : Nat) : Nat := bits (w d j 9) 0 16
/-- The entry is in use (R106). -/
def usable (d : Dev) (j : Nat) : Bool := enable d j && decide (j < d.nObj) && decide (bus d j < d.nBus)
end Ent

/-! ## Moving fields (R110) -/

/-- Value of a move at tick `t`. -/
def Move.at (v : Move) (t : Nat) : Int :=
  let k : Int := (t : Int) - v.first + 1
  if k ≤ 0 then v.a else if (v.len : Int) ≤ k ∨ v.len ≤ 1 then v.b else v.a + divAway ((v.b - v.a) * k) v.len

def Dev.mv (d : Dev) (j : Nat) : ObjMoves := smGet (fun _ => ObjMoves.none) d.obj.moves j

def Dev.setMv (d : Dev) (j : Nat) (v : ObjMoves) : Dev :=
  { d with obj := { d.obj with moves := smSet (fun _ => ObjMoves.none) d.obj.moves j v } }

/-- A moving field's value for tick `t`: its move's, or its live word's. A move goes on in force, finished or not, when a BAR2 write
changes the live word alone: R110 says nothing of it. DEDUCED, log 93. -/
def fieldAt (v : Option Move) (cur : Int) (t : Nat) : Int := match v with | some m => m.at t | none => cur

def Dev.posAt (d : Dev) (j i t : Nat) : Int :=
  let m := d.mv j
  fieldAt (if i = 0 then m.x else if i = 1 then m.y else m.z) (sx 32 (Ent.w d j (4 + i))) t

def Dev.gainAt (d : Dev) (j t : Nat) : Nat := (fieldAt (d.mv j).gain (bits (Ent.w d j 2) 16 16) t).toNat
def Dev.spreadAt (d : Dev) (j t : Nat) : Nat := (fieldAt (d.mv j).spread (bits (Ent.w d j 2) 0 16) t).toNat

/-! ## Vectors in binary32 (R118, R120, R124) -/

/-- A direction or position in binary32. -/
structure V3 where
  x : Fl
  y : Fl
  z : Fl
  deriving DecidableEq, Repr

/-- ((x0·y0 + x1·y1) + x2·y2), each operation rounded. -/
def dot (f : Fmt) (a b : V3) : Fl := f.add (f.add (f.mul a.x b.x) (f.mul a.y b.y)) (f.mul a.z b.z)

/-- Length and direction of a Q16.16 position (R120); the origin has direction (0, 1, 0). -/
def dirOf (x y z : Int) : Fl × V3 :=
  let p : V3 := ⟨b32.ofFix x 16, b32.ofFix y 16, b32.ofFix z 16⟩
  let r := b32.sqrt (dot b32 p p)
  if r.isZero then (r, ⟨.zero, .one, .zero⟩) else (r, ⟨b32.div p.x r, b32.div p.y r, b32.div p.z r⟩)

/-- Direction of a speaker by number (R103, R553). -/
def spkDir (m : SMap Word) (n : Nat) : V3 := (dirOf (Lay.pos m n 0) (Lay.pos m n 1) (Lay.pos m n 2)).2

/-- Frame around u (R124). -/
def frameOf (u : V3) : V3 × V3 :=
  let a : V3 :=
    if u.x.isZero && u.y.isZero then ⟨.one, .zero, .zero⟩
    else
      let h := b32.sqrt (b32.add (b32.mul u.x u.x) (b32.mul u.y u.y))
      ⟨b32.div u.y h, (b32.div u.x h).neg, .zero⟩
  let c := fun p q r s => b32.sub (b32.mul p q) (b32.mul r s)
  (a, ⟨c a.y u.z a.z u.y, c a.z u.x a.x u.z, c a.x u.y a.y u.x⟩)

/-- p·a + q·b per component. -/
def combine (p : Fl) (a : V3) (q : Fl) (b : V3) : V3 :=
  let f := fun x y => b32.add (b32.mul p x) (b32.mul q y)
  ⟨f a.x b.x, f a.y b.y, f a.z b.z⟩

/-- Offsets (in 1/256 degree, per unit of SPREAD) and azimuths (degrees) of the spread points after the first (R124). -/
def spreadRing : Nat → List (Nat × Nat)
  | 1 => (List.range 6).map (fun k => (2, 60 * k))
  | 2 => (List.range 5).map (fun k => (1, 72 * k)) ++ (List.range 10).map (fun k => (2, 18 + 36 * k))
  | _ => []

/-- Point directions of a spread (R124). -/
def spreadPoints (u : V3) (n spread : Nat) : List V3 :=
  let (a, b) := frameOf u
  let s := min 23040 spread
  u :: (spreadRing n).map (fun q =>
    let (cp, sp) := cosSinTurn q.2 360
    let (ct, st) := cosSinTurn (q.1 * s) 92160
    let w := combine (fixTo32 cp) a (fixTo32 sp) b
    combine (fixTo32 ct) u (fixTo32 st) w)

/-! ## Speakers -/

/-- A real speaker that object `j` may use (R103). -/
def eligible (d : Dev) (m : SMap Word) (mask s : Nat) : Bool :=
  decide (s < Lay.spk m) && decide (s < d.nFeed) && Lay.en m s && !bitAt mask (Lay.zone m s)

/-- Nearest of the listed speakers to a direction: the largest dot product, the first among equals (R122). -/
def nearest (m : SMap Word) (v : V3) (l : List Nat) : Option (Nat × Fl) :=
  l.foldl (fun best s =>
    let x := dot b32 (spkDir m s) v
    match best with
    | none => some (s, x)
    | some (_, y) => if y.lt x then some (s, x) else best) none

/-! ## Triangle walk (R125 to R127) -/

/-- floor((x + 1) * 8) limited to 15. -/
def gridIndex (x : Fl) : Nat := (min 15 ((b32.mul (b32.add x .one) ⟨8, 0⟩).floorMul 0)).toNat

/-- Hint cell of a direction (R125). -/
def hintCell (v : V3) : Nat :=
  let ax := v.x.abs
  let ay := v.y.abs
  let az := v.z.abs
  let face := fun (c : Fl) (k : Nat) => if c.m < 0 then k + 1 else k
  let cell := fun (f : Nat) (s q : Fl) => f * 256 + gridIndex q * 16 + gridIndex s
  if ay.le ax && az.le ax then cell (face v.x 0) (b32.div v.y ax) (b32.div v.z ax)
  else if az.le ay then cell (face v.y 2) (b32.div v.x ay) (b32.div v.z ay)
  else cell (face v.z 4) (b32.div v.x az) (b32.div v.y az)

/-- Gains of a triangle: v·(M0k, M1k, M2k) (R126). -/
def triGains (h : SMap Word) (t : Nat) (v : V3) : List Fl :=
  (List.range 3).map (fun k =>
    dot b32 v ⟨b32.ofFix (Hul.mat h t 0 k) 24, b32.ofFix (Hul.mat h t 1 k) 24, b32.ofFix (Hul.mat h t 2 k) 24⟩)

/-- Index and value of the smallest of a list, the first among equals. -/
def minFl : List Fl → Nat × Fl
  | [] => (0, .zero)
  | x :: r => ((r.zipIdx 1).foldl (fun (b : Nat × Fl) (y : Fl × Nat) => if y.1.lt b.2 then (y.2, y.1) else b) (0, x))

def negToZero (g : List Fl) : List Fl := g.map (fun x => if x.m < 0 then .zero else x)

/-- A walk: triangle, gains, and whether it reached the visit limit; `best` is the best triangle so far. -/
def walkGo (h : SMap Word) (v : V3) : Nat → Nat → Option (Nat × List Fl × Fl) → Nat × List Fl × Bool
  | 0, t, best => match best with
    | some (b, g, _) => (b, negToZero g, true)
    | none => (t, [.zero, .zero, .zero], true)
  | f + 1, t, best =>
    let g := triGains h t v
    let (k, x) := minFl g
    if !x.lt ⟨-1, -20⟩ then (t, negToZero g, false)
    else
      let best' := match best with
        | some (b, gb, y) => if y.lt x then some (t, g, x) else some (b, gb, y)
        | none => some (t, g, x)
      let u := Hul.nbr h t k
      walkGo h v f (if u < Hul.count h then u else 0) best'

/-- Triangle and gains of a point; with no triangle every gain is 0 (R126, R127). -/
def walk (h : SMap Word) (v : V3) : Nat × List Fl × Bool :=
  if Hul.count h = 0 then (0, [.zero, .zero, .zero], false)
  else
    let s := Hul.hint h (hintCell v)
    walkGo h v 64 (if s = 0xFFFF ∨ Hul.count h ≤ s then 0 else s) none

/-! ## Gain vectors -/

abbrev GVec := SMap Fl
def gAt (g : GVec) (n : Nat) : Fl := smGet (fun _ => Fl.zero) g n
def gSet (g : GVec) (n : Nat) (x : Fl) : GVec := smSet (fun _ => Fl.zero) g n (if x.isZero then .zero else x)
def gAdd (g : GVec) (n : Nat) (x : Fl) : GVec := gSet g n (b32.add (gAt g n) x)

/-- Σ g or sqrt(Σ g²) in the order given (R128, R130). -/
def normOf (ampl : Bool) (l : List Fl) : Fl :=
  if ampl then l.foldl b32.add .zero else b32.sqrt (l.foldl (fun s x => b32.add s (b32.mul x x)) .zero)

/-- One point of an object: zone exclusion, fallback, normalisation, accumulation (R128). -/
def accumulate (d : Dev) (lay hul : SMap Word) (mask : Nat) (el : List Nat) (g : GVec) (v : V3) : GVec × Bool :=
  let (t, gs, lim) := walk hul v
  let keep := fun (k : Nat) (x : Fl) =>
    let n := Hul.vert hul t k
    let ok := if n < 1024 then eligible d lay mask n else decide (n < 1024 + Lay.vspk lay) && Lay.en lay n
    if ok then x else .zero
  let gs := gs.zipIdx.map (fun y => keep y.2 y.1)
  if gs.all Fl.isZero then
    match nearest lay v el with
    | some (s, _) => (gAdd g s .one, lim)
    | none => (g, lim)
  else
    let n := normOf (Lay.norm lay) gs
    (gs.zipIdx.foldl (fun g y => if y.1.isZero then g else gAdd g (Hul.vert hul t y.2) (b32.div y.1 n)) g, lim)

/-- Virtual speakers hand their gain on to their targets (R129). -/
def redistribute (d : Dev) (lay : SMap Word) (mask : Nat) (g : GVec) : GVec :=
  (List.range 64).foldl (fun g v =>
    let x := gAt g (1024 + v)
    if x.isZero then g
    else
      let g := (List.range 4).foldl (fun g k =>
        let s := Lay.tgtSpk lay v k
        if Lay.tgtEn lay v k && eligible d lay mask s then
          gAdd g s (b32.mul x (b32.ofFix (gainM (Lay.tgtGain lay v k)) 24))
        else g) g
      gSet g (1024 + v) .zero) g

/-- Normalise over the real speakers; `none` when the sum is 0 (R130). -/
def normalise (ampl : Bool) (g : GVec) : Option GVec :=
  let n := normOf ampl (g.map Prod.snd)
  if n.isZero then none else some (g.foldl (fun h e => gSet h e.1 (b32.div e.2 n)) [])

/-- Keep the `n` largest, lower numbers first among equals (R131): an entry stays if fewer than `n` beat it. -/
def largest (n : Nat) (g : GVec) : GVec :=
  g.filter (fun e => (g.filter (fun o => e.2.lt o.2 || (!o.2.lt e.2 && decide (o.1 < e.1)))).length < n)

/-- Floor, cap of 64 and renormalisation (R131). -/
def capGains (ampl : Bool) (g : GVec) : GVec :=
  let g := g.filter (fun e => !e.2.lt ⟨1, -20⟩)
  if g.length ≤ 64 then g
  else match normalise ampl (largest 64 g) with
    | some h => h
    | none => []

/-! ## Gain and delay of the contributions -/

/-- Distance gain in 1/512 dB (R132). -/
def distGain (d : Dev) (j : Nat) (r : Fl) : Int :=
  if Ent.distEn d j then
    let dd := r.max ⟨Ent.dmin d j, -16⟩
    let q := b64.div dd ⟨Ent.dref d j, -16⟩
    let l := (b64.mul (b64.ofFix (Ent.rolloff d j) 8) (log2Part q)).neg
    clampI (-(Ent.attenMax d j : Int)) 12288 ((b64.mul ⟨512, 0⟩ l).awayMul 0)
  else 0

/-- Gain of a contribution (R133). -/
def contribGain (gain trim : Nat) (dist : Int) (g : Fl) : Nat :=
  let c : Int := (gain : Int) + trim - 52224 + dist
  if gain = 0 ∨ trim = 0 ∨ c ≤ 0 then 0
  else
    let x : Fl := ⟨g.m * (gainM (min 65535 c).toNat : Int), g.e⟩
    ((x.addX ⟨1, -1⟩).floorMul 0).toNat

/-- Interpolator lead (R141). -/
def leadOf (d : Dev) : Nat := if d.lat R.OBJ_LANE_CFG_INTERP = 1 then 3 else 1

/-- Target delay code of a contribution (R140). -/
def delayCode (d : Dev) (lay : SMap Word) (j t s : Nat) : Nat :=
  let mode := Ent.delayMode d j
  if mode = 0 then 0
  else
    let q := fun i => if mode = 1 then (⟨d.posAt j i t, -16⟩ : Fl) else b64.ofFix (d.posAt j i t - Lay.pos lay s i) 16
    let v : V3 := ⟨q 0, q 1, q 2⟩
    let dist := b64.sqrt (dot b64 v v)
    let c : Fl := ⟨d.fld R.OBJ_C_C, -16⟩
    let ts := b64.sub (b64.div (b64.mul dist ⟨d.fs, 0⟩) c) ⟨d.lat R.OBJ_DSUB_DSUB, -12⟩
    (clampI (leadOf d * 4096) 0xFFFFFFFF (ts.evenMul 12)).toNat

/-- What the pan stage finds for one object and tick: its contributions, walks at the visit limit, and whether it was
silent (R130). -/
structure PanOut where
  set : List Contrib
  walks : Nat
  silent : Bool
  deriving DecidableEq, Repr

/-- Steps 11 to 13: contributions from a gain vector, in ascending speaker number. -/
def finish (d : Dev) (lay : SMap Word) (j t : Nat) (r : Fl) (g : GVec) (walks : Nat) : PanOut :=
  let dist := distGain d j r
  let gain := d.gainAt j t
  ⟨g.map (fun e => ⟨e.1, contribGain gain (Lay.trim lay e.1) dist e.2, delayCode d lay j t e.1⟩), walks, false⟩

/-- The set of object `j` for tick `t` (R119). -/
def panSet (d : Dev) (j t : Nat) : PanOut :=
  let lay := (d.tab T.objLayout).live
  let hul := (d.tab T.objHull).live
  let (r, u) := dirOf (d.posAt j 0 t) (d.posAt j 1 t) (d.posAt j 2 t)
  let mask := Ent.zoneMask d j
  let ampl := Lay.norm lay
  if Ent.snap d j = 2 then
    let s := Ent.pinSpk d j
    if s < Lay.spk lay ∧ s < d.nFeed ∧ Lay.en lay s = true then finish d lay j t r [(s, .one)] 0 else ⟨[], 0, true⟩
  else
    let el := (List.range (Lay.spk lay)).filter (eligible d lay mask)
    let near := if Ent.snap d j = 1 then nearest lay u el else none
    let hit := match near with
      | some (s, x) => if x.lt (fixTo32 (cosSinTurn (Lay.snapAngle lay) 46080).1) then none else some s
      | none => none
    match hit with
    | some s => finish d lay j t r (capGains ampl [(s, .one)]) 0
    | none =>
      let pts := spreadPoints u (Ent.spreadN d j) (d.spreadAt j t)
      let (g, walks) := pts.foldl (fun (a : GVec × Nat) v =>
        let (g, lim) := accumulate d lay hul mask el a.1 v
        (g, a.2 + b2n lim)) ([], 0)
      match normalise ampl (redistribute d lay mask g) with
      | none => ⟨[], walks, true⟩
      | some g => finish d lay j t r (capGains ampl g) walks

/-! ## Object commands (R111 to R114) -/

/-- First tick an object command governs: its apply tick if that is at least two past the tick it was fetched in, else
two past it; while the tick does not run, the next tick or its own apply tick (R31, R113). -/
def Dev.objDue (d : Dev) (c : Cmd) : Nat :=
  if d.running then (if c.fetch + 2 ≤ c.ap then c.ap else c.fetch + 2)
  else if d.top.tick + 1 < c.ap then c.ap else d.top.tick + 1

/-- An object command is late (R31, R113). -/
def Dev.objLate (d : Dev) (c : Cmd) : Bool :=
  if d.running then c.ap < c.fetch + 2 else c.ap != 0 && c.ap ≤ d.top.tick

/-- Positions of the set bits of a mask below 16. -/
def maskBits (m : Nat) : List Nat := (List.range 16).filter (bitAt m)

/-- Write word `n` of an object's entry from an OBJ_SET: both copies, and the moves that the word ends (R111). -/
def Dev.objWord (d : Dev) (j n v : Nat) : Dev :=
  let d := d.writeBoth T.objObject (16 * j + n) v
  let m := d.mv j
  if n = 4 then d.setMv j { m with x := none }
  else if n = 5 then d.setMv j { m with y := none }
  else if n = 6 then d.setMv j { m with z := none }
  else if n = 2 then d.setMv j { m with gain := none, spread := none }
  else d

/-- OBJ_SET (R111, R114). -/
def objSet (d : Dev) (c : Cmd) (late : Bool) : Cpl × Dev :=
  let j := c.u16 16
  let ws := maskBits (c.u16 18)
  if d.nObj ≤ j then (.bad 2, d)
  else if 10 < ws.length ∨ ws.any (10 ≤ ·) then (.bad 3, d)
  else (⟨lateOk late, 0, 0⟩, ws.zipIdx.foldl (fun d x => d.objWord j x.1 (c.u32 (24 + 4 * x.2))) d)

/-- OBJ_KEYFRAME: moves from each field's value for the tick before, and targets written into both copies (R112). `first`
is the tick it first governs. -/
def objKeyframe (d : Dev) (c : Cmd) (first : Nat) (late : Bool) : Cpl × Dev :=
  let j := c.u16 16
  if d.nObj ≤ j then (.bad 2, d)
  else
    let n := c.u16 18
    let fl := c.u8 20
    let m := d.mv j
    let mk := fun (a b : Int) => some (⟨a, b, first, n⟩ : Move)
    let p := first - 1
    let (m, d) := if bitAt fl 0 then
        ({ m with x := mk (d.posAt j 0 p) (sx 32 (c.u32 24)), y := mk (d.posAt j 1 p) (sx 32 (c.u32 28)),
                  z := mk (d.posAt j 2 p) (sx 32 (c.u32 32)) },
         ((d.writeBoth T.objObject (16 * j + 4) (c.u32 24)).writeBoth T.objObject (16 * j + 5) (c.u32 28)).writeBoth
            T.objObject (16 * j + 6) (c.u32 32))
      else (m, d)
    let g0 := d.gainAt j p
    let s0 := d.spreadAt j p
    let (m, d) := if bitAt fl 1 then
        ({ m with gain := mk g0 (c.u16 36) }, d.writeBothBits T.objObject (16 * j + 2) 16 16 (c.u16 36)) else (m, d)
    let (m, d) := if bitAt fl 2 then
        ({ m with spread := mk s0 (c.u16 38) }, d.writeBothBits T.objObject (16 * j + 2) 0 16 (c.u16 38)) else (m, d)
    (⟨lateOk late, 0, 0⟩, d.setMv j m)

/-- What an object command that waits in the pending-apply queue does to the tables when it applies (R111, R112). Whether it is refused
is seen at its apply tick alone (R76). -/
def Dev.objAhead (d : Dev) (e : PaqE) : Dev :=
  match e.op with
  | .objSet => (objSet d e.cmd false).2
  | .objKeyframe => (objKeyframe d e.cmd (d.objDue e.cmd) false).2
  | _ => d

/-- The part as the object commands that the pan stage has received will have left its tables at tick `t` (R31, R113, R134): they
apply boundary by boundary, in fetch order (R78). -/
def Dev.panView (d : Dev) (t : Nat) : Dev :=
  (List.range (t - d.top.tick)).foldl (fun v k =>
    (d.hre.paq.filter (fun e => (e.op == .objSet || e.op == .objKeyframe) && d.objDue e.cmd == d.top.tick + k + 1)).foldl Dev.objAhead v) d

/-- An object command that completes LATE is counted (R108, R113). -/
def Dev.kfLate (d : Dev) (late : Bool) : Dev := if late then (d.count R.PAN_KF_LATE_COUNT).raise F.kfLate else d

/-- An object command with its completion: counted where that is LATE. -/
def kfCounted (x : Cpl × Dev) : Cpl × Dev := (x.1, x.2.kfLate (x.1.status == .late))

/-- Sets of one object from a tick on are discarded (R31, R32). -/
def Dev.dropSets (d : Dev) (j t : Nat) : Dev :=
  { d with obj := { d.obj with
      sets := (d.obj.sets.map (fun e => if t ≤ e.1 then (e.1, e.2.filter (fun x => x.1 != j)) else e)).filter
        (fun e => !e.2.isEmpty) } }

/-- Sets of every object from a tick on are discarded (R116). -/
def Dev.dropAllSets (d : Dev) (t : Nat) : Dev :=
  { d with obj := { d.obj with sets := d.obj.sets.filter (fun e => e.1 < t) } }

/-- The command names an object of the capacity, and its mask is one that R111 accepts (R111, R114). -/
def objCmdGood (d : Dev) (c : Cmd) : Bool :=
  decide (c.u16 16 < d.nObj) &&
    (c.code.toNat != Opcode.objSet.code || (decide ((maskBits (c.u16 18)).length ≤ 10) && (maskBits (c.u16 18)).all (· < 10)))

/-- An object command reaches the pan stage as HRE fetches it: sets already computed from the tick it first governs are
computed again (R31, R135). A recomputation starts where such a set exists, also for a command that changes no field
(DESIGN CHOICE, log 126); a command that is to complete with BAD_TABLE starts none (R111, R114). -/
def Dev.objFetched (d : Dev) (c : Cmd) : Dev :=
  let t := d.objDue c
  if objCmdGood d c then
    let again := d.running && d.works panBase && d.obj.sets.any (fun e => t ≤ e.1 && e.2.any (fun x => x.1 == c.u16 16))
    (if again then d.count R.PAN_RECOMP_COUNT else d).dropSets (c.u16 16) t
  else d

/-! ## Validation (R115) -/

/-- First index of a range that fails. -/
def firstBad (n : Nat) (p : Nat → Bool) : Option Nat := (List.range n).find? p

/-- Validation of a staged layout and hull: the failing check, its table (1 layout, 2 hull) and the entry (R115). The spec does not
say how ITEM counts: the model gives a virtual speaker its number of R103 (1,024 + v), a hint its cell, and 0 where a count fails
(checks 1, 2 and 5). DESIGN CHOICE, log 94. A hull with no triangle is valid whatever its hints are. -/
def validate (d : Dev) (lay hul : SMap Word) : Option (Nat × Nat × Nat) :=
  let real := fun n => decide (n < Lay.rawSpk lay) && decide (n < 1024) && Lay.en lay n
  let virt := fun n => decide (1024 ≤ n) && decide (n < 1024 + Lay.rawVspk lay) && Lay.en lay n
  let nt := Hul.rawCount hul
  let edge := fun t k => (Hul.vert hul t ((k + 1) % 3), Hul.vert hul t ((k + 2) % 3))
  let same := fun (a b : Nat × Nat) => (a.1 == b.1 && a.2 == b.2) || (a.1 == b.2 && a.2 == b.1)
  let tri := fun (p : Nat → Bool) => firstBad nt p
  if d.nFeed < Lay.rawSpk lay then some (1, 1, 0)
  else if 64 < Lay.rawVspk lay then some (2, 1, 0)
  else match (firstBad (Lay.rawSpk lay) (fun s => Lay.en lay s && Lay.atOrigin lay s)),
      (firstBad (Lay.rawVspk lay) (fun v => Lay.en lay (1024 + v) && Lay.atOrigin lay (1024 + v))) with
  | some s, _ => some (3, 1, s)
  | none, some v => some (3, 1, 1024 + v)
  | none, none =>
    match firstBad (Lay.rawVspk lay) (fun v => Lay.en lay (1024 + v) &&
        (List.range 4).any (fun k => Lay.tgtEn lay v k && !real (Lay.tgtSpk lay v k))) with
    | some v => some (4, 1, 1024 + v)
    | none =>
      if 1020 < nt then some (5, 2, 0)
      else match tri (fun t => (List.range 3).any (fun k => !real (Hul.vert hul t k) && !virt (Hul.vert hul t k))) with
      | some t => some (6, 2, t)
      | none => match tri (fun t => Hul.vert hul t 0 == Hul.vert hul t 1 || Hul.vert hul t 1 == Hul.vert hul t 2 ||
          Hul.vert hul t 0 == Hul.vert hul t 2) with
        | some t => some (7, 2, t)
        | none => match tri (fun t => (List.range 3).any (fun k =>
            let u := Hul.nbr hul t k
            decide (nt ≤ u) || !(List.range 3).any (fun i => Hul.nbr hul u i == t && same (edge u i) (edge t k)))) with
          | some t => some (8, 2, t)
          | none => match firstBad (if nt = 0 then 0 else 1536) (fun c => Hul.hint hul c != 0xFFFF && decide (nt ≤ Hul.hint hul c)) with
            | some c => some (9, 2, c)
            | none => none

/-- Run the validation of the staged pair if one of its tables has changed, and record it (R115): true when it passes. -/
def Dev.panValidate (d : Dev) : Bool × Dev :=
  let lay := d.tab T.objLayout
  let hul := d.tab T.objHull
  if lay.changed || hul.changed then
    match validate d lay.staged hul.staged with
    | none => (true, d.setFlds [(R.PAN_VALID_CHECK, 0), (R.PAN_VALID_TABLE, 0), (R.PAN_VALID_ITEM, 0)])
    | some (chk, t, item) =>
      let id := if t = 1 then T.objLayout else T.objHull
      let x := d.tab id
      let d := d.setTab id { x with bad := x.bad ++ [(0, 0)] }
      (false, (d.setFlds [(R.PAN_VALID_CHECK, chk), (R.PAN_VALID_TABLE, t), (R.PAN_VALID_ITEM, item)]).raise F.hullInvalid)
  else (true, d)

/-- A move whose target the new live entry no longer holds ends (R117). -/
def keepMove (v : Option Move) (word : Int) : Option Move :=
  match v with
  | some m => if m.b = word then some m else none
  | none => none

/-- At a swap of OBJ_OBJECT, moves continue only where the new entry holds their target (R117). -/
def Dev.swapMoves (d : Dev) : Dev :=
  d.obj.moves.foldl (fun d e =>
    let j := e.1
    let w := fun i => sx 32 (Ent.w d j (4 + i))
    d.setMv j ⟨keepMove e.2.x (w 0), keepMove e.2.y (w 1), keepMove e.2.z (w 2),
      keepMove e.2.gain (bits (Ent.w d j 2) 16 16), keepMove e.2.spread (bits (Ent.w d j 2) 0 16)⟩) d

/-- Write to OBJ_C, a two's complement Q16.16 (R9): only in SETUP, clamped (R107). -/
def Dev.writeObjC (d : Dev) (v : Nat) : Dev :=
  if d.top.st = .setup then d.setFld R.OBJ_C_C (clampI 0x00640000 0x0FA00000 (sx 32 v)).toNat else d.raise F.objCfgRefused

end Sys2Proof.Machine
end

