-- ==== Sys2Proof/Machine/Lanes.lean ====
section
/-! DEFINITION. Delays, interpolation, accumulation, admission and the render lanes (spec 04): how every object's contributions
move from one tick to the next, and the speaker feeds of a block. -/
namespace Sys2Proof.Machine

/-! ## Latched configuration (R138, R141, R161) -/

/-- Window samples per object (R137). -/
def winOf (d : Dev) : Nat := 4096 * d.rateM
/-- EMAX (R141). -/
def emaxOf (d : Dev) : Nat := winOf d - 8
/-- CDMAX (R138): 0 with coarse lines off. -/
def cdMax (d : Dev) : Nat := 2 ^ d.lat R.OBJ_LANE_CFG_CD_LOG2 - 1
/-- ADMIT share of a budget level (R161). -/
def admitOf (d : Dev) (l : Nat) : Nat :=
  if l < 4 then bits (smGet (resetReg d.grade) d.latched 0xE0114).toNat (8 * l) 8
  else bits (smGet (resetReg d.grade) d.latched 0xE0118).toNat (8 * (l - 4)) 8

/-! ## Interpolators (R148 to R150) -/

/-- L4 coefficients of fraction F / 4096, in units of 2^-24 (R148). -/
def l4Coef (f : Nat) : List Int :=
  let a : Int := f
  let one : Int := 4096
  let r := fun (n : Int) (k : Nat) => divAway (n * 2 ^ 24) (k * 4096 ^ 3)
  [r (-(a * (a - one) * (a - 2 * one))) 6, r ((a + one) * (a - one) * (a - 2 * one)) 2,
   r (-((a + one) * a * (a - 2 * one))) 2, r ((a + one) * a * (a - one)) 6]

/-- Windowed sinc at n - F/4096, scale 2^100 (R149). -/
def sincWin (n : Int) (f : Nat) : Int :=
  let x : Int := n * 4096 - f
  let sinc : Int :=
    if x = 0 then fixOne
    else (cosSinTurnI x 8192).2 * 4096 * 2 ^ 120 / (pi120 * x)
  let c1 := (cosSinTurnI x 36864).1
  let c2 := (cosSinTurnI (2 * x) 36864).1
  let w := (42 * fixOne + 50 * c1 + 8 * c2) / 100
  sinc * w / fixOne

/-- S8 coefficients of fraction F / 4096, in units of 2^-24 (R149). -/
def s8Coef (f : Nat) : List Int :=
  let s := (List.range 8).map (fun (k : Nat) => sincWin ((k : Int) - 3) f)
  let t := s.foldl (· + ·) 0
  s.map (fun v => divAway (v * 2 ^ 24) t.toNat)

/-- Interpolated sample at offset code `e` behind Dc, from a function that gives the input sample a delay ago (R141,
R150). -/
def interp (s8 : Bool) (x : Int → Int) (dc e : Nat) : Int :=
  let i : Int := (dc + e / 4096 : Nat)
  let f := e % 4096
  if f = 0 then x i
  else
    let h := if s8 then s8Coef f else l4Coef f
    let first : Int := if s8 then -3 else -1
    satH (divEven ((h.zipIdx.map (fun c => c.1 * x (i + first + c.2))).foldl (· + ·) 0) (2 ^ 24))

/-! ## One object's tick (R142 to R147) -/

/-- How a contribution is read in a tick: its input as it is, a glide, a fixed delay, or a crossfade between two. -/
inductive Read where
  | input
  | glide (tau : Nat) (delta : Int)
  | fixed (tau : Nat)
  | fade (old new : Nat)
  deriving DecidableEq, Repr

/-- One contribution as rendered in a tick: gain at the last sample of the tick before, target gain, how it is read. -/
structure Rend where
  spk : Nat
  g0 : Nat
  g1 : Nat
  read : Read
  deriving DecidableEq, Repr

/-- What one tick does to an object: its next state, its contributions, the Dc they read at, and marks for the counters. -/
structure Adv where
  next : ObjR
  rends : List Rend
  dc : Nat
  reseat : Bool
  silent : Bool
  enters : Bool
  leaves : Bool
  deriving DecidableEq, Repr

/-- Delay codes that a read puts into the set R of R142 (R145, R146). -/
def Read.codes : Read → List Nat
  | .input => []
  | .glide t δ => [t, ((t : Int) + δ).toNat]
  | .fixed t => [t]
  | .fade a b => [a, b]

/-- The least and the greatest delay code that a sample of a block of `b` reads (R145, R146); the codes of a glide run from one to the
other. -/
def Read.reads (b : Nat) : Read → List Nat
  | .input => []
  | .glide t δ => [((t : Int) + divFloor δ b).toNat, ((t : Int) + δ).toNat]
  | .fixed t => [t]
  | .fade a c => [a, c]

/-- The tick is a fade tick for the contribution (R146). -/
def Read.fades : Read → Bool
  | .fade _ _ => true
  | _ => false

/-- Units per sample of a contribution (R153). -/
def Rend.units (s8 : Bool) (r : Rend) : Nat :=
  match r.read with
  | .input => 1
  | .fade _ _ => if s8 then 4 else 2
  | _ => if s8 then 2 else 1

/-- Bounds a and b of R142 for the codes a tick reads. -/
def dcBounds (d : Dev) (codes : List Nat) : Int × Int :=
  let lo : Int := (codes.foldl min (codes.headD 0)) / 4096
  let hi : Int := ((codes.foldl max 0) + 4095) / 4096
  (max 0 (hi - emaxOf d), min (lo - leadOf d) (cdMax d))

/-- Dc* of R142. -/
def dcStar (d : Dev) (codes : List Nat) : Nat :=
  let (a, b) := dcBounds d codes
  (if a ≤ b then (a + b) / 2 else max 0 b).toNat

/-- Dc of the tick from that of the tick before (R142), the ±B bound kept. -/
def dcNext (d : Dev) (codes : List Nat) (dc : Nat) : Nat :=
  let (a, b) := dcBounds d codes
  let bb : Int := d.blockB
  let lo := max 0 ((dc : Int) - bb)
  let hi := min (cdMax d : Int) ((dc : Int) + bb)
  if max a lo ≤ (dc : Int) ∧ (dc : Int) ≤ min b hi then dc else (clampI lo hi (dcStar d codes)).toNat

/-- The interval of R142 with its ±B term is empty while it is not without it: a crossfading object is reseated instead of fading
(R146). -/
def mustReseat (d : Dev) (codes : List Nat) (dc : Nat) : Bool :=
  let (a, b) := dcBounds d codes
  let bb : Int := d.blockB
  let lo := max a 0
  let hi := min b (cdMax d)
  decide (lo ≤ hi) && decide (min hi ((dc : Int) + bb) < max lo ((dc : Int) - bb))

/-- Contributions that leave, read at their held delay states (R144). -/
def leaving (modeNone : Bool) (l : List Contrib) : List Rend :=
  l.map (fun c => ⟨c.spk, c.gain, 0, if modeNone then .input else .fixed c.tau⟩)

/-- Put a contribution among others in ascending speaker number (R156). -/
def insertRend (r : Rend) : List Rend → List Rend
  | [] => [r]
  | x :: l => if r.spk < x.spk then r :: x :: l else x :: insertRend r l

/-- Delay slew of a contribution for one block (R145, R146): how it is read and its next delay state. -/
def follow (d : Dev) (j cur target : Nat) : Read × Nat :=
  if Ent.doppler d j then
    let ds := Ent.dslew d j
    let lt : Int := ((if ds = 0 then 65536 else ds) * d.blockB / 16 : Nat)
    let δ := clampI (-lt) lt ((target : Int) - cur)
    (.glide cur δ, ((cur : Int) + δ).toNat)
  else
    let ds := Ent.dslew d j
    let thr : Int := ((if ds = 0 then 16 else ds) * 256 : Nat)
    if clampI (-thr) thr ((target : Int) - cur) = (target : Int) - cur then (.fixed cur, cur) else (.fade cur target, target)

/-- One tick of an enabled object: from its state, its set, and whether the set is the held one of the tick before. A change of
DELAY_MODE into or out of NONE always reseats the object, also while it is being reseated or before it is placed (R147). -/
def advance (d : Dev) (j : Nat) (o : ObjR) (set : List Contrib) (held : Bool) : Adv :=
  let off := Ent.delayMode d j == 0
  let gone : Adv := ⟨{ o with prev := [], phase := 1, modeNone := off, lastSet := set }, leaving o.modeNone o.prev, o.dc,
    true, false, false, !o.prev.isEmpty⟩
  if o.on && o.modeNone != off then gone
  else if o.phase = 1 then
    let codes := if off then [] else set.map (·.tau)
    let dc := if off then 0 else if codes.isEmpty then o.dc else dcStar d codes
    ⟨{ o with prev := [], phase := 2, modeNone := off, dc := dc, placed := !codes.isEmpty, lastSet := set }, [], dc,
      false, true, false, false⟩
  else
    let step := fun (c : Contrib) =>
      match o.prev.find? (fun p => p.spk == c.spk) with
      | some p =>
        let g1 := if held then p.gain else c.gain
        if off then ((⟨c.spk, p.gain, g1, .input⟩ : Rend), (⟨c.spk, g1, 0⟩ : Contrib))
        else
          let (r, t) := follow d j p.tau c.tau
          (⟨c.spk, p.gain, g1, r⟩, ⟨c.spk, g1, t⟩)
      | none =>
        if off then (⟨c.spk, 0, c.gain, .input⟩, ⟨c.spk, c.gain, 0⟩)
        else
          let (r, t) := follow d j c.tau c.tau
          (⟨c.spk, 0, c.gain, r⟩, ⟨c.spk, c.gain, t⟩)
    let st := set.map step
    let out := o.prev.filter (fun p => !set.any (fun c => c.spk == p.spk))
    let rends := (leaving o.modeNone out).foldl (fun l r => insertRend r l) (st.map Prod.fst)
    let codes := (rends.map (fun r => r.read.codes)).flatten
    if !off && !Ent.doppler d j && o.placed && rends.any (fun r => r.read.fades) && mustReseat d codes o.dc then gone
    else
      let dc := if off then 0 else if codes.isEmpty then o.dc else if o.placed then dcNext d codes o.dc else dcStar d codes
      ⟨{ o with prev := st.map Prod.snd, phase := 0, modeNone := off, dc := dc, placed := o.placed || !codes.isEmpty,
                lastSet := set }, rends, dc, false, false,
        set.any (fun c => !o.prev.any (fun p => p.spk == c.spk)), !out.isEmpty⟩

/-! ## Samples -/

/-- Input sample of an object with absolute index n; before the stores began it is 0 (R139). -/
def histAt (b : Nat) (h : SMap (List Int)) (n : Int) : Int :=
  if n < 0 then 0 else (smGet (fun _ => []) h (n.toNat / b)).getD (n.toNat % b) 0

/-- Zero the samples that enter the window during block `t` (R160): those from `dc0` to `dc` behind. -/
def zeroLate (b t dc0 dc : Nat) (h : SMap (List Int)) : SMap (List Int) :=
  let lo : Int := (t * b : Nat) - (dc0 : Int)
  let hi : Int := (t * b + b - 1 : Nat) - (dc : Int)
  (h.map (fun e => (e.1, e.2.zipIdx.map (fun x =>
    let n : Int := (e.1 * b + x.2 : Nat)
    if lo ≤ n ∧ n ≤ hi then 0 else x.1)))).filter (fun e => e.2 != [])

/-- Offset of a read behind Dc, clamped into the window, and whether the clamp altered it (R141, R143). -/
def readOffset (d : Dev) (dc tau : Nat) : Nat × Bool :=
  let e : Int := (tau : Int) - dc * 4096
  let e' := clampI (leadOf d * 4096) (emaxOf d * 4096) e
  (e'.toNat, e' != e)

/-- Some read of a contribution is clamped. -/
def Read.clamped (d : Dev) (dc : Nat) (r : Read) : Bool := (r.reads d.blockB).any (fun c => (readOffset d dc c).2)

/-- Terms of one contribution over a block (R144 to R146, R150, R151). -/
def renderTerms (d : Dev) (h : SMap (List Int)) (t dc : Nat) (r : Rend) : List Int :=
  let b := d.blockB
  let s8 := d.lat R.OBJ_LANE_CFG_INTERP == 1
  (List.range b).map (fun m =>
    let n : Int := (t * b + m : Nat)
    let x := fun (k : Int) => histAt b h (n - k)
    let rd := fun tau => interp s8 x dc (readOffset d dc tau).1
    let y : Int := match r.read with
      | .input => x 0
      | .glide c δ => rd ((c : Int) + divFloor (δ * (m + 1 : Nat)) b).toNat
      | .fixed c => rd c
      | .fade a c => rd a + divFloor ((rd c - rd a) * (m + 1 : Nat)) b
    let g : Int := r.g0 + divFloor (((r.g1 : Int) - r.g0) * (m + 1 : Nat)) b
    divEven (y * g) (2 ^ 24))

/-! ## Admission (R154 to R157) -/

/-- Enabled objects in ascending index (R106). -/
def enabledObjs (d : Dev) : List Nat :=
  (((d.tab T.objObject).live.filter (fun e => e.1 % 16 == 0)).map (fun e => e.1 / 16)).filter (Ent.usable d)

/-- Admission order: descending PRIORITY, ascending index (R155). -/
def admissionOrder (d : Dev) (l : List Nat) : List Nat :=
  ((List.range 8).reverse.map (fun p => l.filter (fun j => Ent.priority d j == p))).flatten

/-- Length of the longest prefix whose total cost fits (R155). -/
def fitPrefix (u : Nat) : List Nat → Nat
  | [] => 0
  | c :: r => if c ≤ u then fitPrefix (u - c) r + 1 else 0

/-- Lanes healthy now (R154). -/
def healthyLanes (d : Dev) : List Nat :=
  (List.range 32).filter (fun l => d.works (laneBase l) && ((d.hd (laneBase l)).st == .ok || (d.hd (laneBase l)).st == .degraded))

/-- Units per sample of a lane (R154). -/
def laneUnits (d : Dev) : Nat := 4096 / d.rateM

/-- A(t) of R155 from the budget's P(t): `ps` is the history of P, newest first, this tick's included. -/
def admitCount (hold a p : Nat) (ps : List Nat) : Nat :=
  min p (max a ((ps.take hold).foldl min p))

/-- Fill lanes in ascending order (R156): each item's lane. An item that does not fit the units left in a lane goes whole to the next, and
the last lane takes what then remains: the spec does not say how such an item is placed. DESIGN CHOICE, log 128. -/
def fillLanes (cap : Nat) : List Nat → Nat → List Nat → List Nat
  | [], _, _ => []
  | _ :: r, _, [] => 0 :: fillLanes cap r 0 []
  | u :: r, used, l :: ls =>
    if used + u ≤ cap ∨ ls.isEmpty then l :: fillLanes cap r (used + u) (l :: ls)
    else match ls with
      | l' :: _ => l' :: fillLanes cap r u ls
      | [] => l :: fillLanes cap r (used + u) [l]

/-! ## A block of OBJ -/

/-- One object's part in a block: index, state before, its tick, and how it is heard: admitted, fading out, or silent. -/
structure ObjBlock where
  j : Nat
  adv : Adv
  heard : Bool
  leaves : Bool
  shed : Bool
  dc0 : Nat
  deriving DecidableEq, Repr

def Dev.rendOf (d : Dev) (j : Nat) : ObjR := smGet (fun _ => ObjR.zero) d.obj.rend j

def Dev.setRend (d : Dev) (j : Nat) (o : ObjR) : Dev := { d with obj := { d.obj with rend := smSet (fun _ => ObjR.zero) d.obj.rend j o } }

/-- Store the sets of a tick. -/
def Dev.putSets (d : Dev) (t : Nat) (l : List (Nat × List Contrib)) : Dev :=
  { d with obj := { d.obj with sets := smSet (fun _ => []) d.obj.sets t l } }

/-- The sets of one tick with the set of one object put in. An empty set stays listed: the object has been computed for the tick. -/
def putSet (l : List (Nat × List Contrib)) (j : Nat) (s : List Contrib) : List (Nat × List Contrib) :=
  smInsert j s (l.filter (fun e => e.1 != j))

/-- Compute the sets of tick `t` that are missing, counting walks and silent objects (R127, R130, R134), from the tables of `src`
and the object commands it has received (R31). A set that is discarded and computed again counts each time. DEDUCED, log 95. -/
def Dev.computeSets (d src : Dev) (t : Nat) : Dev :=
  if d.works panBase then
    let src := src.panView t
    let have_ := smGet (fun _ => []) d.obj.sets t
    (enabledObjs src).foldl (fun d j =>
      if have_.any (fun e => e.1 == j) then d
      else
        let p := panSet src j t
        let d := d.addFld R.PAN_WALK_COUNT p.walks
        let d := d.raiseIf (0 < p.walks) F.walkLimit
        let d := if p.silent then (d.count R.PAN_SILENT_COUNT).raise F.noSpeaker else d
        d.putSets t (putSet (smGet (fun _ => []) d.obj.sets t) j p.set)) d
  else d

/-- What the pan stage has done by a boundary: the sets of the tick that begins, where a command has made them new, and of the four that
follow (R134). Sets that exist stay, also where SETUP has changed their tables by BAR2 since. DESIGN CHOICE, log 125. -/
def Dev.panCompute (d : Dev) : Dev := [0, 1, 2, 3, 4].foldl (fun d k => d.computeSets d (d.top.tick + k)) d

/-- Boundary `t` locks the sets of tick t + 1: an object whose set is not complete then stays without it, for while the pan stage does not
work none is made (R136). An OBJ that does not work locks none: it resumes with the block at whose boundary it returns (R552). DEDUCED,
log 87. -/
def Dev.lockSets (d : Dev) : Dev :=
  let t := d.top.tick + 1
  let sets := smGet (fun _ => []) d.obj.sets t
  let open_ := if d.works panBase || !d.works objBase then [] else (enabledObjs (d.panView t)).filter (fun j => !sets.any (fun e => e.1 == j))
  { d with obj := { d.obj with unlocked := d.obj.unlocked.filter (fun e => t ≤ e.1 + 1) ++ open_.map (fun j => (t, j)) } }

/-- The objects whose set for tick `t` was not complete at its lock: those the boundary names, those that `lockSets` found, and every one
without a set (R136). -/
def heldObjs (d : Dev) (t : Nat) (late : List Nat) : List Nat :=
  let sets := smGet (fun _ => []) d.obj.sets t
  (enabledObjs d).filter (fun j => late.contains j || d.obj.unlocked.contains (t, j) || !sets.any (fun e => e.1 == j))

/-- What the block of tick `t` does to every object: admission and each object's tick (R154 to R158). An object in `held` uses its set
for the tick before (R136). Disabled objects that leave stand behind the shed ones, in the order that they would be admitted: R157
names the admission order, which lists enabled objects only. DEDUCED, log 96. -/
def objPlan (d : Dev) (t level : Nat) (held : List Nat) : List ObjBlock × Dev :=
  let s8 := d.lat R.OBJ_LANE_CFG_INTERP == 1
  let sets := smGet (fun _ => []) d.obj.sets t
  let en := enabledObjs d
  let adv := fun j =>
    let o := d.rendOf j
    let h := held.contains j
    let set := if h then (if o.on then o.lastSet else smGet (fun _ => []) (smGet (fun _ => []) d.obj.sets (t - 1)) j)
      else smGet (fun _ => []) sets j
    let o := if o.on then o else { ObjR.zero with on := true, modeNone := Ent.delayMode d j == 0 }
    advance d j o set h
  let order := (admissionOrder d en).map (fun j => (j, adv j))
  let cost := fun (a : Adv) => (a.rends.map (Rend.units s8)).foldl (· + ·) 0
  let cap := laneUnits d
  let h := d.obj.lanesFor.length * cap
  let u := h * admitOf d level / 128
  let p := fitPrefix u (order.map (fun x => cost x.2))
  let hold := d.lat R.OBJ_LANE_CFG_READMIT_HOLD
  let ps := p :: d.obj.pHist
  let a := if d.obj.pHist.isEmpty then p else admitCount hold d.obj.admitted p ps
  let inn := order.take a
  let usedIn := (inn.map (fun x => cost x.2)).foldl (· + ·) 0
  let off := (d.obj.rend.filter (fun e => e.2.on && !en.contains e.1)).map (fun e =>
    (e.1, (⟨ObjR.zero, leaving e.2.modeNone e.2.prev, e.2.dc, false, false, false, true⟩ : Adv)))
  let goers := (order.drop a).map (fun x => (x.1, x.2, true)) ++
    ((List.range 8).reverse.map (fun q => off.filter (fun x => Ent.priority d x.1 == q))).flatten.map (fun x => (x.1, x.2, false))
  let blk := fun (j : Nat) (v : Adv) (heard leaves shed : Bool) => (⟨j, v, heard, leaves, shed, (d.rendOf j).dc⟩ : ObjBlock)
  let (out, _, cuts, _) := goers.foldl (fun (acc : List ObjBlock × Nat × Nat × Bool) x =>
    let (l, room, cuts, stopped) := acc
    let (j, v, shed) := x
    if (d.rendOf j).shown then
      if !stopped && cost v ≤ room then (l ++ [blk j v true true shed], room - cost v, cuts, false)
      else (l ++ [blk j v false false shed], room, cuts + 1, true)
    else (l ++ [blk j v false false shed], room, cuts, stopped)) ([], h - usedIn, 0, false)
  let d := d.addFld R.OBJ_CUT_COUNT cuts
  let d := { d with obj := { d.obj with admitted := a, pHist := ps.take (max 1 hold) } }
  let shed := order.length - a
  let short := decide (p < order.length) && admitOf d level == 128
  let d := d.setFlds [(R.OBJ_ADMIT_ADMITTED, a), (R.OBJ_ADMIT_SHED, shed), (R.OBJ_UNITS_CAP_CAP, u)]
  let d := if short then d.note .objShort else d
  (inn.map (fun x => blk x.1 x.2 true false false) ++ out, d)

/-- A contribution as heard: its gains are 0 where the object was not heard before or leaves now (R144, R157). -/
def heardRend (shown leaves : Bool) (r : Rend) : Rend :=
  { r with g0 := if shown then r.g0 else 0, g1 := if leaves then 0 else r.g1 }

/-- OBJ_STAT of an object after a block (R163). -/
def statWord (d : Dev) (x : ObjBlock) : Nat :=
  let n := if x.heard then x.adv.rends.length else 0
  let entering := x.adv.enters || (decide (0 < n) && !x.leaves && !(d.rendOf x.j).shown)
  let phase := if x.adv.silent then 3 else if x.leaves || (x.adv.reseat && x.heard) then 2 else if x.heard && entering then 1
    else if x.heard && x.adv.leaves then 2 else 0
  let cl := x.adv.rends.any (fun r => r.read.clamped d x.adv.dc)
  b2n (x.heard && decide (0 < n)) * 2 ^ 31 + b2n x.shed * 2 ^ 30 + phase * 2 ^ 28 + min n 255 * 2 ^ 20
    + b2n (cl && x.heard) * 2 ^ 19 + x.adv.dc

/-- Add the samples of a term list into a feed. -/
def addFeed (b : Nat) (feeds : SMap (List Int)) (s : Nat) (l : List Int) : SMap (List Int) :=
  let z := List.replicate b (0 : Int)
  smSet (fun _ => z) feeds s (List.zipWith (· + ·) (smGet (fun _ => z) feeds s) l)

/-- Keep what the stores can still reach of an object's input (R137, R138). -/
def trimHist (d : Dev) (t : Nat) (h : SMap (List Int)) : SMap (List Int) :=
  let keep := (cdMax d + winOf d + 16) / d.blockB + 2
  h.filter (fun e => t < e.1 + keep)

/-- What OBJ reports of the last tick where it rendered nothing in it (R161, R163, R164, R551). -/
def Dev.objRested (d : Dev) : Dev :=
  let d := d.setFlds [(R.OBJ_ADMIT_ADMITTED, 0), (R.OBJ_ADMIT_SHED, 0), (R.OBJ_UNITS_USED_USED, 0), (R.OBJ_UNITS_CAP_CAP, 0)]
  let d := (List.range 32).foldl (fun d l => d.setFld (R.LANE_UNITS_UNITS l) 0) d
  { d with regs := smDrop (fun a => 0xE8000 ≤ a && a < 0xEA000) d.regs }

/-- A word of the differential delay memory: what BAR2 wrote, or an earlier run left, since RUN last covered it, else the newest input
sample of that slot among the last W (R58, R137). -/
def Dev.windowWord (d : Dev) (i : Nat) : Word :=
  match d.obj.window.find? (fun e => e.1 == i) with
  | some e => e.2
  | none =>
    let w := winOf d
    let o := d.rendOf (i / w)
    let b := d.blockB
    let last : Int := match o.hist.getLast? with | some e => (e.1 * b + b - 1 : Nat) - (o.dc : Int) | none => -1
    let n := last - (last - (i % w : Nat)) % w
    BitVec.ofNat 32 (tc 32 (histAt b o.hist n))

/-- Object `j` stops rendering: its window keeps what it holds, for the device never fills it (R139, R552). -/
def Dev.windowKeep (d : Dev) (j : Nat) : Dev :=
  let w := winOf d
  let l := (List.range w).filterMap (fun i =>
    let v := d.windowWord (j * w + i)
    if v = 0#32 then none else some (j * w + i, v))
  let below := d.obj.window.filter (fun e => decide (e.1 < j * w))
  let above := d.obj.window.filter (fun e => decide (j * w + w ≤ e.1))
  { d with obj := { d.obj with window := below ++ l ++ above } }

/-- Every object stops rendering. -/
def Dev.windowsKeep (d : Dev) : Dev := (d.obj.rend.map (·.1)).foldl Dev.windowKeep d

/-- A lane that does not work or is in FAULT, or that lost the running block, adds nothing to the feeds (R47, R159; log 97). -/
def laneSilent (d : Dev) (l : Nat) : Bool :=
  d.obj.lost.contains l || !d.works (laneBase l) || (d.hd (laneBase l)).st == .fault

/-- First byte of an object's coarse line, and samples in it (R138). -/
def coarseBase (d : Dev) (j : Nat) : Nat :=
  d.lat R.OBJ_CD_BASE_LO_BASE_LO * 2 ^ 12 + d.lat R.OBJ_CD_BASE_HI_BASE_HI * 2 ^ 32 + j * ((2 ^ d.lat R.OBJ_LANE_CFG_CD_LOG2 + 1024) * 4)
def coarseLen (d : Dev) : Nat := 2 ^ d.lat R.OBJ_LANE_CFG_CD_LOG2 + 1024

/-- Traffic of an object's coarse line in block `t` (R138, R495): the input block is written, and the samples that leave the line for
the window are read where Dc is not 0, from the object's start on (R139). Answers the samples as they are read. -/
def Dev.coarseTraffic (d : Dev) (t j dc0 dc : Nat) (l : List Int) : List (Nat × List Int × Bool) × Dev :=
  if d.lat R.OBJ_LANE_CFG_CD_LOG2 = 0 then ([], d)
  else
    let b := d.blockB
    let d := d.audioWrite .obj (coarseBase d j) (coarseLen d) (t * b) l
    if dc = 0 then ([], d)
    else
      let o := d.rendOf j
      let lo : Int := max ((if o.on then o.since else t) * b : Nat) ((t * b : Nat) - (dc0 : Int))
      let hi : Int := (t * b + b : Nat) - (dc : Int)
      d.audioRead .obj (coarseBase d j) (coarseLen d) lo.toNat (hi - lo).toNat

/-- Process block `t` of OBJ: inputs from the destination buses, feeds as saturated H7.24 samples (R149 to R160). `late` lists
the objects whose coarse-line samples are late, `held` those whose set is. Clamps, reseats and late samples count for every enabled
object, rendered or not, since its state advances as if it were (R158). DEDUCED, log 98. Of a disabled one only the fade is heard. -/
def objBlock (d : Dev) (t level : Nat) (bus : Nat → List Int) (late held : List Nat) : SMap (List Int) × Dev :=
  if !d.inBlock objBase then
    ([], { d with obj := { d.windowsKeep.obj with rend := [], sets := [], pHist := [], admitted := 0, lost := [] } }.objRested)
  else
    let b := d.blockB
    let s8 := d.lat R.OBJ_LANE_CFG_INTERP == 1
    let held := heldObjs d t held
    let d := if held.isEmpty then d
      else ((d.addFld R.PAN_HELD_COUNT held.length).raise F.setHeld).note .panHeld
    let (plan, d) := objPlan d t level held
    -- traffic of the coarse lines
    let (read, d) := plan.foldl (fun (acc : SMap (List (Nat × List Int × Bool)) × Dev) x =>
      if x.adv.next.on then
        let (l, d) := acc.2.coarseTraffic t x.j x.dc0 x.adv.dc (bus (Ent.bus d x.j))
        (if l.isEmpty then acc.1 else acc.1 ++ [(x.j, l)], d)
      else acc) ([], d)
    -- inputs of this block enter the stores, and what was read of the coarse lines the windows; samples that do not come are late
    let isLate := fun (x : ObjBlock) => late.contains x.j && x.adv.dc != 0
    let bad := fun (x : ObjBlock) => isLate x || (smGet (fun _ => []) read x.j).any (fun s => !s.2.2)
    let hist := fun (x : ObjBlock) =>
      let o := d.rendOf x.j
      let h := smSet (fun _ => []) o.hist t (bus (Ent.bus d x.j))
      if isLate x then zeroLate b t x.dc0 x.adv.dc h else (smGet (fun _ => []) read x.j).foldl (putSamples b) h
    let plan := plan.map (fun x => (x, hist x))
    -- assignment to lanes, in admission order
    let items := (plan.map (fun x => if x.1.heard then
        x.1.adv.rends.map (fun r => (x.1, x.2, heardRend (d.rendOf x.1.j).shown x.1.leaves r)) else [])).flatten
    let lanes := fillLanes (laneUnits d) (items.map (fun i => Rend.units s8 i.2.2)) 0 d.obj.lanesFor
    let items := items.zip lanes
    let feeds := items.foldl (fun fs i =>
      if laneSilent d i.2 then fs
      else addFeed b fs i.1.2.2.spk (renderTerms d i.1.2.1 t i.1.1.adv.dc i.1.2.2)) ([] : SMap (List Int))
    -- counters and status
    let used := (items.map (fun i => Rend.units s8 i.1.2.2)).foldl (· + ·) 0
    let d := d.setFld R.OBJ_UNITS_USED_USED used
    let d := (List.range 32).foldl (fun d l =>
      d.setFld (R.LANE_UNITS_UNITS l) (min 8191 (((items.filter (fun i => i.2 == l)).map
        (fun i => Rend.units s8 i.1.2.2)).foldl (· + ·) 0))) d
    let d := plan.foldl (fun d x =>
      let c := x.1.j % 8
      let cl := (x.1.adv.next.on || x.1.heard) && x.1.adv.rends.any (fun r => r.read.clamped d x.1.adv.dc)
      let d := if cl then (d.count R.OBJ_CLAMP_COUNT).raise (F.objClamp c) else d
      let d := if x.1.adv.reseat then (d.count R.OBJ_RESEAT_COUNT).raise (F.reseat c) else d
      if bad x.1 then (d.count R.OBJ_CD_LATE_COUNT).raise (F.cdLate c) else d) d
    let sat := feeds.map (fun e => (e.1, (e.2.filter (fun v => satH v != v)).length))
    let d := sat.foldl (fun d e => if e.2 = 0 then d else (d.addFld R.OBJ_FEED_SAT_COUNT e.2).raise (F.feedSat (e.1 % 8))) d
    let stats := plan.map (fun x => (x.1.j, statWord d x.1))
    let d := { d with regs := smDrop (fun a => 0xE8000 ≤ a && a < 0xEA000) d.regs }
    let d := stats.foldl (fun d e => d.setReg (0xE8000 + 4 * e.1) (BitVec.ofNat 32 e.2)) d
    let rend := plan.foldl (fun (m : SMap ObjR) x =>
      let o := x.1.adv.next
      smSet (fun _ => ObjR.zero) m x.1.j
        (if o.on then { o with hist := trimHist d t x.2, shown := x.1.heard && !x.1.leaves, since := if (d.rendOf x.1.j).on then o.since else t }
          else ObjR.zero)) []
    -- slots of the windows that the block covers (R137)
    let w := winOf d
    let covered := fun (i : Nat) => plan.any (fun x =>
      x.1.j == i / w && decide (((i % w : Nat) - ((t * b : Nat) : Int) + (x.1.adv.dc : Int)) % w < b))
    let ends := plan.filter (fun x => !x.1.adv.next.on && (d.rendOf x.1.j).on)
    let d := { d with obj := { d.obj with window := d.obj.window.filter (fun e => !covered e.1) } }
    let d := ends.foldl (fun d x => (d.setRend x.1.j { d.rendOf x.1.j with hist := x.2 }).windowKeep x.1.j) d
    let d := { d with obj := { d.obj with rend := rend, lost := [], sets := d.obj.sets.filter (fun e => t ≤ e.1) } }
    (feeds.map (fun e => (e.1, e.2.map satH)), d)

/-- A boundary fixes the lanes of the next decision (R154). With no decision behind it, at an entry into RUN or where OBJ resumes, the
block that begins takes the lanes healthy now (R552, log 87). -/
def Dev.pickLanes (d : Dev) : Dev :=
  let n := (healthyLanes d).length
  { d with obj := { d.obj with lanesFor := if d.obj.pHist.isEmpty then healthyLanes d else d.obj.lanesNext, lanesNext := healthyLanes d } }.setFld
    R.OBJ_LANES_HEALTHY (if d.top.st == DevState.run then n else d.fld R.OBJ_LANES_HEALTHY)

/-- A lane fails its parity check or does not complete its block (R159); the next decision, at the next boundary, excludes it. -/
def Dev.laneLost (d : Dev) (l : Nat) (parity : Bool) : Dev :=
  if d.works (laneBase l) && decide (l < 32) then
    let d := d.raise (if parity then F.laneParity l else F.laneOvertime l)
    let d := d.setHealth (laneBase l) .fault (if parity then 1 else 2) false 0
    let d := (d.raise (F.laneLost (l / 4))).count R.OBJ_LANE_LOST_COUNT
    { d with obj := { d.obj with lost := d.obj.lost ++ [l] } }
  else d

/-- Sets that were computed ahead, again from the values latched now (R161). -/
def Dev.renewSets (d : Dev) : Dev :=
  { d with obj := { d.obj with sets := d.obj.sets.map (fun e => (e.1, e.2.map (fun x => (x.1, (panSet (d.panView e.1) x.1 e.1).set)))) } }

/-- Entry into RUN: the renderer starts from nothing (R139, R161). -/
def Dev.objEnterRun (d : Dev) : Dev :=
  let d := d.windowsKeep
  let old := (d.lat R.OBJ_DSUB_DSUB, d.lat R.OBJ_LANE_CFG_INTERP)
  let d := [0xE0104, 0xE0108, 0xE010C, 0xE0110, 0xE0114, 0xE0118].foldl Dev.latchReg d
  let d := if old = (d.lat R.OBJ_DSUB_DSUB, d.lat R.OBJ_LANE_CFG_INTERP) then d else d.renewSets
  { d with obj := { d.obj with rend := [], pHist := [], admitted := 0, lost := [],
                               lanesFor := healthyLanes d, lanesNext := healthyLanes d } }

end Sys2Proof.Machine
end

