-- ==== Sys2Proof/Machine/Xpt.lean ====
section
/-! DEFINITION. The crosspoint (spec 05 R166 to R186, R193, R194): node gains and their ramps, clip policies, mixing, DSP sends
and test oscillators. -/
namespace Sys2Proof.Machine

/-! ## Banks -/

/-- A block of every channel of a bank; a channel that is not listed carries zeros. -/
abbrev Bank := SMap (List Int)

/-- Block of a channel. -/
def Bank.at (d : Dev) (m : Bank) (k : Nat) : List Int :=
  match smGet (fun _ => []) m k with
  | [] => List.replicate d.blockB 0
  | l => l

/-- Put a block into a bank, leaving all-zero blocks unlisted. -/
def Bank.put (m : Bank) (k : Nat) (l : List Int) : Bank := smSet (fun _ => []) m k (if l.all (· == 0) then [] else l)

/-- The change over one block from an old to a new signal (R199, R214, R223, R247). -/
def glide (b : Nat) (old new : List Int) : List Int :=
  (List.zip old new).zipIdx.map (fun x => x.1.1 + divFloor ((x.1.2 - x.1.1) * (x.2 + 1 : Nat)) b)

/-- Sum of a list. -/
def sumI (l : List Int) : Int := l.foldl (· + ·) 0

/-- Largest magnitude of a block. -/
def peakOf (l : List Int) : Nat := l.foldl (fun m v => max m v.natAbs) 0

/-! ## Tables (R169, R178, R182) -/

namespace XptT
/-- Node number of slot `s` and bus `b`. -/
def node (s b : Nat) : Nat := 1024 * b + s
/-- Code of a node in a node table. -/
def code (m : SMap Word) (n : Nat) : Nat := bits (wordAt m (n / 2)) (16 * (n % 2)) 16
/-- Ramp length of a bus in ticks. -/
def ramp (d : Dev) (b : Nat) : Nat :=
  let r := d.liveBits T.xptClip b 8 7
  if r = 0 then 4 else min r 64
/-- POLICY of a bus: 0 LIMIT, 1 AUTOSCALE, 2 SATURATE; 3 acts as 0. -/
def policy (d : Dev) (b : Nat) : Nat := d.liveBits T.xptClip b 0 2 % 3
def sendEn (d : Dev) (k : Nat) : Bool := d.liveBits T.xptBus k 31 1 == 1
def sendBus (d : Dev) (k : Nat) : Nat := d.liveBits T.xptBus k 0 10
end XptT

/-! ## Node commands (R170, R171, R177) -/

/-- XPT_NODES: its completion and its effect on both copies of the node table. -/
def xptNodes (d : Dev) (c : Cmd) (late : Bool) : Cpl × Dev :=
  let bus := c.u16 16
  let src := c.u16 18
  let count := c.u16 20
  let fill := bitAt (c.u8 22) 0
  let row := bitAt (c.u8 22) 1
  let (lastS, lastB) := if row then (src, bus + (count - 1)) else (src + (count - 1), bus)
  if (if fill then 1024 else 20) < count then (.bad 3, d)
  else if count = 0 then (⟨lateOk late, 0, 0⟩, d)
  else if d.nBus ≤ lastS ∨ d.nBus ≤ lastB then (.bad 3, d)
  else
    let set := fun (d : Dev) (i : Nat) =>
      let n := if row then XptT.node src (bus + i) else XptT.node (src + i) bus
      d.writeBothBits T.xptNode (n / 2) (16 * (n % 2)) 16 (c.u16 (24 + if fill then 0 else 2 * i))
    (⟨lateOk late, 0, 0⟩, (List.range count).foldl set d)

/-- XPT_RAMP_SET: writes XPT_RAMP alone in both copies. -/
def xptRampSet (d : Dev) (c : Cmd) (late : Bool) : Cpl × Dev :=
  let first := c.u16 16
  let count := c.u16 18
  let ramp := min (c.u8 20) 64
  if count ≠ 0 ∧ d.nBus < first + count then (.bad 3, d)
  else (⟨lateOk late, 0, 0⟩,
    (List.range count).foldl (fun d i => d.writeBothBits T.xptClip (first + i) 8 7 ramp) d)

/-! ## Ramps (R174 to R176) -/

/-- Multiplier of a ramp at sample k, counted from 1 at its first sample; k = 0 is the sample before it (R174). -/
def NodeRamp.at (r : NodeRamp) (b k : Nat) : Nat :=
  if r.len * b ≤ k then r.g1
  else ((r.g0 : Int) + divAway (((r.g1 : Int) - r.g0) * k) (r.len * b)).toNat

/-- Words in which two sparse maps differ. -/
def smDiff (a b : SMap Word) : List Nat :=
  if a = b then []
  else (a.filter (fun e => smGet wordDefault b e.1 != e.2)).map Prod.fst
    ++ (b.filter (fun e => smGet wordDefault a e.1 == 0#32 && e.2 != 0#32)).map Prod.fst

/-- The node lies in the banks at the current rate (R169). -/
def nodeUsed (d : Dev) (n : Nat) : Bool := n % 1024 < d.nBus && n / 1024 < d.nBus

/-- Start the ramps of block `t`: one for every node whose target differs from what the last block used (R174, R175). -/
def Dev.startRamps (d : Dev) (t : Nat) : Dev :=
  let live := (d.tab T.xptNode).live
  match d.xpt.last with
  | none => { d with xpt := { d.xpt with ramps := [], last := some live, scale := [] } }
  | some old =>
    let b := d.blockB
    let upd := fun (m : SMap NodeRamp) (n : Nat) =>
      if nodeUsed d n then
        let g1 := gainM (XptT.code live n)
        let was := gainM (XptT.code old n)
        if g1 = was then m
        else
          let g0 := match m.find? (fun e => e.1 == n) with
            | some e => e.2.at b ((t - e.2.first) * b)
            | none => was
          smSet (fun _ => (⟨0, 0, 0, 0⟩ : NodeRamp)) m n ⟨g0, g1, t, XptT.ramp d (n / 1024)⟩
      else m
    let ramps := (smDiff old live).foldl (fun m w => upd (upd m (2 * w)) (2 * w + 1)) d.xpt.ramps
    { d with xpt := { d.xpt with ramps := ramps, last := some live } }

/-- A node as one block uses it: source slot, multiplier at the sample before, target, multiplier by sample. -/
structure NodeRun where
  slot : Nat
  before : Nat
  target : Nat
  g : List Nat
  deriving DecidableEq, Repr

/-- Nodes of the used matrix that are not at rest at mute, by bus; `g` holds a node's multiplier by sample in block `t`. -/
def nodeRuns (d : Dev) (t : Nat) : SMap (List NodeRun) :=
  let b := d.blockB
  let live := (d.tab T.xptNode).live
  let halves := (live.map (fun e => [2 * e.1, 2 * e.1 + 1])).flatten.filter (fun n => XptT.code live n != 0)
  let all := halves ++ (d.xpt.ramps.map Prod.fst).filter (fun n => XptT.code live n == 0)
  (all.filter (nodeUsed d)).foldl (fun m n =>
    let target := gainM (XptT.code live n)
    let par := d.xpt.parity.find? (fun e => e.1 == n)
    let run : NodeRun := match d.xpt.ramps.find? (fun e => e.1 == n) with
      | some e => ⟨n % 1024, e.2.at b ((t - e.2.first) * b), target, (List.range b).map (fun i =>
          match par with
          | some q => if q.2 ≤ i then target else e.2.at b ((t - e.2.first) * b + i + 1)
          | none => e.2.at b ((t - e.2.first) * b + i + 1))⟩
      | none => ⟨n % 1024, target, target, List.replicate b target⟩
    smSet (fun _ => []) m (n / 1024) (smGet (fun _ => []) m (n / 1024) ++ [run])) []

/-- Ramps that have ended with block `t`, or that a parity error has ended, are dropped (R174, R194). -/
def Dev.endRamps (d : Dev) (t : Nat) : Dev :=
  { d with xpt := { d.xpt with
      ramps := d.xpt.ramps.filter (fun e => t + 1 < e.2.first + e.2.len && !d.xpt.parity.any (fun q => q.1 == e.1)),
      parity := [] } }

/-! ## Mixing (R172, R179 to R181) -/

/-- S_b of R172 for each sample of a block. -/
def mixColumn (d : Dev) (src : Bank) (runs : List NodeRun) : List Int :=
  let b := d.blockB
  runs.foldl (fun acc r =>
    List.zipWith (· + ·) acc ((List.zip (Bank.at d src r.slot) r.g).map (fun p => divEven (p.1 * p.2) (2 ^ 24))))
    (List.replicate b 0)

/-- Scale target a_t (R180). -/
def scaleTarget (auto : Bool) (n : Nat) : Nat := if auto && decide (1 ≤ n) then (divAway (2 ^ 24) n).toNat else 2 ^ 24

/-- No block has been mixed in the tick that ended: AUTOSCALE is engaged on no bus (R179, R193). -/
def Dev.xptRested (d : Dev) : Dev := { d with xpt := .reset }.setFld R.XPT_AUTO_ENGAGED 0

/-- Mix block `t`: buses after their clip policies. `limOff` lists the buses that feed a chain whose limiter is bypassed or
shed for the block (R179). -/
def xptBlock (d : Dev) (t : Nat) (src : Bank) (limOff : List Nat) : Bank × Dev :=
  if !d.inBlock xptBase then
    ([], d.xptRested)
  else
    let d := d.startRamps t
    let b := d.blockB
    let runs := nodeRuns d t
    let engaged := (limOff.filter (fun x => XptT.policy d x == 0 && x < d.nBus)).eraseDups
    let fresh := engaged.filter (fun x => !d.xpt.auto.contains x)
    let freed := d.xpt.auto.filter (fun x => !engaged.contains x && XptT.policy d x == 0)
    let busy := runs.map Prod.fst ++ (d.xpt.scale.map Prod.fst).filter (fun x => !runs.any (fun e => e.1 == x))
    let one := fun (acc : Bank × SMap Nat × Nat × Nat) (x : Nat) =>
      let rs := smGet (fun _ => []) runs x
      let pol := if engaged.contains x then 1 else XptT.policy d x
      let n := (rs.filter (fun r => r.before != 0 || r.target != 0)).length
      let at_ := scaleTarget (pol == 1) n
      let before : Int := (smGet (fun _ => 2 ^ 24) d.xpt.scale x : Nat)
      let ys := (mixColumn d src rs).zipIdx.map (fun s =>
        divEven (s.1 * (before + divFloor (((at_ : Int) - before) * (s.2 + 1 : Nat)) b)) (2 ^ 24))
      let out := if pol = 2 then ys.map (clampI (-0x1000000) 0xFFFFFF) else ys.map satH
      let cut := ((List.zip ys out).filter (fun p => p.1 != p.2)).length
      (acc.1.put x out, smSet (fun _ => 2 ^ 24) acc.2.1 x at_, acc.2.2.1 + (if pol = 2 then 0 else cut),
        acc.2.2.2 + (if pol = 2 then cut else 0))
    let (buses, scale, sat, clip) := busy.foldl one ([], [], 0, 0)
    let d := { d with xpt := { d.xpt with scale := scale, auto := engaged } }
    let d := (d.setFld R.XPT_AUTO_ENGAGED engaged.length).raiseIf (!fresh.isEmpty) F.autoEngaged
    let d := d.raiseIf (!freed.isEmpty) F.autoReleased
    let d := (d.addFld R.XPT_SAT_COUNT sat).raiseIf (0 < sat) F.busSat
    let d := (d.addFld R.XPT_CLIPPED_COUNT clip).raiseIf (0 < clip) F.clipped
    (buses, d.endRamps t)

/-- Entry into RUN: every node at its target, every scale factor 2^24 (R176, R180). -/
def Dev.xptEnterRun (d : Dev) : Dev := { d with xpt := .reset }

/-- A parity error in a node's ramp state in the running tick: the target from sample `k` on (R194). -/
def Dev.xptParity (d : Dev) (n k : Nat) : Dev :=
  if d.works xptBase && decide (n < 0x100000) then
    (({ d with xpt := { d.xpt with parity := d.xpt.parity ++ [(n, k)] } }.count R.XPT_PARITY_COUNT).raise F.xptParity).note
      .xptParity
  else d

/-! ## DSP sends (R182) -/

/-- Send block: by channel. -/
def sendBlock (d : Dev) (buses : Bank) : Bank :=
  if d.inBlock xptBase then
    (List.range 256).foldl (fun m k =>
      if XptT.sendEn d k && decide (XptT.sendBus d k < d.nBus) then m.put k (Bank.at d buses (XptT.sendBus d k)) else m) []
  else []

/-! ## Test oscillators (R184 to R186) -/

/-- The hash of WHITE (R185). -/
def whiteHash (h : Word) : Word :=
  let h := h ^^^ (h >>> 16)
  let h := h * 0x7FEB352D#32
  let h := h ^^^ (h >>> 15)
  let h := h * 0x846CA68B#32
  h ^^^ (h >>> 16)

/-- Raw value r of sample number `n` = t * B + m (R185). -/
def oscRaw (wave inc phase0 n : Nat) : Int :=
  let φ := (phase0 + inc * n) % 2 ^ 32
  if wave = 0 then divAway ((cosSinTurn φ (2 ^ 32)).2 * 2 ^ 24) (2 ^ 100)
  else if wave = 1 then (if φ < 2 ^ 31 then 0x1000000 else -0x1000000)
  else if wave = 3 then (if φ < inc then 0x1000000 else 0)
  else (whiteHash (BitVec.ofNat 32 n ^^^ BitVec.ofNat 32 phase0)).toInt / 2 ^ 7

/-- Block `t` of oscillator `k`. -/
def oscBlock (d : Dev) (k t : Nat) : List Int :=
  let b := d.blockB
  if d.works xptBase && d.flag (R.OSC_CTL_EN k) then
    let g := gainM (d.fld (R.OSC_CTL_LEVEL k))
    (List.range b).map (fun m =>
      satH (divEven (oscRaw (d.fld (R.OSC_CTL_WAVE k)) (d.fld (R.OSC_INC_INC k)) (d.fld (R.OSC_PHASE_PHASE0 k))
        (t * b + m) * g) (2 ^ 24)))
  else List.replicate b 0

end Sys2Proof.Machine
end

