-- ==== Sys2Proof/Machine/Mtr.lean ====
section
/-! DEFINITION. Meters (spec 05 R187 to R192, R195): levels of the meter points, and snapshots into an MTR ring. -/
namespace Sys2Proof.Machine

/-! ## Level codes (R188) -/

/-- log10(2), scale 2^100. -/
def log10of2 : Int := 381600854690147056244358827360

/-- log10 of a positive value, the nearest binary64 value. Log 18. -/
def log10Fl (a : Fl) : Fl := b64.round (log2Fix a * log10of2) (-164)

/-- Level in dB of an amplitude. -/
def dbOfPeak (p : Fl) : Option Fl := if p.isZero then none else some (b64.mul ⟨20, 0⟩ (log10Fl p))

/-- Level in dB of a mean square. -/
def dbOfPower (p : Fl) : Option Fl := if p.isZero then none else some (b64.mul ⟨10, 0⟩ (log10Fl p))

/-- Level code of a level (R188). -/
def levelCode : Option Fl → Nat
  | none => 0
  | some l => (clampI 1 65535 (32768 + l.awayMul 8)).toNat

/-! ## Points (R187, R189) -/

namespace MtrT
def w0 (d : Dev) (p : Nat) : Nat := d.live T.mtrPoint (2 * p)
def w1 (d : Dev) (p : Nat) : Nat := d.live T.mtrPoint (2 * p + 1)
def kind (d : Dev) (p : Nat) : Nat := let k := bits (w0 d p) 28 3; if 4 < k then 0 else k
def index (d : Dev) (p : Nat) : Nat := bits (w0 d p) 0 11
def hold (d : Dev) (p : Nat) : Nat := min 1000 (bits (w1 d p) 20 12)
def decay (d : Dev) (p : Nat) : Nat := bits (w1 d p) 8 12
def shift (d : Dev) (p : Nat) : Nat := bits (w1 d p) 0 4
/-- Channels of a kind at the current rate. -/
def range (d : Dev) (k : Nat) : Nat :=
  if k = 1 ∨ k = 2 then d.nBus else if k = 3 then d.nFeed else if k = 4 then d.nChain else 0
/-- The point taps a signal. -/
def on (d : Dev) (p : Nat) : Bool := bitAt (w0 d p) 31 && kind d p != 0 && index d p < range d (kind d p)
end MtrT

/-- binary64 nearest to 0.01. -/
def hundredth : Fl := b64.div ⟨1, 0⟩ ⟨100, 0⟩

/-- One block of one point (R189). -/
def pointBlock (d : Dev) (p : Nat) (x : List Int) (o : Point) : Point :=
  let b := d.blockB
  let f := fun (v : Int) => (⟨v, -24⟩ : Fl)
  let pk := x.foldl (fun m v => m.max (f v).abs) Fl.zero
  let sum := x.foldl (fun s v => b64.add s (b64.mul (f v) (f v))) Fl.zero
  let pw := b64.div sum ⟨b, 0⟩
  let ms := b64.add o.ms (b64.div (b64.sub pw o.ms) ⟨2 ^ MtrT.shift d p, 0⟩)
  let τ := b64.div ⟨b, 0⟩ ⟨d.fs, 0⟩
  let l := dbOfPeak pk
  let ge := match l, o.hold with
    | _, none => true
    | none, some _ => false
    | some a, some h => h.le a
  let (hold, timer) :=
    if ge then (l, Fl.zero)
    else
      let t := b64.add o.timer τ
      if (b64.mul ⟨MtrT.hold d p, 0⟩ hundredth).lt t && MtrT.decay d p != 0 then
        (match o.hold with
          | some h =>
            let h' := b64.sub h (b64.mul (b64.div ⟨MtrT.decay d p, 0⟩ ⟨16, 0⟩) τ)
            some (match l with | some a => a.max h' | none => h')
          | none => none, t)
      else (o.hold, t)
  ⟨ms, hold, timer, pk, o.top.max pk⟩

/-- A point whose ms and H start afresh keeps the peak of its snapshot interval, which covers every block (R189, R191). -/
def Point.restart (o : Point) : Point := { Point.zero with top := o.top }

/-- Points whose live entry, as it reads, differs from the one last used (R189, 00 R8). -/
def mtrChanged (d : Dev) : List Nat :=
  (smDiff (readMap T.mtrPoint d.mtr.last) (readMap T.mtrPoint (d.tab T.mtrPoint).live)).map (· / 2)

/-- Levels of block `t`: `sig` gives the block of a kind and index. -/
def mtrBlock (d : Dev) (sig : Nat → Nat → List Int) : Dev :=
  if !d.works mtrBase then d
  else
    let live := (d.tab T.mtrPoint).live
    let changed := mtrChanged d
    let keep := d.mtr.pts.map (fun e => (e.1, if changed.contains e.1 then e.2.restart else e.2))
    let ids := ((live.map (fun e => e.1 / 2)).eraseDups).filter (MtrT.on d)
    let pts := ids.foldl (fun m p =>
      smSet (fun _ => Point.zero) m p
        (pointBlock d p (sig (MtrT.kind d p) (MtrT.index d p)) (smGet (fun _ => Point.zero) keep p))) keep
    let d := { d with mtr := { d.mtr with pts := pts, last := live } }
    let d := { d with regs := smDrop (fun a => 0x138000 ≤ a && a < 0x140000) d.regs }
    ids.foldl (fun d p =>
      let o := smGet (fun _ => Point.zero) pts p
      d.setFlds [(R.MTR_LEVEL0_RMS p, levelCode (dbOfPower o.ms)), (R.MTR_LEVEL0_PEAK p, levelCode (dbOfPeak o.peak)),
        (R.MTR_LEVEL1_HOLD p, levelCode o.hold)]) d

/-- Entry into RUN: mean squares from zero, holds from minus infinity (R189). -/
def Dev.mtrEnterRun (d : Dev) : Dev :=
  { d with mtr := { d.mtr with pts := d.mtr.pts.map (fun e => (e.1, e.2.restart)), last := (d.tab T.mtrPoint).live } }

/-! ## Snapshots (R190 to R192) -/

/-- Entries of a snapshot of `n` points. -/
def snapEntries (n : Nat) : Nat := (n + 7) / 8

/-- MTR_CFG at its apply boundary (R190). -/
def mtrCfg (d : Dev) (c : Cmd) (late : Bool) : Cpl × Dev :=
  let ring := c.u8 16 % 64
  let en := bitAt (c.u8 17) 0
  let clear := bitAt (c.u8 17) 1
  let n := c.u16 18
  let first := c.u16 20
  let count := c.u16 22
  if en ∧ (d.ringType ring ≠ 3 ∨ !d.ringEnabled ring ∨ d.ringSize ring < snapEntries count ∨ n = 0 ∨ count = 0 ∨
      4096 < first + count) then (⟨.noSpace, 0, 0⟩, d)
  else
    let d := d.setFlds [(R.MTR_SNAP_INTERVAL, n), (R.MTR_SNAP_RING, ring), (R.MTR_SNAP_EN, b2n en),
      (R.MTR_RANGE_COUNT, count), (R.MTR_RANGE_FIRST, first)]
    let clr := fun (o : Point) => { o with top := Fl.zero, hold := if clear then none else o.hold }
    (⟨lateOk late, 0, 0⟩,
      { d with mtr := { d.mtr with start := d.top.tick, done := d.top.tick,
                                   pts := d.mtr.pts.map (fun e => (e.1, clr e.2)) } })

/-- Reading of a point: peak of the interval, RMS and hold; zeros for a point that taps nothing (R187, R191). -/
def reading (d : Dev) (p : Nat) : List Nat :=
  if MtrT.on d p then
    let o := smGet (fun _ => Point.zero) d.mtr.pts p
    leBytes 2 (levelCode (dbOfPeak o.top)) ++ leBytes 2 (levelCode (dbOfPower o.ms)) ++ leBytes 2 (levelCode o.hold)
  else [0, 0, 0, 0, 0, 0]

/-- MTR_LEVEL0 and MTR_LEVEL1 as read, word `i`: code 0 in every field of a point that taps nothing (R187). -/
def mtrLevel (d : Dev) (i : Nat) : Nat := if MtrT.on d (i / 2) then (d.reg (0x138000 + 4 * i)).toNat else 0

/-- Entry `k` of a snapshot at boundary `t` (R191). -/
def snapEntry (d : Dev) (t k : Nat) : List Nat :=
  let first := d.fld R.MTR_RANGE_FIRST + 8 * k
  let n := min 8 (d.fld R.MTR_RANGE_COUNT - 8 * k)
  let reads := ((List.range n).map (fun i => reading d (first + i))).flatten
  leBytes 6 t ++ leBytes 2 first ++ reads ++ List.replicate (48 - reads.length) 0 ++ [n, 0, 0, 0, 0, 0, 0]

/-- A snapshot is due at the current boundary and has not been handled (R191). -/
def snapDue (d : Dev) : Bool :=
  let n := d.fld R.MTR_SNAP_INTERVAL
  d.works mtrBase && d.flag R.MTR_SNAP_EN && n != 0 && d.mtr.done != d.top.tick && d.mtr.start < d.top.tick &&
    (d.top.tick - d.mtr.start) % n == 0

/-- Write the snapshot that is due, whole, or drop it (R191, R192). -/
def Dev.mtrSnapshot (d : Dev) : Dev :=
  if snapDue d then
    let t := d.top.tick
    let r := d.fld R.MTR_SNAP_RING
    let n := snapEntries (d.fld R.MTR_RANGE_COUNT)
    let d := { d with mtr := { d.mtr with done := t } }
    let d := if d.ringLive r && d.ringType r == 3 && decide (n ≤ d.ringFree r) then
        ((List.range n).foldl (fun x k => x.ringPut r (snapEntry d t k)) d).setFld R.MTR_LAST_TICK t
      else
        (((d.addFld (R.RING_DROP_COUNT r) n).raise F.evtLost).count R.MTR_DROP_COUNT).raise F.snapDrop
    { d with mtr := { d.mtr with pts := d.mtr.pts.map (fun e => (e.1, { e.2 with top := Fl.zero })) } }
  else d

end Sys2Proof.Machine
end

