-- ==== Sys2Proof/Machine/Out.lean ====
section
/-! DEFINITION. Output chains, coefficient banks and the output patch (spec 06). -/
namespace Sys2Proof.Machine

/-! ## OUT_CHAIN (R198) -/

namespace ChainT
def w (d : Dev) (c n : Nat) : Nat := d.live T.outChain (8 * c + n)
def en (d : Dev) (c : Nat) : Bool := bitAt (w d c 0) 31
def bank (d : Dev) (c : Nat) : Nat := bits (w d c 0) 30 1
def kind (d : Dev) (c : Nat) : Nat := bits (w d c 0) 28 2 % 3
def index (d : Dev) (c : Nat) : Nat := bits (w d c 0) 0 11
def gain (d : Dev) (c : Nat) : Nat := bits (w d c 1) 16 16
def inv (d : Dev) (c : Nat) : Bool := bitAt (w d c 1) 15
def delay (d : Dev) (c : Nat) : Nat := bits (w d c 2) 0 16
def bypass (d : Dev) (c : Nat) : Bool := bitAt (w d c 3) 31
def lookahead (d : Dev) (c : Nat) : Bool := bitAt (w d c 3) 30
def keep (d : Dev) (c : Nat) : Nat := bits (w d c 3) 27 3
/-- CEIL, 1 to 2,400; 0 acts as 10. -/
def ceil (d : Dev) (c : Nat) : Nat := let v := bits (w d c 3) 12 12; if v = 0 then 10 else min v 2400
/-- RELEASE; 0 acts as 320. -/
def release (d : Dev) (c : Nat) : Nat := let v := bits (w d c 3) 0 12; if v = 0 then 320 else v
/-- FADE_TICKS, 1 to 64; 0 acts as 8. -/
def fade (d : Dev) (c : Nat) : Nat := let v := bits (w d c 4) 0 7; if v = 0 then 8 else min v 64
end ChainT

/-- Enabled chains below the capacity, ascending. -/
def chainsOn (d : Dev) : List Nat :=
  (((d.tab T.outChain).live.filter (fun e => e.1 % 8 == 0)).map (fun e => e.1 / 8)).filter
    (fun c => ChainT.en d c && decide (c < d.nChain))

/-- The limiter of a chain is shed at a budget level (R218). -/
def limShed (d : Dev) (level c : Nat) : Bool := decide (level < ChainT.keep d c)

/-- Block of a chain is unlimited (R218). -/
def unlimited (d : Dev) (level c : Nat) : Bool := ChainT.bypass d c || limShed d level c

/-- Buses that are the input of an enabled chain whose limiter is bypassed or shed (R179). While OUT does not work no chain's limiter
counts as either. DESIGN CHOICE, log 105. -/
def limOffBuses (d : Dev) (level : Nat) : List Nat :=
  if d.inBlock outBase then
    ((chainsOn d).filter (fun c => ChainT.kind d c == 2 && unlimited d level c)).map (ChainT.index d)
  else []

/-! ## Exact constants (R216) -/

/-- ln 10, scale 2^120. -/
def ln10x120 : Int := 3060660568284699479708353448060341289

/-- exp of a fixed-point argument, scale 2^120: the term, the sum, the next index. -/
def expGo : Nat → Int → Int → Nat → Int → Int
  | 0, _, _, _, s => s
  | k + 1, x, t, n, s => let t' := t * x / (2 ^ 120 * (n : Int)); expGo k x t' (n + 1) (s + t')

/-- round(2^24 * 10^(n/d)), half away from zero. -/
def pow10q24 (n : Int) (d : Nat) : Nat :=
  (divAway (expGo 60 (ln10x120 * n / (d : Int)) (2 ^ 120) 1 (2 ^ 120) * 2 ^ 24) (2 ^ 120)).toNat

/-- Ceiling code c of a CEIL value. -/
def ceilCode (ceil : Nat) : Nat := pow10q24 (-(ceil : Int)) 2000

/-- Release factor K of a RELEASE value. -/
def releaseK (release b fs : Nat) : Nat := pow10q24 (release * b : Nat) (320 * fs)

/-! ## Banks (R200 to R206) -/

def Dev.bankOf (d : Dev) (c b : Nat) : CoefBank := smGet (fun _ => CoefBank.zero) d.out.banks (2 * c + b)

def Dev.setBank (d : Dev) (c b : Nat) (x : CoefBank) : Dev :=
  { d with out := { d.out with banks := smSet (fun _ => CoefBank.zero) d.out.banks (2 * c + b) x } }

/-- Tap capacity at the current rate (R201). -/
def tapCap (d : Dev) : Nat := d.cap 16384
/-- P0 of R202. -/
def headTaps (d : Dev) : Nat := d.cap 256
/-- Size of a bank image in bytes (R206). -/
def bankSize (d : Dev) : Nat := 0x200 + 4 * tapCap d

def CoefBank.nsos (x : CoefBank) : Nat := min 16 (bits (wordAt x.image 0) 0 5)
def CoefBank.firLen (d : Dev) (x : CoefBank) : Nat := min (tapCap d) (bits (wordAt x.image 1) 0 15)
/-- Coefficient `i` (B0, B1, B2, A1, A2) of section `k`. -/
def CoefBank.coef (x : CoefBank) (k i : Nat) : Int := sx 32 (wordAt x.image (16 + 5 * k + i))
/-- Non-zero taps in use: tap number and value. -/
def CoefBank.taps (d : Dev) (x : CoefBank) : List (Nat × Int) :=
  (x.image.filter (fun e => 128 ≤ e.1 && e.1 < 128 + x.firLen d)).map (fun e => (e.1 - 128, e.2.toInt))

/-- One sample through one section: output, next state, whether it saturated (R200). -/
def sosStep (c : Nat → Int) (s : Sos) (u : Int) : Int × Sos × Bool :=
  let w := c 0 * u + c 1 * s.u1 + c 2 * s.u2 - c 3 * s.v1 - c 4 * s.v2
  let v := divEven w (2 ^ 28)
  let v' := satS 40 v
  (v', ⟨u, s.u1, v', s.v1⟩, v' != v)

/-- One sample through sections with their coefficients; saturation anywhere counts once. -/
def sosChain : List ((Nat → Int) × Sos) → Int → Int × List Sos × Bool
  | [], u => (u, [], false)
  | (c, s) :: r, u =>
    let (v, s', h) := sosStep c s u
    let (y, r', h') := sosChain r v
    (y, s' :: r', h || h')

/-- A block through a cascade: outputs, next states, samples that saturated (R200, R238). -/
def cascade (cs : List (Nat → Int)) (st : List Sos) (x : List Int) : List Int × List Sos × Nat :=
  if cs.isEmpty then (x, st, 0)
  else
    let z : Sos := ⟨0, 0, 0, 0⟩
    let st := (List.range cs.length).map (fun k => st.getD k z)
    x.foldl (fun (acc : List Int × List Sos × Nat) v =>
      let (u, st', hit) := sosChain (cs.zip acc.2.1) (v * 2 ^ 8)
      let y := divEven u (2 ^ 8)
      let y' := satH y
      (acc.1 ++ [y'], st', acc.2.2 + b2n (hit || y' != y))) ([], st, 0)

/-- Convolution output at absolute sample `n` before saturation (R201 to R204): the exact sum rounded half to even, and an
error within R204's bound when taps beyond the head take part. `late` leaves out partitions 7 to 9 (R205). -/
def firSample (d : Dev) (taps : List (Nat × Int)) (h : SMap (List Int)) (c n : Nat) (late : Bool) : Int :=
  let b := d.blockB
  let p0 := headTaps d
  let taps := if late then taps.filter (fun k => decide (k.1 < 16 * p0)) else taps
  let s := sumI (taps.map (fun k => k.2 * histAt b h ((n : Int) - k.1)))
  let y := divEven s (2 ^ 28)
  let far := (taps.filter (fun k => decide (p0 ≤ k.1))).map Prod.snd
  if far.isEmpty then y
  else
    let inputs := (List.range (64 * p0)).map (fun (i : Nat) => histAt b h ((n : Int) - (i : Int)))
    let e : Int := 2 ^ 49 + (peakOf inputs * (far.map Int.natAbs).foldl (· + ·) 0 : Nat)
    clampI (-((e - s * 2 ^ 21) / 2 ^ 49)) ((e + s * 2 ^ 21) / 2 ^ 49)
      (y + Config.firError far inputs ((n + c * b * (16 * p0 - 1)) % (16 * p0)))

/-- A chain's bank over a block: stages 2 and 3, next state, saturated samples, whether late data was missed. -/
def bankBlock (d : Dev) (t c : Nat) (bank : CoefBank) (run : BankRun) (heard : Bool) (lateAt : List Nat) (x : List Int) :
    List Int × BankRun × Nat × Bool :=
  let b := d.blockB
  let cs := (List.range bank.nsos).map (fun k => bank.coef k)
  let (y, sos, sat) := cascade cs run.sos x
  let len := bank.firLen d
  let keep := 64 * headTaps d / b + 2
  let hist := (smSet (fun _ => []) run.hist t (if y.all (· == 0) then [] else y)).filter (fun e => t < e.1 + keep)
  if len = 0 then (y, ⟨sos, hist⟩, sat, false)
  else if !heard then (List.replicate b 0, ⟨sos, hist⟩, sat, false)
  else
    let taps := bank.taps d
    let far := 16 * headTaps d < len
    let z := (List.range b).map (fun m => firSample d taps hist c (t * b + m) (far && lateAt.contains m))
    let out := z.map satH
    (out, ⟨sos, hist⟩, sat + ((List.zip z out).filter (fun p => p.1 != p.2)).length, far && !lateAt.isEmpty)

/-! ## One chain (R196 to R218) -/

/-- What one block of a chain gives: its output, next state, saturated and clamped samples, late data, limiter gain. -/
structure ChainOut where
  y : List Int
  next : ChainR
  sat : Nat
  clip : Nat
  late : Bool
  g : Nat
  line : List Int
  deriving DecidableEq, Repr

/-- Input of a chain (R199). -/
def chainInput (d : Dev) (feeds buses : Bank) (kind idx : Nat) : List Int :=
  if kind = 1 ∧ idx < d.nFeed then Bank.at d feeds idx
  else if kind = 2 ∧ idx < d.nBus then Bank.at d buses idx
  else List.replicate d.blockB 0

/-- Delay applied (R214). -/
def chainDelay (d : Dev) (c : Nat) : Nat :=
  let l := d.lat R.OUT_CFG_DL_LOG2
  if l = 0 then 0 else min (ChainT.delay d c) (2 ^ l - 1)

/-- Gain stage multiplier (R215). -/
def chainV (d : Dev) (c : Nat) : Int :=
  let g : Int := gainM (ChainT.gain d c)
  if ChainT.inv d c then -g else g

/-- A chain at rest (R197). -/
def chainRest (d : Dev) (c : Nat) : ChainR :=
  { ChainR.zero with on := true, kind := ChainT.kind d c, idx := ChainT.index d c, delay := chainDelay d c, v := chainV d c,
                     look := List.replicate d.blockB 0 }

/-- g_req(p) of R217. -/
def gReq (c p : Nat) : Nat := if p ≤ c then 2 ^ 24 else c * 2 ^ 24 / p

/-- Weighted sum of a crossfade at sample k of F * B (R211). -/
def fadeAt (old new : Int) (k len : Nat) : Int := if len ≤ k then new else old + divEven ((new - old) * k) len

/-- Samples of a list of late spans (chain, first sample, count) that belong to a chain. -/
def lateOf (l : List (Nat × Nat × Nat)) (c : Nat) : List Nat :=
  ((l.filter (fun e => e.1 == c)).map (fun e => (List.range e.2.2).map (· + e.2.1))).flatten

/-- Samples of block `t` that a delay line did not give in time for the reads at delay `q` (R214): those from before the block. -/
def lostAt (l : List (Nat × Nat × Nat × Nat)) (c q m : Nat) : Bool :=
  decide (m < q) && l.any (fun e => e.1 == c && e.2.1 == q && decide (e.2.2.1 ≤ m) && decide (m < e.2.2.1 + e.2.2.2))

/-- Block `t` of an enabled chain. -/
def chainBlock (d : Dev) (t level c : Nat) (feeds buses : Bank) (lateConv : List (Nat × Nat × Nat))
    (lateDelay : List (Nat × Nat × Nat × Nat)) : ChainOut :=
  let b := d.blockB
  let s0 := smGet (fun _ => ChainR.zero) d.out.chains c
  let st := if s0.on then s0 else chainRest d c
  -- stage 1
  let kind := ChainT.kind d c
  let idx := ChainT.index d c
  let xNew := chainInput d feeds buses kind idx
  let x := if kind = st.kind ∧ idx = st.idx then xNew else glide b (chainInput d feeds buses st.kind st.idx) xNew
  -- stages 2 and 3
  let fade := d.out.fades.find? (fun e => e.1 == c)
  let aud := smGet (fun _ => 0) d.out.aud c
  let heard := fun (k : Nat) => match fade with | some _ => true | none => aud == k
  let late := (lateOf lateConv c).filter (decide <| · < b)
  let (ya, ra, sa, la) := bankBlock d t c (d.bankOf c 0) st.bankA (heard 0) late x
  let (yb, rb, sb, lb) := bankBlock d t c (d.bankOf c 1) st.bankB (heard 1) late x
  -- stage 4
  let pick := fun (k : Nat) => if k = 0 then ya else yb
  let y4 := match fade with
    | some e => (List.zip (pick e.2.src) (pick e.2.tgt)).zipIdx.map (fun p =>
        fadeAt p.1.1 p.1.2 ((t - e.2.first) * b + p.2 + 1) (e.2.len * b))
    | none => pick aud
  -- stage 5
  let dl := chainDelay d c
  let line := smSet (fun _ => []) st.line t (if y4.all (· == 0) then [] else y4)
  let lost := [dl, st.delay].any (fun q => (List.range b).any (lostAt lateDelay c q))
  let rd := fun (q : Nat) => (List.range b).map (fun m => if lostAt lateDelay c q m then 0 else histAt b line ((t * b + m : Nat) - (q : Int)))
  let y5 := if dl = st.delay then rd dl else glide b (rd st.delay) (rd dl)
  -- stage 6
  let v := chainV d c
  let z := y5.zipIdx.map (fun p => divEven (p.1 * (st.v + divFloor ((v - st.v) * (p.2 + 1 : Nat)) b)) (2 ^ 24))
  let y6 := z.map satH
  let s6 := ((List.zip z y6).filter (fun p => p.1 != p.2)).length
  -- stage 7
  let free := unlimited d level c
  let cc := ceilCode (ChainT.ceil d c)
  let kk := releaseK (ChainT.release d c) b d.fs
  let ahead := ChainT.lookahead d c
  let q := if ahead then st.look else y6
  let qFree := if ahead then st.lookFree else free
  let gRel := min (2 ^ 24) (st.g * kk / 2 ^ 24)
  let g1 := min gRel (gReq cc (peakOf q))
  let g2 := if ahead && !free then min g1 (gReq cc (peakOf y6)) else g1
  let g := if qFree then 2 ^ 24 else g2
  let raw := q.zipIdx.map (fun p =>
    divEven (p.1 * ((st.g : Int) + divFloor (((g : Int) - st.g) * (p.2 + 1 : Nat)) b)) (2 ^ 24))
  let y := if qFree then raw else raw.map (clampI (-(cc : Int)) cc)
  let clip := ((List.zip raw y).filter (fun p => p.1 != p.2)).length
  let keep := 2 ^ d.lat R.OUT_CFG_DL_LOG2 / b + 2
  ⟨y, ⟨true, kind, idx, ra, rb, line.filter (fun e => t < e.1 + keep), dl, v, g, y6, free, limShed d level c, if s0.on then s0.since else t⟩,
    sa + sb + s6, clip, la || lb || lost, g, y4⟩

def Dev.setAud (d : Dev) (c b : Nat) : Dev := { d with out := { d.out with aud := smSet (fun _ => 0) d.out.aud c b } }

def Dev.audible (d : Dev) (c : Nat) : Nat := smGet (fun _ => 0) d.out.aud c

/-! ## DRAM traffic (R205, R214) -/

/-- First byte of a chain's delay line (R214). -/
def delayBase (d : Dev) (c : Nat) : Nat :=
  d.lat R.OUT_DL_BASE_LO_BASE_LO * 2 ^ 12 + d.lat R.OUT_DL_BASE_HI_BASE_HI * 2 ^ 32 + c * (4 * 2 ^ d.lat R.OUT_CFG_DL_LOG2)

/-- S_CV, and the first byte of a chain's spectra and histories (R205). -/
def cvStride (d : Dev) : Nat := d.cap 0x60000
def cvBase (d : Dev) (c : Nat) : Nat :=
  d.lat R.OUT_CV_BASE_LO_BASE_LO * 2 ^ 12 + d.lat R.OUT_CV_BASE_HI_BASE_HI * 2 ^ 32 + c * cvStride d

/-- An audible bank of the chain has taps in partitions 7 to 9 (R202). -/
def farChain (d : Dev) (c : Nat) : Bool :=
  [0, 1].any (fun k => (d.out.fades.any (fun e => e.1 == c) || d.audible c == k) && decide (16 * headTaps d < (d.bankOf c k).firLen d))

/-- Granules of a chain's convolution data that one step of it moves (log 106). -/
def convPlaces (d : Dev) (kind t c : Nat) : List Nat :=
  (Config.convGranules kind c t).map (fun g => cvBase d c + g % (cvStride d / 256) * 256)

/-- Convolution data is written: granules whose bytes the spec does not code are free, and CVU0 writes their check values (R205, R495). -/
def Dev.convWrite (d : Dev) (kind t c : Nat) : Dev :=
  (convPlaces d kind t c).foldl (fun d g =>
    let (ok, d) := d.dramWrite .out g ((List.range 256).map (fun i => d.freeNat i % 256))
    let d := d.drew 256
    if ok && d.dmc.cvu0On then { d.checkGranule g with out := { (d.checkGranule g).out with conv := (g :: d.out.conv).eraseDups } } else d) d

/-- Convolution data is read for a block: whether all of it came. A granule is compared where CVU0 holds its value (R494). -/
def Dev.convRead (d : Dev) (t c : Nat) : Bool × Dev :=
  let (ok, d) := d.dramAccess .out false (cvBase d c) (cvStride d)
  ((convPlaces d 0 t c).filter (fun g => d.out.conv.contains g)).foldl (fun (x : Bool × Dev) g =>
    let (good, d) := x.2.granuleStands g
    (x.1 && good, d)) (ok, d)

/-- Reads that the block of a chain needs: its spectra and histories, and the samples of its delay line from before the block, as they
stand there, at the delays it uses, from the chain's start on (R197). What is refused or fails its check is late, as (chain, first sample,
count), of the delay line as (chain, delay, first sample, count). -/
def Dev.chainReads (d : Dev) (t c : Nat) : List (Nat × Nat × Nat) × List (Nat × Nat × Nat × Nat) × Dev :=
  let b := d.blockB
  let (conv, d) := if farChain d c then (let (ok, d) := d.convRead t c; (if ok then [] else [(c, 0, b)], d)) else ([], d)
  let st := smGet (fun _ => ChainR.zero) d.out.chains c
  let qs := if st.on then [st.delay, chainDelay d c].eraseDups else [chainDelay d c]
  let (del, d) := (qs.filter (fun q => q != 0)).foldl (fun (acc : List (Nat × Nat × Nat × Nat) × Dev) q =>
    let lo := max ((if st.on then st.since else t) * b) (t * b - q)
    let n := t * b + min q b - q - lo
    let (l, d) := acc.2.audioRead .out (delayBase d c) (2 ^ d.lat R.OUT_CFG_DL_LOG2) lo n
    let x := smGet (fun _ => ChainR.zero) d.out.chains c
    let line := (l.filter (fun s => s.2.2)).foldl (putSamples b) x.line
    (acc.1 ++ (l.filter (fun s => !s.2.2)).map (fun s => (c, q, s.1 + q - t * b, s.2.1.length)),
      if line = x.line then d else { d with out := { d.out with chains := smSet (fun _ => ChainR.zero) d.out.chains c { x with line := line } } })) ([], d)
  (conv, del, d)

/-- Writes of a chain's block: its delay line, and its convolution history at the start of a segment of partitions 7 to 9 (R203). -/
def Dev.chainWrites (d : Dev) (t c : Nat) (line : List Int) : Dev :=
  let b := d.blockB
  let p := 16 * headTaps d
  let d := if d.lat R.OUT_CFG_DL_LOG2 = 0 then d else d.audioWrite .out (delayBase d c) (2 ^ d.lat R.OUT_CFG_DL_LOG2) (t * b) line
  if farChain d c && (List.range b).any (fun m => (t * b + m) % p == c * b % p) then (d.dramAccess .out true (cvBase d c) (cvStride d)).2.convWrite 1 t c else d

/-- GR of OUT_STAT (R227). -/
def gainReduction (g : Nat) : Nat :=
  if 2 ^ 24 ≤ g then 0
  else if g = 0 then 65535
  else (clampI 0 65535 (divAway (-(5120 * log10of2 * log2Fix ⟨g, -24⟩)) (2 ^ 164))).toNat

/-- No block of OUT has been processed in the tick that ended: no limiter acts and none is shed (R218, R225, R227). -/
def Dev.outRested (d : Dev) : Dev :=
  ({ d with out := { d.out with chains := [] } }.setFld R.OUT_LIMITING_COUNT 0).setFld R.OUT_LIM_SHED_COUNT 0

/-- Process block `t` of OUT: chain outputs (R196, R225 to R228). Late convolution data concerns chains that have some in DRAM (R205). -/
def outBlock (d : Dev) (t level : Nat) (feeds buses : Bank) (lateConv : List (Nat × Nat × Nat)) (lateDelay : List (Nat × Nat × Nat × Nat)) :
    Bank × Dev :=
  if !d.inBlock outBase then
    ([], { d with out := { d.out with fades := [] } }.outRested)
  else
    let (lateConv, lateDelay, d) := (chainsOn d).foldl (fun (acc : List (Nat × Nat × Nat) × List (Nat × Nat × Nat × Nat) × Dev) c =>
      let (v, l, d) := acc.2.2.chainReads t c
      (acc.1 ++ v, acc.2.1 ++ l, d)) (lateConv.filter (fun x => farChain d x.1), lateDelay, d)
    let res := (chainsOn d).map (fun c => (c, chainBlock d t level c feeds buses lateConv lateDelay))
    let sat := (res.map (fun r => r.2.sat)).foldl (· + ·) 0
    let clip := (res.map (fun r => r.2.clip)).foldl (· + ·) 0
    let late := (res.filter (fun r => r.2.late)).length
    let was := fun (c : Nat) => (smGet (fun _ => ChainR.zero) d.out.chains c).shed
    let newShed := res.any (fun r => r.2.next.shed && !was r.1)
    let d := (d.addFld R.OUT_SAT_COUNT sat).raiseIf (0 < sat) F.outSat
    let d := (d.addFld R.OUT_LIM_CLIP_COUNT clip).raiseIf (0 < clip) F.limClip
    let d := if late = 0 then d else ((d.addFld R.OUT_DRAM_LATE_COUNT late).raise F.dramLate).note .outLate
    let d := d.raiseIf newShed F.limShed
    let d := d.setFlds [(R.OUT_LIMITING_COUNT, (res.filter (fun r => decide (r.2.g < 2 ^ 24))).length),
      (R.OUT_LIM_SHED_COUNT, (res.filter (fun r => r.2.next.shed)).length)]
    let chains := res.foldl (fun m r => smSet (fun _ => ChainR.zero) m r.1 r.2.next) ([] : SMap ChainR)
    let d := res.foldl (fun d r => d.chainWrites t r.1 r.2.line) d
    (res.foldl (fun (m : Bank) r => m.put r.1 r.2.y) [], { d with out := { d.out with chains := chains } })

/-- Entry into RUN: every chain from rest, audible banks as the live BANK fields name them (R197, R225). -/
def Dev.outEnterRun (d : Dev) : Dev :=
  let d := [0xF0100, 0xF0104, 0xF0108, 0xF010C, 0xF0110].foldl Dev.latchReg d
  let aud := (List.range d.nChain).foldl (fun m c => if ChainT.bank d c = 1 then smSet (fun _ => 0) m c 1 else m) ([] : SMap Nat)
  { d with out := { d.out with chains := [], fades := [], aud := aud, patchLast := [], patchNew := true } }

/-! ## Crossfades and swaps (R210 to R213) -/

/-- Crossfades that have ended by the current boundary: from A + F the target alone is audible (R211). -/
def Dev.endFades (d : Dev) : Dev :=
  d.out.fades.foldl (fun d e =>
    if e.2.first + e.2.len ≤ d.top.tick then
      { d.setAud e.1 e.2.tgt with out := { (d.setAud e.1 e.2.tgt).out with fades := d.out.fades.filter (fun f => f.1 != e.1) } }
    else d) d

/-- A chain starts from rest: it was disabled up to now, or RUN is entered at this boundary (R197). -/
def Dev.chainStarts (d : Dev) (c : Nat) : Bool := !d.out.ens.contains c || (d.top.st == .run && d.out.patchNew)

/-- The crossfade decision of one chain at the current boundary, after every command of it (R197, R211). A chain that is disabled, or
that starts from rest, takes the bank that its live BANK names without a crossfade. A crossfade starts at a boundary alone. -/
def Dev.judgeBank (d : Dev) (c : Nat) : Dev :=
  let want := ChainT.bank d c
  let fading := d.out.fades.any (fun e => e.1 == c)
  if !d.works outBase || !ChainT.en d c || d.chainStarts c then
    let d := d.setAud c want
    { d with out := { d.out with fades := d.out.fades.filter (fun f => f.1 != c) } }
  else if fading || d.audible c = want || !d.running then d
  else { d with out := { d.out with fades := smSet (fun _ => Fade.zero) d.out.fades c ⟨d.audible c, want, d.top.tick, ChainT.fade d c⟩ } }

/-- Chains whose entry, bank or crossfade stands apart from reset, below the capacity. -/
def chainsKnown (d : Dev) : List Nat :=
  (((d.tab T.outChain).live.map (fun (e : Nat × Word) => e.1 / 8)) ++ d.out.aud.map Prod.fst ++ d.out.fades.map Prod.fst).eraseDups.filter
    (fun c => decide (c < d.nChain))

/-- Crossfade decisions at a boundary for every chain that could have one. -/
def Dev.judgeBanks (d : Dev) : Dev :=
  let d := (chainsKnown d).foldl Dev.judgeBank d
  { d with out := { d.out with ens := if d.works outBase then chainsOn d else [] } }

/-- Outcome of an OUT_SWAP that names bank `b` (R210 byte 24), judged at the command's place in fetch order. A chain that starts from
rest at this boundary is switched without a crossfade. DEDUCED, log 107. -/
def swapCode (d : Dev) (c b : Nat) : Nat :=
  match d.out.fades.find? (fun e => e.1 == c) with
  | some e => if b = e.2.tgt then 2 else 1
  | none => if b = d.audible c then 2 else if ChainT.en d c && !d.chainStarts c then 0 else 3

/-- OUT_SWAP: BANK in both copies of the entry (R210). -/
def outSwap (d : Dev) (c : Cmd) (late : Bool) : Cpl × Dev :=
  let ch := c.u16 16
  let b := c.u8 18 % 2
  if d.nChain ≤ ch then (.bad 2, d)
  else if (d.bankOf ch b).st ≠ .ready then (.bad 8, d)
  else
    let code := swapCode d ch b
    (⟨lateOk late, 0, code⟩, d.writeBothBits T.outChain (8 * ch) 30 1 b)

/-- The check of R213 before a commit that swaps OUT_CHAIN: a staged BANK that differs from the live one must name a READY
bank. The first failure is recorded in OUT_VALID. -/
def Dev.outValidate (d : Dev) : Bool × Dev :=
  let staged := (d.tab T.outChain).staged
  let bad := (List.range d.nChain).find? (fun c =>
    let b := bits (wordAt staged (8 * c)) 30 1
    b != ChainT.bank d c && (d.bankOf c b).st != .ready)
  match bad with
  | some c =>
    let x := d.tab T.outChain
    (false, (d.setTab T.outChain { x with bad := x.bad ++ [(0, 0)] }).setFlds [(R.OUT_VALID_FAILED, 1), (R.OUT_VALID_CHAIN, c)])
  | none => (true, d.setFlds [(R.OUT_VALID_FAILED, 0), (R.OUT_VALID_CHAIN, 0)])

/-! ## Bank loads (R207 to R209) -/

namespace BankL
def chain (c : Cmd) : Nat := c.u16 16
def bank (c : Cmd) : Nat := c.u8 18 % 2
def check (c : Cmd) : Bool := bitAt (c.u8 19) 0
def offset (c : Cmd) : Nat := c.u32 20
def length (c : Cmd) : Nat := c.u32 24
def addr (c : Cmd) : Nat := c.u64 32
def want (c : Cmd) : Nat := c.u32 40
def ready (c : Cmd) : Nat := c.u48 44
/-- The 8 tag bytes of its check value (R208). -/
def tag (c : Cmd) : List Nat := [0x21, 0] ++ leBytes 2 (2 * chain c + bank c) ++ leBytes 4 (offset c)
end BankL

/-- OUT_BANK_LOAD at its apply boundary: refused, or the bank is LOADING and the copy starts (R208). -/
def outBankLoad (d : Dev) (c : Cmd) (late : Bool) : Option Cpl × Dev :=
  let ch := BankL.chain c
  let b := BankL.bank c
  let off := BankL.offset c
  let len := BankL.length c
  if d.nChain ≤ ch then (some (.bad 2), d)
  else if off % 4 ≠ 0 ∨ len % 4 ≠ 0 ∨ len < 4 ∨ bankSize d < off + len then (some (.bad 3), d)
  else if d.out.fades.any (fun e => e.1 == ch) ∨ d.audible ch = b ∨ ChainT.bank d ch = b then (some (.bad 7), d)
  else
    let x := d.bankOf ch b
    (none, d.setBank ch b { x with st := .loading, copying := x.copying ++ [(c, late)], transform := false, formed := false, tr := none })

/-- Bytes that a bank load has copied, all or the first `err`. -/
def Dev.bankBytes (d : Dev) (c : Cmd) (err : Option Nat) : List Nat :=
  let len := BankL.length c
  d.hostData c (BankL.addr c) (match err with | some k => min k len | none => len)

/-- The load whose copy is in progress is over, with its bytes, check value and verdict. Where a later load fails, the loads that were
copied before it and wait for the restart complete with its detail. DESIGN CHOICE, log 108. -/
def Dev.bankOver (d : Dev) (ch b : Nat) (err : Option Nat) (l : List Nat) (v : Nat) (wrong : Bool) : Dev :=
  let x := d.bankOf ch b
  match x.copying with
  | [] => d
  | (c, late) :: rest =>
    let x := { x with image := storeBytes x.image (BankL.offset c) l, copying := rest }
    if err.isSome || wrong then
      let d := d.setBank ch b { x with st := .bad, copied := [], transform := false, formed := false, tr := none }
      let d := d.raise F.bankBad
      let p : Cpl := ⟨.badTable, if err.isSome then 5 else 4, v⟩
      (x.copied.foldl (fun d e => d.complete e.1 ⟨.badTable, p.detail, e.2.2⟩) d).complete c p
    else
      d.setBank ch b { x with copied := x.copied ++ [(c, late, v)], transform := rest.isEmpty, formed := false, tr := none }

/-- A copy into a bank ends, whole or after `err` bytes (R208); an active tells the standby how a shared one ended (R393). -/
def Dev.bankLoaded (d : Dev) (ch b : Nat) (c : Cmd) (err : Option Nat) : Dev :=
  let l := d.bankBytes c err
  let (v, d) := d.cvuCompute 3 (BankL.tag c) l
  let wrong := err.isNone && BankL.check c && d.works (cvuBase 3) && v != BankL.want c
  let d := if wrong then d.cvuFail 3 (BankL.tag c) v (BankL.want c) else d
  let d := if err.isSome then d.raise F.dmaErr else d
  let d := if (d.share c.id).isSome then d.tell (.loaded ch b err v wrong) else d
  d.bankOver ch b err l v wrong

/-- The first load into a bank has copied: it ends, or waits for the other unit's copy (R393). -/
def Dev.bankCopyDone (d : Dev) (ch b : Nat) (err : Option Nat) : Dev :=
  match (d.bankOf ch b).copying with
  | [] => d
  | (c, _) :: _ =>
    if d.copied c.id then d
    else if d.waitsPeer c.id then d.copiedHere c.id err
    else d.bankLoaded ch b c err

/-- The active's word on the first load into a bank, if that is mirrored (R393). -/
def Dev.bankTold (d : Dev) (ch b : Nat) (err : Option Nat) (v : Nat) (wrong : Bool) : Dev :=
  match (d.bankOf ch b).copying with
  | [] => d
  | (c, _) :: _ => if c.mirrored then d.bankOver ch b err (d.bankBytes c err) v wrong else d

/-- The transform of a bank's taps finishes (R209); spectra of partitions 7 to 9 go to DRAM (R202, R205). -/
def Dev.bankTransformDone (d : Dev) (ch b : Nat) : Dev :=
  let x := d.bankOf ch b
  if x.transform then
    let d := d.setBank ch b { x with transform := false, formed := true }
    if 16 * headTaps d < x.firLen d then d.convWrite 2 d.top.tick ch else d
  else d

/-- The first boundary after the transform fixes the restart boundary: READY_TICK, or this one if READY_TICK is 0 or has passed (R209).
A standby takes it from the active for a load that the active has mirrored, and an active tells it (R224, R393). -/
def Dev.bankFix (d : Dev) (ch b : Nat) : Dev :=
  let x := d.bankOf ch b
  match x.formed, x.copied.getLast? with
  | true, some e =>
    let rt := BankL.ready e.1
    let now := d.top.tick
    if d.isStandby && e.1.mirrored then (if x.tr.isSome then d.setBank ch b { x with formed := false } else d)
    else
      let r := if rt ≠ 0 ∧ now ≤ rt then (rt, false) else (now, rt != 0)
      let d := d.setBank ch b { x with formed := false, tr := some r }
      if (d.share e.1.id).isSome then d.tell (.restart ch b r.1 r.2) else d
  | _, _ => d

/-- A bank whose restart boundary has come is READY with its states zero; the loads it took complete (R209). -/
def Dev.bankReady (d : Dev) (ch b : Nat) : List (Cmd × Cpl) × Dev :=
  let x := d.bankOf ch b
  match x.tr with
  | none => ([], d)
  | some (tr, late) =>
    if tr ≤ d.top.tick && !x.transform then
      let d := d.setBank ch b { x with st := .ready, copied := [], tr := none }
      let st := smGet (fun _ => ChainR.zero) d.out.chains ch
      let st := if b = 0 then { st with bankA := .zero } else { st with bankB := .zero }
      let d := if st.on then { d with out := { d.out with chains := smSet (fun _ => ChainR.zero) d.out.chains ch st } } else d
      (x.copied.map (fun e => (e.1, ⟨lateOk (late || e.2.1), 0, ofLe (leBytes 4 e.2.2 ++ leBytes 6 tr)⟩)), d)
    else ([], d)

/-- The restart of one bank, with the completions of its loads. -/
def Dev.bankRestart (d : Dev) (ch b : Nat) : Dev :=
  (d.bankReady ch b).1.foldl (fun d e => d.complete e.1 e.2) (d.bankReady ch b).2

/-- Every bank whose restart boundary has come; the loads complete in fetch order (R91). -/
def Dev.bankRestarts (d : Dev) : Dev :=
  let d := d.out.banks.foldl (fun d e => d.bankFix (e.1 / 2) (e.1 % 2)) d
  let (l, d) := d.out.banks.foldl (fun (a : List (Cmd × Cpl) × Dev) e =>
    let (m, d) := a.2.bankReady (e.1 / 2) (e.1 % 2)
    (a.1 ++ m, d)) ([], d)
  (d.hre.outst.filterMap (fun i => l.find? (fun e => e.1.id == i))).foldl (fun d e => d.complete e.1 e.2) d

/-- OUT_STAT of a chain as it stands (R227). -/
def outStatWord (d : Dev) (c : Nat) : Nat :=
  if d.nChain ≤ c then 0
  else
    let st := smGet (fun _ => ChainR.zero) d.out.chains c
    let code := fun (b : Nat) => match (d.bankOf c b).st with | .ready => 0 | .loading => 1 | .bad => 2
    let (fading, pend, aud, left) := match d.out.fades.find? (fun e => e.1 == c) with
      | some e => (1, b2n (ChainT.bank d c == e.2.src), e.2.src, min 255 (e.2.first + e.2.len - d.top.tick))
      | none => (0, 0, d.audible c, 0)
    fading * 2 ^ 31 + pend * 2 ^ 30 + aud * 2 ^ 29 + b2n (st.on && st.shed) * 2 ^ 28 + code 0 * 2 ^ 26 + code 1 * 2 ^ 24
      + left * 2 ^ 16 + (if st.on then gainReduction st.g else 0)

/-- OUT_STAT shows each chain as the boundary leaves it (R227). -/
def Dev.outStats (d : Dev) : Dev :=
  let ids := (chainsKnown d ++ d.out.banks.map (fun (e : Nat × CoefBank) => e.1 / 2)).eraseDups
  { d with out := { d.out with stat := ids.foldl (fun m c => smSet (fun _ => 0) m c (outStatWord d c)) [] } }

/-- OUT_STAT of a chain as read. -/
def outStatRead (d : Dev) (c : Nat) : Nat := if d.nChain ≤ c then 0 else smGet (fun _ => 0) d.out.stat c

/-! ## The output patch (R219 to R223) -/

namespace PatchT
def en (w : Nat) : Bool := bitAt w 31
def srcKind (w : Nat) : Nat := bits w 29 2
def srcIndex (w : Nat) : Nat := bits w 18 11
/-- Destination as one number: port * 32 + slot, or 0x20000 + stream * 64 + channel; reserved bits ignored. -/
def dst (w : Nat) : Nat := if bitAt w 17 then 0x20000 + bits w 0 14 else bits w 0 10
end PatchT

/-- A source of the patch exists at the current rate. -/
def srcExists (d : Dev) (kind idx : Nat) : Bool :=
  decide (idx < if kind = 0 then d.nChain else if kind = 2 then d.nFeed else d.nBus)

/-- Enabled entries of the live patch, ascending: entry, source as 1 + 2048 kind + index, destination. -/
def patchEntries (d : Dev) : List (Nat × Nat × Nat) :=
  ((d.tab T.outPatch).live.map (fun e => (e.1, e.2.toNat))).filterMap (fun e =>
    if PatchT.en e.2 then some (e.1, 1 + 2048 * PatchT.srcKind e.2 + PatchT.srcIndex e.2, PatchT.dst e.2) else none)

/-- The driven destinations with their sources: the lowest entry whose source and destination exist (R221). -/
def patchDrivers (d : Dev) : SMap Nat × List Nat :=
  let es := patchEntries d
  let drv := es.foldl (fun (acc : SMap Nat × List Nat) e =>
    if !(acc.1.any (fun q => q.1 == e.2.2)) && srcExists d ((e.2.1 - 1) / 2048) ((e.2.1 - 1) % 2048) then
      (smSet (fun _ => 0) acc.1 e.2.2 e.2.1, acc.2 ++ [e.1])
    else acc) ([], [])
  (drv.1, (es.filter (fun e => drv.1.any (fun q => q.1 == e.2.2) && !drv.2.contains e.1)).map Prod.fst)

/-- OUT_CONFLICT and PATCH_CONFLICT follow the live table (R221). -/
def Dev.patchConflicts (d : Dev) : Dev :=
  let out := (patchDrivers d).2
  let now := ((patchEntries d).filter (fun e => out.contains e.1)).map (fun e => e.1 + 4096 * e.2.2)
  let d := d.raiseIf (now.any (fun e => !d.out.conflicts.contains e)) F.patchConflict
  { d with out := { d.out with conflicts := now } }.setFld R.OUT_CONFLICT_COUNT now.length

/-- PATCH_SET (R222). With COUNT = 0 it completes with OK also where FIRST lies above 2,048, of which the rule's sentences say both. DESIGN
CHOICE, log 131. -/
def patchSet (d : Dev) (c : Cmd) (late : Bool) : Cpl × Dev :=
  let first := c.u16 16
  let count := c.u16 18
  if count = 0 then (⟨lateOk late, 0, 0⟩, d)
  else if 10 < count ∨ 2048 < first + count then (.bad 3, d)
  else (⟨lateOk late, 0, 0⟩, (List.range count).foldl (fun d i => d.writeBoth T.outPatch (first + i) (c.u32 (24 + 4 * i))) d)

/-- Signals of block `t` by destination, in H7.24 before export (R220, R223). In the first block after entry into RUN a destination
starts at its signal without a ramp. DESIGN CHOICE, log 109. -/
def patchBlock (d : Dev) (chains buses feeds src : Bank) : Bank × Dev :=
  if !d.inBlock outBase then ([], { d with out := { d.out with patchLast := [], patchNew := false } })
  else
    let drv := (patchDrivers d).1
    let sig := fun (code : Nat) =>
      let k := (code - 1) / 2048
      let i := (code - 1) % 2048
      if code = 0 then List.replicate d.blockB 0
      else Bank.at d (if k = 0 then chains else if k = 1 then buses else if k = 2 then feeds else src) i
    let was := d.out.patchLast
    let dsts := drv.map Prod.fst ++ (was.map Prod.fst).filter (fun x => !drv.any (fun e => e.1 == x))
    let out := dsts.foldl (fun (m : Bank) x =>
      let new := smGet (fun _ => 0) drv x
      let old := if d.out.patchNew then new else smGet (fun _ => 0) was x
      m.put x (if old = new then sig new else glide d.blockB (sig old) (sig new))) []
    (out, { d with out := { d.out with patchLast := drv, patchNew := false } })

end Sys2Proof.Machine
end

