-- ==== Sys2Proof/Machine/Tbu.lean ====
section
/-! DEFINITION. Time bases, their servos and the capture channels (spec 11). -/
namespace Sys2Proof.Machine

/-! ## Counting (R330 to R332, R342) -/

def Dev.base (d : Dev) (b : Nat) : TBase := smGet (fun _ => TBase.zero) d.tbu.bases b

def Dev.setBase (d : Dev) (b : Nat) (x : TBase) : Dev :=
  { d with tbu := { d.tbu with bases := smSet (fun _ => TBase.zero) d.tbu.bases b x } }

/-- RATE of a base in ppt. -/
def Dev.tbRate (d : Dev) (b : Nat) : Int := sx 32 (d.fld (R.TB_RATE_RATE b))

/-- INC of R330, in units of 2^-64 ns per TIME cycle. -/
def tbInc (rate : Int) : Nat := (divEven (2 ^ 65 * (10 ^ 12 + rate)) (10 ^ 12)).toNat

/-- `n` TIME cycles pass for one base. -/
def Dev.tbAdvance (d : Dev) (n b : Nat) : Dev :=
  let x := d.base b
  let k := n * tbInc (d.tbRate b)
  d.setBase b { x with val := (x.val + k) % 2 ^ 96, gap := x.gap.map (· + k), sec := (x.sec + k) % (10 ^ 9 * 2 ^ 64) }

/-- MEDIA cycles per second (R53). -/
def Dev.mediaHz (d : Dev) : Nat := 2048 * d.familyHz

/-- Move toward a target by at most `n`. -/
def toward (x target : Int) (n : Nat) : Int := if x < target then min target (x + n) else max target (x - n)

/-- A DPLL's anchor moves toward its target at FSLEW per second (R362); in DCO mode a phase step runs off at FSLEW (R366), and waits
while DPLL-A follows TETHER (R360). -/
def Dpll.slew (p : Dpll) (dco : Bool) (n : Nat) : Dpll :=
  let x := toward p.anchor p.target n
  { p with anchor := if p.moving then x else p.target, moving := p.moving && x != p.target, step := if dco then toward p.step 0 n else p.step }

/-! ## What a DPLL puts out (R362 to R366) -/

def Dev.dpll (d : Dev) (p : Nat) : Dpll := if p = 0 then d.ref.a else d.ref.b
def Dev.setDpll (d : Dev) (p : Nat) (x : Dpll) : Dev :=
  { d with ref := if p = 0 then { d.ref with a := x } else { d.ref with b := x } }

/-- STATE of a DPLL: 0 OFF, 1 FREERUN, 2 ACQUIRE, 3 LOCKED, 4 DCO (R361). -/
def Dev.dpllSt (d : Dev) (p : Nat) : Nat := d.fld (R.DPLL_STAT_STATE p)

/-- FSLEW in ppt. -/
def Dev.fslew (d : Dev) : Nat := 1000 * d.fld R.REF_FSLEW_FSLEW

/-- What the loop asks for: BW of the selected reference sets its bandwidth (R364); the rest is the loop's (log 30). -/
def Dev.loopAsks (d : Dev) (p : Nat) : Int :=
  Config.loopCorrection (d.fld (R.REF_IN_BW_BW (d.fld (R.DPLL_STAT_SEL p)))) (d.dpll p).err d.tbu.now

/-- The phase correction in ppt: the loop's within ±FSLEW, and short of it while LOCKED, which CLAMP = 1 would end (R361, R362); in DCO
mode ±FSLEW while a phase step runs (R366). During a retune it may lie outside (R367). -/
def Dev.dpllCorr (d : Dev) (p : Nat) : Int :=
  let x := d.dpll p
  let lim : Int := d.fslew
  let st := d.dpllSt p
  if st = 0 then 0
  else if 0 < x.retune then d.loopAsks p
  else if st = 2 then clampI (-lim) lim (d.loopAsks p)
  else if st = 3 then clampI (1 - lim) (lim - 1) (d.loopAsks p)
  else if st = 4 then (if 0 < x.step then -lim else if x.step < 0 then lim else 0)
  else 0

/-- Sum of the anchor over `n` TIME cycles, as it moves at `s` per cycle. -/
def Dpll.anchorSum (x : Dpll) (s n : Nat) : Int :=
  if x.moving then
    let far := (x.target - x.anchor).natAbs
    let m := min n ((far + (s - 1)) / max 1 s)
    let dir : Int := if x.anchor < x.target then 1 else -1
    m * x.anchor + dir * s * (m * (m - 1) / 2 : Nat) + (n - m : Nat) * x.target
  else n * x.target

/-- Offset of a DPLL's output from nominal, summed over the next `n` TIME cycles, in 1/500,000 ppt. -/
def Dev.dpllSum (d : Dev) (p n : Nat) : Int :=
  let x := d.dpll p
  if d.dpllSt p = 0 then 0
  else
    let moved := if d.dpllSt p = 4 ∧ x.retune = 0 then -(x.step - toward x.step 0 (n * d.fld R.REF_FSLEW_FSLEW)) * 500000000 else 500000 * d.dpllCorr p * n
    x.anchorSum (d.fld R.REF_FSLEW_FSLEW) n + moved

/-- Output of the last 64 s in LOCKED, kept by the second (R378). -/
def avgPush (n : Nat) (s : Int) : List (Nat × Int) → List (Nat × Int)
  | [] => [(n, s)]
  | (c, t) :: r => if c < 500000000 then (c + n, t + s) :: r else (n, s) :: ((c, t) :: r).take 63

/-- The mean of that output in ppt, rounded half to even; none before any. -/
def Dpll.mean (x : Dpll) : Option Int :=
  let c := x.avg.foldl (fun a e => a + e.1) 0
  if c = 0 then none else some (divEven (x.avg.foldl (fun a e => a + e.2) 0) (500000 * c))

/-- The phase error after `n` TIME cycles: the output runs off the reference, whose offset is the anchor's target, by its own offset. A
LOCKED DPLL keeps within 4 × LOCK_THR (R361). -/
def Dev.errAfter (d : Dev) (p n : Nat) : Int :=
  let x := d.dpll p
  let lim : Int := 4 * d.fld (R.DPLL_LOCK_THR p) * 25 * 10 ^ 16
  let e := x.err + d.dpllSum p n - n * x.target
  if d.dpllSt p = 3 then clampI (-lim) lim e else if d.dpllSt p = 2 then e else x.err

/-- DPLL `p` after `n` TIME cycles more. -/
def Dev.dpllMoves (d : Dev) (p n : Nat) : Dpll :=
  let x := d.dpll p
  let y := x.slew (d.dpllSt p == 4) (n * d.fld R.REF_FSLEW_FSLEW)
  { y with err := d.errAfter p n, retune := x.retune - n, avg := if d.dpllSt p = 3 ∧ 0 < n then avgPush n (d.dpllSum p n) x.avg else x.avg }

/-! ## Dividers of the clock outputs (R368, R369) -/

/-- One cycle of a clock in the units that positions count. -/
def clockCycle : Nat := 250000000 * 10 ^ 18

/-- Nominal cycles per second of DPLL `p`'s clock (R367): MEDIA of A, AUX of B. -/
def Dev.clockHz (d : Dev) (p : Nat) : Nat := if p = 0 then d.mediaHz else 2048 * (if d.flag (R.DPLL_CTL_FAMILY 1) then 44100 else 48000)

/-- What the clock of DPLL `p` advances in `n` TIME cycles: nominal rate and the DPLL's offset (R362). -/
def Dev.clockAdvance (d : Dev) (p n : Nat) : Nat := (d.clockHz p * ((n * (5 * 10 ^ 17) : Nat) + d.dpllSum p n)).toNat

/-- The DPLL whose clock output `k` divides. Outputs: WCK_OUT0, WCK_OUT1, MCLK_OUT0, MCLK_OUT1, PPS_OUT. -/
def outClock (d : Dev) (k : Nat) : Nat := if k = 0 ∨ k = 2 then 0 else if k = 4 then d.fld R.REF_OUT_PPS_SRC else 1

/-- The setting that output `k`'s next period begins with: DIV, WIDTH, FORM and POL as its register holds them. -/
def outSetting (d : Dev) (k : Nat) : Nat :=
  (d.reg (if k < 2 then (R.REF_OUT_WCK_EN k).addr else if k < 4 then (R.REF_OUT_MCLK_EN (k - 2)).addr else R.REF_OUT_PPS_EN.addr)).toNat % 2 ^ 31

/-- Length of a period of output `k` that began with a setting. -/
def outPeriod (d : Dev) (k cfg : Nat) : Nat :=
  clockCycle * (if k < 2 then max 1 (cfg % 2 ^ 17) else if k < 4 then 2 ^ (cfg % 4 + 1) else d.clockHz (outClock d k))

/-- A divider counts its clock for `n` TIME cycles. A period that begins takes the setting as it stands (R369). -/
def outCount (d : Dev) (k n : Nat) (x : OutDiv) : OutDiv :=
  if d.dpllSt (outClock d k) = 0 then x
  else
    let pos := x.pos + d.clockAdvance (outClock d k) n
    if pos < outPeriod d k x.cfg then { x with pos := pos }
    else ⟨(pos - outPeriod d k x.cfg) % outPeriod d k (outSetting d k), outSetting d k⟩

/-- Periods that a divider starts in `n` TIME cycles. -/
def outStarts (d : Dev) (k n : Nat) (x : OutDiv) : Nat :=
  let pos := x.pos + d.clockAdvance (outClock d k) n
  if d.dpllSt (outClock d k) = 0 || decide (pos < outPeriod d k x.cfg) then 0
  else 1 + (pos - outPeriod d k x.cfg) / outPeriod d k (outSetting d k)

/-- The dividers count `n` TIME cycles. -/
def outsCount (d : Dev) (n : Nat) : List OutDiv := d.ref.outs.mapIdx (fun k x => outCount d k n x)

/-- Output `k` is in the active part of its period (R368): the first half, a pulse of 16 cycles, or for PPS_OUT WIDTH × 10 µs. -/
def outActive (d : Dev) (k : Nat) (x : OutDiv) : Bool :=
  if k = 4 then decide (100000 * x.pos < clockCycle * d.clockHz (outClock d 4) * (x.cfg % 2 ^ 16))
  else if k < 2 && bitAt x.cfg 30 then decide (x.pos < 16 * clockCycle)
  else decide (2 * x.pos < outPeriod d k x.cfg)

/-- A pause quantum, 512 bit times, in 1/25 TIME cycles. -/
def Dev.quantum (d : Dev) (m : Nat) : Nat := if d.flag (R.ETH_MODE_SPEED m) then 640 else 256

/-- 1/25 TIME cycles of a hold that have passed after `n` TIME cycles of it: no more than it lasts. -/
def Dev.heldOf (d : Dev) (m q n : Nat) : Nat := min (q * d.quantum m) (25 * n)

/-- Time held adds up in RX_PAUSED_QUANTA, counter 22, in whole quanta (R302). -/
def Dev.pausedAdd (d : Dev) (m add : Nat) (x : EthM) : EthM :=
  let all := x.part + add
  { x with cnt := smSet (fun _ => 0) x.cnt 22 (min (smGet (fun _ => 0) x.cnt 22 + all / d.quantum m) (2 ^ 64 - 1)), part := all % d.quantum m }

/-- A hold lasts `n` TIME cycles more. That of a MAC that does no work stands still, for its counters keep their contents (R280). DESIGN
CHOICE, log 137. -/
def Dev.holdRuns (d : Dev) (m n : Nat) (x : EthM) : EthM :=
  match x.hold with
  | none => x
  | some q => if !(d.works (ethBase m) && d.awake) then x else { d.pausedAdd m (d.heldOf m q (x.held + n) - d.heldOf m q x.held) x with held := x.held + n }

/-- Refreshes of a channel that has become hot go on for `n` TIME cycles; with the last of them nothing is owed (R491). -/
def Dev.burstRuns (d : Dev) (n : Nat) : Dev :=
  d.dmc.burst.foldl (fun d e =>
    let d := { d with dmc := { d.dmc with burst := smSet (fun _ => 0) d.dmc.burst e.1 (e.2 - n) } }
    if e.2 ≤ n then d.setFld (R.DMC_CH_STAT_OWED e.1) 0 else d) d

/-- `n` TIME cycles pass: the bases count, the tick position and the dividers of the clock outputs advance with their clocks, pause holds
of the MACs run (R302), the DPLLs move, and the DSP cores' clock runs. Starts of PPS_OUT's periods are counted for Ferryman (R456).
While RST_N is low no clock runs (R519). -/
def Dev.timePasses (d : Dev) (n : Nat) : Dev :=
  let n := if d.boot.rstLow then 0 else n
  let d := if n = 0 then d else (List.range 4).foldl (fun d b => d.tbAdvance n b) (d.burstRuns n)
  { d with tbu := { d.tbu with since := d.tbu.since + n, now := d.tbu.now + n },
           eth := d.eth.map (fun e => (e.1, d.holdRuns e.1 n e.2)),
           fmn := { d.fmn with pps := d.fmn.pps + outStarts d 4 n (d.ref.outs.getD 4 ⟨0, 0⟩) },
           dsp := { d.dsp with clock := d.dsp.clock + n * d.fld R.DSP_FREQ_MHZ },
           ref := { d.ref with outs := outsCount d n, a := d.dpllMoves 0 n, b := d.dpllMoves 1 n },
           top := if d.running then { d.top with mediaAcc := d.top.mediaAcc + d.clockAdvance 0 n } else d.top }

/-- TOP_TICK_PHASE (R22). -/
def Dev.phase (d : Dev) : Nat := if d.running then d.top.mediaAcc / clockCycle % 2 ^ 24 else 0

/-- ns field of a base. -/
def Dev.tbNs (d : Dev) (b : Nat) : Nat := (d.base b).val / 2 ^ 64

/-- Fraction field of a base. -/
def Dev.tbFrac (d : Dev) (b : Nat) : Nat := (d.base b).val / 2 ^ 32 % 2 ^ 32

/-- Latch every base at a boundary (R342). -/
def Dev.tbLatch (d : Dev) : Dev :=
  let d := (List.range 4).foldl (fun d b =>
    d.setFlds [(R.TB_TICK_NS_NS b, d.tbNs b), (R.TB_TICK_FRAC_FRAC b, d.tbFrac b)]) d
  { d with tbu := { d.tbu with since := 0 } }

/-- The snapshot of R332. -/
def Dev.tbSnap (d : Dev) : Dev :=
  if !d.works tbuBase then d else
  let d := (List.range 4).foldl (fun d b =>
    d.setFlds [(R.TB_SNAP_NS_NS b, d.tbNs b), (R.TB_SNAP_FRAC_FRAC b, d.tbFrac b)]) d
  d.setFlds [(R.TB_SNAP_TICK_LO_TICK_LO, d.top.tick % 2 ^ 32), (R.TB_SNAP_TICK_HI_TICK_HI, d.top.tick / 2 ^ 32),
    (R.TB_SNAP_PHASE_PHASE, d.phase)]

/-- A read of TB_NS latches TB_FRAC (R332). -/
def Dev.tbNsRead (d : Dev) (b : Nat) : Nat × Dev := (d.tbNs b, d.setFld (R.TB_FRAC_FRAC b) (d.tbFrac b))

/-! ## The servo (R337 to R341) -/

/-- The source that acts: 0 OFF, 1 SW, 2 PPS, 3 TB (R337). -/
def Dev.servoSrc (d : Dev) (b : Nat) : Nat :=
  let s := d.fld (R.TB_SERVO_SRC b)
  if 4 ≤ s ∨ (s = 3 ∧ d.fld (R.TB_SERVO_SRC_TB b) = b) then 0 else s

/-- A servo changes state (R339). -/
def Dev.servoState (d : Dev) (b st : Nat) : Dev :=
  let x := d.base b
  if x.state = st then d
  else
    (d.setBase b { x with state := st, good := 0, outl := 0, locked := x.locked || st == 2 }).setFld (R.TB_SERVO_STATE b) st
      |>.raise F.tbLockChg

/-- A base jumps to a value: its virtual edges with it, which REF sees as a phase step, and the rate measurements of the streams that use
the base start anew (R336, R351). -/
def Dev.baseJump (d : Dev) (b : Nat) (val : Nat) : Dev :=
  let x := d.base b
  let by_ : Int := sx 96 ((val + 2 ^ 96 - x.val % 2 ^ 96) % 2 ^ 96)
  let d := d.setBase b { x with val := val % 2 ^ 96, sec := ((x.sec + by_) % (10 ^ 9 * 2 ^ 64)).toNat, moved := x.moved + by_ }
  { d with str := { d.str with rx := d.str.rx.map (fun e => (e.1, if bits (e.2.cfg.getD 0 0) 17 2 = b then { e.2 with meas := .zero } else e.2)) } }

/-- Time until the next virtual edge of a base, 1 ms apart (R351), in 2^-64 ns. -/
def Dev.virtualEdge (d : Dev) (b : Nat) : Nat := 10 ^ 6 * 2 ^ 64 - (d.base b).sec % (10 ^ 6 * 2 ^ 64)

/-- A write of TB_PPS_NEXT says which value is the top of the second (R341, R351). -/
def Dev.ppsNextWrite (d : Dev) (b : Nat) (v : Word) : Dev :=
  let d := d.setFld (R.TB_PPS_NEXT_NEXT b) v.toNat
  let x := d.base b
  d.setBase b { x with sec := (sx 96 ((x.val + 2 ^ 96 - v.toNat * 2 ^ 64) % 2 ^ 96) % (10 ^ 9 * 2 ^ 64)).toNat }

/-- A SET or STEP moves a base: an active servo goes to ACQUIRE and keeps its integrator (R336). -/
def Dev.baseMoved (d : Dev) (b : Nat) (val : Nat) : Dev :=
  let d := d.baseJump b val
  if d.servoSrc b = 0 then d
  else
    let d := d.servoState b 1
    d.setBase b { d.base b with good := 0, outl := 0 }

/-- binary64 value nearest to 2π. -/
def twoPi64 : Fl := b64.round pi120 (-119)

/-- binary64 value nearest to 1.41421356. -/
def kpConst : Fl := b64.div ⟨141421356, 0⟩ ⟨100000000, 0⟩

/-- Clamp to ±lim. -/
def Fl.within (a lim : Fl) : Fl := if lim.lt a then lim else if a.lt lim.neg then lim.neg else a

/-- TB_OFFSET: θ saturated to a signed 32-bit ns; the spec states no rounding of its fraction. Log 20. -/
def Dev.showOffset (d : Dev) (b : Nat) (θ : Fl) : Dev :=
  let f := θ.floorMul 0
  let v := if (θ.addX ⟨-f, 0⟩).isZero then f else f + (d.freeNat 0 % 2 : Nat)
  (d.setFld (R.TB_OFFSET_THETA b) (tc 32 (satS 32 v))).drew 1

/-- Step 3 of R338. -/
def Dev.servoLoop (d : Dev) (b : Nat) (θ t : Fl) : Dev :=
  let x := d.base b
  let ω := b64.div (b64.mul twoPi64 ⟨d.fld (R.TB_SERVO_BW b), 0⟩) ⟨1000, 0⟩
  let kp := b64.mul kpConst ω
  let ki := b64.mul ω ω
  let lim : Fl := ⟨1000 * d.fld (R.TB_LIM_LIM b), 0⟩
  let i := (b64.add x.integ (b64.mul (b64.mul ki θ) t)).within lim
  let y := (b64.add (b64.mul kp θ) i).within lim
  let rate := clampI (-500000000) 500000000 ((b64.mul ⟨-1000, 0⟩ y).evenMul 0)
  let ok := θ.abs.le ⟨d.fld (R.TB_LOCK_THR_THR b), 0⟩
  let good := if ok then x.good + 1 else 0
  let d := d.setBase b { x with integ := i, good := good, outl := 0, gap := some 0 }
  let d := d.setFld (R.TB_RATE_RATE b) (tc 32 rate)
  if x.state = 1 ∧ 16 ≤ good then d.servoState b 2 else d

/-- One sample of the servo: offset in ns and interval in s (R338, R339). -/
def Dev.servoSample (d : Dev) (b : Nat) (θ t : Fl) : Dev :=
  if d.works tbuBase && !d.isStandby then
    let d := d.showOffset b θ
    let x := d.base b
    let stepThr := d.fld (R.TB_STEP_THR_THR b)
    let outThr := d.fld (R.TB_OUTLIER_THR b)
    let outlier := x.state == 2 && outThr != 0 && (⟨outThr, 0⟩ : Fl).lt θ.abs
    if outlier && decide (x.outl < 4) then
      ((d.setBase b { x with outl := x.outl + 1, good := 0 }).count (R.TB_OUTLIERS_COUNT b)).raise F.tbOutlier
    else
      let d := if outlier then d.servoState b 1 else d
      let x := d.base b
      if x.state = 1 ∧ stepThr ≠ 0 ∧ (⟨1000 * stepThr, 0⟩ : Fl).lt θ.abs then
        let v := ((x.val : Int) - θ.awayMul 0 * 2 ^ 64) % 2 ^ 96
        let d := d.baseJump b v.toNat
        ((d.setBase b { d.base b with good := 0, outl := 0, gap := some 0 }).count (R.TB_STEPS_COUNT b)).raise F.tbStepped
      else d.servoLoop b θ t
  else d

/-- Interval of a SW sample: base time since the previous accepted one, 1 ms to 16 s; 1 s for the first (R337). -/
def TBase.interval (x : TBase) : Fl :=
  match x.gap with
  | none => ⟨1, 0⟩
  | some g => b64.div (b64.round (clampN (10 ^ 6 * 2 ^ 64) (16 * 10 ^ 9 * 2 ^ 64) g : Nat) (-64)) ⟨10 ^ 9, 0⟩

/-- The servo's source is set by a write of TB_SERVO (R337, R339): the integrator is initialised where the servo leaves OFF. -/
def Dev.tbServoWrite (d : Dev) (b : Nat) (v : Word) : Dev :=
  let was := d.servoSrc b
  let wasTb := d.fld (R.TB_SERVO_SRC_TB b)
  let wasSrc := d.fld (R.TB_SERVO_SRC b)
  let d := d.setFlds [(R.TB_SERVO_BW b, clampN 10 1000 (bits v.toNat 16 10)), (R.TB_SERVO_SRC_TB b, bits v.toNat 4 2),
    (R.TB_SERVO_SRC b, bits v.toNat 0 3)]
  let now := d.servoSrc b
  if d.fld (R.TB_SERVO_SRC b) = wasSrc ∧ d.fld (R.TB_SERVO_SRC_TB b) = wasTb then d
  else if now = 0 then
    let d := d.servoState b 0
    d.setBase b { d.base b with locked := false, holdover := false, gap := none }
  else if was = now ∧ d.fld (R.TB_SERVO_SRC_TB b) = wasTb then d
  else
    let d := d.servoState b 1
    let x := d.base b
    d.setBase b { x with integ := if was = 0 then b64.div ⟨-(d.tbRate b), 0⟩ ⟨1000, 0⟩ else x.integ, good := 0, outl := 0, gap := none,
                         locked := false, holdover := false }

/-- A write of TB_RATE: refused while the servo has a source, limited otherwise (R337, R347). -/
def Dev.tbRateWrite (d : Dev) (b : Nat) (v : Word) : Dev :=
  if d.servoSrc b ≠ 0 then d.raise F.tbCfgRefused
  else d.setFld (R.TB_RATE_RATE b) (tc 32 (clampI (-500000000) 500000000 v.toInt))

/-- Difference of two 64-bit base values (ns and fraction), read as signed, in ns (R14). -/
def diffNs (a b : Nat) : Fl := ⟨sx 64 ((a + 2 ^ 64 - b % 2 ^ 64) % 2 ^ 64), -32⟩

/-- A paired PPS edge gives a servo sample (R341); `c` is the captured value (ns and fraction). -/
def Dev.ppsPair (d : Dev) (b c : Nat) : Dev :=
  let next := d.fld (R.TB_PPS_NEXT_NEXT b)
  let diff := sx 64 ((c + 2 ^ 64 - next * 2 ^ 32) % 2 ^ 64)
  let k := divAway diff (10 ^ 9 * 2 ^ 32)
  let θ := diff - k * (10 ^ 9 * 2 ^ 32)
  let d := d.setFld (R.TB_PPS_NEXT_NEXT b) (((next : Int) + (k + 1) * 10 ^ 9) % 2 ^ 32).toNat
  let d := d.setBase b { d.base b with holdover := false }
  d.servoSample b (b64.round θ (-32)) ⟨1, 0⟩

/-- What a slow edge adds to the error of a capture, in 0.25 ns: up to 10 % of a rise time above 5 ns (R543). -/
def slowEdge (rise : Nat) : Nat := if 5 < rise then 4 * rise / 10 else 0

/-- A captured value of a base now: 0.25 ns steps, within `q` of them of the instant (R344); which of those is free. Log 20. -/
def Dev.capValue (d : Dev) (b q : Nat) : Nat :=
  let v := (d.base b).val
  let e : Int := if q = 0 then 0 else if v % 2 ^ 62 = 0 then (d.freeNat 0 % (2 * q + 1) : Nat) - (q : Int) else (d.freeNat 0 % (2 * q) : Nat) - (q : Int) + 1
  (((v / 2 ^ 62 : Nat) + e) * 2 ^ 30 % 2 ^ 64).toNat

/-- Edge polarity the PPS servo takes: that of the first enabled channel with SRC PPS_IN, else rising (R341). -/
def ppsRising (d : Dev) : Bool :=
  match (List.range 8).find? (fun k => d.flag (R.CAP_CTL_EN k) && d.fld (R.CAP_CTL_SRC k) == 1) with
  | some k => d.fld (R.CAP_CTL_EDGE k) == 0
  | none => true

/-- A PPS_IN edge: every base with source PPS pairs it (R341). -/
def Dev.ppsEdge (d : Dev) (e : PinEdge) : Dev :=
  if d.works tbuBase && !d.isStandby && e.rising == ppsRising d then
    (List.range 4).foldl (fun d b =>
      if d.servoSrc b = 2 then let c := d.capValue b (4 + slowEdge e.rise); (d.drew 1).ppsPair b c else d) d
  else d

/-- An expected edge has passed by more than 0.5 s: holdover (R341). -/
def Dev.ppsMissing (d : Dev) (b : Nat) : Dev :=
  let next := d.fld (R.TB_PPS_NEXT_NEXT b)
  let late : Int := 500000000 * 2 ^ 32
  if d.works tbuBase && !d.isStandby && d.servoSrc b == 2 && decide (late < sx 64 (((d.base b).val / 2 ^ 32 + 2 ^ 64 - next * 2 ^ 32) % 2 ^ 64)) then
    let d := d.setFld (R.TB_PPS_NEXT_NEXT b) ((next + 10 ^ 9) % 2 ^ 32)
    (d.setBase b { d.base b with holdover := true }).raise F.ppsMissing
  else d

/-- A TB-sourced servo takes its sample (R337). -/
def Dev.servoTb (d : Dev) (b : Nat) : Dev :=
  if d.servoSrc b = 3 then
    let θ := diffNs ((d.base b).val / 2 ^ 32) ((d.base (d.fld (R.TB_SERVO_SRC_TB b))).val / 2 ^ 32)
    d.servoSample b (b64.round θ.m θ.e) (b64.div ⟨1, 0⟩ ⟨1000, 0⟩)
  else d

/-! ## TIME_STEER (R333 to R336) -/

namespace Steer
def tb (c : Cmd) : Nat := c.u8 16
def op (c : Cmd) : Nat := c.u8 17
end Steer

/-- The refusal of R335. -/
def steerDetail (d : Dev) (c : Cmd) : Option Nat :=
  if 3 < Steer.tb c then some 2
  else if 3 < Steer.op c then some 3
  else if (Steer.op c = 2 ∧ d.servoSrc (Steer.tb c) ≠ 0) ∨ (Steer.op c = 3 ∧ d.servoSrc (Steer.tb c) ≠ 1) then some 7
  else none

/-- What the base has counted since the boundary a command acts at (R334); nothing while the tick does not run. -/
def Dev.sinceBoundary (d : Dev) (b : Nat) : Nat := if d.running then d.tbu.since * tbInc (d.tbRate b) else 0

/-- The completion of TIME_STEER: the base just after the action at the instant of the boundary (R334). -/
def steerCpl (d : Dev) (b k : Nat) (late : Bool) : Cpl :=
  ⟨lateOk late, 0, ((d.base b).val + 2 ^ 96 - k % 2 ^ 96) % 2 ^ 96 / 2 ^ 32⟩

/-- SET: the base takes VALUE at the boundary. -/
def steerSet (d : Dev) (c : Cmd) (late : Bool) : Cpl × Dev :=
  let b := Steer.tb c
  let k := d.sinceBoundary b
  let d := d.baseMoved b (c.u64 24 * 2 ^ 32 + k)
  (steerCpl d b k late, d)

/-- STEP: VALUE ns are added. -/
def steerStep (d : Dev) (c : Cmd) (late : Bool) : Cpl × Dev :=
  let b := Steer.tb c
  let k := d.sinceBoundary b
  let d := d.baseMoved b ((((d.base b).val : Int) + sx 32 (c.u32 24) * 2 ^ 64) % 2 ^ 96).toNat
  (steerCpl d b k late, d)

/-- RATE: the rate word, limited. -/
def steerRate (d : Dev) (c : Cmd) (late : Bool) : Cpl × Dev :=
  let b := Steer.tb c
  let k := d.sinceBoundary b
  (steerCpl d b k late, d.setFld (R.TB_RATE_RATE b) (tc 32 (clampI (-500000000) 500000000 (sx 32 (c.u32 24)))))

/-- OFFSET: one sample for the servo. -/
def steerOffset (d : Dev) (c : Cmd) (late : Bool) : Cpl × Dev :=
  let b := Steer.tb c
  let k := d.sinceBoundary b
  let θ := b64.round (sx 64 (c.u64 24)) (-16)
  let d := d.servoSample b θ (d.base b).interval
  (steerCpl d b k late, d)

/-- TIME_STEER at its apply boundary. -/
def timeSteer (d : Dev) (c : Cmd) (late : Bool) : Cpl × Dev :=
  match steerDetail d c with
  | some n => (.bad n, d)
  | none =>
    match Steer.op c with
    | 0 => steerSet d c late
    | 1 => steerStep d c late
    | 2 => steerRate d c late
    | _ => steerOffset d c late

/-! ## Capture channels (R343, R344, R348) -/

/-- Channel `k` captures: the value of its base within `q` steps, corrected by CAP_LAT (subtracted for an input, added for an output). A
software capture, with none, is exact. -/
def Dev.capture (d : Dev) (k q : Nat) : Dev :=
  let src := d.fld (R.CAP_CTL_SRC k)
  let lat := sx 16 (d.fld (R.CAP_LAT_LAT k))
  let corr := if src = 6 then 0 else if src = 4 ∨ src = 5 then lat else -lat
  let v := (((d.capValue (d.fld (R.CAP_CTL_TB k)) q : Nat) : Int) + corr * 2 ^ 32) % 2 ^ 64
  let d := if q = 0 then d else d.drew 1
  let x := smGet (fun _ => Capt.zero) d.tbu.caps k
  let y : Capt := ⟨v.toNat, (x.count + 1) % 2 ^ (R.CAP_CNT_COUNT k).w, if q = 0 then x.last else d.tbu.now + 1⟩
  { d with tbu := { d.tbu with caps := smSet (fun _ => Capt.zero) d.tbu.caps k y } }

/-- A read of CAP_NS latches CAP_FRAC and CAP_CNT (R348). -/
def Dev.capNsRead (d : Dev) (k : Nat) : Nat × Dev :=
  let x := smGet (fun _ => Capt.zero) d.tbu.caps k
  (x.val / 2 ^ 32, d.setFlds [(R.CAP_FRAC_FRAC k, x.val % 2 ^ 32), (R.CAP_CNT_COUNT k, x.count)])

/-- A channel may capture an edge now: its last captured edge is 20 ns old, 10 TIME cycles (R343). -/
def Dev.capFree (d : Dev) (k : Nat) : Bool :=
  let x := smGet (fun _ => Capt.zero) d.tbu.caps k
  x.last == 0 || decide (x.last + 9 ≤ d.tbu.now)

/-- An edge on the signal that a channel selects. -/
def Dev.capEdge (d : Dev) (k src : Nat) (e : PinEdge) : Dev :=
  if d.works tbuBase && decide (k < 8) && d.flag (R.CAP_CTL_EN k) && d.fld (R.CAP_CTL_SRC k) == src && src != 0 && decide (src < 6) &&
      e.rising == (d.fld (R.CAP_CTL_EDGE k) == 0) && d.capFree k then d.capture k (4 + slowEdge e.rise)
  else d

/-- A boundary's TICK_OUT edge, the rising one, at every channel that selects it (R334, R343). -/
def Dev.capTick (d : Dev) : Dev := (List.range 8).foldl (fun d k => d.capEdge k 5 ⟨true, 0⟩) d

/-- A software capture on every channel that selects it (R344). -/
def Dev.capTrig (d : Dev) : Dev :=
  if d.works tbuBase then
    (List.range 8).foldl (fun d k =>
      if d.flag (R.CAP_CTL_EN k) && d.fld (R.CAP_CTL_SRC k) == 6 then d.capture k 0 else d) d
  else d

/-- Health of TBU (R350). -/
def tbuHealth (d : Dev) : UState × Nat :=
  let any := fun (p : TBase → Bool) => (List.range 4).any (fun b => p (d.base b) && d.servoSrc b != 0)
  if any (fun x => x.holdover) then (.degraded, 1)
  else if any (fun x => x.state == 1 && x.locked) then (.degraded, 2)
  else (.ok, 0)

/-! ## Meanings -/

/-- SNAP (R332). -/
def execSnap (s : State) := s.act (·.tbSnap)
/-- CAP_EDGE (R343, R344): an edge of signal `src` (code of CAP_CTL.SRC) at channel `k`. -/
def execCapEdge (k : Fin 8) (src : Fin 8) (rising : PinEdge) (s : State) := s.act (·.capEdge k.val src.val rising)
/-- CAP_TRIG (R344). -/
def execCapTrig (s : State) := s.act (·.capTrig)

end Sys2Proof.Machine
end

