-- ==== Sys2Proof/Machine/Sap.lean ====
section
/-! DEFINITION. The serial ports (spec 08): formats, PORT_CFG with its checks, envelopes, restarts, and the declarations of groups
as locked or free; and the SLP_MAP entries (spec 07) that say which directions have an ASRC channel. -/
namespace Sys2Proof.Machine

/-! ## SLP_MAP (R232 to R236) -/

namespace SlpM
def inW (d : Dev) (s : Nat) : Nat := d.live T.slpMap s
def egW (d : Dev) (e : Nat) : Nat := d.live T.slpMap (0x400 + e)
def asW (d : Dev) (a : Nat) : Nat := d.live T.slpMap (0x600 + a)
def en (w : Nat) : Bool := bitAt w 31
def kind (w : Nat) : Nat := bits w 29 2
def index (w : Nat) : Nat := bits w 18 11
/-- DEC; 3 acts as 1. -/
def dec (w : Nat) : Nat := let v := bits w 16 2; if v = 3 then 1 else v
/-- DCB; 3 acts as 0. -/
def dcb (w : Nat) : Nat := bits w 14 2 % 3
/-- Target of an ASRC entry: ingress slot, or 0x40000 + destination as the output patch numbers it. -/
def target (w : Nat) : Nat :=
  if bitAt w 30 then 0x40000 + (if bitAt w 17 then 0x20000 + bits w 0 14 else bits w 0 10) else bits w 0 10
end SlpM

/-- Enabled ASRC entries: channel and target, lowest channel first. One whose target does not exist at the current rate meets no path
there. -/
def asrcEntries (d : Dev) : List (Nat × Nat) :=
  (((d.tab T.slpMap).live.filter (fun e => 0x600 ≤ e.1 && e.1 < 0x700)).map (fun e => (e.1 - 0x600, e.2.toNat))).filterMap
    (fun e => if SlpM.en e.2 then some (e.1, SlpM.target e.2) else none)

/-- The channel that serves a target: that of lowest index (R236). -/
def asrcOf (d : Dev) (t : Nat) : Option Nat := ((asrcEntries d).find? (fun e => e.2 == t)).map Prod.fst

/-- Entries that a lower one keeps from their target, as channel + 256 * target. -/
def asrcIgnored (d : Dev) : List Nat :=
  ((asrcEntries d).filter (fun e => asrcOf d e.2 != some e.1)).map (fun e => e.1 + 256 * e.2)

/-! ## Formats (R253 to R255) -/

/-- Hz of a RATE code; 0 for 6 and 7. -/
def rateHz (r : Nat) : Nat := [44100, 48000, 88200, 96000, 176400, 192000].getD r 0

namespace GFmt
def clkSrc (w : Nat) : Nat := bits w 30 2
def sync (w : Nat) : Bool := bitAt w 29
def bclkInv (w : Nat) : Bool := bitAt w 28
def fsPol (w : Nat) : Bool := bitAt w 27
def fsForm (w : Nat) : Bool := bitAt w 26
def offset (w : Nat) : Nat := bits w 16 5
def rate (w : Nat) : Nat := bits w 21 3
def width (w : Nat) : Nat := bits w 8 6
def slots (w : Nat) : Nat := bits w 0 6
/-- BCLKs of a frame (R256). -/
def bclks (w : Nat) : Nat := slots w * width w
/-- Reserved bits read 0. -/
def mask : Nat := 0xFCFF3F3F
end GFmt

namespace PCtl
def inEn (w : Nat) : Bool := bitAt w 31
def outEn (w : Nat) : Bool := bitAt w 30
def memory (w : Nat) : Bool := bitAt w 29
def pack4 (w : Nat) : Bool := bitAt w 28
def host (w : Nat) : Bool := bitAt w 27
def tristate (w : Nat) : Bool := bitAt w 26
/-- MEM_LOG2: 0 acts as 1, above 8 as 8. -/
def memLog2 (w : Nat) : Nat := clampN 1 8 (bits w 16 4)
/-- Frames of a memory block. -/
def memFrames (w : Nat) : Nat := 8 * 2 ^ bits w 8 2
def mask : Nat := 0xFC0F0300
/-- The fields that both directions share: MODE, PACK, HOST, MEM_LOG2, MEM_FRAMES. -/
def shared (w : Nat) : Nat := w &&& 0x380F0300
end PCtl

/-- FADE as it acts (R254). -/
def fadeLen (ctl : Nat) : Nat := let v := bits ctl 0 10; if v = 0 then 64 else clampN 32 512 v

/-! ## State access -/

def Dev.grp (d : Dev) (g : Nat) : Grp := smGet (fun _ => Grp.zero) d.sap.grps g
def Dev.setGrp (d : Dev) (g : Nat) (x : Grp) : Dev := { d with sap := { d.sap with grps := smSet (fun _ => Grp.zero) d.sap.grps g x } }
def Dev.port (d : Dev) (p : Nat) : PortS := smGet (fun _ => PortS.zero) d.sap.ports p
def Dev.setPort (d : Dev) (p : Nat) (x : PortS) : Dev :=
  { d with sap := { d.sap with ports := smSet (fun _ => PortS.zero) d.sap.ports p x } }

def Dev.gFmt (d : Dev) (g : Nat) : Nat := d.fld (R.GRP_FMT_FMT g)
def Dev.pCtl (d : Dev) (p : Nat) : Nat := d.fld (R.PORT_CTL_CTL p)
def grpPorts (g : Nat) : List Nat := [4 * g, 4 * g + 1, 4 * g + 2, 4 * g + 3]

/-- Slots below SLOTS as a mask (R252). -/
def slotMask (fmt : Nat) : Nat := 2 ^ GFmt.slots fmt - 1

def popcount (n : Nat) : Nat := ((List.range 32).filter (bitAt n)).length

/-- A direction in use: enabled in the PORT_CTL in force, of a port that works. -/
def Dev.dirOn (d : Dev) (p : Nat) (out : Bool) : Bool :=
  d.works (portBase p) && (if out then PCtl.outEn (d.pCtl p) else PCtl.inEn (d.pCtl p))

/-- SAP_SLOTS: enabled slots over all ports, by direction (R252, R276). -/
def sapSlots (d : Dev) (out : Bool) : Nat :=
  ((List.range 32).map (fun p =>
    if d.dirOn p out then
      popcount (d.fld (if out then R.PORT_MASK_OUT_MASK p else R.PORT_MASK_IN_MASK p) &&& slotMask (d.gFmt (p / 4)))
    else 0)).foldl (· + ·) 0

/-- Fn of a group. -/
def Dev.grpFn (d : Dev) (g : Nat) : Nat := rateHz (GFmt.rate (d.gFmt g))

/-- Nominal rate and locking of a port's direction in stream mode; none for one that supplies nothing (R259, R263). -/
def portRate (d : Dev) (p : Nat) (out : Bool) : Option (Nat × Bool) :=
  let g := p / 4
  let x := d.port p
  let e := if out then x.outE else x.inE
  if (d.dirOn p out || e.g != 0) && GFmt.slots (d.gFmt g) != 0 && !PCtl.memory (d.pCtl p) then
    some (d.grpFn g, d.flag (R.GRP_STAT_LOCKED g))
  else none

/-- Slot `k` is enabled and configured in a direction. -/
def slotOn (d : Dev) (p k : Nat) (out : Bool) : Bool :=
  bitAt (d.fld (if out then R.PORT_MASK_OUT_MASK p else R.PORT_MASK_IN_MASK p) &&& slotMask (d.gFmt (p / 4))) k

/-! ## Envelopes (R262) -/

/-- A fall starts: from full it takes the FADE in force, from within a fade it goes on from the value reached. A fall in progress
is not lengthened (R274). -/
def Env.startFall (fade : Nat) (fault : Bool) (e : Env) : Env :=
  let e := { e with fault := e.fault || (fault && e.g != 0) }
  if e.g = 0 ∨ e.fall then e
  else if e.g = e.f then { e with fall := true, g := fade, f := fade }
  else { e with fall := true }

/-- One frame. It rises where the direction is in use, not silent, and its group was resynchronised before the frame. -/
def Env.step (fade : Nat) (may : Bool) (e : Env) : Env :=
  if e.fall then (if e.g ≤ 1 then { e with g := 0, fall := false } else { e with g := e.g - 1 })
  else if may && !e.silent && e.wait == 0 && decide (e.g < e.f ∨ e.g = 0) then
    let e := if e.g = 0 then { e with f := fade } else e
    let e := { e with g := e.g + 1 }
    if e.g = e.f then { e with fault := false } else e
  else e

/-- A right frame has passed. -/
def Env.good (e : Env) : Env := { e with wait := e.wait - 1 }

/-- An S24 value under the envelope. -/
def Env.apply (e : Env) (x : Int) : Int := if e.f = 0 then 0 else divEven (x * e.g) e.f

/-- Act on an envelope of a port. -/
def Dev.onEnv (d : Dev) (p : Nat) (out : Bool) (f : Env → Env) : Dev :=
  let x := d.port p
  d.setPort p (if out then { x with outE := f x.outE } else { x with inE := f x.inE })

def Dev.onEnvs (d : Dev) (g : Nat) (f : Env → Env) : Dev :=
  (grpPorts g).foldl (fun d p => (d.onEnv p false f).onEnv p true f) d

/-! ## Restarts (R260, R261) -/

/-- GRP_STAT.LOCKED follows R259. -/
def Dev.declare (d : Dev) (g : Nat) : Dev :=
  let w := d.gFmt g
  let locked := GFmt.slots w != 0 &&
    (GFmt.clkSrc w == 0 || (GFmt.clkSrc w == 2 && GFmt.sync w && !d.flag (R.GRP_STAT_RATE_OUT g) && !(d.grp g).slipping))
  d.setFld (R.GRP_STAT_LOCKED g) (b2n locked)

/-- Every envelope of a group is at 0. -/
def Dev.grpQuiet (d : Dev) (g : Nat) : Bool :=
  (grpPorts g).all (fun p => (d.port p).inE.g == 0 && (d.port p).outE.g == 0)

/-- The waiting GRP_FMT applies once every envelope is at 0: the group resynchronises, a MEDIA group from the next boundary on
(R261); fault handling in progress ends (R274). Play records that stand when the group starts anew are there for its first block. DEDUCED,
log 136. -/
def Dev.grpApply (d : Dev) (g : Nat) : Dev :=
  match (d.grp g).want with
  | none => d
  | some w =>
    if d.grpQuiet g then
      let d := d.setFlds [(R.GRP_FMT_FMT g, w), (R.GRP_STAT_SYNC_STATE g, if GFmt.slots w = 0 then 0 else 1),
        (R.GRP_STAT_RATE_OUT g, 0), (R.GRP_STAT_DEV g, 0)]
      let d := (d.setGrp g { Grp.zero with ctlWant := (d.grp g).ctlWant, measure := true, restart := GFmt.clkSrc w == 0,
                                           below := (d.grp g).below }).declare g
      let d := d.onEnvs g (fun e => { e with fall := false, silent := false, wait := 0, fault := false })
      (grpPorts g).foldl (fun d p =>
        d.setPort p { d.port p with inQ := [], outQ := [], lastIn := [], lastOut := [], prevOut := [], cap := .zero,
                                    ply := { PlyRun.zero with seen := d.fld (R.PORT_PLY_WIDX_IDX p) } }) d
    else d

/-- Directions that a waiting port configuration restarts: input, output (R261). -/
def portInvolved (d : Dev) (p : Nat) (w : List Nat) : Bool × Bool :=
  let now := d.pCtl p
  let new := w.getD 0 0
  let shared := PCtl.shared now != PCtl.shared new
  let base := PCtl.memory now && [d.fld (R.PORT_CAP_BASE_LO_BASE p), d.fld (R.PORT_CAP_BASE_HI_BASE p),
    d.fld (R.PORT_PLY_BASE_LO_BASE p), d.fld (R.PORT_PLY_BASE_HI_BASE p)] != w.drop 1
  (shared || base || PCtl.inEn now != PCtl.inEn new, shared || base || PCtl.outEn now != PCtl.outEn new)

/-- The waiting port configuration applies once the envelopes it restarts are at 0; they then wait for two right frames. -/
def Dev.portApply (d : Dev) (p : Nat) : Dev :=
  match (d.port p).want with
  | none => d
  | some w =>
    let (i, o) := portInvolved d p w
    let x := d.port p
    if (!i || x.inE.g == 0) && (!o || x.outE.g == 0) then
      let re := fun (b : Bool) (e : Env) => if b then { e with fall := false, silent := false, wait := 2, fault := false } else e
      let d := d.setFlds [(R.PORT_CTL_CTL p, w.getD 0 0), (R.PORT_CAP_BASE_LO_BASE p, w.getD 1 0), (R.PORT_CAP_BASE_HI_BASE p, w.getD 2 0),
        (R.PORT_PLY_BASE_LO_BASE p, w.getD 3 0), (R.PORT_PLY_BASE_HI_BASE p, w.getD 4 0)]
      d.setPort p { x with want := none, inE := re i x.inE, outE := re o x.outE, cap := if i then .zero else x.cap,
                           ply := if o then { PlyRun.zero with seen := x.ply.seen } else x.ply, inQ := if i then [] else x.inQ, outQ := if o then [] else x.outQ }
    else d

/-- A shadowed mask of stream mode takes effect at a frame boundary, of memory mode at a memory block boundary (R260). -/
def Dev.maskApply (d : Dev) (p : Nat) : Dev :=
  let x := d.port p
  let d := match x.maskIn with | some m => d.setFld (R.PORT_MASK_IN_MASK p) m | none => d
  let d := match x.maskOut with | some m => d.setFld (R.PORT_MASK_OUT_MASK p) m | none => d
  (d.setPort p { d.port p with maskIn := none, maskOut := none }).setFlds [(R.PORT_PEND_IN p, 0), (R.PORT_PEND_OUT p, 0)]

/-- Envelopes follow a change of what works: a direction whose port has stopped working is at 0 at once, and its data with it
(R47); one that resumes waits for two right frames. -/
def Dev.sapRefresh (d : Dev) : Dev :=
  (d.sap.ports.map Prod.fst).foldl (fun d p =>
    if d.works (portBase p) then d
    else d.setPort p { d.port p with inE := { Env.zero with wait := 2 }, outE := { Env.zero with wait := 2 }, inQ := [], outQ := [],
                                     next := [], rep := false }) d

/-! ## PORT_CFG (R251, R252) -/

namespace Pc
def group (c : Cmd) : Bool := bitAt (c.u8 16) 7
def sel (c : Cmd) : Nat := c.u8 17 &&& (if group c then 3 else 15)
def port (c : Cmd) : Nat := bits (c.u8 16) 0 5
def grp (c : Cmd) : Nat := bits (c.u8 16) 0 3
def fmt (c : Cmd) : Nat := c.u32 20 &&& GFmt.mask
def gctl (c : Cmd) : Nat := c.u32 24 &&& 0x3FF
def ctl (c : Cmd) : Nat := c.u32 20 &&& PCtl.mask
def bases (c : Cmd) : List Nat := [c.u32 32 &&& 0xFFFFF000, c.u32 36 &&& 3, c.u32 40 &&& 0xFFFFF000, c.u32 44 &&& 3]
end Pc

/-- A GRP_FMT fails the checks of detail 3 (R252). Of an idle group, which has no bit clock to divide, the divisor is not judged. DESIGN
CHOICE, log 21. -/
def fmtBad (d : Dev) (w : Nat) : Bool :=
  let fn := rateHz (GFmt.rate w)
  let bclks := GFmt.bclks w
  let fam44 := if GFmt.clkSrc w = 1 then d.flag (R.DPLL_CTL_FAMILY 1) else d.flag R.TOP_RATE_FAMILY
  let base := if fam44 then 44100 else 48000
  decide (5 < GFmt.rate w) || GFmt.clkSrc w == 3 || decide (GFmt.width w < 16 ∨ 32 < GFmt.width w) || decide (32 < GFmt.slots w)
    || decide (49152000 < fn * bclks)
    || (decide (GFmt.clkSrc w < 2) && (fn % base != 0 || (GFmt.slots w != 0 && 2048 % (fn / base * bclks) != 0)))

/-- Configurations as they will be once every restart has applied. -/
def Dev.cfgFmt (d : Dev) (g : Nat) : Nat := (d.grp g).want.getD (d.gFmt g)
def Dev.cfgCtl (d : Dev) (p : Nat) : Nat := match (d.port p).want with | some w => w.getD 0 0 | none => d.pCtl p
def Dev.cfgMask (d : Dev) (p : Nat) (out : Bool) : Nat :=
  if out then (d.port p).maskOut.getD (d.fld (R.PORT_MASK_OUT_MASK p)) else (d.port p).maskIn.getD (d.fld (R.PORT_MASK_IN_MASK p))

/-- The configuration a PORT_CFG asks for: GRP_FMT by group, PORT_CTL and mask by port. -/
def askedFmt (d : Dev) (c : Cmd) (g : Nat) : Nat :=
  if Pc.group c && bitAt (Pc.sel c) 0 && Pc.grp c == g then Pc.fmt c else d.cfgFmt g
def askedCtl (d : Dev) (c : Cmd) (p : Nat) : Nat :=
  if !Pc.group c && bitAt (Pc.sel c) 0 && Pc.port c == p then Pc.ctl c else d.cfgCtl p
def askedMask (d : Dev) (c : Cmd) (p : Nat) (out : Bool) : Nat :=
  if !Pc.group c && bitAt (Pc.sel c) (if out then 2 else 1) && Pc.port c == p then c.u32 (if out then 28 else 24) else d.cfgMask p out

/-- Slots that would be enabled in a direction. -/
def askedSlots (d : Dev) (c : Cmd) (out : Bool) : Nat :=
  ((List.range 32).map (fun p =>
    let ctl := askedCtl d c p
    if d.effEn (portBase p) && (if out then PCtl.outEn ctl else PCtl.inEn ctl) then
      popcount (askedMask d c p out &&& slotMask (askedFmt d c (p / 4)))
    else 0)).foldl (· + ·) 0

/-- Group form: GRP_FMT restarts the group, GRP_CTL waits for the next frame boundary (R261). -/
def groupCfg (d : Dev) (c : Cmd) : Dev :=
  let g := Pc.grp c
  let d := if bitAt (Pc.sel c) 1 then d.setGrp g { d.grp g with ctlWant := some (Pc.gctl c) } else d
  if bitAt (Pc.sel c) 0 && Pc.fmt c != d.cfgFmt g then
    ((d.setGrp g { d.grp g with want := some (Pc.fmt c) }).onEnvs g (Env.startFall (fadeLen (d.fld (R.GRP_CTL_CTL g))) false)).grpApply g
  else d

/-- Port form: masks are shadowed; a change of TRISTATE alone applies at once, everything else restarts the directions it concerns, and
what comes with it waits for the restart. -/
def portCfgPort (d : Dev) (c : Cmd) : Dev :=
  let p := Pc.port c
  let sel := Pc.sel c
  let x := d.port p
  let x := if bitAt sel 1 then { x with maskIn := some (c.u32 24) } else x
  let x := if bitAt sel 2 then { x with maskOut := some (c.u32 28) } else x
  let d := (d.setPort p x).setFlds [(R.PORT_PEND_IN p, b2n x.maskIn.isSome), (R.PORT_PEND_OUT p, b2n x.maskOut.isSome)]
  let old := match x.want with
    | some w => w
    | none => [d.pCtl p, d.fld (R.PORT_CAP_BASE_LO_BASE p), d.fld (R.PORT_CAP_BASE_HI_BASE p), d.fld (R.PORT_PLY_BASE_LO_BASE p),
        d.fld (R.PORT_PLY_BASE_HI_BASE p)]
  let new := (if bitAt sel 0 then Pc.ctl c else old.getD 0 0) :: (if bitAt sel 3 then Pc.bases c else old.drop 1)
  if bitAt sel 0 || bitAt sel 3 then
    let (i, o) := portInvolved d p new
    let fade := fadeLen (d.fld (R.GRP_CTL_CTL (p / 4)))
    let d := d.setPort p { d.port p with want := some new }
    let d := if i then d.onEnv p false (Env.startFall fade false) else d
    let d := if o then d.onEnv p true (Env.startFall fade false) else d
    d.portApply p
  else d

/-- PORT_CFG at its apply boundary. -/
def portCfg (d : Dev) (c : Cmd) (late : Bool) : Cpl × Dev :=
  let sel := Pc.sel c
  if sel = 0 then (⟨lateOk late, 0, 0⟩, d)
  else if c.u8 16 &&& (if Pc.group c then 0x78 else 0x60) ≠ 0 then (.bad 2, d)
  else if Pc.group c && bitAt sel 0 && fmtBad d (Pc.fmt c) then (.bad 3, d)
  else if d.cap 1024 < askedSlots d c false ∨ d.cap 1024 < askedSlots d c true then (⟨.noSpace, 0, 0⟩, d)
  else (⟨lateOk late, 0, 0⟩, if Pc.group c then groupCfg d c else portCfgPort d c)

/-! ## Rate faults (R272, R273) -/

/-- Some path of a direction has an ASRC channel assigned. -/
def dirHasAsrc (d : Dev) (p : Nat) (out : Bool) : Bool :=
  !PCtl.memory (d.pCtl p) &&
  (asrcEntries d).any (fun e =>
    if out then decide (0x40000 ≤ e.2 ∧ e.2 < 0x60000) && (e.2 - 0x40000) / 32 == p
    else decide (e.2 < 0x40000) && SlpM.en (SlpM.inW d e.2) && SlpM.kind (SlpM.inW d e.2) == 1 && SlpM.index (SlpM.inW d e.2) / 32 == p)

/-- A rate window gives `dev` ppm against Fn (R272). -/
def Dev.rateWindow (d : Dev) (g : Nat) (dev : Int) : Dev :=
  let w := d.gFmt g
  if !d.works (grpBase g) || GFmt.slots w == 0 then d
  else
    let d := d.setFld (R.GRP_STAT_DEV g) (tc 16 (satS 16 dev))
    if 1000 < dev.natAbs then
      let d := (d.raise (F.grpRateChg g)).setFld (R.GRP_STAT_RATE_OUT g) 1
      if GFmt.clkSrc w = 2 ∧ GFmt.sync w = true then
        let fade := fadeLen (d.fld (R.GRP_CTL_CTL g))
        (grpPorts g).foldl (fun d p => [false, true].foldl (fun d out =>
          if dirHasAsrc d p out then d
          else d.onEnv p out (fun e => { e.startFall fade true with silent := true })) d)
          ((d.setGrp g { d.grp g with recover := false }).declare g)
      else d
    else d

/-- The rate has stayed within 0.1 % for 50 ms: a synchronous group is locked again at the next boundary (R272). RATE_OUT of any other group,
for which the spec gives no recovery, clears at once. DESIGN CHOICE, log 135. -/
def Dev.rateRecover (d : Dev) (g : Nat) : Dev :=
  if !d.works (grpBase g) || !d.flag (R.GRP_STAT_RATE_OUT g) then d
  else if GFmt.clkSrc (d.gFmt g) = 2 ∧ GFmt.sync (d.gFmt g) = true then d.setGrp g { d.grp g with recover := true }
  else d.setFld (R.GRP_STAT_RATE_OUT g) 0

/-- Some direction of a group falls. -/
def Dev.grpFalls (d : Dev) (g : Nat) : Bool := (grpPorts g).any (fun p => (d.port p).inE.fall || (d.port p).outE.fall)

/-- Every direction in use is back at F (R278). -/
def Dev.grpBack (d : Dev) (g : Nat) : Bool :=
  (grpPorts g).all (fun p => (!d.dirOn p false || (d.port p).inE.g == (d.port p).inE.f) && (!d.dirOn p true || (d.port p).outE.g == (d.port p).outE.f))

/-- What the interval that ends shows of a group's envelopes stands until the next boundary (R278). -/
def Dev.grpClose (d : Dev) (g : Nat) : Dev :=
  let x := d.grp g
  let low := GFmt.slots (d.gFmt g) != 0 && !d.grpBack g
  d.setGrp g { x with slipRec := x.slipRec && low, below := low }

/-- What a boundary does to the groups: MEDIA clocks restart (R261), a rate fault that has passed ends, φ0 is measured afresh and
silent directions may rise (R272). A slip fault stands until the first boundary at which no direction of the group falls, for the spec
does not say when it ends. DESIGN CHOICE, log 110. -/
def Dev.grpBoundary (d : Dev) (g : Nat) : Dev :=
  let x := d.grp g
  let d := d.setGrp g { x with restart := false, recover := false, measure := x.measure || x.recover, edge := none, inTick := 0,
                               slipping := x.slipping && d.grpFalls g }
  let d := if x.slipping && !(d.grp g).slipping then d.declare g else d
  if x.recover then
    ((d.setFld (R.GRP_STAT_RATE_OUT g) 0).declare g).onEnvs g (fun e => { e with silent := false })
  else d

end Sys2Proof.Machine
end

