-- ==== Sys2Proof/Machine/Ref.lean ====
section
/-! DEFINITION. References, DPLLs and clock outputs (spec 12). -/
namespace Sys2Proof.Machine

/-! ## References (R351 to R356) -/

/-- NOM names a nominal frequency (R351, R377). -/
def refNomOk (d : Dev) (i : Nat) : Bool :=
  let n := d.fld (R.REF_IN_CFG_NOM i)
  if i < 2 then decide (1000 ≤ n) && decide (n ≤ 192000) else if i < 4 then n == 1 || n == 5 || n == 10 else true

/-- Group of a BCLK reference. -/
def refGroup (d : Dev) (i : Nat) : Nat := d.fld (R.REF_IN_CFG_NOM i) % 8

/-- A reference is active (R351); the pins WCK, FREF and PPS by their edges. -/
def refActive (d : Dev) (i : Nat) : Bool :=
  if i < 5 then d.flag (R.REF_IN_STAT_ACTIVE i)
  else if i < 9 then GFmt.clkSrc (d.gFmt (refGroup d i)) == 2 && d.fld (R.GRP_STAT_SYNC_STATE (refGroup d i)) == 2
  else if i < 13 then (d.base (i - 9)).state != 1
  else d.works tthBase && d.tth.linkOk && d.tth.markers

/-- FOFS of a reference in ppt. -/
def Dev.fofs (d : Dev) (i : Nat) : Int := sx 32 (d.fld (R.REF_IN_FOFS_FOFS i))

def Dev.qstate (d : Dev) (i : Nat) : Nat := d.fld (R.REF_IN_STAT_QSTATE i)

/-- SOFT and HARD follow FOFS and the limits; SOFT_WARN at each rise of SOFT (R356). -/
def Dev.refLimits (d : Dev) (i : Nat) : Dev :=
  let o := (d.fofs i).natAbs
  let soft := decide (1000 * d.fld R.REF_SOFT_SOFT < o)
  let hard := decide (1000 * d.fld R.REF_HARD_HARD < o)
  let was := d.flag (R.REF_IN_STAT_SOFT i)
  (d.setFlds [(R.REF_IN_STAT_SOFT i, b2n soft), (R.REF_IN_STAT_HARD i, b2n hard)]).raiseIf (soft && !was) F.softWarn

/-- One reference's qualification state follows EN, activity and HARD (R355). A time base's FOFS is its RATE (R354); TETHER is not
measured against the limits. -/
def Dev.refEval (d : Dev) (i : Nat) : Dev :=
  let d := if 9 ≤ i ∧ i < 13 then d.setFld (R.REF_IN_FOFS_FOFS i) (tc 32 (d.tbRate (i - 9))) else d
  let d := if i < 13 then d.refLimits i else d
  let act := refActive d i
  let hard := d.flag (R.REF_IN_STAT_HARD i)
  let q := d.qstate i
  let q := if !d.flag (R.REF_IN_CFG_EN i) then 0 else if q = 0 then 1 else q
  let q := if 2 ≤ q && !act then 1 else q
  let q := if q == 2 && hard then 1 else q
  let q := if q == 1 && act && !hard && refNomOk d i then 2 else q
  d.setFlds [(R.REF_IN_STAT_ACTIVE i, b2n act), (R.REF_IN_STAT_QSTATE i, q)]

/-- A change of the format of the group that a BCLK reference names returns it to INVALID (R352). -/
def Dev.refFormats (d : Dev) : Dev :=
  [5, 6, 7, 8].foldl (fun d i =>
    let f := d.gFmt (refGroup d i)
    if smGet (fun _ => 0) d.ref.fmts i = f then d
    else
      let d := { d with ref := { d.ref with fmts := smSet (fun _ => 0) d.ref.fmts i f } }
      if d.qstate i = 0 then d else d.setFld (R.REF_IN_STAT_QSTATE i) 1) d

/-! ## Selection (R357 to R360) -/

/-- Rank of a reference for a DPLL. -/
def refRank (d : Dev) (p i : Nat) : Nat := d.fld (if p = 0 then R.REF_IN_CFG_RANK_A i else R.REF_IN_CFG_RANK_B i)

/-- QUALIFIED references with a rank, in index order. -/
def refCands (d : Dev) (p : Nat) : List Nat := (List.range 13).filter (fun i => d.qstate i == 3 && refRank d p i != 0)

/-- Those of the best rank. -/
def refBest (d : Dev) (p : Nat) : List Nat :=
  let l := refCands d p
  let r := l.foldl (fun r i => min r (refRank d p i)) 16
  l.filter (fun i => refRank d p i == r)

/-- Automatic selection with `cur` selected; 15 is none. -/
def autoSelect (d : Dev) (p cur : Nat) : Nat :=
  let best := refBest d p
  let first := best.headD 15
  if (refCands d p).contains cur && !(d.flag (R.DPLL_CTL_REVERTIVE p) && !best.contains cur) then cur else first

/-- The DPLL follows TETHER (R360). -/
def followsTether (d : Dev) (p : Nat) : Bool := p == 0 && d.tth.role == .standby && refActive d 13

/-- The reference a DPLL selects. -/
def dpllSelect (d : Dev) (p : Nat) : Nat :=
  if followsTether d p then 13
  else match (d.dpll p).forced with
    | some i => if refActive d i && d.flag (R.REF_IN_CFG_EN i) then i else 15
    | none => autoSelect d p (d.fld (R.DPLL_STAT_SEL p))

/-- A disagreement among the best rank (R358). -/
def refDisagrees (d : Dev) (p : Nat) : Bool :=
  let l := refBest d p
  let lim := 1000 * d.fld R.REF_DISAGREE_PPB_LIMIT
  l.any (fun i => l.any (fun j => decide (lim < (d.fofs i - d.fofs j).natAbs)))

/-- The DPLL runs (R361). -/
def dpllOn (d : Dev) (p : Nat) : Bool := d.top.st != .off && (p == 0 || d.flag (R.DPLL_CTL_EN p))

/-- Frequency that the anchor moves to, in ppt (R362). -/
def dpllAnchor (d : Dev) (p st sel : Nat) : Int :=
  if st = 4 then sx 32 (d.fld (R.DPLL_DCO_DCO p)) else if st = 1 then sx 32 (d.fld (R.DPLL_FB_FB p)) else d.fofs sel

/-- The period of a reference in 4·10^-18 ns (R351). -/
def refPeriod (d : Dev) (i : Nat) : Nat :=
  let g := d.gFmt (refGroup d i)
  let hz := if i < 2 then d.fld (R.REF_IN_CFG_NOM i) else if i < 4 then 1000000 * d.fld (R.REF_IN_CFG_NOM i) else if i = 4 then 1
    else if i < 9 then rateHz (GFmt.rate g) * GFmt.slots g * GFmt.width g else 1000
  25 * 10 ^ 25 / max 1 hz

/-- An offset within a period `q`, wrapped into (-q/2, q/2] (R363). -/
def wrapPhase (q : Nat) (e : Int) : Int :=
  let r := e % (max 1 q : Nat)
  if (q : Int) < 2 * r then r - q else r

/-- The phase error that a DPLL finds against reference `i`: where the reference's next edge lies is outside (R363, log 30). -/
def Dev.dpllFresh (d : Dev) (p i : Nat) : Dev :=
  (d.setDpll p { d.dpll p with err := wrapPhase (refPeriod d i) (d.freeNat 0) }).drew 1

/-- A DPLL enters a state; a LOCKED one leaves its mean behind (R378), and DPLL-A's leaving LOCKED is a trip cause (R406). -/
def Dev.dpllState (d : Dev) (p st : Nat) : Dev :=
  let was := d.dpllSt p
  if was = st then d
  else
    let d := match was, (d.dpll p).mean with
      | 3, some m => d.setFld (R.DPLL_AVG_AVG p) (tc 32 (satS 32 m))
      | _, _ => d
    let d := if was = 3 ∧ p = 0 then d.tripMaskable R.TTH_CTL_UNLOCK_TRIP else d
    let d := d.setFld (R.DPLL_STAT_STATE p) st
    let d := d.raiseIf (was == 2 || was == 3 || st == 2 || st == 3) F.refLockChg
    d.raiseIf (st == 1) F.freerunEntered

/-- A DPLL follows its settings and the qualification states. -/
def Dev.dpllEval (d : Dev) (p : Nat) : Dev :=
  if !dpllOn d p then
    let d := if d.fld (R.DPLL_STAT_STATE p) = 0 then d else d.dpllState p 0
    (d.setDpll p { d.dpll p with locked := false }).setFlds
      [(R.DPLL_STAT_SEL p, 15), (R.DPLL_STAT_DISAGREE p, 0), (R.DPLL_STAT_TETHER p, 0)]
  else
    let d := if d.fld (R.DPLL_STAT_STATE p) = 0 then d.dpllState p 1 else d
    let st := d.fld (R.DPLL_STAT_STATE p)
    let old := d.fld (R.DPLL_STAT_SEL p)
    let sel := dpllSelect d p
    let tether := followsTether d p
    let switch := sel != old && sel != 15 && old != 15
    let d := d.setFlds [(R.DPLL_STAT_SEL p, sel), (R.DPLL_STAT_TETHER p, b2n tether)]
    let d := if switch then (d.count (R.DPLL_SWITCH_COUNT p)).raise F.refSwitch else d
    let st' := if (d.dpll p).dco && !tether then 4 else if sel = 15 then 1
      else if (st == 2 || st == 3) && sel == old then st else 2
    let d := d.dpllState p st'
    let d := if st' = 2 ∧ (sel != old || !(st == 2 || st == 3)) = true then d.dpllFresh p sel else d
    let x := d.dpll p
    let d := d.setDpll p { x with target := 500000 * dpllAnchor d p st' sel, moving := x.moving || st' != st && !(st' == 3 || st == 3 && st' == 2) || sel != old }
    let dis := refDisagrees d p
    let d := d.raiseIf (dis && !d.flag (R.DPLL_STAT_DISAGREE p)) F.refDisagree
    d.setFld (R.DPLL_STAT_DISAGREE p) (b2n dis)

/-- A DPLL that is locking to a base takes the base's jump as a phase step; it leaves LOCKED where its phase error then exceeds
4 × LOCK_THR (R336, R361). -/
def Dev.dpllPhase (d : Dev) (b p : Nat) : Dev :=
  let st := d.dpllSt p
  if (st = 2 ∨ st = 3) ∧ d.fld (R.DPLL_STAT_SEL p) = 9 + b then
    let err := wrapPhase (refPeriod d (9 + b)) ((d.dpll p).err - divAway ((d.base b).moved * (25 * 10 ^ 16)) (2 ^ 64))
    let d := d.setDpll p { d.dpll p with err := err }
    if st = 3 ∧ 4 * d.fld (R.DPLL_LOCK_THR p) * (25 * 10 ^ 16) < err.natAbs then d.dpllState p 2 else d
  else d

/-- The jumps of the bases reach REF. -/
def Dev.refPhases (d : Dev) : Dev :=
  (List.range 4).foldl (fun d b =>
    if (d.base b).moved = 0 then d
    else
      let d := (d.dpllPhase b 0).dpllPhase b 1
      d.setBase b { d.base b with moved := 0 }) d

/-- REF follows everything that its references and DPLLs depend on. A standby that the loss of LOCK retires stops following TETHER at
once (R360, R406). -/
def Dev.refFollow (d : Dev) : Dev :=
  if !d.works refBase then d
  else
    let d := d.refPhases
    let d := (List.range 14).foldl Dev.refEval d.refFormats
    let role := d.tth.role
    let d := (d.dpllEval 0).dpllEval 1
    if d.tth.role = role then d else d.dpllEval 0

/-- A measurement of FOFS in ppt. -/
def Dev.refMeasure (d : Dev) (i : Nat) (fofs : Int) : Dev :=
  if d.works refBase && refActive d i then (d.setFld (R.REF_IN_FOFS_FOFS i) (tc 32 (satS 32 fofs))).refFollow else d

/-- Edges of a pin stop or return (R353). -/
def Dev.refActivity (d : Dev) (i : Nat) (on : Bool) : Dev :=
  if d.works refBase then (d.setFld (R.REF_IN_STAT_ACTIVE i) (b2n on)).refFollow else d

/-- VALID has elapsed in VALIDATING. -/
def Dev.refQual (d : Dev) (i : Nat) : Dev :=
  if d.works refBase && d.qstate i == 2 then ((d.setFld (R.REF_IN_STAT_QSTATE i) 3).raise F.qual).refFollow else d

/-- DWELL beyond HARD has elapsed. -/
def Dev.refDisqual (d : Dev) (i : Nat) : Dev :=
  if d.works refBase && d.qstate i == 3 && d.flag (R.REF_IN_STAT_HARD i) then
    ((d.setFld (R.REF_IN_STAT_QSTATE i) 1).raise F.disqual).refFollow
  else d

/-- LOCK_TIME has passed within LOCK_THR: the phase error lies within it. -/
def Dev.dpllLock (d : Dev) (p : Nat) : Dev :=
  if d.works refBase && d.dpllSt p == 2 then
    let lim : Int := d.fld (R.DPLL_LOCK_THR p) * (25 * 10 ^ 16)
    let d := d.dpllState p 3
    d.setDpll p { d.dpll p with locked := true, err := clampI (-lim) lim (d.dpll p).err }
  else d

/-- The phase error has left 4 × LOCK_THR, or CLAMP has become 1; what it is then comes from outside (log 30). -/
def Dev.dpllUnlock (d : Dev) (p : Nat) : Dev :=
  if d.works refBase && d.dpllSt p == 3 then ((d.dpllState p 2).dpllFresh p (d.fld (R.DPLL_STAT_SEL p))).refFollow else d

/-! ## Registers with an effect -/

/-- A write of REF_IN_CFG (R352, R377). -/
def Dev.refInCfg (d : Dev) (i : Nat) (v : Word) : Dev :=
  if i = 13 then d
  else
    let n := v.toNat
    let chg := d.fld (R.REF_IN_CFG_NOM i) != bits n 0 18 || d.fld (R.REF_IN_CFG_EDGE i) != bits n 21 1 || d.fld (R.REF_IN_CFG_DIFF i) != bits n 20 1
    let d := d.setFlds [(R.REF_IN_CFG_EN i, bits n 31 1), (R.REF_IN_CFG_RANK_A i, bits n 26 4), (R.REF_IN_CFG_RANK_B i, bits n 22 4),
      (R.REF_IN_CFG_EDGE i, bits n 21 1), (R.REF_IN_CFG_DIFF i, bits n 20 1), (R.REF_IN_CFG_NOM i, bits n 0 18)]
    let d := if chg && d.qstate i != 0 then d.setFld (R.REF_IN_STAT_QSTATE i) 1 else d
    let d := if 5 ≤ i ∧ i < 9 then { d with ref := { d.ref with fmts := smSet (fun _ => 0) d.ref.fmts i (d.gFmt (refGroup d i)) } } else d
    d.refFollow

/-- A write of DPLL_CTL (R378). -/
def Dev.dpllCtl (d : Dev) (p : Nat) (v : Word) : Dev :=
  let n := v.toNat
  let d' := d.setFld (R.DPLL_CTL_REVERTIVE p) (bits n 30 1)
  if p = 0 then d'.refFollow
  else
    let may := !d.flag (R.DPLL_CTL_EN 1)
    let d' := if may then d'.setFld (R.DPLL_CTL_FAMILY 1) (bits n 29 1)
      else d'.raiseIf (d.fld (R.DPLL_CTL_FAMILY 1) != bits n 29 1) F.refCfgRefused
    (d'.setFld (R.DPLL_CTL_EN 1) (bits n 31 1)).refFollow

/-- A frequency word within ±500,000,000 ppt. -/
def pptClamp (v : Nat) : Nat := tc 32 (clampI (-500000000) 500000000 (sx 32 v))

/-- A write of DPLL_FB: the anchor of a free-running DPLL moves to it (R362, R365). -/
def Dev.dpllFb (d : Dev) (p : Nat) (v : Word) : Dev :=
  let d := d.setFld (R.DPLL_FB_FB p) (pptClamp v.toNat)
  let d := if d.fld (R.DPLL_STAT_STATE p) = 1 then d.setDpll p { d.dpll p with moving := true } else d
  d.refFollow

/-- The range of BW of a reference's type, mHz (R364). -/
def refBwRange (i : Nat) : Nat × Nat :=
  if i < 2 then (1000, 100000) else if i < 4 then (100, 10000) else if i = 4 then (1, 100) else if i < 9 then (10000, 1000000)
  else if i < 13 then (10, 1000) else (1000000, 1000000)

/-- A change of FAMILY retunes DPLL-A, whose output may lie outside FSLEW of its anchor for 10 ms (R367). DCO mode, which the rule's
states leave out, ends as under DCO_OFF: DEDUCED, log 83. -/
def Dev.dpllRetune (d : Dev) : Dev :=
  if d.dpllSt 0 = 0 then d
  else
    let sel := d.fld (R.DPLL_STAT_SEL 0)
    let x := d.dpll 0
    let x := if d.dpllSt 0 = 4 then { x with dco := false, step := 0 } else x
    (d.setDpll 0 { x with retune := 5000000 }).dpllState 0 (if sel = 15 then 1 else 2)

/-- DPLL_STAT as read. CLAMP is 1 while the phase correction is held at ±FSLEW (R362). -/
def Dev.dpllStat (d : Dev) (p : Nat) : Word :=
  let x := d.dpll p
  let clamp := d.dpllSt p != 0 && d.fslew != 0 && (d.dpllCorr p).natAbs == d.fslew
  BitVec.ofNat 32 (d.dpllSt p * 2 ^ 29 + b2n clamp * 2 ^ 28 + b2n x.forced.isSome * 2 ^ 27 + d.fld (R.DPLL_STAT_DISAGREE p) * 2 ^ 26
    + b2n (x.step != 0) * 2 ^ 25 + d.fld (R.DPLL_STAT_TETHER p) * 2 ^ 24 + d.fld (R.DPLL_STAT_SEL p) * 2 ^ 20)

/-- DPLL_FREQ as read: anchor and phase correction (R362). -/
def Dev.dpllFreq (d : Dev) (p : Nat) : Word :=
  BitVec.ofNat 32 (tc 32 (satS 32 (if d.dpllSt p = 0 then 0 else divEven (d.dpll p).anchor 500000 + d.dpllCorr p)))

/-- DPLL_PHERR as read, in ns; without a reference it has no meaning and is free (log 30). -/
def Dev.dpllPherr (d : Dev) (p : Nat) : Word × Dev :=
  let st := d.dpllSt p
  if st = 0 then (0#32, d)
  else if st = 2 ∨ st = 3 then (BitVec.ofNat 32 (tc 32 (satS 32 (divEven (d.dpll p).err (25 * 10 ^ 16)))), d)
  else (BitVec.ofNat 32 (d.freeNat 0), d.drew 1)

/-- DPLL_AVG as read: the mean of what the DPLL put out over the last 64 s in LOCKED; held otherwise (R378). -/
def Dev.dpllAvg (d : Dev) (p : Nat) : Word :=
  match d.dpllSt p, (d.dpll p).mean with
  | 3, some m => BitVec.ofNat 32 (tc 32 (satS 32 m))
  | _, _ => d.reg (R.DPLL_AVG_AVG p).addr

/-! ## REF_CMD (R366, R370, R373 to R375) -/

namespace RefC
def op (c : Cmd) : Nat := c.u8 16
def target (c : Cmd) : Nat := c.u8 17
def ref (c : Cmd) : Nat := c.u8 18
def value (c : Cmd) : Int := sx 32 (c.u32 24)
end RefC

/-- References that place outputs and start the tick. -/
def refEdges : List Nat := [0, 1, 4, 9, 10, 11, 12]

/-- Detail of the check that a REF_CMD fails. -/
def refDetail (d : Dev) (c : Cmd) : Option Nat :=
  let op := RefC.op c
  let t := RefC.target c
  let i := RefC.ref c
  if 6 < op then some 3
  else if (op ≤ 4 ∧ 1 < t) ∨ (op = 0 ∧ 12 < i) ∨ (op = 5 ∧ (!refEdges.contains i ∨ t = 0 ∨ 7 < t)) ∨ (op = 6 ∧ 13 < i) then some 2
  else if (op ≤ 4 ∧ t = 1 ∧ !d.flag (R.DPLL_CTL_EN 1)) ∨ (op = 4 ∧ !(d.dpll t).dco) then some 7
  else none

/-- SELECT (R359). -/
def refSelect (d : Dev) (c : Cmd) : Dev := (d.setDpll (RefC.target c) { d.dpll (RefC.target c) with forced := some (RefC.ref c) }).refFollow
/-- RELEASE (R359). -/
def refRelease (d : Dev) (c : Cmd) : Dev := (d.setDpll (RefC.target c) { d.dpll (RefC.target c) with forced := none }).refFollow
/-- DCO (R366). -/
def refDco (d : Dev) (c : Cmd) : Dev :=
  let p := RefC.target c
  ((d.setFld (R.DPLL_DCO_DCO p) (pptClamp (tc 32 (RefC.value c)))).setDpll p { d.dpll p with dco := true, moving := true }).refFollow
/-- DCO_OFF (R366); a phase step in progress ends (log 30). -/
def refDcoOff (d : Dev) (c : Cmd) : Dev :=
  let p := RefC.target c
  (d.setDpll p { d.dpll p with dco := false, step := 0 }).refFollow
/-- PHASE_STEP (R366). -/
def refStep (d : Dev) (c : Cmd) : Dev :=
  let p := RefC.target c
  d.setDpll p { d.dpll p with step := (d.dpll p).step + 500000000 * RefC.value c }
/-- A phase step has run off. It runs in DCO mode alone: the step of a DPLL-A that follows TETHER waits with its settings (R360). -/
def Dev.phaseStepDone (d : Dev) (p : Nat) : Dev :=
  if d.fld (R.DPLL_STAT_STATE p) = 4 then d.setDpll p { d.dpll p with step := 0 } else d
/-- REQUALIFY (R373). -/
def refRequalify (d : Dev) (c : Cmd) : Dev :=
  let i := RefC.ref c
  if i < 13 ∧ d.qstate i ≠ 0 then (d.setFld (R.REF_IN_STAT_QSTATE i) 1).refFollow else d

/-- A REF_CMD applies; a REALIGN completes later. -/
def refCmd (d : Dev) (c : Cmd) (late : Bool) : Option Cpl × Dev :=
  match refDetail d c with
  | some n => (some (Cpl.bad n), d)
  | none =>
    let ok := some ⟨lateOk late, 0, 0⟩
    match RefC.op c with
    | 0 => (ok, refSelect d c)
    | 1 => (ok, refRelease d c)
    | 2 => (ok, refDco d c)
    | 3 => (ok, refDcoOff d c)
    | 4 => (ok, refStep d c)
    | 5 => (none, { d with ref := { d.ref with realigns := d.ref.realigns ++ [⟨c, late, d.tbu.now⟩] } })
    | _ => (ok, refRequalify d c)

/-- The edge of reference `i` that has come is one that PPS_OUT takes: of a pin any, of a base the whole second next to the millisecond
at which it stands (R370). -/
def Dev.wholeEdge (d : Dev) (i : Nat) : Bool := i < 9 || ((d.base (i - 9)).sec + 500000 * 2 ^ 64) / (1000000 * 2 ^ 64) % 1000 == 0

/-- What a realignment still waits for after an edge of its reference: a REALIGN keeps the outputs not yet placed in TARGET. -/
def realignLeft (whole : Bool) (c : Cmd) : Cmd := if whole then c.withBits 17 8 0 else c.withBits 17 8 (RefC.target c / 4 * 4)

/-- The outputs that an edge places: bits 0 WCK_OUT0, 1 WCK_OUT1, 2 PPS_OUT. -/
def realignNow (whole : Bool) (l : List Realign) (k : Nat) : Bool := (whole || k != 2) && l.any (fun e => bitAt (RefC.target e.cmd) k)

/-- An edge of a reference: the outputs that wait for it begin a period (R370). A realignment all of whose outputs are placed is over. -/
def Dev.realignPlace (d : Dev) (i : Nat) : Dev :=
  let hit := d.ref.realigns.filter (fun e => RefC.ref e.cmd == i)
  if hit.isEmpty || !d.works refBase then d
  else
    let whole := d.wholeEdge i
    let gone := fun (e : Realign) => RefC.ref e.cmd == i && RefC.target (realignLeft whole e.cmd) == 0
    let al := [0, 1, 2].foldl (fun m k => if realignNow whole hit k then smSet (fun _ => 0) m k (1 + i) else m) d.ref.aligned
    let outs := d.ref.outs.mapIdx (fun k x => if k != 2 && k != 3 && realignNow whole hit (min k 2) then ⟨0, outSetting d k⟩ else x)
    let stay := (d.ref.realigns.filter (fun e => !gone e)).map (fun e => if RefC.ref e.cmd == i then { e with cmd := realignLeft whole e.cmd } else e)
    let d := if realignNow whole hit 2 then { d with fmn := { d.fmn with pps := d.fmn.pps + 1 } } else d
    { d with ref := { d.ref with realigns := stay, placed := d.ref.placed ++ (hit.filter gone).map (fun (e : Realign) => (e.cmd, e.late)), aligned := al, outs := outs } }.raiseIf
      (hit.any gone) F.realigned

/-- Completions of placed outputs are written at the boundary after the last placement. -/
def Dev.realignDone (d : Dev) : Dev :=
  let l := d.ref.placed
  l.foldl (fun d e => d.complete e.1 ⟨lateOk e.2, 0, 0⟩) { d with ref := { d.ref with placed := [] } }

/-- A reference has given no edge for 2 s, 10^9 TIME cycles: the realignments that have waited so long fail. -/
def Dev.realignTimeout (d : Dev) (i : Nat) : Dev :=
  let old := fun (e : Realign) => RefC.ref e.cmd == i && decide (e.since + 1000000000 ≤ d.tbu.now)
  (d.ref.realigns.filter old).foldl (fun d e => d.complete e.cmd (Cpl.bad 9))
    { d with ref := { d.ref with realigns := d.ref.realigns.filter (fun e => !old e) } }

/-- The reference whose edge starts the tick (R376). -/
def tickSyncRef (d : Dev) : Nat := if refEdges.contains (d.fld R.REF_TICK_SYNC_REF) then d.fld R.REF_TICK_SYNC_REF else 4

/-- The tick that waits for an edge starts (R371). -/
def Dev.tickRelease (d : Dev) (missed : Bool) : Dev :=
  if d.ref.tickWait then
    { d with ref := { d.ref with tickWait := false } }.setFld R.REF_TICK_SYNC_MISSED (b2n missed)
  else d

/-- An edge of the reference that starts the tick has come; of a time base that is the whole second (R371). -/
def Dev.tickSyncEdge (d : Dev) : Dev := if d.wholeEdge (tickSyncRef d) then d.tickRelease false else d

/-- LOCK and FREERUN pins (R372). -/
def lockPin (d : Dev) : Bool := d.top.st != .off && d.top.st != .standby && d.fld (R.DPLL_STAT_STATE 0) == 3
def freerunPin (d : Dev) : Bool := d.top.st != .off && d.top.st != .standby && d.fld (R.DPLL_STAT_STATE 0) == 1

/-- A clock output runs: enabled, its clock runs, and the device state drives clock outputs (R37, R368). Outputs: WCK_OUT0, WCK_OUT1,
MCLK_OUT0, MCLK_OUT1, PPS_OUT. -/
def clockOut (d : Dev) (k : Nat) : Bool :=
  let p := outClock d k
  let en := if k < 2 then d.flag (R.REF_OUT_WCK_EN k) else if k < 4 then d.flag (R.REF_OUT_MCLK_EN (k - 2)) else d.flag R.REF_OUT_PPS_EN
  en && d.fld (R.DPLL_STAT_STATE p) != 0 && d.top.st != .off && d.top.st != .standby

/-- Level of a clock output's pin (R368): the active part of its period, active low with POL; inactive where the output does not run. -/
def clockLevel (d : Dev) (k : Nat) : Bool :=
  let x := d.ref.outs.getD k ⟨0, 0⟩
  let low := k != 2 && k != 3 && (if clockOut d k then bitAt x.cfg 29 else bitAt (outSetting d k) 29)
  (clockOut d k && outActive d k x) != low

/-- What REF reports (R381). -/
def refHealth (d : Dev) : UState × Nat :=
  let on := [0, 1].filter (fun p => dpllOn d p)
  if on.any (fun p => d.fld (R.DPLL_STAT_STATE p) == 1 && (d.dpll p).locked) then (.degraded, 1)
  else if on.any (fun p => d.flag (R.DPLL_STAT_DISAGREE p)) then (.degraded, 2)
  else if on.any (fun p => d.fld (R.DPLL_STAT_SEL p) != 15 && d.flag (R.REF_IN_STAT_SOFT (d.fld (R.DPLL_STAT_SEL p)))) then (.degraded, 3)
  else (.ok, 0)

/-! ## Meanings -/

/-- PPS_EDGE (R341). -/
def execPpsEdge (rising : PinEdge) (s : State) := s.act (fun d => (d.ppsEdge rising).refFollow)
/-- PPS_MISSING (R341). -/
def execPpsMissing (b : Fin 4) (s : State) := s.act (·.ppsMissing b.val)
/-- SERVO_TB_SAMPLE (R337). -/
def execServoTbSample (b : Fin 4) (s : State) := s.act (fun d => (d.servoTb b.val).refFollow)
/-- TB_RATE_WRITE (R337, R347). -/
def execTbRateWrite (b : Fin 4) (v : Word) (s : State) := s.act (fun d => (d.tbRateWrite b.val v).refFollow)
/-- TB_SERVO_WRITE (R339, R347). -/
def execTbServoWrite (b : Fin 4) (v : Word) (s : State) := s.act (fun d => (d.tbServoWrite b.val v).refFollow)
/-- TICK_SYNC_EDGE (R371). -/
def execTickSyncEdge (s : State) := s.act (·.tickSyncEdge)
/-- TICK_SYNC_MISSED (R371). -/
def execTickSyncMissed (s : State) := s.act (·.tickRelease true)
/-- REF_MEASURE (R354). -/
def execRefMeasure (r : Fin 14) (fofs : Int) (s : State) := s.act (·.refMeasure r.val fofs)
/-- REF_ACTIVITY_LOSS (R353). -/
def execRefActivityLoss (r : Fin 5) (s : State) := s.act (·.refActivity r.val false)
/-- REF_ACTIVITY_RETURN (R353). -/
def execRefActivityReturn (r : Fin 5) (s : State) := s.act (·.refActivity r.val true)
/-- QUAL (R355). -/
def execQual (r : Fin 14) (s : State) := s.act (·.refQual r.val)
/-- DISQUAL (R355). -/
def execDisqual (r : Fin 14) (s : State) := s.act (·.refDisqual r.val)
/-- DPLL_LOCK_TIME (R361). -/
def execDpllLockTime (p : Fin 2) (s : State) := s.act (·.dpllLock p.val)
/-- DPLL_UNLOCK (R361). -/
def execDpllUnlock (p : Fin 2) (s : State) := s.act (·.dpllUnlock p.val)
/-- REF_IN_CFG_WRITE (R352). -/
def execRefInCfgWrite (r : Fin 14) (v : Word) (s : State) := s.act (·.refInCfg r.val v)
/-- DPLL_CTL_WRITE (R378). -/
def execDpllCtlWrite (p : Fin 2) (v : Word) (s : State) := s.act (·.dpllCtl p.val v)
/-- DPLL_FB_WRITE (R365). -/
def execDpllFbWrite (p : Fin 2) (v : Word) (s : State) := s.act (·.dpllFb p.val v)
/-- PHASE_STEP_DONE (R366). -/
def execPhaseStepDone (p : Fin 2) (s : State) := s.act (·.phaseStepDone p.val)
/-- REALIGN_PLACE (R370). -/
def execRealignPlace (r : Fin 14) (s : State) := s.act (·.realignPlace r.val)
/-- REALIGN_TIMEOUT (R370). -/
def execRealignTimeout (r : Fin 14) (s : State) := s.act (·.realignTimeout r.val)

end Sys2Proof.Machine
end

