-- ==== Sys2Proof/Machine/Pwr.lean ====
section
/-! DEFINITION. Power and thermal budget (spec 17, R498 to R508): sensors, supplies, the energy account, the budget level, DSP clock
scaling, and the standing causes of SAFE that PWR raises. -/
namespace Sys2Proof.Machine

/-! ## Sensors (R498) -/

/-- Registers of PWR whose writes take effect at the next decision (R508). -/
def pwrLatched : List Nat :=
  [R.PWR_THERM_T_SAFE.addr, R.PWR_ENERGY_P_SUST.addr, R.PWR_LEVEL_CAP.addr, R.PWR_DSPF_LO_F0.addr, R.PWR_DSPF_HI_F4.addr,
   R.PWR_ITRIP_I_TRIP.addr] ++ (List.range 16).map (fun i => (R.PWR_SENS_EN i).addr)

/-- Sensors in use: enabled as of the last decision. -/
def sensorsOn (d : Dev) : List Nat := (List.range 16).filter (fun i => d.lat (R.PWR_SENS_EN i) == 1)

/-- TEMP of a sensor in 1/16 °C. -/
def Dev.temp (d : Dev) (i : Nat) : Int := sx 16 (d.fld (R.PWR_SENS_TEMP i))

/-- Twice the median of a sorted list (the mean of the two middle values for an even number). -/
def median2 (l : List Int) : Int := l.getD ((l.length - 1) / 2) 0 + l.getD (l.length / 2) 0

/-- Sensors whose reading passes both tests. -/
def validSensors (d : Dev) : List Nat :=
  let inR := (sensorsOn d).filter (fun i => decide (-960 ≤ d.temp i) && decide (d.temp i ≤ 2560))
  let med := median2 ((inR.map d.temp).mergeSort (fun a b => decide (a ≤ b)))
  inR.filter (fun i => decide ((2 * d.temp i - med).natAbs ≤ 640))

/-- A DMC channel reports OVERTEMP (R489). -/
def Dev.overtemp (d : Dev) : Bool := (List.range 4).any (fun c => d.flag (R.DMC_CH_STAT_OVERTEMP c))

/-- T_max in 1/16 °C, where it is defined. -/
def Dev.tmax (d : Dev) : Option Int := if d.pwr.valid then some (sx 16 (d.fld R.PWR_TMAX_TMAX)) else none

/-- The thermal cause of SAFE follows T_max (R506). -/
def Dev.thermalCheck (d : Dev) : Dev :=
  let safe : Int := 16 * d.lat R.PWR_THERM_T_SAFE
  match d.tmax with
  | none => d
  | some t =>
    if safe ≤ t then { d with pwr := { d.pwr with thermal := true } }.raiseIf (!d.pwr.thermal) F.thermSafe
    else if t < safe - 80 ∧ d.overtemp = false then { d with pwr := { d.pwr with thermal := false } }
    else d

/-- FAILED marks, T_max and the thermal cause from the readings as they stand. Where several sensors give T_max, which of them
SENSOR names is free (log 36). -/
def Dev.sensorsJudge (d : Dev) : Dev :=
  let valid := validSensors d
  let failed := (sensorsOn d).filter (fun i => !valid.contains i)
  let d := d.raiseIf (failed.any (fun i => !d.flag (R.PWR_SENS_FAILED i))) F.sensorFail
  let d := (sensorsOn d).foldl (fun d i => d.setFld (R.PWR_SENS_FAILED i) (b2n (failed.contains i))) d
  let d := match valid with
    | [] => { d.setFlds [(R.PWR_TMAX_TMAX, 0x8000), (R.PWR_TMAX_SENSOR, 0)] with pwr := { d.pwr with valid := false } }
    | i :: r =>
      let t := r.foldl (fun m j => max m (d.temp j)) (d.temp i)
      let at_ := valid.filter (fun j => d.temp j == t)
      let s := at_.getD (d.freeNat 0 % at_.length) 0
      ({ d.setFlds [(R.PWR_TMAX_TMAX, tc 16 t), (R.PWR_TMAX_SENSOR, s)] with pwr := { d.pwr with valid := true } }).drew 1
  d.thermalCheck

/-- A sample of the enabled sensors: `l` holds the reading of each sensor in 1/16 °C. -/
def Dev.sensorSample (d : Dev) (l : List Int) : Dev :=
  if d.works pwrBase then
    ((sensorsOn d).foldl (fun d i => d.setFld (R.PWR_SENS_TEMP i) (tc 16 (satS 16 (l.getD i (d.temp i))))) d).sensorsJudge
  else d

/-! ## Supplies (R499, R506) -/

/-- Windows of the rails in 0.1 mV, in the order of R499. -/
def railWindows : List (Nat × Nat) :=
  [(7125, 7875), (9975, 11025), (4750, 5250), (8550, 9450), (16560, 19440), (30360, 35640)]

/-- Bits of the rails that a test picks; a rail without a reading counts as within its window. -/
def railBits (p : Nat → Nat × Nat → Bool) (rails : List Nat) : Nat :=
  (rails.zip railWindows).foldr (fun x n => b2n (p x.1 x.2) + 2 * n) 0

/-- A measurement: core current in 10 mA, core voltage in mV, and the rails in 0.1 mV. -/
def Dev.railSample (d : Dev) (current voltage : Nat) (rails : List Nat) : Dev :=
  if d.works pwrBase then
    let c := sat16 current
    let v := sat16 voltage
    { d.setFlds [(R.PWR_CORE_CURRENT, c), (R.PWR_CORE_VOLTAGE, v),
        (R.PWR_SUPPLY_OVER, railBits (fun x w => decide (w.2 < x)) rails),
        (R.PWR_SUPPLY_UNDER, railBits (fun x w => decide (x < w.1)) rails)] with
      pwr := { d.pwr with powSum := d.pwr.powSum + c * v, powCount := d.pwr.powCount + 1 } }
  else d

/-- A rail is outside its window. -/
def Dev.railsOut (d : Dev) : Bool := d.fld R.PWR_SUPPLY_OVER != 0 || d.fld R.PWR_SUPPLY_UNDER != 0

/-- The supply cause arises. -/
def Dev.supplyCause (d : Dev) : Dev :=
  if d.works pwrBase && (d.railsOut || decide (d.lat R.PWR_ITRIP_I_TRIP < d.fld R.PWR_CORE_CURRENT)) then
    { d with pwr := { d.pwr with supply := true } }.raiseIf (!d.pwr.supply) F.supply
  else d

/-- The supply cause clears. -/
def Dev.supplyClear (d : Dev) : Dev :=
  if d.works pwrBase && !d.railsOut && decide (d.fld R.PWR_CORE_CURRENT < d.lat R.PWR_ITRIP_I_TRIP) then
    { d with pwr := { d.pwr with supply := false } }
  else d

/-- A DMC channel has been over temperature for 1 s (R506). -/
def Dev.overtempCause (d : Dev) : Dev :=
  if d.works pwrBase && d.overtemp then { d with pwr := { d.pwr with thermal := true } }.raiseIf (!d.pwr.thermal) F.thermSafe else d

/-- A valid sensor reads 125 °C or above (R507). -/
def Dev.tooHot (d : Dev) : Bool := d.works pwrBase && (match d.tmax with | some t => decide (2000 ≤ t) | none => false)

/-! ## The budget level (R500 to R503) -/

/-- L_T (R500). -/
def thermalLimit (d : Dev) : Nat :=
  if d.overtemp then 0
  else match d.tmax with
  | none => 0
  | some t =>
    let above := t - 16 * (d.lat R.PWR_THERM_TH_START : Int)
    if above ≤ 0 then 7
    else
      let step := 16 * max 1 (d.lat R.PWR_THERM_TH_STEP)
      7 - min 7 ((above.toNat + step - 1) / step)

/-- L_E (R501). -/
def energyLimit (d : Dev) : Nat :=
  let cap := 10 * max 1 (d.lat R.PWR_ENERGY_E_CAP)
  7 - (clampI 0 7 ((16 * d.pwr.e / cap).floor - 8)).toNat

/-- Duration of a tick in s (R21), or 125 µs between service instants and at the first boundary (R551). -/
def tickSeconds (d : Dev) (tick : Bool) : Rat := if tick then (d.blockB : Rat) / d.fs else 1 / 8000

/-- The energy account takes in the tick just ended; at an entry into RUN it starts at 0 instead (R501). Without a measurement in the
tick the last one stands (log 37). -/
def Dev.energyStep (d : Dev) (tick : Bool) : Dev :=
  let p : Rat := if d.pwr.powCount = 0 then (d.fld R.PWR_CORE_CURRENT * d.fld R.PWR_CORE_VOLTAGE : Nat)
    else (d.pwr.powSum : Rat) / d.pwr.powCount
  let cap : Rat := (10 * max 1 (d.lat R.PWR_ENERGY_E_CAP) : Nat)
  -- 10 µW times s is 1/100 mJ; P_SUST is in 100 mW, which is 10,000 times 10 µW
  let e := if d.ev.contains .runEntered then 0 else d.pwr.e + (p - (10000 * d.lat R.PWR_ENERGY_P_SUST : Nat)) * tickSeconds d tick / 100
  { d with pwr := { d.pwr with e := if e < 0 then 0 else if cap < e then cap else e, powSum := 0, powCount := 0 } }

/-- After RISE_HOLD decisions above it the level rises by one step (R502). -/
def Dev.levelRise (d : Dev) : Dev :=
  if max 1 (d.lat R.PWR_LEVEL_RISE_HOLD) ≤ d.pwr.rises ∧ d.pwr.own < 7 then
    { d with pwr := { d.pwr with own := d.pwr.own + 1, rises := 0 } }.raise F.levelRise
  else d

/-- The decision for the next tick (R502). -/
def Dev.levelDecide (d : Dev) : Dev :=
  let lt := thermalLimit d
  let m := min (d.lat R.PWR_LEVEL_CAP) (min lt (energyLimit d))
  let d := d.setFld R.PWR_LEVEL_L_T lt
  if m < d.pwr.own then
    ({ d with pwr := { d.pwr with own := m, rises := 0 } }.count R.PWR_DROPS_COUNT).raise F.levelDrop
  else if d.pwr.own < m then { d with pwr := { d.pwr with rises := d.pwr.rises + 1 } }.levelRise
  else { d with pwr := { d.pwr with rises := 0 } }

/-- The level decided last comes into force, with its DSPC frequency (R503, R504). -/
def Dev.levelInForce (d : Dev) : Dev := (d.setFlds [(R.PWR_LEVEL_LEVEL, d.pwr.own), (R.PWR_LEVEL_OWN, d.pwr.own)]).dspFreq

/-- PWR at a boundary (`tick`: one that ends a tick) or service instant: the level decided before comes into force, written
registers take effect, the energy account moves, and the next level is decided. -/
def Dev.pwrService (d : Dev) (tick : Bool) : Dev :=
  if d.works pwrBase then
    let d := d.levelInForce
    let moved := (List.range 16).any (fun i => d.lat (R.PWR_SENS_EN i) != d.fld (R.PWR_SENS_EN i))
    let d := pwrLatched.foldl Dev.latchReg d
    let d := if moved then d.sensorsJudge else d.thermalCheck
    (d.energyStep tick).levelDecide
  else d

/-- Entry into RUN: E starts at 0 and the level is 7 (R501, R502). -/
def Dev.pwrEnterRun (d : Dev) : Dev :=
  if d.works pwrBase then { d with pwr := { d.pwr with e := 0, own := 7, rises := 0 } }.levelInForce else d

/-- PWR's own registers change while it is reset by UNIT_CTL: the level in force returns to 7 with them. -/
def Dev.pwrReset (d : Dev) : Dev := { d with pwr := .reset }

/-- PWR_EACC.E as read: whole mJ (log 37). -/
def energyWord (d : Dev) : Nat := min d.pwr.e.floor.toNat 0xFFFFFF

/-- What PWR reports (R508). Log 38 for "every enabled sensor" with none enabled. -/
def pwrHealth (d : Dev) : UState × Nat :=
  let on := sensorsOn d
  if !on.isEmpty && on.all (fun i => d.flag (R.PWR_SENS_FAILED i)) then (.fault, 3)
  else if (List.range 16).any (fun i => d.flag (R.PWR_SENS_FAILED i)) then (.degraded, 2)
  else if d.levelNow < 7 then (.degraded, 1)
  else (.ok, 0)

end Sys2Proof.Machine
end

