-- ==== Sys2Proof/Machine/Str.lean ====
section
/-! DEFINITION. Media streams (spec 10): entries and their checks, classification, the merge of two networks by sequence and
position, play-out, and the forming of transmit packets. -/
namespace Sys2Proof.Machine

/-! ## Entries (R309 to R311) -/

/-- The words of a receive or transmit entry in a table copy. -/
def rxWords (m : SMap Word) (s : Nat) : List Nat := (List.range 32).map (fun n => asRead T.strRx n (wordAt m (32 * s + n)))
def txWords (m : SMap Word) (x : Nat) : List Nat := (List.range 64).map (fun n => asRead T.strTx n (wordAt m (64 * x + n)))

namespace StrE
def w (e : List Nat) (n : Nat) : Nat := e.getD n 0
def en (e : List Nat) : Bool := bitAt (w e 0) 31
def netA (e : List Nat) : Bool := bitAt (w e 0) 30
def netB (e : List Nat) : Bool := bitAt (w e 0) 29
def net (e : List Nat) (m : Nat) : Bool := if m = 0 then netA e else netB e
def ipv6 (e : List Nat) : Bool := bitAt (w e 0) 28
def srcChk (e : List Nat) : Bool := bitAt (w e 0) 27
def ssrcChk (e : List Nat) : Bool := bitAt (w e 0) 26
def ptChk (e : List Nat) : Bool := bitAt (w e 0) 25
def locked (e : List Nat) : Bool := bitAt (w e 0) 24
/-- CLK of a transmit entry. -/
def aux (e : List Nat) : Bool := bitAt (w e 0) 28
def rate (e : List Nat) : Nat := bits (w e 0) 21 3
def fn (e : List Nat) : Nat := rateHz (rate e)
def l24 (e : List Nat) : Bool := bitAt (w e 0) 20
/-- Bytes of one sample on the wire. -/
def bytes (e : List Nat) : Nat := if l24 e then 3 else 2
def repeats (e : List Nat) : Bool := bitAt (w e 0) 19
def tb (e : List Nat) : Nat := bits (w e 0) 17 2
def chans (e : List Nat) : Nat := bits (w e 0) 11 6 + 1
def chBase (e : List Nat) : Nat := bits (w e 0) 0 11
def bufLog2 (e : List Nat) : Nat := bits (w e 1) 28 4
def pt (e : List Nat) : Nat := bits (w e 1) 18 7
def pkt (e : List Nat) : Nat := bits (w e 1) 0 10
def ssrc (e : List Nat) : Nat := w e 2
/-- RTP_REF of a receive entry. -/
def rtpRef (e : List Nat) : Nat := w e 3
def link (e : List Nat) : Nat := bits (w e 4) 0 14
def dport (e : List Nat) (m : Nat) : Nat := bits (w e 5) (16 * m) 16
/-- A 16-byte address field as bytes. -/
def addr (e : List Nat) (n : Nat) : List Nat := (List.range 4).flatMap (fun i => leBytes 4 (w e (n + i)))
def dst (e : List Nat) (m : Nat) : List Nat := addr e (8 + 4 * m)
def src (e : List Nat) (m : Nat) : List Nat := addr e (16 + 4 * m)
def txRef (e : List Nat) : Nat := w e 2
def seqRef (e : List Nat) : Nat := bits (w e 3) 0 16
def hdrLen (e : List Nat) (m : Nat) : Nat := bits (w e 4) (16 * m) 7
def template (e : List Nat) (m : Nat) : List Nat :=
  ((List.range 24).flatMap (fun i => leBytes 4 (w e (16 + 24 * m + i)))).take (hdrLen e m)
end StrE

def Dev.rxE (d : Dev) (s : Nat) : List Nat := rxWords (d.tab T.strRx).live s
def Dev.txE (d : Dev) (x : Nat) : List Nat := txWords (d.tab T.strTx).live x

def Dev.rx (d : Dev) (s : Nat) : RxS := smGet (fun _ => RxS.zero) d.str.rx s
def Dev.setRx (d : Dev) (s : Nat) (x : RxS) : Dev := { d with str := { d.str with rx := smSet (fun _ => RxS.zero) d.str.rx s x } }
def Dev.tx (d : Dev) (x : Nat) : TxS := smGet (fun _ => TxS.zero) d.str.tx x
def Dev.setTx (d : Dev) (x : Nat) (v : TxS) : Dev := { d with str := { d.str with tx := smSet (fun _ => TxS.zero) d.str.tx x v } }

/-- Streams whose W0 is not 0, the only ones that can be enabled: stream and words. -/
def listedRx (m : SMap Word) : List (Nat × List Nat) :=
  ((m.filter (fun e => e.1 % 32 == 0)).map (fun e => e.1 / 32)).filterMap (fun s =>
    let e := rxWords m s
    if StrE.en e then some (s, e) else none)
def listedTx (m : SMap Word) : List (Nat × List Nat) :=
  ((m.filter (fun e => e.1 % 64 == 0)).map (fun e => e.1 / 64)).filterMap (fun s =>
    let e := txWords m s
    if StrE.en e then some (s, e) else none)

/-- Stream position of the first sample of block t at rate Fn (R314): the first grid index not before t * B. -/
def Dev.gridAt (d : Dev) (fn t : Nat) : Nat := (t * d.blockB * fn + d.fs - 1) / d.fs

/-- A receive stream is handled as locked (R315). -/
def rxLocked (d : Dev) (s : Nat) (e : List Nat) : Bool :=
  StrE.locked e && StrE.fn e % d.familyHz == 0 && !d.flag (R.STR_RX_STAT_RATE_OUT s)

/-! ## Checks (R312) -/

/-- Channels each way on the network (R3). -/
def Dev.nNet (d : Dev) : Nat := d.cap 2048

/-- PKT / Fn lies outside 125 µs to 4 ms. -/
def pktBad (e : List Nat) : Bool :=
  decide (8000 * StrE.pkt e < StrE.fn e) || decide (StrE.fn e < 250 * StrE.pkt e)

def sumN (l : List Nat) : Nat := l.foldl (· + ·) 0

/-- The check that a receive entry fails; `all` are the enabled entries, whose buffers count for check 5. -/
def rxCheck (d : Dev) (all : List (Nat × List Nat)) (s : Nat) (e : List Nat) : Option Nat :=
  let need := StrE.link e + (d.blockB * StrE.fn e + d.fs - 1) / d.fs
  let lo := StrE.chBase e
  let hi := lo + StrE.chans e
  if 5 < StrE.rate e ∨ (StrE.netA e = false ∧ StrE.netB e = false) then some 1
  else if pktBad e then some 2
  else if StrE.bufLog2 e < 8 ∨ 13 < StrE.bufLog2 e ∨ 2 ^ StrE.bufLog2 e < need then some 3
  else if d.nNet < hi ∨ all.any (fun o => o.1 != s && decide (StrE.chBase o.2 < hi ∧ lo < StrE.chBase o.2 + StrE.chans o.2)) then some 4
  else if 1048576 < sumN (all.map (fun o => StrE.chans o.2 * 2 ^ StrE.bufLog2 o.2)) then some 5
  else none

/-- HDR_LEN and the frame length of a network in use are acceptable (check 7). -/
def hdrBad (d : Dev) (e : List Nat) (m : Nat) : Bool :=
  StrE.net e m && (([54, 58, 74, 78].contains (StrE.hdrLen e m)) == false ||
    decide (d.fld (R.ETH_MAXFRM_MAXFRM m) < StrE.hdrLen e m + StrE.chans e * StrE.pkt e * StrE.bytes e + 4))

/-- The check that a transmit entry fails; the channels of all enabled entries count for check 6. -/
def txCheck (d : Dev) (all : List (Nat × List Nat)) (e : List Nat) : Option Nat :=
  if 5 < StrE.rate e ∨ (StrE.netA e = false ∧ StrE.netB e = false) then some 1
  else if pktBad e then some 2
  else if d.nNet < sumN (all.map (fun o => StrE.chans o.2)) then some 6
  else if hdrBad d e 0 || hdrBad d e 1 then some 7
  else none

/-- The first failure in the staged tables: direction, stream, check. Checks 5 and 6 sum over all enabled streams of the table. -/
def strFailure (d : Dev) (rx tx : SMap Word) : Option (Nat × Nat × Nat) :=
  let rs := listedRx rx
  let ts := listedTx tx
  match rs.findSome? (fun o => (rxCheck d rs o.1 o.2).map (fun k => (0, o.1, k))) with
  | some r => some r
  | none => ts.findSome? (fun o => (txCheck d ts o.2).map (fun k => (1, o.1, k)))

/-- The checks before a commit swaps a changed stream table: the failed table is marked bad and recorded (R312). -/
def Dev.strValidate (d : Dev) : Bool × Dev :=
  let rx := if (d.tab T.strRx).changed then (d.tab T.strRx).staged else []
  let tx := if (d.tab T.strTx).changed then (d.tab T.strTx).staged else []
  match strFailure d rx tx with
  | none => (true, d.setFld R.STR_VALID_FAILED 0)
  | some (dir, s, k) =>
    let t := if dir = 0 then T.strRx else T.strTx
    let x := d.tab t
    let d := d.setTab t { x with bad := x.bad ++ [(0, 0)] }
    (false, (d.setFlds [(R.STR_VALID_FAILED, 1), (R.STR_VALID_DIR, dir), (R.STR_VALID_CHECK, k), (R.STR_VALID_STREAM, s)]).raise F.validFail)

/-- STR_POOL.USED: play-out samples that the live table allots. -/
def strPool (d : Dev) : Nat := sumN ((listedRx (d.tab T.strRx).live).map (fun o => StrE.chans o.2 * 2 ^ StrE.bufLog2 o.2))

/-- STREAM_CFG at its apply boundary (R313). -/
def streamCfg (d : Dev) (c : Cmd) (late : Bool) : Cpl × Dev :=
  let tx := bitAt (c.u8 16) 0
  let s := c.u8 17
  let first := c.u8 18
  let count := c.u8 19
  let size := if tx then 64 else 32
  let t := if tx then T.strTx else T.strRx
  let ok : Cpl := ⟨lateOk late, 0, 0⟩
  if count = 0 then (ok, d)
  else if 10 < count ∨ size < first + count then (.bad 3, d)
  else
    let put := fun (m : SMap Word) => (List.range count).foldl (fun m i => wordSet m (size * s + first + i) (c.u32 (24 + 4 * i))) m
    let m := put (d.tab t).live
    let e := if tx then txWords m s else rxWords m s
    let bad := if !StrE.en e then none
      else if tx then txCheck d (listedTx m) e
      else rxCheck d (listedRx m) s e
    match bad with
    | some k => if k = 5 ∨ k = 6 then (⟨.noSpace, 0, 0⟩, d) else (.bad 3, d)
    | none => (ok, (List.range count).foldl (fun d i => d.writeBoth t (size * s + first + i) (c.u32 (24 + 4 * i))) d)

/-! ## Restarts (R320, R321, R326) -/

/-- The words whose change restarts a receive stream. -/
def rxKey (e : List Nat) : List Nat := e.take 5

/-- Follow the live receive table at a boundary: a stream that is enabled, disabled or changed in W0 to W4 restarts, and keeps its
old words, buffer and read point for the changeover of this block. PATH_A and PATH_B go on (R320). -/
def Dev.rxFollow (d : Dev) (s : Nat) : Dev :=
  let e := d.rxE s
  let x := d.rx s
  let key := if StrE.en e then rxKey e else []
  if key = x.cfg then d
  else
    let old := if x.moved then (x.oldCfg, x.oldBuf, x.oldRead)
      else (x.cfg, x.buf, if !x.cfg.isEmpty && !rxLocked d s x.cfg then some x.read else none)
    let d := d.setRx s { RxS.zero with cfg := key, moved := true, oldCfg := old.1, oldBuf := old.2.1, oldRead := old.2.2 }
    d.setFlds [(R.STR_RX_STAT_STATE s, b2n (StrE.en e)), (R.STR_RX_STAT_RATE_OUT s, 0)]

/-- Samples that block `t` of a transmit stream has: those of the MEDIA grid, or of the AUX clock, within one of the nominal number
(R323, log 24). -/
def Dev.txCount (d : Dev) (e : List Nat) (t : Nat) : Nat :=
  let n := d.gridAt (StrE.fn e) (t + 1) - d.gridAt (StrE.fn e) t
  if StrE.aux e then n + Config.auxSlip t % 3 - 1 else n

/-- First position of block `t`: on the MEDIA grid, or counted from the stream's start. -/
def Dev.txStart (d : Dev) (v : TxS) (e : List Nat) (t : Nat) : Nat :=
  if StrE.aux e then
    match v.marks.find? (fun m => m.1 == t) with
    | some m => m.2
    | none => if v.marks.all (fun m => decide (m.1 < t)) then v.made else 0
  else d.gridAt (StrE.fn e) t

/-- A transmit stream goes on from block `t`, whose first position is `first`: its next packet is the first whose first sample belongs to
that block or a later one. -/
def Dev.txPlace (d : Dev) (x t first : Nat) (e : List Nat) : Dev :=
  (d.setTx x ⟨(first + StrE.pkt e - 1) / StrE.pkt e, [], [(t, e)], first, [], t⟩).setFld (R.STR_TX_STAT_ACTIVE x) 0

/-- A transmit stream starts with block `t`. -/
def Dev.txFresh (d : Dev) (x t : Nat) (e : List Nat) : Dev := d.txPlace x t (if StrE.aux e then 0 else d.gridAt (StrE.fn e) t) e

/-- Follow the live transmit table at a boundary: from block `t` on a changed entry governs (R326). A stream that goes to or from the AUX
clock, or starts on it, starts anew. DESIGN CHOICE, log 113. Where block `t` does not follow the last one that the stream took, since the
counter has moved or STR has done no work, packets begin again with block `t`. DEDUCED, log 141. -/
def Dev.txFollow (d : Dev) (x t : Nat) : Dev :=
  let e := d.txE x
  let v := d.tx x
  let now := if StrE.en e then e else []
  match v.cfgs with
  | (_, last) :: _ =>
    if v.next != t then
      if now.isEmpty then d.setTx x .zero
      else d.txPlace x t (if !StrE.aux now then d.gridAt (StrE.fn now) t else if StrE.aux last then v.made else 0) now
    else if last = now then d
    else if !now.isEmpty && (if last.isEmpty then StrE.aux now else StrE.aux last != StrE.aux now) then d.txFresh x t now
    else
      let d := if last.isEmpty then d.setFld (R.STR_TX_STAT_ACTIVE x) 0 else d
      d.setTx x { v with cfgs := (t, now) :: v.cfgs }
  | [] => if now.isEmpty then d else d.txFresh x t now

def Dev.strFollow (d : Dev) (t : Nat) : Dev :=
  let rs := (d.str.rx.map Prod.fst ++ ((listedRx (d.tab T.strRx).live).map Prod.fst)).eraseDups
  let ts := (d.str.tx.map Prod.fst ++ ((listedTx (d.tab T.strTx).live).map Prod.fst)).eraseDups
  let d := rs.foldl Dev.rxFollow d
  ts.foldl (fun d x => d.txFollow x t) d

/-! ## Classification (R317) -/

/-- The parts of a UDP frame that the classifier reads. -/
structure UdpView where
  v6 : Bool
  sumOk : Bool
  src : List Nat
  dst : List Nat
  dport : Nat
  payload : List Nat
  deriving DecidableEq, Repr

/-- Ones'-complement sum of 16-bit big-endian words; an odd last byte is padded with 0. -/
def onesGo : Nat → List Nat → Nat
  | acc, a :: b :: r => onesGo (acc + a * 256 + b) r
  | acc, [a] => acc + a * 256
  | acc, [] => acc

/-- Fold carries into 16 bits. -/
def foldOnes (n : Nat) : Nat :=
  let a := n % 65536 + n / 65536
  let b := a % 65536 + a / 65536
  b % 65536 + b / 65536

def onesSum (l : List Nat) : Nat := foldOnes (onesGo 0 l)

def pad16 (l : List Nat) : List Nat := l ++ List.replicate (16 - l.length) 0

/-- UDP at the start of `l`: destination port and payload. A length that does not fit leaves no payload, which fails step 5. -/
def udpOf (v6 sumOk : Bool) (src dst l : List Nat) : Option UdpView :=
  let n := ofBe (slice l 4 2)
  if l.length < 4 then none
  else some ⟨v6, sumOk, pad16 src, pad16 dst, ofBe (slice l 2 2), if n < 8 ∨ l.length < n then [] else slice l 8 (n - 8)⟩

/-- Step 1: at most one VLAN tag (0x8100, log 22), IPv4 without options or fragmentation, or IPv6 with UDP next. -/
def viewFrame (l : List Nat) : Option UdpView :=
  let l := if ofBe (slice l 12 2) = 0x8100 then l.take 12 ++ l.drop 16 else l
  let ip := l.drop 14
  let et := ofBe (slice l 12 2)
  if et = 0x0800 then
    if ip.length < 20 ∨ ip.getD 0 0 ≠ 0x45 ∨ ofBe (slice ip 6 2) % 0x4000 ≠ 0 ∨ ip.getD 9 0 ≠ 17 then none
    else udpOf false (onesSum (ip.take 20) == 0xFFFF) (slice ip 12 4) (slice ip 16 4) ((ip.take (ofBe (slice ip 2 2))).drop 20)
  else if et = 0x86DD then
    if ip.length < 40 ∨ ip.getD 0 0 / 16 ≠ 6 ∨ ip.getD 6 0 ≠ 17 then none
    else udpOf true true (slice ip 8 16) (slice ip 24 16) ((ip.take (40 + ofBe (slice ip 4 2))).drop 40)
  else none

/-- Step 2: the lowest-numbered enabled entry that the frame's destination names on network `m`. -/
def rxStream (d : Dev) (m : Nat) (v : UdpView) : Option (Nat × List Nat) :=
  (listedRx (d.tab T.strRx).live).find? (fun o =>
    StrE.net o.2 m && StrE.ipv6 o.2 == v.v6 && StrE.dst o.2 m == v.dst && StrE.dport o.2 m == v.dport)

/-- Steps 3 to 6. -/
def rxGood (m : Nat) (e : List Nat) (v : UdpView) : Bool :=
  let r := v.payload
  v.sumOk && (!StrE.srcChk e || StrE.src e m == v.src)
    && r.getD 0 0 / 64 == 2 && r.getD 0 0 % 32 == 0 && r.length == 12 + StrE.chans e * StrE.pkt e * StrE.bytes e
    && (!StrE.ptChk e || r.getD 1 0 % 128 == StrE.pt e) && (!StrE.ssrcChk e || ofBe (slice r 8 4) == StrE.ssrc e)

/-! ## Merge (R318, R322) -/

/-- Samples of a packet: frame `i`, one sample per channel, in H7.24. -/
def rtpFrame (e payload : List Nat) (i : Nat) : List Int :=
  (List.range (StrE.chans e)).map (fun k =>
    let o := (i * StrE.chans e + k) * StrE.bytes e
    if StrE.l24 e then importS24 (ofBe (slice payload o 3)) else importL16 (ofBe (slice payload o 2)))

/-- CVU2's prefix for a packet. -/
def rtpPrefix (s seq : Nat) : List Nat := leBytes 4 s ++ leBytes 4 seq

/-- What the sequence window says of a packet. -/
inductive SeqCase where
  | new | late | dup | old
  deriving DecidableEq, Repr

def seqCase (x : RxS) (seq : Nat) : SeqCase :=
  let δ := sx 16 ((seq + 0x10000 - x.high) % 0x10000)
  if !x.win ∨ 0 < δ then .new
  else if δ ≤ -64 then .late
  else if x.used.contains seq then .dup
  else .old

/-- A used packet in the measurement: the last packet in sequence order stands for the advance. A free stream measures anew after
1,024 packets. -/
def RxMeas.take (m : RxMeas) (rtp ts : Nat) (up again : Bool) : RxMeas :=
  if !m.on || (again && decide (1024 ≤ m.count)) then ⟨true, 0, rtp, ts, rtp, ts⟩
  else if up then { m with count := m.count + 1, rtp := rtp, ts := ts }
  else { m with count := m.count + 1 }

/-- Samples that the timestamps advanced and ns that passed. -/
def RxMeas.span (m : RxMeas) : Nat × Nat := ((m.rtp + 2 ^ 32 - m.rtp0) % 2 ^ 32, (m.ts + 2 ^ 32 - m.ts0) % 2 ^ 32)

/-- The measured rate against `fn` in parts of 1/`unit`, half away from zero (log 114); none while no time has passed. -/
def RxMeas.dev (m : RxMeas) (fn unit : Nat) : Option Int :=
  let (n, ns) := m.span
  if ns = 0 ∨ fn = 0 then none else some (divAway (((n * 10 ^ 9 : Nat) - (fn * ns : Nat)) * unit) (fn * ns))

/-- The ratio in 0.01 ppm. -/
def RxMeas.ratio (m : RxMeas) (fn : Nat) : Option Int := m.dev fn 100000000

/-- A used packet is written: window, check value, buffer from δ on, counters, PLAYING, measurement (R318, R320, R322, R316). CVU2 keeps a
value to compare only where it computes one (R554); a free stream's DEV shows each measurement of 1,024 packets; the buffer holds
2^BUF_LOG2 positions from the one taken next, and those behind it that a repeat may need. -/
def Dev.rxUse (d : Dev) (s m seq ssrc : Nat) (e pay : List Nat) (up : Bool) (p : Nat) (δ : Int) (rtp ts : Nat) : Dev :=
  let (crc, d) := d.cvuCompute 2 (rtpPrefix s seq) pay
  let d := if d.works (cvuBase 2) then d.setFlds [(R.STR_RX_CHK_CRC s, crc), (R.STR_RX_CHK_SEQ_SEQ s, seq)] else d
  let x := d.rx s
  let d := if !rxLocked d s e && decide (1024 ≤ x.meas.count) then
      (match x.meas.dev (StrE.fn e) 1000000 with | some v => d.setFld (R.STR_RX_STAT_DEV s) (tc 16 (satS 16 v)) | none => d) else d
  let high := if up then seq else x.high
  let inWin := fun (q : Nat) => decide (-64 < sx 16 ((q + 0x10000 - high) % 0x10000)) && decide (sx 16 ((q + 0x10000 - high) % 0x10000) ≤ 0)
  let buf := (List.range (StrE.pkt e)).foldl (fun (b : SMap (List Int)) (i : Nat) =>
    if 0 ≤ δ + (i : Int) then smSet (fun _ => []) b (((p : Int) + δ + (i : Int)).toNat) (rtpFrame e pay i) else b) x.buf
  let held := fun (q : Nat) => decide (p ≤ q + StrE.pkt e ∧ q < p + 2 ^ StrE.bufLog2 e)
  let d := d.setRx s { x with buf := buf.filter (fun q => held q.1), win := true, high := high, used := (seq :: x.used).filter inWin, ssrc := ssrc,
                              crcs := (if d.works (cvuBase 2) then (seq, crc) :: x.crcs else x.crcs).filter (fun q => inWin q.1), read := p,
                              meas := x.meas.take rtp ts up (!rxLocked d s e) }
  let d := d.count (if m = 0 then R.STR_RX_USED_A_COUNT s else R.STR_RX_USED_B_COUNT s)
  d.setFld (R.STR_RX_STAT_STATE s) 2

/-- First position of the next block to be taken: on the grid, or where a free stream reads. The first packet of a free stream's window
puts its read point LINK_OFFSET behind the packet's end, and so does every packet outside RUN, where no block is taken (R315, log 24). -/
def Dev.rxNext (d : Dev) (s : Nat) (x : RxS) (e : List Nat) (i0 : Nat) : Nat :=
  if rxLocked d s e then d.gridAt (StrE.fn e) (d.top.tick + 1)
  else if x.win && d.top.st == .run then x.read
  else i0 + 2 ^ 32 - (StrE.link e - StrE.pkt e)

/-- A packet that has passed R317, with its arrival on TB (R318). -/
def Dev.rxJudge (d : Dev) (s m : Nat) (e rtp : List Nat) (ts : Nat) : Dev :=
  let seq := ofBe (slice rtp 2 2)
  let ssrc := ofBe (slice rtp 8 4)
  let pay := rtp.drop 12
  let x := d.rx s
  let x := if x.win && x.ssrc != ssrc then { x with win := false, used := [], crcs := [], meas := .zero } else x
  match seqCase x seq with
  | .late => (d.setRx s x).count (R.STR_RX_LATE_COUNT s)
  | .dup =>
    let d := (d.setRx s x).count (R.STR_RX_DUP_COUNT s)
    let (crc, d) := d.cvuCompute 2 (rtpPrefix s seq) pay
    match x.crcs.find? (fun q => q.1 == seq) with
    | some q => if d.works (cvuBase 2) && q.2 != crc then d.cvuFail 2 (rtpPrefix s seq) crc q.2 else d
    | none => d
  | c =>
    let d := d.setRx s x
    let r := ofBe (slice rtp 4 4)
    let i0 := (r + 2 ^ 32 - StrE.rtpRef e + StrE.link e) % 2 ^ 32
    let p := d.rxNext s x e i0
    let δ := sx 32 ((i0 + 2 ^ 32 - p % 2 ^ 32) % 2 ^ 32)
    if 2 ^ StrE.bufLog2 e < δ + StrE.pkt e then (d.count (R.STR_RX_EARLY_COUNT s)).raise F.pktEarly
    else if δ + StrE.pkt e ≤ 0 then (d.count (R.STR_RX_LATE_COUNT s)).raise F.pktLate
    else
      let d := if δ < 0 then d.count (R.STR_RX_LATE_COUNT s) else d
      d.rxUse s m seq ssrc e pay (c == .new) p δ r ts

/-- An arrival stamp of base `b` on base `tb` (R304): carried over by what the two read now. DESIGN CHOICE, log 114. -/
def Dev.stampOn (d : Dev) (b tb ts : Nat) : Nat := (ts + 2 ^ 32 + d.tbNs tb % 2 ^ 32 - d.tbNs b % 2 ^ 32) % 2 ^ 32

/-- A frame offered to the classifier by MAC `m` with its stamp on base `b`: none where it is not taken (R317). -/
def Dev.strOffer (d : Dev) (m : Nat) (l : List Nat) (b ts : Nat) : Option Dev :=
  if !d.works strBase then none
  else match viewFrame l with
    | none => none
    | some v =>
      match rxStream d m v with
      | none => none
      | some (s, e) =>
        let d := (d.rxFollow s).count (if m = 0 then R.STR_RX_PKT_A_COUNT s else R.STR_RX_PKT_B_COUNT s)
        let d := d.setFld (if m = 0 then R.STR_RX_STAT_PATH_A s else R.STR_RX_STAT_PATH_B s) 1
        if rxGood m e v then some (d.rxJudge s m e v.payload (d.stampOn b (StrE.tb e) ts))
        else some ((d.count (R.STR_RX_BAD_COUNT s)).raise F.badPkt)

/-! ## Play-out (R319 to R321) -/

/-- One position of a stream: its samples and whether it is missing. -/
def rxSample (e : List Nat) (playing : Bool) (buf : SMap (List Int)) (p : Nat) : List Int × Bool :=
  let v := smGet (fun _ => []) buf p
  if playing && !v.isEmpty then (v, false)
  else if StrE.repeats e && decide (StrE.pkt e ≤ p) then
    let o := smGet (fun _ => []) buf (p - StrE.pkt e)
    (if o.isEmpty then List.replicate (StrE.chans e) 0 else o, true)
  else (List.replicate (StrE.chans e) 0, true)

/-- Block of positions `p` to `p + n - 1`: frames, the buffer with repeats written in, missing positions. -/
def rxTake (e : List Nat) (playing : Bool) (p : Nat) : Nat → SMap (List Int) → List (List Int) × SMap (List Int) × Nat
  | 0, buf => ([], buf, 0)
  | n + 1, buf =>
    let (v, miss) := rxSample e playing buf p
    let buf := if miss && StrE.repeats e then smSet (fun _ => []) buf p v else buf
    let (r, b, k) := rxTake e playing (p + 1) n buf
    (v :: r, b, k + b2n miss)

/-- A receive stream's block `t`: its words and frames, and those of its old configuration in a changeover block. -/
structure RxBlock where
  e : List Nat
  frames : List (List Int)
  moved : Bool
  oldE : List Nat
  old : List (List Int)
  deriving DecidableEq, Repr

/-- Where a stream reads block `t` and how many positions: the grid of a locked stream; from its read point for a free one, one
position more or fewer than nominal while its buffer holds more or less than LINK_OFFSET by over a packet (R315, log 24). -/
def Dev.rxSpan (d : Dev) (c : List Nat) (buf : SMap (List Int)) (read : Option Nat) (t : Nat) : Nat × Nat :=
  let n := d.gridAt (StrE.fn c) (t + 1) - d.gridAt (StrE.fn c) t
  match read with
  | none => (d.gridAt (StrE.fn c) t, n)
  | some p =>
    match buf.getLast? with
    | none => (p, n)
    | some l =>
      if p + StrE.link c + StrE.pkt c < l.1 + 1 then (p, n + 1)
      else if l.1 + 1 + StrE.pkt c < p + StrE.link c then (p, n - 1)
      else (p, n)

/-- Take block `t` of a stream; its marks are then cleared (entries behind the block are kept only for repeats). -/
def Dev.rxBlock (d : Dev) (s t : Nat) : RxBlock × Dev :=
  let x := d.rx s
  let run := fun (c : List Nat) (buf : SMap (List Int)) (read : Option Nat) (playing : Bool) =>
    if c.isEmpty then ([], [], 0)
    else let sp := d.rxSpan c buf read t; rxTake c playing sp.1 sp.2 buf
  let read := if rxLocked d s x.cfg then none else some x.read
  let (old, _, _) := run x.oldCfg x.oldBuf x.oldRead true
  let r := run x.cfg x.buf read (d.fld (R.STR_RX_STAT_STATE s) == 2)
  let sp := d.rxSpan x.cfg x.buf read t
  let d := if r.2.2 = 0 then d else ((d.addFld (R.STR_RX_MISSING_COUNT s) r.2.2).raise F.missing).note .strMissing
  let d := d.setRx s (if x.cfg.isEmpty then .zero
    else { x with buf := r.2.1.filter (fun q => decide (sp.1 + sp.2 - StrE.pkt x.cfg ≤ q.1)), moved := false, oldCfg := [], oldBuf := [],
                  oldRead := none, read := sp.1 + sp.2 })
  (⟨x.cfg, r.1, x.moved, x.oldCfg, old⟩, d)

/-- Streams with a block to take: those enabled, and those just disabled, which fade (R321). -/
def Dev.rxTaken (d : Dev) : List Nat :=
  ((listedRx (d.tab T.strRx).live).map Prod.fst ++ (d.str.rx.filter (fun x => x.2.moved)).map Prod.fst).eraseDups

/-! ## Rate, state and paths (R316, R320) -/

/-- The check of 1,024 used packets: a locked stream compares the advance of its RTP timestamps with the time on TB, and measures anew.
Where no time has passed there, what the rate is taken for comes from outside, `dev` in ppm. DESIGN CHOICE, log 114. -/
def Dev.strRateCheck (d : Dev) (s : Nat) (dev : Int) : Dev :=
  let e := d.rxE s
  let x := d.rx s
  if d.works strBase && StrE.en e && rxLocked d s e && decide (1024 ≤ x.meas.count) then
    let (n, ns) := x.meas.span
    let d := d.setRx s { x with meas := { x.meas with count := 0, rtp0 := x.meas.rtp, ts0 := x.meas.ts } }
    let seen := x.meas.dev (StrE.fn e) 1000000
    let d := d.setFld (R.STR_RX_STAT_DEV s) (tc 16 (satS 16 (seen.getD dev)))
    if if seen.isSome then StrE.fn e * ns < 1000 * (((n * 10 ^ 9 : Nat) : Int) - (StrE.fn e * ns : Nat)).natAbs else 1000 < dev.natAbs then
      (d.setFld (R.STR_RX_STAT_RATE_OUT s) 1).raise F.strRateChg
    else d
  else d

/-- The rate has stayed within 0.1 % for 50 ms: RATE_OUT clears at the next boundary. -/
def Dev.strRateRecover (d : Dev) (s : Nat) : Dev :=
  if d.works strBase && StrE.en (d.rxE s) && d.flag (R.STR_RX_STAT_RATE_OUT s) then d.setRx s { d.rx s with recover := true } else d

def Dev.strBoundary (d : Dev) : Dev :=
  d.str.rx.foldl (fun d e =>
    if e.2.recover then (d.setRx e.1 { d.rx e.1 with recover := false }).setFld (R.STR_RX_STAT_RATE_OUT e.1) 0 else d) d

/-- No packet has been used for 16 packet times. -/
def Dev.streamInactive (d : Dev) (s : Nat) : Dev :=
  if d.works strBase && d.fld (R.STR_RX_STAT_STATE s) == 2 then (d.setFld (R.STR_RX_STAT_STATE s) 3).raise F.streamInactive else d

/-- No packet has been taken on network `m` for 4 packet times. -/
def Dev.pathLost (d : Dev) (s m : Nat) : Dev :=
  let e := d.rxE s
  let f := if m = 0 then R.STR_RX_STAT_PATH_A s else R.STR_RX_STAT_PATH_B s
  let o := if m = 0 then R.STR_RX_STAT_PATH_B s else R.STR_RX_STAT_PATH_A s
  if d.works strBase && d.flag f then (d.setFld f 0).raiseIf (StrE.en e && StrE.netA e && StrE.netB e && d.flag o) F.pathLost
  else d

/-! ## Transmit packets (R323 to R326) -/

/-- An RTP payload of PKT frames from position `p`. -/
def rtpPayload (e : List Nat) (line : SMap (List Int)) (p : Nat) : List Nat :=
  (List.range (StrE.pkt e)).flatMap (fun i =>
    let fr := smGet (fun _ => []) line (p + i)
    (List.range (StrE.chans e)).flatMap (fun k =>
      let v := fr.getD k 0
      if StrE.l24 e then beBytes 3 (tc 24 v) else beBytes 2 (tc 16 (satS 16 (divEven v 256)))))

/-- The UDP checksum of an IPv6 packet whose checksum field holds 0. -/
def udp6Sum (ip udp : List Nat) : Nat :=
  let n := udp.length
  let s := onesSum (slice ip 8 32 ++ beBytes 4 n ++ [0, 0, 0, 17] ++ udp)
  let c := 0xFFFF - s
  if c = 0 then 0xFFFF else c

/-- Packet `q` of a stream for network `m`, without FCS (R325). -/
def rtpPacket (e : List Nat) (line : SMap (List Int)) (q m : Nat) : List Nat :=
  let t := StrE.template e m
  let n := t.length
  let pay := rtpPayload e line (q * StrE.pkt e)
  let v6 := 74 ≤ n
  let ipAt := if n = 58 ∨ n = 78 then 18 else 14
  let udpAt := n - 20
  let rtp := slice t (n - 12) 12
  let rtp := patchBytes rtp 1 [rtp.getD 1 0 % 128]
  let rtp := patchBytes rtp 2 (beBytes 2 ((StrE.seqRef e + q) % 2 ^ 16))
  let rtp := patchBytes rtp 4 (beBytes 4 ((StrE.txRef e + q * StrE.pkt e) % 2 ^ 32))
  let udpLen := 8 + 12 + pay.length
  let udp := patchBytes (slice t udpAt 8) 4 (beBytes 2 udpLen ++ [0, 0])
  let ip := slice t ipAt (udpAt - ipAt)
  let ip := if v6 then patchBytes ip 4 (beBytes 2 udpLen)
    else
      let h := patchBytes (patchBytes (patchBytes ip 2 (beBytes 2 (20 + udpLen))) 4 [0, 0]) 10 [0, 0]
      patchBytes h 10 (beBytes 2 (0xFFFF - onesSum h))
  let udp := if v6 then patchBytes udp 6 (beBytes 2 (udp6Sum ip (udp ++ rtp ++ pay))) else udp
  t.take ipAt ++ ip ++ udp ++ rtp ++ pay

/-- This part sends stream packets: alone, or as the owner of stream transmission, and not after a trip (R387, R407). -/
def Dev.sendsStreams (d : Dev) : Bool := !d.effEn tthBase || (d.tth.ownStr && !d.tth.tripped)

def Dev.mac (d : Dev) (m : Nat) : EthM := smGet (fun _ => EthM.zero) d.eth m
def Dev.setMac (d : Dev) (m : Nat) (x : EthM) : Dev := { d with eth := smSet (fun _ => EthM.zero) d.eth m x }

/-- A packet is dropped: its frame is longer than MAXFRM, or the link is down (R326). -/
def Dev.strDrop (d : Dev) (x : Nat) : Dev := (d.count (R.STR_TX_DROP_COUNT x)).note .strLate

/-- Offer a packet to a MAC. -/
def Dev.strQueue (d : Dev) (m x : Nat) (l : List Nat) : Dev :=
  if d.fld (R.ETH_MAXFRM_MAXFRM m) < l.length + 4 ∨ d.flag (R.ETH_LINK_LINK_UP m) = false then d.strDrop x
  else d.setMac m { d.mac m with stx := (d.mac m).stx ++ [⟨x, l⟩] }

/-- The entry that forms packet `q`, with q in its numbering: the older entry goes on while its next packet begins before the
block from which the newer one governs (R326). `none` while no entry forms packets. -/
def txPick (d : Dev) (v : TxS) : List (Nat × List Nat) → Option (List Nat × Nat × List (Nat × List Nat))
  | [] => none
  | [(t, e)] => if e.isEmpty then none else some (e, v.q, [(t, e)])
  | (t1, e1) :: c :: r =>
    match txPick d v (c :: r) with
    | some (e, q, cs) =>
      if q * StrE.pkt e < d.txStart v e t1 then some (e, q, (t1, e1) :: cs)
      else if e1.isEmpty then none
      else some (e1, (d.txStart v e1 t1 + StrE.pkt e1 - 1) / StrE.pkt e1, [(t1, e1)])
    | none =>
      if e1.isEmpty then none
      else some (e1, (d.txStart v e1 t1 + StrE.pkt e1 - 1) / StrE.pkt e1, [(t1, e1)])

/-- The next packet of a transmit stream is formed and queued, if its last sample's emission instant has passed: every sample is
of a block before `t` (R324). -/
def Dev.txForm (d : Dev) (x t : Nat) : Bool × Dev :=
  let v := d.tx x
  match txPick d v v.cfgs with
  | none => (false, d)
  | some (e, q, cs) =>
    let last := (q + 1) * StrE.pkt e
    if StrE.pkt e = 0 ∨ d.txStart v e t < last ∨ !d.works strBase then (false, d)
    else
      -- the block before t stays, for the case that block t comes late (R28)
      let keep := min last (d.txStart v e (t - 1))
      let d := d.setTx x { v with q := q + 1, cfgs := cs, line := v.line.filter (fun p => decide (keep ≤ p.1)) }
      let d := d.setFlds [(R.STR_TX_STAT_ACTIVE x, 1), (R.STR_TX_STAT_SEQ x, (StrE.seqRef e + q) % 2 ^ 16)]
      let send := fun (d : Dev) (m : Nat) => if StrE.net e m && d.sendsStreams then d.strQueue m x (rtpPacket e v.line q m) else d
      (true, send (send d 0) 1)

/-- Every packet of a stream that is due. -/
def Dev.txFormAll (d : Dev) (x t : Nat) : Nat → Dev
  | 0 => d
  | f + 1 => match d.txForm x t with | (true, d) => d.txFormAll x t f | (false, d) => d

/-- Every due packet of every stream, in ascending stream number. -/
def Dev.txDue (d : Dev) (t : Nat) : Dev := (d.str.tx.map Prod.fst).foldl (fun d x => d.txFormAll x t 16) d

/-- STR_TX_STAT.ACTIVE: the stream is enabled and has formed a packet since it started. -/
def Dev.txActive (d : Dev) (x : Nat) : Bool := d.flag (R.STR_TX_STAT_ACTIVE x) && StrE.en (d.txE x) && d.works strBase

/-- Everything queued at a MAC whose link is down is dropped (R326). -/
def Dev.stxDrop (d : Dev) (m : Nat) : Dev :=
  (d.mac m).stx.foldl (fun d p => if d.works strBase then d.strDrop p.stream else d) (d.setMac m { d.mac m with stx := [] })

/-- Samples of a stream's lines change from one block to another: `f` of position and sample. -/
def Dev.txMap (d : Dev) (x : Nat) (f : Nat → List Int → List Int) : Dev :=
  let v := d.tx x
  d.setTx x { v with line := v.line.foldl (fun l q => smSet (fun _ => []) l q.1 (f q.1 q.2)) [] }

/-- Block `k` is not complete when its emission starts: the transmit streams carry the block before again in its place (R28). -/
def Dev.strRepeat (d : Dev) (k : Nat) : Dev :=
  (d.str.tx.map Prod.fst).foldl (fun d x =>
    let e := d.txE x
    let v := d.tx x
    let a := d.txStart v e (k - 1)
    let b := d.txStart v e k
    d.txMap x (fun p fr => if b ≤ p ∧ p < d.txStart v e (k + 1) then smGet (fun _ => []) v.line (min (a + (p - b)) (b - 1)) else fr)) d

/-- The device leaves RUN at boundary `t`: the block that starts emission fades to zero by the end of the tick, by a law that the spec
does not give (log 26), and what follows is zeros (R38). -/
def Dev.strFade (d : Dev) : Dev :=
  let t := d.top.tick
  (d.str.tx.map Prod.fst).foldl (fun d x =>
    let e := d.txE x
    let v := d.tx x
    let b := d.txStart v e (t - 1)
    (d.txMap x (fun p fr =>
      if p < d.txStart v e (t - 2) then fr
      else if b ≤ p + 1 then fr.map (fun _ => 0)
      else fr.map (fun s => divEven (s * (d.freeNat 0 % (2 ^ 24 + 1) : Nat)) (2 ^ 24)))).drew 1) d

/-- A queued packet of stream `x` has waited a packet time at MAC `m` (R326). -/
def Dev.txLate (d : Dev) (m x : Nat) : Dev :=
  match takeFirst (fun (p : StxPkt) => p.stream == x) (d.mac m).stx with
  | some (_, r) => (((d.setMac m { d.mac m with stx := r }).count (R.STR_TX_LATE_COUNT x)).raise F.txLate).note .strLate
  | none => d

/-! ## Health (R329) -/

/-- A path of a dual stream is lost: one of the two is down, or both are while it plays. -/
def pathGone (d : Dev) (s : Nat) : Bool :=
  let a := d.flag (R.STR_RX_STAT_PATH_A s)
  let b := d.flag (R.STR_RX_STAT_PATH_B s)
  a != b || (!a && !b && d.fld (R.STR_RX_STAT_STATE s) == 2)

def strHealth (d : Dev) : UState × Nat :=
  let rs := listedRx (d.tab T.strRx).live
  if rs.any (fun o => d.fld (R.STR_RX_STAT_STATE o.1) == 3 ||
      (StrE.netA o.2 && StrE.netB o.2 && pathGone d o.1)) then (.degraded, 1)
  else if d.last .strMissing || d.last .strLate then (.degraded, 2)
  else (.ok, 0)

end Sys2Proof.Machine
end

