-- ==== Sys2Proof/Machine/Slp.lean ====
section
/-! DEFINITION. The Slipway (spec 07): which path a signal takes, ROM responses, ASRC channels, delays and their reports, and the
conditioning of ingress slots and egress destinations. -/
namespace Sys2Proof.Machine

/-! ## Paths (R229, R230, R237, R245) -/

/-- The three ways of R229 and R230. -/
inductive Conv where
  | direct
  | dec (n : Nat)
  | asrc (p : Nat)
  deriving DecidableEq, Repr

/-- The way from rate `a` to rate `b` (Hz). -/
def convOf (a b : Nat) (locked : Bool) : Conv :=
  if locked ∧ a = b then .direct
  else if locked ∧ a = 2 * b then .dec 2
  else if locked ∧ a = 4 * b then .dec 4
  else .asrc (if 36 * b ≤ 10 * a then 4 else if 18 * b ≤ 10 * a then 2 else 1)

/-- Rate column of R237. -/
def Dev.rateCol (d : Dev) : Nat := d.fld R.TOP_RATE_FS_MULT % 4

/-- Group delay codes of the decimators by direction, ratio, column and kind (STEEP, BALANCED, MIN_DELAY). -/
def decCode (eg : Bool) (n col dec : Nat) : Nat :=
  (match eg, n, col with
    | false, 2, 0 => [0x8600, 0x5200, 0x2400]
    | false, 2, 1 => [0x8400, 0x5180, 0x2380]
    | false, 4, 0 => [0x9800, 0x5E00, 0x2A00]
    | true, 2, 1 => [0x10C00, 0xA400, 0x4800]
    | true, 2, 2 => [0x10800, 0xA300, 0x4700]
    | true, 4, 2 => [0x26000, 0x17800, 0xA800]
    | _, _, _ => []).getD dec 0

/-- Group delay codes of the DC blocks. -/
def dcbCode (dcb col : Nat) : Nat :=
  (match dcb with
    | 1 => [0x0056, 0x00AC, 0x0158]
    | 2 => [0x0370, 0x06E0, 0x0DC0]
    | _ => []).getD col 0

/-- Sections of a response (R237). -/
def romSections (id : Nat) : Nat := [8, 6, 4, 10, 8, 6, 1, 1].getD id 0

/-- Response of kind DEC for a ratio. -/
def decId (n dec : Nat) : Nat := if n = 4 then 3 + dec else dec

/-- Coefficients of a response in Q3.28, section by section: one set for each decimator, one for each rate column of a DC block. -/
def romOf (col id : Nat) : List (Nat → Int) :=
  (List.range (romSections id)).map (fun k i => sx 32 (tc 32 (Config.romCoef id (if id < 6 then 0 else col) k i)))

/-- The delay code that the responses of a path add (R245); an ASRC's own delay is not among them. -/
def respCode (eg : Bool) (col : Nat) (c : Conv) (dec dcb : Nat) : Nat :=
  dcbCode dcb col + (match c with
    | .direct => 0
    | .dec n => decCode eg n col dec
    | .asrc p => if p = 1 then 0 else decCode eg p col dec)

/-- Dns of a delay code (R246). -/
def Dev.dns (d : Dev) (code : Nat) : Int := divAway (code * 10 ^ 9 : Nat) (4096 * d.fs)

/-! ## ASRC channels (R240 to R244) -/

def Dev.asrc (d : Dev) (a : Nat) : AsrcS := smGet (fun _ => AsrcS.zero) d.slp.asrc a
def Dev.setAsrc (d : Dev) (a : Nat) (x : AsrcS) : Dev := { d with slp := { d.slp with asrc := smSet (fun _ => AsrcS.zero) d.slp.asrc a x } }

def Dev.asrcState (d : Dev) (a : Nat) : Nat := d.fld (R.SLP_ASRC_STAT_STATE a)

/-- ASRC_FADE and ASRC_BW as the last boundary found them (R248). -/
def Dev.asrcFade (d : Dev) : Nat := bits d.slp.cfg 8 7 * d.blockB
def Dev.asrcBw (d : Dev) : Nat := bits d.slp.cfg 0 2

/-- SLP_CFG as written takes effect at a boundary (R248). -/
def Dev.slpLatch (d : Dev) : Dev := { d with slp := { d.slp with cfg := d.fld R.SLP_CFG_ASRC_FADE * 256 + d.fld R.SLP_CFG_ASRC_BW } }

/-- Gain of a channel after the samples of its fade-in done so far (R241). -/
def Dev.asrcGain (d : Dev) (a : Nat) : Nat :=
  let n := d.asrcFade
  let x := d.asrc a
  if n ≤ x.faded then 2 ^ 24 else x.faded * 2 ^ 24 / n

/-- A LOCKED channel leaves LOCKED: its output fades out over the next block (R241, R242). -/
def Dev.asrcLeave (d : Dev) (a st : Nat) : Dev :=
  let x := d.asrc a
  let d := if d.asrcState a = 2 then d.setAsrc a { x with dying := true, gain := d.asrcGain a, faded := 0 } else d
  d.setFld (R.SLP_ASRC_STAT_STATE a) st

/-- Inputs that an output depends on: the last 512. -/
def asrcSpan (hist input : List Int) : List Int := let l := hist ++ input; l.drop (l.length - 512)

/-- Output `k` of a converter from rate `fin` to `fout`: a free value, but over nothing within -130 dBFS of nothing, and over inputs that
have long stood at one value, which is of the passband, within its ripple of ±0.005 dB besides (R240). Log 13. -/
def asrcSample (span : List Int) (fin fout : Nat) (est : Int) (k : Nat) : Int :=
  let y := sx 32 (tc 32 (Config.asrcOut span fin fout est k))
  let c := span.headD 0
  let slack : Int := (c.natAbs * 5758 / 10 ^ 7 : Nat) + 5
  if span.all (· == c) && (c == 0 || span.length == 512) then clampI (c - slack) (c + slack) y else y

/-- Gain of a channel for sample `m` of a block of `n`, over 2^24: rising while LOCKED, over ASRC_FADE ticks; falling over the block by
the law of R144 once it has left LOCKED. -/
def Dev.asrcRamp (d : Dev) (a n m : Nat) : Int × Nat :=
  let x := d.asrc a
  if d.asrcState a = 2 then
    let k := x.faded * n + (m + 1) * d.blockB
    if d.asrcFade * n ≤ k then (1, 1) else (k, d.asrcFade * n)
  else if x.dying then ((x.gain : Int) + divFloor (-(x.gain : Int) * (m + 1 : Nat)) n, 2 ^ 24)
  else (0, 1)

/-- Output of channel `a` to the path of target `t` over a block of `n` samples, for the inputs of that block (R241): the converted
signal under the fades while LOCKED or leaving it, zeros otherwise. To a target that it has left it gives what the changeover fades out
(R247). -/
def Dev.asrcBlock (d : Dev) (a t fin fout : Nat) (input : List Int) (n : Nat) : List Int :=
  let x := d.asrc a
  if x.target = t + 1 then
    (List.range n).map (fun m =>
      let g := d.asrcRamp a n m
      divEven (asrcSample (asrcSpan x.hist input) fin fout x.est (x.n + m) * g.1) g.2)
  else match x.prev with
    | some o => (List.range n).map (fun m => divEven (asrcSample (asrcSpan o.hist input) fin fout o.est (o.n + m) * o.gain) (2 ^ 24))
    | none => List.replicate n 0

/-- Channel `a` has taken a block's inputs for its target and given `n` outputs: fades move on. -/
def Dev.asrcFeed (d : Dev) (a t : Nat) (input : List Int) (n : Nat) : Dev :=
  let x := d.asrc a
  if x.target = t + 1 then
    let on := d.asrcState a == 2
    d.setAsrc a { x with hist := asrcSpan x.hist input, n := if on then x.n + n else 0, dying := false,
                         gain := 0, faded := if on then min d.asrcFade (x.faded + d.blockB) else 0 }
  else d

/-- Delay code of a channel whose output runs at `out` Hz: within half an output sample of 48 while it is LOCKED (R240), otherwise not
stated. Log 13. -/
def Dev.asrcCode (d : Dev) (a out : Nat) : Nat :=
  let lo := (divEven (194560 * d.fs : Nat) out).toNat
  let hi := (divEven (198656 * d.fs : Nat) out).toNat
  let v := Config.asrcDelay out (d.asrc a).est (d.asrc a).n
  if d.asrcState a = 2 then lo + v % (hi - lo + 1) else v % 2 ^ 32

/-! ## Keys of slots and destinations -/

/-- The receive stream and its channel that carry a receive channel, from entries (stream, words). -/
def chanOf (es : List (Nat × List Nat)) (r : Nat) : Option (Nat × List Nat × Nat) :=
  (es.find? (fun o => decide (StrE.chBase o.2 ≤ r ∧ r < StrE.chBase o.2 + StrE.chans o.2))).map
    (fun o => (o.1, o.2, r - StrE.chBase o.2))

/-- Complete a key: the channel of its target, if its path needs one. -/
def withAsrc (d : Dev) (target a b : Nat) (k : PathKey) : PathKey :=
  match convOf a b k.locked with
  | .asrc _ => if k.fn = 0 then k else { k with asrc := asrcOf d target }
  | _ => k

/-- Key of ingress slot `s`; none where nothing fills it (R233). A source that supplies nothing has Fn 0. -/
def slotKey (d : Dev) (s : Nat) : Option PathKey :=
  let w := SlpM.inW d s
  let idx := SlpM.index w
  let mk := fun (fn : Nat) (locked : Bool) => some (withAsrc d s fn d.fs ⟨SlpM.kind w, idx, fn, locked, SlpM.dec w, SlpM.dcb w, none⟩)
  if !SlpM.en w || !decide (s < d.nBus) then none
  else match SlpM.kind w with
    | 0 =>
      if d.nNet ≤ idx then none
      else match chanOf (listedRx (d.tab T.strRx).live) idx with
        | some (st, e, _) => if d.works strBase then mk (StrE.fn e) (rxLocked d st e) else mk 0 true
        | none => mk 0 true
    | 1 => match portRate d (idx / 32 % 32) false with | some (fn, l) => mk fn l | none => mk 0 true
    | 2 => if idx < 256 then mk d.fs true else none
    | _ => if idx < 16 then mk d.fs true else none

/-- Key of the path to an egress destination (numbered as the output patch does); none where its port or stream channel is not
configured. A slot outside the mask has its path too: the port alone takes it off the frame (R260). -/
def destPath (d : Dev) (x : Nat) : Option PathKey :=
  if x < 0x20000 then
    let p := x / 32 % 32
    match portRate d p true with
    | some (fn, l) =>
      if x % 32 < GFmt.slots (d.gFmt (p / 4)) then
        some (withAsrc d (0x40000 + x) d.fs fn ⟨0, x, fn, l, SlpM.dec (SlpM.egW d p), SlpM.dcb (SlpM.egW d p), none⟩)
      else none
    | none => none
  else
    let s := (x - 0x20000) / 64
    let e := d.txE s
    if StrE.en e && decide (x % 64 < StrE.chans e) && d.works strBase then
      let w := SlpM.egW d (32 + s)
      some (withAsrc d (0x40000 + x) d.fs (StrE.fn e) ⟨1, x, StrE.fn e, !StrE.aux e, SlpM.dec w, SlpM.dcb w, none⟩)
    else none

/-- Key of an egress destination that its slot or channel configuration uses; none elsewhere (R221). -/
def destKey (d : Dev) (x : Nat) : Option PathKey :=
  if x < 0x20000 && !slotOn d (x / 32 % 32) (x % 32) true then none else destPath d x

/-- The destinations that have a path, whether driven or not: slots of the ports with an output, and the channels of the
enabled transmit streams. A path carries zeros until something drives it (R221), so that what changes is the signal (R223). -/
def pathDests (d : Dev) : List Nat :=
  let ports := ((List.range 32).filter (fun p => (portRate d p true).isSome)).flatMap (fun p => (List.range 32).map (fun k => 32 * p + k))
  let chans := (listedTx (d.tab T.strTx).live).flatMap (fun o => (List.range (StrE.chans o.2)).map (fun k => 0x20000 + 64 * o.1 + k))
  (ports ++ chans).filter (fun x => (destPath d x).isSome)

/-- The way of a key. -/
def keyConv (d : Dev) (eg : Bool) (k : PathKey) : Conv :=
  if eg then convOf d.fs k.fn k.locked else convOf k.fn d.fs k.locked

/-- The key's path lacks the channel it needs (R236). -/
def lacksAsrc (d : Dev) (eg : Bool) (k : PathKey) : Bool :=
  k.fn != 0 && (match keyConv d eg k with | .asrc _ => k.asrc.isNone | _ => false)

/-! ## Assignment at a boundary (R236, R241, R243) -/

/-- The clock of a target is lost: its group reports CLK_LOST, or its stream is INACTIVE. -/
def clockLost (d : Dev) (target : Nat) : Bool :=
  if target < 0x40000 then
    let w := SlpM.inW d target
    if SlpM.kind w = 1 then d.fld (R.GRP_STAT_SYNC_STATE (SlpM.index w / 128 % 8)) == 3
    else if SlpM.kind w = 0 then
      (match chanOf (listedRx (d.tab T.strRx).live) (SlpM.index w) with
        | some (s, _, _) => d.fld (R.STR_RX_STAT_STATE s) == 3
        | none => false)
    else false
  else if target < 0x60000 then d.fld (R.GRP_STAT_SYNC_STATE ((target - 0x40000) / 128 % 8)) == 3
  else false

/-- What a channel leaves to the target it goes from (R247). -/
def Dev.asrcTail (d : Dev) (a : Nat) : Option AsrcTail :=
  let x := d.asrc a
  if x.target = 0 then x.prev
  else some ⟨x.est, if d.asrcState a = 2 then d.asrcGain a else if x.dying then x.gain else 0, x.hist, x.n⟩

/-- A channel starts anew for a target (0: none), 1 more than its number; it keeps the ratio it has measured and what it leaves. -/
def Dev.asrcRenew (d : Dev) (a target : Nat) (est : Int) : Dev :=
  d.setAsrc a { AsrcS.zero with est := est, target := target, ratioOut := (d.asrc a).ratioOut && target != 0, prev := d.asrcTail a }

/-- One channel at a boundary: used by its target's path, a standby, or idle. On a unit of the standby role, state moves that measurements
decide come with the markers (R244): a state that a marker gave it stands when its path first needs it. -/
def Dev.asrcServe (d : Dev) (a : Nat) : Dev :=
  match (asrcEntries d).find? (fun e => e.1 == a) with
  | none => (d.asrcRenew a 0 0).setFlds [(R.SLP_ASRC_STAT_STATE a, 0), (R.SLP_ASRC_STAT_STANDBY a, 0)]
  | some (_, t) =>
    let key := if t < 0x40000 then slotKey d t else destPath d (t - 0x40000)
    let used := match key with | some k => k.asrc == some a | none => false
    let standby := match key with | some k => !used && k.fn != 0 && k.asrc.isNone && !lacksAsrc d (0x40000 ≤ t) k && asrcOf d t == some a | none => false
    let d := d.setFld (R.SLP_ASRC_STAT_STANDBY a) (b2n standby)
    let st := d.asrcState a
    let lost := clockLost d t || (d.asrc a).ratioOut
    if !used then (d.asrcRenew a 0 (if standby then (d.asrc a).est else 0)).setFld (R.SLP_ASRC_STAT_STATE a) 0
    else if st = 0 || (d.asrc a).target != t + 1 then
      let kept := d.isStandby && st != 0 && (d.asrc a).target == 0
      let enters := lost && !d.isStandby
      ((d.asrcRenew a (t + 1) (d.asrc a).est).setFld (R.SLP_ASRC_STAT_STATE a) (if kept then st else if enters then 3 else 1)).raiseIf
        enters F.asrcLost
    else if d.isStandby then d
    else if st != 3 && lost then ((d.asrcLeave a 3).raise F.asrcLost)
    else if st = 3 && !lost then
      (d.setAsrc a { d.asrc a with unsettled := false }).setFld (R.SLP_ASRC_STAT_STATE a) 1
    else d

/-- No channel is in use: every one is IDLE and at rest. -/
def Dev.asrcIdle (d : Dev) : Dev :=
  (List.range 256).foldl (fun d a => (d.setAsrc a .zero).setFlds [(R.SLP_ASRC_STAT_STATE a, 0), (R.SLP_ASRC_STAT_STANDBY a, 0)]) d

/-- Paths that lack a channel (R236); none where SLP does not work. -/
def noAsrcCount (d : Dev) : Nat :=
  if d.works slpBase then
    let slots := ((d.tab T.slpMap).live.filter (fun e => e.1 < 0x400)).map Prod.fst
    (slots.filter (fun s => (slotKey d s).any (lacksAsrc d false))).length
      + ((pathDests d).filter (fun x => (destKey d x).any (lacksAsrc d true))).length
  else 0

/-- SLP_NO_ASRC follows the paths; NO_ASRC is set when it rises above zero. -/
def Dev.noAsrc (d : Dev) : Dev :=
  let n := min 2047 (noAsrcCount d)
  (d.raiseIf (d.fld R.SLP_NO_ASRC_COUNT == 0 && n != 0) F.noAsrc).setFld R.SLP_NO_ASRC_COUNT n

/-- Every channel, the conflicts of the live table and the paths that lack a channel (R236). Outside RUN, where no block runs, every channel
is IDLE and at rest. DESIGN CHOICE, log 133. -/
def Dev.asrcService (d : Dev) : Dev :=
  let now := asrcIgnored d
  let d := d.raiseIf (now.any (fun a => !d.slp.conflicts.contains a)) F.asrcConflict
  let d := { d with slp := { d.slp with conflicts := now } }.noAsrc
  if d.top.st = .run ∧ d.works slpBase = true then (List.range 256).foldl Dev.asrcServe d else d.asrcIdle

/-- Entry into RUN: every path from rest and no changeover (R247). -/
def Dev.slpEnterRun (d : Dev) : Dev := { d with slp := { d.slp with ins := [], egs := [], fresh := true } }

/-- No block was processed: no egress block has a delay of its own. -/
def Dev.slpRested (d : Dev) : Dev := { d with slp := { d.slp with egNow := [], egWas := [] } }

/-! ## Signals -/

/-- What one path gives over a block: its output, its states, saturations, and what it gave its ASRC channel. -/
structure PathOut where
  y : List Int
  run : PathRun
  sat : Nat
  conv : List Int
  deriving DecidableEq, Repr

/-- The samples of input index n * j + n - 1, counted from sample 0 of tick 0, among those from index `first` on (R238). -/
def pickNth (n first : Nat) (l : List Int) : List Int := (l.zipIdx.filter (fun x => (first + x.2) % n == n - 1)).map Prod.fst

/-- A decimator over a block whose first input has index `first`, or none of it for a ratio of 1: samples, states, saturations. -/
def decimate (n dec first : Nat) (st : List Sos) (x : List Int) : List Int × List Sos × Nat :=
  if n ≤ 1 then (x, [], 0)
  else
    let (y, st, s) := cascade (romOf 0 (decId n dec)) st x
    (pickNth n first y, st, s)

/-- A DC block over a block of samples at Fs. -/
def dcBlock (col dcb : Nat) (st : List Sos) (x : List Int) : List Int × List Sos × Nat :=
  if dcb = 0 then (x, [], 0) else cascade (romOf col (5 + dcb)) st x

/-- A path's decimator, and its ASRC channel where it has one: `n` samples at rate `fout`, from a signal of target `t` at rate `fin` whose
first sample has index `first`. -/
def convert (d : Dev) (eg : Bool) (t : Nat) (k : PathKey) (st : List Sos) (first : Nat) (x : List Int) (fin fout n : Nat) :
    List Int × List Sos × Nat × List Int :=
  match keyConv d eg k with
  | .direct => (x, [], 0, [])
  | .dec r =>
    let (y, st, s) := decimate r k.dec first st x
    (y, st, s, [])
  | .asrc p =>
    let (y, st, s) := decimate p k.dec first st x
    (match k.asrc with | some a => d.asrcBlock a t (fin / p) fout y n | none => List.replicate n 0, st, s, y)

/-- An ingress path of slot `s` over the raw samples at Fn of block `t`. -/
def ingressRun (d : Dev) (t s : Nat) (k : PathKey) (r : PathRun) (raw : List Int) : PathOut :=
  let b := d.blockB
  let (x, dec, s1, c) : List Int × List Sos × Nat × List Int :=
    if k.fn = 0 then (List.replicate b 0, [], 0, []) else convert d false s k r.dec (d.gridAt k.fn t) raw k.fn d.fs b
  let (y, dc, s2) := dcBlock d.rateCol k.dcb r.dc x
  ⟨y, ⟨some k, dec, dc⟩, s1 + s2, c⟩

/-- An egress path of destination `x` over block `t` at Fs, for `n` samples at Fn. -/
def egressRun (d : Dev) (t x : Nat) (k : PathKey) (r : PathRun) (sig : List Int) (n : Nat) : PathOut :=
  let (v, dc, s1) := dcBlock d.rateCol k.dcb r.dc sig
  let (y, dec, s2, c) := convert d true (0x40000 + x) k r.dec (t * d.blockB) v d.fs k.fn n
  ⟨y, ⟨some k, dec, dc⟩, s1 + s2, c⟩

/-- A change over one block, n samples for the B of Fs: sample m takes the factor of the sample of Fs that it stands for, and an old block
of another length gives the sample of the same place in it. DESIGN CHOICE, log 112. `div` is the narrowing. -/
def glideBy (div : Int → Nat → Int) (b : Nat) (old new : List Int) : List Int :=
  let n := new.length
  new.zipIdx.map (fun x =>
    let o := old.getD (x.2 * old.length / n) 0
    o + div ((x.1 - o) * ((x.2 + 1) * b / n : Nat)) b)

/-- The changeover of R321, with an arithmetic shift. -/
def glideN (b : Nat) (old new : List Int) : List Int := glideBy divFloor b old new

/-- A path changeover (R247): it narrows half to even, as R239 lists it, where R247 writes a shift. DEDUCED, log 112. -/
def glideE (b : Nat) (old new : List Int) : List Int := glideBy divEven b old new

/-- What the stream of a block had been before it restarted at this boundary, or what it is (R321). -/
def rxSide (o : RxBlock) (old : Bool) : List Nat × List (List Int) := if old && o.moved then (o.oldE, o.old) else (o.e, o.frames)

/-- Raw samples of a source at Fn for one block; a locked external group's frames by their sample numbers (R259). `rxs` are the stream
blocks taken at this boundary; `old` asks for what a stream that has just restarted would have delivered (R321). -/
def rawOf (d : Dev) (t : Nat) (rxs : List (Nat × RxBlock)) (k : PathKey) (old : Bool) : List Int :=
  let n := d.gridAt k.fn (t + 1) - d.gridAt k.fn t
  match k.kind with
  | 0 =>
    match chanOf ((rxs.map (fun o => (o.1, (rxSide o.2 old).1))).filter (fun o => !o.2.isEmpty)) k.idx with
    | some (s, _, ch) =>
      (match rxs.find? (fun o => o.1 == s) with
        | some o => (rxSide o.2 old).2.map (fun f => f.getD ch 0)
        | none => [])
    | none => []
  | 1 =>
    let q := (d.port (k.idx / 32 % 32)).inQ
    let w := d.gFmt (k.idx / 128 % 8)
    (List.range n).map (fun i =>
      let fr := if GFmt.clkSrc w = 2 ∧ k.locked = true then q.find? (fun f => f.1 == d.gridAt k.fn t + i) else q[i]?
      match fr with | some f => f.2.getD (k.idx % 32) 0 * 2 | none => 0)
  | 2 => Bank.at d d.dsp.src k.idx
  | _ => oscBlock d k.idx t

/-- Raw samples of a key that goes on: a stream that restarted at this boundary changes over within the raw block (R321). -/
def rawBlend (d : Dev) (t : Nat) (rxs : List (Nat × RxBlock)) (k : PathKey) : List Int :=
  let new := rawOf d t rxs k false
  if k.kind = 0 ∧ rxs.any (·.2.moved) then glideN d.blockB (rawOf d t rxs k true) new else new

/-- Samples that a decimator or DC block saturated (R238). -/
def Dev.slpSats (d : Dev) (n : Nat) : Dev := (d.addFld R.SLP_SAT_COUNT n).raiseIf (0 < n) F.slpSat

/-- One path over a block: where its key has changed, the old path runs on for this block and fades into the new one (R247). `run` gives a
key's path from a state, `rest` the length of a block without a path. -/
def pathBlock (d : Dev) (b rest : Nat) (r : PathRun) (key : Option PathKey) (run : PathKey → PathRun → Bool → PathOut) : PathOut :=
  let zeros : List Int := List.replicate rest 0
  if r.key = key ∨ d.slp.fresh = true then
    match key with | some k => run k (if r.key = key then r else .zero) false | none => ⟨zeros, .zero, 0, []⟩
  else
    let new := match key with | some k => run k .zero false | none => ⟨zeros, .zero, 0, []⟩
    match r.key with
    | some k =>
      let old := run k r true
      ⟨glideE b old.y new.y, new.run, new.sat + old.sat, new.conv⟩
    | none => ⟨glideE b [] new.y, new.run, new.sat, new.conv⟩

/-- The delay code of a path (R245). -/
def pathCode (d : Dev) (eg : Bool) (k : PathKey) (fout : Nat) : Nat :=
  if k.fn = 0 then dcbCode k.dcb d.rateCol
  else respCode eg d.rateCol (keyConv d eg k) k.dec k.dcb +
    (match keyConv d eg k, k.asrc with | .asrc _, some a => d.asrcCode a fout | _, _ => 0)

/-- One ingress slot over block `t`. -/
def slotBlock (d : Dev) (t : Nat) (rxs : List (Nat × RxBlock)) (s : Nat) : List Int × Dev :=
  let b := d.blockB
  let key := slotKey d s
  let r := smGet (fun _ => PathRun.zero) d.slp.ins s
  let o := pathBlock d b b r key (fun k q old =>
    ingressRun d t s k q (if r.key = key ∧ d.slp.fresh = false then rawBlend d t rxs k else rawOf d t rxs k old))
  let code := match key with | some k => pathCode d false k d.fs | none => 0
  let d := (d.slpSats o.sat).setFld (R.SLP_IN_DLY_D s) (code % 2 ^ 32)
  let d := match key with
    | some k => (match k.asrc with | some a => d.asrcFeed a s o.conv b | none => d)
    | none => d
  (o.y, { d with slp := { d.slp with ins := smSet (fun _ => PathRun.zero) d.slp.ins s o.run } })

/-- SLP_IN_DLY of every slot is 0 until the block gives it one: D belongs to the last block alone (R245). -/
def Dev.inDelaysClear (d : Dev) : Dev := { d with regs := smDrop (fun a => decide (0xB2000 ≤ a ∧ a < 0xB3000)) d.regs }

/-- The source bank of block `t` (R166, R229, R247, R552). -/
def slpIngress (d : Dev) (t : Nat) (rxs : List (Nat × RxBlock)) : Bank × Dev :=
  let d := d.inDelaysClear
  if d.works slpBase then
    let slots := (((d.tab T.slpMap).live.filter (fun e => e.1 < 0x400)).map Prod.fst ++ d.slp.ins.map Prod.fst).eraseDups
    slots.foldl (fun (acc : Bank × Dev) s =>
      let (y, d) := slotBlock acc.2 t rxs s
      (acc.1.put s y, d)) ([], d)
  else ([], { d with slp := { d.slp with ins := [], egs := [], fresh := false } })

/-- One destination over a block: its samples at Fn in S24. -/
def destBlock (d : Dev) (t x : Nat) (sig : List Int) : List Int × Dev :=
  let key := destPath d x
  let r := smGet (fun _ => PathRun.zero) d.slp.egs x
  let len := fun (k : PathKey) =>
    if k.kind = 1 ∧ k.locked = false then d.txCount (d.txE ((x - 0x20000) / 64)) t else d.gridAt k.fn (t + 1) - d.gridAt k.fn t
  match key with
  | none => ([], { d with slp := { d.slp with egs := smSet (fun _ => PathRun.zero) d.slp.egs x .zero } })
  | some k =>
    let o := pathBlock d d.blockB (len k) r key (fun k q _ => egressRun d t x k q sig (len k))
    let d := d.slpSats o.sat
    let d := match k.asrc with | some a => d.asrcFeed a (0x40000 + x) o.conv (len k) | none => d
    (o.y.map exportS24, { d with slp := { d.slp with egs := smSet (fun _ => PathRun.zero) d.slp.egs x o.run } })

/-- SLP_EG_DLY of an egress entry from one of its destinations. -/
def Dev.egressDelay (d : Dev) (e : Nat) (key : Option PathKey) : Dev :=
  d.setFld (R.SLP_EG_DLY_D e) (match key with | some k => pathCode d true k k.fn % 2 ^ 32 | none => 0)

/-- Egress of block `t`: samples by destination, and delays (R245, R552). The delay codes of the block before are kept for the stamps
of its emission (R246). -/
def slpEgress (d : Dev) (t : Nat) (sig : Bank) : List (Nat × List Int) × Dev :=
  let drv := (patchDrivers d).1.map Prod.fst
  if d.inBlock slpBase then
    let dests := (drv ++ pathDests d ++ d.slp.egs.map Prod.fst).eraseDups
    let (out, d) := dests.foldl (fun (acc : List (Nat × List Int) × Dev) x =>
      let (y, d) := destBlock acc.2 t x (Bank.at acc.2 sig x)
      (acc.1 ++ [(x, y)], d)) ([], d)
    let d := (List.range 288).foldl (fun d e =>
      let mine := fun (x : Nat) => if e < 32 then decide (x < 0x20000) && x / 32 % 32 == e else decide (0x20000 ≤ x) && (x - 0x20000) / 64 == e - 32
      d.egressDelay e ((dests.filter mine).findSome? (destPath d))) d
    let codes := (pathDests d).filterMap (fun x => (destPath d x).map (fun k => (x, pathCode d true k k.fn)))
    (out, { d with slp := { d.slp with fresh := false, egWas := d.slp.egNow, egNow := codes } })
  else ([], { d with slp := { d.slp with ins := [], egs := [], fresh := false, egNow := [], egWas := [] } })

/-- Dns of the path to destination `x` for the block that starts emission (R246): that of its block, or of the path as it stands where no
block has run; 0 where it has none. -/
def Dev.emitDns (d : Dev) (x : Nat) : Int :=
  match d.slp.egWas.find? (fun e => e.1 == x) with
  | some e => d.dns e.2
  | none => match destPath d x with | some k => d.dns (pathCode d true k k.fn) | none => 0

/-! ## Measurements (R241 to R243) -/

/-- The ratio that a channel measures, in 0.01 ppm: `dev`, or for a stream what its packets' timestamps give against their arrival (R315). -/
def Dev.asrcSeen (d : Dev) (a : Nat) (dev : Int) : Int :=
  match (asrcEntries d).find? (fun e => e.1 == a) with
  | none => dev
  | some (_, t) =>
    let w := SlpM.inW d t
    if t < 0x40000 ∧ SlpM.kind w = 0 then
      match chanOf (listedRx (d.tab T.strRx).live) (SlpM.index w) with
      | some (s, e, _) => ((d.rx s).meas.ratio (StrE.fn e)).getD dev
      | none => dev
    else dev

/-- DEV shows the measured ratio. -/
def Dev.asrcShow (d : Dev) (a : Nat) (dev : Int) : Dev := d.setFld (R.SLP_ASRC_STAT_DEV a) (tc 24 (satS 24 dev))

/-- A standby channel measures without output (R243). -/
def Dev.asrcWatch (d : Dev) (a : Nat) (dev : Int) : Dev :=
  if d.flag (R.SLP_ASRC_STAT_STANDBY a) then (d.setAsrc a { d.asrc a with est := dev }).asrcShow a dev else d

/-- The ratio lies beyond, or is back within, 2 % of nominal. -/
def Dev.asrcRatio (d : Dev) (a : Nat) (seen : Int) : Dev :=
  let dev := d.asrcSeen a seen
  let st := d.asrcState a
  if st = 0 then d.asrcWatch a dev
  else
    let d := d.asrcShow a dev
    if 2000000 < dev.natAbs then
      if st = 3 then d.setAsrc a { d.asrc a with ratioOut := true }
      else
        let d := d.asrcLeave a 3
        (d.setAsrc a { d.asrc a with ratioOut := true }).raise F.asrcLost
    else
      let x := { d.asrc a with ratioOut := false }
      let d := d.setAsrc a x
      let lost := match (asrcEntries d).find? (fun e => e.1 == a) with | some e => clockLost d e.2 | none => false
      if st = 3 ∧ lost = false then (d.setAsrc a { x with unsettled := false }).setFld (R.SLP_ASRC_STAT_STATE a) 1 else d

/-- The ratio estimate has settled: the channel enters LOCKED and fades in. Beyond 2 % it is LOST instead. -/
def Dev.asrcSettled (d : Dev) (a : Nat) (seen : Int) : Dev :=
  let dev := d.asrcSeen a seen
  if 2000000 < dev.natAbs then d.asrcRatio a seen
  else if d.asrcState a = 1 then
    ((d.setAsrc a { d.asrc a with est := dev, faded := 0, unsettled := false, n := 0 }).setFld (R.SLP_ASRC_STAT_STATE a) 2).asrcShow a dev
  else if d.asrcState a = 0 then d.asrcWatch a dev
  else d

/-- The estimate has not settled in 500 ms. -/
def Dev.asrcTimeout (d : Dev) (a : Nat) : Dev :=
  if d.asrcState a = 1 then (d.setAsrc a { d.asrc a with unsettled := true }).raise F.asrcLost else d

/-- A LOCKED channel's ratio is measured: beyond 2 % it is LOST; by more than 0.1 % from its locked estimate it relocks, by less it is
tracked (R242, log 111). The 0.1 % are of the nominal ratio. DESIGN CHOICE, log 132. -/
def Dev.asrcRelock (d : Dev) (a : Nat) (seen : Int) : Dev :=
  let dev := d.asrcSeen a seen
  let x := d.asrc a
  if 2000000 < dev.natAbs then d.asrcRatio a seen
  else if d.asrcState a = 2 then
    if 100000 < (dev - x.est).natAbs then
      (((d.asrcLeave a 1).asrcShow a dev).count R.SLP_RELOCK_COUNT).raise F.asrcRelock
    else (d.setAsrc a { x with est := clampI (min x.est dev) (max x.est dev) (Config.asrcTrack d.asrcBw x.est dev) }).asrcShow a dev
  else if d.asrcState a = 0 then d.asrcWatch a dev
  else d

/-- State and estimate of a channel as the active has them (R244): a standby's channel keeps its target and inputs, locks where the active's
has and leaves LOCKED where it leaves. -/
def Dev.asrcMirror (d : Dev) (a st : Nat) (est : Int) : Dev :=
  let was := d.asrcState a
  let d := if was != 2 && st == 2 then (d.setAsrc a { d.asrc a with faded := 0, unsettled := false, n := 0 }).setFld (R.SLP_ASRC_STAT_STATE a) 2
    else if was != st then d.asrcLeave a st else d
  (d.setAsrc a { d.asrc a with est := est }).asrcShow a est

/-- What SLP reports (R249): a channel in ACQUIRE has not settled. -/
def slpHealth (d : Dev) (overtime : Bool) : UState × Nat :=
  if overtime then (.fault, 2)
  else if d.fld R.SLP_NO_ASRC_COUNT ≠ 0 ∨ (List.range 256).any (fun a => d.asrcState a == 3 || d.asrcState a == 1) then (.degraded, 1)
  else (.ok, 0)

/-! ## Meanings -/

/-- ASRC_SETTLED (R241). -/
def execAsrcSettled (a : Fin 256) (dev : Int) (s : State) := s.act (·.ownMeasure (·.asrcSettled a.val dev))
/-- ASRC_ACQUIRE_TIMEOUT (R241). -/
def execAsrcAcquireTimeout (a : Fin 256) (s : State) := s.act (·.ownMeasure (·.asrcTimeout a.val))
/-- ASRC_RELOCK (R242). -/
def execAsrcRelock (a : Fin 256) (dev : Int) (s : State) := s.act (·.ownMeasure (·.asrcRelock a.val dev))
/-- ASRC_RATIO_OUT (R241). -/
def execAsrcRatioOut (a : Fin 256) (dev : Int) (s : State) := s.act (·.ownMeasure (·.asrcRatio a.val dev))
/-- STREAM_RATE_CHECK (R316). -/
def execStreamRateCheck (str : Fin 256) (dev : Int) (s : State) := s.act (·.ownMeasure (·.strRateCheck str.val dev))
/-- STREAM_RATE_RECOVER (R316). -/
def execStreamRateRecover (str : Fin 256) (s : State) := s.act (·.ownMeasure (·.strRateRecover str.val))
/-- STREAM_INACTIVE (R320). -/
def execStreamInactive (str : Fin 256) (s : State) := s.act (·.streamInactive str.val)
/-- PATH_LOST (R320). -/
def execPathLost (str : Fin 256) (mac : Fin 2) (s : State) := s.act (·.pathLost str.val mac.val)

end Sys2Proof.Machine
end

