-- ==== Sys2Proof/Machine/Tdm.lean ====
section
/-! DEFINITION. Frames of the serial ports (spec 08): slots, envelopes at work, clock faults, memory mode with its records, stamps,
and the port buffers. -/
namespace Sys2Proof.Machine

/-! ## Slots (R257) -/

/-- S24 value of a raw input slot of `w` bits. -/
def slotIn (w raw : Nat) : Int :=
  let r := raw % 2 ^ w
  sx 24 (if 24 ≤ w then r / 2 ^ (w - 24) else r * 2 ^ (24 - w))

/-- Raw output slot of `w` bits of an S24 value. -/
def slotOut (w : Nat) (v : Int) : Nat :=
  if 24 ≤ w then tc 24 v * 2 ^ (w - 24) else tc w (satS w (divEven v (2 ^ (24 - w))))

/-! ## Lines (R253, R256, R258) -/

/-- BCLK period, counted from the FSYNC edge, of the first bit of slot 0. -/
def GFmt.shift (w : Nat) : Nat := GFmt.offset w % GFmt.bclks w

/-- Raw word of slot `k`, MSB first, from the levels of a data line by BCLK period (R256). -/
def slotWord (w sdi k : Nat) : Nat :=
  (List.range (GFmt.width w)).foldl (fun v i => 2 * v + b2n (bitAt sdi (GFmt.shift w + k * GFmt.width w + i))) 0

/-- FSYNC in BCLK period `j` of a frame; an idle group holds it inactive. -/
def fsyncLevel (w j : Nat) : Bool :=
  (decide (j < (if GFmt.fsForm w then GFmt.bclks w / 2 else 1)) && GFmt.slots w != 0) != GFmt.fsPol w

/-- BCLK in the first or second half of a period: data is launched at the start of a period and sampled at its middle. -/
def bclkLevel (w : Nat) (second : Bool) : Bool := (second && GFmt.slots w != 0) != GFmt.bclkInv w

/-- SDO of a port in BCLK period `j` of the frame it emits; none where it is high impedance. The first OFFSET periods carry the end of the
frame before. -/
def Dev.sdoLevel (d : Dev) (p j : Nat) : Option Bool :=
  let w := d.gFmt (p / 4)
  let n := GFmt.bclks w
  if !d.drives p then none
  else if n = 0 then some false
  else
    let x := d.port p
    let s := GFmt.shift w
    let (fr, b) := if s ≤ j then (x.lastOut, j - s) else (x.prevOut, n + j - s)
    (fr.getD (b / GFmt.width w) (some 0)).map (fun v => bitAt v (GFmt.width w - 1 - b % GFmt.width w))

/-- The first FSYNC edge that this part stamps by base 0 now (TS32). -/
def Dev.ts0 (d : Dev) : Nat := d.tbNs 0

/-! ## Memory mode (R265 to R269) -/

namespace Rec
/-- Slots per frame of a record: those enabled. -/
def slots (d : Dev) (p : Nat) (out : Bool) : List Nat := (List.range 32).filter (fun k => slotOn d p k out)
def bytes (d : Dev) (p : Nat) : Nat := if PCtl.pack4 (d.pCtl p) then 4 else 3
/-- Record stride RS. -/
def stride (d : Dev) (p : Nat) : Nat :=
  64 * ((32 + PCtl.memFrames (d.pCtl p) * GFmt.slots (d.gFmt (p / 4)) * bytes d p + 63) / 64)
def base (d : Dev) (p : Nat) (out : Bool) : Nat :=
  if out then d.fld (R.PORT_PLY_BASE_LO_BASE p) / 0x1000 * 0x1000 + d.fld (R.PORT_PLY_BASE_HI_BASE p) % 4 * 2 ^ 32
  else d.fld (R.PORT_CAP_BASE_LO_BASE p) / 0x1000 * 0x1000 + d.fld (R.PORT_CAP_BASE_HI_BASE p) % 4 * 2 ^ 32
def size (d : Dev) (p : Nat) : Nat := 2 ^ PCtl.memLog2 (d.pCtl p)
/-- DRAM address of record `i`. -/
def addr (d : Dev) (p : Nat) (out : Bool) (i : Nat) : Nat := base d p out + i % size d p * stride d p
/-- The stamp bytes 0 to 15 of a header. -/
def stamp (tick phase ts : Nat) : List Nat := leBytes 6 tick ++ [0, 0] ++ leBytes 4 (phase % 2 ^ 24) ++ leBytes 4 (ts % 2 ^ 32)
end Rec

/-- A captured block as a record (R265). -/
def capRecord (d : Dev) (p seq : Nat) (c : CapRun) : List Nat :=
  let ks := Rec.slots d p false
  Rec.stamp c.tick c.phase c.ts ++ leBytes 4 seq ++ [b2n c.discont + 2 * b2n c.faded + 4 * b2n c.clkFault, ks.length] ++ List.replicate 10 0
    ++ c.frames.flatMap (fun f => ks.flatMap (fun k => leBytes (Rec.bytes d p) (tc (8 * Rec.bytes d p) (f.getD k 0))))

/-- The end of a capture block: its record is written, or the block is an overrun and its envelope restarts at 0 (R266). -/
def Dev.captureEnd (d : Dev) (p : Nat) : Dev :=
  let x := d.port p
  if PCtl.memory (d.pCtl p) && decide (PCtl.memFrames (d.pCtl p) ≤ x.cap.frames.length) then
    let w := d.fld (R.PORT_CAP_WIDX_IDX p)
    let used := (w + 2 ^ 32 - d.fld (R.PORT_CAP_RIDX_IDX p)) % 2 ^ 32
    if used < Rec.size d p then
      let d := (d.dramWrite .sap (Rec.addr d p false w) (capRecord d p w x.cap)).2
      (d.setFld (R.PORT_CAP_WIDX_IDX p) (w + 1)).setPort p { d.port p with cap := .zero }
    else
      let d := ((d.count (R.PORT_OVERRUN_COUNT p)).raise (F.portOverrun p)).note (.portXrun p)
      d.setPort p { d.port p with cap := { CapRun.zero with discont := true }, inE := { (d.port p).inE with g := 0, fall := false } }
  else d

/-- The start of a play block, once for each block of a group that runs: its record, with which the fall of an underrun ends, or an underrun
(R267). A record counts for block k if WIDX had passed it when block k - 1 started. The fall of an underrun that a fault or a restart
has taken up goes on over the last played frame: play resumes after it. -/
def Dev.playStart (d : Dev) (p : Nat) : Dev :=
  let x := d.port p
  let g := d.grp (p / 4)
  let mf := PCtl.memFrames (d.pCtl p)
  if !d.awake || !d.works (grpBase (p / 4)) || GFmt.slots (d.gFmt (p / 4)) == 0 || g.restart || x.ply.begun || g.frame % mf != 0 then d
  else
    let d := d.setPort p { x with ply := { x.ply with seen := d.fld (R.PORT_PLY_WIDX_IDX p), begun := true } }
    if PCtl.memory (d.pCtl p) && d.dirOn p true && x.ply.left.isEmpty then
      let r := d.fld (R.PORT_PLY_RIDX_IDX p)
      let ahead := (x.ply.seen + 2 ^ 32 - r) % 2 ^ 32
      if 0 < ahead ∧ ahead ≤ 2 ^ 31 then
        if x.ply.missing && x.outE.fall && (x.outE.fault || x.want.isSome || g.want.isSome) then d
        else
          let ks := Rec.slots d p true
          let nb := Rec.bytes d p
          let a := Rec.addr d p true r
          let (got, d) := d.dramRead .sap (a + 32) (mf * ks.length * nb)
          let val := fun (i j : Nat) => match got with
            | some l => sx 24 (ofLe (slice l ((i * ks.length + j) * nb) 3))
            | none => sx 24 (d.freeNat (i * ks.length + j))
          let frames := (List.range mf).map (fun i => (List.range 32).map (fun k => match ks.findIdx? (· == k) with | some j => val i j | none => 0))
          let d := ((d.drew (mf * ks.length)).dramWrite .sap a (Rec.stamp d.top.tick d.phase d.ts0)).2
          let y := d.port p
          (d.setFld (R.PORT_PLY_RIDX_IDX p) (r + 1)).setPort p
            { y with ply := { y.ply with left := frames, missing := false }, outE := if x.ply.missing then { y.outE with fall := false } else y.outE }
      else
        let d := ((d.count (R.PORT_UNDERRUN_COUNT p)).raise (F.portUnderrun p)).note (.portXrun p)
        let y := d.port p
        d.setPort p { y with ply := { y.ply with missing := true },
                             outE := y.outE.startFall (fadeLen (d.fld (R.GRP_CTL_CTL (p / 4)))) false }
    else d

/-- The ring of a type that serves a link value: the lowest-numbered enabled one (R268, R293). -/
def Dev.ringFor (d : Dev) (ty link : Nat) : Option Nat :=
  (List.range 64).find? (fun r => (d.ring r).on && d.ringType r == ty && d.fld (R.RING_CFG_LINK r) == link)

/-- Write back bytes of a posted entry from offset `o`, then the PHASE byte, and consume the entry. -/
def Dev.ringBack (d : Dev) (r o : Nat) (l : List Nat) : Dev :=
  let a := d.ringAddr r (d.fld (R.RING_DEV_IDX_DEV_IDX r))
  ((d.hostWrite (a + o) l).hostWrite (a + 63) [b2n (d.ring r).phase]).ringAdvance r

/-- A captured record goes to the next posted CAP buffer; one too short for it drops the record (R268, R269), and so does a ring that is
full, with nothing posted (R93). -/
def Dev.capCopy (d : Dev) (p : Nat) : Dev :=
  let rd := d.fld (R.PORT_CAP_RIDX_IDX p)
  match d.ringFor 6 p with
  | none => d
  | some r =>
    if !PCtl.host (d.pCtl p) || !PCtl.memory (d.pCtl p) || rd == d.fld (R.PORT_CAP_WIDX_IDX p) || !d.ringLive r || !d.awake then d
    else if d.ringPosted r = 0 then (d.ringDrop r).setFld (R.PORT_CAP_RIDX_IDX p) (rd + 1)
    else
      let e := memRead d.hostMem (d.ringAddr r (d.fld (R.RING_DEV_IDX_DEV_IDX r))) 16
      let rs := Rec.stride d p
      let (got, d) := d.dramRead .hre (Rec.addr d p false rd) rs
      let rec_ := match got with | some l => l | none => (List.range rs).map (fun i => d.freeNat i % 256)
      let d := d.drew (if got.isSome then 0 else rs)
      let fits := rs ≤ ofLe (slice e 8 4)
      let d := if fits then d.hostWrite (ofLe (slice e 0 8)) rec_
        else ((d.count (R.PORT_OVERRUN_COUNT p)).raise (F.portOverrun p)).note (.portXrun p)
      (d.ringBack r 16 (rec_.take 32 ++ leBytes 4 (if fits then rs else 0) ++ List.replicate 11 0)).setFld (R.PORT_CAP_RIDX_IDX p) (rd + 1)

/-- The next PLY entry's record goes into the play ring while it has room; a wrong LENGTH is skipped as an underrun. The entries consumed
count as entries that no message has reported (R94). DESIGN CHOICE, log 134. -/
def Dev.plyFetch (d : Dev) (p : Nat) : Dev :=
  let w := d.fld (R.PORT_PLY_WIDX_IDX p)
  let used := (w + 2 ^ 32 - d.fld (R.PORT_PLY_RIDX_IDX p)) % 2 ^ 32
  match d.ringFor 7 p with
  | none => d
  | some r =>
    if !PCtl.host (d.pCtl p) || !PCtl.memory (d.pCtl p) || decide (Rec.size d p ≤ used) || !d.ringLive r || d.ringPosted r == 0 || !d.awake then d
    else
      let e := memRead d.hostMem (d.ringAddr r (d.fld (R.RING_DEV_IDX_DEV_IDX r))) 16
      let rs := Rec.stride d p
      if ofLe (slice e 8 4) = rs then
        let d := (d.dramWrite .hre (Rec.addr d p true w) (memRead d.hostMem (ofLe (slice e 0 8)) rs)).2
        (d.ringAdvance r).setFld (R.PORT_PLY_WIDX_IDX p) (w + 1)
      else
        ((((d.count (R.PORT_UNDERRUN_COUNT p)).raise (F.portUnderrun p)).note (.portXrun p))).ringAdvance r

/-! ## Frames (R256, R260 to R263, R270 to R274) -/

/-- After two right frames the group is resynchronised (R270, R271). -/
def Dev.resync (d : Dev) (g : Nat) : Dev :=
  let st := d.fld (R.GRP_STAT_SYNC_STATE g)
  if (st == 1 || st == 3) && decide (2 ≤ (d.grp g).good) && !(d.grp g).restart then d.setFld (R.GRP_STAT_SYNC_STATE g) 2 else d

/-- No BCLK edge for two frame periods (R270). A synchronous group that comes back measures φ0 afresh. DEDUCED, log 110. -/
def Dev.clkLost (d : Dev) (g : Nat) : Dev :=
  let w := d.gFmt g
  if d.awake && d.works (grpBase g) && GFmt.clkSrc w == 2 && GFmt.slots w != 0 && d.fld (R.GRP_STAT_SYNC_STATE g) != 3 then
    let d := ((d.count (R.GRP_CLK_LOST_COUNT g)).raise (F.clkLost g)).setFld (R.GRP_STAT_SYNC_STATE g) 3
    (d.setGrp g { d.grp g with good := 0, measure := true }).onEnvs g (Env.startFall (fadeLen (d.fld (R.GRP_CTL_CTL g))) true)
  else d

/-- What a port's pins take in one frame: the enabled slots' samples. -/
def pinsIn (d : Dev) (p : Nat) (words : List Nat) : List Int :=
  let w := GFmt.width (d.gFmt (p / 4))
  (List.range 32).map (fun k => if slotOn d p k false then slotIn w (words.getD k 0) else 0)

/-- A health trip puts an enabled output direction into repeat mode at its next frame boundary, while its output is owned (R275). -/
def Dev.repeatEntry (d : Dev) (p : Nat) : Dev :=
  if d.tth.tripped && d.effEn tthBase && d.tth.own.contains p && d.dirOn p true && !(d.port p).rep then
    (d.setPort p { d.port p with rep := true }).raise (F.portRepeat p)
  else d

/-- A port's configuration work at a frame boundary: what waited for it. -/
def Dev.frameStart (d : Dev) (p : Nat) : Dev :=
  let d := (d.captureEnd p).portApply p
  let d := if !PCtl.memory (d.pCtl p) || (d.port p).cap.frames.isEmpty && (d.grp (p / 4)).frame % PCtl.memFrames (d.pCtl p) == 0 then
      (if (d.port p).maskIn.isSome || (d.port p).maskOut.isSome then d.maskApply p else d) else d
  (d.playStart p).repeatEntry p

/-- The input direction over one frame, sample number `num`; `live` is false for a frame that is discarded or does not arrive. A record's
CLKFAULT also shows frames that a clock fault replaces by the last good one or, at γ = 0, by zeros (R262, R265). -/
def Dev.frameIn (d : Dev) (p num : Nat) (may live : Bool) (words : List Nat) : Dev :=
  let x := d.port p
  let fade := fadeLen (d.fld (R.GRP_CTL_CTL (p / 4)))
  let on := d.dirOn p false
  let take := live && !x.inE.fall
  let e := x.inE.step fade (may && on && x.want.isNone)
  let last := if take then pinsIn d p words else x.lastIn
  let y := last.map e.apply
  let substituted := e.silent || (x.inE.fault && (x.inE.fall || e.g == 0))
  let mf := PCtl.memFrames (d.pCtl p)
  if !on && x.inE.g == 0 then d.setPort p { x with inE := e }
  else if PCtl.memory (d.pCtl p) then
    let c := x.cap
    let start := c.frames.isEmpty
    if start && (d.grp (p / 4)).frame % mf != 0 then d.setPort p { x with inE := e, lastIn := last }
    else
      let c := if start then { c with tick := d.top.tick, phase := d.phase, ts := d.ts0 } else c
      let c := { c with frames := c.frames ++ [y], faded := c.faded || decide (e.g < e.f), clkFault := c.clkFault || !live || substituted }
      d.setPort p { x with inE := e, lastIn := last, cap := c }
  else d.setPort p { x with inE := e, lastIn := last, inQ := x.inQ ++ [(num, y)] }

/-- Outside RUN outputs carry zeros; over the tick that leaves RUN a fade whose shape is not stated takes them to zero, `last` marking its
last frame (R37, R38, log 26). -/
def outGate (d : Dev) (last : Bool) (raw : List Int) : List Int :=
  if d.top.fading then raw.map (fun v => if last then 0 else divEven (v * (d.freeNat 32 % (2 ^ 24 + 1) : Nat)) (2 ^ 24))
  else if d.top.st = .run then raw
  else raw.map (fun _ => 0)

/-- The frame that comes ends its group's tick: the last of the nominal number of frames, or of one fewer for a free group, whose tick may
have one fewer. -/
def Dev.lastFrame (d : Dev) (g : Nat) : Bool :=
  let t := d.top.tick
  let n := d.gridAt (d.grpFn g) (t + 1) - d.gridAt (d.grpFn g) t
  decide (n ≤ (d.grp g).inTick + (if d.flag (R.GRP_STAT_LOCKED g) then 1 else 2))

/-- S24 data of a stream-mode output frame. A frame beyond the block comes from the ASRC channel of its slot: free while that is
LOCKED. -/
def outData (d : Dev) (p : Nat) : List Int :=
  let x := d.port p
  let raw := match x.outQ with
    | f :: _ => f
    | [] => (List.range 32).map (fun k =>
        match (smGet (fun _ => PathRun.zero) d.slp.egs (32 * p + k)).key with
        | some key => (match key.asrc with | some a => if d.asrcState a = 2 then sx 24 (d.freeNat k) else 0 | none => 0)
        | none => 0)
  outGate d (decide (x.outQ.length ≤ 1)) raw

/-- The output direction over one frame; with no clock nothing is emitted. Play records are taken in every state, and gated as streams
are. -/
def Dev.frameOut (d : Dev) (p : Nat) (may clock : Bool) : Dev :=
  let x := d.port p
  let w := d.gFmt (p / 4)
  let fade := fadeLen (d.fld (R.GRP_CTL_CTL (p / 4)))
  let on := d.dirOn p true
  let mem := PCtl.memory (d.pCtl p)
  let e := x.outE.step fade (may && on && x.want.isNone && !(mem && x.ply.missing))
  let data := if mem then outGate d (d.lastFrame (p / 4)) (match x.ply.left with | f :: _ => f | [] => x.ply.last) else outData d p
  let ply := match x.ply.left with | f :: r => { x.ply with left := r, last := f } | [] => x.ply
  let frame := (List.range (GFmt.slots w)).map (fun k =>
    if slotOn d p k true then some (slotOut (GFmt.width w) (e.apply (data.getD k 0)))
    else if PCtl.tristate (d.pCtl p) then none else some 0)
  let ply := { (if mem then ply else x.ply) with begun := false }
  let d := d.drew 33
  if !on && x.outE.g == 0 then d.setPort p { x with outE := e, outQ := x.outQ.drop 1, ply := ply, lastOut := [] }
  else d.setPort p { x with outE := e, outQ := x.outQ.drop 1, ply := ply,
                            lastOut := if x.rep || !clock then x.lastOut else frame, prevOut := if clock then x.lastOut else x.prevOut }

/-- Dns of the path of output slot OUT_SLOT for the block that starts emission (R264, R246). -/
def Dev.outDns (d : Dev) (p : Nat) : Int := d.emitDns (32 * p + d.fld (R.PORT_STAMP_SEL_OUT_SLOT p))

/-- Instant of an ASRC read point of a free group, a free value between the FSYNC edges kept, up to `last` (R264). -/
def Dev.readPoint (d : Dev) (g : Nat) (last : Option Nat) : Nat :=
  match (d.grp g).edges.getLast?, (d.grp g).edges.head? with
  | some a, some b => a.2 + d.freeNat 0 % ((last.getD b.2 + 2 ^ 32 - a.2 % 2 ^ 32) % 2 ^ 32 + 1)
  | _, _ => d.freeNat 0

/-- One frame of a group. -/
def Dev.tdmFrame (d : Dev) (g : Nat) (f : TdmFrame) : Dev :=
  if !d.awake || !d.works (grpBase g) then d
  else
    let d := (d.resync g).grpApply g
    let d := match (d.grp g).ctlWant with
      | some c => (d.setFld (R.GRP_CTL_CTL g) c).setGrp g { d.grp g with ctlWant := none }
      | none => d
    let w := d.gFmt g
    if GFmt.slots w = 0 ∨ (d.grp g).restart = true then (grpPorts g).foldl Dev.portApply d
    else
      let d := (grpPorts g).foldl Dev.frameStart d
      let ext := GFmt.clkSrc w == 2
      let fade := fadeLen (d.fld (R.GRP_CTL_CTL g))
      let st := d.fld (R.GRP_STAT_SYNC_STATE g)
      let gone := ext && f.bclks == 0
      let wrong := ext && !gone && f.bclks != GFmt.slots w * GFmt.width w
      let right := !gone && !wrong
      let sync := ext && GFmt.sync w
      -- φ0 and slips: the frame is sample num, its edge at grid point num - 1 + φ
      let x := d.grp g
      let φ : Int := ((f.point : Int) + 1 - x.num) * 4096 + (f.phase % 4096 : Nat)
      let slip := sync && !gone && !x.measure && !d.flag (R.GRP_STAT_RATE_OUT g) && decide (2048 < (φ - x.phi0).natAbs)
      let afresh := sync && !gone && (slip || x.measure)
      let d := if slip then
          ((((d.count (R.GRP_SLIP_COUNT g)).raise (F.slip g)).note (.grpSlip g)).onEnvs g (Env.startFall fade true)).setGrp g
            { d.grp g with slipping := true, slipRec := true } else d
      let d := if slip then d.declare g else d
      let num := if afresh then f.point + 1 else x.num
      let d := d.setGrp g { d.grp g with num := num + 1 }
      let d := if afresh then
          (d.setGrp g { d.grp g with phi0 := (f.phase % 4096 : Nat), measure := false }).setFld (R.GRP_PHASE_PHI0 g) f.phase else d
      -- a frame with the wrong count
      let d := if wrong then (((d.count (R.GRP_FRAME_ERR_COUNT g)).raise (F.frameErr g)).note (.grpErr g)) else d
      let d := if wrong then (grpPorts g).foldl (fun d p => d.onEnv p false (Env.startFall fade true)) d else d
      -- the directions
      let may := st == 2 && (d.grp g).want.isNone
      let d := (List.range 4).foldl (fun d i =>
        let words := (List.range (GFmt.slots w)).map (slotWord w (f.sdi.getD i 0))
        (d.frameIn (4 * g + i) num (may && right) right words).frameOut (4 * g + i) may (!gone)) d
      let d := if wrong then (grpPorts g).foldl (fun d p => d.onEnv p true (Env.startFall fade true)) d else d
      let d := if right then d.onEnvs g Env.good else d.onEnvs g (fun e => if e.wait = 0 then e else { e with wait := 2 })
      -- the group
      let d := if wrong && st == 2 then d.setFld (R.GRP_STAT_SYNC_STATE g) 1 else d
      let y := d.grp g
      let first := y.edge.isNone && !gone
      let d := d.setGrp g { y with good := if right then y.good + 1 else 0, frame := y.frame + 1,
                                   edge := if first then some d.ts0 else y.edge, inTick := y.inTick + 1,
                                   edges := if gone then y.edges else ((num, d.ts0) :: y.edges).take 1024 }
      -- the output stamp of a locked external group waits for the edge of frame 0 (R264)
      if first && ext && d.top.st == .run then
        (grpPorts g).foldl (fun d p =>
          if (portRate d p true).any (·.2) then d.setFld (R.PORT_TS_OUT_TS p) (tc 32 (d.ts0 + d.outDns p)) else d) d
      else d

/-! ## Port buffers and stamps at a boundary (R24, R28, R264) -/

/-- Block t - 2 starts emission, or the previous block again where it is not ready. -/
def Dev.emitBlock (d : Dev) (again : Bool) : Dev :=
  d.sap.ports.foldl (fun d e =>
    let x := d.port e.1
    let fr := if d.top.st = .run then (if again then x.prev else x.next) else []
    d.setPort e.1 { x with outQ := fr, prev := fr, next := [] }) d

/-- Egress samples by destination become the frames of the ports' next block. -/
def Dev.fillPorts (d : Dev) (out : List (Nat × List Int)) : Dev :=
  (List.range 32).foldl (fun d p =>
    let mine := out.filter (fun o => decide (o.1 < 0x20000) && o.1 / 32 % 32 == p)
    let n := mine.foldl (fun n o => max n o.2.length) 0
    if mine.isEmpty then d
    else d.setPort p { d.port p with next := (List.range n).map (fun j => (List.range 32).map (fun k =>
      match mine.find? (fun o => o.1 % 32 == k) with | some o => o.2.getD j 0 | none => 0)) }) d

/-- The frames of the block just taken leave the input queues. -/
def Dev.drainPorts (d : Dev) (t : Nat) : Dev :=
  d.sap.ports.foldl (fun d e =>
    let x := d.port e.1
    match portRate d e.1 false with
    | some (fn, true) =>
      let n := d.gridAt fn (t + 1) - d.gridAt fn t
      let left := if GFmt.clkSrc (d.gFmt (e.1 / 4)) = 2 then x.inQ.filter (fun q => decide (d.gridAt fn (t + 1) ≤ q.1)) else x.inQ.drop n
      d.setPort e.1 { x with inQ := left.take n }
    | _ => d.setPort e.1 { x with inQ := [] }) d

/-- Both stamps of a stream-mode port at boundary t (R264). -/
def Dev.portStamp (d : Dev) (p t : Nat) : Dev :=
  let g := p / 4
  let src := GFmt.clkSrc (d.gFmt g)
  let d := match portRate d p false with
    | none => d
    | some (fn, locked) =>
      let slot := (List.range d.nBus).find? (fun s => let w := SlpM.inW d s
        SlpM.en w && SlpM.kind w == 1 && SlpM.index w == 32 * p + d.fld (R.PORT_STAMP_SEL_IN_SLOT p))
      let corr : Int := match slot with | some s => d.dns (d.fld (R.SLP_IN_DLY_D s)) | none => 0
      let at_ : Int := if src = 0 then d.fld (R.TB_TICK_NS_NS 0)
        else if locked then
          match (d.grp g).edges.find? (fun e => e.1 == d.gridAt fn t) with | some e => e.2 | none => d.fld (R.PORT_TS_IN_TS p) + corr
        else d.readPoint g none
      (d.drew 1).setFlds [(R.PORT_TS_IN_TICK_TICK p, t % 2 ^ 31), (R.PORT_TS_IN_TICK_UNCORR p, b2n slot.isNone),
        (R.PORT_TS_IN_TS p, tc 32 (at_ - corr))]
  match portRate d p true with
  | none => d
  | some (fn, locked) =>
    let corr := d.outDns p
    let d := d.setFld (R.PORT_TS_OUT_TICK_TICK p) ((t - 2) % 2 ^ 31)
    if src = 0 then d.setFld (R.PORT_TS_OUT_TS p) (tc 32 (d.ts0 + corr))
    else if locked then d
    else (d.drew 1).setFld (R.PORT_TS_OUT_TS p) (tc 32 (d.readPoint g (some (d.ts0 + 10 ^ 9 / fn)) + corr))

/-- Stamps of every port and stream at boundary t (R264, R327). -/
def Dev.stampAll (d : Dev) (t : Nat) : Dev :=
  let d := (d.sap.ports.map Prod.fst).foldl (fun d p => d.portStamp p t) d
  let d := (listedRx (d.tab T.strRx).live).foldl (fun d o =>
    let s := o.1
    let slot := (List.range d.nBus).find? (fun q => let w := SlpM.inW d q
      SlpM.en w && SlpM.kind w == 0 && SlpM.index w == StrE.chBase o.2)
    let corr : Int := match slot with | some q => d.dns (d.fld (R.SLP_IN_DLY_D q)) | none => 0
    let at_ : Int := if rxLocked d s o.2 then
        (d.fld (R.TB_TICK_NS_NS (StrE.tb o.2)) : Int) - divAway (StrE.link o.2 * 10 ^ 9 : Nat) (StrE.fn o.2)
      else d.freeNat 0
    (d.drew 1).setFlds [(R.STR_RX_TS_TICK_TICK s, t % 2 ^ 31), (R.STR_RX_TS_TICK_UNCORR s, b2n slot.isNone), (R.STR_RX_TS_TS s, tc 32 (at_ - corr))]) d
  (listedTx (d.tab T.strTx).live).foldl (fun d o =>
    d.setFlds [(R.STR_TX_TS_TICK_TICK o.1, (t - 2) % 2 ^ 31),
      (R.STR_TX_TS_TS o.1, tc 32 (d.tbNs (StrE.tb o.2) + d.emitDns (0x20000 + 64 * o.1)))]) d

/-- Egress samples of the streams of block t join their lines (R323, R324). The AUX clock of a stream just disabled goes on, for its last
packet may span into that block (R326). -/
def Dev.fillStreams (d : Dev) (t : Nat) (out : List (Nat × List Int)) : Dev :=
  if !d.inBlock strBase then d
  else (d.str.tx.map Prod.fst).foldl (fun d x =>
    let e := d.txE x
    let v := d.tx x
    match if StrE.en e then some e else (v.cfgs.find? (fun c => !c.2.isEmpty)).map Prod.snd with
    | none => d
    | some g =>
      if v.next != t then d
      else
        let n := d.txCount g t
        let first := if StrE.aux g then v.made else d.gridAt (StrE.fn g) t
        let line := if StrE.en e then (List.range n).foldl (fun l j =>
            smSet (fun _ => []) l (first + j) ((List.range (StrE.chans e)).map (fun k =>
              match out.find? (fun o => o.1 == 0x20000 + 64 * x + k) with | some o => o.2.getD j 0 | none => 0))) v.line
          else v.line
        let kept := v.marks.take 7 ++ (v.marks.drop 7).filter (fun m => v.cfgs.any (fun c => c.1 == m.1))
        d.setTx x (if StrE.aux g then { v with line := line, made := first + n, marks := (t, first) :: kept, next := t + 1 }
          else { v with line := line, next := t + 1 })) d

/-! ## What groups and ports report (R278) -/

/-- R278: CAUSE 4 from a slip until every direction in use is back at F. A recovery shows from the next boundary on. -/
def grpHealth (d : Dev) (g : Nat) : UState × Nat :=
  if d.fld (R.GRP_STAT_SYNC_STATE g) = 3 then (.degraded, 1)
  else if d.flag (R.GRP_STAT_RATE_OUT g) then (.degraded, 3)
  else if d.last (.grpSlip g) || (d.grp g).slipRec then (.degraded, 4)
  else if d.last (.grpErr g) || (d.grp g).below || (GFmt.slots (d.gFmt g) != 0 && !d.grpBack g) then (.degraded, 2)
  else (.ok, 0)

def portHealth (d : Dev) (p : Nat) : UState × Nat :=
  if (d.port p).rep then (.degraded, 2) else if d.last (.portXrun p) then (.degraded, 1) else (.ok, 0)

/-! ## Meanings -/

/-- MASK_APPLY (R260): the frame or memory block boundary has come. -/
def execMaskApply (p : Fin 32) (s : State) := s.act (·.maskApply p.val)
/-- PORT_RESTART_APPLY (R261): the envelopes of a port's or its group's restart have reached 0. -/
def execPortRestartApply (p : Fin 32) (s : State) := s.act (fun d => ((d.grpApply (p.val / 4)).portApply p.val).refFollow)
/-- TDM_FRAME (R256). -/
def execTdmFrame (g : Fin 8) (f : TdmFrame) (s : State) := s.act (fun d => (d.tdmFrame g.val f).refFollow)
/-- GROUP_RESYNC (R271). -/
def execGroupResync (g : Fin 8) (s : State) := s.act (fun d => (d.resync g.val).refFollow)
/-- CLK_LOST (R270). -/
def execClkLost (g : Fin 8) (s : State) := s.act (fun d => (d.clkLost g.val).refFollow)
/-- RATE_CHG (R272): a window of 1,024 frames lies `dev` ppm from Fn. -/
def execRateChg (g : Fin 8) (dev : Int) (s : State) := s.act (·.ownMeasure (·.rateWindow g.val dev))
/-- GROUP_RATE_RECOVER (R272). -/
def execGroupRateRecover (g : Fin 8) (s : State) := s.act (·.ownMeasure (·.rateRecover g.val))
/-- CAPTURE_BLOCK_END (R266). -/
def execCaptureBlockEnd (p : Fin 32) (s : State) := s.act (·.captureEnd p.val)
/-- PLAY_BLOCK_START (R267). -/
def execPlayBlockStart (p : Fin 32) (s : State) := s.act (·.playStart p.val)
/-- CAP_RECORD_COPY (R268). -/
def execCapRecordCopy (p : Fin 32) (s : State) := s.act (·.capCopy p.val)
/-- PLY_RECORD_FETCH (R268). -/
def execPlyRecordFetch (p : Fin 32) (s : State) := s.act (·.plyFetch p.val)
/-- REPEAT_MODE_ENTRY (R275). -/
def execRepeatModeEntry (p : Fin 32) (s : State) := s.act (·.repeatEntry p.val)

end Sys2Proof.Machine
end

