-- ==== Sys2Proof/Machine/Pin.lean ====
section
/-! DEFINITION. The pad monitor (spec 17, R509 to R515): checks of driven pads, the open test, reversed lanes, and the status pins. -/
namespace Sys2Proof.Machine

/-- Kinds of PIN_LAST.KIND. -/
inductive PinKind where
  | shortLow | shortHigh | stuckLow | openPin | reversed
  deriving DecidableEq, Repr

def PinKind.code : PinKind → Nat
  | .shortLow => 1
  | .shortHigh => 2
  | .stuckLow => 3
  | .openPin => 4
  | .reversed => 5

/-- The pad is one that PIN checks by readback, and it is driven (R509, R510, R547). A clock output that is disabled or stopped drives its
inactive level (R368). After a loss of supply HB_OUT is at high impedance too (R537). -/
def padDriven (d : Dev) (cls idx : Nat) : Bool :=
  !d.pin.hiz.contains (64 * cls + idx) &&
  (match cls with
   | 0 => d.awake && decide (idx < 32) && d.drives idx
   | 1 => d.awake && decide (idx < 16) && GFmt.clkSrc (d.gFmt (idx / 2)) != 2 && d.drives (32 + idx / 2)
   | 2 => d.awake && decide (idx < 6) && (idx == 5 || !d.flag R.TTH_CTL_GATE_CLK || d.drives (40 + idx))
   | 3 => decide (idx < 6) && !d.boot.rstLow
   | 4 => if idx = 0 then !d.boot.dark else idx == 1
   | _ => false)

/-- PIN records a fault and acts on it (R514). A pad with a short is released where ACT says so. -/
def Dev.pinFault (d : Dev) (cls idx : Nat) (k : PinKind) : Dev :=
  let d := (d.setFlds [(R.PIN_LAST_KIND, k.code), (R.PIN_LAST_CLASS, cls), (R.PIN_LAST_INDEX, idx),
    (R.PIN_FLAGS_CLASS, setBits (d.fld R.PIN_FLAGS_CLASS) cls 1 1)]).raise F.pinFault
  if (k = .shortLow ∨ k = .shortHigh) ∧ bitAt (d.fld R.PIN_ACT_ACT) cls = true ∧ d.pin.hiz.contains (64 * cls + idx) = false then
    { d with pin := { d.pin with hiz := d.pin.hiz ++ [64 * cls + idx] } }
  else d

/-- A write of PIN_OPEN_TEST (R511). -/
def Dev.openTestGo (d : Dev) (v : Word) : Dev :=
  if d.works pinBase && bitAt v.toNat 31 && d.top.st == .setup then d.setFld R.PIN_OPEN_TEST_BUSY 1 else d

/-- Class 5 inputs (R509): BCLK and FSYNC are inputs where their group is EXTERNAL. -/
def openClass (d : Dev) (i : Nat) : Bool := i < 54 && !(decide (32 ≤ i) && decide (i < 48) && GFmt.clkSrc (d.gFmt ((i - 32) / 2)) != 2)

/-- The open test ends; `l` are the inputs that followed both pulls. -/
def Dev.openTestDone (d : Dev) (l : List Nat) : Dev :=
  if d.flag R.PIN_OPEN_TEST_BUSY then
    (l.filter (openClass d)).foldl (fun d i => d.pinFault 5 i .openPin) (d.setFld R.PIN_OPEN_TEST_BUSY 0)
  else d

/-- Clearing class flags: their released pads are driven and checked again (R514). -/
def Dev.pinFlagsClear (d : Dev) (v : Nat) : Dev :=
  let keep := fun (pad : Nat) => !(pad < 448 && bitAt v (pad / 64))
  let hiz := d.pin.hiz
  { d.setFld R.PIN_FLAGS_CLASS (d.fld R.PIN_FLAGS_CLASS &&& (127 - v % 128)) with
    pin := { hiz := hiz.filter keep, miss := smDrop (fun p => hiz.contains p && !keep p) d.pin.miss } }

/-- Block lock on inverted data only (R512): 0 ETHA, 1 ETHB, 2 and 3 the Tether lanes. -/
def Dev.laneReversed (d : Dev) (i : Nat) : Dev := if d.works pinBase then d.pinFault 6 i .reversed else d

/-- The pin-fault cause of SAFE stands (R506, R514). -/
def Dev.pinCause (d : Dev) : Bool := d.fld R.PIN_FLAGS_CLASS &&& d.fld R.PIN_ACT_SAFE != 0

/-- What PIN reports (R514). -/
def pinHealth (d : Dev) : UState × Nat :=
  match (List.range 7).find? (bitAt (d.fld R.PIN_FLAGS_CLASS)) with
  | some c => (.degraded, c + 1)
  | none => (.ok, 0)

/-! ## Status pins (R515) -/

/-- The source of a status pin by its code. -/
def statSource (d : Dev) (c : Nat) : Bool :=
  let st := fun (p : Nat) => d.fld (R.DPLL_STAT_STATE p)
  if c = 0x01 then true
  else if c = 0x02 then d.top.st == .run
  else if c = 0x03 then d.top.st == .safe
  else if c = 0x04 then d.topEvents != 0
  else if c = 0x08 ∨ c = 0x09 then st (c - 0x08) == 3
  else if c = 0x0A ∨ c = 0x0B then st (c - 0x0A) == 1
  else if c = 0x0C ∨ c = 0x0D then st (c - 0x0C) == 4
  else if c = 0x0E ∨ c = 0x0F then bitAt (d.dpllStat (c - 0x0E)).toNat 28
  else if c = 0x10 ∨ c = 0x11 then d.flag (R.DPLL_STAT_DISAGREE (c - 0x10))
  else if 0x20 ≤ c ∧ c ≤ 0x2D then d.qstate (c - 0x20) == 3
  else if 0x30 ≤ c ∧ c ≤ 0x32 then bitAt d.levelNow (c - 0x30)
  else if c = 0x33 then d.levelNow < 7
  else if c = 0x38 then d.tth.role == .active
  else if c = 0x39 then !d.tth.own.isEmpty
  else if c = 0x3A then d.fitPresent
  else false

/-- The level of STATk. -/
def statPin (d : Dev) (k : Nat) : Bool :=
  let w := (d.reg R.PIN_STAT_SEL_SRC0.addr).toNat
  bitAt w (8 * k + 7) != statSource d (bits w (8 * k) 7)

/-! ## Levels of the pads (R368, R372, R384, R544, R547) -/

/-- TICK_OUT rises at each tick boundary and stays high for 32 MEDIA cycles (R544). -/
def tickLevel (d : Dev) : Bool := d.running && decide (d.top.mediaAcc < 32 * clockCycle)

/-- HB_OUT: 10 MHz from XO_IN while the heartbeat runs, low while it is stopped (R384). Its phase is the model's. DESIGN CHOICE, log 83. -/
def hbLevel (d : Dev) : Bool := d.heartbeat && d.awake && !d.boot.rstLow && decide (d.tbu.now % 50 < 25)

/-- Level that the part drives on a pad it checks by readback, none where it does not drive it (R509, R547). `j` is the BCLK period of the
frame for SDO and FSYNC, odd where BCLK stands in its second half. OWN_OUT is open drain: it is driven low while asserted. -/
def padLevel (d : Dev) (cls idx j : Nat) : Option Bool :=
  if cls = 4 then
    (if idx = 0 then (if d.boot.dark then none else some (hbLevel d)) else if d.tth.ownOut then some false else none)
  else if !padDriven d cls idx then none
  else match cls with
    | 0 => d.sdoLevel idx (j / 2)
    | 1 => some (if idx % 2 = 0 then bclkLevel (d.gFmt (idx / 2)) (j % 2 == 1) else fsyncLevel (d.gFmt (idx / 2)) (j / 2))
    | 2 => some (if idx = 5 then tickLevel d else clockLevel d idx)
    | _ => some (if idx < 4 then statPin d idx else if idx = 4 then lockPin d else freerunPin d)

/-! ## Checks by readback (R510) -/

def Dev.setMiss (d : Dev) (pad n : Nat) : Dev := { d with pin := { d.pin with miss := smSet (fun _ => 0) d.pin.miss pad n } }

/-- One check of a pad against the level its receiver reads (R510); `j` is the place in the frame, as `padLevel` has it. A pad at high
impedance is not checked. A short is recorded when three checks in a row differ, and again at a later check while it lasts and its class
flag is clear. A released OWN_OUT that reads low is stuck (R509). -/
def Dev.padCheck (d : Dev) (cls idx j : Nat) (read : Bool) : Dev :=
  let pad := 64 * cls + idx
  if !d.works pinBase || !padDriven d cls idx then d
  else match padLevel d cls idx j with
    | none => if cls = 4 ∧ idx = 1 ∧ read = false then d.pinFault 4 1 .stuckLow else d
    | some drive =>
      if drive = read then d.setMiss pad 0
      else
        let n := min 3 (smGet (fun _ => 0) d.pin.miss pad + 1)
        let first := smGet (fun _ => 0) d.pin.miss pad < 3
        let d := d.setMiss pad n
        if n = 3 ∧ (first = true ∨ bitAt (d.fld R.PIN_FLAGS_CLASS) cls = false) then
          d.pinFault cls idx (if read then .shortHigh else .shortLow)
        else d

end Sys2Proof.Machine
end

