-- ==== Sys2Proof/Machine/Jtag.lean ====
section
/-! DEFINITION. The JTAG port (spec 20, R534): its controller and registers, the identification code, and boundary scan of the LVCMOS
balls. The port follows IEEE 1149.1, which the spec names. No row of the table clocks it (log 104). -/
namespace Sys2Proof.Machine

/-- IDCODE of the JTAG port: SIREV[3:0], 0x5140, the manufacturer and 1. -/
def jtagIdcode : Nat := Config.sirev.toNat % 16 * 2 ^ 28 + 0x5140 * 2 ^ 12 + 0xB9B

/-- The controller's next state at a rising edge of TCK, by TMS. -/
def TapState.next (s : TapState) (tms : Bool) : TapState :=
  match s, tms with
  | .reset, true => .reset
  | .reset, false => .idle
  | .idle, true => .selectDr
  | .idle, false => .idle
  | .selectDr, true => .selectIr
  | .selectDr, false => .captureDr
  | .captureDr, true => .exit1Dr
  | .captureDr, false => .shiftDr
  | .shiftDr, true => .exit1Dr
  | .shiftDr, false => .shiftDr
  | .exit1Dr, true => .updateDr
  | .exit1Dr, false => .pauseDr
  | .pauseDr, true => .exit2Dr
  | .pauseDr, false => .pauseDr
  | .exit2Dr, true => .updateDr
  | .exit2Dr, false => .shiftDr
  | .updateDr, true => .selectDr
  | .updateDr, false => .idle
  | .selectIr, true => .reset
  | .selectIr, false => .captureIr
  | .captureIr, true => .exit1Ir
  | .captureIr, false => .shiftIr
  | .shiftIr, true => .exit1Ir
  | .shiftIr, false => .shiftIr
  | .exit1Ir, true => .updateIr
  | .exit1Ir, false => .pauseIr
  | .pauseIr, true => .exit2Ir
  | .pauseIr, false => .pauseIr
  | .exit2Ir, true => .updateIr
  | .exit2Ir, false => .shiftIr
  | .updateIr, true => .selectDr
  | .updateIr, false => .idle

/-- What a boundary scan cell captures: the level the part drives on an output ball, whether it drives it, or the level at an input ball,
one of those that the board holds high. -/
def scanCapture (d : Dev) (high : List Nat) : ScanCell → Bool
  | .output cls idx => (padLevel d cls idx 0).getD false
  | .enable cls idx => (padLevel d cls idx 0).isSome
  | .input ball => high.contains ball

/-- The instruction that an instruction register of one value after another selects: all ones is BYPASS. -/
def jtagInst (ir : List Bool) : JtagInst := if ir.all id then .bypass else Config.jtagInst ir

/-- The data register that an instruction selects, as captured, bit 0 first. -/
def jtagCapture (d : Dev) (high : List Nat) : List Bool :=
  match d.jtag.inst with
  | .bypass => [false]
  | .idcode => (List.range 32).map (bitAt jtagIdcode)
  | .sample => Config.scanCells.map (scanCapture d high)
  | .extest => Config.scanCells.map (scanCapture d high)

/-- TDO: the next bit out of the register that is shifted. -/
def jtagTdo (d : Dev) : Option Bool :=
  match d.jtag.tap with
  | .shiftIr => d.jtag.ir.head?
  | .shiftDr => d.jtag.dr.head?
  | _ => none

/-- One cycle of TCK with the levels of TMS and TDI, the input balls that are high and TRST_N. In Test-Logic-Reset the instruction is
IDCODE. -/
def Dev.jtagClock (d : Dev) (tms tdi : Bool) (high : List Nat) : Dev :=
  let j := d.jtag
  let j := match j.tap with
    | .reset => { j with inst := .idcode }
    | .captureIr => { j with ir := [true, false] ++ List.replicate (Config.jtagIrLength - 2) false }
    | .shiftIr => { j with ir := j.ir.drop 1 ++ [tdi] }
    | .updateIr => { j with inst := jtagInst j.ir }
    | .captureDr => { j with dr := jtagCapture d high }
    | .shiftDr => { j with dr := j.dr.drop 1 ++ [tdi] }
    | .updateDr => match j.inst with | .sample => { j with held := j.dr } | .extest => { j with held := j.dr } | _ => j
    | _ => j
  { d with jtag := { j with tap := j.tap.next tms } }

/-- TRST_N low holds the controller in Test-Logic-Reset. -/
def Dev.jtagReset (d : Dev) : Dev := { d with jtag := .reset }

/-- The level of a checked ball at its pin: with EXTEST that of its scan cells, otherwise what the part drives. -/
def ballLevel (d : Dev) (cls idx j : Nat) : Option Bool :=
  let cell := fun (c : ScanCell) => ((Config.scanCells.findIdx? (· == c)).bind (fun i => d.jtag.held[i]?)).getD false
  if d.jtag.inst = .extest ∧ d.jtag.tap ≠ .reset then
    (if cell (.enable cls idx) then some (cell (.output cls idx)) else none)
  else padLevel d cls idx j

end Sys2Proof.Machine
end

