-- ==== Sys2Proof/Machine/Fmn.lean ====
section
/-! DEFINITION. Ferryman (spec 15): submission, delay lists, release, dispatch and the end of instances. -/
namespace Sys2Proof.Machine

/-! ## Task entries (R453) -/

namespace FTask
/-- Word `n` (2 to 7) of an instance. -/
def w (i : Inst) (n : Nat) : Nat := i.words.getD (n - 2) 0
def flowEn (i : Inst) : Bool := bitAt (w i 2) 31
def prio (i : Inst) : Nat := bits (w i 2) 28 3
def eclass (i : Inst) : Nat := bits (w i 2) 26 2
def flow (i : Inst) : Nat := bits (w i 2) 16 10
def first (i : Inst) : Nat := bits (w i 3) 24 8
/-- Return channels of the range, which ends at channel 255. -/
def count (i : Inst) : Nat := min (min (bits (w i 3) 15 9) 256) (256 - first i)
end FTask

/-- W0 and W1 as delivered. -/
def instHead (i : Inst) : List Nat :=
  [i.block % 2 ^ 32, b2n i.late * 2 ^ 31 + i.entry * 2 ^ 16 + i.block / 2 ^ 32 % 2 ^ 16]

namespace FCmd
def entry (c : Cmd) : Nat := c.u16 16
def list (c : Cmd) : Nat := c.u8 18 % 8
def due (c : Cmd) : Nat := c.u48 24
def period (c : Cmd) : Nat := c.u32 32
end FCmd

/-! ## Counters (R456) -/

def fmnSrc (d : Dev) (l : Nat) : Nat := d.fld (R.FMN_LIST_CFG_SRC l)

/-- Counter of a list with the tick counter at `t` and the stored counts `m`. -/
def listAt (d : Dev) (l t : Nat) (m : SMap Nat) : Nat :=
  match fmnSrc d l with
  | 0 => t
  | 1 => t / 16
  | _ => smGet (fun _ => 0) m l

/-- N of R460: the counter as it stood after the boundary before the command's; while the tick does not run, as it stands. -/
def listBefore (d : Dev) (l : Nat) : Nat := listAt d l (if d.running then d.top.tick - 1 else d.top.tick) d.fmn.cnt

/-- The counter after this boundary. -/
def listAfter (d : Dev) (l : Nat) : Nat := listAt d l d.top.tick d.fmn.nxt

/-- FMN_LIST_NOW. -/
def listNow (d : Dev) (l : Nat) : Nat := listAt d l d.top.tick d.fmn.cnt % 2 ^ 48

/-- A boundary begins: PPS lists add the period starts of the PPS_OUT divider, SW lists the writes of FMN_SWTICK; on a standby both advance
by the active's messages alone, and an active sends each advance (R456, R457). -/
def Dev.fmnPrepare (d : Dev) : Dev :=
  let t := d.top.tick
  let n := fun (l : Nat) =>
    if fmnSrc d l < 2 then 0
    else if d.isStandby then (d.tth.lists.filter (fun e => e.1 ≤ t && e.2.1.val == l)).foldl (fun n e => n + e.2.2) 0
    else if fmnSrc d l = 2 then d.fmn.pps else d.fmn.sw
  let m := (List.range 4).foldl (fun m l =>
    smSet (fun _ => 0) m l (if 2 ≤ fmnSrc d l then (smGet (fun _ => 0) m l + n l) % 2 ^ 48 else 0)) d.fmn.cnt
  (List.finRange 4).foldl (fun d l => if n l.val = 0 then d else d.tell (.list l (n l.val) t))
    { d with fmn := { d.fmn with nxt := m, sw := 0, pps := 0 },
             tth := { d.tth with lists := d.tth.lists.filter (fun e => !(decide (e.1 ≤ t))) } }

/-- FMN_EMIN as written before the boundary is in force from it on, on a standby that of the active (R457, R471). -/
def Dev.fmnEmin (d : Dev) : Dev := { d with fmn := { d.fmn with emin := (d.reg R.FMN_EMIN_EMIN1.addr).toNat } }

/-! ## Readiness (R455, R460 to R462) -/

/-- The entry is scheduled (R458). -/
def fmnScheduled (d : Dev) (e : Nat) : Bool := d.fmn.lists.any (fun x => x.2.entry == e) || d.fmn.ready.any (fun i => i.entry == e)

/-- An instance becomes ready: it captures W2 to W7. -/
def Dev.makeReady (d : Dev) (e : Nat) (c : Cmd) (periodic : Bool) (block : Nat) (late : Bool) : Dev :=
  let ws := (List.range 6).map (fun n => asRead T.fmnTask (2 + n) (d.live T.fmnTask (8 * e + 2 + n)))
  let i : Inst := ⟨e, ws, block % 2 ^ 48, late, c, periodic, d.tbu.now, none, 0, 0, false, false⟩
  let d := { d with fmn := { d.fmn with ready := d.fmn.ready ++ [i] } }.count R.FMN_RELEASED_COUNT
  if late then ((d.count R.FMN_LATE_COUNT).raise F.lateRelease).note .fmnSkip else d

/-- Put an entry into a delay list in the order of DUE and insertion. -/
def listInsert (x : Nat × FWait) : List (Nat × FWait) → List (Nat × FWait)
  | [] => [x]
  | y :: r =>
    if y.1 < x.1 ∨ (y.1 = x.1 ∧ (y.2.due < x.2.due ∨ (y.2.due = x.2.due ∧ y.2.order < x.2.order))) then y :: listInsert x r
    else x :: y :: r

/-- A periodic entry goes back into its list (R462): due points passed over count, and set no event; for health they are skips (R474).
DEDUCED, log 119. -/
def Dev.reinsert (d : Dev) (l : Nat) (w : FWait) : Dev :=
  let now := listAfter d l
  let k := if w.due ≤ now then (now - w.due) / w.period + 1 else 1
  let d := if 1 < k then (d.addFld R.FMN_SKIP_COUNT (k - 1)).note .fmnSkip else d
  { d with fmn := { d.fmn with lists := listInsert (l, { w with due := w.due + k * w.period }) d.fmn.lists } }

/-- RESULT of R468. -/
def fmnResult (block result core entry seq wait : Nat) : Nat :=
  ofLe (leBytes 6 block ++ leBytes 2 result ++ [core, 0] ++ leBytes 2 entry ++ leBytes 4 seq ++ leBytes 4 wait)

/-- FMN_SUBMIT at its apply boundary (R459, R460); its completion comes with its instance. A disabled FMN releases nothing, so that what
would be ready at once waits in its list, or as of list NOW, until FMN returns (R552). DEDUCED, log 116. -/
def fmnSubmit (d : Dev) (c : Cmd) (late : Bool) : Option Cpl × Dev :=
  let e := FCmd.entry c
  let l := FCmd.list c
  let p := FCmd.period c
  let fail := fun (st : Status) (n : Nat) => (some (⟨st, n, fmnResult 0 0 255 e 0 0⟩ : Cpl), d)
  if 4095 < e then fail .badTable 2
  else if 4 < l ∨ (l = 4 ∧ p ≠ 0) then fail .badTable 3
  else if fmnScheduled d e then fail .noSpace 1
  else if l < 4 ∧ 1024 ≤ (d.fmn.lists.filter (fun x => x.1 == l)).length then fail .noSpace 2
  else
    let d := d.count R.FMN_SUBMITTED_COUNT
    let a := if d.running then d.top.tick else d.top.tick + 1
    let w : FWait := ⟨FCmd.due c, d.fmn.order, e, p, c⟩
    let d := { d with fmn := { d.fmn with order := d.fmn.order + 1 } }
    if !d.works fmnBase then (none, { d with fmn := { d.fmn with lists := listInsert (l, w) d.fmn.lists } })
    else if l = 4 then (none, d.makeReady e c false (a + 2 ^ 48 - 1) late)
    else if listBefore d l < w.due then (none, { d with fmn := { d.fmn with lists := listInsert (l, w) d.fmn.lists } })
    else
      let d := d.makeReady e c (p != 0) (if fmnSrc d l = 0 then w.due + 2 ^ 48 - 1 else a + 2 ^ 48 - 1) true
      (none, if p = 0 then d else d.reinsert l w)

/-- FMN_CANCEL (R463, R464). -/
def fmnCancel (d : Dev) (c : Cmd) (late : Bool) : Cpl × Dev :=
  let e := FCmd.entry c
  if 4095 < e then (Cpl.bad 2, d)
  else if !fmnScheduled d e then (⟨.notFound, 0, 0⟩, d)
  else
    let inst := d.fmn.ready.find? (fun i => i.entry == e)
    let wait := d.fmn.lists.find? (fun x => x.2.entry == e)
    let d := { d with fmn := { d.fmn with lists := d.fmn.lists.filter (fun x => x.2.entry != e), ready := d.fmn.ready.filter (fun i => i.entry != e) } }
    let d := d.count R.FMN_CANCELLED_COUNT
    let block := match inst with | some i => i.block | none => 0
    let p : Cpl := ⟨.cancelled, 0, fmnResult block 0 255 e 0 0⟩
    let d := match inst, wait with
      | some i, _ => d.complete i.cmd p
      | none, some w => d.complete w.2.cmd p
      | none, none => d
    (⟨lateOk late, 0, 0⟩, d)

/-- An entry is due at this boundary; one of list NOW, which waits only where FMN was disabled, at once. -/
def fmnDue (d : Dev) (x : Nat × FWait) : Bool := x.1 == 4 || decide (x.2.due ≤ listAfter d x.1)

/-- Release one due entry: its instance becomes ready, unless the previous one still is; a periodic entry is reinserted. -/
def Dev.releaseOne (d : Dev) (t : Nat) (x : Nat × FWait) : Dev :=
  let l := x.1
  let w := x.2
  let late := l == 4 || decide (w.due ≤ listAt d l (t - 1) d.fmn.cnt)
  let block := if l < 4 ∧ fmnSrc d l = 0 ∧ late then w.due + 2 ^ 48 - 1 else t + 2 ^ 48 - 1
  let d := if d.fmn.ready.any (fun i => i.entry == w.entry) then ((d.count R.FMN_SKIP_COUNT).raise F.skip).note .fmnSkip
    else d.makeReady w.entry w.cmd (w.period != 0) block late
  if w.period = 0 then d else d.reinsert l w

/-- The lists advance and release their due entries (R461); a disabled FMN keeps them and counts (R552). -/
def Dev.fmnRelease (d : Dev) : Dev :=
  let t := d.top.tick
  let due := d.fmn.lists.filter (fmnDue d)
  let d := if d.works fmnBase && d.awake && d.running then
      due.foldl (fun d x => d.releaseOne t x)
        { d with fmn := { d.fmn with lists := d.fmn.lists.filter (fun x => !fmnDue d x) } }
    else d
  { d with fmn := { d.fmn with cnt := d.fmn.nxt } }

/-! ## Dispatch (R465, R466) -/

def Dev.core (d : Dev) (k : Nat) : Core := smGet (fun _ => Core.zero) d.dsp.cores k
def Dev.setCore (d : Dev) (k : Nat) (x : Core) : Dev := { d with dsp := { d.dsp with cores := smSet (fun _ => Core.zero) d.dsp.cores k x } }

/-- The instruction at PC completes: a repeat goes on, a branch takes effect after its two delay slots, a loop goes back. -/
def Core.next (x : Core) : Core :=
  let step := { x with pc := (x.pc + 8) % 2 ^ 20 }
  match x.rep with
  | some (n + 2) => { x with rep := some (n + 1) }
  | some _ => { step with rep := none }
  | none =>
    match x.slot with
    | some (t, 1) => { x with pc := t, slot := none }
    | some (t, n) => { step with slot := some (t, n - 1) }
    | none =>
      match x.loops with
      | e :: r =>
        if e.le = x.pc then
          if 1 < e.lc then { x with pc := e.ls, loops := { e with lc := e.lc - 1 } :: r } else { step with loops := r }
        else step
      | [] => step

/-- The core that waits since the earliest DSPC cycle, the lowest-numbered of equals (R466). -/
def nextCore (d : Dev) : Option Nat :=
  ((List.range 16).foldl (fun (b : Option (Nat × Nat)) k =>
    match (d.core k).st with
    | .waiting n => match b with | some (m, _) => if n < m then some (n, k) else b | none => some (n, k)
    | _ => b) none).map Prod.snd

/-- Eligible instances of a list in readiness order; `seen` are flows with an earlier undelivered instance. -/
def fmnEligible (d : Dev) (seen : List Nat) : List Inst → List Inst
  | [] => []
  | i :: r =>
    let emin := if FTask.eclass i = 0 then 0 else bits d.fmn.emin (4 * (FTask.eclass i - 1)) 3
    let ok := decide (emin ≤ d.levelNow) && (!FTask.flowEn i ||
      (!seen.contains (FTask.flow i) && !d.fmn.run.any (fun j => FTask.flowEn j && FTask.flow j == FTask.flow i)))
    let rest := fmnEligible d (if FTask.flowEn i then FTask.flow i :: seen else seen) r
    if ok then i :: rest else rest

/-- The best eligible instance: highest PRIO, then readiness order. -/
def bestInst (d : Dev) : Option Inst :=
  (fmnEligible d [] d.fmn.ready).foldl (fun b i => match b with | some j => if FTask.prio j < FTask.prio i then some i else b | none => some i) none

/-- The best instance goes to the best core: D24 to D31, TBLK, SR.LATE and the return range are loaded and TGET completes (R441, R454). -/
def Dev.taskDeliver (d : Dev) : Dev :=
  if !d.works fmnBase || !d.awake then d
  else match bestInst d, nextCore d with
    | some i, some k =>
      let seq := (d.fld R.FMN_SEQ_SEQ + 1) % 2 ^ 32
      let wait := min ((d.tbu.now - i.readyAt) * d.mediaHz / 500000000) (2 ^ 32 - 1)
      let j := { i with core := some k, seq := seq, wait := wait }
      let d := { d with fmn := { d.fmn with ready := d.fmn.ready.filter (fun x => x.entry != i.entry), run := d.fmn.run ++ [j] } }
      let d := d.setFlds [(R.FMN_SEQ_SEQ, seq), (R.CORE_TBLK_TBLK k, i.block % 2 ^ 32)]
      let x := d.core k
      let ds := (List.range 8).foldl (fun m n => smSet (fun _ => 0#32) m (24 + n) (BitVec.ofNat 32 ((instHead i ++ i.words).getD n 0))) x.d
      d.setCore k { x.next with d := ds, st := .running, task := true, late := i.late, tblk := i.block, first := FTask.first i,
                                count := FTask.count i }
    | _, _ => d

/-! ## The end of an instance (R34, R35, R467 to R469) -/

/-- Tick at which the return buffer of a block is sealed. -/
def sealAt (d : Dev) (block : Nat) : Nat := block + d.fld R.TOP_PIPE_DSP_LAG

/-- A deadline is missed: TOP_DSP_MISS counts and DSP_MISS is set; it is a maskable trip cause (R35, R406). -/
def Dev.dspMissed (d : Dev) : Dev :=
  ((d.count R.TOP_DSP_MISS_COUNT).raise F.dspMiss).tripMaskable R.TTH_CTL_DSP_MISS_TRIP

/-- The instance on core `k` ends; `result` is what TDONE passes, `none` where the core stopped or was reset. -/
def Dev.instEnd (d : Dev) (k : Nat) (result : Option Nat) : Dev :=
  match d.fmn.run.find? (fun i => i.core == some k) with
  | none => d
  | some i =>
    let d := { d with fmn := { d.fmn with run := d.fmn.run.filter (fun j => j.core != some k) } }
    if i.dead then d
    else
      let d := if result.isNone then ((d.count R.FMN_NOTDONE_COUNT).raise F.notDone).note .fmnSkip else d
      let empty := FTask.count i == 0
      let before := decide (d.top.tick < sealAt d i.block)
      let d := if result.isNone && !empty && before && !i.missed then
          { d with dsp := { d.dsp with miss := d.dsp.miss ++ [(i.block, FTask.first i, FTask.count i)] } } else d
      let d := if !empty && !before && !i.missed then d.dspMissed else d
      let (st, n) : Status × Nat := if result.isNone then (.late, 3) else if !empty && !before then (.late, 2)
        else if i.late then (.late, 1) else (.ok, 0)
      let p : Cpl := ⟨st, n, fmnResult i.block (result.getD 0) k i.entry i.seq i.wait⟩
      if i.periodic then
        let (lost, d) := d.writeSpare i.cmd p
        if lost then ((d.count R.FMN_CPL_DROP_COUNT).raise F.cplDrop).note .fmnSkip else d
      else d.complete i.cmd p

/-! ## Registers, reset, health (R470, R471, R474) -/

/-- A write of FMN_LIST_CFG. -/
def Dev.fmnListCfg (d : Dev) (l : Nat) (v : Word) : Dev :=
  if d.top.st = .setup then
    let d := d.setFld (R.FMN_LIST_CFG_SRC l) (bits v.toNat 0 2)
    { d with fmn := { d.fmn with cnt := smSet (fun _ => 0) d.fmn.cnt l 0, nxt := smSet (fun _ => 0) d.fmn.nxt l 0 } }
  else d.raise F.fmnCfgRefused

/-- A write of FMN_SWTICK. -/
def Dev.fmnSwtick (d : Dev) (v : Word) : Dev := if bitAt v.toNat 0 then { d with fmn := { d.fmn with sw := d.fmn.sw + 1 } } else d

/-- A read of FMN_LIST_NOW_LO latches the high bits. -/
def Dev.fmnNowRead (d : Dev) (l : Nat) : Nat × Dev :=
  (listNow d l % 2 ^ 32, d.setFld (R.FMN_LIST_NOW_HI_NOW_HI l) (listNow d l / 2 ^ 32))

/-- Give up a command without a completion; its reserved entry is released. -/
def Dev.forget (d : Dev) (c : Cmd) : Dev :=
  let d := d.unlink c
  { d with hre := { d.hre with outst := d.hre.outst.erase c.id } }

/-- Entry into OFF or STANDBY, and an FMN reset: nothing is scheduled; delivered instances run on, their results discarded (R470). The
counters of PPS and SW lists stay. -/
def Dev.fmnClear (d : Dev) : Dev :=
  let cs := d.fmn.lists.map (fun x => x.2.cmd) ++ d.fmn.ready.map (fun i => i.cmd) ++ d.fmn.run.map (fun i => i.cmd)
  let d := cs.foldl Dev.forget d
  { d with fmn := { d.fmn with lists := [], ready := [], run := d.fmn.run.map (fun i => { i with dead := true }), order := 0, parity := false } }

/-- An FMN reset also sets the counters of PPS and SW lists to 0 (R456), and admission follows FMN_EMIN's reset value (R471). -/
def Dev.fmnReset (d : Dev) : Dev :=
  let d := d.fmnClear
  { d with fmn := { d.fmn with cnt := [], nxt := [], sw := 0, pps := 0, emin := Fmn.reset.emin } }

/-- A parity error in list memory. -/
def Dev.fmnParity (d : Dev) : Dev :=
  if d.works fmnBase then ({ d with fmn := { d.fmn with parity := true } }.raise F.fmnParity) else d

def fmnHealth (d : Dev) : UState × Nat :=
  if d.fmn.parity then (.fault, 2) else if d.last .fmnSkip then (.degraded, 1) else (.ok, 0)

/-! ## Meanings -/

/-- FMN_RELEASE (R461): the lists advance and release what has fallen due. -/
def execFmnRelease (s : State) := s.act Dev.fmnRelease
/-- TASK_DELIVER (R466). -/
def execTaskDeliver (s : State) := s.act Dev.taskDeliver
/-- FMN_SWTICK_WRITE (R456). -/
def execFmnSwtickWrite (v : Word) (s : State) := 
  s.act (fun d => d.ifOpen fmnBase (·.fromHost R.FMN_SWTICK_TICK.addr v (·.fmnSwtick v)))
/-- FMN_LIST_CFG_WRITE (R471). -/
def execFmnListCfgWrite (l : Fin 4) (v : Word) (s : State) := s.act (fun d => d.ifOpen fmnBase (·.fmnListCfg l.val v))
/-- FMN_PARITY_ERROR (R474). -/
def execFmnParityError (s : State) := s.act Dev.fmnParity

end Sys2Proof.Machine
end

