-- ==== Sys2Proof/Machine/Dsp.lean ====
section
/-! DEFINITION. The DSP cores (spec 14): memory windows, instructions, interrupts, DMA, exceptions, start, and the seal of return
buffers. The spec gives no encodings: a command names the instruction that its core executes next, decoded. -/
namespace Sys2Proof.Machine

/-! ## Registers (R426, R427) -/

namespace Core
def dN (x : Core) (n : Nat) : Nat := (smGet (fun _ => 0#32) x.d n).toNat
def dI (x : Core) (n : Nat) : Int := sx 32 (x.dN n)
def aN (x : Core) (n : Nat) : Nat := (smGet (fun _ => 0#32) x.a n).toNat
def oI (x : Core) (n : Nat) : Int := sx 32 (smGet (fun _ => 0#32) x.o n).toNat
def lN (x : Core) (n : Nat) : Nat := (smGet (fun _ => 0#32) x.l n).toNat
def xI (x : Core) (n : Nat) : Int := smGet (fun _ => 0) x.x n
def setD (x : Core) (n : Nat) (v : Int) : Core := { x with d := smSet (fun _ => 0#32) x.d n (BitVec.ofInt 32 v) }
def setA (x : Core) (n : Nat) (v : Int) : Core := { x with a := smSet (fun _ => 0#32) x.a n (BitVec.ofInt 32 v) }
def setX (x : Core) (n : Nat) (v : Int) : Core := { x with x := smSet (fun _ => 0) x.x n v }

/-- An accumulator takes an exact result: outside 72 bits it saturates and sets OV (R428). -/
def accum (x : Core) (n : Nat) (v : Int) : Core :=
  let w := satS 72 v
  { x.setX n w with ov := x.ov || w != v }

/-- A data register takes a result saturated to 32 bits; SAT is set when that alters it (R429, R430). -/
def setSat (x : Core) (n : Nat) (v : Int) : Core :=
  let w := satS 32 v
  { x.setD n w with sat := x.sat || w != v }

/-- SR as read. -/
def sr (x : Core) : Nat :=
  b2n x.ha3 * 128 + x.loops.length % 8 * 16 + b2n x.late * 8 + b2n x.ie * 4 + b2n x.sat * 2 + b2n x.ov

/-- SR restored by RTI: HA3 and LDEPTH are not held in it. -/
def restoreSr (x : Core) (w : Nat) : Core := { x with late := bitAt w 3, ie := bitAt w 2, sat := bitAt w 1, ov := bitAt w 0 }

/-- Value of a register that a move names. LC, LS and LE are those of the top entry of the loop stack; with the stack empty the spec states
no value and `free` is read. DESIGN CHOICE, log 118. -/
def read (x : Core) (free : Nat) : CReg → Nat
  | .d n => x.dN n.val
  | .a n => x.aN n.val
  | .o n => tc 32 (x.oI n.val)
  | .l n => x.lN n.val
  | .xl n => tc 32 (x.xI n.val)
  | .xm n => tc 32 (divFloor (x.xI n.val) (2 ^ 32))
  | .xg n => tc 32 (divFloor (x.xI n.val) (2 ^ 64))
  | .lc => match x.loops with | e :: _ => e.lc | [] => free % 2 ^ 24
  | .ls => match x.loops with | e :: _ => e.ls | [] => free % 2 ^ 20
  | .le => match x.loops with | e :: _ => e.le | [] => free % 2 ^ 20
  | .ipc => x.ipc
  | .sr => x.sr
  | .isr => x.isr

/-- Replace bits of an accumulator. -/
def setPart (x : Core) (n lo w v : Nat) : Core := x.setX n (sx 72 (setBits (tc 72 (x.xI n)) lo w v))

/-- A move writes a register: in SR IE and the sticky bits, which take the value written (R6, R427); loop registers are those of the top
entry. -/
def write (x : Core) (r : CReg) (v : Nat) : Core :=
  let top := fun (f : LoopE → LoopE) => match x.loops with | e :: l => { x with loops := f e :: l } | [] => x
  match r with
  | .d n => x.setD n.val v
  | .a n => x.setA n.val v
  | .o n => { x with o := smSet (fun _ => 0#32) x.o n.val (BitVec.ofNat 32 v) }
  | .l n => { x with l := smSet (fun _ => 0#32) x.l n.val (BitVec.ofNat 32 (v % 2 ^ 20)) }
  | .xl n => x.setPart n.val 0 32 v
  | .xm n => x.setPart n.val 32 32 v
  | .xg n => x.setPart n.val 64 8 v
  | .lc => top (fun e => { e with lc := v % 2 ^ 24 })
  | .ls => top (fun e => { e with ls := v % 2 ^ 20 })
  | .le => top (fun e => { e with le := v % 2 ^ 20 })
  | .ipc => { x with ipc := v % 2 ^ 20 }
  | .sr => { x with ie := bitAt v 2, sat := bitAt v 1, ov := bitAt v 0 }
  | .isr => { x with isr := v % 2 ^ 32 }

/-! ## The program counter (R433 to R436) -/

/-- A control instruction has made the core `y` of `x`: under a REP it is executed again at its own address (R434). DEDUCED, log 127. -/
def again (x y : Core) : Core :=
  match x.rep with
  | some (n + 2) => { y with pc := x.pc, rep := some (n + 1) }
  | _ => y

/-- The `n`-th value that the core draws where its instruction's result is open: a function of what it has executed since it started, of
nothing else in the part (R422, log 13). -/
def free (x : Core) (n : Nat) : Nat := Config.coreValue (x.drawn + n)

/-- A control instruction may not stand here (R436): in a delay slot, at LE or in either of the two instructions before it. -/
def barred (x : Core) : Bool :=
  x.slot.isSome || (match x.loops with | e :: _ => e.le == x.pc || e.le == x.pc + 8 || e.le == x.pc + 16 | [] => false)

/-- After its two delay slots control passes to `t`. -/
def branch (x : Core) (t : Nat) : Core := { x with pc := (x.pc + 8) % 2 ^ 20, slot := some (t % 2 ^ 20, 2) }

end Core

/-! ## Stops (R446) -/

/-- An exception stops the core at the faulting instruction; its task ends without TDONE. -/
def Dev.coreStop (d : Dev) (k cause : Nat) : Dev :=
  let x := d.core k
  let d := (d.setFlds [(R.CORE_EXC_CAUSE k, cause), (R.CORE_EXC_PC_PC k, x.pc)]).raise (F.coreExc k)
  let d := d.setCore k { x with st := .stopped, cause := cause, task := false }
  if x.task then d.instEnd k none else d

/-! ## The address space (R423, R424, R442, R443, R447) -/

/-- A sample of a send or return buffer as a word. -/
def bufWord (d : Dev) (m : SMap (List Int)) (key off : Nat) : Nat :=
  let i := off % 0x100 / 4
  if i < d.blockB then tc 32 ((smGet (fun _ => []) m key).getD i 0) else 0

/-- The slot of block `n` holds that block's return buffer, and not that of an earlier one (R443). -/
def Dev.ownedRet (d : Dev) (n : Nat) : Bool := smGet (fun _ => 0) d.dsp.owner (n % 16) == n + 1

/-- DSPC cycles since the last boundary. -/
def dspCycles (d : Dev) : Nat := d.tbu.since * d.fld R.DSP_FREQ_MHZ / 500

/-- A register of the control space. -/
def ctlRead (d : Dev) (k o : Nat) : Nat :=
  let x := d.core k
  if o = 0x00 then x.tblk % 2 ^ 32
  else if o = 0x04 then x.tblk / 2 ^ 32
  else if o = 0x08 then d.top.tick % 2 ^ 32
  else if o = 0x0C then dspCycles d % 2 ^ 32
  else if o = 0x24 then x.q.length
  else if o = 0x30 then d.fld (R.CORE_MBOX_MBOX k)
  else (smGet (fun _ => 0#32) x.ctl o).toNat

/-- A word at a local address; one that a transfer from DRAM is writing is old or new (R445). -/
def Dev.localWord (d : Dev) (k ea : Nat) : Nat × Dev :=
  let old := memLe d.localMem (k * 0x80000 + ea) 4
  match (d.core k).q with
  | t :: _ =>
    if !t.toDram && decide (t.loc ≤ ea) && decide (ea < t.loc + t.len) then
      (if d.freeNat 0 % 2 = 0 then old else memLe d.dram (t.ext + (ea - t.loc)) 4, d.drew 1)
    else (old, d)
  | [] => (old, d)

/-- A current-send read of a block that has left its slot (R442). -/
def staleRead (d : Dev) (k ea : Nat) : Bool :=
  decide (0x11000000 ≤ ea) && decide (ea < 0x11010000) && decide ((d.core k).tblk + 16 ≤ d.top.tick)

/-- A word at an address; `none` raises ACCESS. -/
def Dev.coreRead (d : Dev) (k ea : Nat) : Option Nat × Dev :=
  let x := d.core k
  if ea < 0x80000 then let (v, d) := d.localWord k ea; (some v, d)
  else if 0x10000000 ≤ ea ∧ ea < 0x10200000 then
    let o := ea % 0x100000
    (some (bufWord d (if ea < 0x10100000 then d.dsp.send else d.dsp.ret) (o / 0x100 % 16 * 256 + o / 0x1000) o), d)
  else if 0x11000000 ≤ ea ∧ ea < 0x11010000 then
    (some (if staleRead d k ea then 0 else bufWord d d.dsp.send (x.tblk % 16 * 256 + ea % 0x10000 / 0x100) ea), d)
  else if 0x11010000 ≤ ea ∧ ea < 0x11020000 then
    (some (if d.ownedRet x.tblk then bufWord d d.dsp.ret (x.tblk % 16 * 256 + ea % 0x10000 / 0x100) ea else 0), d)
  else if 0x20000000 ≤ ea ∧ ea < 0x20000100 then (some (ctlRead d k (ea % 0x100)), d)
  else (none, d)

/-- An address that a store may name. -/
def storable (ea : Nat) : Bool :=
  ea < 0x80000 || (0x11010000 ≤ ea && ea < 0x11020000) || (0x20000000 ≤ ea && ea < 0x20000100)

/-- A store to the current-return window that is performed: in the task's return range, before the seal (R443). -/
def returnTakes (d : Dev) (k ea : Nat) : Bool :=
  let x := d.core k
  let r := ea % 0x10000 / 0x100
  x.task && decide (x.first ≤ r) && decide (r < x.first + x.count) && decide (d.top.tick < sealAt d x.tblk)

/-- A word into the current-return window. -/
def Dev.returnStore (d : Dev) (k ea v : Nat) : Dev :=
  let x := d.core k
  let r := ea % 0x10000 / 0x100
  let i := ea % 0x100 / 4
  if i < d.blockB && returnTakes d k ea then
    let s := x.tblk % 16
    let key := s * 256 + r
    let ret := if d.ownedRet x.tblk then d.dsp.ret else smDrop (fun k => k / 256 == s) d.dsp.ret
    let l := smGet (fun _ => []) ret key
    let l := (List.range d.blockB).map (fun j => if j = i then sx 32 v else l.getD j 0)
    { d with dsp := { d.dsp with ret := smSet (fun _ => []) ret key l, owner := smSet (fun _ => 0) d.dsp.owner s (x.tblk + 1) } }
  else d

/-- A load, of one word or two, that reads a stale send block counts once (R442). -/
def Dev.loadCounts (d : Dev) (k ea : Nat) : Dev :=
  if staleRead d k ea then ((d.count (R.CORE_STALE_COUNT k)).raise (F.stale k)).note (.coreSoiled k) else d

/-- A store, of one word or two, to the current-return window that is discarded counts once (R443); one beyond the block is ignored (R423). -/
def Dev.storeCounts (d : Dev) (k ea : Nat) : Dev :=
  if 0x11010000 ≤ ea ∧ ea < 0x11020000 ∧ ea % 0x100 / 4 < d.blockB ∧ returnTakes d k ea = false then
    ((d.count (R.CORE_RET_DROP_COUNT k)).raise (F.retDrop k)).note (.coreSoiled k)
  else d

/-- A write of DMA_CMD queues the transfer that DMA_LOC, DMA_EXT and DMA_LEN describe; there is a place (R445). -/
def Dev.dmaQueue (d : Dev) (k v : Nat) : Dev :=
  let x := d.core k
  let c := fun o => (smGet (fun _ => 0#32) x.ctl o).toNat
  d.setCore k { x with q := x.q ++ [⟨c 0x10, c 0x18 * 2 ^ 32 + c 0x14, c 0x1C, bitAt v 1, bitAt v 0⟩] }

/-- A word into the control space; read-only registers keep their value. -/
def Dev.ctlWrite (d : Dev) (k o v : Nat) : Dev :=
  let x := d.core k
  let put := fun (d : Dev) (w : Nat) => d.setCore k { x with ctl := smSet (fun _ => 0#32) x.ctl o (BitVec.ofNat 32 w) }
  if o = 0x10 then put d (v % 2 ^ 19)
  else if o = 0x14 then put d v
  else if o = 0x18 then put d (v % 4)
  else if o = 0x1C then put d (v % 2 ^ 17)
  else if o = 0x20 then d.dmaQueue k v
  else if o = 0x28 then put d (v % 8)
  else if o = 0x2C then put d ((smGet (fun _ => 0#32) x.ctl o).toNat &&& (7 - v % 8))
  else if o = 0x34 then (put (d.setFld (R.CORE_MSG_MSG k) v) v).raise (F.coreMsg k)
  else d

/-- A word to a storable address. -/
def Dev.coreWrite (d : Dev) (k ea v : Nat) : Dev :=
  if ea < 0x80000 then { d with localMem := memWrite d.localMem (k * 0x80000 + ea) (leBytes 4 v) }
  else if ea < 0x20000000 then d.returnStore k ea v
  else d.ctlWrite k (ea % 0x100) v

/-! ## Memory operations of an instruction (R426, R431, R432) -/

/-- Ak ⊕ x. -/
def ringAdd (a l : Nat) (x : Int) : Int :=
  if l = 0 then a + x
  else
    let c := if l = 1 then 0 else (l - 1).log2 + 1
    let b := a - a % 2 ^ c
    b + ((a - b : Nat) + x) % l

/-- Effective address and the new value of Ak, if the mode writes it. -/
def effective (x : Core) (m : MemOp) : Nat × Option Int :=
  let a := x.aN m.a.val
  let l := x.lN m.a.val
  match m.mode with
  | .plain => (a, none)
  | .imm n => (tc 32 (a + 4 * n), none)
  | .off j => (tc 32 (a + x.oI j.val), none)
  | .postOff j => (a, some (ringAdd a l (x.oI j.val)))
  | .postImm n => (a, some (ringAdd a l (4 * n)))

/-- An immediate lies in its range. -/
def modeOk (m : MemOp) : Bool :=
  match m.mode with
  | .imm n | .postImm n => decide (-512 ≤ n) && decide (n ≤ 511)
  | _ => true

/-- The operations can stand in one instruction: at most two, at most one store, pairs even. -/
def opsOk (ops : List MemOp) : Bool :=
  decide (ops.length ≤ 2) && decide ((ops.filter (fun m => m.store)).length ≤ 1) && ops.all (fun m => modeOk m && (!m.wide || m.reg.val % 2 == 0))

/-- Exception of an operation: misalignment, or an address it may not access. -/
def opFault (d : Dev) (k : Nat) (x : Core) (m : MemOp) : Option Nat :=
  let ea := (effective x m).1
  if ea % (if m.wide then 8 else 4) ≠ 0 then some 4
  else if (if m.store then storable ea else (d.coreRead k ea).1.isSome) then none else some 5

/-- A store to DMA_CMD finds the queue full. -/
def opStalls (x : Core) (m : MemOp) : Bool :=
  let ea := (effective x m).1
  m.store && (ea == 0x20000020) && decide (8 ≤ x.q.length)

/-- Data registers that a load writes. -/
def opDests (m : MemOp) : List Nat := if m.store then [] else if m.wide then [m.reg.val, m.reg.val + 1] else [m.reg.val]

/-- Loads of one operation, addressed by the registers `x0` that the instruction read; a pair takes the lower word first. -/
def Dev.opLoad (d : Dev) (k : Nat) (x0 : Core) (m : MemOp) : Dev :=
  if m.store then d
  else
    let ea := (effective x0 m).1
    let (v, d) := (d.loadCounts k ea).coreRead k ea
    let d := d.setCore k ((d.core k).setD m.reg.val (v.getD 0))
    if m.wide then
      let (w, d) := d.coreRead k (ea + 4)
      d.setCore k ((d.core k).setD (m.reg.val + 1) (w.getD 0))
    else d

/-- The store of one operation, of the values that `x0` held. -/
def Dev.opStore (d : Dev) (k : Nat) (x0 : Core) (m : MemOp) : Dev :=
  if m.store then
    let ea := (effective x0 m).1
    let d := (d.storeCounts k ea).coreWrite k ea (x0.dN m.reg.val)
    if m.wide then d.coreWrite k (ea + 4) (x0.dN (m.reg.val + 1)) else d
  else d

/-- Post-modification of the address register. -/
def Dev.opModify (d : Dev) (k : Nat) (x0 : Core) (m : MemOp) : Dev :=
  match (effective x0 m).2 with
  | some v => d.setCore k ((d.core k).setA m.a.val v)
  | none => d

/-- Registers written twice by one instruction: the spec does not say by which (log 31). -/
def doubled : List Nat → List Nat
  | [] => []
  | n :: r => if r.contains n then n :: doubled r else doubled r

/-! ## Issue -/

/-- The core is to execute an instruction: it works, runs, and the device state lets it (R449). -/
def coreGoes (d : Dev) (k : Nat) : Bool := d.works (coreBase k) && d.awake && (d.core k).st == .running

/-- The core executes its next instruction, which it fetches from local memory (R423). -/
def coreRuns (d : Dev) (k : Nat) : Bool := coreGoes d k && decide ((d.core k).pc < 0x80000)

/-- A fetch from outside local memory raises ACCESS (R423). -/
def Dev.coreFetch (d : Dev) (k : Nat) : Dev := if coreGoes d k && !coreRuns d k then d.coreStop k 5 else d

/-- One instruction: `ctl` marks those that R436 bars from some places, `ok` an encoding that exists, `dst` the data registers it
writes; `f` is its operation on the registers it read, given a value from the core's own stream (R422). Operands are read before any
result is written. The flag says that the instruction was executed. -/
def Dev.issueGo (d : Dev) (k : Nat) (ctl ok : Bool) (dst : List Nat) (ops : List MemOp) (f : Nat → Core → Core) : Bool × Dev :=
  if !coreRuns d k then (false, d.coreFetch k)
  else
    let x0 := d.core k
    if !ok || !opsOk ops || (ctl && x0.barred) then (false, d.coreStop k 1)
    else match ops.findSome? (fun m => opFault d k x0 m) with
      | some c => (false, d.coreStop k c)
      | none =>
        if ops.any (fun m => opStalls x0 m) then (false, d.setCore k { x0 with st := .stalled })
        else
          let twice := doubled (dst ++ ops.flatMap opDests)
          let twiceA := doubled ((ops.filter (fun m => (effective x0 m).2.isSome)).map (fun m => m.a.val))
          let d := d.setCore k { f (x0.free 0) x0 with drawn := x0.drawn + 49 }
          let d := ops.foldl (fun d m => d.opLoad k x0 m) d
          let d := ops.foldl (fun d m => d.opModify k x0 m) d
          let x := twice.foldl (fun x n => x.setD n (x0.free (1 + n))) (d.core k)
          let x := twiceA.foldl (fun x n => x.setA n (x0.free (33 + n))) x
          let d := if twice.isEmpty && twiceA.isEmpty then d else d.setCore k x
          (true, ops.foldl (fun d m => d.opStore k x0 m) d)

/-- One instruction, as `issueGo` has it. -/
def Dev.issue (d : Dev) (k : Nat) (ctl ok : Bool) (dst : List Nat) (ops : List MemOp) (f : Nat → Core → Core) : Dev :=
  (d.issueGo k ctl ok dst ops f).2

/-- A plain instruction. -/
def Dev.plain (d : Dev) (k : Nat) (ok : Bool) (dst : List Nat) (ops : List MemOp) (f : Nat → Core → Core) : Dev :=
  d.issue k false ok dst ops (fun n x => (f n x).next)

/-- A control instruction (R436): `f` has REP's count out of its way, which then goes on (R434). -/
def Dev.control (d : Dev) (k : Nat) (ok : Bool) (ops : List MemOp) (f : Nat → Core → Core) : Dev :=
  d.issue k true ok [] ops (fun n x => x.again (f n { x with rep := none }))

/-- Redundant sign bits of a `w`-bit value. -/
def signBits (w : Nat) (v : Int) : Nat :=
  let n := if v < 0 then (-v - 1).toNat else v.toNat
  w - 1 - bitLen n

/-- Result of a two-operand instruction; what R430 does not state is free (log 32). -/
def aluValue (fn : AluFn) (free : Nat) (s t : Nat) : Int :=
  let a := sx 32 s
  let b := sx 32 t
  match fn with
  | .add => a + b
  | .sub => a - b
  | .addS => satS 32 (a + b)
  | .subS => satS 32 (a - b)
  | .cmp => free
  | .min => min a b
  | .max => max a b
  | .band => (s &&& t : Nat)
  | .bor => (s ||| t : Nat)
  | .bxor => (s ^^^ t : Nat)
  | .lsl => if t < 32 then (s * 2 ^ t : Nat) else free
  | .lsr => if t < 32 then (s / 2 ^ t : Nat) else free
  | .asr => if t < 32 then divFloor a (2 ^ t) else free

/-- A saturating instruction's unsaturated result. -/
def aluExact (fn : AluFn) (s t : Nat) : Option Int :=
  match fn with
  | .addS => some (sx 32 s + sx 32 t)
  | .subS => some (sx 32 s - sx 32 t)
  | _ => none

def aluDest : AluOp → List Nat
  | .bin _ d _ _ => [d.val]
  | .bnot d _ => [d.val]
  | .mov (.d n) _ => [n.val]
  | .mov _ _ => []

def aluApply (op : AluOp) (free : Nat) (x : Core) : Core :=
  match op with
  | .bin f d s t =>
    match aluExact f (x.dN s.val) (x.dN t.val) with
    | some v => x.setSat d.val v
    | none => x.setD d.val (aluValue f free (x.dN s.val) (x.dN t.val))
  | .bnot d s => x.setD d.val (2 ^ 32 - 1 - (x.dN s.val : Int))
  | .mov r s => x.write r (x.read free s)

/-- Shift by a signed amount (R430 ASH). -/
def ashValue (v n : Int) : Int := if 0 ≤ n then v * 2 ^ (min n.toNat 64) else divEven v (2 ^ (min n.natAbs 64))

/-- Value of a count: 24 bits or 16 of a register, or an immediate. -/
def countOf (x : Core) (w : Nat) : Count → Nat
  | .reg n => x.dN n.val % 2 ^ w
  | .imm n => n

def countOk (w : Nat) : Count → Bool
  | .reg _ => true
  | .imm n => decide (n < 2 ^ w)

/-- LOOP (R433). -/
def Dev.coreLoop (d : Dev) (k : Nat) (c : Count) (stop : Nat) (ops : List MemOp) : Dev :=
  let x := d.core k
  let n := countOf x 24 c
  if coreRuns d k && !x.barred && n != 0 && x.loops.length == 4 && countOk 12 c then d.coreStop k 2
  else d.control k (countOk 12 c) ops (fun _ x =>
    if n = 0 then { x with pc := (stop + 8) % 2 ^ 20 }
    else { x with pc := (x.pc + 8) % 2 ^ 20, loops := ⟨n, (x.pc + 8) % 2 ^ 20, stop % 2 ^ 20⟩ :: x.loops })

/-- LPOP (R433). -/
def Dev.coreLpop (d : Dev) (k c s e : Nat) (ops : List MemOp) : Dev :=
  let x := d.core k
  if coreRuns d k && !x.barred && x.loops.isEmpty then d.coreStop k 3
  else d.issue k true true [c, s, e] ops (fun _ x =>
    match x.loops with
    | l :: r => x.again { ((x.setD c l.lc).setD s l.ls).setD e l.le with loops := r, pc := (x.pc + 8) % 2 ^ 20, rep := none }
    | [] => x)

/-- LPUSH (R433). -/
def Dev.coreLpush (d : Dev) (k c s e : Nat) (ops : List MemOp) : Dev :=
  let x := d.core k
  if coreRuns d k && !x.barred && x.loops.length == 4 then d.coreStop k 2
  else d.control k true ops (fun _ x =>
    { x with pc := (x.pc + 8) % 2 ^ 20, loops := ⟨x.dN c % 2 ^ 24, x.dN s % 2 ^ 20, x.dN e % 2 ^ 20⟩ :: x.loops })

/-- REP (R434). -/
def Dev.coreRep (d : Dev) (k : Nat) (c : Count) (ops : List MemOp) : Dev :=
  d.control k (countOk 16 c) ops (fun _ x =>
    let n := countOf x 16 c
    if n = 0 then { x with pc := (x.pc + 16) % 2 ^ 20 } else { x with pc := (x.pc + 8) % 2 ^ 20, rep := some n })

/-- RTI (R437). -/
def Dev.coreRti (d : Dev) (k : Nat) (ops : List MemOp) : Dev :=
  d.control k true ops (fun _ x => { x.restoreSr x.isr with pc := x.ipc })

/-- TGET (R440, R441): the core waits until Ferryman delivers, from this DSPC cycle on (R466). -/
def Dev.coreTget (d : Dev) (k : Nat) (ops : List MemOp) : Dev :=
  let x := d.core k
  if coreRuns d k && !x.barred && x.task then d.coreStop k 7
  else d.issue k true true [] ops (fun _ x => { x with st := .waiting (d.dsp.clock / 500) })

/-- TDONE (R440, R444). -/
def Dev.coreTdone (d : Dev) (k s : Nat) (ops : List MemOp) : Dev :=
  let x := d.core k
  if coreRuns d k && !x.barred && !x.task then d.coreStop k 7
  else
    let res := x.dN s % 2 ^ 16
    let (ran, d) := d.issueGo k true true [] ops (fun _ x => x.next)
    if ran then ((d.setCore k { d.core k with task := false }).count (R.CORE_TDONE_COUNT k)).instEnd k (some res) else d

/-- DWAIT (R445). -/
def Dev.coreDwait (d : Dev) (k n : Nat) (ops : List MemOp) : Dev :=
  d.issue k false true [] ops (fun _ x => if x.q.length ≤ n then x.next else { x with st := .dwait n })

/-- Beside a store to the control space one more memory operation fits, which does not store (R426). -/
def besideStore (ops : List MemOp) : Bool := decide (ops.length ≤ 1) && ops.all (fun m => !m.store)

/-- DMA_CMD (R445): a store of the value `v` to DMA_CMD. -/
def Dev.coreDmaCmd (d : Dev) (k v : Nat) (ops : List MemOp) : Dev :=
  if coreRuns d k && besideStore ops && decide (8 ≤ (d.core k).q.length) then d.setCore k { d.core k with st := .stalled }
  else
    let (ran, d) := d.issueGo k false (besideStore ops) [] ops (fun _ x => x.next)
    if ran then d.dmaQueue k v else d

/-- MSG (R447). -/
def Dev.coreMsg (d : Dev) (k v : Nat) (ops : List MemOp) : Dev :=
  let (ran, d) := d.issueGo k false (besideStore ops) [] ops (fun _ x => x.next)
  if ran then d.ctlWrite k 0x34 v else d

/-! ## Interrupts (R437 to R439) -/

/-- Sources pending and enabled. -/
def intReady (x : Core) : Nat := (smGet (fun _ => 0#32) x.ctl 0x28).toNat &&& (smGet (fun _ => 0#32) x.ctl 0x2C).toNat

/-- Set a pending source. -/
def Dev.intPend (d : Dev) (k i : Nat) : Dev :=
  let x := d.core k
  d.setCore k { x with ctl := smSet (fun _ => 0#32) x.ctl 0x2C (BitVec.ofNat 32 ((smGet (fun _ => 0#32) x.ctl 0x2C).toNat ||| 2 ^ i)) }

/-- The core takes a pending interrupt, if R438 lets it. -/
def Dev.coreInterrupt (d : Dev) (k : Nat) : Dev :=
  let x := d.core k
  let waits := match x.st with | .running => true | .waiting _ => true | .dwait _ => true | _ => false
  let n := intReady x
  if d.works (coreBase k) && d.awake && waits && n != 0 && x.ie && x.slot.isNone && x.rep.isNone && (x.ha3 || x.loops.isEmpty) then
    let i := if bitAt n 0 then 0 else if bitAt n 1 then 1 else 2
    match (d.coreRead k (x.vectors + 4 * i)).1 with
    | some v => d.setCore k { x with st := .running, ipc := x.pc, isr := x.sr, ie := false, pc := v % 2 ^ 20 }
    | none => d.coreStop k 5
  else d

/-! ## DMA (R445) -/

/-- The oldest transfer of a core ends; `err`: the fabric reports an error. A transfer that DMA_LOC, DMA_EXT or DMA_LEN describe
against R447 brings free data (log 33). During a full mirror the standby gets what goes into a persistent region (R450). -/
def Dev.dmaDone (d : Dev) (k : Nat) (err : Bool) : Dev :=
  let x := d.core k
  match x.q with
  | [] => d
  | t :: r =>
    if d.heldInReset (coreBase k) then d
    else
      let d := d.setCore k { x with q := r }
      let d := if err then (d.fabLog .slverr t.toDram (Master.quad (k / 4)).index (d.freeNat 0 % 256) t.ext).drew 1 else d
      if err || decide (0x80000 < t.loc + t.len) then d.coreStop k 6
      else
        let odd := t.loc % 4 != 0 || t.ext % 4 != 0 || t.len % 4 != 0 || t.len == 0 || decide (65536 < t.len)
        let free := (List.range t.len).map (fun i => d.freeNat i % 256)
        let (ok, d) :=
          if t.toDram then
            let l := if odd then free else memRead d.localMem (k * 0x80000 + t.loc) t.len
            let (ok, d) := d.dramWrite (.quad (k / 4)) t.ext l
            (ok, if ok then d.tellPersist t.ext l else d)
          else
            let (got, d) := d.dramRead (.quad (k / 4)) t.ext t.len
            match got with
            | some l => (true, { d with localMem := memWrite d.localMem (k * 0x80000 + t.loc) (if odd then free else l) })
            | none => (false, d)
        let d := if odd then d.drew t.len else d
        if !ok then d.coreStop k 6
        else
          let d := if t.irq then d.intPend k 1 else d
          let y := d.core k
          match y.st with
          | .stalled => d.setCore k { y with st := .running }
          | .dwait n => if y.q.length ≤ n then d.setCore k { y with st := .running }.next else d
          | _ => d

/-! ## Start, stop, mailbox (R425, R446, R448, R449, R451) -/

/-- A core starts: it reads its image header. -/
def Dev.coreStart (d : Dev) (k : Nat) : Dev :=
  if (d.core k).st = .held ∧ d.works (coreBase k) = true ∧ d.awake = true then
    let w := fun n => memLe d.localMem (k * 0x80000 + 4 * n) 4
    if w 0 ≠ 0x51400D5C then ((d.setCore k { Core.zero with st := .running }).coreStop k 0x10).raise (F.bootErr k)
    else d.setCore k { Core.zero.setA 15 (w 4) with st := .running, ha3 := bitAt (w 1) 0, pc := w 2 % 2 ^ 20, vectors := w 3 }
  else d

/-- A core is held or disabled: it stops and its task ends without TDONE. -/
def Dev.coreHold (d : Dev) (k : Nat) : Dev :=
  let x := d.core k
  if x.st = .held then d
  else
    let d := d.setCore k Core.zero
    if x.task then d.instEnd k none else d

/-- Cores that no longer work stop (R449, R467). One that an exception has stopped stays so, enabled or not, until a reset or HOLD (R446). -/
def Dev.coresRefresh (d : Dev) : Dev :=
  (List.range 16).foldl (fun d k =>
    if d.awake && (d.works (coreBase k) || !d.heldInReset (coreBase k) && (d.core k).st == .stopped) then d else d.coreHold k) d

/-- A host write of CORE_MBOX. -/
def Dev.coreMbox (d : Dev) (k : Nat) (v : Word) : Dev := (d.setFld (R.CORE_MBOX_MBOX k) v.toNat).intPend k 2

/-! ## The boundary (R34, R35, R442, R443) -/

/-- Every range of block `n` whose deadline is missed at its seal, with the instances that miss it marked. -/
def Dev.missedRanges (d : Dev) (n : Nat) : List (Nat × Nat) × Dev :=
  let hit := fun (i : Inst) => i.block == n && !i.missed && !i.dead && FTask.count i != 0
  let r1 := (d.dsp.miss.filter (fun m => m.1 == n)).map (fun m => m.2)
  let r2 := ((d.fmn.ready ++ d.fmn.run).filter hit).map (fun i => (FTask.first i, FTask.count i))
  let mark := fun (l : List Inst) => l.map (fun i => if hit i then { i with missed := true } else i)
  (r1 ++ r2, { d with dsp := { d.dsp with miss := d.dsp.miss.filter (fun m => n < m.1) },
                      fmn := { d.fmn with ready := mark d.fmn.ready, run := mark d.fmn.run } })

/-- The return buffer sealed last is cleared at the boundary that follows (R443). -/
def Dev.dspClear (d : Dev) : Dev :=
  match d.dsp.last with
  | some n =>
    let own := d.ownedRet n
    { d with dsp := { d.dsp with last := none, ret := if own then smDrop (fun key => key / 256 == n % 16) d.dsp.ret else d.dsp.ret } }
  | none => d

/-- The return buffer of block `n` is sealed and becomes the DSP return block (R34, R35); a slot that holds another block's words has none
for it. -/
def Dev.dspSeal (d : Dev) (n : Nat) : Dev :=
  let own := d.ownedRet n
  let (miss, d) := d.missedRanges n
  let rep := d.flag R.TOP_PIPE_DSP_MISS
  let src := (List.range 256).foldl (fun m r =>
    let bad := miss.any (fun x => x.1 ≤ r && r < x.1 + x.2)
    let l := if bad then (if rep then smGet (fun _ => []) d.dsp.src r else []) else if own then smGet (fun _ => []) d.dsp.ret (n % 16 * 256 + r) else []
    smSet (fun _ => []) m r l) []
  miss.foldl (fun d _ => d.dspMissed) { d with dsp := { d.dsp with last := some n, src := src } }

/-- Boundary `t`: block t - K is sealed, and with a counter below K there is no return block. TICK pends on every core that has started. -/
def Dev.dspBoundary (d : Dev) (t : Nat) : Dev :=
  let k := d.fld R.TOP_PIPE_DSP_LAG
  let d := d.dspClear
  let d := if t < k then { d with dsp := { d.dsp with src := [] } } else d.dspSeal (t - k)
  (List.range 16).foldl (fun d c => if (d.core c).st = .held then d else d.intPend c 0) d

/-- CORE_BUSY of the interval that ends, at a boundary or a service instant (R451, R551): a value that the spec does not fix further (log
34); a held core has spent none. -/
def Dev.coresBusy (d : Dev) : Dev :=
  (List.range 16).foldl (fun d c =>
    if (d.core c).st = .held then d.setFld (R.CORE_BUSY_CYC c) 0 else (d.setFld (R.CORE_BUSY_CYC c) (d.freeNat 0 % 2 ^ 24)).drew 1) d

/-- Send block `t` by channel enters its slot (R442). -/
def Dev.storeSends (d : Dev) (t : Nat) (l : List (List Int)) : Dev :=
  { d with dsp := { d.dsp with send := (List.range 256).foldl (fun m c =>
      smSet (fun _ => []) m (t % 16 * 256 + c) (l.getD c [])) d.dsp.send } }

/-- CORE_STAT as read. -/
def coreStat (d : Dev) (k : Nat) : Nat :=
  let x := d.core k
  let st := match x.st with | .held => 0 | .running => 1 | .waiting _ => 2 | .dwait _ => 1 | .stalled => 1 | .stopped => 3
  st * 2 ^ 30 + b2n x.task * 2 ^ 29 + b2n x.ha3 * 2 ^ 28 + x.loops.length % 8 * 2 ^ 25

def coreHealth (d : Dev) (k : Nat) : UState × Nat :=
  if (d.core k).st = .stopped then (.fault, (d.core k).cause) else if d.last (.coreSoiled k) then (.degraded, 0x20) else (.ok, 0)

/-! ## Meanings -/

/-- CORE_START (R449). -/
def execCoreStart (k : Fin 16) (s : State) := s.act (·.coreStart k.val)
/-- CORE_MBOX_WRITE (R451). -/
def execCoreMboxWrite (k : Fin 16) (v : Word) (s : State) := s.act (fun d => d.ifOpen (coreBase k.val) (·.coreMbox k.val v))
/-- INTERRUPT (R437). -/
def execInterrupt (k : Fin 16) (s : State) := s.act (·.coreInterrupt k.val)
/-- MPY (R428). -/
def execMpy (k : Fin 16) (x : Fin 4) (a b : Fin 32) (ops : List MemOp) (s : State) :=
  s.act (·.plain k.val true [] ops (fun _ c => c.accum x.val (c.dI a.val * c.dI b.val)))
/-- MAC (R428). -/
def execMac (k : Fin 16) (x : Fin 4) (a b : Fin 32) (ops : List MemOp) (s : State) :=
  s.act (·.plain k.val true [] ops (fun _ c => c.accum x.val (c.xI x.val + c.dI a.val * c.dI b.val)))
/-- MSU (R428). -/
def execMsu (k : Fin 16) (x : Fin 4) (a b : Fin 32) (ops : List MemOp) (s : State) :=
  s.act (·.plain k.val true [] ops (fun _ c => c.accum x.val (c.xI x.val - c.dI a.val * c.dI b.val)))
/-- MAC2 (R428). -/
def execMac2 (k : Fin 16) (x : Fin 4) (a b e f : Fin 32) (ops : List MemOp) (s : State) :=
  s.act (·.plain k.val true [] ops (fun _ c => c.accum x.val (c.xI x.val + c.dI a.val * c.dI b.val + c.dI e.val * c.dI f.val)))
/-- PMAC (R428): the two accumulators differ. -/
def execPmac (k : Fin 16) (x y : Fin 4) (a b e f : Fin 32) (ops : List MemOp) (s : State) :=
  s.act (·.plain k.val (x != y) [] ops (fun _ c =>
    (c.accum x.val (c.xI x.val + c.dI a.val * c.dI b.val)).accum y.val (c.xI y.val + c.dI e.val * c.dI f.val)))
/-- CLR (R428). -/
def execClr (k : Fin 16) (x : Fin 4) (ops : List MemOp) (s : State) := s.act (·.plain k.val true [] ops (fun _ c => c.setX x.val 0))
/-- EXT (R429). -/
def execExt (k : Fin 16) (t : Fin 32) (x : Fin 4) (sh : Fin 64) (ops : List MemOp) (s : State) :=
  s.act (·.plain k.val true [t.val] ops (fun _ c => c.setSat t.val (divEven (c.xI x.val) (2 ^ sh.val))))
/-- EXTA (R429). -/
def execExta (k : Fin 16) (t : Fin 32) (x : Fin 4) (sh : Fin 64) (ops : List MemOp) (s : State) :=
  s.act (·.plain k.val true [t.val] ops (fun _ c => c.setSat t.val (divAway (c.xI x.val) (2 ^ sh.val))))
/-- EXTT (R429). -/
def execExtt (k : Fin 16) (t : Fin 32) (x : Fin 4) (sh : Fin 64) (ops : List MemOp) (s : State) :=
  s.act (·.plain k.val true [t.val] ops (fun _ c => c.setSat t.val (divFloor (c.xI x.val) (2 ^ sh.val))))
/-- EXP (R430). -/
def execExp (k : Fin 16) (t : Fin 32) (src : ExpSrc) (ops : List MemOp) (s : State) :=
  s.act (·.plain k.val true [t.val] ops (fun _ c =>
    c.setD t.val (match src with | .d n => signBits 32 (c.dI n.val) | .x n => signBits 72 (c.xI n.val))))
/-- NORM (R430). -/
def execNorm (k : Fin 16) (t a : Fin 32) (ops : List MemOp) (s : State) :=
  s.act (·.plain k.val true [t.val] ops (fun _ c => c.setD t.val (c.dI a.val * 2 ^ signBits 32 (c.dI a.val))))
/-- BFLT (R430). -/
def execBflt (k : Fin 16) (t a : Fin 32) (ops : List MemOp) (s : State) :=
  s.act (·.plain k.val true [t.val] ops (fun _ c => c.setD t.val (min (c.dI t.val) (signBits 32 (c.dI a.val)))))
/-- ASH (R430). -/
def execAsh (k : Fin 16) (t a b : Fin 32) (ops : List MemOp) (s : State) :=
  s.act (·.plain k.val true [t.val] ops (fun _ c => c.setSat t.val (ashValue (c.dI a.val) (c.dI b.val))))
/-- ALU_OP (R430). -/
def execAluOp (k : Fin 16) (op : AluOp) (ops : List MemOp) (s : State) :=
  s.act (·.plain k.val true (aluDest op) ops (fun n c => aluApply op n c))
/-- LOAD (R431), with another memory operation or none beside it. -/
def execLoad (k : Fin 16) (m : MemOp) (ops : List MemOp) (s : State) :=
  s.act (·.plain k.val true [] ({ m with store := false } :: ops) (fun _ c => c))
/-- STORE (R431, R443). -/
def execStore (k : Fin 16) (m : MemOp) (ops : List MemOp) (s : State) :=
  s.act (·.plain k.val true [] ({ m with store := true } :: ops) (fun _ c => c))
/-- LOOP (R433). -/
def execLoop (k : Fin 16) (c : Count) (stop : Nat) (ops : List MemOp) (s : State) := s.act (·.coreLoop k.val c stop ops)
/-- LPOP (R433). -/
def execLpop (k : Fin 16) (a b e : Fin 32) (ops : List MemOp) (s : State) := s.act (·.coreLpop k.val a.val b.val e.val ops)
/-- LPUSH (R433). -/
def execLpush (k : Fin 16) (a b e : Fin 32) (ops : List MemOp) (s : State) := s.act (·.coreLpush k.val a.val b.val e.val ops)
/-- REP (R434). -/
def execRep (k : Fin 16) (c : Count) (ops : List MemOp) (s : State) := s.act (·.coreRep k.val c ops)
/-- BRANCH (R436); `taken` says whether its condition holds. The two instructions after it are delay slots either way. DEDUCED, log 118. -/
def execBranch (k : Fin 16) (target : Nat) (taken : Bool) (ops : List MemOp) (s : State) :=
  s.act (·.control k.val true ops (fun _ c => c.branch (if taken then target else c.pc + 24)))
/-- CALL (R436): the return address is that after the delay slots (log 35). -/
def execCall (k : Fin 16) (target : Nat) (ops : List MemOp) (s : State) :=
  s.act (·.control k.val true ops (fun _ c => { c.branch target with calls := (c.pc + 24) % 2 ^ 20 :: c.calls }))
/-- RETURN (R436): back to the address of the latest call not yet returned from; without one it is free (log 35). -/
def execReturn (k : Fin 16) (ops : List MemOp) (s : State) :=
  s.act (·.control k.val true ops (fun n c => { c.branch (c.calls.headD n) with calls := c.calls.drop 1 }))
/-- RTI (R437). -/
def execRti (k : Fin 16) (ops : List MemOp) (s : State) := s.act (·.coreRti k.val ops)
/-- TGET (R441). -/
def execTget (k : Fin 16) (ops : List MemOp) (s : State) := s.act (·.coreTget k.val ops)
/-- TDONE (R444). -/
def execTdone (k : Fin 16) (a : Fin 32) (ops : List MemOp) (s : State) := s.act (·.coreTdone k.val a.val ops)
/-- DWAIT (R445). -/
def execDwait (k : Fin 16) (n : Nat) (ops : List MemOp) (s : State) := s.act (·.coreDwait k.val n ops)
/-- DMA_CMD (R445). -/
def execDmaCmd (k : Fin 16) (v : Word) (ops : List MemOp) (s : State) := s.act (·.coreDmaCmd k.val v.toNat ops)
/-- DMA_TRANSFER_DONE (R445). -/
def execDmaTransferDone (k : Fin 16) (err : Bool) (s : State) := s.act (·.dmaDone k.val err)
/-- MSG (R447). -/
def execMsg (k : Fin 16) (v : Word) (ops : List MemOp) (s : State) := s.act (·.coreMsg k.val v.toNat ops)

end Sys2Proof.Machine
end

