-- ==== Sys2Proof/Machine/Eth.lean ====
section
/-! DEFINITION. The Ethernet MACs (spec 09): receive path, host rings, transmitter, pause, stamps and counters. -/
namespace Sys2Proof.Machine

/-! ## Counters (R306) -/

namespace Cnt
def rxOk : Nat := 0
def rxOctets : Nat := 1
def rxBcast : Nat := 2
def rxMcast : Nat := 3
def rxRunt : Nat := 4
def rxOversize : Nat := 5
def rxFcsErr : Nat := 6
def rxCodeErr : Nat := 7
def rxPause : Nat := 8
def rxFiltered : Nat := 9
def rxToStream : Nat := 10
def rxToHost : Nat := 11
def rxFifoDrop : Nat := 12
def rxRingExhaust : Nat := 13
def fecCorr : Nat := 14
def fecUncorr : Nat := 15
def txOk : Nat := 16
def txOctets : Nat := 17
def txStream : Nat := 18
def txHost : Nat := 19
def txPause : Nat := 20
def txDrop : Nat := 21
def rxPausedQuanta : Nat := 22
def linkDown : Nat := 23
def hiBer : Nat := 24
end Cnt

/-- Add to a counter, which saturates at 2^64 - 1. -/
def Dev.cnt (d : Dev) (m k n : Nat) : Dev :=
  let x := d.mac m
  d.setMac m { x with cnt := smSet (fun _ => 0) x.cnt k (min (smGet (fun _ => 0) x.cnt k + n) (2 ^ 64 - 1)) }

/-- A read of a LO word: bits [31:0]; bits [63:32] go into HI and the counter clears. -/
def Dev.cntRead (d : Dev) (m k : Nat) : Nat × Dev :=
  let x := d.mac m
  let v := smGet (fun _ => 0) x.cnt k
  (v % 2 ^ 32, (d.setMac m { x with cnt := smSet (fun _ => 0) x.cnt k 0 }).setFld
    (if m = 0 then R.ETHA_CNT_HI_HI k else R.ETHB_CNT_HI_HI k) (v / 2 ^ 32))

/-! ## Mode, link, pause time (R279 to R284, R300) -/

/-- A MAC works where it is effectively enabled and its clock runs (R37, R280). -/
def Dev.macOn (d : Dev) (m : Nat) : Bool := d.works (ethBase m) && d.awake

/-- RS-FEC is on; FEC is ignored in 10GBASE-R mode (R281). -/
def Dev.fecOn (d : Dev) (m : Nat) : Bool := d.flag (R.ETH_MODE_FEC m) && !d.flag (R.ETH_MODE_SPEED m)

/-- ETH_PAUSE_STAT as read. -/
def Dev.pauseStat (d : Dev) (m : Nat) : Word :=
  let x := d.mac m
  let q := d.quantum m
  let left := match x.hold with | some n => (n * q - 25 * x.held + q - 1) / q | none => 0
  BitVec.ofNat 32 (b2n x.hold.isSome * 2 ^ 31 + d.fld (R.ETH_PAUSE_STAT_XOFF_ACTIVE m) * 2 ^ 30 + left % 2 ^ 16)

/-- The tap weight MAIN as it acts (R282). Where PRE and POST alone exceed 63 it is 0. DESIGN CHOICE, log 138. -/
def mainTap (d : Dev) (m : Nat) : Nat :=
  min (d.fld (R.ETH_SERDES_TX_MAIN m)) (63 - d.fld (R.ETH_SERDES_TX_PRE m) - d.fld (R.ETH_SERDES_TX_POST m))

/-! ## Stamps (R303, R304) -/

/-- A stamp of the selected base at `off` (1/256 TIME cycle) from now, with a free error within the bound of the mode and the
signed correction. -/
def Dev.ethStamp (d : Dev) (m : Nat) (off corr : Int) : Nat × Dev :=
  let b := d.fld (R.ETH_TS_CTL_TB m)
  let at_ : Int := (d.base b).val + divFloor (off * tbInc (d.tbRate b)) 256
  let err : Int := if d.flag (R.ETH_MODE_SPEED m) || d.fecOn m then 5 * 2 ^ 63 else 3 * 2 ^ 63
  let lo := -divFloor (err - at_) (2 ^ 64)
  let hi := divFloor (at_ + err) (2 ^ 64)
  (tc 32 (lo + (d.freeNat 0 % (hi - lo + 1).toNat : Nat) + corr), d.drew 1)

/-! ## The host FIFO and pause generation (R292, R301) -/

/-- Bytes in the host FIFO. -/
def EthM.bytesIn (x : EthM) : Nat := x.fifo.foldl (fun n f => n + f.bytes.length + 4) 0

/-- FILL in KiB, rounded up. -/
def EthM.fill (x : EthM) : Nat := (x.bytesIn + 1023) / 1024

def Dev.highMark (d : Dev) (m : Nat) : Nat := d.fld (R.ETH_PAUSE_HIGH m)
def Dev.lowMark (d : Dev) (m : Nat) : Nat := min (d.fld (R.ETH_PAUSE_LOW m)) (d.highMark m - 1)

/-- The FIFO takes new contents: FILL and HWM, and what the watermarks queue (log 27). -/
def Dev.setFifo (d : Dev) (m : Nat) (l : List EthFrame) : Dev :=
  let x := d.mac m
  let was := 100 * x.fill
  let x := { x with fifo := l }
  let now := 100 * x.fill
  let d := d.setFlds [(R.ETH_FIFO_FILL m, x.fill), (R.ETH_FIFO_HWM m, max (d.fld (R.ETH_FIFO_HWM m)) x.fill)]
  let hi := 256 * d.highMark m
  let lo := 256 * d.lowMark m
  if !d.flag (R.ETH_PAUSE_CTL_GEN m) then d.setMac m x
  else if was < hi && hi ≤ now then d.setMac m { x with pq := x.pq ++ [d.fld (R.ETH_PAUSE_QUANTA m)] }
  else if lo < was && now ≤ lo then
    let q := x.pq.filter (· == 0)
    d.setMac m { x with pq := if d.flag (R.ETH_PAUSE_STAT_XOFF_ACTIVE m) && q.isEmpty then q ++ [0] else q }
  else d.setMac m x

/-- A further XOFF is due. -/
def Dev.xoffRefresh (d : Dev) (m : Nat) : Dev :=
  let x := d.mac m
  if d.macOn m && d.flag (R.ETH_PAUSE_CTL_GEN m) && d.flag (R.ETH_PAUSE_STAT_XOFF_ACTIVE m)
      && decide (256 * d.lowMark m < 100 * x.fill) then
    d.setMac m { x with pq := x.pq ++ [d.fld (R.ETH_PAUSE_QUANTA m)] }
  else d

/-- A write of ETH_PAUSE_CTL (R301). An XOFF that is queued when GEN is cleared is still sent. DESIGN CHOICE, log 140. -/
def Dev.pauseCtlWrite (d : Dev) (m : Nat) (v : Word) : Dev :=
  let was := d.flag (R.ETH_PAUSE_CTL_GEN m)
  let d := d.setFlds [(R.ETH_PAUSE_CTL_OBEY m, bits v.toNat 1 1), (R.ETH_PAUSE_CTL_GEN m, bits v.toNat 0 1)]
  if was && !bitAt v.toNat 0 && d.flag (R.ETH_PAUSE_STAT_XOFF_ACTIVE m) then
    d.setMac m { d.mac m with pq := (d.mac m).pq ++ [0] }
  else d

/-! ## The transmitter (R297 to R299, R305) -/

/-- A frame leaves, stamped `ts` (R303): padded to 60 bytes, FCS appended; the transmitter is busy until the frame boundary. -/
def Dev.ethSend (d : Dev) (m : Nat) (l : List Nat) (ts : Nat) : Dev :=
  let l := l ++ List.replicate (60 - l.length) 0
  let l := l ++ leBytes 4 (fcsOf l)
  let d := (d.cnt m Cnt.txOk 1).cnt m Cnt.txOctets l.length
  d.setMac m { d.mac m with busy := true, last := l, lastTs := ts }

/-- TIME cycles, in 1/256, that `n` bytes take on the lane. -/
def Dev.byteTime (d : Dev) (m n : Nat) : Nat := n * d.quantum m * 4 / 25

/-- Stamp of a frame that starts now: its SFD has crossed the pins 8 bytes later (log 115). -/
def Dev.stampNow (d : Dev) (m : Nat) : Nat × Dev := d.ethStamp m (d.byteTime m 8 : Nat) (sx 16 (d.fld (R.ETH_TS_LAT_TX_LAT m)))

/-- What a MAC sends on its lane (R280, R283). -/
inductive LaneOut where
  | squelched | frames | idle | remoteFault
  deriving DecidableEq, Repr

/-- Frames while the link is up; otherwise the sequences of Clause 46, which answers a local fault with remote fault sequences and a
remote fault with idles. PRESUMED, log 115. -/
def Dev.laneOut (d : Dev) (m : Nat) : LaneOut :=
  if !d.macOn m then .squelched
  else if d.flag (R.ETH_LINK_LINK_UP m) then .frames
  else if d.flag (R.ETH_LINK_LOCAL_FAULT m) || !d.flag (R.ETH_LINK_BLOCK_LOCK m) then .remoteFault
  else .idle

/-- The station address as sent. -/
def Dev.station (d : Dev) (m : Nat) : List Nat := leBytes 4 (d.fld (R.ETH_SA_LO_SA_LO m)) ++ leBytes 2 (d.fld (R.ETH_SA_HI_SA_HI m))

/-- The oldest generated pause frame is sent. -/
def Dev.sendPause (d : Dev) (m q : Nat) (rest : List Nat) : Dev :=
  let d := d.setMac m { d.mac m with pq := rest }
  let d := (d.setFld (R.ETH_PAUSE_STAT_XOFF_ACTIVE m) (if q = 0 then 0 else 1)).cnt m Cnt.txPause 1
  let (ts, d) := d.stampNow m
  (d.ethSend m ([0x01, 0x80, 0xC2, 0, 0, 0x01] ++ d.station m ++ [0x88, 0x08, 0, 0x01] ++ beBytes 2 q) ts)

/-- The transmitter is free to take a frame. -/
def Dev.txFree (d : Dev) (m : Nat) : Bool := d.laneOut m == .frames && !(d.mac m).busy

/-- The oldest stream packet is sent; packets before it that MAXFRM has come to exclude are dropped (R326). -/
def Dev.sendStream (d : Dev) (m : Nat) : List StxPkt → Dev
  | [] => d.setMac m { d.mac m with stx := [] }
  | p :: rest =>
    if d.fld (R.ETH_MAXFRM_MAXFRM m) < p.bytes.length + 4 then (d.strDrop p.stream).sendStream m rest
    else
      let (ts, d) := d.stampNow m
      (((d.setMac m { d.mac m with stx := rest }).cnt m Cnt.txStream 1).count (R.STR_TX_PKT_COUNT p.stream)).ethSend m p.bytes ts

/-- A free transmitter takes a pause frame, or else a stream packet unless a received pause holds it. Each copy of a packet that a MAC
sends counts in STR_TX_PKT (log 43). -/
def Dev.txKick (d : Dev) (m : Nat) : Dev :=
  if !d.txFree m then d
  else match (d.mac m).pq with
    | q :: rest => d.sendPause m q rest
    | [] =>
      if (d.mac m).hold.isSome then d else d.sendStream m (d.mac m).stx

/-- Both free transmitters take what has been queued for them. -/
def Dev.txKicks (d : Dev) : Dev := (d.txKick 0).txKick 1

/-- Ones'-complement update of a checksum for a change of bytes at `cf`, aligned to the checksum's own place. A result of 0 is
sent as 0xFFFF, as UDP has it (log 22). -/
def csumUpdate (old cfOld cfNew : List Nat) (odd : Bool) : List Nat :=
  let pad := fun (l : List Nat) => if odd then 0 :: (l ++ [0]) else l
  let inv : List Nat → List Nat := fun l => l.map (fun b => 255 - b % 256)
  let s := onesSum (inv old ++ (inv (pad cfOld) ++ pad cfNew))
  let c := 0xFFFF - s
  beBytes 2 (if c = 0 then 0xFFFF else c)

/-- The frame of an NTX entry as sent with stamp `ts` (R305). -/
def oneStep (e l : List Nat) (ts : Nat) : List Nat :=
  let cf := ofLe (slice e 12 2)
  let cs := ofLe (slice e 14 2)
  let v6 := bitAt (e.getD 10 0) 2
  if !bitAt (e.getD 10 0) 1 ∨ l.length < cf + 8 ∨ (v6 ∧ l.length < cs + 2) then l
  else
    let δ := sx 32 (tc 32 ((ts : Int) - ofLe (slice e 16 4)))
    let old := slice l cf 8
    let new_ := beBytes 8 (tc 64 ((ofBe old : Int) + δ * 65536))
    let l' := patchBytes l cf new_
    if v6 then patchBytes l' cs (csumUpdate (slice l cs 2) old new_ ((cf + cs) % 2 == 1)) else l'

/-- Write an NTX entry back: status and stamp. -/
def Dev.ntxBack (d : Dev) (m r st ts : Nat) : Dev :=
  d.ringBack r 32 ([st, if ts = 0 ∧ st ≠ 0 then 0 else d.fld (R.ETH_TS_CTL_TB m), 0, 0] ++ leBytes 4 ts ++ List.replicate 23 0)

/-- A host frame that is not sent. -/
def Dev.ntxDrop (d : Dev) (m r st : Nat) : Dev := ((d.cnt m Cnt.txDrop 1).raise (F.txDrop m)).ntxBack m r st 0

/-- The next NTX entry's turn has come (R298); a sent frame's SFD crosses the pins `lead` later. -/
def Dev.ntxTake (d : Dev) (m lead : Nat) (readErr : Bool) : Dev :=
  match d.ringFor 5 m with
  | none => d
  | some r =>
    if !d.macOn m || (d.mac m).busy || (d.mac m).hold.isSome || !d.ringLive r || d.ringPosted r == 0 then d
    else
      let e := memRead d.hostMem (d.ringAddr r (d.fld (R.RING_DEV_IDX_DEV_IDX r))) 32
      let n := ofLe (slice e 8 2)
      if n < 14 then d.ntxDrop m r 1
      else if d.fld (R.ETH_MAXFRM_MAXFRM m) < n + 4 then d.ntxDrop m r 2
      else if readErr then (d.raise F.dmaErr).ntxDrop m r 3
      else if !d.flag (R.ETH_LINK_LINK_UP m) then d.ntxDrop m r 4
      else
        let l := memRead d.hostMem (ofLe (slice e 0 8)) n
        let (ts, d) := d.ethStamp m lead (sx 16 (d.fld (R.ETH_TS_LAT_TX_LAT m)))
        let wanted := (e.getD 10 0) % 4 != 0
        let d := (d.cnt m Cnt.txHost 1).ethSend m (oneStep e l ts) ts
        d.ntxBack m r 0 (if wanted then ts else 0)

/-- NTX_FRAME: nothing goes before the host frame. -/
def Dev.ntxFrame (d : Dev) (m lead : Nat) (readErr : Bool) : Dev :=
  let d := d.txKick m
  d.ntxTake m lead readErr

/-- A received pause hold starts. -/
def Dev.startHold (d : Dev) (m q : Nat) : Dev :=
  (d.setMac m { d.mac m with hold := some q, held := 0, holdNext := none }).raise (F.pauseRx m)

/-- A hold ends; one that lasted its whole time counts all of it. -/
def Dev.endHold (d : Dev) (m : Nat) (whole : Bool) : Dev :=
  let x := d.mac m
  match x.hold with
  | none => d
  | some q =>
    let x := if whole then d.pausedAdd m (q * d.quantum m - d.heldOf m q x.held) x else x
    d.setMac m { x with hold := none, held := 0 }

/-- The hold's time has passed; that of a MAC that does no work stands still (R280, log 137). -/
def Dev.holdExpire (d : Dev) (m : Nat) : Dev := if d.macOn m then (d.endHold m true).txKick m else d

/-! ## The receive path (R286 to R292) -/

/-- A received pause frame (R302). -/
def Dev.rxPauseFrame (d : Dev) (m q : Nat) : Dev :=
  let d := d.cnt m Cnt.rxPause 1
  let x := d.mac m
  if !d.flag (R.ETH_PAUSE_CTL_OBEY m) then d
  else if q = 0 then
    let d := d.endHold m false
    (d.setMac m { d.mac m with holdNext := none }).txKick m
  else if x.hold.isSome then
    let d := d.endHold m false
    d.setMac m { d.mac m with hold := some q, held := 0 }
  else if x.busy then d.setMac m { x with holdNext := some q }
  else d.startHold m q

/-- Tag of a frame and the filter entry that gave it (R290). Broadcast is no multicast in row 3. DESIGN CHOICE, log 139. -/
def ethTag (d : Dev) (m : Nat) (da : List Nat) : Nat × Option Nat :=
  let hit := (List.range 32).find? (fun e =>
    let w := smGet (fun _ => (0, 0)) (d.mac m).filt e
    bits w.2 16 2 != 0 && leBytes 4 w.1 ++ leBytes 2 w.2 == da)
  match hit with
  | some e => (bits (smGet (fun _ => (0, 0)) (d.mac m).filt e).2 16 2, some e)
  | none =>
    let bcast := da == List.replicate 6 0xFF
    if bcast && d.flag (R.ETH_FILT_CTL_BCAST_ACCEPT m) then (1, none)
    else if !bcast && bitAt (da.getD 0 0) 0 && d.flag (R.ETH_FILT_CTL_ALLMULTI_CLS m) then (2, none)
    else (0, none)

/-- A HOST frame enters the FIFO, if it fits. -/
def Dev.fifoPush (d : Dev) (m : Nat) (f : EthFrame) : Dev :=
  let x := d.mac m
  if 262144 < x.bytesIn + f.bytes.length + 4 then ((d.cnt m Cnt.rxFifoDrop 1).raise (F.fifoDrop m)).note (.ethFifo m)
  else d.setFifo m (x.fifo ++ [f])

/-- A frame that has passed the checks, without its FCS. -/
def Dev.rxAccept (d : Dev) (m : Nat) (l : List Nat) (ts : Nat) : Dev :=
  let da := l.take 6
  let bcast := da == List.replicate 6 0xFF
  let d := (d.cnt m Cnt.rxOk 1).cnt m Cnt.rxOctets (l.length + 4)
  let d := if bcast then d.cnt m Cnt.rxBcast 1 else if bitAt (da.getD 0 0) 0 then d.cnt m Cnt.rxMcast 1 else d
  if ofBe (slice l 12 2) = 0x8808 then
    if ofBe (slice l 14 2) = 1 then d.rxPauseFrame m (ofBe (slice l 16 2)) else d.cnt m Cnt.rxFiltered 1
  else
    let (tag, hit) := ethTag d m da
    let f : EthFrame := ⟨l, ts, d.fld (R.ETH_TS_CTL_TB m), hit⟩
    if tag = 0 then d.cnt m Cnt.rxFiltered 1
    else if tag = 1 then d.fifoPush m f
    else match d.strOffer m l f.tb ts with
      | some d => d.cnt m Cnt.rxToStream 1
      | none => if tag = 3 then d.fifoPush m f else d.cnt m Cnt.rxFiltered 1

/-- A frame reaches the receive path (R287). -/
def Dev.ethTake (d : Dev) (m : Nat) (f : RxFrame) : Dev :=
  if !d.macOn m then d
  else
    let (ts, d) := d.ethStamp m (-(f.ago : Int)) (-(sx 16 (d.fld (R.ETH_TS_LAT_RX_LAT m))))
    let fec := d.fecOn m
    let d := if fec then (d.cnt m Cnt.fecCorr f.corr).cnt m Cnt.fecUncorr f.uncorr else d
    let d := d.raiseIf (fec && decide (0 < f.uncorr)) (F.fecUncorr m)
    let n := f.bytes.length
    let body := f.bytes.take (n - 4)
    if f.codeErr || (fec && f.touched) then d.cnt m Cnt.rxCodeErr 1
    else if n ≤ 63 then d.cnt m Cnt.rxRunt 1
    else if d.fld (R.ETH_MAXFRM_MAXFRM m) < n then d.cnt m Cnt.rxOversize 1
    else if leBytes 4 (fcsOf body) != f.bytes.drop (n - 4) then d.cnt m Cnt.rxFcsErr 1
    else (d.rxAccept m body ts).txKick m

/-- A frame on the lane. In loopback the receive path takes the transmitter's frames instead (R281). -/
def Dev.ethRx (d : Dev) (m : Nat) (f : RxFrame) : Dev := if d.flag (R.ETH_MODE_LOOP m) then d else d.ethTake m f

/-- The frame in transmission has ended. With LOOP it is what the receive path takes (R281). A waiting hold starts and the next frame is
chosen. -/
def Dev.txBoundary (d : Dev) (m lead : Nat) (readErr : Bool) : Dev :=
  let x := d.mac m
  let d := d.setMac m { x with busy := false }
  let d := match x.holdNext with | some q => d.startHold m q | none => d
  let d := if x.busy && d.flag (R.ETH_MODE_LOOP m) then d.ethTake m ⟨x.last, false, false, 0, 0, d.byteTime m x.last.length⟩ else d
  (d.txKick m).ntxTake m lead readErr

/-! ## Delivery into the NRX ring (R294 to R296) -/

/-- A buffer of a copy: entry number, bytes it takes (`none`: BADBUF). -/
structure NrxBuf where
  addr : Nat
  bytes : Option (List Nat)
  deriving DecidableEq, Repr

/-- Buffers from entry `i` on, `k` of them posted, for the bytes left; and what no buffer takes. -/
def nrxPlan (d : Dev) (r i : Nat) : Nat → List Nat → List NrxBuf × List Nat
  | 0, l => ([], l)
  | k + 1, l =>
    if l.isEmpty then ([], [])
    else
      let e := memRead d.hostMem (d.ringAddr r i) 12
      let n := ofLe (slice e 8 4)
      let a := ofLe (slice e 0 8)
      if n % 64 ≠ 0 ∨ n < 256 ∨ 65536 < n then
        let (bs, rest) := nrxPlan d r (i + 1) k l
        (⟨a, none⟩ :: bs, rest)
      else
        let (bs, rest) := nrxPlan d r (i + 1) k (l.drop n)
        (⟨a, some (l.take n)⟩ :: bs, rest)

/-- Write one entry back. -/
def Dev.nrxBack (d : Dev) (r : Nat) (f : EthFrame) (b : NrxBuf) (sop eop drop : Bool) : Dev :=
  let da := f.bytes.take 6
  let bcast := da == List.replicate 6 0xFF
  let vlan := ofBe (slice f.bytes 12 2) == 0x8100
  let st := b2n sop + 2 * b2n eop + 4 * b2n drop + 8 * b2n b.bytes.isNone + 16 * b2n (!bcast && bitAt (da.getD 0 0) 0)
    + 32 * b2n bcast + 64 * b2n vlan
  let len := if eop then f.bytes.length + 4 else d.freeNat 0
  (d.drew 1).ringBack r 16 (leBytes 2 ((b.bytes.getD []).length) ++ [st, match f.hit with | some e => e | none => 128]
    ++ leBytes 4 f.ts ++ leBytes 2 len ++ [f.tb] ++ List.replicate 36 0)

/-- Write the entries back in ring order: the first filled buffer has SOP, the last EOP. -/
def Dev.nrxWrite (d : Dev) (r : Nat) (f : EthFrame) (drop first : Bool) : List NrxBuf → Dev
  | [] => d
  | b :: bs =>
    let d := match b.bytes with | some l => d.hostWrite b.addr l | none => d
    let good := b.bytes.isSome
    let last := good && bs.all (fun c => c.bytes.isNone)
    (d.nrxBack r f b (good && first) last (good && drop)).nrxWrite r f drop (first && !good) bs

/-- The copy of the frame at the FIFO head. A frame that finds only unusable buffers goes on waiting (log 28). -/
def Dev.nrxCopy (d : Dev) (m : Nat) : Dev :=
  match d.ringFor 4 m, (d.mac m).fifo with
  | some r, f :: rest =>
    if !d.macOn m || !d.ringLive r || d.ringPosted r == 0 then d
    else
      let (bs, left) := nrxPlan d r (d.fld (R.RING_DEV_IDX_DEV_IDX r)) (min (d.ringPosted r) (d.ringSize r)) f.bytes
      if bs.all (fun b => b.bytes.isNone) then d.nrxWrite r f false true bs
      else
        let d := d.nrxWrite r f (!left.isEmpty) true bs
        let d := if left.isEmpty then d.cnt m Cnt.rxToHost 1
          else ((d.cnt m Cnt.rxRingExhaust 1).raise (F.ringExhaust m)).note (.ethFifo m)
        (d.setFifo m rest).txKick m
  | _, _ => d

/-! ## Registers with an effect, link, enable and reset -/

/-- A write of ETH_MODE. -/
def Dev.ethModeWrite (d : Dev) (m : Nat) (v : Word) : Dev :=
  if d.effEn (ethBase m) then d.raise (F.ethCfgRefused m)
  else d.setFlds [(R.ETH_MODE_LOOP m, bits v.toNat 8 1), (R.ETH_MODE_RX_INV m, bits v.toNat 4 1),
    (R.ETH_MODE_TX_INV m, bits v.toNat 3 1), (R.ETH_MODE_FEC m, bits v.toNat 2 1), (R.ETH_MODE_SPEED m, bits v.toNat 0 1)]

/-- A write of ETH_MAC_HI puts the whole entry in force. -/
def Dev.ethMacHi (d : Dev) (m e : Nat) (v : Word) : Dev :=
  let tag := if m = 0 then R.ETHA_MAC_HI_TAG e else R.ETHB_MAC_HI_TAG e
  let hi := if m = 0 then R.ETHA_MAC_HI_ADDR_HI e else R.ETHB_MAC_HI_ADDR_HI e
  let lo := if m = 0 then R.ETHA_MAC_LO_ADDR_LO e else R.ETHB_MAC_LO_ADDR_LO e
  let d := d.setFlds [(tag, bits v.toNat 16 2), (hi, bits v.toNat 0 16)]
  let x := d.mac m
  d.setMac m { x with filt := smSet (fun _ => (0, 0)) x.filt e (d.fld lo, v.toNat % 2 ^ 18) }

/-- The link's indications are now `v`: REMOTE_FAULT, LOCAL_FAULT, FEC_ALIGN, HI_BER, BLOCK_LOCK from bit 4 down (R283). A lane found
inverted has no block lock until RX_INV is changed (R512). -/
def Dev.ethLink (d : Dev) (m v : Nat) : Dev :=
  if !d.macOn m then d
  else
    let v := if (d.mac m).rev = some (d.flag (R.ETH_MODE_RX_INV m)) then setBits v 0 1 0 else v
    let up := bitAt v 0 && !bitAt v 1 && (bitAt v 2 || !d.fecOn m) && !bitAt v 3 && !bitAt v 4
    let was := d.flag (R.ETH_LINK_LINK_UP m)
    let ber := d.flag (R.ETH_LINK_HI_BER m)
    let d := d.setFlds [(R.ETH_LINK_REMOTE_FAULT m, bits v 4 1), (R.ETH_LINK_LOCAL_FAULT m, bits v 3 1),
      (R.ETH_LINK_FEC_ALIGN m, bits v 2 1), (R.ETH_LINK_HI_BER m, bits v 1 1), (R.ETH_LINK_BLOCK_LOCK m, bits v 0 1),
      (R.ETH_LINK_LINK_UP m, b2n up)]
    let d := if was && !up then (d.cnt m Cnt.linkDown 1).stxDrop m else d
    let d := d.raiseIf (was != up) (F.linkChg m)
    let d := if bitAt v 1 && !ber then (d.cnt m Cnt.hiBer 1).raise (F.hiBer m) else d
    d.txKick m

/-- Block lock has been found on inverted data only on the lane of a MAC: the lane is down until RX_INV is changed (R512). -/
def Dev.laneHeld (d : Dev) (m : Nat) : Dev :=
  if d.macOn m then
    (d.setMac m { d.mac m with rev := some (d.flag (R.ETH_MODE_RX_INV m)) }).ethLink m ((d.reg (R.ETH_LINK_LINK_UP m).addr).toNat / 2 % 32)
  else d

/-- A MAC that is not effectively enabled ignores its lane and is squelched: its link is down and no frame is in transmission
(R280, log 29). -/
def Dev.ethRefresh (d : Dev) : Dev :=
  [0, 1].foldl (fun d m =>
    if d.macOn m then d
    else
      let d := (d.setReg (R.ETH_LINK_LINK_UP m).addr 0).stxDrop m
      d.setMac m { d.mac m with busy := false, holdNext := none }) d

/-- A reset clears the FIFO, the pause state, the counters and the filter in force (R280); stream packets queued there meet a link that is
down (R326). -/
def Dev.ethReset (d : Dev) (m : Nat) : Dev := (d.stxDrop m).setMac m { EthM.zero with rev := (d.mac m).rev }

/-- What a MAC reports (R308). -/
def ethHealth (d : Dev) (m : Nat) : UState × Nat :=
  if !d.flag (R.ETH_LINK_LINK_UP m) then (.degraded, 1) else if d.last (.ethFifo m) then (.degraded, 2) else (.ok, 0)

/-! ## Meanings -/

/-- ETH_RX_FRAME (R287). -/
def execEthRxFrame (mac : Fin 2) (f : RxFrame) (s : State) := s.act (·.ethRx mac.val f)
/-- PAUSE_HOLD_EXPIRE (R302). -/
def execPauseHoldExpire (mac : Fin 2) (s : State) := s.act (·.holdExpire mac.val)
/-- XOFF_REFRESH (R301). -/
def execXoffRefresh (mac : Fin 2) (s : State) := s.act (fun d => (d.xoffRefresh mac.val).txKick mac.val)
/-- NRX_COPY (R295). -/
def execNrxCopy (mac : Fin 2) (s : State) := s.act (·.nrxCopy mac.val)
/-- NTX_FRAME (R298). -/
def execNtxFrame (mac : Fin 2) (lead : Nat) (readErr : Bool) (s : State) := s.act (·.ntxFrame mac.val lead readErr)
/-- TX_FRAME_BOUNDARY (R299). -/
def execTxFrameBoundary (mac : Fin 2) (lead : Nat) (readErr : Bool) (s : State) := s.act (·.txBoundary mac.val lead readErr)
/-- LINK_CHG (R283). -/
def execLinkChg (mac : Fin 2) (v : BitVec 5) (s : State) := s.act (·.ethLink mac.val v.toNat)
/-- ETH_MODE_WRITE (R281). -/
def execEthModeWrite (mac : Fin 2) (v : Word) (s : State) := s.act (fun d => d.ifOpen (ethBase mac.val) (·.ethModeWrite mac.val v))
/-- ETH_MAC_HI_WRITE (R289). -/
def execEthMacHiWrite (mac : Fin 2) (e : Fin 32) (v : Word) (s : State) :=
  s.act (fun d => d.ifOpen (ethBase mac.val) (·.ethMacHi mac.val e.val v))
/-- ETH_PAUSE_CTL_WRITE (R300). -/
def execEthPauseCtlWrite (mac : Fin 2) (v : Word) (s : State) :=
  s.act (fun d => d.ifOpen (ethBase mac.val) (fun d => (d.pauseCtlWrite mac.val v).txKick mac.val))
/-- TX_PACKET_QUEUE (R326): the last sample of a packet has passed its emission instant. -/
def execTxPacketQueue (str : Fin 256) (s : State) := s.act (fun d => ((d.txForm str.val (d.top.tick - 1)).2).txKicks)
/-- TX_LATE (R326). -/
def execTxLate (mac : Fin 2) (str : Fin 256) (s : State) := s.act (·.txLate mac.val str.val)

end Sys2Proof.Machine
end

