-- ==== Sys2Proof/Machine/Commands.lean ====
section
/-! DEFINITION. Commands at HRE (spec 02): how a fetched command is taken, waits in the pending-apply queue, applies and completes;
SCENE_COMMIT and BARRIER; the meaning of every opcode's row. -/
namespace Sys2Proof

/-- A descriptor with the opcode that a row names. -/
def Cmd.withOp (c : Cmd) (op : Opcode) : Cmd := { c with code := BitVec.ofNat 8 op.code }

end Sys2Proof

namespace Sys2Proof.Machine

/-! ## What follows a change of the tables -/

/-- What units do at a boundary after the commands of that boundary have acted on their tables, or after any change while the tick
does not run: streams, patch conflicts and ASRC channels follow the live tables, and table reads take theirs. Banks follow at a boundary
(R211), or at once while the tick does not run. -/
def Dev.afterCommands (d : Dev) : Dev :=
  let d := d.strFollow d.top.tick
  let d := if d.running then d else d.judgeBanks
  ((((d.patchConflicts).asrcService).captureReads).sapRefresh).refFollow

/-! ## SCENE_COMMIT (R87 to R89, R116) -/

def commitDiscard (c : Cmd) : Bool := bitAt (c.u8 16) 0

/-- The commit would swap a table of OBJ (R116). -/
def swapsObj (d : Dev) : Bool := [T.objLayout, T.objHull, T.objObject].any (fun t => (d.tab t).changed)

/-- The wait of a commit. -/
def Dev.commitW (d : Dev) (i : CmdId) : CommitW :=
  match d.hre.commits.find? (fun w => w.id == i) with
  | some w => w
  | none => ⟨i, [], none, false⟩

/-- Change the wait of a commit. -/
def Dev.setCommitW (d : Dev) (i : CmdId) (f : CommitW → CommitW) : Dev :=
  { d with hre := { d.hre with commits := d.hre.commits.map (fun w => if w.id == i then f w else w) } }

/-- The pan stage validates for a commit at the first boundary after its fetch at which every TABLE_WRITE before it has completed
(R116, the boundary v). -/
def Dev.commitValidate (d : Dev) (e : PaqE) : Dev :=
  let w := d.commitW e.cmd.id
  if e.op == .sceneCommit && !commitDiscard e.cmd && d.running && w.waits.isEmpty && w.validAt.isNone && decide (e.cmd.fetch < d.top.tick) &&
      swapsObj d then
    (d.panValidate.2).setCommitW e.cmd.id (fun w => { w with validAt := some d.top.tick })
  else d

/-- Validation for every waiting commit. -/
def Dev.commitValidates (d : Dev) : Dev := d.hre.paq.foldl Dev.commitValidate d

/-- The boundary at which the active of the pair has acted on a mirrored commit that was late there (R393). -/
def Dev.commitAt (d : Dev) (c : Cmd) : Option Nat :=
  if c.mirrored then (d.tth.commits.find? (fun x => x.1 + 256 == c.ring && x.2.1 == c.idx)).map (·.2.2) else none

/-- A commit whose apply tick has come may act: the writes before it have completed (R88), and where it swaps a table of OBJ while the
tick runs, two boundaries have passed since the validation (R116). A standby takes the boundary of a late one from the active (R393). -/
def commitReady (d : Dev) (e : PaqE) : Bool :=
  let w := d.commitW e.cmd.id
  match d.commitAt e.cmd with
  | some b => decide (b ≤ d.top.tick)
  | none =>
    w.waits.isEmpty &&
      (commitDiscard e.cmd || !d.running || !swapsObj d || (match w.validAt with | some v => decide (v + 2 ≤ d.top.tick) | none => false))

/-- The boundary at which a late commit that the standby shares is to act, once it is known. -/
def commitBound (d : Dev) (e : PaqE) : Option Nat :=
  let w := d.commitW e.cmd.id
  if e.op == .sceneCommit && w.late && w.waits.isEmpty && (d.share e.cmd.id).isSome then
    if !d.running then some d.top.tick
    else if commitDiscard e.cmd || !swapsObj d then some (d.top.tick + 1)
    else w.validAt.map (fun v => max (v + 2) (d.top.tick + 1))
  else none

/-- An active tells the standby the boundaries of late commits, each once (R393). -/
def Dev.commitTell (d : Dev) : Dev :=
  d.hre.paq.foldl (fun d e => match commitBound d e with
    | some b => { d with tth := { d.tth with shared := d.tth.shared.filter (fun x => x.id != e.cmd.id) } }.tell (.commit e.cmd.ring e.cmd.idx b)
    | none => d) d

/-- Every live table becomes its staged copy, and no table is bad or changed (R87, DISCARD = 1). -/
def Dev.discardStaged (d : Dev) : Dev :=
  stagedTables.foldl (fun d t => d.setTab t { d.tab t with staged := (d.tab t).live, changed := false, bad := [] }) d

/-- Every changed staged table becomes live (R87, DISCARD = 0); a staged copy that stays behind takes the live one (R89). -/
def Dev.swapStaged (d : Dev) : Dev :=
  let obj := (d.tab T.objObject).changed
  let d := if swapsObj d then d.dropAllSets d.top.tick else d
  let d := stagedTables.foldl (fun d t =>
    let x := d.tab t
    if x.changed then d.setTab t { x with live := x.staged, changed := false } else d.setTab t { x with staged := x.live }) d
  if obj then d.swapMoves else d

/-- The validations before a swap: of the pan stage where none was made at a boundary (R116), of OUT_CHAIN (R213) and of the stream
tables (R312). -/
def Dev.commitChecks (d : Dev) (e : PaqE) : Dev :=
  let d := if (d.commitW e.cmd.id).validAt.isNone && swapsObj d then d.panValidate.2 else d
  let d := if (d.tab T.outChain).changed then d.outValidate.2 else d
  if (d.tab T.strRx).changed || (d.tab T.strTx).changed then d.strValidate.2 else d

/-- A commit is over: nothing waits for it any more; writes held behind it may start at the next boundary (R89). -/
def Dev.commitOver (d : Dev) (c : Cmd) : Dev :=
  ({ d with hre := { d.hre with commits := d.hre.commits.filter (fun w => w.id != c.id), heldGo := true },
            tth := { d.tth with commits := d.tth.commits.filter (fun x => !(x.1 + 256 == c.ring && x.2.1 == c.idx)) } }).unqueue c

/-- A commit acts and completes; writes held behind it may start at the next boundary (R87, R89). -/
def Dev.commitAct (d : Dev) (e : PaqE) (late : Bool) : Dev :=
  let d := if commitDiscard e.cmd then d else d.commitChecks e
  let (ok, d) :=
    if commitDiscard e.cmd then (true, d.discardStaged)
    else if stagedTables.any (fun t => !(d.tab t).bad.isEmpty) then (false, d)
    else (true, d.swapStaged)
  (d.commitOver e.cmd).complete e.cmd (if ok then ⟨lateOk late, 0, d.digest⟩ else ⟨.badTable, 6, d.digest⟩)

/-- A commit at or after its apply tick: refused, acting, or waiting and late. -/
def Dev.commitTry (d : Dev) (e : PaqE) (late : Bool) : Dev :=
  let w := d.commitW e.cmd.id
  match if w.late then none else d.refused .sceneCommit e.cmd with
  | some p => (d.commitOver e.cmd).complete e.cmd p
  | none =>
    if commitReady d e then d.commitAct e (late || w.late)
    else d.setCommitW e.cmd.id (fun w => { w with late := true })

/-! ## Applying (R41, R70, R76, R78) -/

/-- The command's apply boundary has come: R30 while the tick runs, R70 while it does not, R31 and R113 for object commands. -/
def Dev.cmdDue (d : Dev) (op : Opcode) (c : Cmd) : Bool :=
  if op == .objSet || op == .objKeyframe then
    (if d.running then decide (d.objDue c ≤ d.top.tick) else decide (c.ap ≤ d.top.tick + 1))
  else d.isDue c

/-- Its lateness. -/
def Dev.cmdLate (d : Dev) (op : Opcode) (c : Cmd) : Bool :=
  if op == .objSet || op == .objKeyframe then d.objLate c else d.isLate c

/-- A completion at once. -/
def done (x : Cpl × Dev) : Option Cpl × Dev := (some x.1, x.2)

/-- The effect of a command that its unit carries out at the apply boundary, with its completion, or none where that comes later. A mirrored
MTR_CFG leaves the standby's meters alone, which are its own (R394). -/
def Dev.effect (d : Dev) (op : Opcode) (c : Cmd) (late : Bool) : Option Cpl × Dev :=
  match op with
  | .nop => (some ⟨lateOk late, 0, 0⟩, d)
  | .barrier => (some ⟨lateOk late, 0, 0⟩, d)
  | .tableWrite => (none, d)
  | .sceneCommit => (none, d)
  | .tableRead => d.tableRead c late
  | .objSet => done (kfCounted (objSet d c late))
  | .objKeyframe => done (kfCounted (objKeyframe d c (d.objDue c) late))
  | .xptNodes => done (xptNodes d c late)
  | .xptRampSet => done (xptRampSet d c late)
  | .outBankLoad => outBankLoad d c late
  | .outSwap => done (outSwap d c late)
  | .patchSet => done (patchSet d c late)
  | .portCfg => done (portCfg d c late)
  | .streamCfg => done (streamCfg d c late)
  | .fmnSubmit => fmnSubmit d c late
  | .fmnCancel => done (fmnCancel d c late)
  | .timeSteer => done (timeSteer d c late)
  | .refCmd => refCmd d c late
  | .mtrCfg => if c.mirrored then (some ⟨lateOk late, 0, 0⟩, d) else done (mtrCfg d c late)

/-- A command that is refused leaves no trace in the sets that were computed ahead with it: they are computed again (R31, R76). -/
def Dev.unseen (d : Dev) (op : Opcode) (c : Cmd) : Dev :=
  if (op == .objSet || op == .objKeyframe) && d.running then d.dropSets (c.u16 16) (d.objDue c) else d

/-- A command acts at its apply boundary: refused, or its effect, with the completion that is due. -/
def Dev.applyCmd (d : Dev) (op : Opcode) (c : Cmd) : Dev :=
  let d := d.unqueue c
  match d.refused op c with
  | some p => (d.unseen op c).complete c p
  | none =>
    match d.effect op c (d.cmdLate op c) with
    | (some p, d) => d.complete c p
    | (none, d) => d

/-- One entry of the pending-apply queue at a boundary or service instant. -/
def Dev.applyEntry (d : Dev) (e : PaqE) : Dev :=
  if !d.cmdDue e.op e.cmd then d
  else if e.op == .sceneCommit then d.commitTry e (d.isLate e.cmd)
  else d.applyCmd e.op e.cmd

/-! ## BARRIER (R80) -/

def barrierAll (c : Cmd) : Bool := bitAt (c.u8 16) 0

/-- Commands fetched before a barrier, of its scope, that have not completed. -/
def barrierWaits (d : Dev) (c : Cmd) : List CmdId :=
  d.hre.outst.filter (fun i => decide (i.seq < c.seq) && (barrierAll c || i.ring == c.ring))

/-- A barrier ends. -/
def Dev.barrierEnd (d : Dev) (b : Barrier) (p : Cpl) : Dev :=
  { d with hre := { d.hre with barriers := d.hre.barriers.filter (fun x => x.cmd.id != b.cmd.id) } }.complete b.cmd p

/-- A barrier is judged when its apply tick comes (R76), and completes once every earlier command in its scope has, LATE where its apply
tick had passed when it was fetched (R80). -/
def Dev.barrierTry (d : Dev) (b : Barrier) : Dev :=
  if !d.isDue b.cmd then d
  else
    match if b.judged then none else d.refused .barrier b.cmd with
    | some p => d.barrierEnd b p
    | none =>
      if b.waits.all (fun i => !d.hre.outst.contains i) then d.barrierEnd b ⟨lateOk b.late, 0, 0⟩
      else { d with hre := { d.hre with barriers := d.hre.barriers.map (fun x => if x.cmd.id = b.cmd.id then { x with judged := true } else x) } }

/-- Barriers at a boundary or service instant, in fetch order. -/
def Dev.barriers (d : Dev) : Dev := d.hre.barriers.foldl Dev.barrierTry d

/-! ## A boundary's commands (R78, R91) -/

/-- What waits for a boundary: a command of the pending-apply queue or a barrier. -/
inductive Waiting where
  | entry (e : PaqE)
  | barrier (b : Barrier)
  deriving DecidableEq, Repr

/-- Its place in the fetch order. -/
def Waiting.seq : Waiting → Nat
  | .entry e => e.cmd.seq
  | .barrier b => b.cmd.seq

/-- Put something that waits among the others, before the first that was fetched later. -/
def insertWaiting (w : Waiting) : List Waiting → List Waiting
  | [] => [w]
  | x :: r => if w.seq < x.seq then w :: x :: r else x :: insertWaiting w r

/-- All that waits, in fetch order. -/
def Dev.waiting (d : Dev) : List Waiting :=
  d.hre.barriers.foldl (fun l b => insertWaiting (.barrier b) l) (d.hre.paq.map .entry)

/-- What waits acts, if its time has come. -/
def Dev.actWaiting (d : Dev) : Waiting → Dev
  | .entry e => d.applyEntry e
  | .barrier b => d.barrierTry b

/-- Commands due apply, and barriers complete, in fetch order (R78, R80, R91). -/
def Dev.applyDue (d : Dev) : Dev := d.waiting.foldl Dev.actWaiting d

/-! ## Taking a command (R69, R74, R77, R83, R89) -/

/-- The command counts as outstanding until it completes; a requested completion has its entry reserved (R69). -/
def Dev.enlist (d : Dev) (c : Cmd) : Dev :=
  if d.hre.outst.contains c.id then d
  else
    let link := d.fld (R.RING_CFG_LINK c.ring)
    let take := c.cplReq && !c.mirrored
    let d := { d with hre := { d.hre with outst := d.hre.outst ++ [c.id], links := d.hre.links ++ [⟨c.id, link, take⟩],
                                          serial := max d.hre.serial (c.seq + 1) } }
    if take then d.setRing link { d.ring link with resv := (d.ring link).resv + 1 } else d

/-- The command enters the pending-apply queue. -/
def Dev.enqueue (d : Dev) (op : Opcode) (c : Cmd) : Dev :=
  if d.hre.paq.any (fun e => e.cmd.id == c.id) then d else d.setPaq (d.hre.paq ++ [⟨op, c⟩])

/-- A fetched command acts at once where its rules say so (R70), and waits in the pending-apply queue otherwise; so does a commit
that may not act yet (R88, R116). -/
def Dev.actOrWait (d : Dev) (op : Opcode) (c : Cmd) : Dev :=
  let atOnce := d.cmdDue op c && (op != .sceneCommit || (d.refused op c).isSome || commitReady d ⟨op, c⟩)
  (if atOnce then d else d.enqueue op c).applyEntry ⟨op, c⟩

/-- HRE has fetched a command, or a standby has received one: it acts at once where its rules say so, else it waits. -/
def Dev.takeOp (d : Dev) (op : Opcode) (c : Cmd) : Dev :=
  let d := d.enlist c
  match op with
  | .tableWrite => d.tableWrite c
  | .barrier =>
    let b : Barrier := ⟨c, barrierWaits d c, d.isLate c, false⟩
    { d with hre := { d.hre with barriers := d.hre.barriers ++ [b] } }.barrierTry b
  | .sceneCommit =>
    let d := { d with hre := { d.hre with commits := d.hre.commits ++ [(⟨c.id, d.writesOpen, none, false⟩ : CommitW)] } }
    d.actOrWait op c
  | .objSet => (d.objFetched c).actOrWait op c
  | .objKeyframe => (d.objFetched c).actOrWait op c
  | op => d.actOrWait op c

/-- A fetched descriptor: an unlisted code completes with BAD_OPCODE at once (R75). -/
def Dev.takeCmd (d : Dev) (c : Cmd) : Dev :=
  match opcodeOf c.code.toNat with
  | none => (d.enlist c).complete c ⟨.badOpcode, 0, 0⟩
  | some op => d.takeOp op c

/-! ## Rows -/

/-- The row of an opcode: a command that waits in the queue acts if its boundary has come; one that HRE has not yet taken is taken
now, unless the queue is full (R77). The rings are not served in OFF and STANDBY (R37), nor while HRE is disabled. -/
def Dev.row (d : Dev) (op : Opcode) (c : Cmd) : Dev :=
  let c := c.withOp op
  if !d.awake || !d.works hreBase then d
  else if d.hre.paq.any (fun e => e.cmd.id == c.id) then (d.applyEntry ⟨op, c⟩).afterCommands
  else if d.paqTaken then d.raise F.paqFull
  else (d.takeOp op c).afterCommands

/-- Data in host memory that a command names, as the active sends it with the command (R393). -/
def Dev.namedData (d : Dev) (c : Cmd) : List Nat :=
  match opcodeOf c.code.toNat with
  | some .tableWrite => if Tw.inline c || (d.tableDetail c true).isSome then [] else d.hostData c (Tw.hostAddr c) (Tw.length c)
  | some .outBankLoad => d.hostData c (BankL.addr c) (min (BankL.length c) (bankSize d))
  | _ => []

/-- The active and the standby share what is left to do of a command (R393): the copy of its data, or a commit's boundary. -/
def Dev.shareCmd (d : Dev) (c : Cmd) : Dev :=
  match opcodeOf c.code.toNat with
  | some .tableWrite | some .outBankLoad | some .sceneCommit =>
    { d with tth := { d.tth with shared := d.tth.shared ++ [⟨c.id, none, false⟩] } }
  | _ => d

/-- A shared copy that this unit has made ends. -/
def Dev.shareEnd (d : Dev) (x : Share) : Dev :=
  match x.mine with
  | none => d
  | some err =>
    match takeFirst (fun (y : Copy) => y.write && y.cmd.id == x.id) d.hre.copies with
    | some (y, r) => { d with hre := { d.hre with copies := r } }.writeDone y.cmd err
    | none =>
      match d.out.banks.find? (fun e => match e.2.copying with | (c, _) :: _ => c.id == x.id | [] => false) with
      | some e => match e.2.copying with | (c, _) :: _ => d.bankLoaded (e.1 / 2) (e.1 % 2) c err | [] => d
      | none => d

/-- The standby has copied the data of a command: the active's copy ends, if it has been made (R393). -/
def Dev.peerCopied (d : Dev) (ring index : Nat) : Dev :=
  match d.tth.shared.find? (fun x => x.id.ring == ring && x.id.idx == index && !x.theirs) with
  | some x => (d.setShare x.id (fun x => { x with theirs := true })).shareEnd x
  | none => d

/-- NOP (R75); a code that R75 does not list completes with BAD_OPCODE. -/
def execNop (c : Cmd) (s : State) :=
  s.act (fun d => if d.awake && d.works hreBase && (opcodeOf c.code.toNat).isNone then (if d.paqTaken then d.raise F.paqFull else d.takeCmd c) else d.row .nop c)
/-- BARRIER (R80). -/
def execBarrier (c : Cmd) (s : State) := s.act (·.row .barrier c)
/-- BARRIER_COMPLETE (R80). -/
def execBarrierComplete (s : State) := s.act (fun d => if d.awake then d.barriers else d)
/-- TABLE_WRITE (R82, R83). -/
def execTableWrite (c : Cmd) (s : State) := s.act (·.row .tableWrite c)
/-- TABLE_WRITE_COPY_DONE (R83 to R85): the first write in progress ends, whole or after `err` bytes. -/
def execTableWriteCopyDone (err : Option Nat) (s : State) := s.act (fun d => (d.copyWriteDone err).commitTell)
/-- HELD_WRITE_START (R89). -/
def execHeldWriteStart (s : State) := s.act (·.startHeld)
/-- TABLE_READ (R86). -/
def execTableRead (c : Cmd) (s : State) := s.act (·.row .tableRead c)
/-- TABLE_READ_COPY_DONE (R86). -/
def execTableReadCopyDone (err : Option Nat) (s : State) := s.act (·.copyReadDone err)
/-- SCENE_COMMIT with DISCARD = 0 (R87). -/
def execSceneCommit (c : Cmd) (s : State) := s.act (·.row .sceneCommit (c.withBits 16 1 0))
/-- SCENE_COMMIT with DISCARD = 1 (R87). -/
def execSceneCommitDiscard (c : Cmd) (s : State) := s.act (·.row .sceneCommit (c.withBits 16 1 1))
/-- SCENE_COMMIT_ACT (R88, R116): commits that waited act where they can. -/
def execSceneCommitAct (s : State) :=
  s.act (fun d => ((d.hre.paq.filter (fun e => (d.commitW e.cmd.id).late)).foldl Dev.applyEntry d).afterCommands)
/-- PAN_VALIDATE (R115, R116). -/
def execPanValidate (s : State) := s.act (·.commitValidates)
/-- OBJ_SET (R111, R114). -/
def execObjSet (c : Cmd) (s : State) := s.act (·.row .objSet c)
/-- OBJ_KEYFRAME (R112 to R114). -/
def execObjKeyframe (c : Cmd) (s : State) := s.act (·.row .objKeyframe c)
/-- XPT_NODES (R170). -/
def execXptNodes (c : Cmd) (s : State) := s.act (·.row .xptNodes c)
/-- XPT_RAMP_SET (R177). -/
def execXptRampSet (c : Cmd) (s : State) := s.act (·.row .xptRampSet c)
/-- MTR_CFG (R190). -/
def execMtrCfg (c : Cmd) (s : State) := s.act (·.row .mtrCfg c)
/-- OUT_BANK_LOAD (R207, R208). -/
def execOutBankLoad (c : Cmd) (s : State) := s.act (·.row .outBankLoad c)
/-- OUT_SWAP (R210). -/
def execOutSwap (c : Cmd) (s : State) := s.act (·.row .outSwap c)
/-- PATCH_SET (R222). -/
def execPatchSet (c : Cmd) (s : State) := s.act (·.row .patchSet c)
/-- PORT_CFG (R252). -/
def execPortCfg (c : Cmd) (s : State) := s.act (·.row .portCfg c)
/-- STREAM_CFG (R313). -/
def execStreamCfg (c : Cmd) (s : State) := s.act (·.row .streamCfg c)
/-- FMN_SUBMIT (R459, R460). -/
def execFmnSubmit (c : Cmd) (s : State) := s.act (·.row .fmnSubmit c)
/-- FMN_CANCEL (R463, R464). -/
def execFmnCancel (c : Cmd) (s : State) := s.act (·.row .fmnCancel c)
/-- TIME_STEER with OP SET (R334). -/
def execTimeSteerSet (c : Cmd) (s : State) := s.act (·.row .timeSteer (c.withBits 17 8 0))
/-- TIME_STEER with OP STEP (R334). -/
def execTimeSteerStep (c : Cmd) (s : State) := s.act (·.row .timeSteer (c.withBits 17 8 1))
/-- TIME_STEER with OP RATE (R334). -/
def execTimeSteerRate (c : Cmd) (s : State) := s.act (·.row .timeSteer (c.withBits 17 8 2))
/-- TIME_STEER with OP OFFSET (R334, R338). -/
def execTimeSteerOffset (c : Cmd) (s : State) := s.act (·.row .timeSteer (c.withBits 17 8 3))
/-- REF_CMD SELECT (R359). -/
def execSelect (c : Cmd) (s : State) := s.act (·.row .refCmd (c.withBits 16 8 0))
/-- REF_CMD RELEASE (R359). -/
def execRelease (c : Cmd) (s : State) := s.act (·.row .refCmd (c.withBits 16 8 1))
/-- REF_CMD DCO (R366). -/
def execDco (c : Cmd) (s : State) := s.act (·.row .refCmd (c.withBits 16 8 2))
/-- REF_CMD DCO_OFF (R366). -/
def execDcoOff (c : Cmd) (s : State) := s.act (·.row .refCmd (c.withBits 16 8 3))
/-- REF_CMD PHASE_STEP (R366). -/
def execPhaseStep (c : Cmd) (s : State) := s.act (·.row .refCmd (c.withBits 16 8 4))
/-- REF_CMD REALIGN (R370). -/
def execRealign (c : Cmd) (s : State) := s.act (·.row .refCmd (c.withBits 16 8 5))
/-- REF_CMD REQUALIFY (R373). -/
def execRequalify (c : Cmd) (s : State) := s.act (·.row .refCmd (c.withBits 16 8 6))
/-- BANK_COPY_DONE (R208): the first load that copies into bank `b` of chain `ch` ends, whole or after `err` bytes. -/
def execBankCopyDone (ch : Fin 1024) (b : Fin 2) (err : Option Nat) (s : State) := s.act (·.bankCopyDone ch.val b.val err)
/-- BANK_TRANSFORM_DONE (R209). -/
def execBankTransformDone (ch : Fin 1024) (b : Fin 2) (s : State) := s.act (·.bankTransformDone ch.val b.val)
/-- BANK_RESTART (R209). -/
def execBankRestart (ch : Fin 1024) (b : Fin 2) (s : State) := s.act (fun d => (d.bankRestart ch.val b.val).judgeBanks)
/-- CROSSFADE_END (R211, R212). -/
def execCrossfadeEnd (s : State) := s.act (fun d => d.endFades.judgeBanks)
/-- MTR_SNAPSHOT (R191, R192). -/
def execMtrSnapshot (s : State) := s.act (·.mtrSnapshot)
/-- PAN_COMPUTE (R134): the sets of every enabled object up to tick c + 4, from the tables as they stand. -/
def execPanCompute (s : State) :=
  s.act (fun d => if d.running && d.awake then d.panCompute else d)
/-- The readmission decision of R155 over the history of P: A grows to the least of the last READMIT_HOLD values, never past the
latest. -/
def Dev.readmit (d : Dev) : Dev :=
  match d.obj.pHist with
  | [] => d
  | p :: _ =>
    let n := (enabledObjs d).length
    let a := admitCount (d.lat R.OBJ_LANE_CFG_READMIT_HOLD) d.obj.admitted p d.obj.pHist
    { d with obj := { d.obj with admitted := a } }.setFlds [(R.OBJ_ADMIT_ADMITTED, a), (R.OBJ_ADMIT_SHED, n - a)]

/-- OBJECT_READMIT (R155). -/
def execObjectReadmit (s : State) := s.act (fun d => if d.top.st = .run && d.works objBase then d.readmit else d)
/-- LANE_LOST (R159): lane `l` fails its parity check or does not complete its block. -/
def execLaneLost (l : Fin 32) (parity : Bool) (s : State) := s.act (fun d => if d.top.st = .run then d.laneLost l.val parity else d)
/-- PARITY (R194): in the ramp state of node `n`, from sample `k` of the block on. -/
def execParity (n : Fin 1048576) (k : Fin 64) (s : State) := s.act (fun d => if d.top.st = .run then d.xptParity n.val k.val else d)

end Sys2Proof.Machine
end

