-- ==== Sys2Proof/Machine/Tth.lean ====
section
/-! DEFINITION. Tether (spec 13): roles and ownership, heartbeats, HELLO, markers, mirroring, fitness, trips, takeover and handover. -/
namespace Sys2Proof.Machine

/-! ## What TTH shows (R416, R419, R420) -/

/-- This part is the primary of its pair: ROLE strapped low (R382). -/
def Dev.primary (d : Dev) : Bool := !d.boot.role

def Dev.peerPresent (d : Dev) : Bool := d.tth.linkOk && d.tth.peer.isSome

/-- The peer is reported ACTIVE by a current HELLO. -/
def Dev.peerActive (d : Dev) : Bool :=
  d.tth.linkOk && (match d.tth.peer with | some h => h.role == .active | none => false)

/-- TTH_STAT as read. -/
def tthStat (d : Dev) : Nat :=
  let t := d.tth
  t.role.code * 2 ^ 28 + d.fitCode * 2 ^ 26 + b2n t.ownOut * 2 ^ 25 + b2n t.ownIn * 2 ^ 24 + b2n t.hbOk * 2 ^ 23 + b2n t.linkOk * 2 ^ 22
    + b2n d.peerPresent * 2 ^ 21 + b2n (!t.own.isEmpty) * 2 ^ 20 + b2n d.boot.role * 2 ^ 19

/-- TTH_UNFIT as read: the unit's own causes on a standby, else the peer's. -/
def tthUnfit (d : Dev) : Nat :=
  if d.tth.role = .standby then d.ownCauses else match d.tth.peer with | some h => h.causes % 512 | none => 0

/-- The PAIR word of the status page (R419). -/
def pairWord (d : Dev) : Nat := tthStat d / 2 ^ 20 * 2 ^ 20 + tthUnfit d % 16 * 2 ^ 16

/-- What TTH reports (R420). -/
def tthHealth (d : Dev) : UState × Nat :=
  let t := d.tth
  if t.role = .barred ∨ bitAt (d.hd tthBase).event.toNat F.pairMismatch.bit = true then (.degraded, 4)
  else if t.peerLost = true ∨ (t.role = .active ∧ d.standbyPresent = false) then (.degraded, 1)
  else if (t.role = .standby ∨ d.standbyPresent = true) ∧ d.fitCode ≠ 0 then (.degraded, 2)
  else if t.hbOk = false ∨ t.linkOk = false then (.degraded, 3)
  else (.ok, 0)

/-- FIT_CHG follows the fitness (R418). -/
def Dev.fitCheck (d : Dev) : Dev :=
  let d := if d.tth.handed && d.tetherLocked then { d with tth := { d.tth with handed := false } } else d
  if d.fitCode = d.tth.fit then d else { d with tth := { d.tth with fit := d.fitCode } }.raise F.fitChg

/-! ## Full mirrors (R402 to R404) -/

/-- Raise an UNFIT cause. -/
def Dev.cause (d : Dev) (i : Nat) (on : Bool) : Dev := { d with tth := { d.tth with causes := setBits d.tth.causes i 1 (b2n on) } }

/-- Registers of R395, which a full mirror brings. -/
def mirrorRegList : List Nat :=
  [0x10C, 0xB0100, 0x110130, 0x110134] ++ (List.range 7).map (fun i => 0xE0100 + 4 * i) ++ (List.range 5).map (fun i => 0xF0100 + 4 * i)
    ++ (List.range 64).map (fun i => 0xD0200 + 4 * i)

/-- All that the transfer of a full mirror sends (R403): both copies of every table, both banks of every chain, the registers of R395, each
core's image and the persistent region that it declares. -/
def xferPlan (d : Dev) : List Piece :=
  mirrorRegList.map Piece.reg
    ++ (stagedTables ++ [T.fmnTask]).flatMap (fun t => (cut (tableSize t)).flatMap (fun x =>
        .table t false x.1 x.2 :: (if hasStaged t then [Piece.table t true x.1 x.2] else [])))
    ++ (List.range d.nChain).flatMap (fun c => (cut (bankSize d)).flatMap (fun x => [Piece.bank c 0 x.1 x.2, Piece.bank c 1 x.1 x.2]))
    ++ (List.range 16).flatMap (fun k => match d.imageOf k with
        | some (n, _, _) => (cut n).map (fun x => Piece.core k x.1 x.2)
        | none => [])
    ++ d.persistPieces

/-- A full mirror starts; an active has all of the transfer to send. -/
def Dev.mirrorStart (d : Dev) : Dev :=
  (({ d with tth := { d.tth with mirror := .transfer, xfer := if d.tth.role = Role.active then xferPlan d else [] } }.setFld R.TTH_SETTLE_LEFT 0).count R.TTH_REMIRROR_COUNT).raise F.remirror

/-- SETTLE (R404). -/
def settleTicks (d : Dev) : Nat :=
  let cd := d.lat R.OBJ_LANE_CFG_CD_LOG2
  let up := fun (n k : Nat) => (n + k - 1) / k
  let b := d.blockB
  let base := max (winOf d + (if cd = 0 then 0 else 2 ^ cd)) (max (2 ^ d.lat R.OUT_CFG_DL_LOG2) (tapCap d))
  let rx := (listedRx (d.tab T.strRx).live).map (fun o => up (2 ^ StrE.bufLog2 o.2 * d.fs) (StrE.fn o.2 * b))
  rx.foldl max (up base b) + d.fld R.TOP_PIPE_DSP_LAG + 2

/-! ## Roles (R389 to R391) -/

/-- A claim made in the last microsecond. -/
def Dev.young (d : Dev) : Bool := match d.tth.claimed with | some n => decide (d.tbu.now ≤ n + 500) | none => false

/-- Ownership stands as it is: until H of a handover (R387), and where a cancelled one has left OWN_OUT released (R414). -/
def Dev.ownHeld (d : Dev) : Bool :=
  d.tth.kept || (match d.tth.handover with | some h => decide (d.top.tick < h) | none => false)

/-- The conditions for gaining ownership (R387). A secondary gains none in the microsecond in which it may still yield its claim (R391).
DEDUCED, log 143. -/
def Dev.mayOwn (d : Dev) : Bool := d.tth.ownOut && !d.tth.ownIn && (d.primary || !d.young)

/-- Stream transmission is owned while OWN_OUT is asserted and from when OWN_IN is not; during a handover it moves at H (R387). -/
def Dev.ownRefresh (d : Dev) : Dev :=
  let t := d.tth
  if d.ownHeld then d
  else if !t.ownOut then { d with tth := { t with ownStr := false } }
  else if d.mayOwn then { d with tth := { t with ownStr := true } }
  else d

/-- The UNFIT causes that outlast everything but a new boot: FW (R402). -/
def Tth.lasting (t : Tth) : Nat := setBits 0 1 1 (bits t.causes 1 1)

/-- The firmware digest of a peer differs from this part's (R392). -/
def Dev.fwDiffers (d : Dev) (h : Hello) : Bool := h.digest != (List.range 12).map (fun i => d.fld (R.TOP_FW_DIGEST_DIGEST i))

/-- JOIN to STANDBY: a full mirror starts, or the link is down; the peer's firmware is what its HELLO says (R390, R392, R402, R403). -/
def Dev.becomeStandby (d : Dev) : Dev :=
  let d := { d with tth := { d.tth with role := .standby, ownOut := false, claimed := none, handed := false, causes := d.tth.lasting, since := 0 } }
  let d := if d.tth.peer.any d.fwDiffers then d.cause 1 true else d
  (if d.tth.linkOk then d.mirrorStart else d.cause 0 true).ownRefresh

/-- The role is claimed: OWN_OUT is asserted (R390). -/
def Dev.becomeActive (d : Dev) : Dev :=
  { d with tth := { d.tth with role := .active, ownOut := true, claimed := some d.tbu.now } }.ownRefresh

/-- What a unit in JOIN does in RUN; `deferred` says that OWN_DEFER has run off (R390, R391). -/
def Dev.joinStep (d : Dev) (deferred : Bool) : Dev :=
  if d.works tthBase && d.tth.role == .join && d.top.st == .run then
    if d.tth.ownIn || d.peerActive then (d.raiseIf (!d.tth.ownIn) F.ownFault).becomeStandby
    else if d.primary || deferred then d.becomeActive
    else d
  else d

/-- No port is in repeat mode. -/
def Dev.endRepeats (d : Dev) : Dev := d.sap.ports.foldl (fun d e => d.setPort e.1 { d.port e.1 with rep := false }) d

/-- The link goes: mirroring and the TETHER reference are lost, commands that wait for an acknowledgement and copies that wait for the other
unit go on alone (R393, R411). -/
def Dev.linkLost (d : Dev) : Dev :=
  let wait := d.tth.acks
  let both := d.tth.shared
  let d := { d with tth := { d.tth with linkOk := false, markers := false, mirror := .idle, acks := [], miss := [], commits := [], shared := [],
                                        xfer := [] } }
  let d := both.foldl Dev.shareEnd d
  let d := if d.tth.role = .standby then d.cause 0 true else d
  let d := wait.foldl (fun d c => d.takeCmd { c with fetch := d.top.tick }) d
  if wait.isEmpty then d else d.afterCommands

/-- TTH is reset: its registers' sources are at their reset values (R48); what waits for an acknowledgement does so until the change of
enables or resets takes effect (`Dev.tthRefresh`). -/
def Dev.tthReset (d : Dev) : Dev :=
  { d with tth := { Tth.reset with ownIn := d.tth.ownIn, data := d.tth.data, acks := d.tth.acks, causes := d.tth.lasting } }.endRepeats

/-- EFF_EN and resets of TTH move the unit between SOLO and JOIN (R390). A unit that does not work hears no heartbeat and has no link. -/
def Dev.tthRefresh (d : Dev) : Dev :=
  if d.works tthBase then
    (if d.tth.role == .solo then { d with tth := { d.tth with role := .join } }.joinStep false else d)
  else if d.tth.role == .solo && d.tth.own.isEmpty && !d.tth.ownOut && !d.tth.hbOk && !d.tth.linkOk && d.tth.acks.isEmpty then d
  else
    let d := d.linkLost
    { d with tth := { d.tth with role := .solo, ownOut := false, own := [], ownStr := false, tripped := false, causes := d.tth.lasting, claimed := none, kept := false, since := 0,
                                 handover := none, incoming := false, handed := false, hbOk := false, peer := none, sent := none, line := [], peerLost := false,
                                 marker := none, realign := false, lossFit := false } }.endRepeats

/-- Entry into RUN: a unit out of the pair joins again (R390). -/
def Dev.tthEnterRun (d : Dev) : Dev :=
  let d := if d.tth.role = .retired ∨ d.tth.role = .barred then { d with tth := { d.tth with role := .join } } else d
  ({ d with tth := { d.tth with stall := false } }).joinStep false

/-- A tripped unit that owns no output and has released OWN_OUT retires (R390). -/
def Dev.retireCheck (d : Dev) : Dev :=
  if d.tth.role = .tripped ∧ d.tth.own = [] ∧ d.tth.ownOut = false then
    { d with tth := { d.tth with role := .retired, tripped := false } }
  else d

/-- Outputs that ownership governs (R387). -/
def ownable (d : Dev) (o : Nat) : Bool :=
  if o < 32 then true else if o < 40 then GFmt.clkSrc (d.gFmt (o - 32)) != 2 else d.flag R.TTH_CTL_GATE_CLK

/-- An output is given up: repeat mode on it ends (R275), RELEASED at the last. -/
def Dev.giveUp (d : Dev) (o : Nat) : Dev :=
  if d.tth.own.contains o then
    let d := { d with tth := { d.tth with own := d.tth.own.filter (· != o) } }
    let d := if o < 32 then d.setPort o { d.port o with rep := false } else d
    (d.raiseIf d.tth.own.isEmpty F.released).retireCheck
  else d

/-- Outputs that ownership no longer governs are given up. -/
def Dev.ownPrune (d : Dev) : Dev := (d.tth.own.filter (fun o => !ownable d o)).foldl Dev.giveUp d

/-- A frame boundary of output `o` (R387). -/
def Dev.ownership (d : Dev) (o : Nat) : Dev :=
  let t := d.tth
  if !d.works tthBase then d
  else if !ownable d o then d.giveUp o
  else if d.ownHeld then d
  else if d.mayOwn then { d with tth := { t with own := if t.own.contains o then t.own else t.own ++ [o] } }
  else if !t.ownOut then d.giveUp o
  else d

/-! ## Takeover and the loss of paths (R386, R408, R410, R411) -/

/-- The standby takes over once the peer is lost and OWN_IN deasserted (R408). -/
def Dev.takeover (d : Dev) : Dev :=
  if d.works tthBase && d.tth.role == .standby && d.tth.peerLost && !d.tth.ownIn && (d.tth.lossFit || d.flag R.TTH_CTL_TAKEOVER_WHEN_UNFIT) then
    ((({ d with tth := { d.tth with role := .active, ownOut := true, handover := none, mirror := .idle, causes := d.tth.lasting } }.ownRefresh).count
      R.TTH_TAKEOVER_COUNT).raise F.takeover)
  else d

/-- Heartbeat paths stop: the pin path, the link path or both at once. The link path sets TETHER_DOWN whenever it stops, the pin path
HB_LOST when it stops alone (R386, R418). With both stopped the peer is lost; its fitness is judged as it stood before this loss (R408). -/
def Dev.pathStop (d : Dev) (pin link : Bool) : Dev :=
  let pin := pin && d.tth.hbOk
  let link := link && d.tth.linkOk
  if !pin && !link then d
  else
    let fit := d.fitCode == 0
    let d := if pin then { d with tth := { d.tth with hbOk := false } } else d
    let d := if link then d.linkLost.raise F.tetherDown else d
    let lost := !d.tth.hbOk && !d.tth.linkOk
    if lost then { d with tth := { d.tth with peerLost := true, lossFit := fit } }.raise F.peerLost |>.takeover
    else if pin then d.raise F.hbLost
    else d

/-- The link is declared down (R393, R400): its path stops. -/
def Dev.declareDown (d : Dev) : Dev := d.pathStop false true

/-! ## Handover (R412 to R414) -/

/-- A handover is announced for boundary `h`; `incoming` on the unit that will become active. -/
def Dev.announce (d : Dev) (h : Nat) : Dev :=
  { d with tth := { d.tth with handover := some h, incoming := d.tth.role == Role.standby } }.setFld R.TTH_HANDOVER_TICK (h % 2 ^ 32)

/-- This unit announces a handover four ticks ahead, and says so to the other (R412). -/
def Dev.announceBoth (d : Dev) : Dev :=
  let h := d.top.tick + 4
  { d.announce h with tth := { (d.announce h).tth with line := d.tth.line ++ [(d.top.tick, Sent.announce h)] } }

/-- The write of TTH_CTL.HANDOVER. While a handover is announced no other starts. DESIGN CHOICE, log 120. -/
def Dev.handoverStart (d : Dev) : Dev :=
  if d.works tthBase && d.tth.role == .active && d.fitPresent && d.tth.handover.isNone then d.announceBoth else d

/-- A reclaim (R412). -/
def Dev.reclaim (d : Dev) : Dev :=
  if d.works tthBase && d.tth.role == .standby && d.primary && d.flag R.TTH_CTL_REVERT && d.fitCode == 0 && d.tth.handover.isNone then
    d.announceBoth
  else d

/-- A handover is cancelled before H when the incoming unit is no longer fit or its heartbeat has stopped; the outgoing unit keeps every
output, also while it waits for OWN_IN to assert OWN_OUT again (R414). -/
def Dev.handoverGuard (d : Dev) : Dev :=
  let t := d.tth
  match t.handover with
  | none => d
  | some h =>
    if h ≤ d.top.tick then d
    else if t.incoming then
      (if t.role == .standby && d.fitCode != 0 then { d with tth := { t with handover := none, incoming := false, ownOut := false } }.ownRefresh else d)
    else if t.role == .active && (!d.fitPresent || t.peerLost) then
      { d with tth := { t with handover := none, ownOut := t.ownOut || !t.ownIn, kept := !t.ownOut && t.ownIn } }.ownRefresh
    else d

/-- The steps of a handover at the current boundary (R413). Each unit knows from H on what the other has become. -/
def Dev.handoverStep (d : Dev) : Dev :=
  let t := d.tth
  match t.handover with
  | none => d
  | some h =>
    if !d.works tthBase then d
    else if d.top.tick + 1 = h then
      if t.incoming then (if t.role == .standby && !t.ownIn then { d with tth := { t with ownOut := true } } else d)
      else if t.role == .active then { d with tth := { t with ownOut := false } } else d
    else if h ≤ d.top.tick then
      if t.incoming && t.role == .standby then
        { d with tth := { t with role := .active, handover := none, incoming := false, markers := false, ownOut := t.ownOut || !t.ownIn,
                                 peer := t.peer.map (fun (h : Hello) => { h with role := Role.standby, fit := 0, causes := 0 }) } }.ownRefresh.raise F.handover
      else if !t.incoming && t.role == .active then
        { d with tth := { t with role := .standby, handover := none, handed := true, ownOut := false, causes := t.lasting, mirror := .idle,
                                 xfer := [], since := d.hre.serial, peer := t.peer.map (fun (h : Hello) => { h with role := Role.active }) } }.ownRefresh.raise F.handover
      else { d with tth := { t with handover := none, incoming := false } }
    else d

/-- A new level of OWN_IN counts (R384): yield of a claim (R391), claims, takeover, and the assertions that wait for it (R413, R414). -/
def Dev.ownInChange (d : Dev) (level : Bool) : Dev :=
  let d := { d with tth := { d.tth with ownIn := level } }
  if !d.works tthBase then d
  else
    let t := d.tth
    let d := if level && t.role == .active && !d.primary && d.young then d.becomeStandby else d
    let t := d.tth
    let late := match t.handover with | some h => decide (h ≤ d.top.tick + 1) | none => false
    let d := if !level && !t.ownOut && ((t.role == .active && t.handover.isNone) || (t.role == .standby && t.incoming && late)) then
        { d with tth := { t with ownOut := true, kept := false } } else d
    ((d.joinStep false).takeover).ownRefresh

/-! ## HELLO (R392) -/

/-- The HELLO that this unit sends. -/
def ownHello (d : Dev) : Hello :=
  ⟨0x5140, Config.sirev.toNat, d.boot.role, d.tth.role, d.fitCode, tthUnfit d, (List.range 12).map (fun i => d.fld (R.TOP_FW_DIGEST_DIGEST i)),
    (d.reg R.TOP_RATE_TICK_RUN.addr).toNat, d.top.tick⟩

def Dev.helloSend (d : Dev) : Dev :=
  if d.works tthBase && d.tth.linkOk then { d with tth := { d.tth with sent := some (ownHello d) } } else d

/-- An identity mismatch (R392): the unit in JOIN is barred; of two in JOIN with different parts the primary goes on alone. -/
def Dev.mismatch (d : Dev) (h : Hello) (k : Nat) : Dev :=
  let d := (d.setFld R.TTH_PEER_MISMATCH k).raise F.pairMismatch
  if d.tth.role = .join ∧ ¬(k = 1 ∧ h.role = .join ∧ d.primary = true) then { d with tth := { d.tth with role := .barred } } else d

/-- What a standby checks against the active's HELLO: firmware, and the tick count. TOP_RATE is compared as it stands (CONFIG). -/
def Dev.helloStandby (d : Dev) (h : Hello) : Dev :=
  let d := if d.fwDiffers h then d.cause 1 true else d
  if h.role = .active ∧ h.tick ≠ d.top.tick ∧ d.tth.realign = false then
    ((({ d with tth := { d.tth with realign := true } }.cause 4 true).count R.TTH_REALIGN_COUNT).raise F.tthRealign).mirrorStart
  else d

/-- An active follows the standby's mirror as its HELLO reports it. -/
def Dev.helloActive (d : Dev) (h : Hello) : Dev :=
  if h.role = .standby ∧ h.fit = 1 then (if d.tth.mirror = .idle then d.mirrorStart else d)
  else if h.fit = 2 then d else { d with tth := { d.tth with mirror := .idle } }

def Dev.hello (d : Dev) (h : Hello) : Dev :=
  if !d.works tthBase || !d.tth.linkOk then d
  else
    let d := { d with tth := { d.tth with peer := some h } }.setFlds [(R.TTH_PEER_PART, h.part), (R.TTH_PEER_SIREV, h.sirev)]
    if h.part ≠ 0x5140 ∨ h.sirev ≠ Config.sirev.toNat then d.mismatch h 1
    else if h.rolePin = d.boot.role then d.mismatch h 2
    else
      let d := (d.setFld R.TTH_PEER_MISMATCH 0).joinStep false
      if d.tth.role = .standby then d.helloStandby h else if d.tth.role = .active then d.helloActive h else d

/-! ## Markers (R396 to R399, R401, R405) -/

/-- A group is declared locked or free by the active. -/
def Dev.groupDeclared (d : Dev) (g : Nat) (free : Bool) : Dev :=
  let dev := d.fld (R.GRP_STAT_DEV g)
  let out := d.flag (R.GRP_STAT_RATE_OUT g)
  if free && !out then (d.rateWindow g 1001).setFld (R.GRP_STAT_DEV g) dev
  else if !free && out then d.rateRecover g
  else d

/-- A receive stream is declared locked or free. -/
def Dev.streamDeclared (d : Dev) (s : Nat) (free : Bool) : Dev :=
  let out := d.flag (R.STR_RX_STAT_RATE_OUT s)
  if free && !out then (d.setFld (R.STR_RX_STAT_RATE_OUT s) 1).raise F.strRateChg
  else if !free && out then d.strRateRecover s
  else d

/-- State and estimate of an ASRC channel as the active has them. -/
def Dev.asrcDeclared (d : Dev) (a st : Nat) (est : Int) : Dev := d.asrcMirror a st est

/-- Offset of base `b` from the active at the marker's boundary, in 2^-64 ns. -/
def baseOffset (d : Dev) (m : Marker) (b : Nat) : Int :=
  sx 96 ((d.fld (R.TB_TICK_NS_NS b) * 2 ^ 64 + d.fld (R.TB_TICK_FRAC_FRAC b) * 2 ^ 32 + 2 ^ 96 - m.bases.getD b 0 % 2 ^ 96) % 2 ^ 96)

/-- The bases against the active's (R398): the largest offset is shown, 1 µs decides TIME; the loop that follows sets rates that the spec
does not give. -/
def Dev.markerBases (d : Dev) (m : Marker) : Dev :=
  let θ := (List.range 4).map (baseOffset d m)
  let worst := θ.foldl (fun w x => if w.natAbs < x.natAbs then x else w) 0
  let us : Nat := 1000 * 2 ^ 64
  let d := if θ.any (fun x => decide (us < x.natAbs)) then d.cause 3 true
    else if θ.all (fun x => decide (x.natAbs < us)) then d.cause 3 false else d
  let ns := worst / 2 ^ 64 + (if worst % 2 ^ 64 = 0 then 0 else (d.freeNat 4 % 2 : Nat))
  let d := d.setFld R.TTH_TBOFS_OFS (tc 32 (satS 32 ns))
  ((List.range 4).foldl (fun d b => d.setFld (R.TB_RATE_RATE b) (tc 32 (clampI (-500000000) 500000000 (sx 32 (d.freeNat b))))) d).drew 5

/-- The digests (R402, R404, R405). -/
def Dev.markerDigests (d : Dev) (m : Marker) : Dev :=
  let agree := d.digest == m.digest
  let d := match d.tth.mirror with
    | .transfer => d
    | .idle => if agree then d else (d.cause 2 true).mirrorStart
    | .settling =>
      if !agree then (d.cause 2 true).mirrorStart
      else if d.fld R.TTH_SETTLE_LEFT = 0 then { d with tth := { d.tth with mirror := .idle } }
      else d
  if d.tth.outNow = m.outDigest then d else ((d.count R.TTH_DIVERGE_COUNT).raise F.diverge).note .tthDiverge

/-- BUDGET (R399, R402). -/
def Dev.markerBudget (d : Dev) (m : Marker) : Dev :=
  let own := d.fld R.PWR_LEVEL_OWN
  if own < m.level then d.cause 6 true else if own = m.level then d.cause 6 false else d

/-- A marker compared at its boundary. -/
def Dev.markerCheck (d : Dev) : Dev :=
  match d.tth.marker with
  | some m =>
    if d.works tthBase && d.isStandby && m.tick == d.top.tick && d.tth.markers then
      (((d.markerDigests m).markerBases m).markerBudget m).refFollow
    else d
  | none => d

/-! ## Frames received (R400) -/

/-- A frame of the link arrives: one that is neither the next nor awaited again is not taken (log 142). CVU1 checks it; at a failure it is
awaited again, and after four failures of one frame the link is declared down (R400). One that passes has its effect `f`. -/
def Dev.linkFrame (d : Dev) (h : FrameHead) (f : Dev → Dev) : Dev :=
  let q := h.seq.toNat
  let fails := match d.tth.miss.find? (fun x => x.1 == q) with | some x => x.2 | none => 0
  if fails = 0 ∧ q ≠ d.tth.rxNext then d
  else
    let miss := d.tth.miss.filter (fun x => x.1 != q)
    let d := { d with tth := { d.tth with rxNext := if fails = 0 then (q + 1) % 2 ^ 32 else d.tth.rxNext, miss := miss } }
    let pre := leBytes 8 q
    let on := d.works (cvuBase 1)
    let (v, d) := d.cvuCompute 1 pre h.payload
    if on && v != h.crc.toNat then
      let d := d.cvuFail 1 pre v h.crc.toNat
      if fails < 3 then
        ({ d with tth := { d.tth with miss := (q, fails + 1) :: miss } }.tthSend (fun g => .frame ⟨g, d.top.tick, .resend h.seq⟩)).count
          R.TTH_RETRY_COUNT
      else d.declareDown
    else f d

/-! ## Markers sent and received (R396) -/

/-- The marker of boundary `t` that an active sends (R396). -/
def ownMarker (d : Dev) (h : FrameHead) : Marker :=
  ⟨h, d.top.tick, d.tbu.now,
    (List.range 4).map (fun b => d.fld (R.TB_TICK_NS_NS b) * 2 ^ 64 + d.fld (R.TB_TICK_FRAC_FRAC b) * 2 ^ 32),
    d.levelNow, d.digest, d.tth.outNow,
    (List.finRange 8).map (fun g => (g, d.flag (R.GRP_STAT_RATE_OUT g))),
    (List.finRange 256).map (fun s => (s, d.flag (R.STR_RX_STAT_RATE_OUT s))),
    (List.finRange 256).map (fun a => (a, Fin.ofNat 4 (d.asrcState a), (d.asrc a).est))⟩

/-- An active sends its marker at every boundary. -/
def Dev.markerSend (d : Dev) : Dev := if d.pairActive then d.tthSend (fun h => .marker (ownMarker d h)) else d

/-- What a tick marker brings to a standby. -/
def Dev.markerIn (d : Dev) (x : MarkerIn) : Dev :=
    let m := x.marker
    let d := { d with tth := { d.tth with marker := some m, markers := true } }
    let d := d.setFld R.TTH_LINK_DELAY (clampI 0 0xFFFF (x.delay + sx 16 (d.fld R.TTH_SKEW_SKEW))).toNat
    let d := m.groups.foldl (fun d g => d.groupDeclared g.1.val g.2) d
    let d := m.streams.foldl (fun d x => d.streamDeclared x.1.val x.2) d
    let d := m.asrc.foldl (fun d a => d.asrcDeclared a.1.val a.2.1.val a.2.2) d
    d.markerCheck

/-- A tick marker arrives at a standby. -/
def Dev.tickMarker (d : Dev) (x : MarkerIn) : Dev :=
  if d.works tthBase && d.tth.linkOk then d.linkFrame x.marker.head (fun d => if d.isStandby then d.markerIn x else d) else d

/-! ## Mirroring (R393 to R395, R400, R403) -/

/-- A command mirrored by the active is taken, with the data it names in host memory, and acknowledged (R393). -/
def Dev.takeMirrored (d : Dev) (c : Cmd) (data : List Nat) : Dev :=
  let c := { c with ring := 256 + c.ring % 64, fetch := d.top.tick, seq := d.hre.serial }
  let d := { d with tth := { d.tth with data := d.tth.data ++ [(c.id, data)], line := d.tth.line ++ [(d.top.tick, Sent.ack d.top.tick)] } }
  ((d.shareCmd c).takeCmd c).afterCommands

/-- A mirrored command arrives. One that finds the queue full is not taken, so the active hears no acknowledgement. DESIGN CHOICE, log 101. -/
def Dev.mirrorCommand (d : Dev) (m : MirrorCmd) (data : List Nat) : Dev :=
  if d.works tthBase && d.tth.linkOk then
    d.linkFrame m.head (fun d => if d.isStandby && d.awake && !d.paqTaken then d.takeMirrored m.cmd data else d)
  else d

/-- The standby acknowledges the oldest command that waits, with its tick. -/
def Dev.mirrorAck (d : Dev) (cs : Nat) : Dev :=
  match d.tth.acks with
  | [] => d
  | c :: r =>
    let c := { c with fetch := cs }
    ((({ d with tth := { d.tth with acks := r } }.shareCmd c).takeCmd c)).afterCommands

/-- No acknowledgement in 50 µs. -/
def Dev.ackTimeout (d : Dev) : Dev := if d.tth.acks.isEmpty then d else d.declareDown

/-- The content of a piece as it stands; DRAM is read over the fabric. -/
def Dev.readPiece (d : Dev) : Piece → Chunk × Dev
  | .table t st o n => (.table t 0 st o (loadBytes (readMap t (if st then (d.tab t).staged else (d.tab t).live)) o n), d)
  | .bank ch b o n => (.bank ch b o (loadBytes (d.bankOf ch b).image o n), d)
  | .dram a n =>
    match d.dramRead .tth a n with
    | (some l, d) => (.dram a l, d)
    | (none, d) => (.none, d)
  | .core k o n => (.core k o (memRead d.localMem (k * 0x80000 + o) n), d)
  | .reg a => (.reg a (d.reg a) d.top.tick, d)

/-- The piece of a transfer that a frame brings, if it brings one. -/
def Chunk.piece : Chunk → Option Piece
  | .table t _ st o l => some (.table t st o l.length)
  | .bank ch b o l => some (.bank ch b o l.length)
  | .dram a l => some (.dram a l.length)
  | .core k o l => some (.core k o l.length)
  | _ => Option.none

/-- The next piece of the transfer goes out, one a tick (R403). DESIGN CHOICE, log 142. -/
def Dev.transferStep (d : Dev) : Dev :=
  if d.pairActive && d.tth.mirror == .transfer then
    match d.tth.xfer with
    | [] => d
    | p :: r =>
      let (c, d) := { d with tth := { d.tth with xfer := r } }.readPiece p
      d.tell c
  else d

/-- The sequence number of what was sent. -/
def Sent.seq : Sent → Option (BitVec 32)
  | .command m _ => some m.head.seq
  | .marker m => some m.head.seq
  | .frame f => some f.head.seq
  | .state m => some m.head.seq
  | .ack _ => none
  | .announce _ => none

/-- What was sent goes out again; a piece of a transfer as it stands now (R400, R403). -/
def Dev.sendAgain (d : Dev) (x : Sent) : Dev :=
  let put := fun (d : Dev) (x : Sent) => { d with tth := { d.tth with line := d.tth.line ++ [(d.top.tick, x)] } }
  match x with
  | .frame f =>
    match f.chunk.piece with
    | some p =>
      let (c, d) := d.readPiece p
      let (h, d) := d.frameHead f.head.seq.toNat
      put d (.frame ⟨h, d.top.tick, c⟩)
    | none => put d x
  | x => put d x

/-- The other unit asks for a frame again; each resend counts (R400). -/
def Dev.resend (d : Dev) (q : BitVec 32) : Dev :=
  match d.tth.line.find? (fun x => x.2.seq == some q) with
  | some x => (d.sendAgain x.2).count R.TTH_RETRY_COUNT
  | none => d

/-- What a mirror frame brings to a standby is written. -/
def Dev.mirrored (d : Dev) : Chunk → Dev
  | .table t _ staged o l =>
    let x := d.tab t
    d.setTab t (if staged then { x with staged := storeBytes x.staged o l } else { x with live := storeBytes x.live o l })
  | .bank ch b o l => let x := d.bankOf ch (b % 2); d.setBank ch (b % 2) { x with image := storeBytes x.image o l }
  | .dram a l => (d.dramWrite .tth a l).2
  | .core k o l => { d with localMem := memWrite d.localMem (k * 0x80000 + o) l }
  | .reg a v t => { d with tth := { d.tth with regs := d.tth.regs ++ [(t, a, v)] } }
  | .list l n t => { d with tth := { d.tth with lists := d.tth.lists ++ [(t, l, n)] } }
  | .wrote err v wrong => d.writeTold err v wrong
  | .loaded ch b err v wrong => d.bankTold ch (b % 2) err v wrong
  | .restart ch b tr late =>
    let x := d.bankOf ch (b % 2)
    if x.copied.any (·.1.mirrored) then ((d.setBank ch (b % 2) { x with tr := some (tr, late) }).bankRestart ch (b % 2)).judgeBanks else d
  | .commit r i t => { d with tth := { d.tth with commits := (d.tth.commits.filter (fun x => !(x.1 == r && x.2.1 == i))) ++ [(r, i, t)] } }
  | .copied _ _ => d
  | .resend _ => d
  | .none => d

/-- What a mirror frame says: a request for another goes to the sender, a copy's end to the active, the rest to a standby. A piece of the
transfer that has missed its tick is asked for again and not written (R403). -/
def Dev.chunk (d : Dev) (f : MirrorFrame) : Dev :=
  match f.chunk with
  | .resend q => d.resend q
  | .copied r i => (d.peerCopied r i).commitTell
  | c =>
    if !d.isStandby then d
    else if d.tth.mirror == .transfer && c.piece.isSome && f.tick != d.top.tick then
      ({ d with tth := { d.tth with miss := (f.head.seq.toNat, 1) :: d.tth.miss } }.tthSend (fun g => .frame ⟨g, d.top.tick, .resend f.head.seq⟩)).count
        R.TTH_RETRY_COUNT
    else d.mirrored c

/-- A mirror frame arrives (R400): numbers and check values are followed in every role. -/
def Dev.mirrorFrame (d : Dev) (f : MirrorFrame) : Dev :=
  if d.works tthBase && d.tth.linkOk then d.linkFrame f.head (·.chunk f) else d

/-- A renderer state as copied: everything but the input blocks, which settling brings (R403, R404). -/
def copyObjR (t : Nat) (own o : ObjR) : ObjR := { o with hist := own.hist, since := if own.on then own.since else t }

/-- A chain's state as copied: everything but the convolution's and the delay line's inputs. -/
def copyChain (t : Nat) (own c : ChainR) : ChainR :=
  { c with since := if own.on then own.since else t,
            bankA := { c.bankA with hist := own.bankA.hist }, bankB := { c.bankB with hist := own.bankB.hist }, line := own.line }

/-- The active's running state that has no finite memory, as it stands at S (R403). -/
def ownState (d : Dev) (h : FrameHead) : MirrorState :=
  ⟨h, d.xpt, d.obj, d.out, d.slp, d.fmn, (List.range 4).map (fun b => d.fld (R.TB_TICK_NS_NS b) * 2 ^ 64 + d.fld (R.TB_TICK_FRAC_FRAC b) * 2 ^ 32)⟩

/-- A standby resumes from the active's state and starts settling. -/
def Dev.stateIn (d : Dev) (m : MirrorState) : Dev :=
    let rend := m.obj.rend.foldl (fun r e => smSet (fun _ => ObjR.zero) r e.1 (copyObjR d.top.tick (d.rendOf e.1) e.2)) []
    let chains := m.out.chains.foldl (fun r e =>
      smSet (fun _ => ChainR.zero) r e.1 (copyChain d.top.tick (smGet (fun _ => ChainR.zero) d.out.chains e.1) e.2)) []
    let d := { d with xpt := m.xpt, obj := { d.obj with moves := m.obj.moves, rend := rend, admitted := m.obj.admitted, pHist := m.obj.pHist },
                      out := { m.out with chains := chains, banks := d.out.banks }, slp := m.slp, fmn := m.fmn,
                      tth := { d.tth with mirror := .settling } }
    let d := ((List.range 4).foldl (fun d b => d.baseJump b (m.bases.getD b 0)) d).dropAllSets d.top.tick
    (((d.cause 0 false).cause 2 false).cause 4 false).setFld R.TTH_SETTLE_LEFT (settleTicks d)

/-- The state copy at boundary S (R403): an active that has sent all of the transfer sends it; a standby takes it. -/
def Dev.stateCopy (d : Dev) (m : MirrorState) : Dev :=
  if !d.works tthBase then d
  else if d.tth.role = .active then
    if d.pairActive && d.tth.mirror == .transfer && d.tth.xfer.isEmpty then
      { d with tth := { d.tth with mirror := .settling } }.tthSend (fun h => .state (ownState d h))
    else d
  else if d.tth.linkOk then d.linkFrame m.head (fun d => if d.isStandby && d.tth.mirror == .transfer then d.stateIn m else d)
  else d

/-- The settling count has reached 0 and the marker agrees (R404). -/
def Dev.settleDone (d : Dev) : Dev :=
  match d.tth.marker with
  | some m =>
    if d.isStandby && d.tth.mirror == .settling && d.fld R.TTH_SETTLE_LEFT == 0 && m.tick == d.top.tick && d.digest == m.digest then
      { d with tth := { d.tth with mirror := .idle } }
    else d
  | none => d

/-- The Tether link comes up: HELLO goes out and a full mirror starts (R392, R403). Frames are numbered from 0 (log 142). -/
def Dev.linkUp (d : Dev) : Dev :=
  if !d.works tthBase || d.tth.linkOk then d
  else
    let d := { d with tth := { d.tth with linkOk := true, peerLost := false, line := [], txSeq := 0, rxNext := 0, miss := [] } }
    let d := if d.tth.role = .standby ∨ (d.tth.role = .active ∧ d.standbyPresent = true) then d.mirrorStart else d
    d.helloSend

/-- What a tick boundary does in TTH before its commands: the heartbeat's tick condition, settling, a handover that can no longer run. -/
def Dev.tthBoundary (d : Dev) : Dev :=
  if !d.effEn tthBase then d
  else
    let left := d.fld R.TTH_SETTLE_LEFT
    let d := { d with tth := { d.tth with stall := false, line := d.tth.line.filter (fun x => decide (d.top.tick ≤ x.1 + 1)) } }
    let d := if left = 0 then d else d.setFld R.TTH_SETTLE_LEFT (left - 1)
    d.ownPrune.handoverGuard.ownRefresh

/-- The handover's steps, after the commands of the boundary, which the units still take in their old roles (R413). Log 82. -/
def Dev.tthHandover (d : Dev) : Dev := if d.effEn tthBase then d.handoverStep.ownRefresh else d

/-- After an event of TTH: ownership and references and the DSPC frequency follow the role and the level, fitness is reported, a handover that can no longer
run is cancelled. -/
def Dev.tthAfter (d : Dev) : Dev := ((d.ownPrune.handoverGuard.ownRefresh.refFollow).fitCheck).dspFreq

/-- An event of TTH. -/
def Dev.tthAct (d : Dev) (f : Dev → Dev) : Dev := (f d).tthAfter

/-! ## Meanings -/

/-- HELLO (R392). -/
def execHello (h : Hello) (s : State) := s.act (·.tthAct (·.hello h))
/-- HELLO_SEND (R392). -/
def execHelloSend (s : State) := s.act (·.helloSend)
/-- TICK_MARKER (R396). -/
def execTickMarker (m : MarkerIn) (s : State) := s.act (·.tthAct (·.tickMarker m))
/-- MIRROR_COMMAND (R393). -/
def execMirrorCommand (m : MirrorCmd) (data : List Nat) (s : State) := s.act (·.tthAct (·.mirrorCommand m data))
/-- MIRROR_ACK (R393). -/
def execMirrorAck (cs : Nat) (s : State) := s.act (·.mirrorAck cs)
/-- MIRROR_ACK_TIMEOUT (R393). -/
def execMirrorAckTimeout (s : State) := s.act (·.tthAct (·.ackTimeout))
/-- MIRROR_FRAME (R400). -/
def execMirrorFrame (f : MirrorFrame) (s : State) := s.act (·.tthAct (·.mirrorFrame f))
/-- MIRROR_STATE_COPY (R403). -/
def execMirrorStateCopy (m : MirrorState) (s : State) := s.act (·.tthAct (·.stateCopy m))
/-- SETTLE_DONE (R404). -/
def execSettleDone (s : State) := s.act (·.tthAct (·.settleDone))
/-- TETHER_LINK_UP (R403). -/
def execTetherLinkUp (s : State) := s.act (·.tthAct (·.linkUp))
/-- TETHER_DOWN (R386, R411): the link path stops. -/
def execTetherDown (s : State) := s.act (·.tthAct (·.declareDown))
/-- HB_LOST (R384, R386): the paths named are declared stopped. -/
def execHbLost (pin link : Bool) (s : State) := s.act (·.tthAct (·.pathStop pin link))
/-- HB_PATH_ALIVE (R384). -/
def execHbPathAlive (s : State) :=
  s.act (·.tthAct (fun d => if d.works tthBase then { d with tth := { d.tth with hbOk := true, peerLost := false } } else d))
/-- TICK_STALL (R385, R406). -/
def execTickStall (s : State) :=
  s.act (·.tthAct (fun d => if d.top.st = .run then { d with tth := { d.tth with stall := true } }.trip true else d))
/-- OWN_IN_CHANGE (R384, R391, R408). -/
def execOwnInChange (level : Bool) (s : State) := s.act (·.tthAct (·.ownInChange level))
/-- OWN_RELEASE_DELAY (R388). -/
def execOwnReleaseDelay (s : State) :=
  s.act (·.tthAct (fun d => if !d.heartbeat && d.tth.ownOut then ({ d with tth := { d.tth with ownOut := false } }.ownRefresh).retireCheck else d))
/-- PAD_FORCE_HIZ (R388): output `o`, 25 µs after the release of OWN_OUT. -/
def execPadForceHiz (o : Fin 45) (s : State) := s.act (·.tthAct (fun d => if d.tth.ownOut then d else d.giveUp o.val))
/-- OWN_DEFER_EXPIRY (R390). -/
def execOwnDeferExpiry (s : State) := s.act (·.tthAct (fun d => if d.primary then d else d.joinStep true))
/-- OWNERSHIP_CHANGE (R387): a frame boundary of output `o`. -/
def execOwnershipChange (o : Fin 45) (s : State) := s.act (·.tthAct (·.ownership o.val))
/-- TRIP (R406, R407). -/
def execTrip (s : State) := s.act (·.tthAct (·.trip true))
/-- HANDOVER (R412). -/
def execHandover (s : State) := s.act (·.tthAct (·.handoverStart))
/-- RECLAIM (R412). -/
def execReclaim (s : State) := s.act (·.tthAct (·.reclaim))
/-- HANDOVER_ANNOUNCE (R412): the announcement of boundary `h` is received. -/
def execHandoverAnnounce (h : Nat) (s : State) :=
  s.act (·.tthAct (fun d => if d.works tthBase && d.tth.linkOk && (d.tth.role == .active || d.tth.role == .standby) then d.announce h else d))
/-- HANDOVER_EXECUTE (R413). -/
def execHandoverExecute (s : State) := s.act (·.tthAct (fun d => d.handoverStep.ownRefresh))

end Sys2Proof.Machine
end

