-- ==== Sys2Proof/Machine/Health.lean ====
section
/-! DEFINITION. UNIT_HEALTH of every unit: its own state as its chapter's table decides it, combined with its children's by R49. -/
namespace Sys2Proof.Machine

/-- HRE (R97). -/
def hreHealth (d : Dev) : UState × Nat :=
  match (List.range 64).find? (fun r => d.flag (R.RING_CFG_HALTED r)) with
  | some r => (.degraded, d.fld (R.RING_CFG_HALT_CAUSE r))
  | none =>
    if d.hre.pageFailed then (.degraded, 5) else if d.last .hreCopyErr then (.degraded, 6) else (.ok, 0)

/-- XPT (R194). -/
def xptHealth (d : Dev) (overtime : Bool) : UState × Nat :=
  if overtime then (.fault, 2) else if d.last .xptParity then (.degraded, 1) else (.ok, 0)

/-- OBJ's own logic (R165). -/
def objHealth (d : Dev) : UState × Nat :=
  let n := (healthyLanes d).length
  if n = 0 ∧ (enabledObjs d).isEmpty = false then (.fault, 3)
  else if n < 32 then (.degraded, 1)
  else if d.last .objShort then (.degraded, 2)
  else (.ok, 0)

/-- SHED of OBJ: an enabled object is not admitted for another reason than CAUSE 0x02, which takes 32 healthy lanes (R165). -/
def objShed (d : Dev) : Bool :=
  if (objHealth d).2 = 2 then decide (d.obj.admitted < d.obj.pHist.headD 0) else d.fld R.OBJ_ADMIT_SHED != 0

/-- OUT (R228). -/
def outHealth (d : Dev) (overtime : Bool) : UState × Nat :=
  if overtime then (.fault, 2) else if d.last .outLate then (.degraded, 1) else (.ok, 0)

/-- A unit's own state, cause and SHED. `overtime` lists the headers of units that did not finish the last block in time. A lane in
FAULT stays so until it is reset (R159). XPT, OUT and SLP stay in FAULT likewise, until they are reset or OFF: R194, R228 and R249
name no end of it. DEDUCED, log 85. -/
def ownHealth (d : Dev) (overtime : List Nat) (u : UnitRow) : (UState × Nat) × Bool :=
  let late := overtime.contains u.base || (d.hd u.base).st == .fault
  match u.code with
  | 0x0100 => (if d.last .overrun then (.degraded, 1) else (.ok, 0), false)
  | 0x0200 => (hreHealth d, false)
  | 0x0300 => (d.fabHealth, false)
  | 0x0400 => (d.dmcHealth, false)
  | 0x0501 => (d.cvuHealth u.inst, false)
  | 0x0600 => (pwrHealth d, decide (d.levelNow < 7))
  | 0x0700 => (tbuHealth d, false)
  | 0x0800 => (refHealth d, false)
  | 0x0900 => (ethHealth d u.inst, false)
  | 0x0A00 => (strHealth d, false)
  | 0x0B00 => (slpHealth d late, false)
  | 0x0C01 => (grpHealth d u.inst, false)
  | 0x0C02 => (portHealth d (4 * ((u.base - 0xC0200) / 0x1000) + u.inst), false)
  | 0x0D00 => (xptHealth d late, false)
  | 0x0E00 => (objHealth d, objShed d)
  | 0x0E01 => (if d.last .panHeld then (.degraded, 1) else (.ok, 0), false)
  | 0x0E03 => (if (d.hd u.base).st = .fault then (.fault, (d.hd u.base).cause) else (.ok, 0), false)
  | 0x0F00 => (outHealth d late, d.fld R.OUT_LIM_SHED_COUNT != 0)
  | 0x1002 => (coreHealth d ((u.base - 0x100800) / 0x1000), false)
  | 0x1100 => (fmnHealth d, false)
  | 0x1200 => (tthHealth d, false)
  | 0x1400 => (pinHealth d, false)
  | _ => ((.ok, 0), false)

/-- R49: own state, and the states of the enabled children. -/
def combine49 (own : UState) (kids : List UState) : UState :=
  if own = .fault ∨ (kids.isEmpty = false ∧ kids.all (· == .fault) = true) then .fault
  else if own = .degraded ∨ kids.any (fun s => s == .degraded || s == .fault) = true then .degraded
  else .ok

/-- One unit's health. A group that is worse than its own logic through its children has a CAUSE that the spec does not give (log
40). `keep`: a CAUSE 0xFF of a refused reset (R48) stands while STATE does not change. -/
def Dev.healthOne (overtime : List Nat) (keep : Bool) (d : Dev) (u : UnitRow) : Dev :=
  let h := d.hd u.base
  let ks := (kids u.base).map (fun k => if d.effEn k.base then (d.hd k.base).st else .off)
  let ((own, cause), shed) := if d.heldInReset u.base then ((UState.ok, 0), false) else ownHealth d overtime u
  let st := combine49 own (ks.filter (· != .off))
  let faults := (ks.filter (· == .fault)).length
  if keep && h.cause == 255 && h.st == st then d.setHealth u.base st 255 shed faults
  else if own = st then d.setHealth u.base st cause shed faults
  else (d.setHealth u.base st (d.freeNat 0 % 256) shed faults).drew 1

/-- Every unit, children before parents: cores, quads; lanes, clusters, the pan stage; ports, groups; CVUs; MTR; the units; TOP. -/
def healthOrder : List UnitRow := unitRows.reverse

/-- UNIT_HEALTH of every unit is brought up to date. -/
def Dev.healthAll (d : Dev) (overtime : List Nat) (keep : Bool) : Dev := healthOrder.foldl (Dev.healthOne overtime keep) d

/-- A FAULT of a CRITICAL unit other than DMC, whose FAULT forces SAFE only once (R38). -/
def Dev.criticalFault (d : Dev) : Bool :=
  unitRows.any (fun u => u.crit && u.base != dmcBase && d.effEn u.base && (d.hd u.base).st == .fault)

end Sys2Proof.Machine
end

