-- ==== Sys2Proof/Machine/Top.lean ====
section
/-! DEFINITION. TOP (spec 01): device states and their transitions, entry into SAFE, the unit controls of the header, TOP_RATE, TOP_PIPE
and the tick counter. -/
namespace Sys2Proof.Machine

/-! ## State registers (R40) -/

def DevState.code : DevState → Nat
  | .off => 0
  | .setup => 1
  | .run => 2
  | .safe => 3
  | .standby => 4

/-- TOP_STATE as read. -/
def Dev.stateWord (d : Dev) : Nat :=
  d.top.refuse * 2 ^ 16 + d.top.safeCause * 2 ^ 8 + (match d.top.req with | some r => r.code | none => 0) * 16 + d.top.st.code

/-- The tick generator runs or will: a boundary is to come, so requests and causes wait for it (R38, log 41). -/
def Dev.tickOn (d : Dev) : Bool := d.flag R.TOP_RATE_TICK_RUN && d.awake

/-! ## Entering states -/

/-- Entry into RUN at the current boundary. -/
def Dev.enterRun (d : Dev) : Dev :=
  let d := { d with top := { d.top with st := .run, overruns := 0, overrunHit := false, fading := false } }
  let d := (List.range 8).foldl Dev.latchRegion d
  let d := { d with dmc := { d.dmc with cvu0On := d.effEn (cvuBase 0) }, banks := ⟨[], []⟩ }
  let d := (d.note .runEntered).xptEnterRun.objEnterRun.outEnterRun.mtrEnterRun.slpEnterRun.pwrEnterRun
  d.tthEnterRun

/-- Every core header takes HOLD (R425, R521). -/
def Dev.holdCores (d : Dev) : Dev :=
  ((List.range 16).foldl (fun d k => d.setHd (coreBase k) { d.hd (coreBase k) with hold := true }) d).coresRefresh

/-- Local memory is lost (R425). -/
def Dev.dropLocal (d : Dev) : Dev := { d with localMem := [] }

/-- The banks return to their reset contents; loads that have not completed end without a completion, their reserved entries are released
(R526). DESIGN CHOICE, log 124. -/
def Dev.banksReset (d : Dev) : Dev :=
  let cs := d.out.banks.flatMap (fun e => e.2.copying.map (fun x => x.1) ++ e.2.copied.map (fun x => x.1))
  let d := cs.foldl Dev.forget d
  { d with out := { d.out with banks := [], fades := [] } }

/-- Every output is at high impedance and OWN_OUT is released (R547): a unit that has tripped retires (R390). -/
def Dev.outputsOff (d : Dev) : Dev :=
  let d := ({ d with tth := { d.tth with ownOut := false } }.ownRefresh).retireCheck
  d.tth.own.foldl Dev.giveUp d

/-- Entry into STANDBY: cores stop, Ferryman forgets, DRAM is refreshed in part, banks and the differential delay memory are lost (R526). -/
def Dev.enterStandby (d : Dev) : Dev :=
  let d := { d with top := { d.top with st := .standby } }
  let d := (d.fmnClear.coresRefresh.banksReset).dropLocal.dramStandby
  { d with obj := { d.obj with window := [], rend := [], sets := [] } }.ethRefresh.sapRefresh.outputsOff

/-- Entry into SETUP from OFF or STANDBY: every core is held (R425, R521, R527), and the DPLLs leave OFF (R361). -/
def Dev.enterSetup (d : Dev) : Dev :=
  let d := if d.top.st = .standby then d.dramResume else d
  ({ d with top := { d.top with st := .setup } }.dropLocal).holdCores.refFollow

/-- RUN is left: the outputs fade over one tick (R37, R38); an active of a pair trips (R406). The state changes at the boundary, and the
fade is the tick that follows. DESIGN CHOICE, log 26. -/
def Dev.leaveRun (d : Dev) (st : DevState) : Dev :=
  ({ d.strFade with top := { d.top with st := st, fading := d.running } }).trip true |>.refFollow

/-! ## SAFE (R38 to R40, R506) -/

/-- Hardware causes of SAFE that stand, the first recorded first (R40). -/
def Dev.safeCauses (d : Dev) : List Nat :=
  (if d.pwr.supply then [4] else []) ++ (if d.pwr.thermal then [3] else []) ++ (if d.dmc.causeNew then [5] else [])
    ++ (if d.pinCause then [6] else []) ++ (if d.criticalFault then [2] else []) ++ (if d.top.overrunHit then [7] else [])

/-- Entry into SAFE; a cause that forces it once has then done so. -/
def Dev.enterSafe (d : Dev) (cause : Nat) : Dev :=
  let d := if d.top.st = .run then d.leaveRun .safe else { d with top := { d.top with st := .safe } }
  { d with top := { d.top with safeCause := cause, overruns := 0, overrunHit := false },
           dmc := { d.dmc with causeNew := false } }.raise F.safeEntered

/-- SAFE is entered for a hardware cause; another request that stands is discarded and reported (R39). -/
def Dev.safeEntry (d : Dev) : Dev :=
  match d.safeCauses with
  | [] => d
  | c :: _ =>
    if d.top.st = .run ∨ d.top.st = .setup then
      let lost : Bool := match d.top.req with | some r => r != .safe | none => false
      let d := { d with top := { d.top with req := none, refuse := if lost then 7 else d.top.refuse } }
      (d.raiseIf lost F.stateRefused).enterSafe c
    else d

/-- A hardware cause acts at once while no boundary is to come (R506). -/
def Dev.safeNow (d : Dev) : Dev := if d.tickOn then d else d.safeEntry

/-! ## Requests (R38) -/

/-- Why a request is refused: 0 if it is not. -/
def refuseCode (d : Dev) (r : DevState) : Nat :=
  match d.top.st, r with
  | .setup, .run =>
    if !d.flag R.TOP_RATE_TICK_RUN then 2
    else if d.fld (R.DPLL_STAT_STATE 0) = 0 then 3
    else if !d.flag R.DMC_CHECK_CHECKED then 4
    else 0
  | .run, .setup => 0
  | .run, .safe => 0
  | .safe, .setup => 0
  | .setup, .standby => if !d.hre.paq.isEmpty then 5 else if d.flag R.TOP_RATE_TICK_RUN then 6 else 0
  | .standby, .setup => 0
  | _, _ => 1

/-- The request that stands is judged and carried out or refused. -/
def Dev.judgeRequest (d : Dev) : Dev :=
  match d.top.req with
  | none => d
  | some r =>
    let code := refuseCode d r
    let from_ := d.top.st
    let d := { d with top := { d.top with req := none } }
    if code ≠ 0 then { d with top := { d.top with refuse := code } }.raise F.stateRefused
    else match r with
      | .run => d.enterRun
      | .standby => d.enterStandby
      | .safe => d.enterSafe 1
      | .setup => if from_ = .run then d.leaveRun .setup else if from_ = .standby then d.enterSetup
        else { d with top := { d.top with st := .setup } }
      | .off => d

/-- The device's state at a boundary, or at once while none is to come: a hardware cause goes first (R39). -/
def Dev.stateStep (d : Dev) : Dev :=
  if d.safeCauses ≠ [] ∧ (d.top.st = .run ∨ d.top.st = .setup) then d.safeEntry else d.judgeRequest

/-- A write of TOP_STATE_REQ: it replaces a request that has not taken effect; other values than 1 to 4 are ignored. A request to leave
RUN is a trip cause (R406). -/
def Dev.stateReq (d : Dev) (n : Nat) : Dev :=
  let r : Option DevState := if n = 1 then some .setup else if n = 2 then some .run else if n = 3 then some .safe
    else if n = 4 then some .standby else none
  match r with
  | none => d
  | some r =>
    let d := if d.top.st = .run ∧ (r = .setup ∨ r = .safe) then (d.trip true).refFollow else d
    let d := { d with top := { d.top with req := some r } }
    if d.tickOn then d else d.judgeRequest

/-! ## Unit controls (R45 to R48, R552) -/

/-- Tables that belong to a unit. -/
def tablesOf (b : Nat) : List Nat :=
  if b = xptBase then [T.xptNode, T.xptBus, T.xptClip] else if b = mtrBase then [T.mtrPoint]
  else if b = objBase then [T.objLayout, T.objHull, T.objObject] else if b = outBase then [T.outChain, T.outPatch]
  else if b = slpBase then [T.slpMap] else if b = strBase then [T.strRx, T.strTx] else if b = fmnBase then [T.fmnTask] else []

/-- RWS fields: they survive a soft reset (R6, R516). -/
def isRws (a : Nat) : Bool := (List.range 4).any (fun b => a == (R.TB_RATE_RATE b).addr) || (List.range 2).any (fun p => a == (R.DPLL_FB_FB p).addr)

/-- TBU is reset: the bases keep their values; their servos and captures do not (R331). -/
def Dev.tbuReset (d : Dev) : Dev :=
  (List.range 4).foldl (fun d b => (d.setBase b { TBase.zero with val := (d.base b).val }).ppsNextWrite b 0)
    { d with tbu := { d.tbu with caps := [] } }

/-- The running state of one unit, at its reset value. -/
def Dev.clearUnit (d : Dev) (u : UnitRow) : Dev :=
  let b := u.base
  let d := (tablesOf b).foldl (fun d t => d.setTab t Tab.zero) d
  match u.code with
  | 0x0400 => { d with dmc := .reset }
  | 0x0600 => d.pwrReset
  | 0x0700 => d.tbuReset
  | 0x0800 => { d with ref := { Ref.reset with tickWait := d.ref.tickWait } }
  | 0x0900 => d.ethReset u.inst
  | 0x0A00 => { d with str := .reset }
  | 0x0B00 => { d with slp := .reset }
  | 0x0C00 => { d with sap := .reset }
  | 0x0C01 => d.setGrp u.inst .zero
  | 0x0C02 => d.setPort (4 * ((b - 0xC0200) / 0x1000) + u.inst) .zero
  | 0x0D00 => { d with xpt := .reset }
  | 0x0E00 => { d with obj := .reset }
  | 0x0E01 => { d with obj := { d.obj with sets := [] } }
  | 0x0F00 => { d.banksReset with out := .reset }
  | 0x1000 => { d with dsp := { Dsp.reset with cores := d.dsp.cores } }
  | 0x1100 => d.fmnReset
  | 0x1200 => d.tthReset
  | 0x1300 => { d with mtr := .reset }
  | 0x1400 => { d with pin := .reset }
  | _ => d

/-- Registers of a unit, at their reset values but for RWS fields. -/
def Dev.clearRegs (d : Dev) (b : Nat) : Dev :=
  let drop := fun (a : Nat) => ownerOf a == b && !isRws a
  { d with regs := smDrop drop d.regs, latched := smDrop drop d.latched }

/-- A reset of CVU0 in RUN clears its counters only (R495). -/
def Dev.cvu0Counters (d : Dev) : Dev := d.setFlds [(R.CVU_ERR_COUNT 0, 0), (R.CVU_DONE_COUNT 0, 0)]

/-- One unit returns to its soft reset values. -/
def Dev.resetOne (d : Dev) (u : UnitRow) : Dev :=
  if u.base = cvuBase 0 ∧ d.top.st = .run then d.cvu0Counters
  else ((d.clearRegs u.base).clearUnit u).setHd u.base (resetHdr u.base)

/-- A reset of a unit and its descendants starts: `en` and `hold` are what the write gives the unit itself (R48). -/
def Dev.resetUnit (d : Dev) (b : Nat) (en hold pulse : Bool) : Dev :=
  let d := (subtree b).foldl Dev.resetOne d
  let kept := if b = cvuBase 0 ∧ d.top.st = .run then d.hd b else resetHdr b
  d.setHd b { kept with enable := en, hold := hold, inReset := pulse, drain := !pulse }

/-- Units whose reset is refused in the current state (R48): RUN and SAFE need HOT_RESET throughout, SETUP takes all but TOP, HRE and
FAB, OFF and STANDBY take PWR, TBU, REF and PIN. -/
def resetAllowed (d : Dev) (b : Nat) : Bool :=
  match d.top.st with
  | .run => (subtree b).all (·.hot)
  | .safe => (subtree b).all (·.hot)
  | .setup => b != topBase && b != hreBase && b != fabBase
  | _ => b == pwrBase || b == tbuBase || b == refBase || b == pinBase

/-- What follows a change of enables or resets: cores, ports, lanes of the MACs, references, ASRC channels, TTH and the health of every
unit. -/
def Dev.unitsChanged (d : Dev) : Dev :=
  (d.noteIdle.coresRefresh.sapRefresh.ethRefresh.refFollow.asrcService.tthRefresh.ownRefresh).healthAll [] true

/-- A write of UNIT_CTL. -/
def Dev.unitCtl (d : Dev) (b : Nat) (en hold pulse : Bool) : Dev :=
  match unitAt b with
  | none => d
  | some _ =>
    if !d.opens b then d
    else
      let h := d.hd b
      let d :=
        if pulse || (hold && !h.hold) then
          if resetAllowed d b then d.resetUnit b en hold pulse
          else (d.setHd b { h with enable := en, cause := 255 }).raise (F.healthChg b)
        else d.setHd b { h with enable := en, hold := hold }
      d.unitsChanged

/-- Masters of the fabric in a unit or below it (R476). -/
def mastersOf (b : Nat) : List Nat :=
  if b = tthBase then [1] else if b = objBase then [6] else if b = outBase then [7] else if b = sapBase then [8]
  else if b = cvuBase 0 ∨ b = cvuGroup then [9] else if b = dspBase then [2, 3, 4, 5]
  else if quadBase 0 ≤ b ∧ b < quadBase 4 then [2 + (b - quadBase 0) / 0x100]
  else if coreBase 0 ≤ b ∧ b < coreBase 16 then [2 + (b - coreBase 0) / 0x4000] else []

/-- FAB ends a burst that a reset has cut, the first of its master logged by its address: of a write only the beats before the cut reach the
target (R480). -/
def Dev.cutBurst (d : Dev) (x : CutBurst) : Dev :=
  let d := if x.write && d.inRegions x.addr x.data.length && decide (x.addr + x.data.length ≤ d.dramTotal) then
      { d with dram := memWrite d.dram x.addr (x.data.map BitVec.toNat) } else d
  d.fabLog .masterReset x.write x.master (x.id % 256) x.addr

/-- A reset completes, by a pulse or by HOLD; `cut` are the bursts that it interrupted, the first of each master (R480). -/
def Dev.resetDone (d : Dev) (b : Nat) (cut : List CutBurst) : Dev :=
  if (d.hd b).inReset || (d.hd b).drain then
    let d := (cut.filter (fun x => (mastersOf b).contains x.master)).foldl Dev.cutBurst d
    (d.setHd b { d.hd b with inReset := false, drain := false }).unitsChanged
  else d

/-! ## TOP_RATE, TOP_PIPE and the counter (R19 to R23, R36) -/

/-- A write of TOP_RATE (R20, R371). While the tick does not run, no set exists (R116). -/
def Dev.rateWrite (d : Dev) (v : Word) : Dev :=
  let v := v.toNat
  let setup := d.top.st == .setup
  let stopped := setup && !d.flag R.TOP_RATE_TICK_RUN
  let put := fun (acc : Dev × Bool) (f : Field) (may : Bool) (n : Nat) =>
    if acc.1.fld f = n then acc else if may then (acc.1.setFld f n, acc.2) else (acc.1, true)
  let fam := d.fld R.TOP_RATE_FAMILY
  let m := if bits v 0 2 = 3 then d.fld R.TOP_RATE_FS_MULT else bits v 0 2
  let acc := put (put (put (d, false) R.TOP_RATE_BLOCK stopped (bits v 4 2)) R.TOP_RATE_FAMILY stopped (bits v 2 1)) R.TOP_RATE_FS_MULT stopped m
  let run := d.fld R.TOP_RATE_TICK_RUN
  let (d, bad) := put acc R.TOP_RATE_TICK_RUN setup (bits v 8 1)
  let d := if d.fld R.TOP_RATE_FAMILY = fam then d else d.dpllRetune
  let now := d.fld R.TOP_RATE_TICK_RUN
  let d := if now = run then d
    else if now = 1 then
      let sync := d.flag R.REF_TICK_SYNC_EN
      let d := if sync then d else d.setFld R.REF_TICK_SYNC_MISSED 0
      { d with top := { d.top with started := false, mediaAcc := 0 }, ref := { d.ref with tickWait := sync } }
    else { d with top := { d.top with started := false, mediaAcc := 0 }, ref := { d.ref with tickWait := false }, obj := { d.obj with sets := [] } }
  d.raiseIf bad F.topCfgRefused

/-- A write of TOP_PIPE (R36). -/
def Dev.pipeWrite (d : Dev) (v : Word) : Dev :=
  let v := v.toNat
  let lag := clampN 2 8 (bits v 8 4)
  let d := d.setFlds [(R.TOP_PIPE_DSP_MISS, bits v 12 1), (R.TOP_PIPE_OVERRUN_LIMIT, bits v 0 8)]
  if lag = d.fld R.TOP_PIPE_DSP_LAG then d
  else if d.top.st = .setup then d.setFld R.TOP_PIPE_DSP_LAG lag
  else d.raise F.topCfgRefused

/-- A write of TOP_TICK_LOAD_HI (R23). -/
def Dev.tickLoad (d : Dev) (v : Word) : Dev :=
  if bitAt v.toNat 31 then
    if d.top.st = .setup ∧ d.flag R.TOP_RATE_TICK_RUN = false then
      { d with top := { d.top with tick := bits v.toNat 0 16 * 2 ^ 32 + d.top.loadLo } }
    else d.raise F.topCfgRefused
  else d

/-- A read of TOP_TICK_LO latches the high bits (R22). -/
def Dev.tickLoRead (d : Dev) : Nat × Dev :=
  (d.top.tick % 2 ^ 32, { d with top := { d.top with tickHi := d.top.tick / 2 ^ 32 % 2 ^ 16 } })

/-! ## Overruns (R28) -/

/-- An overrun in the running tick: the block is discarded; so many in a row force SAFE. -/
def Dev.overrun (d : Dev) : Dev :=
  let d := (((d.count R.TOP_OVERRUN_COUNT).raise F.overrun).note .overrun)
  { d with top := { d.top with overruns := d.top.overruns + 1 } }.tripMaskable R.TTH_CTL_OVERRUN_TRIP

/-- OVERRUN_LIMIT consecutive ticks with overruns. -/
def Dev.overrunLimit (d : Dev) : Dev :=
  let n := d.fld R.TOP_PIPE_OVERRUN_LIMIT
  if n ≠ 0 ∧ n ≤ d.top.overruns then { d with top := { d.top with overrunHit := true } } else d

/-! ## Meanings -/

/-- OVERRUN_LIMIT (R28). -/
def execOverrunLimit (s : State) := s.act (·.overrunLimit)
/-- STATE_REQ_SETUP (R38). -/
def execStateReqSetup (s : State) := s.act (·.stateReq 1)
/-- STATE_REQ_RUN (R38). -/
def execStateReqRun (s : State) := s.act (·.stateReq 2)
/-- STATE_REQ_SAFE (R38). -/
def execStateReqSafe (s : State) := s.act (·.stateReq 3)
/-- STATE_REQ_STANDBY (R38). -/
def execStateReqStandby (s : State) := s.act (·.stateReq 4)
/-- STATE_TRANSITION (R38): the request that stands takes effect. -/
def execStateTransition (s : State) := s.act (·.stateStep)
/-- SAFE_ENTRY (R39): a standing hardware cause takes effect. -/
def execSafeEntry (s : State) := s.act (·.safeEntry)
/-- TOP_RATE_WRITE (R20). -/
def execTopRateWrite (v : Word) (s : State) := s.act (·.rateWrite v)
/-- TOP_PIPE_WRITE (R36); a standby takes its value from the active (R395). -/
def execTopPipeWrite (v : Word) (s : State) := s.act (·.fromHost R.TOP_PIPE_DSP_LAG.addr v (·.pipeWrite v))
/-- TICK_LOAD (R23): a write of TOP_TICK_LOAD_HI. -/
def execTickLoad (v : Word) (s : State) := s.act (·.tickLoad v)
/-- UNIT_RESET (R48): a write of UNIT_CTL with RESET = 1. -/
def execUnitReset (base : Nat) (v : Word) (s : State) :=
  s.act (·.fromHost (base + 8) v (·.unitCtl base (bitAt v.toNat 0) (bitAt v.toNat 2) true))
/-- UNIT_HOLD (R48): a write of UNIT_CTL with RESET = 0. -/
def execUnitHold (base : Nat) (v : Word) (s : State) :=
  s.act (·.fromHost (base + 8) v (·.unitCtl base (bitAt v.toNat 0) (bitAt v.toNat 2) false))
/-- UNIT_ENABLE (R47, R552): a write of UNIT_CTL that leaves HOLD as it is. -/
def execUnitEnable (base : Nat) (v : Word) (s : State) :=
  s.act (·.fromHost (base + 8) v (fun d => d.unitCtl base (bitAt v.toNat 0) (d.hd base).hold false))
/-- UNIT_RESET_DONE (R48, R480). -/
def execUnitResetDone (base : Nat) (cut : List CutBurst) (s : State) := s.act (·.resetDone base cut)
/-- OBJ_C_WRITE (R107); a standby takes its value from the active (R395). -/
def execObjCWrite (v : Word) (s : State) := s.act (fun d => d.ifOpen objBase (·.fromHost R.OBJ_C_C.addr v (·.writeObjC v.toNat)))

end Sys2Proof.Machine
end

