-- ==== Sys2Proof/Machine/Bring.lean ====
section
/-! DEFINITION. Reset levels and boot (spec 18), and the meanings of the rows of PWR and PIN that can move the device's state (17). -/
namespace Sys2Proof.Machine

/-! ## Reset levels (R516, R517, R537) -/

/-- What no reset of the part changes: its grade, fuses, host memory, the level on the OWN_IN pin, the JTAG port, and the model's count of
draws. -/
def Dev.powerReset (d : Dev) : Dev :=
  { Dev.reset with
    grade := d.grade, hostMem := d.hostMem, free := d.free, tth := { Tth.reset with ownIn := d.tth.ownIn },
    boot := { Boot.reset with keyHash := d.boot.keyHash, minRollback := d.boot.minRollback, dark := d.boot.dark }, jtag := d.jtag }

/-- Registers a soft reset keeps: the RWS fields (R6, R516). The MSI-X table and its pending bits are registers of BAR0 (R56) and not
configuration space. DEDUCED, log 42. -/
def keptRegs : List Nat :=
  (List.range 4).map (fun b => (R.TB_RATE_RATE b).addr) ++ (List.range 2).map (fun p => (R.DPLL_FB_FB p).addr)

/-- SOFT, LINK and the overtemperature reset. -/
def Dev.softReset (d : Dev) (link : Bool) : Dev :=
  let e := d.powerReset
  let e := { e with boot := { d.boot with run := none, spiDue := d.boot.bootsel }, cfg := if link then .reset else d.cfg }
  let e := keptRegs.foldl (fun e a => e.setReg a (d.reg a)) e
  (List.range 4).foldl (fun e b => (e.setBase b { TBase.zero with val := (d.base b).val }).ppsNextWrite b 0) e

/-- TOP_RESET_CAUSE.LEVEL, written as the reset ends (R524). -/
def Dev.resetCause (d : Dev) (n : Nat) : Dev := d.setFld R.TOP_RESET_CAUSE_LEVEL n

/-- Supplies rising, or a rail below 90 % (`dark`): the POWER-ON level; RST_N is low until it rises (R516, R519, R537). -/
def Dev.powerOn (d : Dev) (dark : Bool) : Dev :=
  { d.powerReset with boot := { d.powerReset.boot with rstLow := true, dark := dark }, jtag := .reset }.resetCause 0

/-- RST_N low: the PIN level, or POWER-ON where that is still in progress (R516). -/
def Dev.rstLow (d : Dev) : Dev :=
  { d.powerReset with boot := { d.powerReset.boot with rstLow := true } }.resetCause (if d.boot.rstLow then d.fld R.TOP_RESET_CAUSE_LEVEL else 1)

/-- RST_N rises: nothing that came while it was low has left a trace; straps are sampled and fuses read (R518, R519); with BOOTSEL high an SPI
boot has to start (R522). The supplies then stand (R519). -/
def Dev.rstRise (d : Dev) (role bootsel : Bool) (keyHash : Option (List Nat)) (minRollback : Nat) : Dev :=
  if d.boot.rstLow then
    { d.powerReset with boot := ⟨role, bootsel, keyHash, minRollback, false, bootsel, none, false⟩ }.resetCause (d.fld R.TOP_RESET_CAUSE_LEVEL)
  else d

/-- A soft reset of a level, unless RST_N holds the part in a deeper one. -/
def Dev.softLevel (d : Dev) (link : Bool) (level : Nat) : Dev :=
  if d.boot.rstLow then d else (d.softReset link).resetCause level

/-- A write of TOP_RESET (R524). -/
def Dev.resetWrite (d : Dev) (v : Word) : Dev :=
  if bits v.toNat 16 16 = 0xA5C3 ∧ bitAt v.toNat 0 = true then d.softLevel false 3 else d

/-! ## Boot (R520 to R523) -/

/-- TOP_BOOT as read. -/
def Dev.bootWord (d : Dev) : Nat :=
  let w := (d.reg R.TOP_BOOT_DONE.addr).toNat
  setBits (setBits (setBits w 30 1 (b2n d.boot.run.isSome)) 29 1 (b2n d.boot.keyHash.isNone)) 1 1 (b2n d.boot.bootsel)

/-- An SPI boot starts with slot 0. -/
def Dev.spiBoot (d : Dev) : Dev :=
  if d.top.st = .off ∧ d.boot.spiDue = true ∧ d.boot.run.isNone = true ∧ d.boot.rstLow = false then
    { d with boot := { d.boot with spiDue := false, run := some ⟨2, none⟩ } }
  else d

/-- A write of TOP_BOOT.GO. With BOOTSEL high a host boot waits for the SPI boot to fail. -/
def Dev.hostBoot (d : Dev) (v : Word) : Dev :=
  if bitAt v.toNat 0 ∧ d.top.st = .off ∧ d.boot.run.isNone = true ∧ d.boot.spiDue = false ∧ d.boot.rstLow = false then
    { d with boot := { d.boot with run := some ⟨1, none⟩ } }
  else d

/-- A boot fails with a code: SPI slot 1 follows slot 0, and nothing follows otherwise. -/
def Dev.bootFail (d : Dev) (r : BootRun) (err : Nat) : Dev :=
  { d.setFld R.TOP_BOOT_ERR err with boot := { d.boot with run := if r.src = 2 then some ⟨3, none⟩ else none } }

/-- Code of a read error (R521). -/
def readErr (r : BootRun) : Nat := if r.src = 1 then 6 else 7

/-- Bytes of the image that a boot reads from `o` on: a host boot reads them from host memory at TOP_BOOT_ADDR, with Bus Master Enable set
(R523), an SPI boot has them from the flash. A read that ended early, or failed, gives none. -/
def bootBytes (d : Dev) (r : BootRun) (o n : Nat) (read : Option (List Nat)) : Option (List Nat) :=
  match read with
  | none => none
  | some l =>
    if r.src = 1 then
      (if d.cfg.busMaster then some (memRead d.hostMem (d.fld R.TOP_BOOT_ADDR_LO_ADDR_LO * 256 + d.fld R.TOP_BOOT_ADDR_HI_ADDR_HI * 2 ^ 32 + o) n)
       else none)
    else if l.length < n then none
    else some (l.take n)

/-- Checks 1 to 3 on the header: 0 if it passes. -/
def headerErr (d : Dev) (h : List Nat) : Nat :=
  let len := ofLe (slice h 8 4)
  if ofLe (slice h 0 4) ≠ 0x5140B007 ∨ ofLe (slice h 4 4) ≠ 1 then 1
  else if len % 64 ≠ 0 ∨ len < 64 ∨ 0x100000 < len then 2
  else match d.boot.keyHash with
    | none => 0
    | some k => if sha384 (slice h 0x20 0x60) = k then 0 else 3

/-- The header has been read, or the read has failed. -/
def Dev.bootHeader (d : Dev) (h : Option (List Nat)) : Dev :=
  match d.boot.run with
  | some r =>
    if r.header.isSome then d
    else match bootBytes d r 0 256 h with
      | none => d.bootFail r (readErr r)
      | some h =>
        let e := headerErr d h
        if e = 0 then { d with boot := { d.boot with run := some { r with header := some h } } } else d.bootFail r e
  | none => d

/-- DIGEST (R520). -/
def bootDigest (h body : List Nat) : List Nat := sha384 (h.take 0x80 ++ body)

/-- Checks 4 and 5: 0 if they pass. -/
def bodyErr (d : Dev) (h digest : List Nat) : Nat :=
  if !ecdsaOk (ofBe (slice h 0x20 48)) (ofBe (slice h 0x50 48)) (ofBe (slice h 0x80 48)) (ofBe (slice h 0xB0 48)) digest then 4
  else if ofLe (slice h 0xC 4) < d.boot.minRollback then 5
  else 0

/-- The image is authenticated: DIGEST is recorded and the device enters SETUP with every core held. -/
def Dev.bootDone (d : Dev) (r : BootRun) (h digest : List Nat) : Dev :=
  let d := { d with boot := { d.boot with run := none } }
  let d := d.setFlds [(R.TOP_BOOT_DONE, 1), (R.TOP_BOOT_SRC, r.src), (R.TOP_BOOT_ROLLBACK, ofLe (slice h 0xC 4))]
  let d := (List.range 12).foldl (fun d i => d.setFld (R.TOP_FW_DIGEST_DIGEST i) (ofLe (slice digest (4 * i) 4))) d
  d.enterSetup

/-- The body has been read, or the read has failed. -/
def Dev.bootBody (d : Dev) (b : Option (List Nat)) : Dev :=
  match d.boot.run with
  | some r =>
    match r.header with
    | some h =>
      (match bootBytes d r 256 (ofLe (slice h 8 4)) b with
        | some b =>
          let digest := bootDigest h b
          let e := bodyErr d h digest
          if e = 0 then d.bootDone r h digest else d.bootFail r e
        | none => d.bootFail r (readErr r))
    | none => d
  | none => d

/-! ## Meanings: resets and boot -/

/-- POWER_ON_RESET (R516). -/
def execPowerOnReset (s : State) := s.act (·.powerOn false)
/-- SUPPLY_LOSS (R537). -/
def execSupplyLoss (s : State) := s.act (·.powerOn true)
/-- RST_N_RESET (R516). -/
def execRstNReset (s : State) := s.act (·.rstLow)
/-- RST_N_RISE (R518): the straps and fuses as sampled. -/
def execRstNRise (role bootsel : Bool) (keyHash : Option (List Nat)) (minRollback : Nat) (s : State) :=
  s.act (·.rstRise role bootsel keyHash minRollback)
/-- PERST_N_RESET (R516). -/
def execPerstNReset (s : State) := s.act (·.softLevel true 2)
/-- SOFT_RESET (R524): a write of TOP_RESET. -/
def execSoftReset (v : Word) (s : State) := s.act (·.resetWrite v)
/-- SPI_BOOT (R522). -/
def execSpiBoot (s : State) := s.act (·.spiBoot)
/-- HOST_BOOT_GO (R523): a write of TOP_BOOT. -/
def execHostBootGo (v : Word) (s : State) := s.act (·.hostBoot v)
/-- BOOT_HEADER_READ (R521): the bytes read, none after a read error. -/
def execBootHeaderRead (bytes : Option (List Nat)) (s : State) := s.act (·.bootHeader bytes)
/-- BOOT_BODY_READ (R521): the bytes read, none after a read error. -/
def execBootBodyRead (bytes : Option (List Nat)) (s : State) := s.act (·.bootBody bytes)

/-! ## Meanings: PWR and PIN (17) -/

/-- A cause of SAFE that may have arisen acts at once while the tick does not run (R506). -/
def Dev.causeAct (d : Dev) (f : Dev → Dev) : Dev :=
  let e := (f d)
  if e.safeCauses = d.safeCauses then e else e.safeNow

/-- SENSOR_SAMPLE (R498): the reading of each sensor in 1/16 °C. -/
def execSensorSample (readings : List Int) (s : State) := s.act (·.causeAct (·.sensorSample readings))
/-- RAIL_SAMPLE (R499): core current in 10 mA, core voltage in mV, the six rails in 0.1 mV. -/
def execRailSample (current voltage : Nat) (rails : List Nat) (s : State) := s.act (·.railSample current voltage rails)
/-- SUPPLY (R506). -/
def execSupply (s : State) := s.act (·.causeAct (·.supplyCause))
/-- SUPPLY_CAUSE_CLEAR (R506). -/
def execSupplyCauseClear (s : State) := s.act (·.supplyClear)
/-- OVERTEMP_SAFE_CAUSE (R506). -/
def execOvertempSafeCause (s : State) := s.act (·.causeAct (·.overtempCause))
/-- OVERTEMP_RESET (R507). -/
def execOvertempReset (s : State) := s.act (fun d => if d.tooHot then d.softLevel false 4 else d)
/-- LEVEL_RISE (R502). -/
def execLevelRise (s : State) := s.act (fun d => if d.works pwrBase then d.levelRise else d)
/-- PAD_CHECK (R510): a pad by class and index, the place in its frame and the level its receiver reads. -/
def execPadCheck (cls : Fin 5) (idx : Fin 64) (j : Nat) (read : Bool) (s : State) := s.act (·.causeAct (·.padCheck cls.val idx.val j read))
/-- PIN_OPEN_TEST_GO (R511): a write of PIN_OPEN_TEST. -/
def execPinOpenTestGo (v : Word) (s : State) := s.act (·.openTestGo v)
/-- OPEN_TEST_DONE (R511): the inputs of class 5 that followed both pulls. -/
def execOpenTestDone (inputs : List Nat) (s : State) := s.act (·.causeAct (·.openTestDone inputs))
/-- PIN_FLAGS_CLEAR (R514): a write of PIN_FLAGS. -/
def execPinFlagsClear (v : Word) (s : State) := s.act (·.pinFlagsClear v.toNat)
/-- LANE_REVERSED (R512). -/
def execLaneReversed (lane : Fin 4) (s : State) :=
  s.act (·.causeAct (fun d => let e := d.laneReversed lane.val; if lane.val < 2 then e.laneHeld lane.val else e))

end Sys2Proof.Machine
end

