-- ==== Sys2Proof/Machine/Hre.lean ====
section
/-! DEFINITION. HRE (spec 02): enabling and halting rings, polls and fetches, the status page, event records, vectors and failures
of host memory. -/
namespace Sys2Proof.Machine

/-! ## Rings in service (R62, R63) -/

/-- Entries reserved on a ring that is disabled are released (R93). -/
def Dev.freeReserved (d : Dev) (r : Nat) : Dev :=
  { d with hre := { d.hre with links := d.hre.links.map (fun x => if x.ring = r then { x with reserved := false } else x) } }

/-- What a poll makes of a ring's ENABLE: a recorded write of 0 disables it, a 1 then enables it from RING_INIT. -/
def Dev.ringFollow (d : Dev) (r : Nat) : Dev :=
  let x := d.ring r
  let en := d.flag (R.RING_CFG_ENABLE r)
  let off := x.offSeen || (x.on && !en)
  let x := if off then { x with on := false, offSeen := false, resv := 0 } else x
  let d := d.setRing r x
  let d := if off then d.freeReserved r else d
  if en && !x.on then
    (d.setFlds [(R.RING_DEV_IDX_DEV_IDX r, d.fld (R.RING_INIT_INIT r)), (R.RING_CFG_HALTED r, 0), (R.RING_CFG_HALT_CAUSE r, 0)]).setRing r
      { x with on := true, phase := true, unrep := 0, age := 0 }
  else d

/-- Types whose host index runs ahead of the device index: CMD, NRX, NTX, CAP, PLY. -/
def hostFed (ty : Nat) : Bool := ty == 0 || ty == 4 || ty == 5 || ty == 6 || ty == 7

/-- A poll brings every change of ENABLE into effect, then judges cause 4 (R63). -/
def Dev.ringsFollow (d : Dev) : Dev :=
  let d := (List.range 64).foldl Dev.ringFollow d
  (List.range 64).foldl (fun d r =>
    let l := d.fld (R.RING_CFG_LINK r)
    if d.ringLive r && d.ringType r == 0 && !((d.ring l).on && d.ringType l == 1) then d.haltRing r 4 else d) d

/-! ## Polls and fetches (R65 to R70, R77) -/

/-- Address of the doorbell page. -/
def Dev.doorbellAddr (d : Dev) : Nat := d.fld R.HRE_DB_LO_DB_LO * 2 ^ 9 + d.fld R.HRE_DB_HI_DB_HI * 2 ^ 32

/-- The doorbell page is read; a host index too far ahead halts its ring (R62), a failed read every CMD ring (R97). -/
def Dev.doorbell (d : Dev) (failed : Bool) : Dev :=
  if failed then
    (List.range 64).foldl (fun d r => if d.ringLive r && d.ringType r == 0 then d.haltRing r 2 else d) (d.raise F.dmaErr)
  else
    (List.range 64).foldl (fun d r =>
      let d := d.setFld (R.RING_HOST_IDX_HOST_IDX r) (memLe d.hostMem (d.doorbellAddr + 8 * r) 4)
      if d.ringLive r && hostFed (d.ringType r) && decide (d.ringSize r < d.ringPosted r) then d.haltRing r 1 else d) d

/-- A fetch in progress: the part, descriptors still to take, rings that stop for this poll, whether the round took one. -/
structure Fetching where
  dev : Dev
  left : Nat
  stop : List Nat
  took : Bool
  deriving DecidableEq, Repr

/-- The ring waits for a barrier of its own (R80). -/
def Dev.ringBarred (d : Dev) (r : Nat) : Bool :=
  d.hre.barriers.any (fun b => b.cmd.ring == r) || d.tth.acks.any (fun c => c.ring == r && c.code.toNat == Opcode.barrier.code)

/-- A command that has been fetched: the active of a pair sends it to a standby that is present and acts at the acknowledgement
(R393); otherwise it is taken. -/
def Dev.fetched (d : Dev) (c : Cmd) : Dev :=
  if d.tth.role == .active && d.standbyPresent && (opcodeOf c.code.toNat).isSome then
    { d.enlist c with tth := { (d.enlist c).tth with acks := d.tth.acks ++ [c] } }.tthSend (fun h => .command ⟨h, c⟩ (d.namedData c))
  else d.takeCmd c

/-- One ring's turn in a round. -/
def fetchOne (fails : List HostAccess) (f : Fetching) (r : Nat) : Fetching :=
  let d := f.dev
  if f.left = 0 || f.stop.contains r || !d.ringLive r || d.ringType r != 0 || d.ringPosted r = 0 || d.ringBarred r then f
  else if d.paqTaken then { f with dev := d.raise F.paqFull, left := 0 }
  else if fails.contains (.descriptor r) then { f with dev := (d.haltRing r 2).raise F.dmaErr }
  else
    let i := d.fld (R.RING_DEV_IDX_DEV_IDX r)
    let c := cmdOfBytes (memRead d.hostMem (d.ringAddr r i) 64) r i d.top.tick d.hre.serial
    if c.cplReq && d.ringFree (d.fld (R.RING_CFG_LINK r)) = 0 then { f with stop := r :: f.stop }
    else
      let d := d.setFld (R.RING_DEV_IDX_DEV_IDX r) ((i + 1) % 2 ^ 32)
      ⟨d.fetched c, f.left - 1, if c.code.toNat = Opcode.barrier.code then r :: f.stop else f.stop, true⟩

/-- Rounds over the rings until one takes nothing; the first argument bounds them by FETCH_MAX. -/
def fetchRounds (fails : List HostAccess) : Nat → Fetching → Fetching
  | 0, f => f
  | n + 1, f =>
    let g := (List.range 64).foldl (fetchOne fails) { f with took := false }
    if g.took && g.left != 0 then fetchRounds fails n g else g

/-- A read of an entry of a ring that the host feeds fails: the ring halts (R97). -/
def Dev.entryFail (d : Dev) (r : Nat) : Dev :=
  if d.ringLive r && hostFed (d.ringType r) then (d.haltRing r 2).raise F.dmaErr else d

/-- Failed reads of the entries that a poll passes to the units (R69, R97). -/
def Dev.entryFails (d : Dev) (fails : List HostAccess) : Dev :=
  fails.foldl (fun d x => match x with
    | .descriptor r => if d.ringType r != 0 && d.ringPosted r != 0 then d.entryFail r else d
    | _ => d) d

/-- A poll: changes of ENABLE, the doorbell page, the fetch. -/
def Dev.poll (d : Dev) (fails : List HostAccess) : Dev :=
  let d := d.ringsFollow
  let bad := fails.contains .doorbell
  let d := d.doorbell bad
  if bad then d
  else
    let n := d.fld R.HRE_CTL_FETCH_MAX
    let d := d.entryFails fails
    (fetchRounds fails n ⟨d, n, [], false⟩).dev.afterCommands

/-! ## The status page (R71, R97, R98) -/

/-- One time base as the page shows it. -/
def tbBytes (d : Dev) (b : Nat) : List Nat := leBytes 4 (d.tbFrac b) ++ leBytes 4 (d.tbNs b)

/-- The 1,024 bytes of the page. -/
def statusPage (d : Dev) : List Nat :=
  let t := d.top.tick
  let ring := fun (r : Nat) => leBytes 4 (d.fld (R.RING_DEV_IDX_DEV_IDX r)) ++
    [d.fld (R.RING_CFG_ENABLE r) + 2 * d.fld (R.RING_CFG_HALTED r) + 16 * d.fld (R.RING_CFG_HALT_CAUSE r), 0, 0, 0]
  (List.range 64).flatMap ring ++ leBytes 4 t ++ leBytes 4 0 ++ leBytes 6 t ++ [0, 0] ++ tbBytes d 0 ++ leBytes 4 d.stateWord
    ++ leBytes 4 d.topEvents.toNat ++ leBytes 4 d.hre.paq.length ++ leBytes 4 d.levelNow ++ leBytes 4 (pairWord d) ++ leBytes 4 d.digest
    ++ tbBytes d 1 ++ tbBytes d 2 ++ tbBytes d 3 ++ List.replicate 0x1B4 0 ++ leBytes 4 t

/-- Address of the status page. -/
def Dev.statusAddr (d : Dev) : Nat := d.fld R.HRE_ST_LO_ST_LO * 2 ^ 10 + d.fld R.HRE_ST_HI_ST_HI * 2 ^ 32

/-- A failed write of the page: its destination is undefined (R97). -/
def Dev.pageFail (d : Dev) : Dev :=
  let d := ((d.hostFree d.statusAddr 1024).setFld R.HRE_CTL_STATUS_EN 0).raise F.dmaErr
  { d with hre := { d.hre with pageFailed := true } }

/-- Step 1 of a service; the page after a poll that missed its tick is skipped (R98). -/
def Dev.writePage (d : Dev) (failed : Bool) : Dev :=
  if d.hre.skipPage then { d with hre := { d.hre with skipPage := false } }
  else if d.flag R.HRE_CTL_STATUS_EN then (if failed then d.pageFail else d.hostWrite d.statusAddr (statusPage d))
  else d

/-! ## Vectors (R94, R95) -/

/-- A service begins a tick for the unreported entries. -/
def Dev.ageRings (d : Dev) : Dev :=
  { d with hre := { d.hre with rings := d.hre.rings.map (fun e => (e.1, if 0 < e.2.unrep then { e.2 with age := e.2.age + 1 } else e.2)) } }

/-- The ring's vector is due. -/
def vectorDue (d : Dev) (r : Nat) : Bool :=
  let x := d.ring r
  d.fld (R.RING_VEC_VEC r) != 0 && decide (0 < x.unrep) &&
    (decide (max 1 (d.fld (R.RING_VEC_COAL_COUNT r)) ≤ x.unrep) || decide (d.fld (R.RING_VEC_COAL_TICKS r) ≤ x.age))

/-- Step 2 of a service: one message per vector that is due. -/
def Dev.vectors (d : Dev) : Dev :=
  let due := (List.range 64).filter (vectorDue d)
  let d := due.foldl (fun d r => d.setRing r { d.ring r with unrep := 0, age := 0 }) d
  ((due.map (fun r => d.fld (R.RING_VEC_VEC r))).eraseDups).foldl Dev.msix d

/-- A vector is unmasked (R95). -/
def Dev.msixUnmask (d : Dev) (v : Nat) : Dev :=
  let d := d.setFld (R.MSIX_CTRL_MASK v) 0
  let f := R.MSIX_PBA_PENDING (v / 32)
  if bitAt (d.fld f) (v % 32) && d.cfg.msixEnable && !d.cfg.funcMask then (d.setFld f (setBits (d.fld f) (v % 32) 1 0)).msix v else d

/-! ## Event records (R92, R93) -/

/-- Bits that a unit's record would report. -/
def Dev.freshBits (d : Dev) (b : Nat) : Word := (d.hd b).fresh &&& (d.hd b).eventEn &&& 0x40FFFFFF#32

/-- The 63 bytes of a record. -/
def eventBody (d : Dev) (u : UnitRow) (new : Word) : List Nat :=
  leBytes 2 u.code ++ [u.inst, 0] ++ leBytes 4 new.toNat ++ leBytes 6 d.top.tick ++ leBytes 2 (min d.hre.evtLost 0xFFFF)
    ++ leBytes 4 (d.healthWord u.base).toNat ++ leBytes 4 (d.tbNs 0) ++ List.replicate 39 0

/-- One record is written or lost. -/
def Dev.eventRecord (d : Dev) (u : UnitRow) (new : Word) : Dev :=
  let r := d.fld R.HRE_EVT_RING
  let lost := fun (d : Dev) => { d with hre := { d.hre with evtLost := d.hre.evtLost + 1 } }
  if d.ringType r ≠ 2 then lost (d.raise F.evtLost)
  else if d.ringLive r && 0 < d.ringFree r then
    { d.ringPut r (eventBody d u new) with hre := { (d.ringPut r (eventBody d u new)).hre with evtLost := 0 } }
  else lost (d.ringDrop r)

/-- Records of every unit with a new enabled event, in ascending BAR0 address, where HRE forms any; the memory of new bits starts
afresh at every boundary, for a record shows the changes of one tick (R92). -/
def Dev.eventRecords (d : Dev) : Dev :=
  let us := ((d.hdr.filterMap (fun e => unitAt e.1)).filter (fun u => d.effEn u.base && d.freshBits u.base != 0)).map
    (fun u => (u, d.freshBits u.base))
  let en := d.flag R.HRE_EVT_EN && d.awake && d.works hreBase
  let d := d.hdr.foldl (fun d e => d.setHd e.1 { d.hd e.1 with fresh := 0 }) d
  if en then us.foldl (fun d x => d.eventRecord x.1 x.2) d else d

/-! ## A service (R66, R70) -/

/-- Bytes of an entry that the device writes, first and number, by ring type (R90, R92, R193, R269, R294, R297): none on CMD and PLY. -/
def deviceBytes (ty : Nat) : Nat × Nat :=
  if ty = 4 ∨ ty = 6 then (16, 48) else if ty = 5 then (32, 32) else if ty = 0 ∨ ty = 7 then (0, 0) else (0, 64)

/-- A write to a ring fails: it halts, and the bytes written are undefined (R97). -/
def Dev.ringFail (d : Dev) (r : Nat) : Dev :=
  let s := deviceBytes (d.ringType r)
  if d.ringLive r && s.2 != 0 then
    ((d.hostFree (d.ringAddr r (d.fld (R.RING_DEV_IDX_DEV_IDX r) + 2 ^ 32 - 1) + s.1) s.2).haltRing r 3).raise F.dmaErr
  else d

/-- A poll did not finish within its tick: the page of the next boundary is skipped (R98). -/
def Dev.pollOverran (d : Dev) : Dev := { d with hre := { d.hre with skipPage := true } }.raise F.pollMissed

/-- The four steps of a service. A page that is written without a poll can overrun its tick as well (R96). The page of this boundary alone is
skipped, also where none would have been written (R98). -/
def Dev.service (d : Dev) (b : Boundary) : Dev :=
  if !d.awake || !d.works hreBase then { d with hre := { d.hre with skipPage := false } }
  else
    let d := { d with hre := { d.hre with urgentRuns := 0 } }
    let d := b.fails.foldl (fun d x => match x with | .ringWrite r => d.ringFail r | _ => d) d
    let paged := !d.hre.skipPage && d.flag R.HRE_CTL_STATUS_EN
    let d := (d.writePage (b.fails.contains .statusPage)).vectors
    if d.flag R.HRE_CTL_POLL_EN then
      let d := d.poll b.fails
      if b.pollLate then d.pollOverran else d
    else d.raiseIf (b.pollLate && paged) F.pollMissed

/-- A write of HRE_URGENT.POLL (R67). -/
def Dev.urgentPoll (d : Dev) : Dev :=
  let most := d.fld R.HRE_CTL_URGENT_MAX
  if !d.works hreBase || !d.flag R.HRE_CTL_POLL_EN || most = 0 || d.hre.urgentWait then d
  else if most ≤ d.hre.urgentRuns then d.raise F.urgentLimit
  else { d with hre := { d.hre with urgentWait := true } }

/-- The urgent poll runs, if polls are still allowed; one that overruns its tick is handled as R98 says. -/
def Dev.urgentRun (d : Dev) (b : Boundary) : Dev :=
  let d := (d.timePasses b.cycles).hostStores b.hostWrites
  if d.hre.urgentWait && d.awake && d.works hreBase then
    if d.flag R.HRE_CTL_POLL_EN && d.fld R.HRE_CTL_URGENT_MAX != 0 then
      let d := { d with hre := { d.hre with urgentWait := false, urgentRuns := d.hre.urgentRuns + 1 } }.poll b.fails
      if b.pollLate then d.pollOverran else d
    else { d with hre := { d.hre with urgentWait := false } }
  else d

/-- An access to host memory fails (R97). A copy ends after the bytes already moved. -/
def Dev.hostError (d : Dev) (w : HostAccess) : Dev :=
  if !d.works hreBase then d
  else match w with
  | .descriptor r => d.entryFail r
  | .doorbell => d.doorbell true
  | .ringWrite r => d.ringFail r
  | .statusPage => d.pageFail
  | .copy n => match d.hre.copies.find? (fun x => !(x.write && d.copied x.cmd.id)) with
    | none => d
    | some x => if x.write then (d.copyWriteDone (some n)).commitTell else d.copyReadDone (some n)

/-! ## Meanings -/

/-- RING_VECTOR_TRIGGER (R94). -/
def execRingVectorTrigger (s : State) := s.act (fun d => if d.awake && d.works hreBase then d.vectors else d)
/-- URGENT_POLL (R67). -/
def execUrgentPoll (s : State) := s.act (fun d => d.ifOpen hreBase (·.urgentPoll))
/-- URGENT_POLL_RUN (R67). -/
def execUrgentPollRun (b : Boundary) (s : State) := s.act (·.urgentRun b)
/-- HOST_MEMORY_ERROR (R97). -/
def execHostMemoryError (w : HostAccess) (s : State) := s.act (·.hostError w)
/-- MSIX_UNMASK (R95). -/
def execMsixUnmask (v : Fin 64) (s : State) := s.act (fun d => d.ifOpen hreBase (·.msixUnmask v.val))

end Sys2Proof.Machine
end

