-- ==== Sys2Proof/Machine/RegAccess.lean ====
section
/-! DEFINITION. Host accesses through BAR0 and BAR2 (spec 00 R5 to R8, 01 R44 to R48, 02 R57 to R59, 19 R528 to R531): the unit header,
what reads of each register return and clear, what writes store and start. -/
namespace Sys2Proof.Machine

/-- Place of an address in an array of registers. -/
def inArray (base stride count a : Nat) : Option Nat :=
  if base ≤ a ∧ (a - base) % stride = 0 ∧ (a - base) / stride < count then some ((a - base) / stride) else none

/-! ## Plain registers (R6) -/

/-- A register without other effects: WO fields read 0, RC fields are cleared by the read; an address that names no register reads 0. -/
def Dev.readPlain (d : Dev) (a : Nat) : Nat × Dev :=
  match rowAt a with
  | none => (0, d)
  | some r =>
    let w := (d.reg a).toNat
    let drop := fun (p : Acc) => r.fields.foldl (fun n f => if f.acc = p then setBits n f.lo f.w 0 else n) w
    (drop .wo, if drop .rc = w then d else d.setReg a (BitVec.ofNat 32 (drop .rc)))

/-- What a write of `v` makes of the field `f` of the word `n`. -/
def fieldWrite (v n : Nat) (f : FieldRow) : Nat :=
  match f.acc with
  | .rw => setBits n f.lo f.w (bits v f.lo f.w)
  | .rws => setBits n f.lo f.w (bits v f.lo f.w)
  | .w1c => setBits n f.lo f.w (bits n f.lo f.w &&& (2 ^ f.w - 1 - bits v f.lo f.w))
  | _ => n

/-- A register without other effects is written. -/
def Dev.writePlain (d : Dev) (a : Nat) (v : Word) : Dev :=
  match rowAt a with
  | none => d
  | some r => d.setReg a (BitVec.ofNat 32 (r.fields.foldl (fieldWrite v.toNat) (d.reg a).toNat))

/-! ## Values that a write stores in place of the one written -/

/-- A limit on a field: the array of registers, the field, what is stored. -/
structure Limit where
  base : Nat
  stride : Nat
  count : Nat
  lo : Nat
  w : Nat
  put : Nat → Nat

/-- The four byte fields of a register. -/
def byteLimits (a : Nat) (put : Nat → Nat) : List Limit := [0, 8, 16, 24].map (fun lo => ⟨a, 4, 1, lo, 8, put⟩)

/-- Every limit of the register tables: R63, R64, R491, R508, R347, R376, R378, R379, R285, R300, R248, R161, R225, R415, R416. -/
def limits : List Limit :=
  [⟨0x10100, 4, 1, 16, 11, clampN 1 1024⟩, ⟨0x10408, 0x20, 64, 12, 5, clampN 4 16⟩, ⟨0x10418, 0x20, 64, 16, 16, max 1⟩,
   ⟨0x30104, 4, 1, 16, 8, max 1⟩, ⟨0x30104, 4, 1, 0, 12, clampN 60 1000⟩,
   ⟨0x50104, 4, 1, 0, 4, max 1⟩, ⟨0x5010C, 4, 1, 0, 16, max 1⟩, ⟨0x50114, 4, 1, 16, 16, max 1⟩,
   ⟨0x60210, 0x80, 4, 0, 9, clampN 1 500⟩,
   ⟨0x7010C, 4, 1, 16, 16, max 1⟩, ⟨0x7010C, 4, 1, 0, 16, max 1⟩, ⟨0x7020C, 0x40, 2, 16, 16, max 1⟩,
   ⟨0x70110, 4, 1, 0, 17, clampN 10 100000⟩, ⟨0x70300, 4, 2, 0, 17, max 512⟩, ⟨0x70310, 4, 1, 0, 16, max 1⟩,
   ⟨0x80110, 0x10000, 2, 0, 14, clampN 1518 9600⟩, ⟨0x80120, 0x10000, 2, 8, 7, clampN 1 100⟩, ⟨0x80120, 0x10000, 2, 0, 7, min 99⟩,
   ⟨0xB0100, 4, 1, 8, 7, fun n => if n = 0 then 8 else min 64 n⟩,
   ⟨0xE0104, 4, 1, 16, 16, max 1⟩, ⟨0xE0104, 4, 1, 8, 5, fun n => if n = 0 then 0 else clampN 12 18 n⟩,
   ⟨0xF0100, 4, 1, 8, 5, fun n => if n = 0 then 0 else clampN 10 16 n⟩,
   ⟨0x120100, 4, 1, 16, 8, max 5⟩, ⟨0x120104, 4, 1, 16, 16, max 1⟩, ⟨0x120104, 4, 1, 0, 16, max 1⟩]
  ++ byteLimits 0x50118 (clampN 40 100) ++ byteLimits 0x5011C (clampN 40 100) ++ byteLimits 0xE0114 (min 128) ++ byteLimits 0xE0118 (min 128)

/-- A written word within the limits of its register. -/
def limited (a : Nat) (v : Word) : Word :=
  limits.foldl (fun v l => if (inArray l.base l.stride l.count a).isSome then
    BitVec.ofNat 32 (setBits v.toNat l.lo l.w (l.put (bits v.toNat l.lo l.w))) else v) v

/-! ## Reads with a rule of their own -/

/-- An array of registers whose reads compute a value or have an effect. -/
structure ReadRow where
  base : Nat
  stride : Nat
  count : Nat
  act : Nat → Dev → Nat × Dev

/-- A read that computes its value and changes nothing. -/
def shows (f : Nat → Dev → Nat) : Nat → Dev → Nat × Dev := fun i d => (f i d, d)

/-- A word with the field `f` replaced. -/
def Dev.wordWith (d : Dev) (f : Field) (v : Nat) : Nat := setBits (d.reg f.addr).toNat f.lo f.w v

/-- Grade code of TOP_PART. -/
def Grade.code : Grade → Nat
  | .commercial => 0x43
  | .industrial => 0x49

/-- Reads of registers that no store keeps as they read. -/
def readRows : List ReadRow :=
  [⟨0x100, 4, 1, shows (fun _ d => d.stateWord)⟩,
   ⟨0x110, 4, 1, fun _ d => d.tickLoRead⟩,
   ⟨0x114, 4, 1, shows (fun _ d => d.top.tickHi)⟩,
   ⟨0x118, 4, 1, shows (fun _ d => d.phase)⟩,
   ⟨0x130, 4, 1, shows (fun _ d => 0x51400000 + d.grade.code * 256 + Config.sirev.toNat)⟩,
   ⟨0x144, 4, 1, shows (fun _ d => d.bootWord)⟩,
   ⟨0x50110, 4, 1, shows (fun _ d => energyWord d)⟩,
   ⟨0x50114, 4, 1, shows (fun _ d => d.wordWith R.PWR_LEVEL_LEVEL d.levelNow)⟩,
   ⟨0x60200, 0x80, 4, fun b d => d.tbNsRead b⟩,
   ⟨0x60408, 0x20, 8, fun k d => d.capNsRead k⟩,
   ⟨0x70200, 0x40, 1, shows (fun _ d => d.wordWith (R.DPLL_CTL_FAMILY 0) (d.fld R.TOP_RATE_FAMILY))⟩,
   ⟨0x70204, 0x40, 2, fun p d => ((d.dpllStat p).toNat, d)⟩,
   ⟨0x70210, 0x40, 2, fun p d => ((d.dpllPherr p).1.toNat, (d.dpllPherr p).2)⟩,
   ⟨0x70214, 0x40, 2, fun p d => ((d.dpllFreq p).toNat, d)⟩,
   ⟨0x70218, 0x40, 2, fun p d => ((d.dpllAvg p).toNat, d)⟩,
   ⟨0x70408, 0x20, 14, shows (fun i d => setBits (d.wordWith (R.REF_IN_STAT_SEL_A i) (b2n (d.fld (R.DPLL_STAT_SEL 0) == i)))
      25 1 (b2n (d.fld (R.DPLL_STAT_SEL 1) == i)))⟩,
   ⟨0x80130, 0x10000, 2, shows (fun m d => (d.pauseStat m).toNat)⟩,
   ⟨0x80400, 8, 25, fun k d => d.cntRead 0 k⟩,
   ⟨0x90400, 8, 25, fun k d => d.cntRead 1 k⟩,
   ⟨0xA0100, 4, 1, shows (fun _ d => strPool d)⟩,
   ⟨0xA4000, 0x40, 256, shows (fun s d => d.wordWith (R.STR_RX_STAT_LOCKED s) (b2n (StrE.en (d.rxE s) && rxLocked d s (d.rxE s))))⟩,
   ⟨0xA8000, 0x20, 256, shows (fun x d => d.wordWith (R.STR_TX_STAT_ACTIVE x) (b2n (d.txActive x)))⟩,
   ⟨0xC0100, 4, 1, shows (fun _ d => sapSlots d true * 2 ^ 16 + sapSlots d false)⟩,
   ⟨0xF8000, 4, 1024, shows (fun c d => outStatRead d c)⟩,
   ⟨0x100900, 0x1000, 16, shows (fun k d => coreStat d k)⟩,
   ⟨0x100904, 0x1000, 16, shows (fun k d => (d.core k).pc)⟩,
   ⟨0x110110, 8, 4, fun l d => d.fmnNowRead l⟩,
   ⟨0x120110, 4, 1, shows (fun _ d => tthStat d)⟩,
   ⟨0x138000, 4, 8192, shows (fun i d => mtrLevel d i)⟩,
   ⟨0x120114, 4, 1, shows (fun _ d => tthUnfit d)⟩]

/-- The rule of an address whose reads have one. -/
def readHit (a : Nat) : Option (Dev → Nat × Dev) :=
  readRows.findSome? (fun r => (inArray r.base r.stride r.count a).map r.act)

/-! ## Writes with a rule of their own -/

/-- An array of registers whose writes do more than store. -/
structure WriteRow where
  base : Nat
  stride : Nat
  count : Nat
  act : Nat → Word → Dev → Dev

/-- Writes of ring registers (R63): while ENABLE is 1 the base, TYPE, LOG2_SIZE and LINK stay; a 0 in ENABLE is recorded. -/
def Dev.ringCfgWrite (d : Dev) (r : Nat) (v : Word) : Dev :=
  let en := bitAt v.toNat 0
  let d := if d.flag (R.RING_CFG_ENABLE r) then d.setFld (R.RING_CFG_ENABLE r) (b2n en) else d.writePlain (R.RING_CFG_ENABLE r).addr v
  if en then d else d.setRing r { d.ring r with offSeen := true }

/-- Writes of region registers take effect at once in SETUP (R484). -/
def regionWrite (off i : Nat) (v : Word) (d : Dev) : Dev :=
  let d := d.writePlain (0x30200 + 0x20 * i + off) v
  if d.top.st = .setup then d.latchRegion i else d

/-- Software writes to the indices of a port whose records go through rings are ignored (R269). -/
def indexWrite (off p : Nat) (v : Word) (d : Dev) : Dev :=
  if PCtl.host (d.pCtl p) then d else d.writePlain (0xC0300 + 0x400 * p + off) v

/-- A write of TTH_CTL: TRIP and HANDOVER act (R406, R412). -/
def Dev.tthCtl (d : Dev) (v : Word) : Dev :=
  let d := (d.writePlain R.TTH_CTL_TRIP.addr v).ownPrune
  let d := if bitAt v.toNat 0 then d.tthAct (·.trip true) else d
  if bitAt v.toNat 1 then d.tthAct (·.handoverStart) else d

/-- Every write with an effect of its own. -/
def writeRows : List WriteRow :=
  [⟨0x104, 4, 1, fun _ v d => d.stateReq (bits v.toNat 0 3)⟩,
   ⟨0x108, 4, 1, fun _ v d => d.rateWrite v⟩,
   ⟨0x10C, 4, 1, fun _ v d => d.pipeWrite v⟩,
   ⟨0x11C, 4, 1, fun _ v d => { d with top := { d.top with loadLo := v.toNat } }⟩,
   ⟨0x120, 4, 1, fun _ v d => d.tickLoad v⟩,
   ⟨0x140, 4, 1, fun _ v d => d.resetWrite v⟩,
   ⟨0x144, 4, 1, fun _ v d => d.hostBoot v⟩,
   ⟨0x10100, 4, 1, fun _ v d =>
      let d := d.writePlain R.HRE_CTL_STATUS_EN.addr v
      if bitAt v.toNat 1 then { d with hre := { d.hre with pageFailed := false } } else d⟩,
   ⟨0x10118, 4, 1, fun _ v d => if bitAt v.toNat 0 then d.urgentPoll else d⟩,
   ⟨0x10400, 0x20, 64, fun r v d => if d.flag (R.RING_CFG_ENABLE r) then d else d.writePlain (R.RING_BASE_LO_BASE_LO r).addr v⟩,
   ⟨0x10404, 0x20, 64, fun r v d => if d.flag (R.RING_CFG_ENABLE r) then d else d.writePlain (R.RING_BASE_HI_BASE_HI r).addr v⟩,
   ⟨0x10408, 0x20, 64, fun r v d => d.ringCfgWrite r v⟩,
   ⟨0x1800C, 0x10, 64, fun k v d => if bitAt v.toNat 0 then d.setFld (R.MSIX_CTRL_MASK k) 1 else d.msixUnmask k⟩,
   ⟨0x30100, 4, 1, fun _ v d => d.dmcCfgWrite v⟩,
   ⟨0x30180, 4, 1, fun _ v d => d.dmcCheckWrite v⟩,
   ⟨0x30200, 0x20, 8, regionWrite 0⟩, ⟨0x30204, 0x20, 8, regionWrite 4⟩, ⟨0x30208, 0x20, 8, regionWrite 8⟩,
   ⟨0x3020C, 0x20, 8, regionWrite 12⟩, ⟨0x30210, 0x20, 8, regionWrite 16⟩, ⟨0x30214, 0x20, 8, regionWrite 20⟩,
   ⟨0x30400, 0x40, 8, fun l v d => d.dlyWrite l 0 v⟩, ⟨0x30404, 0x40, 8, fun l v d => d.dlyWrite l 1 v⟩,
   ⟨0x30408, 0x40, 8, fun l v d => d.dlyWrite l 2 v⟩, ⟨0x3040C, 0x40, 8, fun l v d => d.dlyWrite l 3 v⟩,
   ⟨0x60100, 4, 1, fun _ v d => if bitAt v.toNat 0 then d.tbSnap else d⟩,
   ⟨0x60104, 4, 1, fun _ v d => if bitAt v.toNat 0 then d.capTrig else d⟩,
   ⟨0x60208, 0x80, 4, fun b v d => (d.tbRateWrite b v).refFollow⟩,
   ⟨0x6020C, 0x80, 4, fun b v d => (d.tbServoWrite b v).refFollow⟩,
   ⟨0x60224, 0x80, 4, fun b v d => d.ppsNextWrite b v⟩,
   ⟨0x70100, 4, 3, fun i v d => (d.writePlain (0x70100 + 4 * i) v).refFollow⟩,
   ⟨0x70200, 0x40, 2, fun p v d => d.dpllCtl p v⟩,
   ⟨0x70208, 0x40, 2, fun p v d => d.dpllFb p v⟩,
   ⟨0x70400, 0x20, 14, fun i v d => d.refInCfg i v⟩,
   ⟨0x70404, 0x20, 14, fun i v d =>
      d.setFld (R.REF_IN_BW_BW i) (clampN (refBwRange i).1 (refBwRange i).2 (bits v.toNat 0 20))⟩,
   ⟨0x80100, 0x10000, 2, fun m v d => d.ethModeWrite m v⟩,
   ⟨0x80124, 0x10000, 2, fun m v d => d.pauseCtlWrite m v⟩,
   ⟨0x80204, 8, 32, fun e v d => d.ethMacHi 0 e v⟩, ⟨0x90204, 8, 32, fun e v d => d.ethMacHi 1 e v⟩,
   ⟨0xC0324, 0x400, 32, indexWrite 0x24⟩, ⟨0xC0328, 0x400, 32, indexWrite 0x28⟩,
   ⟨0xE0100, 4, 1, fun _ v d => d.writeObjC v.toNat⟩,
   ⟨0x100918, 0x1000, 16, fun k v d => d.coreMbox k v⟩,
   ⟨0x110100, 4, 4, fun l v d => d.fmnListCfg l v⟩,
   ⟨0x110134, 4, 1, fun _ v d => d.fmnSwtick v⟩,
   ⟨0x120100, 4, 1, fun _ v d => d.tthCtl v⟩,
   ⟨0x140104, 4, 1, fun _ v d => d.pinFlagsClear v.toNat⟩,
   ⟨0x14010C, 4, 1, fun _ v d => d.openTestGo v⟩]

/-- The rule of an address whose writes have one. -/
def writeHit (a : Nat) : Option (Word → Dev → Dev) :=
  writeRows.findSome? (fun r => (inArray r.base r.stride r.count a).map r.act)

/-! ## The unit header (R44 to R50) -/

/-- UNIT_CAP's UNIT_SPECIFIC at the current rate. -/
def unitSpecific (d : Dev) (u : UnitRow) : Nat :=
  if u.base = xptBase then d.nBus else if u.base = panBase then d.nObj else if u.base = outBase then d.nChain
  else if u.code = 0x0E03 then d.cap 4096 else u.spec

/-- A read of a header word, by offset. -/
def Dev.headerRead (d : Dev) (u : UnitRow) (off : Nat) : Nat × Dev :=
  let h := d.hd u.base
  match off / 4 with
  | 0 => (u.code * 2 ^ 16 + u.inst * 2 ^ 8 + (Config.version u.code).toNat, d)
  | 1 => (unitSpecific d u * 2 ^ 16 + b2n u.crit * 2 ^ 15 + b2n u.hot * 2 ^ 14 + b2n u.group * 2 ^ 13 + (kids u.base).length, d)
  | 2 => (b2n (d.effEn u.base) * 2 ^ 8 + b2n h.hold * 4 + b2n h.inReset * 2 + b2n h.enable, d)
  | 3 => let d := d.healthAll [] true; ((d.healthWord u.base).toNat, d)
  | 4 => (childLink u.base, d)
  | 5 => (nextLink u.base, d)
  | 6 => let d := d.healthAll [] true; ((d.eventWord u.base).toNat, d)
  | _ => (h.eventEn.toNat, d)

/-- A write of a header word. Bits cleared are those that stand: a set in the cycle of the clear comes after it (R7, log 102). -/
def Dev.headerWrite (d : Dev) (u : UnitRow) (off : Nat) (v : Word) : Dev :=
  let h := d.hd u.base
  match off / 4 with
  | 2 => d.unitCtl u.base (bitAt v.toNat 0) (bitAt v.toNat 2) (bitAt v.toNat 1)
  | 6 => d.setHd u.base { h with event := h.event &&& ~~~ (v &&& 0x40FFFFFF#32) }
  | 7 => d.setHd u.base { h with eventEn := v &&& 0xC0FFFFFF#32 }
  | _ => d

/-! ## BAR0 (R5, R57, R528, R529) -/

/-- Entry of a register array at or above the capacity for the current rate (R529). -/
def entryAbsent (d : Dev) (a : Nat) : Bool :=
  (0xE8000 + 4 * d.nObj ≤ a && a < 0xEA000) || (0xF8000 + 4 * d.nChain ≤ a && a < 0xF9000) || (0xB2000 + 4 * d.nBus ≤ a && a < 0xB3000)

/-- A 32-bit read: the data, whether it ends in a completer abort, the part afterwards. A unit that does not respond in OFF or STANDBY
reads 0 (R37). -/
def Dev.readWord (d : Dev) (tag a : Nat) : Nat × Bool × Dev :=
  if !decoded a then (0, true, d.fabLog .decerr false 0 (tag % 256) (0x500000000 + a))
  else if !d.opens (a / 0x10000 * 0x10000) then (0, false, d)
  else
    let r := match headerOf a with
      | some u => d.headerRead u (a - u.base)
      | none => if entryAbsent d a then (0, d) else match readHit a with | some f => f d | none => d.readPlain a
    (r.1, false, r.2)

/-- A write reaches a register of a unit that responds. -/
def Dev.putReg (d : Dev) (a : Nat) (v : Word) : Dev :=
  match headerOf a with
  | some u => d.headerWrite u (a - u.base) v
  | none =>
    if entryAbsent d a then d
    else match writeHit a with
      | some f => f (limited a v) d
      | none => d.writePlain a (limited a v)

/-- A 32-bit write with its byte enables: fewer than four have no effect; an undecoded one is discarded and logged. -/
def Dev.writeWord (d : Dev) (tag a : Nat) (v : Word) (be : Nat) : Dev :=
  if !decoded a then d.fabLog .decerr true 0 (tag % 256) (0x500000000 + a)
  else if be ≠ 15 ∨ d.opens (a / 0x10000 * 0x10000) = false then d
  else d.fromHost a v (·.putReg a v)

/-- The bytes of a word that a read requested. -/
def laneMask (be : Nat) : Nat := (List.range 4).foldl (fun n i => if bitAt be i then n + 255 * 256 ^ i else n) 0

/-- The access is naturally aligned (R5). -/
def accAligned (x : RegAcc) : Bool := x.addr % (if x.wide then 8 else 4) == 0

/-- A 32-bit read through BAR0. -/
def Dev.busRead32 (d : Dev) (tag a be : Nat) : Dev :=
  let (n, ab, d) := d.readWord tag a
  { d with bus := ⟨BitVec.ofNat 64 (n &&& laneMask be), ab⟩ }

/-- A read through BAR0; a 64-bit read is two reads (R5), and vector 0 follows each (R95). What an access that is not aligned returns
is not given (log 44). While RST_N is low the link is not there and no access is answered (R519). -/
def Dev.busRead (d : Dev) (x : RegAcc) : Dev :=
  if d.boot.rstLow then d
  else if !accAligned x then { d with bus := ⟨BitVec.ofNat 64 (d.freeNat 0), false⟩ }.drew 1
  else
    let d := d.busRead32 x.tag.toNat x.addr (bits x.be.toNat 0 4)
    if x.wide then
      let e := d.vector0.busRead32 x.tag.toNat (x.addr + 4) (bits x.be.toNat 4 4)
      { e with bus := ⟨BitVec.ofNat 64 (e.bus.data.toNat * 2 ^ 32 + d.bus.data.toNat), d.bus.abort || e.bus.abort⟩ }
    else d

/-- A write through BAR0; one that is not aligned has no effect (log 44). A 64-bit write is two writes (R5), and vector 0 follows each
(R95). -/
def Dev.busWrite (d : Dev) (x : RegAcc) : Dev :=
  if d.boot.rstLow || !accAligned x then d
  else
    let d := d.writeWord x.tag.toNat x.addr (BitVec.ofNat 32 x.data.toNat) (bits x.be.toNat 0 4)
    if x.wide then d.vector0.writeWord x.tag.toNat (x.addr + 4) (BitVec.ofNat 32 (x.data.toNat / 2 ^ 32)) (bits x.be.toNat 4 4) else d

/-- A full 32-bit read of one register. -/
def Dev.busReadAt (d : Dev) (a : Nat) : Dev := d.busRead ⟨a, false, 15, 0, 0⟩

/-- Values of mirrored registers whose boundary has come (R395, R450, R457). -/
def Dev.mirrorRegs (d : Dev) : Dev :=
  let now := d.tth.regs.filter (fun e => decide (e.1 ≤ d.top.tick))
  now.foldl (fun d e => d.putReg e.2.1 e.2.2)
    { d with tth := { d.tth with regs := d.tth.regs.filter (fun e => !decide (e.1 ≤ d.top.tick)) } }

/-! ## BAR2 (R57 to R59, R531) -/

/-- Places of the live tables in BAR2: offset, TABLE_ID. -/
def bar2Tables : List (Nat × Nat) :=
  [(0x0800000, T.xptNode), (0x3000000, T.objLayout), (0x3008000, T.objHull), (0x3020000, T.objObject), (0x3040000, T.xptBus),
   (0x3040400, T.xptClip), (0x3042000, T.mtrPoint), (0x3050000, T.outChain), (0x3058000, T.outPatch), (0x3060000, T.slpMap),
   (0x3070000, T.strRx), (0x3078000, T.strTx), (0x3090000, T.fmnTask)]

/-- What a BAR2 offset reaches. -/
inductive Bar2 where
  | local
  | table (t word : Nat)
  | stagedNode (word : Nat)
  | window (word : Nat)
  | gap
  | hole
  deriving DecidableEq, Repr

def bar2At (off : Nat) : Bar2 :=
  if off < 0x800000 then .local
  else if 0xA00000 ≤ off ∧ off < 0xC00000 then .stagedNode ((off - 0xA00000) / 4)
  else if (0xC00000 ≤ off ∧ off < 0x1000000) ∨ 0x5000000 ≤ off then .hole
  else if 0x1000000 ≤ off ∧ off < 0x3000000 then .window ((off - 0x1000000) / 4)
  else match bar2Tables.find? (fun e => e.1 ≤ off && off < e.1 + tableSize e.2) with
    | some e => .table e.2 ((off - e.1) / 4)
    | none => .gap

/-- A 32-bit read through BAR2. -/
def Dev.bar2Read (d : Dev) (off tag : Nat) : Dev :=
  let show_ := fun (n : Nat) => { d with bus := ⟨BitVec.ofNat 64 n, false⟩ }
  match bar2At off with
  | .local => show_ (memLe d.localMem off 4)
  | .table t i => show_ (asRead t i (d.live t i))
  | .stagedNode i => show_ (wordAt (d.tab T.xptNode).staged i)
  | .window i => show_ (d.windowWord i).toNat
  | .gap => show_ 0
  | .hole => { d with bus := ⟨0, true⟩ }.fabLog .decerr false 0 (tag % 256) (0x400000000 + off)

/-- A 32-bit write through BAR2: live copies change at once, without validation; the staged node table is then changed (R87). -/
def Dev.bar2Write (d : Dev) (off : Nat) (v : Word) (tag : Nat) : Dev :=
  match bar2At off with
  | .local => { d with localMem := memWrite d.localMem off (leBytes 4 v.toNat) }
  | .table t i => let x := d.tab t; (d.setTab t { x with live := wordSet x.live i v.toNat }).afterCommands
  | .stagedNode i => let x := d.tab T.xptNode; d.setTab T.xptNode { x with staged := wordSet x.staged i v.toNat, changed := true }
  | .window i => { d with obj := { d.obj with window := d.obj.window.filter (fun e => decide (e.1 < i)) ++ (i, v) :: d.obj.window.filter (fun e => decide (i < e.1)) } }
  | .gap => d
  | .hole => d.fabLog .decerr true 0 (tag % 256) (0x400000000 + off)

/-- A BAR2 access: outside SETUP it is denied (R57). -/
def Dev.bar2 (d : Dev) (write : Bool) (off : Nat) (v : Word) (tag : Nat) : Dev :=
  let off := off / 4 * 4
  if d.boot.rstLow then d
  else if d.top.st = .setup then (if write then d.bar2Write off v tag else d.bar2Read off tag)
  else
    let d := d.raise F.bar2Denied
    if write then d else { d with bus := ⟨0, false⟩ }

/-! ## The configuration header (R55) -/

/-- A word of the PCIe configuration header: Vendor and Device ID at 0x00, Revision ID and class code at 0x08, subsystem IDs at 0x2C.
The table has no row for configuration accesses (log 103). -/
def pciHeader (off : Nat) : Nat :=
  if off = 0x00 then 0x5140 * 2 ^ 16 + 0x1F6C
  else if off = 0x08 then 0x040100 * 2 ^ 8 + Config.sirev.toNat
  else if off = 0x2C then 0x5140 * 2 ^ 16 + 0x1F6C
  else 0

/-! ## Meanings -/

/-- REGISTER_WRITE (R5, R6). -/
def execRegisterWrite (a : RegAcc) (s : State) := s.act (·.busWrite a)
/-- RC_READ (R5, R6): a read, with its side effects. -/
def execRcRead (a : RegAcc) (s : State) := s.act (·.busRead a)
/-- BAR2_ACCESS (R57 to R59). -/
def execBar2Access (write : Bool) (off : Nat) (v : Word) (tag : Nat) (s : State) := s.act (·.bar2 write off v tag)
/-- UNDECODED_ACCESS (R57, R479). -/
def execUndecodedAccess (write : Bool) (addr : Nat) (tag : Nat) (s : State) :=
  s.act (fun d => if decoded addr || d.boot.rstLow then d else if write then d.writeWord tag addr 0 15
    else let r := d.readWord tag addr; { r.2.2 with bus := ⟨0, r.2.1⟩ })
/-- TOP_TICK_LO_READ (R22). -/
def execTopTickLoRead (s : State) := s.act (·.busReadAt 0x110)
/-- TB_NS_READ (R332). -/
def execTbNsRead (b : Fin 4) (s : State) := s.act (·.busReadAt (R.TB_NS_NS b.val).addr)
/-- CAP_NS_READ (R348). -/
def execCapNsRead (k : Fin 8) (s : State) := s.act (·.busReadAt (R.CAP_NS_NS k.val).addr)
/-- ETH_COUNTER_READ (R306): a read of the LO word. -/
def execEthCounterRead (mac : Fin 2) (k : Fin 25) (s : State) :=
  s.act (·.busReadAt (if mac.val = 0 then (R.ETHA_CNT_LO_LO k.val).addr else (R.ETHB_CNT_LO_LO k.val).addr))
/-- FMN_LIST_NOW_LO_READ (R471). -/
def execFmnListNowLoRead (l : Fin 4) (s : State) := s.act (·.busReadAt (R.FMN_LIST_NOW_LO_NOW_LO l.val).addr)

end Sys2Proof.Machine
end

