-- ==== Sys2Proof/Machine/Tick.lean ====
section
/-! DEFINITION. A tick boundary and a service instant (spec 01 R21 to R29, R551; 02 R66, R70): the order in which the units act. -/
namespace Sys2Proof.Machine

/-! ## Processing a block (R18, R24) -/

/-- Output digest of a block (R405): every driven patch destination's exported sample in entry order, sample by sample (log 45). -/
def outDigest (d : Dev) (sig : Bank) : Nat :=
  let dests := ((patchEntries d).filter (fun e => !(patchDrivers d).2.contains e.1)).map (fun e => e.2.2)
  let bytes := (List.range d.blockB).flatMap (fun n => dests.flatMap (fun x => leBytes 3 (tc 24 (exportS24 ((Bank.at d sig x).getD n 0)))))
  crcBytes 0xFFFFFFFF bytes ^^^ 0xFFFFFFFF

/-- Block `t` goes through crosspoint, render lanes, output chains, patch and egress into the port buffers; meters and DSP sends
follow. -/
def Dev.processBlock (d : Dev) (t : Nat) (b : Boundary) : Dev :=
  let level := d.levelNow
  let src := d.banks.src
  let (buses, d) := xptBlock d t src (limOffBuses d level)
  let (feeds, d) := objBlock d t level (Bank.at d buses) b.lateObjs b.heldObjs
  let (chains, d) := outBlock d t level feeds buses b.lateConv b.lateDelay
  let (sig, d) := patchBlock d chains buses feeds src
  let (out, d) := slpEgress d t sig
  let d := (d.fillPorts out).fillStreams t out
  let d := mtrBlock d (fun kind i => Bank.at d (if kind = 1 then src else if kind = 2 then buses else if kind = 3 then feeds else chains) i)
  let sends := sendBlock d buses
  let d := d.storeSends t ((List.range 256).map (Bank.at d sends))
  let digest := if d.effEn tthBase then outDigest d sig else 0
  { d with banks := { d.banks with dst := buses }, tth := { d.tth with outNext := digest } }

/-- Bytes of DRAM that memory has failed to keep. -/
def Dev.dramUpset (d : Dev) (l : List (Nat × Byte)) : Dev :=
  { d with dram := l.foldl (fun m x => memWrite m x.1 [x.2.toNat]) d.dram }

/-- No block was processed in the interval that ended: what is shown of the last one is at rest (R551). -/
def Dev.rested (d : Dev) : Dev := d.xptRested.objRested.outRested.slpRested

/-- The tick that ends: block `t` in RUN, silence to the streams and DSP cores otherwise. -/
def Dev.endTick (d : Dev) (t : Nat) (b : Boundary) : Dev :=
  let d := d.dramUpset b.upsets
  if d.top.st = .run then d.processBlock t b
  else ((d.fillStreams t []).storeSends t []).rested

/-- Block `t` is complete at its boundary: the receive streams' blocks are taken and the source bank is formed (R24, R166). -/
def Dev.takeInputs (d : Dev) (t : Nat) : Dev :=
  if d.top.st = .run then
    let (rxs, d) := d.rxTaken.foldl (fun (acc : List (Nat × RxBlock) × Dev) s =>
      let (x, d) := acc.2.rxBlock s t
      (acc.1 ++ [(s, x)], d)) ([], d)
    let (src, d) := slpIngress d t rxs
    { d with banks := { d.banks with src := src } }.drainPorts t
  else d.drainPorts t

/-! ## Overruns (R28) -/

/-- The block due for emission is or is not complete. -/
def Dev.judgeEmission (d : Dev) (notReady : Bool) : Dev :=
  if d.top.st = .run && notReady then d.overrun.overrunLimit else { d with top := { d.top with overruns := 0 } }

/-! ## What boundaries and service instants share -/

/-- What the interval that ends has noted is what health reports from now on (R551). -/
def Dev.closeInterval (d : Dev) : Dev := { (List.range 8).foldl Dev.grpClose d with lastEv := d.ev, ev := [] }

/-- Commands: validations, everything due in fetch order, then writes held up to now: one that completes at its start has not completed
before this boundary (R88). Barriers that waited for those complete with them. -/
def Dev.commandStep (d : Dev) : Dev :=
  let go := d.heldReady
  let d := { d with hre := { d.hre with heldGo := false } }
  (((((d.commitValidates).applyDue).startThese go).barriers).commitTell).afterCommands

/-- The reports of a boundary or service instant: health, event records, then HRE's service (R66, R92). -/
def Dev.reportStep (d : Dev) (b : Boundary) : Dev :=
  ((d.healthAll b.overtime true).eventRecords.outStats).service b

/-! ## The tick boundary -/

/-- The counter moves on, or is loaded from the marker where a standby realigns, which waits for one (R21, R392). -/
def Dev.nextTick (d : Dev) : Dev :=
  let (t, due) := match d.tth.realign, d.tth.marker with
    | true, some m => (m.tick % 2 ^ 48, false)
    | due, _ => ((d.top.tick + 1) % 2 ^ 48, due)
  { d with top := { d.top with tick := t, mediaAcc := 0, started := true, idle := blockUnits.filter (fun b => !d.works b) }, tbu := { d.tbu with since := 0 },
           tth := { d.tth with realign := due } }

/-- The units act at boundary `t`, the counter standing at t. -/
def Dev.atBoundary (d : Dev) (b : Boundary) : Dev :=
  let t := d.top.tick
  let d := d.fmnPrepare.slpLatch
  let d := ((((List.range 8).foldl Dev.grpBoundary d).strBoundary).bankRestarts).endFades
  let d := ((d.coresBusy.dspBoundary t).tthBoundary).mirrorRegs.fmnEmin
  let d := (((d.healthAll b.overtime false).stateStep).commandStep.judgeBanks).tthHandover.fmnRelease.realignDone
  let d := (((d.takeInputs t).stampAll t).capTick).tbLatch
  ((d.txDue (t - 2)).txKicks).pickLanes

/-- A tick boundary (R21). It comes only while the tick generator runs. -/
def Dev.boundary (d : Dev) (b : Boundary) : Dev :=
  if !d.flag R.TOP_RATE_TICK_RUN || d.ref.tickWait || !d.awake then d
  else
    let ended := d.top.started
    let d := (d.ageRings.timePasses b.cycles).hostStores b.hostWrites
    let again := d.top.st = .run && b.notReady
    let d := { d with top := { d.top with fading := false }, tth := { d.tth with outNow := d.tth.outNext } }
    let d := if again then d.strRepeat (d.top.tick - 1) else d
    let d := ((d.emitBlock again).endTick d.top.tick b).closeInterval
    let d := ((d.judgeEmission b.notReady).nextTick).atBoundary b
    let d := (((d.pwrService ended).markerSend.transferStep).markerCheck).fitCheck
    let d := d.mtrSnapshot
    d.panCompute.lockSets.reportStep b

/-! ## The service instant (R551) -/

/-- A service instant, which comes only while the tick does not run. -/
def Dev.serviceInstant (d : Dev) (b : Boundary) : Dev :=
  if d.running then d
  else
    let d := ((d.ageRings.timePasses b.cycles).hostStores b.hostWrites).closeInterval.rested.coresBusy
    let d := d.healthAll b.overtime false
    let d := if d.tickOn then d else d.stateStep
    let d := if d.awake then d.commandStep.realignDone else d
    ((d.pwrService false).fitCheck).reportStep b

/-! ## Meanings -/

/-- TICK_BOUNDARY (R21). -/
def execTickBoundary (b : Boundary) (s : State) := s.act (·.boundary b)
/-- SERVICE_INSTANT (R551). -/
def execServiceInstant (b : Boundary) (s : State) := s.act (·.serviceInstant b)

end Sys2Proof.Machine
end

