-- ==== Sys2Proof/Machine/Dispatch.lean ====
section
/-! DEFINITION. One arm per command: a direct call of its meaning. -/
namespace Sys2Proof.Machine

/-- The meaning of every command. -/
def exec (i : Instr) (s : State) : Host.Outcome State Fault Refusal :=
  match i with
  | .tickBoundary b => Sys2Proof.Machine.execTickBoundary b s
  | .serviceInstant b => Sys2Proof.Machine.execServiceInstant b s
  | .overrunLimit => Sys2Proof.Machine.execOverrunLimit s
  | .stateReqSetup => Sys2Proof.Machine.execStateReqSetup s
  | .stateReqRun => Sys2Proof.Machine.execStateReqRun s
  | .stateReqSafe => Sys2Proof.Machine.execStateReqSafe s
  | .stateReqStandby => Sys2Proof.Machine.execStateReqStandby s
  | .stateTransition => Sys2Proof.Machine.execStateTransition s
  | .safeEntry => Sys2Proof.Machine.execSafeEntry s
  | .topRateWrite v => Sys2Proof.Machine.execTopRateWrite v s
  | .topPipeWrite v => Sys2Proof.Machine.execTopPipeWrite v s
  | .topTickLoRead => Sys2Proof.Machine.execTopTickLoRead s
  | .tickLoad v => Sys2Proof.Machine.execTickLoad v s
  | .tickSyncEdge => Sys2Proof.Machine.execTickSyncEdge s
  | .tickSyncMissed => Sys2Proof.Machine.execTickSyncMissed s
  | .unitReset base v => Sys2Proof.Machine.execUnitReset base v s
  | .unitHold base v => Sys2Proof.Machine.execUnitHold base v s
  | .unitEnable base v => Sys2Proof.Machine.execUnitEnable base v s
  | .unitResetDone base cut => Sys2Proof.Machine.execUnitResetDone base cut s
  | .registerWrite a => Sys2Proof.Machine.execRegisterWrite a s
  | .rcRead a => Sys2Proof.Machine.execRcRead a s
  | .ringVectorTrigger => Sys2Proof.Machine.execRingVectorTrigger s
  | .urgentPoll => Sys2Proof.Machine.execUrgentPoll s
  | .urgentPollRun b => Sys2Proof.Machine.execUrgentPollRun b s
  | .hostMemoryError w => Sys2Proof.Machine.execHostMemoryError w s
  | .msixUnmask v => Sys2Proof.Machine.execMsixUnmask v s
  | .bar2Access write off v tag => Sys2Proof.Machine.execBar2Access write off v tag s
  | .undecodedAccess write addr tag => Sys2Proof.Machine.execUndecodedAccess write addr tag s
  | .nop c => Sys2Proof.Machine.execNop c s
  | .barrier c => Sys2Proof.Machine.execBarrier c s
  | .barrierComplete => Sys2Proof.Machine.execBarrierComplete s
  | .tableWrite c => Sys2Proof.Machine.execTableWrite c s
  | .tableWriteCopyDone err => Sys2Proof.Machine.execTableWriteCopyDone err s
  | .heldWriteStart => Sys2Proof.Machine.execHeldWriteStart s
  | .tableRead c => Sys2Proof.Machine.execTableRead c s
  | .tableReadCopyDone err => Sys2Proof.Machine.execTableReadCopyDone err s
  | .sceneCommit c => Sys2Proof.Machine.execSceneCommit c s
  | .sceneCommitDiscard c => Sys2Proof.Machine.execSceneCommitDiscard c s
  | .sceneCommitAct => Sys2Proof.Machine.execSceneCommitAct s
  | .panValidate => Sys2Proof.Machine.execPanValidate s
  | .objSet c => Sys2Proof.Machine.execObjSet c s
  | .objKeyframe c => Sys2Proof.Machine.execObjKeyframe c s
  | .panCompute => Sys2Proof.Machine.execPanCompute s
  | .objCWrite v => Sys2Proof.Machine.execObjCWrite v s
  | .objectReadmit => Sys2Proof.Machine.execObjectReadmit s
  | .laneLost l parity => Sys2Proof.Machine.execLaneLost l parity s
  | .xptNodes c => Sys2Proof.Machine.execXptNodes c s
  | .xptRampSet c => Sys2Proof.Machine.execXptRampSet c s
  | .parity n k => Sys2Proof.Machine.execParity n k s
  | .mtrCfg c => Sys2Proof.Machine.execMtrCfg c s
  | .mtrSnapshot => Sys2Proof.Machine.execMtrSnapshot s
  | .outBankLoad c => Sys2Proof.Machine.execOutBankLoad c s
  | .bankCopyDone ch b err => Sys2Proof.Machine.execBankCopyDone ch b err s
  | .bankTransformDone ch b => Sys2Proof.Machine.execBankTransformDone ch b s
  | .bankRestart ch b => Sys2Proof.Machine.execBankRestart ch b s
  | .outSwap c => Sys2Proof.Machine.execOutSwap c s
  | .crossfadeEnd => Sys2Proof.Machine.execCrossfadeEnd s
  | .patchSet c => Sys2Proof.Machine.execPatchSet c s
  | .portCfg c => Sys2Proof.Machine.execPortCfg c s
  | .maskApply p => Sys2Proof.Machine.execMaskApply p s
  | .portRestartApply p => Sys2Proof.Machine.execPortRestartApply p s
  | .tdmFrame g f => Sys2Proof.Machine.execTdmFrame g f s
  | .groupResync g => Sys2Proof.Machine.execGroupResync g s
  | .clkLost g => Sys2Proof.Machine.execClkLost g s
  | .rateChg g dev => Sys2Proof.Machine.execRateChg g dev s
  | .groupRateRecover g => Sys2Proof.Machine.execGroupRateRecover g s
  | .captureBlockEnd p => Sys2Proof.Machine.execCaptureBlockEnd p s
  | .playBlockStart p => Sys2Proof.Machine.execPlayBlockStart p s
  | .capRecordCopy p => Sys2Proof.Machine.execCapRecordCopy p s
  | .plyRecordFetch p => Sys2Proof.Machine.execPlyRecordFetch p s
  | .repeatModeEntry p => Sys2Proof.Machine.execRepeatModeEntry p s
  | .asrcSettled a dev => Sys2Proof.Machine.execAsrcSettled a dev s
  | .asrcAcquireTimeout a => Sys2Proof.Machine.execAsrcAcquireTimeout a s
  | .asrcRelock a dev => Sys2Proof.Machine.execAsrcRelock a dev s
  | .ethRxFrame mac f => Sys2Proof.Machine.execEthRxFrame mac f s
  | .pauseHoldExpire mac => Sys2Proof.Machine.execPauseHoldExpire mac s
  | .xoffRefresh mac => Sys2Proof.Machine.execXoffRefresh mac s
  | .nrxCopy mac => Sys2Proof.Machine.execNrxCopy mac s
  | .ntxFrame mac lead readErr => Sys2Proof.Machine.execNtxFrame mac lead readErr s
  | .linkChg mac v => Sys2Proof.Machine.execLinkChg mac v s
  | .ethModeWrite mac v => Sys2Proof.Machine.execEthModeWrite mac v s
  | .ethMacHiWrite mac e v => Sys2Proof.Machine.execEthMacHiWrite mac e v s
  | .ethPauseCtlWrite mac v => Sys2Proof.Machine.execEthPauseCtlWrite mac v s
  | .ethCounterRead mac k => Sys2Proof.Machine.execEthCounterRead mac k s
  | .streamCfg c => Sys2Proof.Machine.execStreamCfg c s
  | .streamRateCheck str dev => Sys2Proof.Machine.execStreamRateCheck str dev s
  | .streamRateRecover str => Sys2Proof.Machine.execStreamRateRecover str s
  | .streamInactive str => Sys2Proof.Machine.execStreamInactive str s
  | .pathLost str mac => Sys2Proof.Machine.execPathLost str mac s
  | .txPacketQueue str => Sys2Proof.Machine.execTxPacketQueue str s
  | .txLate mac str => Sys2Proof.Machine.execTxLate mac str s
  | .timeSteerSet c => Sys2Proof.Machine.execTimeSteerSet c s
  | .timeSteerStep c => Sys2Proof.Machine.execTimeSteerStep c s
  | .timeSteerRate c => Sys2Proof.Machine.execTimeSteerRate c s
  | .timeSteerOffset c => Sys2Proof.Machine.execTimeSteerOffset c s
  | .ppsEdge rising => Sys2Proof.Machine.execPpsEdge rising s
  | .ppsMissing b => Sys2Proof.Machine.execPpsMissing b s
  | .servoTbSample b => Sys2Proof.Machine.execServoTbSample b s
  | .tbRateWrite b v => Sys2Proof.Machine.execTbRateWrite b v s
  | .tbServoWrite b v => Sys2Proof.Machine.execTbServoWrite b v s
  | .tbNsRead b => Sys2Proof.Machine.execTbNsRead b s
  | .snap => Sys2Proof.Machine.execSnap s
  | .capEdge k src rising => Sys2Proof.Machine.execCapEdge k src rising s
  | .capTrig => Sys2Proof.Machine.execCapTrig s
  | .capNsRead k => Sys2Proof.Machine.execCapNsRead k s
  | .refMeasure r fofs => Sys2Proof.Machine.execRefMeasure r fofs s
  | .refActivityLoss r => Sys2Proof.Machine.execRefActivityLoss r s
  | .refActivityReturn r => Sys2Proof.Machine.execRefActivityReturn r s
  | .qual r => Sys2Proof.Machine.execQual r s
  | .disqual r => Sys2Proof.Machine.execDisqual r s
  | .dpllLockTime p => Sys2Proof.Machine.execDpllLockTime p s
  | .refInCfgWrite r v => Sys2Proof.Machine.execRefInCfgWrite r v s
  | .dpllCtlWrite p v => Sys2Proof.Machine.execDpllCtlWrite p v s
  | .dpllFbWrite p v => Sys2Proof.Machine.execDpllFbWrite p v s
  | .select c => Sys2Proof.Machine.execSelect c s
  | .release c => Sys2Proof.Machine.execRelease c s
  | .dco c => Sys2Proof.Machine.execDco c s
  | .dcoOff c => Sys2Proof.Machine.execDcoOff c s
  | .phaseStep c => Sys2Proof.Machine.execPhaseStep c s
  | .phaseStepDone p => Sys2Proof.Machine.execPhaseStepDone p s
  | .realign c => Sys2Proof.Machine.execRealign c s
  | .realignPlace r => Sys2Proof.Machine.execRealignPlace r s
  | .realignTimeout r => Sys2Proof.Machine.execRealignTimeout r s
  | .requalify c => Sys2Proof.Machine.execRequalify c s
  | .fmnSubmit c => Sys2Proof.Machine.execFmnSubmit c s
  | .fmnCancel c => Sys2Proof.Machine.execFmnCancel c s
  | .fmnRelease => Sys2Proof.Machine.execFmnRelease s
  | .taskDeliver => Sys2Proof.Machine.execTaskDeliver s
  | .fmnSwtickWrite v => Sys2Proof.Machine.execFmnSwtickWrite v s
  | .fmnListCfgWrite l v => Sys2Proof.Machine.execFmnListCfgWrite l v s
  | .fmnListNowLoRead l => Sys2Proof.Machine.execFmnListNowLoRead l s
  | .fmnParityError => Sys2Proof.Machine.execFmnParityError s
  | .coreStart k => Sys2Proof.Machine.execCoreStart k s
  | .coreMboxWrite k v => Sys2Proof.Machine.execCoreMboxWrite k v s
  | .interrupt k => Sys2Proof.Machine.execInterrupt k s
  | .mpy k x a b ops => Sys2Proof.Machine.execMpy k x a b ops s
  | .mac k x a b ops => Sys2Proof.Machine.execMac k x a b ops s
  | .msu k x a b ops => Sys2Proof.Machine.execMsu k x a b ops s
  | .mac2 k x a b e f ops => Sys2Proof.Machine.execMac2 k x a b e f ops s
  | .pmac k x y a b e f ops => Sys2Proof.Machine.execPmac k x y a b e f ops s
  | .clr k x ops => Sys2Proof.Machine.execClr k x ops s
  | .ext k t x sh ops => Sys2Proof.Machine.execExt k t x sh ops s
  | .exta k t x sh ops => Sys2Proof.Machine.execExta k t x sh ops s
  | .extt k t x sh ops => Sys2Proof.Machine.execExtt k t x sh ops s
  | .exp k t src ops => Sys2Proof.Machine.execExp k t src ops s
  | .norm k t a ops => Sys2Proof.Machine.execNorm k t a ops s
  | .bflt k t a ops => Sys2Proof.Machine.execBflt k t a ops s
  | .ash k t a b ops => Sys2Proof.Machine.execAsh k t a b ops s
  | .aluOp k op ops => Sys2Proof.Machine.execAluOp k op ops s
  | .load k m ops => Sys2Proof.Machine.execLoad k m ops s
  | .store k m ops => Sys2Proof.Machine.execStore k m ops s
  | .loop k c stop ops => Sys2Proof.Machine.execLoop k c stop ops s
  | .lpop k a b e ops => Sys2Proof.Machine.execLpop k a b e ops s
  | .lpush k a b e ops => Sys2Proof.Machine.execLpush k a b e ops s
  | .rep k c ops => Sys2Proof.Machine.execRep k c ops s
  | .branch k target taken ops => Sys2Proof.Machine.execBranch k target taken ops s
  | .call k target ops => Sys2Proof.Machine.execCall k target ops s
  | .return k ops => Sys2Proof.Machine.execReturn k ops s
  | .rti k ops => Sys2Proof.Machine.execRti k ops s
  | .tget k ops => Sys2Proof.Machine.execTget k ops s
  | .tdone k a ops => Sys2Proof.Machine.execTdone k a ops s
  | .dwait k n ops => Sys2Proof.Machine.execDwait k n ops s
  | .dmaCmd k v ops => Sys2Proof.Machine.execDmaCmd k v ops s
  | .dmaTransferDone k err => Sys2Proof.Machine.execDmaTransferDone k err s
  | .msg k v ops => Sys2Proof.Machine.execMsg k v ops s
  | .dmcCfgWrite v => Sys2Proof.Machine.execDmcCfgWrite v s
  | .dlyWrite lane reg v => Sys2Proof.Machine.execDlyWrite lane reg v s
  | .dmcCheckGo v => Sys2Proof.Machine.execDmcCheckGo v s
  | .checkDone lanes => Sys2Proof.Machine.execCheckDone lanes s
  | .dmcRecheckWrite v => Sys2Proof.Machine.execDmcRecheckWrite v s
  | .dramRecheck bad => Sys2Proof.Machine.execDramRecheck bad s
  | .mr4Poll l => Sys2Proof.Machine.execMr4Poll l s
  | .refreshExpiry c qos => Sys2Proof.Machine.execRefreshExpiry c qos s
  | .owedRefreshFlush c qos => Sys2Proof.Machine.execOwedRefreshFlush c qos s
  | .rankPowerDown c r => Sys2Proof.Machine.execRankPowerDown c r s
  | .sensorSample readings => Sys2Proof.Machine.execSensorSample readings s
  | .railSample current voltage rails => Sys2Proof.Machine.execRailSample current voltage rails s
  | .supply => Sys2Proof.Machine.execSupply s
  | .supplyCauseClear => Sys2Proof.Machine.execSupplyCauseClear s
  | .overtempSafeCause => Sys2Proof.Machine.execOvertempSafeCause s
  | .overtempReset => Sys2Proof.Machine.execOvertempReset s
  | .levelRise => Sys2Proof.Machine.execLevelRise s
  | .padCheck cls idx drive read => Sys2Proof.Machine.execPadCheck cls idx drive read s
  | .pinOpenTestGo v => Sys2Proof.Machine.execPinOpenTestGo v s
  | .openTestDone inputs => Sys2Proof.Machine.execOpenTestDone inputs s
  | .pinFlagsClear v => Sys2Proof.Machine.execPinFlagsClear v s
  | .hello h => Sys2Proof.Machine.execHello h s
  | .helloSend => Sys2Proof.Machine.execHelloSend s
  | .tickMarker m => Sys2Proof.Machine.execTickMarker m s
  | .mirrorCommand c data => Sys2Proof.Machine.execMirrorCommand c data s
  | .mirrorAck cs => Sys2Proof.Machine.execMirrorAck cs s
  | .mirrorAckTimeout => Sys2Proof.Machine.execMirrorAckTimeout s
  | .mirrorFrame f => Sys2Proof.Machine.execMirrorFrame f s
  | .mirrorStateCopy m => Sys2Proof.Machine.execMirrorStateCopy m s
  | .settleDone => Sys2Proof.Machine.execSettleDone s
  | .tetherLinkUp => Sys2Proof.Machine.execTetherLinkUp s
  | .tetherDown => Sys2Proof.Machine.execTetherDown s
  | .hbLost pin link => Sys2Proof.Machine.execHbLost pin link s
  | .tickStall => Sys2Proof.Machine.execTickStall s
  | .ownInChange level => Sys2Proof.Machine.execOwnInChange level s
  | .ownReleaseDelay => Sys2Proof.Machine.execOwnReleaseDelay s
  | .padForceHiz o => Sys2Proof.Machine.execPadForceHiz o s
  | .ownDeferExpiry => Sys2Proof.Machine.execOwnDeferExpiry s
  | .ownershipChange o => Sys2Proof.Machine.execOwnershipChange o s
  | .trip => Sys2Proof.Machine.execTrip s
  | .handover => Sys2Proof.Machine.execHandover s
  | .reclaim => Sys2Proof.Machine.execReclaim s
  | .handoverAnnounce h => Sys2Proof.Machine.execHandoverAnnounce h s
  | .handoverExecute => Sys2Proof.Machine.execHandoverExecute s
  | .powerOnReset => Sys2Proof.Machine.execPowerOnReset s
  | .supplyLoss => Sys2Proof.Machine.execSupplyLoss s
  | .rstNReset => Sys2Proof.Machine.execRstNReset s
  | .rstNRise role bootsel keyHash minRollback => Sys2Proof.Machine.execRstNRise role bootsel keyHash minRollback s
  | .perstNReset => Sys2Proof.Machine.execPerstNReset s
  | .softReset v => Sys2Proof.Machine.execSoftReset v s
  | .spiBoot => Sys2Proof.Machine.execSpiBoot s
  | .hostBootGo v => Sys2Proof.Machine.execHostBootGo v s
  | .bootHeaderRead bytes => Sys2Proof.Machine.execBootHeaderRead bytes s
  | .bootBodyRead bytes => Sys2Proof.Machine.execBootBodyRead bytes s
  | .dpllUnlock p => Sys2Proof.Machine.execDpllUnlock p s
  | .hbPathAlive => Sys2Proof.Machine.execHbPathAlive s
  | .laneReversed lane => Sys2Proof.Machine.execLaneReversed lane s
  | .txFrameBoundary mac lead readErr => Sys2Proof.Machine.execTxFrameBoundary mac lead readErr s
  | .asrcRatioOut a dev => Sys2Proof.Machine.execAsrcRatioOut a dev s

end Sys2Proof.Machine
end

