-- ==== Sys2Proof/Safety.lean ====
section
/-! DEFINITION. What statements about the part are said with: a command completes, a run completes, vector 0 is up to date, and
every memory stands in its one canonical form. -/
namespace Sys2Proof.Machine

/-- Command `i` completes: `exec` answers a next state, the queue of waiting commands is as it was, and the part is `d` with vector 0
brought up to date (R95), which every command does last. -/
def Makes (i : Instr) (s : State) (d : Dev) : Prop := exec i s = .next { s with dev := d.vector0 }

/-- What is remembered of vector 0's condition is the condition as it stands (R95): a change from zero to non-zero that has not been
reported cannot be hidden. -/
def State.vec0Current (s : State) : Prop := s.dev.hre.vec0 = (s.dev.topEvents != 0)

/-- Host memory, DRAM and the cores' local memories stand in their canonical form: addresses rising, no byte listed that reads as an
unlisted one. -/
def Dev.memoriesWf (d : Dev) : Bool := smWf memDefault d.hostMem && smWf memDefault d.dram && smWf memDefault d.localMem

/-- A byte of host memory, of DRAM, of a core's local memory. -/
def Dev.hostByte (d : Dev) (a : Nat) : Byte := memGet d.hostMem a
def Dev.dramByte (d : Dev) (a : Nat) : Byte := memGet d.dram a
def Dev.localByte (d : Dev) (a : Nat) : Byte := memGet d.localMem a

/-- Command `c` of opcode `op` acts now: HRE serves the rings, the command waits in the pending-apply queue, its boundary has come,
and no check refuses it (R30, R41, R70, R76). -/
def Dev.applies (d : Dev) (op : Opcode) (c : Cmd) : Prop :=
  c.code = BitVec.ofNat 8 op.code ∧ d.awake = true ∧ d.works hreBase = true ∧
    d.hre.paq.any (fun e => e.cmd.id == c.id) = true ∧ d.cmdDue op c = true ∧ (d.unqueue c).refused op c = none

/-- The part once a command's effect has made it `d`: the command's completion, then what follows every command. -/
def Dev.ends (d : Dev) (c : Cmd) (p : Cpl) : Dev := (d.complete c p).afterCommands

/-- A TABLE_WRITE is about to be taken: HRE serves the rings, the command is new to the queue, the queue is not full, and no check
refuses it (R41, R77, R83). -/
def Dev.takesWrite (d : Dev) (c : Cmd) : Prop :=
  c.code = BitVec.ofNat 8 Opcode.tableWrite.code ∧ d.awake = true ∧ d.works hreBase = true ∧
    d.hre.paq.any (fun e => e.cmd.id == c.id) = false ∧ d.paqTaken = false ∧ (d.enlist c).refused .tableWrite c = none

/-! ## Instructions of a DSP core -/

/-- Core `k` executes an instruction whose data registers are `dst` beside memory operations `ops`: it runs, the operations can stand
together, none raises an exception or finds the DMA queue full, and no register is written twice (R430, R431, R446, log 31). -/
def Dev.executes (d : Dev) (k : Nat) (dst : List Nat) (ops : List MemOp) : Prop :=
  coreRuns d k = true ∧ opsOk ops = true ∧ (∀ m ∈ ops, opFault d k (d.core k) m = none ∧ opStalls (d.core k) m = false) ∧
    doubled (dst ++ ops.flatMap opDests) = [] ∧
    doubled ((ops.filter (fun m => (effective (d.core k) m).2.isSome)).map (fun m => m.a.val)) = []

/-- The memory operations of an instruction, addressed by the registers `x0` it read: loads, post-modifications, stores. -/
def Dev.afterOps (d : Dev) (k : Nat) (x0 : Core) (ops : List MemOp) : Dev :=
  ops.foldl (fun d m => d.opStore k x0 m) (ops.foldl (fun d m => d.opModify k x0 m) (ops.foldl (fun d m => d.opLoad k x0 m) d))

/-- The core `c` with the place in its stream of free values that an executed instruction leaves: each takes 49 (log 13). -/
def Dev.spent (d : Dev) (k : Nat) (c : Core) : Core := { c with drawn := (d.core k).drawn + 49 }

/-- Instruction `i` completes on core `k`: the core's registers are some `c` with `P c`, and then the memory operations act. -/
def Retires (i : Instr) (s : State) (k : Nat) (ops : List MemOp) (P : Core → Prop) : Prop :=
  ∃ c : Core, Makes i s ((s.dev.setCore k (s.dev.spent k c)).afterOps k (s.dev.core k) ops) ∧ P c

/-- A plain instruction leaves everything but data registers, accumulators and sticky bits: the program counter goes on. -/
def Core.goesOn (x c : Core) : Prop :=
  c.pc = x.next.pc ∧ c.loops = x.next.loops ∧ c.rep = x.next.rep ∧ c.slot = x.next.slot ∧ c.st = x.st ∧ c.task = x.task ∧ c.a = x.a ∧
    c.o = x.o ∧ c.l = x.l ∧ c.calls = x.calls ∧ c.ipc = x.ipc ∧ c.isr = x.isr ∧ c.ie = x.ie ∧ c.late = x.late ∧ c.ha3 = x.ha3 ∧
    c.ctl = x.ctl ∧ c.q = x.q ∧ c.tblk = x.tblk

end Sys2Proof.Machine
end

