-- ==== Sys2Proof/WellFormed.lean ====
section
/-! DEFINITION. Which commands the outside world can send: operands inside the ranges that the spec gives them. The meanings are
total and do not rest on these checks; a sender that keeps to the spec sends well-formed commands only. -/
namespace Sys2Proof
open Machine

/-- Every value is a byte. -/
def bytesWf (l : List Nat) : Bool := l.all (fun b => decide (b < 256))

/-- A 48-byte fuse or firmware digest (R521, R392). -/
def digestWf (l : List Nat) : Bool := l.length == 48 && bytesWf l

/-- A descriptor comes from one of the 64 rings, or from a ring of the peer (R60, R393); ring indices have 32 bits and ticks 48. -/
def Cmd.wf (c : Cmd) : Bool :=
  (decide (c.ring < 64) || (decide (256 ≤ c.ring) && decide (c.ring < 320))) && decide (c.idx < 2 ^ 32) && decide (c.fetch < 2 ^ 48)

/-- The descriptor bears the opcode of its row (R75). -/
def Cmd.isOp (op : Opcode) (c : Cmd) : Bool := c.wf && c.code.toNat == op.code

/-- NOP's row also takes the codes that R75 does not list (R75: BAD_OPCODE). -/
def Cmd.isNop (c : Cmd) : Bool := c.wf && (c.code.toNat == 0 || (opcodeOf c.code.toNat).isNone)

/-- A payload byte at offset `o` selects the row's operation (R334, R359). -/
def Cmd.isSub (op : Opcode) (o v : Nat) (c : Cmd) : Bool := c.isOp op && c.u8 o == v

/-- DISCARD of a SCENE_COMMIT selects its row (R87). -/
def Cmd.isCommit (discard : Bool) (c : Cmd) : Bool := c.isOp .sceneCommit && bitAt (c.u8 16) 0 == discard

/-- An access inside the 64 MiB of BAR0 (R57); a 32-bit access has four byte enables (R5). -/
def RegAcc.wf (a : RegAcc) : Bool := decide (a.addr < 0x4000000) && (a.wide || decide (a.be.toNat < 16))

/-- At most two data accesses per cycle (R424), each inside the 16 address and 32 data registers, an even data register for a pair. -/
def MemOp.wf (m : MemOp) : Bool := !m.wide || m.reg.val % 2 == 0
def opsWf (l : List MemOp) : Bool := decide (l.length ≤ 2) && l.all MemOp.wf

/-- Transactions that a master of the fabric may have in flight (R476). -/
def outstanding (m : Nat) : Nat := if m = 0 ∨ m = 9 then 32 else if m = 6 ∨ m = 7 then 64 else 16

/-- No master has more transactions in a queue than it may have in flight. -/
def queueWf (l : List Queued) : Bool :=
  l.all (fun x => decide (x.master ≤ 10)) && (List.range 10).all (fun m => decide ((l.filter (fun x => x.master == m)).length ≤ outstanding m))

/-- A burst crosses no 4 KiB boundary (R476), and its address lies in the fabric's space. -/
def CutBurst.wf (x : CutBurst) : Bool :=
  decide (x.master < 10) && decide (x.addr < 2 ^ 35) && decide (x.addr % 4096 + x.data.length ≤ 4096) && (x.write || x.data.isEmpty)

/-- Host memory addresses have 64 bits; only writable units by header, objects, chains inside their capacities (R3). -/
def Boundary.wf (b : Boundary) : Bool :=
  b.hostWrites.all (fun w => decide (w.1 + w.2.length ≤ 2 ^ 64)) && b.heldObjs.all (fun o => decide (o < 2048)) &&
  b.lateObjs.all (fun o => decide (o < 2048)) && b.lateConv.all (fun x => decide (x.1 < 1024)) &&
  b.lateDelay.all (fun x => decide (x.1 < 1024)) && b.upsets.all (fun x => decide (x.1 < 2 ^ 34)) && b.overtime.all (fun u => (unitAt u).isSome)

/-- A ring number of a failed access (R60). -/
def HostAccess.wf : HostAccess → Bool
  | .descriptor r => decide (r < 64)
  | .doorbell => true
  | .ringWrite r => decide (r < 64)
  | .statusPage => true
  | .copy _ => true

/-- A frame of a group of four ports: at most 1,024 BCLK periods and 31 of the next frame on each line (R251, R253), the edge's phase
below a sample. -/
def TdmFrame.wf (f : TdmFrame) : Bool :=
  decide (f.phase < 4096) && decide (f.sdi.length ≤ 4) && f.sdi.all (fun w => decide (w < 2 ^ 1055))

/-- The command is one that the outside world can send. -/
def Instr.wf : Instr → Bool
  | .tickBoundary b | .serviceInstant b | .urgentPollRun b => b.wf
  | .unitReset u v | .unitHold u v | .unitEnable u v => (unitAt u).isSome && decide (v.toNat < 8)
  | .unitResetDone u l => (unitAt u).isSome && l.all CutBurst.wf
  | .registerWrite a | .rcRead a => a.wf
  | .hostMemoryError w => w.wf
  | .bar2Access _ off _ tag => decide (off < 2 ^ 28) && decide (tag < 256)
  | .undecodedAccess _ a tag => !decoded a && decide (a < 0x4000000) && decide (tag < 256)
  | .nop c => c.isNop
  | .barrier c => c.isOp .barrier
  | .tableWrite c => c.isOp .tableWrite
  | .tableRead c => c.isOp .tableRead
  | .sceneCommit c => c.isCommit false
  | .sceneCommitDiscard c => c.isCommit true
  | .objSet c => c.isOp .objSet
  | .objKeyframe c => c.isOp .objKeyframe
  | .xptNodes c => c.isOp .xptNodes
  | .xptRampSet c => c.isOp .xptRampSet
  | .mtrCfg c => c.isOp .mtrCfg
  | .outBankLoad c => c.isOp .outBankLoad
  | .outSwap c => c.isOp .outSwap
  | .patchSet c => c.isOp .patchSet
  | .portCfg c => c.isOp .portCfg
  | .streamCfg c => c.isOp .streamCfg
  | .fmnSubmit c => c.isOp .fmnSubmit
  | .fmnCancel c => c.isOp .fmnCancel
  | .timeSteerSet c => c.isSub .timeSteer 17 0
  | .timeSteerStep c => c.isSub .timeSteer 17 1
  | .timeSteerRate c => c.isSub .timeSteer 17 2
  | .timeSteerOffset c => c.isSub .timeSteer 17 3
  | .select c => c.isSub .refCmd 16 0
  | .release c => c.isSub .refCmd 16 1
  | .dco c => c.isSub .refCmd 16 2
  | .dcoOff c => c.isSub .refCmd 16 3
  | .phaseStep c => c.isSub .refCmd 16 4
  | .realign c => c.isSub .refCmd 16 5
  | .requalify c => c.isSub .refCmd 16 6
  | .mirrorCommand m data => m.cmd.wf && decide (256 ≤ m.cmd.ring) && bytesWf data && bytesWf m.head.payload
  | .tickMarker m => bytesWf m.marker.head.payload
  | .mirrorStateCopy m => bytesWf m.head.payload
  | .tdmFrame _ f => f.wf
  | .ethRxFrame _ f => bytesWf f.bytes
  | .mpy _ _ _ _ l | .mac _ _ _ _ l | .msu _ _ _ _ l => opsWf l
  | .mac2 _ _ _ _ _ _ l => opsWf l
  | .pmac _ _ _ _ _ _ _ l => opsWf l
  | .clr _ _ l => opsWf l
  | .ext _ _ _ _ l | .exta _ _ _ _ l | .extt _ _ _ _ l => opsWf l
  | .exp _ _ _ l => opsWf l
  | .norm _ _ _ l | .bflt _ _ _ l => opsWf l
  | .ash _ _ _ _ l => opsWf l
  | .aluOp _ _ l => opsWf l
  | .load _ m l => !m.store && opsWf (m :: l)
  | .store _ m l => m.store && opsWf (m :: l)
  | .loop _ _ _ l => opsWf l
  | .lpop _ _ _ _ l | .lpush _ _ _ _ l => opsWf l
  | .rep _ _ l => opsWf l
  | .branch _ _ _ l => opsWf l
  | .call _ _ l => opsWf l
  | .return _ l | .rti _ l | .tget _ l => opsWf l
  | .tdone _ _ l => opsWf l
  | .dwait _ _ l => opsWf l
  | .dmaCmd _ _ l | .msg _ _ l => decide (l.length ≤ 1) && l.all (fun m => !m.store && m.wf)
  | .sensorSample l => decide (l.length ≤ 16)
  | .railSample _ _ l => decide (l.length ≤ 6)
  | .mr4Poll l => decide (l.length ≤ 8)
  | .refreshExpiry _ q | .owedRefreshFlush _ q => queueWf q
  | .openTestDone l => l.all (fun x => decide (x < 64))
  | .rstNRise _ _ k _ => match k with | some l => digestWf l | none => true
  | .bootHeaderRead (some l) => l.length == 256 && bytesWf l
  | .bootBodyRead (some l) => bytesWf l
  | .mirrorFrame f => bytesWf f.head.payload
  | .handoverAnnounce h => decide (h < 2 ^ 48)
  | .overrunLimit | .stateReqSetup | .stateReqRun | .stateReqSafe | .stateReqStandby | .stateTransition | .safeEntry
  | .topRateWrite .. | .topPipeWrite .. | .topTickLoRead | .tickLoad .. | .tickSyncEdge | .tickSyncMissed
  | .ringVectorTrigger | .urgentPoll | .msixUnmask .. | .barrierComplete | .tableWriteCopyDone .. | .heldWriteStart
  | .tableReadCopyDone .. | .sceneCommitAct | .panValidate | .panCompute | .objCWrite .. | .objectReadmit
  | .laneLost .. | .parity .. | .mtrSnapshot | .bankCopyDone .. | .bankTransformDone .. | .bankRestart ..
  | .crossfadeEnd | .maskApply .. | .portRestartApply .. | .groupResync .. | .clkLost .. | .rateChg ..
  | .groupRateRecover .. | .captureBlockEnd .. | .playBlockStart .. | .capRecordCopy .. | .plyRecordFetch ..
  | .repeatModeEntry .. | .asrcSettled .. | .asrcAcquireTimeout .. | .asrcRelock .. | .pauseHoldExpire ..
  | .xoffRefresh .. | .nrxCopy .. | .ntxFrame .. | .linkChg .. | .ethModeWrite .. | .ethMacHiWrite ..
  | .ethPauseCtlWrite .. | .ethCounterRead .. | .streamRateCheck .. | .streamRateRecover .. | .streamInactive ..
  | .pathLost .. | .txPacketQueue .. | .txLate .. | .ppsEdge .. | .ppsMissing .. | .servoTbSample ..
  | .tbRateWrite .. | .tbServoWrite .. | .tbNsRead .. | .snap | .capEdge .. | .capTrig | .capNsRead ..
  | .refMeasure .. | .refActivityLoss .. | .refActivityReturn .. | .qual .. | .disqual .. | .dpllLockTime ..
  | .refInCfgWrite .. | .dpllCtlWrite .. | .dpllFbWrite .. | .phaseStepDone .. | .realignPlace ..
  | .realignTimeout .. | .fmnRelease | .taskDeliver | .fmnSwtickWrite .. | .fmnListCfgWrite .. | .fmnListNowLoRead ..
  | .fmnParityError | .coreStart .. | .coreMboxWrite .. | .interrupt .. | .dmaTransferDone .. | .dmcCfgWrite ..
  | .dlyWrite .. | .dmcCheckGo .. | .checkDone .. | .dmcRecheckWrite .. | .dramRecheck .. | .rankPowerDown ..
  | .supply | .supplyCauseClear | .overtempSafeCause | .overtempReset | .levelRise | .padCheck .. | .pinOpenTestGo ..
  | .pinFlagsClear .. | .hello .. | .helloSend | .mirrorAck .. | .mirrorAckTimeout
  | .settleDone | .tetherLinkUp | .tetherDown | .hbLost .. | .tickStall | .ownInChange ..
  | .ownReleaseDelay | .padForceHiz .. | .ownDeferExpiry | .ownershipChange .. | .trip | .handover | .reclaim
  | .handoverExecute | .powerOnReset | .supplyLoss | .rstNReset | .perstNReset | .softReset .. | .spiBoot
  | .hostBootGo .. | .bootHeaderRead none | .bootBodyRead none | .dpllUnlock .. | .hbPathAlive | .laneReversed ..
  | .txFrameBoundary .. | .asrcRatioOut .. => true

end Sys2Proof
end

