-- ==== Sys2Proof/Certificates/Slice0/Obligations.lean ====
section
/-! DEFINITION. The statements about the part that the provers are given. Each says which rules of spec/ it rests on; one marked
"model's choice" rests on an entry of the assumption log. -/
open Sys2Proof Sys2Proof.Machine

/-- For every command c, rest of the queue and state s: where c stands at the front, step of s is exec of c on s with the rest
of the queue. (01_architecture.md) -/
def Obligations.StepRunsTheFrontCommand : Prop :=
  ∀ (c : Instr) (rest : List Instr) (s : State), s.pending = c :: rest → step s = exec c { s with pending := rest }

/-- For every state with an empty queue, a step answers a next state in which one TIME cycle of 2 ns has passed, or none while
RST_N is low (R519): the model's cycle count is one more (or as before), and registers, tables, headers and the byte memories
are as before. That an empty queue means one TIME cycle is the model's choice (log 1), not the spec's. Vector 0 is brought up to
date as after every command (R95). (R53, 11_time_bases.md) -/
def Obligations.IdleStepIsOneTimeCycle : Prop :=
  ∀ s : State, s.pending = [] →
    ∃ d : Dev, step s = .next { s with dev := d.vector0 } ∧ d.tbu.now = s.dev.tbu.now + (if s.dev.boot.rstLow then 0 else 1) ∧ d.regs = s.dev.regs ∧ d.hdr = s.dev.hdr ∧
      d.tabs = s.dev.tabs ∧ d.hostMem = s.dev.hostMem ∧ d.dram = s.dev.dram ∧ d.localMem = s.dev.localMem ∧ d.free = s.dev.free

/-- For every command and every state, exec answers a next state (never a fault or a refusal), and the commands that wait are
those that waited before. (01_architecture.md, 02_control_rings.md) -/
def Obligations.NoCommandStopsThePart : Prop :=
  ∀ (c : Instr) (s : State), ∃ t : State, exec c s = .next t ∧ t.pending = s.pending

/-- For every state s with n commands waiting, n steps answer a next state with an empty queue; and for every k, k steps from s
answer a next state whose queue is that of s without its first k commands. No choice of commands and no state stops the part.
(02_control_rings.md, 01_architecture.md) -/
def Obligations.QueueOfNCommandsDrainsInNSteps : Prop :=
  ∀ (s : State) (k : Nat), ∃ t : State, Sys2Proof.core.run k s = .next t ∧ t.pending = s.pending.drop k

/-- For every state in which the remembered condition of vector 0 is the condition as it stands (some bit of TOP UNIT_EVENT AND
UNIT_EVENT_EN is set, R50), every step that answers a next state answers one in which it is again so. (R95, R50) -/
def Obligations.Vector0ConditionIsKeptByEveryStep : Prop :=
  ∀ s t : State, s.vec0Current → step s = .next t → t.vec0Current

/-- Every command completes: there is a part d, its effect, such that the next state is d with vector 0 brought up to date. For
every d that is a command's effect in this sense (the other statements name it command by command), and the part t of the next
state: tables, headers, MACs, DRAM, local memory and the device state are d's. Where d remembers the condition as standing, or
no enabled event of TOP stands in d, or MSI-X is not enabled, host memory and every register are d's. Where the condition is new
and MSI-X enabled: with neither Function Mask nor the vector's mask set, host memory is d's with the four bytes of MSIX_DATA,
little-endian, at the vector's address, and registers are d's; with one of them set, host memory is d's and the vector's pending
bit is 1. With the condition remembered in the state itself: TICK_LOAD with LOAD = 1 outside SETUP, which sets CFG_REFUSED of
TOP, where that event is enabled and no condition stood before, sends exactly that message. (R95, R56) -/
def Obligations.Vector0SendsOnceOnTheRise : Prop :=
  (∀ (c : Instr) (s : State), ∃ d : Dev, Makes c s d) ∧
    (∀ (c : Instr) (s : State) (d : Dev), Makes c s d → ∃ t : Dev, exec c s = .next { s with dev := t } ∧
      t.hdr = d.hdr ∧ t.tabs = d.tabs ∧ t.eth = d.eth ∧ t.dram = d.dram ∧ t.localMem = d.localMem ∧ t.top = d.top ∧
      (d.hre.vec0 = true ∨ d.topEvents = 0#32 ∨ d.cfg.msixEnable = false → t.hostMem = d.hostMem ∧ t.regs = d.regs) ∧
      (d.hre.vec0 = false → d.topEvents ≠ 0#32 → d.cfg.msixEnable = true → d.cfg.funcMask = false → d.flag (R.MSIX_CTRL_MASK 0) = false →
        t.regs = d.regs ∧ t.hostMem = memWrite d.hostMem
          ((d.fld (R.MSIX_ADDR_LO_ADDR_LO 0) * 4 + d.fld (R.MSIX_ADDR_HI_ADDR_HI 0) * 2 ^ 32) % 2 ^ 64) (leBytes 4 (d.fld (R.MSIX_DATA_DATA 0)))) ∧
      (d.hre.vec0 = false → d.topEvents ≠ 0#32 → d.cfg.msixEnable = true → d.cfg.funcMask = true ∨ d.flag (R.MSIX_CTRL_MASK 0) = true →
        t.hostMem = d.hostMem ∧ bitAt (t.fld (R.MSIX_PBA_PENDING 0)) 0 = true)) ∧
    (∀ (s : State) (v : Word), bitAt v.toNat 31 = true → s.dev.top.st ≠ .setup → s.dev.hre.vec0 = false → s.dev.effEn topBase = true →
      bitAt (s.dev.hd topBase).eventEn.toNat F.topCfgRefused.bit = true → s.dev.cfg.msixEnable = true → s.dev.cfg.funcMask = false →
      s.dev.flag (R.MSIX_CTRL_MASK 0) = false →
      ∃ t : Dev, exec (.tickLoad v) s = .next { s with dev := t } ∧ t.regs = s.dev.regs ∧ t.hre.vec0 = true ∧
        t.hostMem = memWrite s.dev.hostMem ((s.dev.fld (R.MSIX_ADDR_LO_ADDR_LO 0) * 4 + s.dev.fld (R.MSIX_ADDR_HI_ADDR_HI 0) * 2 ^ 32) % 2 ^ 64)
          (leBytes 4 (s.dev.fld (R.MSIX_DATA_DATA 0))))

/-- State.reset: the device state is OFF with no request and no SAFE cause; the tick counter is 0; every register holds the
reset value of its table entry, TICK_RUN 0, DSP_LAG 2 and OVERRUN_LIMIT 8 among them; every unit has the ENABLE of R46, is not
in reset, and has no event standing; every ring is out of service; no command waits in the pending-apply queue; the role is
SOLO; nothing is listed in host memory, DRAM, local memory or any table; the queue of commands is empty; no enabled event of TOP
stands and the remembered condition of vector 0 agrees. (R37, R516, R46, R36, 18_bringup.md) -/
def Obligations.ResetLeavesThePartOff : Prop :=
  State.reset.dev.top.st = .off ∧ State.reset.dev.top.req = none ∧ State.reset.dev.top.safeCause = 0 ∧ State.reset.dev.top.tick = 0 ∧
    (∀ a, State.reset.dev.reg a = resetReg State.reset.dev.grade a) ∧ State.reset.dev.flag R.TOP_RATE_TICK_RUN = false ∧ State.reset.dev.fld R.TOP_PIPE_DSP_LAG = 2 ∧
    State.reset.dev.fld R.TOP_PIPE_OVERRUN_LIMIT = 8 ∧ (∀ u ∈ unitRows, (State.reset.dev.hd u.base).enable = u.en) ∧
    (∀ u ∈ unitRows, (State.reset.dev.hd u.base).inReset = false ∧ (State.reset.dev.hd u.base).event = 0#32) ∧
    (∀ r : Fin 64, (State.reset.dev.ring r.val).on = false) ∧ State.reset.dev.hre.paq = [] ∧ State.reset.dev.tth.role = .solo ∧
    State.reset.dev.memoriesWf = true ∧ State.reset.dev.hostMem = [] ∧ State.reset.dev.dram = [] ∧ State.reset.dev.localMem = [] ∧
    State.reset.dev.tabs = [] ∧ State.reset.vec0Current ∧ State.reset.dev.topEvents = 0#32 ∧ State.reset.pending = []

/-- STATE_REQ_SETUP, STATE_REQ_RUN, STATE_REQ_SAFE and STATE_REQ_STANDBY while a boundary is to come (the tick runs or will):
the request stands and nothing else changes, except that in RUN a request for SETUP or SAFE also acts as a trip cause of TTH
(R406), which the references follow (R360). Outside RUN, with no boundary to come and no hardware cause of SAFE, the request
takes effect at once, as STATE_TRANSITION would give it. STATE_TRANSITION with no hardware cause of SAFE and a request standing
leaves no request and the device in the state requested for: SETUP to RUN with TICK_RUN = 1, DPLL-A not OFF and the DRAM delays
checked; RUN to SETUP; RUN to SAFE, with SAFE_CAUSE 1; SAFE to SETUP; SETUP to STANDBY with the pending-apply queue empty and
TICK_RUN = 0; STANDBY to SETUP. For any other request, or where such a condition fails, it leaves no request, the part as it was
but for REFUSE and STATE_REFUSED, and REFUSE is 1 (transition not listed), 2 (tick not running), 3 (MEDIA clock not running), 4
(DRAM delays not checked), 5 (pending-apply queue not empty) or 6 (TICK_RUN = 1). (R38, R406, R37, R40) -/
def Obligations.StateTransitionsFollowR38 : Prop :=
  (∀ s : State, s.dev.tickOn = true →
    Makes .stateReqRun s { s.dev with top := { s.dev.top with req := some .run } } ∧
    Makes .stateReqStandby s { s.dev with top := { s.dev.top with req := some .standby } } ∧
    (s.dev.top.st ≠ .run →
      Makes .stateReqSetup s { s.dev with top := { s.dev.top with req := some .setup } } ∧
      Makes .stateReqSafe s { s.dev with top := { s.dev.top with req := some .safe } }) ∧
    (s.dev.top.st = .run →
      Makes .stateReqSetup s { (s.dev.trip true).refFollow with top := { (s.dev.trip true).refFollow.top with req := some .setup } } ∧
      Makes .stateReqSafe s { (s.dev.trip true).refFollow with top := { (s.dev.trip true).refFollow.top with req := some .safe } })) ∧
    (∀ (s : State) (d : Dev), s.dev.tickOn = false → s.dev.safeCauses = [] → s.dev.top.st ≠ .run →
      ∀ p ∈ ([(.stateReqSetup, .setup), (.stateReqRun, .run), (.stateReqSafe, .safe), (.stateReqStandby, .standby)] : List (Instr × DevState)),
        Makes .stateTransition { s with dev := { s.dev with top := { s.dev.top with req := some p.2 } } } d → Makes p.1 s d) ∧
    (∀ s : State, s.dev.safeCauses = [] →
    (s.dev.top.st = .setup → s.dev.top.req = some .run → s.dev.flag R.TOP_RATE_TICK_RUN = true → s.dev.fld (R.DPLL_STAT_STATE 0) ≠ 0 →
      s.dev.flag R.DMC_CHECK_CHECKED = true → ∃ d, Makes .stateTransition s d ∧ d.top.st = .run ∧ d.top.req = none) ∧
    (s.dev.top.st = .run → s.dev.top.req = some .setup → ∃ d, Makes .stateTransition s d ∧ d.top.st = .setup ∧ d.top.req = none) ∧
    (s.dev.top.st = .run → s.dev.top.req = some .safe →
      ∃ d, Makes .stateTransition s d ∧ d.top.st = .safe ∧ d.top.safeCause = 1 ∧ d.top.req = none) ∧
    (s.dev.top.st = .safe → s.dev.top.req = some .setup → ∃ d, Makes .stateTransition s d ∧ d.top.st = .setup ∧ d.top.req = none) ∧
    (s.dev.top.st = .setup → s.dev.top.req = some .standby → s.dev.hre.paq = [] → s.dev.flag R.TOP_RATE_TICK_RUN = false →
      ∃ d, Makes .stateTransition s d ∧ d.top.st = .standby ∧ d.top.req = none) ∧
    (s.dev.top.st = .standby → s.dev.top.req = some .setup → ∃ d, Makes .stateTransition s d ∧ d.top.st = .setup ∧ d.top.req = none)) ∧
    (∀ (s : State) (r : DevState) (n : Nat), s.dev.safeCauses = [] → s.dev.top.req = some r →
    ((s.dev.top.st ≠ .standby ∧ s.dev.top.st ≠ .setup ∧ s.dev.top.st ≠ .run ∧ s.dev.top.st ≠ .safe ∧ n = 1) ∨
     (s.dev.top.st = .run ∧ r ≠ .setup ∧ r ≠ .safe ∧ n = 1) ∨ (s.dev.top.st = .safe ∧ r ≠ .setup ∧ n = 1) ∨
     (s.dev.top.st = .standby ∧ r ≠ .setup ∧ n = 1) ∨ (s.dev.top.st = .setup ∧ r ≠ .run ∧ r ≠ .standby ∧ n = 1) ∨
     (s.dev.top.st = .setup ∧ r = .run ∧ s.dev.flag R.TOP_RATE_TICK_RUN = false ∧ n = 2) ∨
     (s.dev.top.st = .setup ∧ r = .run ∧ s.dev.flag R.TOP_RATE_TICK_RUN = true ∧ s.dev.fld (R.DPLL_STAT_STATE 0) = 0 ∧ n = 3) ∨
     (s.dev.top.st = .setup ∧ r = .run ∧ s.dev.flag R.TOP_RATE_TICK_RUN = true ∧ s.dev.fld (R.DPLL_STAT_STATE 0) ≠ 0 ∧
       s.dev.flag R.DMC_CHECK_CHECKED = false ∧ n = 4) ∨
     (s.dev.top.st = .setup ∧ r = .standby ∧ s.dev.hre.paq ≠ [] ∧ n = 5) ∨
     (s.dev.top.st = .setup ∧ r = .standby ∧ s.dev.hre.paq = [] ∧ s.dev.flag R.TOP_RATE_TICK_RUN = true ∧ n = 6)) →
    Makes .stateTransition s ({ s.dev with top := { s.dev.top with req := none, refuse := n } }.raise F.stateRefused))

/-- SAFE_ENTRY and STATE_TRANSITION in SETUP or RUN with a hardware cause standing: the device is in SAFE afterwards, SAFE_CAUSE
is the first standing cause in the order supply, thermal, DRAM, pads, critical unit, overruns, no request is left, and where a
request other than for SAFE stood REFUSE is 7. OVERRUN_LIMIT with OVERRUN_LIMIT not 0 and at least that many overruns in a row:
the overrun cause stands, and nothing else changes. (R38, R39, R40, R28) -/
def Obligations.HardwareCauseEntersSafe : Prop :=
  (∀ (s : State) (n : Nat) (l : List Nat), s.dev.safeCauses = n :: l → s.dev.top.st = .run ∨ s.dev.top.st = .setup →
      (∃ d, Makes .safeEntry s d ∧ d.top.st = .safe ∧ d.top.safeCause = n ∧ d.top.req = none ∧
        (∀ r, s.dev.top.req = some r → r ≠ .safe → d.top.refuse = 7)) ∧
      (∃ d, Makes .stateTransition s d ∧ d.top.st = .safe ∧ d.top.safeCause = n ∧ d.top.req = none ∧
        (∀ r, s.dev.top.req = some r → r ≠ .safe → d.top.refuse = 7))) ∧
    (∀ s : State, s.dev.fld R.TOP_PIPE_OVERRUN_LIMIT ≠ 0 → s.dev.fld R.TOP_PIPE_OVERRUN_LIMIT ≤ s.dev.top.overruns →
      Makes .overrunLimit s { s.dev with top := { s.dev.top with overrunHit := true } })

/-- TOP_RATE_WRITE of v, field by field: BLOCK, FAMILY and FS_MULT read as written afterwards in SETUP with TICK_RUN 0 (an
FS_MULT of 3 keeps the stored value) and keep their values otherwise; TICK_RUN reads as written in SETUP and keeps its value
otherwise; CFG_REFUSED is raised exactly where a field that may not change was written with another value than the stored one.
(R20) -/
def Obligations.TopRateChangesOnlyInSetup : Prop :=
  ∀ (s : State) (v : Word),
    let may := s.dev.top.st = .setup
    let stopped := s.dev.top.st = .setup ∧ s.dev.flag R.TOP_RATE_TICK_RUN = false
    let m := if bits v.toNat 0 2 = 3 then s.dev.fld R.TOP_RATE_FS_MULT else bits v.toNat 0 2
    ∃ d : Dev, exec (.topRateWrite v) s = .next { s with dev := d.vector0 } ∧
      (stopped → d.fld R.TOP_RATE_BLOCK = bits v.toNat 4 2 ∧ d.fld R.TOP_RATE_FAMILY = bits v.toNat 2 1 ∧ d.fld R.TOP_RATE_FS_MULT = m) ∧
      (¬ stopped → d.fld R.TOP_RATE_BLOCK = s.dev.fld R.TOP_RATE_BLOCK ∧ d.fld R.TOP_RATE_FAMILY = s.dev.fld R.TOP_RATE_FAMILY ∧
        d.fld R.TOP_RATE_FS_MULT = s.dev.fld R.TOP_RATE_FS_MULT) ∧
      (may → d.fld R.TOP_RATE_TICK_RUN = bits v.toNat 8 1) ∧ (¬ may → d.fld R.TOP_RATE_TICK_RUN = s.dev.fld R.TOP_RATE_TICK_RUN) ∧
      ((¬ stopped ∧ (bits v.toNat 4 2 ≠ s.dev.fld R.TOP_RATE_BLOCK ∨ bits v.toNat 2 1 ≠ s.dev.fld R.TOP_RATE_FAMILY ∨
          m ≠ s.dev.fld R.TOP_RATE_FS_MULT)) ∨ (¬ may ∧ bits v.toNat 8 1 ≠ s.dev.fld R.TOP_RATE_TICK_RUN) →
        s.dev.effEn topBase = true → bitAt (d.hd topBase).event.toNat F.topCfgRefused.bit = true) ∧
      ((stopped ∨ (bits v.toNat 4 2 = s.dev.fld R.TOP_RATE_BLOCK ∧ bits v.toNat 2 1 = s.dev.fld R.TOP_RATE_FAMILY ∧
          m = s.dev.fld R.TOP_RATE_FS_MULT)) ∧ (may ∨ bits v.toNat 8 1 = s.dev.fld R.TOP_RATE_TICK_RUN) →
        (d.hd topBase).event = (s.dev.hd topBase).event)

/-- TOP_PIPE_WRITE of v on a part that is neither a standby nor an active with a standby: DSP_MISS and OVERRUN_LIMIT read as
written in every state; DSP_LAG reads the written value clamped to 2..8 in SETUP and keeps its value otherwise; CFG_REFUSED is
set exactly where the clamped value differs from the stored one outside SETUP (TOP effectively enabled); every other register
and every other part of the state but TOP's header is unchanged. An active with a standby present first sends the write with the
boundary at which it takes effect; a standby's own host writes nothing (R395). (R36, R395) -/
def Obligations.TopPipeWriteFollowsR36 : Prop :=
  ∀ (s : State) (v : Word),
    (s.dev.isStandby = true → Makes (.topPipeWrite v) s s.dev) ∧
    (s.dev.pairActive = true →
      Makes (.topPipeWrite v) s ((s.dev.tthSend (fun h => .frame ⟨h, s.dev.top.tick, .reg 0x10C v (s.dev.top.tick + 1)⟩)).pipeWrite v)) ∧
    (s.dev.isStandby = false → s.dev.pairActive = false →
      ∃ d : Dev, Makes (.topPipeWrite v) s d ∧ d.fld R.TOP_PIPE_DSP_MISS = bits v.toNat 12 1 ∧
        d.fld R.TOP_PIPE_OVERRUN_LIMIT = bits v.toNat 0 8 ∧
        (s.dev.top.st = .setup → d.fld R.TOP_PIPE_DSP_LAG = clampN 2 8 (bits v.toNat 8 4)) ∧
        (s.dev.top.st ≠ .setup → d.fld R.TOP_PIPE_DSP_LAG = s.dev.fld R.TOP_PIPE_DSP_LAG) ∧
        (d.hd topBase).event = (if s.dev.top.st ≠ .setup ∧ clampN 2 8 (bits v.toNat 8 4) ≠ s.dev.fld R.TOP_PIPE_DSP_LAG ∧
          s.dev.effEn topBase = true then (s.dev.hd topBase).event ||| 1#32 else (s.dev.hd topBase).event) ∧
        (∀ a, a ≠ 0x10C → d.reg a = s.dev.reg a) ∧ (∀ b, b ≠ topBase → d.hd b = s.dev.hd b) ∧
        { d with regs := s.dev.regs, hdr := s.dev.hdr } = s.dev)

/-- TOP_TICK_LO_READ with RST_N high answers bits [31:0] of the counter, puts bits [47:32] into TOP_TICK_HI and changes nothing
else. TICK_LOAD with LOAD = 1 puts LOAD_HI and LOAD_LO into the counter in SETUP with TICK_RUN = 0, otherwise only sets
CFG_REFUSED; with LOAD = 0 it changes nothing. While the tick waits for its first edge: TICK_SYNC_EDGE of the reference that
REF_TICK_SYNC names (of a time base only an edge at a whole second; reference 4 where REF names none that can start the tick)
ends the wait with MISSED 0, and an edge of a base that is not a whole second changes nothing; TICK_SYNC_MISSED ends the wait
with MISSED 1. (R22, R23, R371) -/
def Obligations.TickCounterReadAndLoad : Prop :=
  (∀ s : State, s.dev.boot.rstLow = false → Makes .topTickLoRead s { s.dev with
      bus := ⟨BitVec.ofNat 64 (s.dev.top.tick % 2 ^ 32), false⟩,
      top := { s.dev.top with tickHi := s.dev.top.tick / 2 ^ 32 % 2 ^ 16 } }) ∧
    (∀ (s : State) (v : Word),
      (bitAt v.toNat 31 = true → s.dev.top.st = .setup → s.dev.flag R.TOP_RATE_TICK_RUN = false →
        Makes (.tickLoad v) s { s.dev with top := { s.dev.top with tick := bits v.toNat 0 16 * 2 ^ 32 + s.dev.top.loadLo } }) ∧
      (bitAt v.toNat 31 = true → s.dev.top.st ≠ .setup ∨ s.dev.flag R.TOP_RATE_TICK_RUN = true →
        Makes (.tickLoad v) s (s.dev.raise F.topCfgRefused)) ∧
      (bitAt v.toNat 31 = false → Makes (.tickLoad v) s s.dev)) ∧
    (∀ s : State, s.dev.ref.tickWait = true →
      (s.dev.wholeEdge (tickSyncRef s.dev) = true →
        Makes .tickSyncEdge s ({ s.dev with ref := { s.dev.ref with tickWait := false } }.setFld R.REF_TICK_SYNC_MISSED 0)) ∧
      (s.dev.wholeEdge (tickSyncRef s.dev) = false → Makes .tickSyncEdge s s.dev) ∧
      Makes .tickSyncMissed s ({ s.dev with ref := { s.dev.ref with tickWait := false } }.setFld R.REF_TICK_SYNC_MISSED 1)) ∧
    (∀ (d : Dev) (i : Nat), i < 9 → d.wholeEdge i = true)

/-- In every state: TOP's effective enable is its ENABLE, that of every other unit is its ENABLE ANDed with its parent's
effective enable; raising an event of a unit with EFF_EN = 0 changes nothing, of a unit with EFF_EN = 1 sets that bit of
UNIT_EVENT and no other. For a unit that responds (R37) and whose UNIT_CTL this part's host may write, an active first sending a
write to a core's or quad's (R450): UNIT_ENABLE stores ENABLE; UNIT_HOLD stores ENABLE and a HOLD that is not newly set; a new
HOLD by UNIT_HOLD, and UNIT_RESET, is a reset where R48 accepts it, and elsewhere stores ENABLE alone and sets HEALTH_CHG with
CAUSE 0xFF. Each is followed by what depends on enables (unitsChanged). A unit that does not respond, and on a standby one that
the active governs, keeps its header. UNIT_RESET_DONE of a reset in progress, by pulse or HOLD: the bursts that it cut short are
ended and logged (R480), IN_RESET is clear and the units follow; with none in progress nothing changes. Acceptance: RUN and SAFE
need HOT_RESET of every unit below, SETUP takes all but TOP, HRE and FAB, OFF and STANDBY take PWR, TBU, REF and PIN. (R47, R46,
R48, R552, R37, R450, R480) -/
def Obligations.UnitEnablesAndControlsFollowR47AndR48 : Prop :=
  (∀ d : Dev, d.effEn topBase = (d.hd topBase).enable ∧
    (∀ u ∈ unitRows, u.base ≠ topBase → d.effEn u.base = ((d.hd u.base).enable && d.effEn u.parent)) ∧
    (∀ f : Flag, (d.effEn f.base = false → d.raise f = d) ∧
      (d.effEn f.base = true → ((d.raise f).hd f.base).event = (d.hd f.base).event ||| BitVec.ofNat 32 (2 ^ f.bit) ∧
        (∀ b, b ≠ f.base → (d.raise f).hd b = d.hd b) ∧ { d.raise f with hdr := d.hdr } = d))) ∧
    ((∀ (s : State) (u : UnitRow) (v : Word), u ∈ unitRows → let e := s.dev.tellReg (u.base + 8) v
      let h := e.hd u.base
      let en := bitAt v.toNat 0
      let hold := bitAt v.toNat 2
      let refused : Dev := ((e.setHd u.base { h with enable := en, cause := 255 }).raise (F.healthChg u.base)).unitsChanged
      ((s.dev.isStandby && mirroredReg (u.base + 8)) = true →
        Makes (.unitEnable u.base v) s s.dev ∧ Makes (.unitHold u.base v) s s.dev ∧ Makes (.unitReset u.base v) s s.dev) ∧
      ((s.dev.isStandby && mirroredReg (u.base + 8)) = false → s.dev.opens u.base = false →
        Makes (.unitEnable u.base v) s e ∧ Makes (.unitHold u.base v) s e ∧ Makes (.unitReset u.base v) s e) ∧
      ((s.dev.isStandby && mirroredReg (u.base + 8)) = false → s.dev.opens u.base = true →
        Makes (.unitEnable u.base v) s ((e.setHd u.base { h with enable := en }).unitsChanged) ∧
        (hold = false ∨ h.hold = true → Makes (.unitHold u.base v) s ((e.setHd u.base { h with enable := en, hold := hold }).unitsChanged)) ∧
        (hold = true → h.hold = false → resetAllowed s.dev u.base = true →
          Makes (.unitHold u.base v) s ((e.resetUnit u.base en true false).unitsChanged)) ∧
        (hold = true → h.hold = false → resetAllowed s.dev u.base = false → Makes (.unitHold u.base v) s refused) ∧
        (resetAllowed s.dev u.base = true → Makes (.unitReset u.base v) s ((e.resetUnit u.base en hold true).unitsChanged)) ∧
        (resetAllowed s.dev u.base = false → Makes (.unitReset u.base v) s refused))) ∧
    (∀ (s : State) (b : Nat) (cut : List CutBurst),
      let d := (cut.filter (fun x => (mastersOf b).contains x.master)).foldl Dev.cutBurst s.dev
      ((s.dev.hd b).inReset = true ∨ (s.dev.hd b).drain = true →
        Makes (.unitResetDone b cut) s ((d.setHd b { d.hd b with inReset := false, drain := false }).unitsChanged)) ∧
      ((s.dev.hd b).inReset = false → (s.dev.hd b).drain = false → Makes (.unitResetDone b cut) s s.dev)) ∧
    (∀ (d : Dev) (b : Nat), resetAllowed d b = true ↔
      ((d.top.st = .run ∨ d.top.st = .safe) ∧ ∀ u ∈ subtree b, u.hot = true) ∨
      (d.top.st = .setup ∧ b ≠ topBase ∧ b ≠ hreBase ∧ b ≠ fabBase) ∨
      ((d.top.st = .off ∨ d.top.st = .standby) ∧ (b = pwrBase ∨ b = tbuBase ∨ b = refBase ∨ b = pinBase))))

/-- For every unit of the tree and every state, the reset of that unit leaves its own header at reset values but for the ENABLE
and HOLD of the write, IN_RESET of a pulse and the drain of a HOLD; every descendant's header at reset values (UNIT_CTL
included); every header outside the subtree as it was; and the device state, host memory, DRAM and the waiting commands of HRE
as they were. CVU0 in RUN keeps its header but for what the write gives, and its counters read 0 (R495). (R48, R6, R516, R495)
-/
def Obligations.ResetUnitRestoresTheSubtree : Prop :=
  ∀ (d : Dev) (u : UnitRow) (en hold pulse : Bool), u ∈ unitRows →
    let e := d.resetUnit u.base en hold pulse
    let kept := if u.base = cvuBase 0 ∧ d.top.st = .run then d.hd u.base else resetHdr u.base
    e.hd u.base = { kept with enable := en, hold := hold, inReset := pulse, drain := !pulse } ∧
    (∀ v ∈ unitRows, isUnder u.base v.base = true → v.base ≠ u.base →
      e.hd v.base = if v.base = cvuBase 0 ∧ d.top.st = .run then d.hd v.base else resetHdr v.base) ∧
    (∀ v ∈ unitRows, isUnder u.base v.base = false → e.hd v.base = d.hd v.base) ∧
    (u.base = cvuBase 0 → d.top.st = .run → e.fld (R.CVU_DONE_COUNT 0) = 0 ∧ e.fld (R.CVU_ERR_COUNT 0) = 0) ∧
    e.top.st = d.top.st ∧ e.hostMem = d.hostMem ∧ e.dram = d.dram ∧ e.hre.paq = d.hre.paq

/-- For every register of the table without a rule of its own, every field and every written word: afterwards an RW or RWS field
holds the written bits, a W1C field has lost the bits written as 1, a field of any other access type holds what it held; every
other register and the rest of the part is unchanged. For every register of the table without a rule of its own and every field:
the value read shows the field's bits (0 for a WO field); afterwards an RC field reads 0 and every other field holds what it
held; every other register and the rest of the part is unchanged. (R6) -/
def Obligations.RegisterFieldsFollowTheirAccessTypes : Prop :=
  (∀ (d : Dev) (a : Nat) (v : Word) (r : RegRow), rowAt a = some r →
    (∀ f ∈ r.fields, bits ((d.writePlain a v).reg a).toNat f.lo f.w =
      (match f.acc with
       | .rw => bits v.toNat f.lo f.w
       | .rws => bits v.toNat f.lo f.w
       | .w1c => bits (d.reg a).toNat f.lo f.w &&& (2 ^ f.w - 1 - bits v.toNat f.lo f.w)
       | _ => bits (d.reg a).toNat f.lo f.w)) ∧
    (∀ b, b ≠ a → (d.writePlain a v).reg b = d.reg b) ∧ { d.writePlain a v with regs := d.regs } = d) ∧
    (∀ (d : Dev) (a : Nat) (r : RegRow), rowAt a = some r →
    (∀ f ∈ r.fields, bits (d.readPlain a).1 f.lo f.w = (if f.acc = .wo then 0 else bits (d.reg a).toNat f.lo f.w) ∧
      bits ((d.readPlain a).2.reg a).toNat f.lo f.w = (if f.acc = .rc then 0 else bits (d.reg a).toNat f.lo f.w)) ∧
    (∀ b, b ≠ a → (d.readPlain a).2.reg b = d.reg b) ∧ { (d.readPlain a).2 with regs := d.regs } = d)

/-- REGISTER_WRITE and RC_READ with RST_N high, of an aligned 32-bit access to a decoded address. Of a unit that does not
respond: the write changes nothing, the read answers 0. Of a unit that responds: a write with fewer than four byte enables, and
one by a standby's own host to a mirrored register, change nothing; a write with four is first sent to the standby where an
active has one and the register is mirrored (R395), then acts on a header word as headerWrite, changes nothing at an entry above
the capacity, acts as the register's own rule where it has one (writeHit), and otherwise stores the word, within the register's
limits, field by field (writePlain); a read with four byte enables answers the header word, 0 at an entry above the capacity,
what the register's own rule gives where it has one (readHit), and otherwise the register, whose RC fields it clears
(readPlain). An aligned 64-bit write or read is the two 32-bit ones one after the other, lower address first; a read answers
both words and aborts where either does. While RST_N is low neither changes anything (R519). (R5, R6, R37, R57, R395, R519) -/
def Obligations.RegisterAccessesThroughBar0 : Prop :=
  (∀ (s : State) (x : RegAcc), s.dev.boot.rstLow = true → Makes (.registerWrite x) s s.dev ∧ Makes (.rcRead x) s s.dev) ∧
    (∀ (s : State) (x : RegAcc), s.dev.boot.rstLow = false → x.wide = false → x.addr % 4 = 0 → decoded x.addr = true →
      let d := s.dev
      let e := d.tellReg x.addr (BitVec.ofNat 32 x.data.toNat)
      let shown (r : Nat × Dev) : Dev := { r.2 with bus := ⟨BitVec.ofNat 64 (r.1 % 2 ^ 32), false⟩ }
      let word := limited x.addr (BitVec.ofNat 32 x.data.toNat)
      (d.opens (x.addr / 0x10000 * 0x10000) = false → Makes (.registerWrite x) s d ∧ Makes (.rcRead x) s { d with bus := ⟨0, false⟩ }) ∧
      (bits x.be.toNat 0 4 ≠ 15 ∨ (d.isStandby && mirroredReg x.addr) = true → Makes (.registerWrite x) s d) ∧
      (d.opens (x.addr / 0x10000 * 0x10000) = true → bits x.be.toNat 0 4 = 15 →
        (∀ u, headerOf x.addr = some u → Makes (.rcRead x) s (shown (d.headerRead u (x.addr - u.base)))) ∧
        (headerOf x.addr = none → entryAbsent d x.addr = true → Makes (.rcRead x) s { d with bus := ⟨0, false⟩ }) ∧
        (headerOf x.addr = none → entryAbsent d x.addr = false → (∀ f, readHit x.addr = some f → Makes (.rcRead x) s (shown (f d))) ∧
          (readHit x.addr = none → Makes (.rcRead x) s (shown (d.readPlain x.addr)))) ∧
        ((d.isStandby && mirroredReg x.addr) = false →
          (∀ u, headerOf x.addr = some u → Makes (.registerWrite x) s (e.headerWrite u (x.addr - u.base) (BitVec.ofNat 32 x.data.toNat))) ∧
          (headerOf x.addr = none → entryAbsent d x.addr = true → Makes (.registerWrite x) s e) ∧
          (headerOf x.addr = none → entryAbsent d x.addr = false → (∀ f, writeHit x.addr = some f → Makes (.registerWrite x) s (f word e)) ∧
            (writeHit x.addr = none → Makes (.registerWrite x) s (e.writePlain x.addr word)))))) ∧
    (∀ (s : State) (x : RegAcc), s.dev.boot.rstLow = false → x.wide = true → x.addr % 8 = 0 →
      let lo : RegAcc := ⟨x.addr, false, BitVec.ofNat 8 (bits x.be.toNat 0 4), BitVec.ofNat 64 (x.data.toNat % 2 ^ 32), x.tag⟩
      let hi : RegAcc := ⟨x.addr + 4, false, BitVec.ofNat 8 (bits x.be.toNat 4 4), BitVec.ofNat 64 (x.data.toNat / 2 ^ 32), x.tag⟩
      (∃ d e : Dev, Makes (.registerWrite lo) s d ∧ Makes (.registerWrite hi) { s with dev := d.vector0 } e ∧ Makes (.registerWrite x) s e) ∧
      ∃ d e : Dev, Makes (.rcRead lo) s d ∧ Makes (.rcRead hi) { s with dev := d.vector0 } e ∧
        Makes (.rcRead x) s { e with bus := ⟨BitVec.ofNat 64 (e.bus.data.toNat * 2 ^ 32 + d.bus.data.toNat), d.bus.abort || e.bus.abort⟩ })

/-- With RST_N high. BAR2_ACCESS outside SETUP: a read answers 0, a write changes nothing, and BAR2_DENIED is set. In SETUP, at
the word that holds off, by what R531 lays there: local memory reads and takes the four bytes; a word of a live table reads it
without its reserved bits, and a write changes that word of the live copy alone, whereupon the units follow; a word of the
staged node table reads it, and a write changes it and marks the table changed (R87); a word of the differential delay memory
reads what was stored there, and a write keeps every other word; a gap of the map reads 0 and ignores a write; a hole answers a
completer abort, or discards the write, and logs a decode error. The map: local memory below 0x800000, the live node table from
there, the staged one from 0xA00000, a hole from 0xC00000, the delay memory from 0x1000000, the other live tables at the places
of R531 from 0x3000000, a hole from 0x5000000. UNDECODED_ACCESS: a read answers a completer abort, a write changes nothing, and
both log a decode error by the host with the address. (R57, R58, R479, R481, R531, R59, R87) -/
def Obligations.Bar2AndUndecodedAccessesFollowR57 : Prop :=
  (∀ (s : State) (write : Bool) (off : Nat) (v : Word) (tag : Nat), s.dev.boot.rstLow = true → Makes (.bar2Access write off v tag) s s.dev) ∧
    (∀ (s : State) (off : Nat) (v : Word) (tag : Nat), s.dev.boot.rstLow = false → s.dev.top.st ≠ .setup →
      Makes (.bar2Access false off v tag) s { s.dev.raise F.bar2Denied with bus := ⟨0, false⟩ } ∧
      Makes (.bar2Access true off v tag) s (s.dev.raise F.bar2Denied)) ∧
    (∀ (s : State) (off : Nat) (v : Word) (tag : Nat), s.dev.boot.rstLow = false → s.dev.top.st = .setup → off % 4 = 0 → let d := s.dev
      let shows (n : Nat) : Prop := Makes (.bar2Access false off v tag) s { d with bus := ⟨BitVec.ofNat 64 n, false⟩ }
      (bar2At off = .local → shows (memLe d.localMem off 4) ∧
        Makes (.bar2Access true off v tag) s { d with localMem := memWrite d.localMem off (leBytes 4 v.toNat) }) ∧
      (∀ t i, bar2At off = .table t i → shows (asRead t i (d.live t i)) ∧
        Makes (.bar2Access true off v tag) s ((d.setTab t { d.tab t with live := wordSet (d.tab t).live i v.toNat }).afterCommands)) ∧
      (∀ i, bar2At off = .stagedNode i → shows (wordAt (d.tab T.xptNode).staged i) ∧
        Makes (.bar2Access true off v tag) s (d.setTab T.xptNode { d.tab T.xptNode with
          staged := wordSet (d.tab T.xptNode).staged i v.toNat, changed := true })) ∧
      (∀ i, bar2At off = .window i → shows (d.windowWord i).toNat ∧ ∃ e : Dev, Makes (.bar2Access true off v tag) s e ∧
        e.obj.window.find? (fun x => x.1 == i) = some (i, v) ∧
        (∀ j, j ≠ i → e.obj.window.filter (fun x => x.1 == j) = d.obj.window.filter (fun x => x.1 == j)) ∧
        { e with obj := d.obj } = d) ∧
      (bar2At off = .gap → shows 0 ∧ Makes (.bar2Access true off v tag) s d) ∧
      (bar2At off = .hole →
        Makes (.bar2Access false off v tag) s ({ d with bus := ⟨0, true⟩ }.fabLog .decerr false 0 (tag % 256) (0x400000000 + off)) ∧
        Makes (.bar2Access true off v tag) s (d.fabLog .decerr true 0 (tag % 256) (0x400000000 + off)))) ∧
    (∀ (s : State) (write : Bool) (off : Nat) (v : Word) (tag : Nat),
      exec (.bar2Access write off v tag) s = exec (.bar2Access write (off / 4 * 4) v tag) s) ∧
    (∀ off : Nat, (off < 0x800000 → bar2At off = .local) ∧
      (0x800000 ≤ off → off < 0xA00000 → bar2At off = .table T.xptNode ((off - 0x800000) / 4)) ∧
      (0xA00000 ≤ off → off < 0xC00000 → bar2At off = .stagedNode ((off - 0xA00000) / 4)) ∧
      (0xC00000 ≤ off → off < 0x1000000 → bar2At off = .hole) ∧
      (0x1000000 ≤ off → off < 0x3000000 → bar2At off = .window ((off - 0x1000000) / 4)) ∧ (0x5000000 ≤ off → bar2At off = .hole) ∧
      (∀ p ∈ ([(0x3000000, T.objLayout), (0x3008000, T.objHull), (0x3020000, T.objObject), (0x3040000, T.xptBus), (0x3040400, T.xptClip),
          (0x3042000, T.mtrPoint), (0x3050000, T.outChain), (0x3058000, T.outPatch), (0x3060000, T.slpMap), (0x3070000, T.strRx),
          (0x3078000, T.strTx), (0x3090000, T.fmnTask)] : List (Nat × Nat)),
        p.1 ≤ off → off < p.1 + tableSize p.2 → bar2At off = .table p.2 ((off - p.1) / 4)) ∧
      (bar2At off = .gap → 0x3000000 ≤ off ∧ off < 0x5000000)) ∧
    (∀ (s : State) (a tag : Nat), s.dev.boot.rstLow = false → decoded a = false →
      Makes (.undecodedAccess false a tag) s { s.dev.fabLog .decerr false 0 (tag % 256) (0x500000000 + a) with bus := ⟨0, true⟩ } ∧
      Makes (.undecodedAccess true a tag) s (s.dev.fabLog .decerr true 0 (tag % 256) (0x500000000 + a)))

/-- URGENT_POLL of an HRE that responds: where HRE does not work, POLL_EN = 0, URGENT_MAX = 0 or an urgent poll waits, nothing
changes; once URGENT_MAX have run in the tick only URGENT_LIMIT is set; otherwise an urgent poll waits, and nothing else
changes. URGENT_POLL_RUN of a waiting poll, the time and the host's stores that it brings having passed, on a working, awake
part: with polls allowed it waits no longer, one more counts for the tick, the poll is made, and one that overran its tick sets
POLL_MISSED and skips the next page; with polls not allowed it only waits no longer. HOST_MEMORY_ERROR while HRE works: on an
entry of a ring in service that the host feeds, HALTED of the ring reads 1 with cause 2; on the doorbell page, so for every CMD
ring in service; on a write to a ring in service, cause 3, and the bytes of the entry that the device writes are free values
(CPL, EVT and MTR all 64, NRX and CAP the last 48, NTX the last 32); on the status page, STATUS_EN reads 0 and the page's 1,024
bytes are free values; each of these sets DMA_ERR; on a copy it is the end, after n bytes, of the first copy that has not ended
on this unit. Halting a ring changes its configuration word alone and sets RING_HALT. (R67, R68, R98, R97, R62) -/
def Obligations.HostPollsAndErrorsFollowR67AndR97 : Prop :=
  ((∀ s : State, s.dev.opens hreBase = true →
      (s.dev.works hreBase = false ∨ s.dev.flag R.HRE_CTL_POLL_EN = false ∨ s.dev.fld R.HRE_CTL_URGENT_MAX = 0 ∨ s.dev.hre.urgentWait = true →
        Makes .urgentPoll s s.dev) ∧
      (s.dev.works hreBase = true → s.dev.flag R.HRE_CTL_POLL_EN = true → s.dev.fld R.HRE_CTL_URGENT_MAX ≠ 0 → s.dev.hre.urgentWait = false →
        (s.dev.fld R.HRE_CTL_URGENT_MAX ≤ s.dev.hre.urgentRuns → Makes .urgentPoll s (s.dev.raise F.urgentLimit)) ∧
        (s.dev.hre.urgentRuns < s.dev.fld R.HRE_CTL_URGENT_MAX →
          Makes .urgentPoll s { s.dev with hre := { s.dev.hre with urgentWait := true } }))) ∧
    (∀ (s : State) (b : Boundary), let d := (s.dev.timePasses b.cycles).hostStores b.hostWrites
      let p := { d with hre := { d.hre with urgentWait := false, urgentRuns := d.hre.urgentRuns + 1 } }.poll b.fails
      d.hre.urgentWait = true → d.awake = true → d.works hreBase = true →
        (d.flag R.HRE_CTL_POLL_EN = true → d.fld R.HRE_CTL_URGENT_MAX ≠ 0 →
          (b.pollLate = false → Makes (.urgentPollRun b) s p) ∧
          (b.pollLate = true → Makes (.urgentPollRun b) s ({ p with hre := { p.hre with skipPage := true } }.raise F.pollMissed))) ∧
        (d.flag R.HRE_CTL_POLL_EN = false ∨ d.fld R.HRE_CTL_URGENT_MAX = 0 →
          Makes (.urgentPollRun b) s { d with hre := { d.hre with urgentWait := false } }))) ∧
    ((∀ (s : State) (r : Nat), r < 64 → s.dev.works hreBase = true → s.dev.ringLive r = true → hostFed (s.dev.ringType r) = true →
      Makes (.hostMemoryError (.descriptor r)) s ((s.dev.haltRing r 2).raise F.dmaErr)) ∧
    (∀ s : State, s.dev.works hreBase = true → ∃ d : Dev, Makes (.hostMemoryError .doorbell) s d ∧
      (∀ r, r < 64 → s.dev.ringLive r = true → s.dev.ringType r = 0 → d.fld (R.RING_CFG_HALTED r) = 1 ∧ d.fld (R.RING_CFG_HALT_CAUSE r) = 2) ∧
      (∀ r, r < 64 → s.dev.ringLive r = false ∨ s.dev.ringType r ≠ 0 → d.reg (R.RING_CFG_HALTED r).addr = s.dev.reg (R.RING_CFG_HALTED r).addr) ∧
      (s.dev.effEn hreBase = true → bitAt (d.hd hreBase).event.toNat 5 = true) ∧ d.hostMem = s.dev.hostMem ∧ d.hre = s.dev.hre) ∧
    (∀ (s : State) (r a n : Nat), r < 64 → s.dev.works hreBase = true → s.dev.ringLive r = true →
      ((s.dev.ringType r = 1 ∨ s.dev.ringType r = 2 ∨ s.dev.ringType r = 3) ∧ a = 0 ∧ n = 64) ∨
        ((s.dev.ringType r = 4 ∨ s.dev.ringType r = 6) ∧ a = 16 ∧ n = 48) ∨ (s.dev.ringType r = 5 ∧ a = 32 ∧ n = 32) →
      Makes (.hostMemoryError (.ringWrite r)) s
        (((s.dev.hostFree (s.dev.ringAddr r (s.dev.fld (R.RING_DEV_IDX_DEV_IDX r) + 2 ^ 32 - 1) + a) n).haltRing r 3).raise F.dmaErr)) ∧
    (∀ (s : State) (n : Nat) (x : Copy), s.dev.works hreBase = true →
      s.dev.hre.copies.find? (fun x => !(x.write && s.dev.copied x.cmd.id)) = some x →
      (x.write = true → exec (.hostMemoryError (.copy n)) s = exec (.tableWriteCopyDone (some n)) s) ∧
      (x.write = false → exec (.hostMemoryError (.copy n)) s = exec (.tableReadCopyDone (some n)) s)) ∧
    (∀ (d : Dev) (r c : Nat), r < 64 → c < 16 → (d.haltRing r c).fld (R.RING_CFG_HALTED r) = 1 ∧
      (d.haltRing r c).fld (R.RING_CFG_HALT_CAUSE r) = c ∧ (d.haltRing r c).fld (R.RING_CFG_ENABLE r) = d.fld (R.RING_CFG_ENABLE r) ∧
      (d.effEn hreBase = true → bitAt ((d.haltRing r c).hd hreBase).event.toNat 0 = true) ∧
      (∀ a, a ≠ (R.RING_CFG_HALTED r).addr → (d.haltRing r c).reg a = d.reg a)) ∧
    (∀ s : State, s.dev.works hreBase = true → ∃ d : Dev, Makes (.hostMemoryError .statusPage) s d ∧ d.fld R.HRE_CTL_STATUS_EN = 0 ∧
      (s.dev.effEn hreBase = true → bitAt (d.hd hreBase).event.toNat 5 = true) ∧ d.hre.pageFailed = true ∧
      d.hostMem = memWrite s.dev.hostMem (s.dev.statusAddr % 2 ^ 64) ((List.range 1024).map s.dev.freeNat)))

/-- A NOP that applies completes with OK, or LATE where its tick had passed, and has no other effect. A fetched descriptor whose
code R75 does not list completes with BAD_OPCODE, detail 0, whatever its apply tick. For every opcode that R75 applies at its
tick but SCENE_COMMIT, by the row of each: a fetched command that the queue has room for and whose boundary is still to come
enters the pending-apply queue as its last entry (an OBJ command after the pan stage has taken note of it), and the units
follow; with the queue full only PAQ_FULL is set; a waiting command that is due and fails a check leaves the queue and completes
with that check's status, without the effect of its opcode. The checks at the apply tick: in OFF and STANDBY, and in SAFE for
every opcode but NOP, BARRIER, TABLE_WRITE, TABLE_READ, TIME_STEER, REF_CMD, MTR_CFG and FMN_CANCEL, the status is
REFUSED_STATE; on an active of a pair without a FIT standby a command with MIRROR_REQ is UNFIT; with TTH disabled nothing else
is refused; on a standby (R394) a command of its own rings, fetched since it is one, is REFUSED_STATE, detail 10, except NOP,
BARRIER, TABLE_READ, MTR_CFG and REF_CMD. (R75, R30, R74, R41, R76, R77, R394) -/
def Obligations.CommandsWaitActOrAreRefused : Prop :=
  ((∀ (s : State) (c : Cmd), s.dev.applies .nop c →
      Makes (.nop c) s ((s.dev.unqueue c).ends c ⟨lateOk ((s.dev.unqueue c).isLate c), 0, 0⟩)) ∧
    (∀ (s : State) (c : Cmd), s.dev.awake = true → s.dev.works hreBase = true → s.dev.paqTaken = false → opcodeOf c.code.toNat = none →
      Makes (.nop c) s ((s.dev.enlist c).complete c ⟨.badOpcode, 0, 0⟩))) ∧
    ((∀ p ∈ ([(.nop, .nop, id), (.tableRead, .tableRead, id), (.objSet, .objSet, id), (.objKeyframe, .objKeyframe, id), (.xptNodes, .xptNodes, id),
        (.xptRampSet, .xptRampSet, id), (.outBankLoad, .outBankLoad, id), (.outSwap, .outSwap, id), (.patchSet, .patchSet, id),
        (.portCfg, .portCfg, id), (.streamCfg, .streamCfg, id), (.fmnSubmit, .fmnSubmit, id), (.fmnCancel, .fmnCancel, id),
        (.mtrCfg, .mtrCfg, id), (.timeSteer, .timeSteerSet, (·.withBits 17 8 0)), (.timeSteer, .timeSteerStep, (·.withBits 17 8 1)),
        (.timeSteer, .timeSteerRate, (·.withBits 17 8 2)), (.timeSteer, .timeSteerOffset, (·.withBits 17 8 3)),
        (.refCmd, .select, (·.withBits 16 8 0)), (.refCmd, .release, (·.withBits 16 8 1)), (.refCmd, .dco, (·.withBits 16 8 2)),
        (.refCmd, .dcoOff, (·.withBits 16 8 3)), (.refCmd, .phaseStep, (·.withBits 16 8 4)), (.refCmd, .realign, (·.withBits 16 8 5)),
        (.refCmd, .requalify, (·.withBits 16 8 6))] : List (Opcode × (Cmd → Instr) × (Cmd → Cmd))), ∀ (s : State) (c0 : Cmd),
      let c := p.2.2 c0
      let d := if p.1 = .objSet ∨ p.1 = .objKeyframe then (s.dev.enlist c).objFetched c else s.dev.enlist c
      c.code = BitVec.ofNat 8 p.1.code → s.dev.awake = true → s.dev.works hreBase = true →
      (s.dev.hre.paq.any (fun e => e.cmd.id == c.id) = false → s.dev.paqTaken = true → Makes (p.2.1 c0) s (s.dev.raise F.paqFull)) ∧
      (s.dev.hre.paq.any (fun e => e.cmd.id == c.id) = false → s.dev.paqTaken = false → s.dev.cmdDue p.1 c = false →
        Makes (p.2.1 c0) s ((d.setPaq (d.hre.paq ++ [⟨p.1, c⟩])).afterCommands)) ∧
      (∀ q, s.dev.hre.paq.any (fun e => e.cmd.id == c.id) = true → s.dev.cmdDue p.1 c = true → (s.dev.unqueue c).refused p.1 c = some q →
        Makes (p.2.1 c0) s (((s.dev.unqueue c).unseen p.1 c).ends c q))) ∧
    (∀ (d : Dev) (op : Opcode) (c : Cmd),
      (op.inSafe = true ↔ op ∈ ([.nop, .barrier, .tableWrite, .tableRead, .timeSteer, .refCmd, .mtrCfg, .fmnCancel] : List Opcode)) ∧
      (d.top.st = .safe → op.inSafe = false → d.refused op c = some ⟨.refusedState, 0, 0⟩) ∧
      (d.top.st = .off ∨ d.top.st = .standby → d.refused op c = some ⟨.refusedState, 0, 0⟩) ∧
      (d.effEn tthBase = false → d.top.st = .setup ∨ d.top.st = .run ∨ (d.top.st = .safe ∧ op.inSafe = true) → d.refused op c = none) ∧
      (d.tth.role = .active → d.effEn tthBase = true → d.fitPresent = false → c.mirrorReq = true →
        d.top.st = .setup ∨ d.top.st = .run → d.refused op c = some ⟨.unfit, 0, 0⟩) ∧
      (d.isStandby = true → c.mirrored = false → d.tth.since ≤ c.seq → d.top.st = .setup ∨ d.top.st = .run ∨ (d.top.st = .safe ∧ op.inSafe = true) →
        (op ∈ ([.nop, .barrier, .tableRead, .mtrCfg, .refCmd] : List Opcode) → d.refused op c = none) ∧
        (op ∉ ([.nop, .barrier, .tableRead, .mtrCfg, .refCmd] : List Opcode) → d.refused op c = some ⟨.refusedState, 10, 0⟩))))

/-- For every ring and every body of 63 bytes: the entry's 64 bytes are written at BASE + 64 × (index modulo size), the last
byte being PHASE; host memory elsewhere is unchanged; the device index is one more modulo 2^32; PHASE flips exactly where the
new index is slot 0; one entry more is unreported. A dropped entry changes RING_DROP (saturating at 0xFFFF) and EVT_LOST alone.
A vector sent with MSI-X disabled does nothing; enabled, with neither Function Mask nor its mask set, it writes the four bytes
of its data at its address; with one of them set it sets its pending bit. RING_VECTOR_TRIGGER while HRE works: each distinct
vector of the due rings is sent once, those rings have nothing unreported, and nothing else changes; a ring is due where VEC is
not 0, entries are unreported, and they number COAL_COUNT (at least 1) or COAL_TICKS have passed. MSIX_UNMASK: the mask reads 0,
and where the pending bit is set, MSI-X enabled and Function Mask clear, the bit clears and the vector's data are written at its
address; otherwise nothing else changes. Event records (R92): at a boundary, EVT_EN = 1 on a working, awake HRE, one per unit
with EFF_EN = 1 and a bit of [30] and [23:0] newly set whose UNIT_EVENT_EN is 1, in ascending address, with the unit's type and
instance, those bits, the tick, the records lost since the last (at most 0xFFFF), UNIT_HEALTH and TS32 of base 0; what is new is
then forgotten; a ring that is no EVT ring, is out of service or full loses the record (R93). (R61, R90, R92, R93, R94, R95) -/
def Obligations.RingEntriesAndVectorsFollowR90AndR94 : Prop :=
  (∀ (d : Dev) (r : Nat) (body : List Nat), r < 64 → body.length = 63 →
    (d.ringPut r body).hostMem = memWrite d.hostMem (d.ringAddr r (d.fld (R.RING_DEV_IDX_DEV_IDX r)) % 2 ^ 64) (body ++ [b2n (d.ring r).phase]) ∧
    (d.ringPut r body).fld (R.RING_DEV_IDX_DEV_IDX r) = (d.fld (R.RING_DEV_IDX_DEV_IDX r) + 1) % 2 ^ 32 ∧
    ((d.ringPut r body).ring r).phase = (if (d.fld (R.RING_DEV_IDX_DEV_IDX r) + 1) % 2 ^ 32 % d.ringSize r = 0 then !(d.ring r).phase
      else (d.ring r).phase) ∧ ((d.ringPut r body).ring r).unrep = (d.ring r).unrep + 1 ∧
    (∀ q, q ≠ r → (d.ringPut r body).ring q = d.ring q) ∧
    (∀ a, a ≠ (R.RING_DEV_IDX_DEV_IDX r).addr → (d.ringPut r body).reg a = d.reg a) ∧
    (d.ringDrop r).fld (R.RING_DROP_COUNT r) = min (d.fld (R.RING_DROP_COUNT r) + 1) 0xFFFF ∧
    (d.effEn hreBase = true → bitAt ((d.ringDrop r).hd hreBase).event.toNat 3 = true) ∧ (d.ringDrop r).hostMem = d.hostMem ∧
    (d.ringDrop r).hre = d.hre) ∧
    ((∀ (d : Dev) (v : Nat), v < 64 →
      (d.cfg.msixEnable = false → d.msix v = d) ∧
      (d.cfg.msixEnable = true → d.cfg.funcMask = false → d.flag (R.MSIX_CTRL_MASK v) = false →
        d.msix v = { d with hostMem := memWrite d.hostMem ((d.fld (R.MSIX_ADDR_LO_ADDR_LO v) * 4 +
          d.fld (R.MSIX_ADDR_HI_ADDR_HI v) * 2 ^ 32) % 2 ^ 64) (leBytes 4 (d.fld (R.MSIX_DATA_DATA v))) }) ∧
      (d.cfg.msixEnable = true → d.cfg.funcMask = true ∨ d.flag (R.MSIX_CTRL_MASK v) = true →
        bitAt ((d.msix v).fld (R.MSIX_PBA_PENDING (v / 32))) (v % 32) = true ∧ { d.msix v with regs := d.regs } = d ∧
        (∀ a, a ≠ (R.MSIX_PBA_PENDING (v / 32)).addr → (d.msix v).reg a = d.reg a) ∧
        (∀ w, w < 64 → w ≠ v → bitAt ((d.msix v).fld (R.MSIX_PBA_PENDING (w / 32))) (w % 32) = bitAt (d.fld (R.MSIX_PBA_PENDING (w / 32))) (w % 32)))) ∧
    (∀ s : State, (s.dev.awake = true → s.dev.works hreBase = true →
        let due := (List.range 64).filter (vectorDue s.dev)
        ∃ e : Dev, Makes .ringVectorTrigger s (((due.map (fun r => s.dev.fld (R.RING_VEC_VEC r))).eraseDups).foldl Dev.msix e) ∧
          (∀ r, r ∈ due → e.ring r = { s.dev.ring r with unrep := 0, age := 0 }) ∧ (∀ r, r ∉ due → e.ring r = s.dev.ring r) ∧
          { e with hre := { e.hre with rings := s.dev.hre.rings } } = s.dev) ∧
      (s.dev.awake = false ∨ s.dev.works hreBase = false → Makes .ringVectorTrigger s s.dev)) ∧
    (∀ (d : Dev) (r : Nat), vectorDue d r = true ↔ d.fld (R.RING_VEC_VEC r) ≠ 0 ∧ 0 < (d.ring r).unrep ∧
      (max 1 (d.fld (R.RING_VEC_COAL_COUNT r)) ≤ (d.ring r).unrep ∨ d.fld (R.RING_VEC_COAL_TICKS r) ≤ (d.ring r).age)) ∧
    (∀ (s : State) (v : Fin 64), let d := s.dev
      let m := d.setFld (R.MSIX_CTRL_MASK v.val) 0
      let p := R.MSIX_PBA_PENDING (v.val / 32)
      let sends : Prop := bitAt (d.fld p) (v.val % 32) = true ∧ d.cfg.msixEnable = true ∧ d.cfg.funcMask = false
      (d.opens hreBase = false → Makes (.msixUnmask v) s d) ∧
      (d.opens hreBase = true → m.flag (R.MSIX_CTRL_MASK v.val) = false ∧ (¬ sends → Makes (.msixUnmask v) s m) ∧
        (sends → Makes (.msixUnmask v) s { m.setFld p (setBits (m.fld p) (v.val % 32) 1 0) with
          hostMem := memWrite d.hostMem ((d.fld (R.MSIX_ADDR_LO_ADDR_LO v.val) * 4 + d.fld (R.MSIX_ADDR_HI_ADDR_HI v.val) * 2 ^ 32) % 2 ^ 64)
            (leBytes 4 (d.fld (R.MSIX_DATA_DATA v.val))) })))) ∧
    (∀ (d : Dev) (u : UnitRow) (new : Word), let r := d.fld R.HRE_EVT_RING
      let p := eventBody d u new
      let lost := fun (e : Dev) => { e with hre := { e.hre with evtLost := e.hre.evtLost + 1 } }
      (d.ringType r ≠ 2 → d.eventRecord u new = lost (d.raise F.evtLost)) ∧
      (d.ringType r = 2 → d.ringLive r = false ∨ d.ringFree r = 0 → d.eventRecord u new = lost (d.ringDrop r)) ∧
      (d.ringType r = 2 → d.ringLive r = true → 0 < d.ringFree r →
        d.eventRecord u new = { d.ringPut r p with hre := { (d.ringPut r p).hre with evtLost := 0 } }) ∧
      p.length = 63 ∧ (∀ x ∈ ([(0, 2, u.code), (4, 4, new.toNat), (8, 6, d.top.tick), (14, 2, min d.hre.evtLost 0xFFFF),
        (16, 4, (d.healthWord u.base).toNat), (20, 4, d.tbNs 0), (24, 39, 0)] : List (Nat × Nat × Nat)), (p.drop x.1).take x.2.1 = leBytes x.2.1 x.2.2) ∧
      p[2]? = some u.inst ∧ p[3]? = some 0) ∧
    (∀ d : Dev, let on := d.flag R.HRE_EVT_EN && d.awake && d.works hreBase
      let e := d.hdr.foldl (fun e x => e.setHd x.1 { e.hd x.1 with fresh := 0 }) d
      let us := (d.hdr.filterMap (fun x => unitAt x.1)).filter (fun u => d.effEn u.base && d.freshBits u.base != 0)
      d.eventRecords = (if on = true then us.foldl (fun e u => e.eventRecord u (d.freshBits u.base)) e else e) ∧
      (d.hdr.Pairwise (fun a b => a.1 < b.1) → us.Pairwise (fun a b => a.base < b.base) ∧ (∀ x ∈ e.hdr, x.2.fresh = 0)) ∧
      (∀ b, d.freshBits b = (d.hd b).fresh &&& (d.hd b).eventEn &&& 0x40FFFFFF#32))

/-- A fetched BARRIER that no check refuses, with room in the queue and none of its own waiting: while its tick has not come, or
a command fetched before it in its scope has not completed, it joins the barriers that wait, and the units follow; with its tick
come and nothing of its scope outstanding it completes at once with OK, or LATE where its tick had passed. One whose tick has
come and that a check refuses completes with that check. BARRIER_COMPLETE on the one barrier that waits: not due, it changes
nothing; due, not refused before and nothing of its scope outstanding, the barrier leaves the list and completes with OK, or
LATE where its tick had passed at its fetch. The commands a barrier waits for are those outstanding that were fetched before it,
of its own ring, or of every ring with SCOPE = 1. (R80, R30) -/
def Obligations.BarrierCompletesAfterItsScope : Prop :=
  (∀ (s : State) (c : Cmd), c.code = BitVec.ofNat 8 Opcode.barrier.code → s.dev.awake = true → s.dev.works hreBase = true →
      s.dev.hre.paq.any (fun e => e.cmd.id == c.id) = false → s.dev.paqTaken = false → (∀ b ∈ s.dev.hre.barriers, b.cmd.id ≠ c.id) →
      let d := s.dev.enlist c
      let w := { d with hre := { d.hre with barriers := d.hre.barriers ++ [(⟨c, barrierWaits d c, d.isLate c, d.isDue c⟩ : Barrier)] } }
      (d.isDue c = false ∨ (d.refused .barrier c = none ∧ barrierWaits d c ≠ []) → Makes (.barrier c) s w.afterCommands) ∧
      (d.isDue c = true → d.refused .barrier c = none → barrierWaits d c = [] → Makes (.barrier c) s (d.ends c ⟨lateOk (d.isLate c), 0, 0⟩)) ∧
      (∀ q, d.isDue c = true → d.refused .barrier c = some q → Makes (.barrier c) s (d.ends c q))) ∧
    (∀ (s : State) (b : Barrier), s.dev.awake = true → s.dev.hre.barriers = [b] →
      (s.dev.isDue b.cmd = false → Makes .barrierComplete s s.dev) ∧
      (s.dev.isDue b.cmd = true → b.judged = true ∨ s.dev.refused .barrier b.cmd = none → (∀ i ∈ b.waits, i ∉ s.dev.hre.outst) →
        Makes .barrierComplete s ({ s.dev with hre := { s.dev.hre with barriers := [] } }.complete b.cmd ⟨lateOk b.late, 0, 0⟩))) ∧
    (∀ (d : Dev) (c : Cmd) (i : CmdId), i ∈ barrierWaits d c ↔ i ∈ d.hre.outst ∧ i.seq < c.seq ∧ (bitAt (c.u8 16) 0 = true ∨ i.ring = c.ring))

/-- A fetched TABLE_WRITE that no check refuses: on a table with a staged copy, behind a commit that has not acted or behind
held writes, it is held; else its copy starts, or with a detail code of R85 it completes with BAD_TABLE and that detail.
TABLE_WRITE_COPY_DONE of the first write that copies: ending whole, its check value right, not asked for, or its data inline,
the data is stored and it completes with OK and the check value; ending whole with the wrong check value, with BAD_TABLE, detail
4; failing after n bytes, n bytes are stored and it completes with BAD_TABLE, detail 5, and DMA_ERR; in each case no commit
waits for it any longer. A copy that the other unit of a pair has still to make or to judge does not end (R393): that this unit
has copied is noted, or told. Storing into a table that has a staged copy puts the bytes there from the offset on and nowhere
else, marks it changed, leaves the live copy and every other table, and a failed copy marks it bad. HELD_WRITE_START, once a
commit has acted: the held writes that no commit is ahead of start in their order, and the others stay held. (R82, R83, R84,
R85, R89, R393) -/
def Obligations.TableWriteCopiesIntoTheStagedCopy : Prop :=
  (∀ (s : State) (c : Cmd), s.dev.takesWrite c →
      let d := s.dev.enlist c
      (hasStaged (Tw.tableId c) && (d.commitAhead c.id || !d.hre.held.isEmpty)) = true →
        Makes (.tableWrite c) s ({ d with hre := { d.hre with held := d.hre.held ++ [c] } }.afterCommands)) ∧
    (∀ (s : State) (c : Cmd), s.dev.takesWrite c →
      let d := s.dev.enlist c
      (hasStaged (Tw.tableId c) && (d.commitAhead c.id || !d.hre.held.isEmpty)) = false →
        (d.tableDetail c true = none →
          Makes (.tableWrite c) s ({ d with hre := { d.hre with copies := d.hre.copies ++ [(⟨c, true, none, false⟩ : Copy)] } }.afterCommands)) ∧
        (∀ n, d.tableDetail c true = some n → Makes (.tableWrite c) s (((d.complete c ⟨.badTable, n, 0⟩).wroteFor c.id).afterCommands))) ∧
    (∀ (s : State) (x : Copy) (r : List Copy), s.dev.hre.copies = x :: r → x.write = true → s.dev.tth.shared = [] →
      let c := x.cmd
      let d := { s.dev with hre := { s.dev.hre with copies := r } }
      let l := if Tw.inline c then Tw.data c (Tw.length c) else d.hostData c (Tw.hostAddr c) (Tw.length c)
      let v := d.cvuCompute 3 (checkPrefix c) l
      (Tw.check c = false ∨ Tw.inline c = true ∨ d.works (cvuBase 3) = false ∨ v.1 = Tw.expected c) →
      Makes (.tableWriteCopyDone none) s (((v.2.tableStore (Tw.tableId c) (Tw.inst c) (Tw.offset c) l (Tw.length c) false).complete c
        ⟨.ok, 0, v.1⟩).wroteFor c.id)) ∧
    (∀ (s : State) (x : Copy) (r : List Copy), s.dev.hre.copies = x :: r → x.write = true → s.dev.tth.shared = [] →
      let c := x.cmd
      let d := { s.dev with hre := { s.dev.hre with copies := r } }
      let l := d.hostData c (Tw.hostAddr c) (Tw.length c)
      let v := d.cvuCompute 3 (checkPrefix c) l
      Tw.check c = true → Tw.inline c = false → d.works (cvuBase 3) = true → v.1 ≠ Tw.expected c →
      Makes (.tableWriteCopyDone none) s ((((v.2.cvuFail 3 (checkPrefix c) v.1 (Tw.expected c)).tableStore (Tw.tableId c) (Tw.inst c) (Tw.offset c) l
        (Tw.length c) true).complete c ⟨.badTable, 4, v.1⟩).wroteFor c.id)) ∧
    (∀ (s : State) (x : Copy) (r : List Copy) (n : Nat), s.dev.hre.copies = x :: r → x.write = true → s.dev.tth.shared = [] → n ≤ Tw.length x.cmd →
      let c := x.cmd
      let d := { s.dev with hre := { s.dev.hre with copies := r } }
      let l := if Tw.inline c then Tw.data c n else d.hostData c (Tw.hostAddr c) n
      let v := d.cvuCompute 3 (checkPrefix c) l
      Makes (.tableWriteCopyDone (some n)) s (((((v.2.raise F.dmaErr).note .hreCopyErr).tableStore (Tw.tableId c) (Tw.inst c) (Tw.offset c) l
        (Tw.length c) true).complete c ⟨.badTable, 5, v.1⟩).wroteFor c.id)) ∧
    (∀ (s : State) (x : Copy) (r : List Copy) (err : Option Nat), s.dev.hre.copies = x :: r → x.write = true →
      s.dev.waitsPeer x.cmd.id = true → s.dev.copied x.cmd.id = false →
      Makes (.tableWriteCopyDone err) s (s.dev.copiedHere x.cmd.id err).commitTell) ∧
    (∀ (d : Dev) (t i o n : Nat) (l : List Nat), t ≠ T.dspImage → hasStaged t = true →
      ((d.tableStore t i o l n false).tab t).live = (d.tab t).live ∧ ((d.tableStore t i o l n false).tab t).changed = true ∧
      ((d.tableStore t i o l n true).tab t).bad ≠ [] ∧
      (∀ k, k < l.length → loadBytes ((d.tableStore t i o l n false).tab t).staged (o + k) 1 = [l[k]! % 256]) ∧
      (∀ k, k < o ∨ o + l.length ≤ k → loadBytes ((d.tableStore t i o l n false).tab t).staged k 1 = loadBytes (d.tab t).staged k 1) ∧
      (∀ u, u ≠ t → (d.tableStore t i o l n false).tab u = d.tab u)) ∧
    (∀ s : State, (s.dev.hre.heldGo = true → let go := s.dev.hre.held.filter (fun c => !s.dev.commitAhead c.id)
        Makes .heldWriteStart s (go.foldl Dev.startWrite { s.dev with hre := { s.dev.hre with heldGo := false, held := s.dev.hre.held.filter (fun c => !go.contains c) } })) ∧
      (s.dev.hre.heldGo = false → Makes .heldWriteStart s s.dev)) ∧
    (∀ (d : Dev) (c : Cmd), (d.tableDetail c true = none →
        d.startWrite c = { d with hre := { d.hre with copies := d.hre.copies ++ [(⟨c, true, none, false⟩ : Copy)] } }) ∧
      (∀ n, d.tableDetail c true = some n → d.startWrite c = (d.complete c ⟨.badTable, n, 0⟩).wroteFor c.id))

/-- A TABLE_READ that applies with no detail of R85 against it starts a copy that holds the table as it then stands: its live
copy, or its staged copy where the command names that one, reserved bits reading 0. With a detail it completes with BAD_TABLE
and that detail. TABLE_READ_COPY_DONE of the first copy, which holds m: ending whole, LENGTH bytes of m from OFFSET on are
written at HOST_ADDR, and it completes with OK, or LATE, and the check value of those bytes; on a host write error after n
bytes, n bytes are written, the rest of the destination is free values, DMA_ERR is set, and it completes with BAD_TABLE, detail
5. A host write stores its bytes at its address and changes no other byte. (R86, R97) -/
def Obligations.TableReadCopiesTheTableToHostMemory : Prop :=
  (∀ (s : State) (c : Cmd), s.dev.applies .tableRead c → (s.dev.unqueue c).tableDetail c false = none →
      let d := s.dev.unqueue c
      ∃ e : Dev, Makes (.tableRead c) s e ∧ (⟨c, false, some (d.tableImage c), d.isLate c⟩ : Copy) ∈ e.hre.copies ∧ e.hostMem = d.hostMem ∧ e.tabs = d.tabs) ∧
    (∀ (d : Dev) (c : Cmd), Tw.tableId c ≠ T.dspImage → d.tableImage c = readMap (Tw.tableId c)
      (if Tw.staged c = true ∧ hasStaged (Tw.tableId c) = true then (d.tab (Tw.tableId c)).staged else (d.tab (Tw.tableId c)).live)) ∧
    (∀ (s : State) (c : Cmd) (n : Nat), s.dev.applies .tableRead c → (s.dev.unqueue c).tableDetail c false = some n →
      Makes (.tableRead c) s ((s.dev.unqueue c).ends c ⟨.badTable, n, 0⟩)) ∧
    (∀ (s : State) (x : Copy) (r : List Copy) (m : SMap Word), s.dev.hre.copies = x :: r → x.write = false → x.snap = some m →
      let c := x.cmd
      let l := loadBytes m (Tw.offset c) (Tw.length c)
      let v := { s.dev with hre := { s.dev.hre with copies := r } }.cvuCompute 3 (checkPrefix c) l
      Makes (.tableReadCopyDone none) s ((v.2.hostWrite (Tw.hostAddr c) l).complete c ⟨lateOk x.late, 0, v.1⟩) ∧
      (∀ n : Nat, Makes (.tableReadCopyDone (some n)) s
        (((((v.2.hostWrite (Tw.hostAddr c) (l.take n)).hostFree (Tw.hostAddr c + n) (Tw.length c - n)).raise F.dmaErr).note .hreCopyErr).complete c
          ⟨.badTable, 5, v.1⟩))) ∧
    (∀ (d : Dev) (a : Nat) (l : List Nat) (i : Nat), a < 2 ^ 64 → i < a ∨ a + l.length ≤ i → (d.hostWrite a l).hostByte i = d.hostByte i) ∧
    (∀ (d : Dev) (a : Nat) (l : List Nat) (k : Nat) (h : k < l.length), a < 2 ^ 64 →
      (d.hostWrite a l).hostByte (a + k) = BitVec.ofNat 8 l[k])

/-- A SCENE_COMMIT that applies and that no check refuses. With DISCARD = 0 and not ready to act (R88, R116) it stays queued,
marked late. Ready: its validations run; with no staged table bad after them, in every table with a staged copy the live copy is
the staged one where that had changed and stays otherwise, the staged copy equals it and is unchanged, and the commit completes
with OK, or LATE, and the config digest; with a table bad no table changes further and it completes with BAD_TABLE, detail 6,
and the digest. With DISCARD = 1 and ready, every staged copy is its live copy again, no table is changed or bad, and it
completes with the digest. In each case the writes held behind it may start. Either form, queued: before its apply tick nothing
acts on it; at its tick, refused by a check, it leaves the queue and completes with that check, and the held writes may start.
Either form, fetched: before its apply tick, or at it and not ready, it joins the queue with the TABLE_WRITEs then outstanding
to wait for, marked late in the second case; at its tick and refused it completes with that check; with the queue full PAQ_FULL
is set. SCENE_COMMIT_ACT, where one waiting commit is late, due and ready, lets it act with LATE. (R87, R88, R89, R116, R30,
R41, R76, R77) -/
def Obligations.SceneCommitSwapsOrDiscards : Prop :=
  (∀ (s : State) (c0 : Cmd), let c := c0.withBits 16 1 0
      s.dev.applies .sceneCommit c → s.dev.refused .sceneCommit c = none → (s.dev.commitW c.id).late = false →
      (commitReady s.dev ⟨.sceneCommit, c⟩ = false →
        Makes (.sceneCommit c0) s ((s.dev.setCommitW c.id (fun w => { w with late := true })).afterCommands)) ∧
      (commitReady s.dev ⟨.sceneCommit, c⟩ = true → let d := s.dev.commitChecks ⟨.sceneCommit, c⟩
        ((∀ t ∈ stagedTables, (d.tab t).bad = []) → ∃ e : Dev, Makes (.sceneCommit c0) s (e.ends c ⟨lateOk (s.dev.isLate c), 0, e.digest⟩) ∧
          (∀ t ∈ stagedTables, e.tab t = let m := if (d.tab t).changed = true then (d.tab t).staged else (d.tab t).live; ⟨m, m, false, []⟩) ∧
          e.hre.heldGo = true ∧ e.hostMem = s.dev.hostMem ∧ e.top = s.dev.top) ∧
        ((∃ t ∈ stagedTables, (d.tab t).bad ≠ []) → ∃ e : Dev, Makes (.sceneCommit c0) s (e.ends c ⟨.badTable, 6, e.digest⟩) ∧ e.tabs = d.tabs ∧
          e.hre.heldGo = true))) ∧
    (∀ (s : State) (c0 : Cmd), let c := c0.withBits 16 1 1
      s.dev.applies .sceneCommit c → s.dev.refused .sceneCommit c = none → (s.dev.commitW c.id).late = false →
      commitReady s.dev ⟨.sceneCommit, c⟩ = true → ∃ e : Dev, Makes (.sceneCommitDiscard c0) s (e.ends c ⟨lateOk (s.dev.isLate c), 0, e.digest⟩) ∧
        (∀ t ∈ stagedTables, e.tab t = ⟨(s.dev.tab t).live, (s.dev.tab t).live, false, []⟩) ∧ e.hre.heldGo = true ∧ e.hostMem = s.dev.hostMem) ∧
    (∀ (s : State) (e : PaqE), s.dev.hre.paq.filter (fun e => (s.dev.commitW e.cmd.id).late) = [e] → e.op = .sceneCommit →
      s.dev.isDue e.cmd = true → commitReady s.dev e = true →
      Makes .sceneCommitAct s ((s.dev.commitAct e true).afterCommands)) ∧
    (∀ p ∈ ([(.sceneCommit, 0), (.sceneCommitDiscard, 1)] : List ((Cmd → Instr) × Nat)), ∀ (s : State) (c0 : Cmd), let c := c0.withBits 16 1 p.2
      let w : CommitW := ⟨c.id, (s.dev.enlist c).writesOpen, none, false⟩
      let d := { s.dev.enlist c with hre := { (s.dev.enlist c).hre with commits := (s.dev.enlist c).hre.commits ++ [w] } }
      let e := d.setPaq (d.hre.paq ++ [⟨.sceneCommit, c⟩])
      c.code = BitVec.ofNat 8 Opcode.sceneCommit.code → s.dev.awake = true → s.dev.works hreBase = true →
      (s.dev.hre.paq.any (fun x => x.cmd.id == c.id) = true →
        (s.dev.isDue c = false → Makes (p.1 c0) s s.dev.afterCommands) ∧
        (∀ q, s.dev.isDue c = true → (s.dev.commitW c.id).late = false → s.dev.refused .sceneCommit c = some q →
          Makes (p.1 c0) s ((s.dev.commitOver c).ends c q))) ∧
      (s.dev.hre.paq.any (fun x => x.cmd.id == c.id) = false →
        (s.dev.paqTaken = true → Makes (p.1 c0) s (s.dev.raise F.paqFull)) ∧
        (s.dev.paqTaken = false → (∀ x ∈ s.dev.hre.commits, x.id ≠ c.id) →
          (s.dev.isDue c = false → Makes (p.1 c0) s e.afterCommands) ∧
          (s.dev.isDue c = true → d.refused .sceneCommit c = none → commitReady d ⟨.sceneCommit, c⟩ = false →
            Makes (p.1 c0) s (e.setCommitW c.id (fun x => { x with late := true })).afterCommands) ∧
          (∀ q, s.dev.isDue c = true → d.refused .sceneCommit c = some q → Makes (p.1 c0) s ((d.commitOver c).ends c q)))))

/-- PAN_VALIDATE with one waiting commit, DISCARD = 0, that was fetched before this tick, has no write left to wait for, has not
been validated and swaps a table of OBJ, while the tick runs: the staged pair is validated and the commit's boundary v is the
current tick. Validating a pair of which a table has changed: where it passes, CHECK, TABLE and ITEM read 0 and tables and
headers are unchanged; where it fails, they read the first failing check, its table and its entry, that table is marked bad and
HULL_INVALID is set. PAN_COMPUTE while the tick runs computes the sets that this tick and the next four still want; otherwise it
changes nothing. OBJ_C_WRITE, on an OBJ that responds of a part that is not a standby (an active first sends the write to the
standby that is present, R395): in SETUP OBJ_C reads the word, as a two's complement number, clamped to 100.0 to 4,000.0 m/s; in
any other state only CFG_REFUSED is set. (R115, R116, R134, R107, R395) -/
def Obligations.PanStageValidatesTheStagedPair : Prop :=
  (∀ (s : State) (c : Cmd), s.dev.hre.paq = [⟨.sceneCommit, c⟩] → commitDiscard c = false → s.dev.running = true →
      (s.dev.commitW c.id).waits = [] → (s.dev.commitW c.id).validAt = none → c.fetch < s.dev.top.tick → swapsObj s.dev = true →
      Makes .panValidate s (s.dev.panValidate.2.setCommitW c.id (fun w => { w with validAt := some s.dev.top.tick }))) ∧
    (∀ d : Dev, (d.tab T.objLayout).changed = true ∨ (d.tab T.objHull).changed = true →
      (validate d (d.tab T.objLayout).staged (d.tab T.objHull).staged = none →
        d.panValidate.1 = true ∧ d.panValidate.2.fld R.PAN_VALID_CHECK = 0 ∧ d.panValidate.2.fld R.PAN_VALID_TABLE = 0 ∧
        d.panValidate.2.fld R.PAN_VALID_ITEM = 0 ∧ d.panValidate.2.tabs = d.tabs ∧
        d.panValidate.2.hdr = d.hdr) ∧
      (∀ chk t item, validate d (d.tab T.objLayout).staged (d.tab T.objHull).staged = some (chk, t, item) →
        d.panValidate.1 = false ∧ d.panValidate.2.fld R.PAN_VALID_CHECK = chk % 2 ^ R.PAN_VALID_CHECK.w ∧
        d.panValidate.2.fld R.PAN_VALID_TABLE = t % 2 ^ R.PAN_VALID_TABLE.w ∧ d.panValidate.2.fld R.PAN_VALID_ITEM = item % 2 ^ R.PAN_VALID_ITEM.w ∧
        (d.panValidate.2.tab (if t = 1 then T.objLayout else T.objHull)).bad ≠ [] ∧
        (d.effEn panBase = true → bitAt (d.panValidate.2.hd panBase).event.toNat F.hullInvalid.bit = true))) ∧
    (∀ s : State, s.dev.running = true → s.dev.awake = true →
      Makes .panCompute s ([0, 1, 2, 3, 4].foldl (fun d k => d.computeSets d (d.top.tick + k)) s.dev)) ∧
    (∀ s : State, s.dev.running = false ∨ s.dev.awake = false → Makes .panCompute s s.dev) ∧
    (∀ (s : State) (v : Word), s.dev.opens objBase = true → s.dev.isStandby = false →
      (s.dev.top.st = .setup → Makes (.objCWrite v) s ((s.dev.tellReg R.OBJ_C_C.addr v).setFld R.OBJ_C_C (clampI 0x00640000 0x0FA00000 v.toInt).toNat)) ∧
      (s.dev.top.st ≠ .setup → Makes (.objCWrite v) s ((s.dev.tellReg R.OBJ_C_C.addr v).raise F.objCfgRefused)))

/-- An OBJ_SET that applies. To an object not below the capacity: BAD_TABLE, detail 2; with a mask of more than ten words or of
a word above W9: BAD_TABLE, detail 3; each without effect on tables and moves. Otherwise each selected word holds its datum, in
mask order, in the live and the staged copy of the object's entry, and every other word of the table keeps its value in each
copy; a selected POS word ends that coordinate's move, W2 those of gain and spread, and every other move stands; other tables,
registers, headers and host memory are unchanged; and it completes with OK, or with LATE and counted as such. (R111, R113, R114,
R79) -/
def Obligations.ObjSetWritesTheSelectedWords : Prop :=
  ∀ (s : State) (c : Cmd), s.dev.applies .objSet c →
    let d := s.dev.unqueue c
    let late := d.objLate c
    let j := c.u16 16
    let ws := maskBits (c.u16 18)
    (d.nObj ≤ j → Makes (.objSet c) s (d.ends c ⟨.badTable, 2, 0⟩)) ∧
    (j < d.nObj → (10 < ws.length ∨ ∃ n ∈ ws, 10 ≤ n) → Makes (.objSet c) s (d.ends c ⟨.badTable, 3, 0⟩)) ∧
    (j < d.nObj → ws.length ≤ 10 → (∀ n ∈ ws, n < 10) → ∃ e : Dev, Makes (.objSet c) s ((e.kfLate late).ends c ⟨lateOk late, 0, 0⟩) ∧
      (∀ x ∈ ws.zipIdx, wordAt (e.tab T.objObject).live (16 * j + x.1) = c.u32 (24 + 4 * x.2) ∧
        wordAt (e.tab T.objObject).staged (16 * j + x.1) = c.u32 (24 + 4 * x.2)) ∧
      (∀ i, (∀ n ∈ ws, i ≠ 16 * j + n) → wordAt (e.tab T.objObject).live i = wordAt (d.tab T.objObject).live i ∧
        wordAt (e.tab T.objObject).staged i = wordAt (d.tab T.objObject).staged i) ∧
      (∀ t, t ≠ T.objObject → e.tab t = d.tab t) ∧
      e.mv j = ⟨if 4 ∈ ws then none else (d.mv j).x, if 5 ∈ ws then none else (d.mv j).y, if 6 ∈ ws then none else (d.mv j).z,
        if 2 ∈ ws then none else (d.mv j).gain, if 2 ∈ ws then none else (d.mv j).spread⟩ ∧
      (∀ i, i ≠ j → e.mv i = d.mv i) ∧ e.regs = d.regs ∧ e.hdr = d.hdr ∧ e.hostMem = d.hostMem)

/-- An OBJ_KEYFRAME that applies and first governs tick F. To an object not below the capacity: BAD_TABLE, detail 2, without
effect. Otherwise each field that its flags select has a move from the field's value at F − 1 to the target, first governing F,
with N ticks; fields not selected keep their moves, other objects theirs; in the live copy and in the staged copy alike (R79),
the three coordinates of a selected position stand in W4, W5 and W6, a selected gain in the upper and a selected spread in the
lower half of W2; position words and halves of W2 that are not selected, and every other word, keep their values; other tables,
registers and host memory are unchanged; and it completes with OK, or with LATE and counted as such. A move holds its start
before its first tick, its target from its N-th tick on, and the straight line between them, rounded half away from zero, in
between. (R112, R113, R110, R114, R79) -/
def Obligations.ObjKeyframeStartsMovesFromTheTickBefore : Prop :=
  (∀ (s : State) (c : Cmd), s.dev.applies .objKeyframe c →
      let d := s.dev.unqueue c
      let late := d.objLate c
      let j := c.u16 16
      let f := d.objDue c
      let mk := fun (a b : Int) => some (⟨a, b, f, c.u16 18⟩ : Move)
      (d.nObj ≤ j → Makes (.objKeyframe c) s (d.ends c ⟨.badTable, 2, 0⟩)) ∧
      (j < d.nObj → ∃ e : Dev, Makes (.objKeyframe c) s ((e.kfLate late).ends c ⟨lateOk late, 0, 0⟩) ∧
        (e.mv j).x = (if bitAt (c.u8 20) 0 then mk (d.posAt j 0 (f - 1)) (sx 32 (c.u32 24)) else (d.mv j).x) ∧
        (e.mv j).y = (if bitAt (c.u8 20) 0 then mk (d.posAt j 1 (f - 1)) (sx 32 (c.u32 28)) else (d.mv j).y) ∧
        (e.mv j).z = (if bitAt (c.u8 20) 0 then mk (d.posAt j 2 (f - 1)) (sx 32 (c.u32 32)) else (d.mv j).z) ∧
        (e.mv j).gain = (if bitAt (c.u8 20) 1 then mk (d.gainAt j (f - 1)) (c.u16 36) else (d.mv j).gain) ∧
        (e.mv j).spread = (if bitAt (c.u8 20) 2 then mk (d.spreadAt j (f - 1)) (c.u16 38) else (d.mv j).spread) ∧
        (∀ i, i ≠ j → e.mv i = d.mv i) ∧
        (∀ cp ∈ ([Tab.live, Tab.staged] : List (Tab → SMap Word)),
          let w := fun (i : Nat) => wordAt (cp (e.tab T.objObject)) i
          let w0 := fun (i : Nat) => wordAt (cp (d.tab T.objObject)) i
          (bitAt (c.u8 20) 0 = true → w (16 * j + 4) = c.u32 24 ∧ w (16 * j + 5) = c.u32 28 ∧ w (16 * j + 6) = c.u32 32) ∧
          (bitAt (c.u8 20) 0 = false → w (16 * j + 4) = w0 (16 * j + 4) ∧ w (16 * j + 5) = w0 (16 * j + 5) ∧ w (16 * j + 6) = w0 (16 * j + 6)) ∧
          bits (w (16 * j + 2)) 16 16 = (if bitAt (c.u8 20) 1 then c.u16 36 else bits (w0 (16 * j + 2)) 16 16) ∧
          bits (w (16 * j + 2)) 0 16 = (if bitAt (c.u8 20) 2 then c.u16 38 else bits (w0 (16 * j + 2)) 0 16) ∧
          (∀ i, i ≠ 16 * j + 2 → i ≠ 16 * j + 4 → i ≠ 16 * j + 5 → i ≠ 16 * j + 6 → w i = w0 i)) ∧
        (∀ t, t ≠ T.objObject → e.tab t = d.tab t) ∧ e.regs = d.regs ∧ e.hostMem = d.hostMem)) ∧
    (∀ (v : Move) (t : Nat), (t < v.first → v.at t = v.a) ∧ (v.first ≤ t → v.first + v.len ≤ t + 1 → v.at t = v.b) ∧
      (v.first ≤ t → t + 1 < v.first + v.len →
        v.at t = v.a + divAway ((v.b - v.a) * ((t : Int) - v.first + 1)) v.len))

/-- LANE_LOST of a working lane in RUN: it is in FAULT with CAUSE 1 (parity) or 2, counts one in OBJ_LANE_LOST (saturating), is
lost for the running block and no longer among the healthy lanes the next decision reads; the lanes already decided for the next
block, the other healthy lanes, the tables, host memory and the rings stay. Outside RUN, or on a lane that does not work, it
changes nothing. OBJECT_READMIT in RUN with P's history: A becomes min(P, max(A, least of the last READMIT_HOLD values of P)),
never above P, never below the smaller of A and P. PARITY in RUN on a working XPT: the node and the sample are recorded for the
running block, XPT_PARITY counts one and PARITY is set. (R155, R159, R194) -/
def Obligations.LanesAreLostAndObjectsReadmitted : Prop :=
  (∀ (s : State) (l : Fin 32) (parity : Bool), s.dev.top.st = .run → s.dev.works (laneBase l.val) = true →
      ∃ d : Dev, Makes (.laneLost l parity) s d ∧ (d.hd (laneBase l.val)).st = .fault ∧
        (d.hd (laneBase l.val)).cause = (if parity then 1 else 2) ∧ l.val ∈ d.obj.lost ∧ l.val ∉ healthyLanes d ∧ d.obj.lanesNext = s.dev.obj.lanesNext ∧
        d.fld R.OBJ_LANE_LOST_COUNT = min (s.dev.fld R.OBJ_LANE_LOST_COUNT + 1) (2 ^ R.OBJ_LANE_LOST_COUNT.w - 1) ∧
        d.tabs = s.dev.tabs ∧ d.hostMem = s.dev.hostMem ∧ d.hre = s.dev.hre ∧ d.top = s.dev.top ∧
        (∀ k, k ≠ l.val → k ∈ healthyLanes s.dev → k ∈ healthyLanes d)) ∧
    (∀ (s : State) (l : Fin 32) (parity : Bool), (s.dev.top.st ≠ .run ∨ s.dev.works (laneBase l.val) = false) → Makes (.laneLost l parity) s s.dev) ∧
    (∀ (s : State) (p : Nat) (ps : List Nat), s.dev.top.st = .run → s.dev.works objBase = true → s.dev.obj.pHist = p :: ps →
      let a := min p (max s.dev.obj.admitted (((p :: ps).take (s.dev.lat R.OBJ_LANE_CFG_READMIT_HOLD)).foldl min p))
      Makes .objectReadmit s ({ s.dev with obj := { s.dev.obj with admitted := a } }.setFlds
        [(R.OBJ_ADMIT_ADMITTED, a), (R.OBJ_ADMIT_SHED, (enabledObjs s.dev).length - a)]) ∧ a ≤ p ∧ min s.dev.obj.admitted p ≤ a) ∧
    (∀ (s : State) (n : Fin 1048576) (k : Fin 64), s.dev.top.st = .run → s.dev.works xptBase = true →
      Makes (.parity n k) s ((({ s.dev with xpt := { s.dev.xpt with parity := s.dev.xpt.parity ++ [(n.val, k.val)] } }.count
        R.XPT_PARITY_COUNT).raise F.xptParity).note .xptParity))

/-- An XPT_NODES that applies, COUNT within the limit (1,024 with FILL, else 20) and every node within the banks: node i of the
run holds GAIN i (GAIN 0 with FILL) in the live and staged copy, every other node keeps its gain in each copy, every other table
is unchanged; it completes OK or LATE. COUNT 0 changes nothing. COUNT over the limit or a node outside the banks completes with
BAD_TABLE, detail 3, without effect. An XPT_RAMP_SET that applies to a range within the buses: XPT_RAMP of each bus of the range
is the given length, at most 64, in both copies, every other bit of the table keeps its value, every other table is unchanged;
it completes OK or LATE. A range beyond the buses completes with BAD_TABLE, detail 3, without effect. A block mixed where one
node alone is or was not at mute, no ramp running before and no bus scaled: sample m of its bus is the source's, times the ramp
from the gain last used to the node's gain at m + 1, over 2^24, half to even, under the bus's clip policy; every other bus is
silent. A ramp is a straight line between its two multipliers over its XPT_RAMP ticks, rounded half away from zero (R172, R174,
R179). (R170, R171, R79, R177, R172, R174, R179) -/
def Obligations.CrosspointCommandsWriteBothCopies : Prop :=
  (∀ (s : State) (c : Cmd), s.dev.applies .xptNodes c →
    let d := s.dev.unqueue c
    let cnt := c.u16 20
    let fill := bitAt (c.u8 22) 0
    let node := fun (i : Nat) => if bitAt (c.u8 22) 1 then XptT.node (c.u16 18) (c.u16 16 + i) else XptT.node (c.u16 18 + i) (c.u16 16)
    let lastS := if bitAt (c.u8 22) 1 then c.u16 18 else c.u16 18 + (cnt - 1)
    let lastB := if bitAt (c.u8 22) 1 then c.u16 16 + (cnt - 1) else c.u16 16
    let gain := fun (i : Nat) => c.u16 (24 + if fill then 0 else 2 * i)
    ((if fill then 1024 else 20) < cnt ∨ (cnt ≠ 0 ∧ (d.nBus ≤ lastS ∨ d.nBus ≤ lastB)) →
      Makes (.xptNodes c) s (d.ends c ⟨.badTable, 3, 0⟩)) ∧
    (cnt ≤ (if fill then 1024 else 20) → (cnt = 0 ∨ (lastS < d.nBus ∧ lastB < d.nBus)) →
      ∃ e : Dev, Makes (.xptNodes c) s (e.ends c ⟨lateOk (d.isLate c), 0, 0⟩) ∧
        (∀ i, i < cnt → XptT.code (e.tab T.xptNode).live (node i) = gain i ∧ XptT.code (e.tab T.xptNode).staged (node i) = gain i) ∧
        (∀ n, (∀ i, i < cnt → n ≠ node i) → XptT.code (e.tab T.xptNode).live n = XptT.code (d.tab T.xptNode).live n ∧
          XptT.code (e.tab T.xptNode).staged n = XptT.code (d.tab T.xptNode).staged n) ∧
        (∀ t, t ≠ T.xptNode → e.tab t = d.tab t) ∧ (e.tab T.xptNode).changed = (d.tab T.xptNode).changed ∧
        { e with tabs := d.tabs } = d)) ∧
    (∀ (s : State) (c : Cmd), s.dev.applies .xptRampSet c →
    let d := s.dev.unqueue c
    let first := c.u16 16
    let cnt := c.u16 18
    (cnt ≠ 0 → d.nBus < first + cnt → Makes (.xptRampSet c) s (d.ends c ⟨.badTable, 3, 0⟩)) ∧
    (cnt = 0 ∨ first + cnt ≤ d.nBus → ∃ e : Dev, Makes (.xptRampSet c) s (e.ends c ⟨lateOk (d.isLate c), 0, 0⟩) ∧
      (∀ i, i < cnt → wordAt (e.tab T.xptClip).live (first + i) = setBits (wordAt (d.tab T.xptClip).live (first + i)) 8 7 (min (c.u8 20) 64) ∧
        wordAt (e.tab T.xptClip).staged (first + i) = setBits (wordAt (d.tab T.xptClip).staged (first + i)) 8 7 (min (c.u8 20) 64)) ∧
      (∀ k, k < first ∨ first + cnt ≤ k → wordAt (e.tab T.xptClip).live k = wordAt (d.tab T.xptClip).live k ∧
        wordAt (e.tab T.xptClip).staged k = wordAt (d.tab T.xptClip).staged k) ∧
      (∀ t, t ≠ T.xptClip → e.tab t = d.tab t) ∧ { e with tabs := d.tabs } = d)) ∧
    (∀ (d : Dev) (t s x c0 c : Nat) (src : Bank), let n := XptT.node s x
      let only := fun (v : Nat) => wordSet [] (n / 2) (setBits 0 (16 * (n % 2)) 16 v)
      let r : NodeRamp := ⟨gainM c0, gainM c, t, XptT.ramp d x⟩
      d.inBlock xptBase = true → s < d.nBus → x < d.nBus → c0 < 2 ^ 16 → c < 2 ^ 16 → (d.tab T.xptNode).live = only c → d.xpt.last = some (only c0) →
      d.xpt.ramps = [] → d.xpt.parity = [] → d.xpt.scale = [] → (Bank.at d src s).length = d.blockB →
      Bank.at d (xptBlock d t src []).1 x = (Bank.at d src s).zipIdx.map (fun p =>
        (if XptT.policy d x = 2 then clampI (-0x1000000) 0xFFFFFF else satH) (divEven (p.1 * r.at d.blockB (p.2 + 1)) (2 ^ 24))) ∧
      (∀ y, y ≠ x → Bank.at d (xptBlock d t src []).1 y = List.replicate d.blockB 0)) ∧
    (∀ (r : NodeRamp) (b k : Nat), (r.len * b ≤ k → r.at b k = r.g1) ∧
      (k < r.len * b → r.at b k = ((r.g0 : Int) + divAway (((r.g1 : Int) - r.g0) * k) (r.len * b)).toNat))

/-- An MTR_CFG that applies and either turns snapshots off or names an enabled MTR ring with room for a whole snapshot, N and
COUNT not 0 and the range within 4,096 points: the five fields read as given, peaks restart, holds clear where asked, boundary A
is the current tick; else NO_SPACE without effect. A due MTR_SNAPSHOT with room puts its entries one after another and LAST
reads the tick; without room, RING_DROP counts every entry, MTR_DROP one, SNAP_DROP is set; peaks restart either way. A block of
the one point that taps a signal, its entry unchanged: PEAK, RMS and HOLD read the level codes of the block's largest magnitude,
of the mean square moved 2^-SHIFT of the way to the block's, and of the hold; the interval's peak takes the block in (R188,
R189). (R190, R191, R192, R93, R188, R189) -/
def Obligations.MeterSnapshotsFollowR190ToR192 : Prop :=
  (∀ (s : State) (c : Cmd), s.dev.applies .mtrCfg c →
      let d := s.dev.unqueue c
      let ok := bitAt (c.u8 17) 0 = false ∨ (d.ringType (c.u8 16 % 64) = 3 ∧ d.ringEnabled (c.u8 16 % 64) = true ∧
        snapEntries (c.u16 22) ≤ d.ringSize (c.u8 16 % 64) ∧ c.u16 18 ≠ 0 ∧ c.u16 22 ≠ 0 ∧ c.u16 20 + c.u16 22 ≤ 4096)
      (¬ ok → Makes (.mtrCfg c) s (d.ends c ⟨.noSpace, 0, 0⟩)) ∧
      (ok → ∃ e : Dev, Makes (.mtrCfg c) s (e.ends c ⟨lateOk (d.isLate c), 0, 0⟩) ∧ e.fld R.MTR_SNAP_INTERVAL = c.u16 18 ∧
        e.fld R.MTR_SNAP_RING = c.u8 16 % 64 ∧ e.fld R.MTR_SNAP_EN = b2n (bitAt (c.u8 17) 0) ∧
        e.fld R.MTR_RANGE_COUNT = c.u16 22 % 2 ^ R.MTR_RANGE_COUNT.w ∧ e.fld R.MTR_RANGE_FIRST = c.u16 20 % 2 ^ R.MTR_RANGE_FIRST.w ∧
        e.mtr.start = d.top.tick ∧ e.mtr.pts = d.mtr.pts.map (fun x => (x.1,
          { x.2 with top := .zero, hold := if bitAt (c.u8 17) 1 then none else x.2.hold })) ∧ e.tabs = d.tabs ∧ e.hdr = d.hdr ∧ e.hostMem = d.hostMem)) ∧
    (∀ s : State, snapDue s.dev = true →
      let d := { s.dev with mtr := { s.dev.mtr with done := s.dev.top.tick } }
      let r := s.dev.fld R.MTR_SNAP_RING
      let n := snapEntries (s.dev.fld R.MTR_RANGE_COUNT)
      let top0 := fun (e : Dev) => { e with mtr := { e.mtr with pts := e.mtr.pts.map (fun x => (x.1, { x.2 with top := Fl.zero })) } }
      (d.ringLive r = true → d.ringType r = 3 → n ≤ d.ringFree r → Makes .mtrSnapshot s
        (top0 (((List.range n).foldl (fun x k => x.ringPut r (snapEntry d s.dev.top.tick k)) d).setFld R.MTR_LAST_TICK s.dev.top.tick))) ∧
      (d.ringLive r = false ∨ d.ringType r ≠ 3 ∨ d.ringFree r < n → Makes .mtrSnapshot s
        (top0 ((((d.addFld (R.RING_DROP_COUNT r) n).raise F.evtLost).count R.MTR_DROP_COUNT).raise F.snapDrop)))) ∧
    (∀ (d : Dev) (p : Nat) (sig : Nat → Nat → List Int), p < 4096 → d.works mtrBase = true → mtrChanged d = [] →
      ((((d.tab T.mtrPoint).live.map (fun e => e.1 / 2)).eraseDups).filter (MtrT.on d)) = [p] →
      let x := sig (MtrT.kind d p) (MtrT.index d p)
      let o := smGet (fun _ => Point.zero) d.mtr.pts p
      let r := pointBlock d p x o
      let e := mtrBlock d sig
      e.fld (R.MTR_LEVEL0_PEAK p) = levelCode (dbOfPeak r.peak) ∧ e.fld (R.MTR_LEVEL0_RMS p) = levelCode (dbOfPower r.ms) ∧
      e.fld (R.MTR_LEVEL1_HOLD p) = levelCode r.hold ∧ r.peak = x.foldl (fun m v => m.max (⟨v, -24⟩ : Fl).abs) Fl.zero ∧ r.top = o.top.max r.peak ∧
      r.ms = b64.add o.ms (b64.div (b64.sub (b64.div (x.foldl (fun s v => b64.add s (b64.mul (⟨v, -24⟩ : Fl) ⟨v, -24⟩)) Fl.zero) ⟨d.blockB, 0⟩) o.ms)
        ⟨2 ^ MtrT.shift d p, 0⟩) ∧ e.tabs = d.tabs ∧ e.hdr = d.hdr ∧ e.hostMem = d.hostMem)

/-- An OUT_BANK_LOAD that applies to a chain below the capacity, aligned and within the bank, the bank neither audible, named by
the live BANK nor its chain in a crossfade: the bank is LOADING and the copy waits in it; else BAD_TABLE 2, 3 or 7 without
effect. A copy that the other unit has still to make or to judge does not end (R393). One that a pair does not share and that
ends whole with the right check value (or none asked for, or CVU3 off) puts its bytes into the image and waits for the restart;
the transform starts if no later copy is pending. One that so ends after n bytes of a host error, or whole with a wrong check
value, with no earlier load waiting, has written its bytes, the bank is BAD, BANK_BAD is set and it completes BAD_TABLE 5 or 4.
The transform's end marks the taps formed and, where they reach beyond the head, writes their spectra to DRAM. The first
boundary after it fixes the restart boundary on a unit that is no standby: READY_TICK, or this boundary if READY_TICK is 0 or
has passed (late then), and an active tells its standby. At the restart boundary the bank is READY, its run state in a chain
that is on is zero, and the loads it took complete OK or LATE with check value and boundary. (R207, R208, R209, R205, R393) -/
def Obligations.BankLoadsRunFromCopyToRestart : Prop :=
  (∀ (s : State) (c : Cmd), s.dev.applies .outBankLoad c →
      let d := s.dev.unqueue c
      let ch := c.u16 16
      let b := c.u8 18 % 2
      let aligned := c.u32 20 % 4 = 0 ∧ c.u32 24 % 4 = 0 ∧ 4 ≤ c.u32 24 ∧ c.u32 20 + c.u32 24 ≤ bankSize d
      let free := d.out.fades.any (fun e => e.1 == ch) = false ∧ d.audible ch ≠ b ∧ ChainT.bank d ch ≠ b
      (d.nChain ≤ ch → Makes (.outBankLoad c) s (d.ends c ⟨.badTable, 2, 0⟩)) ∧
      (ch < d.nChain → ¬ aligned → Makes (.outBankLoad c) s (d.ends c ⟨.badTable, 3, 0⟩)) ∧
      (ch < d.nChain → aligned → ¬ free → Makes (.outBankLoad c) s (d.ends c ⟨.badTable, 7, 0⟩)) ∧
      (ch < d.nChain → aligned → free → Makes (.outBankLoad c) s ((d.setBank ch b
        { d.bankOf ch b with st := .loading, copying := (d.bankOf ch b).copying ++ [(c, d.isLate c)], transform := false, formed := false, tr := none }).afterCommands))) ∧
    (∀ (s : State) (ch : Fin 1024) (b : Fin 2) (c : Cmd) (late : Bool) (rest : List (Cmd × Bool)),
      let x := s.dev.bankOf ch.val b.val
      let l := s.dev.hostData c (c.u64 32) (c.u32 24)
      let v := s.dev.cvuCompute 3 (BankL.tag c) l
      x.copying = (c, late) :: rest → s.dev.share c.id = none → (bitAt (c.u8 19) 0 = false ∨ s.dev.works (cvuBase 3) = false ∨ v.1 = c.u32 40) →
      Makes (.bankCopyDone ch b none) s (v.2.setBank ch.val b.val
        { x with image := storeBytes x.image (c.u32 20) l, copying := rest, copied := x.copied ++ [(c, late, v.1)], transform := rest.isEmpty, formed := false, tr := none })) ∧
    (∀ (s : State) (ch : Fin 1024) (b : Fin 2) (c : Cmd) (late : Bool) (rest : List (Cmd × Bool)) (err : Option Nat),
      let x := s.dev.bankOf ch.val b.val
      let n := match err with | some k => min k (c.u32 24) | none => c.u32 24
      let l := s.dev.hostData c (c.u64 32) n
      let v := s.dev.cvuCompute 3 (BankL.tag c) l
      let d := match err with | some _ => v.2.raise F.dmaErr | none => v.2.cvuFail 3 (BankL.tag c) v.1 (c.u32 40)
      x.copying = (c, late) :: rest → s.dev.share c.id = none → x.copied = [] →
      (err = none → bitAt (c.u8 19) 0 = true ∧ s.dev.works (cvuBase 3) = true ∧ v.1 ≠ c.u32 40) →
      Makes (.bankCopyDone ch b err) s (((d.setBank ch.val b.val
        { x with image := storeBytes x.image (c.u32 20) l, copying := rest, st := .bad, transform := false, formed := false, tr := none }).raise
          F.bankBad).complete c ⟨.badTable, if err.isSome then 5 else 4, v.1⟩)) ∧
    (∀ (s : State) (ch : Fin 1024) (b : Fin 2) (err : Option Nat) (c : Cmd) (late : Bool) (rest : List (Cmd × Bool)),
      (s.dev.bankOf ch.val b.val).copying = (c, late) :: rest → s.dev.copied c.id = false → s.dev.waitsPeer c.id = true →
      Makes (.bankCopyDone ch b err) s (s.dev.copiedHere c.id err)) ∧
    (∀ (s : State) (ch : Fin 1024) (b : Fin 2),
      let x := s.dev.bankOf ch.val b.val
      let e := s.dev.setBank ch.val b.val { x with transform := false, formed := true }
      (x.transform = false → Makes (.bankTransformDone ch b) s s.dev) ∧
      (x.transform = true → x.firLen e ≤ 16 * headTaps e → Makes (.bankTransformDone ch b) s e) ∧
      (x.transform = true → 16 * headTaps e < x.firLen e → Makes (.bankTransformDone ch b) s (e.convWrite 2 e.top.tick ch.val))) ∧
    (∀ (d : Dev) (ch b : Nat) (e : Cmd × Bool × Nat),
      let x := d.bankOf ch b
      x.formed = true → x.copied.getLast? = some e → d.isStandby = false →
      let r := if e.1.u48 44 ≠ 0 ∧ d.top.tick ≤ e.1.u48 44 then (e.1.u48 44, false) else (d.top.tick, e.1.u48 44 != 0)
      let g := d.setBank ch b { x with formed := false, tr := some r }
      d.bankFix ch b = if (d.share e.1.id).isSome then g.tell (.restart ch b r.1 r.2) else g) ∧
    (∀ (s : State) (ch : Fin 1024) (b : Fin 2) (tr : Nat) (late : Bool),
      let x := s.dev.bankOf ch.val b.val
      let chain := fun (d : Dev) => smGet (fun _ => ChainR.zero) d.out.chains ch.val
      x.tr = some (tr, late) → tr ≤ s.dev.top.tick → x.transform = false →
      ∃ d : Dev, Makes (.bankRestart ch b) s ((x.copied.foldl (fun d e =>
          d.complete e.1 ⟨lateOk (late || e.2.1), 0, ofLe (leBytes 4 e.2.2 ++ leBytes 6 tr)⟩) d).judgeBanks) ∧
        d.bankOf ch.val b.val = { x with st := .ready, copied := [], tr := none } ∧
        ((chain s.dev).on = true → (if b.val = 0 then (chain d).bankA else (chain d).bankB) = .zero) ∧
        d.tabs = s.dev.tabs ∧ d.hostMem = s.dev.hostMem ∧ d.regs = s.dev.regs)

/-- An OUT_SWAP that applies, to a chain below the capacity and a READY bank: BANK of the chain reads the bank in both copies,
every other live bit of the entry, every other live entry and every other table keep their values, nothing else of the part
changes, and it completes with the code: with no crossfade anywhere 2 if the bank is audible, else 0 (a crossfade starts) for an
enabled chain that does not start from rest and 3 otherwise; a bank that is not READY is BAD_TABLE 8, a chain beyond the
capacity 2. CROSSFADE_END with one crossfade whose length has passed: its target is audible and no crossfade is left before the
banks are judged again. A PATCH_SET that applies, COUNT at most ten and the range within 2,048 entries: each entry holds its
word in both copies, every other entry keeps its value, every other table is unchanged; COUNT 0 changes nothing; it completes OK
or LATE. Otherwise it completes with BAD_TABLE, detail 3, without effect. The block of a chain that runs on with its entry
unchanged, outside a crossfade, its audible bank without sections and taps, no lookahead and no late data: the input, delayed in
the chain's line, times its gain multiplier over 2^24, half to even, saturated; then the limiter, whose gain is released by K
and held to what the block's peak asks, glides over the block, and the ceiling clamps it; bypassed or shed, the gain is 2^24 and
nothing clamps (R214 to R218). A crossfade is the straight line from the source to the target. (R210, R211, R212, R222, R79,
R214, R215, R216, R217, R218) -/
def Obligations.SwapsCrossfadesAndPatchEntries : Prop :=
  ((∀ (s : State) (c : Cmd), s.dev.applies .outSwap c →
      let d := s.dev.unqueue c
      let ch := c.u16 16
      let b := c.u8 18 % 2
      (d.nChain ≤ ch → Makes (.outSwap c) s (d.ends c ⟨.badTable, 2, 0⟩)) ∧
      (ch < d.nChain → (d.bankOf ch b).st ≠ .ready → Makes (.outSwap c) s (d.ends c ⟨.badTable, 8, 0⟩)) ∧
      (ch < d.nChain → (d.bankOf ch b).st = .ready → ∃ e : Dev, Makes (.outSwap c) s (e.ends c ⟨lateOk (d.isLate c), 0, swapCode d ch b⟩) ∧
        ChainT.bank e ch = b ∧ bits (wordAt (e.tab T.outChain).staged (8 * ch)) 30 1 = b ∧
        (∀ lo w, lo + w ≤ 30 ∨ 31 ≤ lo → bits (e.live T.outChain (8 * ch)) lo w = bits (d.live T.outChain (8 * ch)) lo w) ∧
        (∀ i, i ≠ 8 * ch → e.live T.outChain i = d.live T.outChain i) ∧ (∀ t, t ≠ T.outChain → e.tab t = d.tab t) ∧
        { e with tabs := d.tabs } = d) ∧
      (d.out.fades = [] → (b = d.audible ch → swapCode d ch b = 2) ∧ (b ≠ d.audible ch → swapCode d ch b = if ChainT.en d ch = true ∧ d.chainStarts ch = false then 0 else 3))) ∧
    (∀ (s : State) (ch : Nat) (f : Fade), s.dev.out.fades = [(ch, f)] → f.first + f.len ≤ s.dev.top.tick →
      Makes .crossfadeEnd s ({ s.dev.setAud ch f.tgt with out := { (s.dev.setAud ch f.tgt).out with fades := [] } }.judgeBanks)) ∧
    (∀ (d : Dev) (ch b : Nat), (d.setAud ch b).audible ch = b ∧ ∀ k, k ≠ ch → (d.setAud ch b).audible k = d.audible k)) ∧
    (∀ (s : State) (c : Cmd), s.dev.applies .patchSet c →
    let d := s.dev.unqueue c
    let first := c.u16 16
    let cnt := c.u16 18
    (cnt ≠ 0 → 10 < cnt ∨ 2048 < first + cnt → Makes (.patchSet c) s (d.ends c ⟨.badTable, 3, 0⟩)) ∧
    (cnt = 0 ∨ (cnt ≤ 10 ∧ first + cnt ≤ 2048) → ∃ e : Dev, Makes (.patchSet c) s (e.ends c ⟨lateOk (d.isLate c), 0, 0⟩) ∧
      (∀ i, i < cnt → wordAt (e.tab T.outPatch).live (first + i) = c.u32 (24 + 4 * i) ∧
        wordAt (e.tab T.outPatch).staged (first + i) = c.u32 (24 + 4 * i)) ∧
      (∀ k, k < first ∨ first + cnt ≤ k → wordAt (e.tab T.outPatch).live k = wordAt (d.tab T.outPatch).live k ∧
        wordAt (e.tab T.outPatch).staged k = wordAt (d.tab T.outPatch).staged k) ∧
      (∀ t, t ≠ T.outPatch → e.tab t = d.tab t) ∧ { e with tabs := d.tabs } = d)) ∧
    (∀ (d : Dev) (t level c : Nat) (feeds buses : Bank), let st := smGet (fun _ => ChainR.zero) d.out.chains c
      let b := d.blockB
      let x := chainInput d feeds buses (ChainT.kind d c) (ChainT.index d c)
      let line := smSet (fun _ => []) st.line t (if x.all (· == 0) then [] else x)
      let y6 := (List.range b).map (fun m => satH (divEven (histAt b line ((t * b + m : Nat) - (chainDelay d c : Int)) * chainV d c) (2 ^ 24)))
      let cc := ceilCode (ChainT.ceil d c)
      let g := if unlimited d level c then 2 ^ 24 else
        min (min (2 ^ 24) (st.g * releaseK (ChainT.release d c) b d.fs / 2 ^ 24)) (gReq cc (peakOf y6))
      let raw := y6.zipIdx.map (fun p => divEven (p.1 * ((st.g : Int) + divFloor (((g : Int) - st.g) * (p.2 + 1 : Nat)) b)) (2 ^ 24))
      st.on = true → st.kind = ChainT.kind d c → st.idx = ChainT.index d c → st.delay = chainDelay d c → st.v = chainV d c → x.length = b →
      d.out.fades.find? (fun e => e.1 == c) = none → d.audible c ≤ 1 → (d.bankOf c (d.audible c)).nsos = 0 → (d.bankOf c (d.audible c)).firLen d = 0 →
      ChainT.lookahead d c = false →
      (chainBlock d t level c feeds buses [] []).y = (if unlimited d level c then raw else raw.map (clampI (-(cc : Int)) cc)) ∧
      (chainBlock d t level c feeds buses [] []).g = g ∧ (chainBlock d t level c feeds buses [] []).next.g = g) ∧
    (∀ (old new : Int) (k len : Nat), (len ≤ k → fadeAt old new k len = new) ∧ (k < len → fadeAt old new k len = old + divEven ((new - old) * k) len)) ∧
    (∀ c p : Nat, (p ≤ c → gReq c p = 2 ^ 24) ∧ (c < p → gReq c p = c * 2 ^ 24 / p))

/-- A PORT_CFG that applies: with no word selected it changes nothing; reserved bits of byte 16 are BAD_TABLE 2; a group form
with a GRP_FMT that fails the format checks is BAD_TABLE 3; more enabled slots in a direction than the capacity are NO_SPACE;
each of these without effect. Otherwise the group form or the port form acts and it completes OK or LATE; the port form leaves
the state of every other port unchanged. A port form that selects only masks shadows them, shows them pending, and leaves the
masks and PORT_CTL in force. MASK_APPLY of a port: each shadowed mask is in force, a direction without one keeps its mask,
nothing is pending, and other ports, tables, host memory and DRAM stay. PORT_RESTART_APPLY of a port with a configuration
waiting, its group having none, and every envelope the restart concerns at 0: PORT_CTL and the four base words read as
configured, nothing waits, the directions concerned wait for two right frames, the envelopes of the others and every other port
stay. (R251, R252, R260, R261) -/
def Obligations.PortConfigurationIsCheckedShadowedAndRestarted : Prop :=
  (∀ (s : State) (c : Cmd), s.dev.applies .portCfg c →
    let d := s.dev.unqueue c
    let rsv := c.u8 16 &&& (if Pc.group c then 0x78 else 0x60)
    let badFmt := (Pc.group c && bitAt (Pc.sel c) 0 && fmtBad d (Pc.fmt c)) = true
    let full := d.cap 1024 < askedSlots d c false ∨ d.cap 1024 < askedSlots d c true
    let ok : Cpl := ⟨lateOk (d.isLate c), 0, 0⟩
    (Pc.sel c = 0 → Makes (.portCfg c) s (d.ends c ok)) ∧
    (Pc.sel c ≠ 0 → rsv ≠ 0 → Makes (.portCfg c) s (d.ends c ⟨.badTable, 2, 0⟩)) ∧
    (Pc.sel c ≠ 0 → rsv = 0 → badFmt → Makes (.portCfg c) s (d.ends c ⟨.badTable, 3, 0⟩)) ∧
    (Pc.sel c ≠ 0 → rsv = 0 → ¬ badFmt → full → Makes (.portCfg c) s (d.ends c ⟨.noSpace, 0, 0⟩)) ∧
    (Pc.sel c ≠ 0 → rsv = 0 → ¬ badFmt → ¬ full →
      (Pc.group c = true → Makes (.portCfg c) s ((groupCfg d c).ends c ok)) ∧
      (Pc.group c = false → ∃ e : Dev, Makes (.portCfg c) s (e.ends c ok) ∧ (∀ q, q ≠ Pc.port c → e.port q = d.port q) ∧
        ((bitAt (Pc.sel c) 0 || bitAt (Pc.sel c) 3) = false →
          (e.port (Pc.port c)).maskIn = (if bitAt (Pc.sel c) 1 then some (c.u32 24) else (d.port (Pc.port c)).maskIn) ∧
          (e.port (Pc.port c)).maskOut = (if bitAt (Pc.sel c) 2 then some (c.u32 28) else (d.port (Pc.port c)).maskOut) ∧
          e.fld (R.PORT_PEND_IN (Pc.port c)) = b2n (e.port (Pc.port c)).maskIn.isSome ∧
          e.fld (R.PORT_PEND_OUT (Pc.port c)) = b2n (e.port (Pc.port c)).maskOut.isSome ∧
          e.fld (R.PORT_MASK_IN_MASK (Pc.port c)) = d.fld (R.PORT_MASK_IN_MASK (Pc.port c)) ∧
          e.fld (R.PORT_MASK_OUT_MASK (Pc.port c)) = d.fld (R.PORT_MASK_OUT_MASK (Pc.port c)) ∧
          e.fld (R.PORT_CTL_CTL (Pc.port c)) = d.fld (R.PORT_CTL_CTL (Pc.port c)))))) ∧
    ((∀ (s : State) (p : Fin 32), ∃ d : Dev, Makes (.maskApply p) s d ∧
      d.fld (R.PORT_MASK_IN_MASK p.val) = ((s.dev.port p.val).maskIn.map (· % 2 ^ 32)).getD (s.dev.fld (R.PORT_MASK_IN_MASK p.val)) ∧
      d.fld (R.PORT_MASK_OUT_MASK p.val) = ((s.dev.port p.val).maskOut.map (· % 2 ^ 32)).getD (s.dev.fld (R.PORT_MASK_OUT_MASK p.val)) ∧
      (d.port p.val).maskIn = none ∧ (d.port p.val).maskOut = none ∧ d.fld (R.PORT_PEND_IN p.val) = 0 ∧ d.fld (R.PORT_PEND_OUT p.val) = 0 ∧
      (∀ q, q ≠ p.val → d.port q = s.dev.port q) ∧ d.tabs = s.dev.tabs ∧ d.hdr = s.dev.hdr ∧ d.hostMem = s.dev.hostMem ∧ d.dram = s.dev.dram) ∧
    (∀ (s : State) (p : Fin 32) (ctl b0 b1 b2 b3 : Nat), (s.dev.port p.val).want = some [ctl, b0, b1, b2, b3] →
      (s.dev.grp (p.val / 4)).want = none →
      let i := (portInvolved s.dev p.val [ctl, b0, b1, b2, b3]).1
      let o := (portInvolved s.dev p.val [ctl, b0, b1, b2, b3]).2
      (i = true → (s.dev.port p.val).inE.g = 0) → (o = true → (s.dev.port p.val).outE.g = 0) →
      ∃ d : Dev, Makes (.portRestartApply p) s d.refFollow ∧ d.fld (R.PORT_CTL_CTL p.val) = ctl % 2 ^ 32 ∧
        d.fld (R.PORT_CAP_BASE_LO_BASE p.val) = b0 % 2 ^ 32 ∧ d.fld (R.PORT_CAP_BASE_HI_BASE p.val) = b1 % 2 ^ 32 ∧
        d.fld (R.PORT_PLY_BASE_LO_BASE p.val) = b2 % 2 ^ 32 ∧ d.fld (R.PORT_PLY_BASE_HI_BASE p.val) = b3 % 2 ^ 32 ∧
        (d.port p.val).want = none ∧ (i = true → (d.port p.val).inE.wait = 2) ∧ (o = true → (d.port p.val).outE.wait = 2) ∧
        (i = false → (d.port p.val).inE = (s.dev.port p.val).inE) ∧ (o = false → (d.port p.val).outE = (s.dev.port p.val).outE) ∧
        (∀ q, q ≠ p.val → d.port q = s.dev.port q)))

/-- TDM_FRAME of a working group in use with no restart waiting: frames since the group's start are one more; a right frame adds
one to the right frames in a row, a wrong or missing one makes them 0; an external group's frame with another BCLK count than
SLOTS × WIDTH counts one in GRP_FRAME_ERR (saturating), and nothing else does. Device state, tables, host memory and every other
group's state are unchanged. GROUP_RESYNC of a group unsynchronised or without a clock, after two right frames: SYNC_STATE reads
2. CLK_LOST of a working external group in use that has a clock: SYNC_STATE reads 3, GRP_CLK_LOST counts one, right frames start
anew, and every direction of its ports starts a fall as a fault; the tables stay. RATE_CHG of a working group in use on a unit
that is no standby: DEV reads the deviation, saturated; beyond 1,000 ppm RATE_OUT reads 1, and LOCKED of a synchronous external
group then 0; within it RATE_OUT stays. GROUP_RATE_RECOVER with RATE_OUT 1: a synchronous external group is marked to recover at
the next boundary, any other has RATE_OUT 0 at once. (R256, R270, R271, R272, R259) -/
def Obligations.FramesClocksAndRatesOfGroups : Prop :=
  (∀ (s : State) (g : Fin 8) (f : TdmFrame), s.dev.awake = true → s.dev.works (grpBase g.val) = true →
    (s.dev.grp g.val).want = none → (s.dev.grp g.val).ctlWant = none → (s.dev.grp g.val).restart = false → GFmt.slots (s.dev.gFmt g.val) ≠ 0 →
    let ext := GFmt.clkSrc (s.dev.gFmt g.val) = 2
    let wrong := ext ∧ f.bclks ≠ 0 ∧ f.bclks ≠ GFmt.slots (s.dev.gFmt g.val) * GFmt.width (s.dev.gFmt g.val)
    let gone := ext ∧ f.bclks = 0
    ∃ d : Dev, Makes (.tdmFrame g f) s d.refFollow ∧ (d.grp g.val).frame = (s.dev.grp g.val).frame + 1 ∧
      (¬ wrong ∧ ¬ gone → (d.grp g.val).good = (s.dev.grp g.val).good + 1) ∧ (wrong ∨ gone → (d.grp g.val).good = 0) ∧
      (wrong → d.fld (R.GRP_FRAME_ERR_COUNT g.val) = min (s.dev.fld (R.GRP_FRAME_ERR_COUNT g.val) + 1) 0xFFFF) ∧
      (¬ wrong → d.fld (R.GRP_FRAME_ERR_COUNT g.val) = s.dev.fld (R.GRP_FRAME_ERR_COUNT g.val)) ∧
      (∀ h, h ≠ g.val → d.grp h = s.dev.grp h) ∧ d.top = s.dev.top ∧ d.tabs = s.dev.tabs ∧ d.hostMem = s.dev.hostMem) ∧
    ((∀ (s : State) (g : Fin 8), s.dev.fld (R.GRP_STAT_SYNC_STATE g.val) = 1 ∨ s.dev.fld (R.GRP_STAT_SYNC_STATE g.val) = 3 →
      2 ≤ (s.dev.grp g.val).good → (s.dev.grp g.val).restart = false →
      Makes (.groupResync g) s (s.dev.setFld (R.GRP_STAT_SYNC_STATE g.val) 2).refFollow) ∧
    (∀ (s : State) (g : Fin 8), s.dev.awake = true → s.dev.works (grpBase g.val) = true → GFmt.clkSrc (s.dev.gFmt g.val) = 2 →
      GFmt.slots (s.dev.gFmt g.val) ≠ 0 → s.dev.fld (R.GRP_STAT_SYNC_STATE g.val) ≠ 3 →
      ∃ d : Dev, Makes (.clkLost g) s d.refFollow ∧ d.fld (R.GRP_STAT_SYNC_STATE g.val) = 3 ∧ (d.grp g.val).good = 0 ∧
        d.fld (R.GRP_CLK_LOST_COUNT g.val) = min (s.dev.fld (R.GRP_CLK_LOST_COUNT g.val) + 1) 0xFFFF ∧
        (∀ p ∈ grpPorts g.val, (d.port p).inE = (s.dev.port p).inE.startFall (fadeLen (s.dev.fld (R.GRP_CTL_CTL g.val))) true ∧
          (d.port p).outE = (s.dev.port p).outE.startFall (fadeLen (s.dev.fld (R.GRP_CTL_CTL g.val))) true) ∧ d.tabs = s.dev.tabs) ∧
    (∀ (s : State) (g : Fin 8) (dev : Int), s.dev.isStandby = false → s.dev.works (grpBase g.val) = true → GFmt.slots (s.dev.gFmt g.val) ≠ 0 →
      ∃ d : Dev, Makes (.rateChg g dev) s d ∧ d.fld (R.GRP_STAT_DEV g.val) = tc 16 (satS 16 dev) ∧
        (1000 < dev.natAbs → d.flag (R.GRP_STAT_RATE_OUT g.val) = true) ∧
        (dev.natAbs ≤ 1000 → d.fld (R.GRP_STAT_RATE_OUT g.val) = s.dev.fld (R.GRP_STAT_RATE_OUT g.val)) ∧
        (1000 < dev.natAbs → GFmt.clkSrc (s.dev.gFmt g.val) = 2 → GFmt.sync (s.dev.gFmt g.val) = true → d.flag (R.GRP_STAT_LOCKED g.val) = false) ∧
        d.tabs = s.dev.tabs ∧ d.hostMem = s.dev.hostMem) ∧
    (∀ (s : State) (g : Fin 8), s.dev.isStandby = false → s.dev.works (grpBase g.val) = true → s.dev.flag (R.GRP_STAT_RATE_OUT g.val) = true →
      (GFmt.clkSrc (s.dev.gFmt g.val) = 2 → GFmt.sync (s.dev.gFmt g.val) = true →
        Makes (.groupRateRecover g) s (s.dev.setGrp g.val { s.dev.grp g.val with recover := true })) ∧
      (GFmt.clkSrc (s.dev.gFmt g.val) ≠ 2 ∨ GFmt.sync (s.dev.gFmt g.val) = false →
        Makes (.groupRateRecover g) s (s.dev.setFld (R.GRP_STAT_RATE_OUT g.val) 0))))

/-- CAPTURE_BLOCK_END of a complete block: with room the record is written to DRAM at the write index, which advances, else
PORT_OVERRUN counts one, the input envelope restarts at 0, the next record is marked DISCONT and DRAM and the index stay.
PLAY_BLOCK_START of a group that runs, once for a block, at its start: with no record that the write index had passed at the
last block start it an underrun, the output starts to fall, and the read index and DRAM stay; with one, the read index advances
and a block of MEM_FRAMES frames is there to play, unless a fault or a restart has taken up the fall of an underrun: then only
the write index is noted. CAP_RECORD_COPY of a captured record, the rings served: with a posted entry in the port's CAP ring the
read index and the ring's index advance by one, with none the entry is dropped as RING_DROP and the read index advances.
PLY_RECORD_FETCH with a posted entry and room: the ring's index advances; a record of the port's stride advances the write
index, one of another length is skipped and counts an underrun. (R265, R266, R267, R268, R269) -/
def Obligations.MemoryModeRecordsAreWrittenAndPlayed : Prop :=
  (∀ (s : State) (p : Fin 32), PCtl.memory (s.dev.pCtl p.val) = true → PCtl.memFrames (s.dev.pCtl p.val) ≤ (s.dev.port p.val).cap.frames.length →
      let w := s.dev.fld (R.PORT_CAP_WIDX_IDX p.val)
      let used := (w + 2 ^ 32 - s.dev.fld (R.PORT_CAP_RIDX_IDX p.val)) % 2 ^ 32
      let e := (s.dev.dramWrite .sap (Rec.addr s.dev p.val false w) (capRecord s.dev p.val w (s.dev.port p.val).cap)).2
      (used < Rec.size s.dev p.val → Makes (.captureBlockEnd p) s
        ((e.setFld (R.PORT_CAP_WIDX_IDX p.val) (w + 1)).setPort p.val { s.dev.port p.val with cap := .zero })) ∧
      (Rec.size s.dev p.val ≤ used → ∃ d : Dev, Makes (.captureBlockEnd p) s d ∧
        d.fld (R.PORT_OVERRUN_COUNT p.val) = min (s.dev.fld (R.PORT_OVERRUN_COUNT p.val) + 1) 0xFFFF ∧ (d.port p.val).inE.g = 0 ∧
        (d.port p.val).cap.frames = [] ∧ (d.port p.val).cap.discont = true ∧ d.dram = s.dev.dram ∧
        d.fld (R.PORT_CAP_WIDX_IDX p.val) = w)) ∧
    (∀ (s : State) (p : Fin 32), PCtl.memory (s.dev.pCtl p.val) = true → s.dev.dirOn p.val true = true → (s.dev.port p.val).ply.left = [] →
      s.dev.awake = true → s.dev.works (grpBase (p.val / 4)) = true → GFmt.slots (s.dev.gFmt (p.val / 4)) ≠ 0 →
      (s.dev.grp (p.val / 4)).restart = false → (s.dev.port p.val).ply.begun = false →
      (s.dev.grp (p.val / 4)).frame % PCtl.memFrames (s.dev.pCtl p.val) = 0 →
      let x := s.dev.port p.val
      let r := s.dev.fld (R.PORT_PLY_RIDX_IDX p.val)
      let ahead := (x.ply.seen + 2 ^ 32 - r) % 2 ^ 32
      let falls := x.ply.missing = true ∧ x.outE.fall = true ∧ (x.outE.fault = true ∨ x.want.isSome = true ∨ (s.dev.grp (p.val / 4)).want.isSome = true)
      (0 < ahead ∧ ahead ≤ 2 ^ 31 → ¬ falls → ∃ d : Dev, Makes (.playBlockStart p) s d ∧ d.fld (R.PORT_PLY_RIDX_IDX p.val) = (r + 1) % 2 ^ 32 ∧
        (d.port p.val).ply.left.length = PCtl.memFrames (s.dev.pCtl p.val) ∧ (d.port p.val).ply.missing = false ∧
        (d.port p.val).ply.seen = s.dev.fld (R.PORT_PLY_WIDX_IDX p.val)) ∧
      (0 < ahead ∧ ahead ≤ 2 ^ 31 → falls → Makes (.playBlockStart p) s (s.dev.setPort p.val
        { x with ply := { x.ply with seen := s.dev.fld (R.PORT_PLY_WIDX_IDX p.val), begun := true } })) ∧
      (¬ (0 < ahead ∧ ahead ≤ 2 ^ 31) → ∃ d : Dev, Makes (.playBlockStart p) s d ∧ (d.port p.val).ply.missing = true ∧
        (d.port p.val).outE = (s.dev.port p.val).outE.startFall (fadeLen (s.dev.fld (R.GRP_CTL_CTL (p.val / 4)))) false ∧
        d.fld (R.PORT_UNDERRUN_COUNT p.val) = min (s.dev.fld (R.PORT_UNDERRUN_COUNT p.val) + 1) 0xFFFF ∧
        d.fld (R.PORT_PLY_RIDX_IDX p.val) = r ∧ d.dram = s.dev.dram)) ∧
    (∀ (s : State) (p : Fin 32) (r : Nat), s.dev.ringFor 6 p.val = some r → PCtl.host (s.dev.pCtl p.val) = true →
      PCtl.memory (s.dev.pCtl p.val) = true → s.dev.ringLive r = true → s.dev.ringPosted r ≠ 0 → s.dev.awake = true →
      s.dev.fld (R.PORT_CAP_RIDX_IDX p.val) ≠ s.dev.fld (R.PORT_CAP_WIDX_IDX p.val) → ∃ d : Dev, Makes (.capRecordCopy p) s d ∧
        d.fld (R.PORT_CAP_RIDX_IDX p.val) = (s.dev.fld (R.PORT_CAP_RIDX_IDX p.val) + 1) % 2 ^ 32 ∧
        d.fld (R.RING_DEV_IDX_DEV_IDX r) = (s.dev.fld (R.RING_DEV_IDX_DEV_IDX r) + 1) % 2 ^ 32 ∧ d.dram = s.dev.dram ∧ d.sap = s.dev.sap) ∧
    (∀ (s : State) (p : Fin 32) (r : Nat), s.dev.ringFor 6 p.val = some r → PCtl.host (s.dev.pCtl p.val) = true →
      PCtl.memory (s.dev.pCtl p.val) = true → s.dev.ringLive r = true → s.dev.ringPosted r = 0 → s.dev.awake = true →
      s.dev.fld (R.PORT_CAP_RIDX_IDX p.val) ≠ s.dev.fld (R.PORT_CAP_WIDX_IDX p.val) →
      Makes (.capRecordCopy p) s ((s.dev.ringDrop r).setFld (R.PORT_CAP_RIDX_IDX p.val) (s.dev.fld (R.PORT_CAP_RIDX_IDX p.val) + 1))) ∧
    (∀ (s : State) (p : Fin 32) (r : Nat), s.dev.ringFor 7 p.val = some r → PCtl.host (s.dev.pCtl p.val) = true →
      PCtl.memory (s.dev.pCtl p.val) = true → s.dev.ringLive r = true → s.dev.ringPosted r ≠ 0 → s.dev.awake = true →
      (s.dev.fld (R.PORT_PLY_WIDX_IDX p.val) + 2 ^ 32 - s.dev.fld (R.PORT_PLY_RIDX_IDX p.val)) % 2 ^ 32 < Rec.size s.dev p.val →
      let e := memRead s.dev.hostMem (s.dev.ringAddr r (s.dev.fld (R.RING_DEV_IDX_DEV_IDX r))) 16
      ∃ d : Dev, Makes (.plyRecordFetch p) s d ∧
        d.fld (R.RING_DEV_IDX_DEV_IDX r) = (s.dev.fld (R.RING_DEV_IDX_DEV_IDX r) + 1) % 2 ^ 32 ∧ d.hostMem = s.dev.hostMem ∧
        (ofLe (slice e 8 4) = Rec.stride s.dev p.val →
          d.fld (R.PORT_PLY_WIDX_IDX p.val) = (s.dev.fld (R.PORT_PLY_WIDX_IDX p.val) + 1) % 2 ^ 32) ∧
        (ofLe (slice e 8 4) ≠ Rec.stride s.dev p.val → d.dram = s.dev.dram ∧
          d.fld (R.PORT_PLY_WIDX_IDX p.val) = s.dev.fld (R.PORT_PLY_WIDX_IDX p.val) ∧
          d.fld (R.PORT_UNDERRUN_COUNT p.val) = min (s.dev.fld (R.PORT_UNDERRUN_COUNT p.val) + 1) 0xFFFF))

/-- For every envelope with value at most its length and every FADE of at least 1: after a frame, or after a fall starts, its
value is still at most its length; a frame moves the value by at most one, down while it falls and up otherwise; the value 0
gives silence, the full value the sample itself, and no value gives a greater magnitude than the sample's; a fall begun at full
has the FADE in force as its length. REPEAT_MODE_ENTRY of a tripped unit with TTH enabled: an output direction in use whose
output is owned, not yet repeating, repeats and sets REPEAT, and nothing else changes. (R262, R275) -/
def Obligations.EnvelopesStayWithinTheirFade : Prop :=
  (∀ (e : Env) (fade : Nat) (may fault : Bool), 1 ≤ fade → e.g ≤ e.f →
      (e.step fade may).g ≤ (e.step fade may).f ∧ (e.startFall fade fault).g ≤ (e.startFall fade fault).f ∧
      (e.fall = true → (e.step fade may).g ≤ e.g ∧ e.g ≤ (e.step fade may).g + 1) ∧
      (e.fall = false → (e.step fade may).g ≤ e.g + 1 ∧ e.g ≤ (e.step fade may).g) ∧
      (∀ x : Int, (e.g = 0 → e.apply x = 0) ∧ (e.g = e.f → e.f ≠ 0 → e.apply x = x) ∧ (e.apply x).natAbs ≤ x.natAbs) ∧
      (e.g = e.f → e.f ≠ 0 → e.fall = false → (e.startFall fade fault).f = fade ∧ (e.startFall fade fault).fall = true)) ∧
    (∀ (s : State) (p : Fin 32), s.dev.tth.tripped = true → s.dev.effEn tthBase = true → s.dev.dirOn p.val true = true →
      s.dev.tth.own.contains p.val = true → (s.dev.port p.val).rep = false →
      Makes (.repeatModeEntry p) s ((s.dev.setPort p.val { s.dev.port p.val with rep := true }).raise (F.portRepeat p.val)))

/-- A DRAM write is made of bursts that together cover its bytes once, each within 4 KiB (R476), every burst a write of its own;
it succeeds where each burst does. A burst whose range lies below the fitted total, with CHECKED = 1 and inside the enabled
regions, stores its bytes there and nowhere else, and neither counts nor raises anything. Any other stores nothing and FAB
counts a slave error, logged with that master and the address if the log is free; outside the regions DMC counts it too. Two
different byte addresses below the total never share one place in the DRAM map. (R476, R479, R483, R484, R487, R481) -/
def Obligations.DramAccessesFollowR479AndR484 : Prop :=
  (∀ (a n : Nat), (∀ r ∈ burstsOf a n, r.2 ≠ 0 ∧ a ≤ r.1 ∧ r.1 + r.2 ≤ a + n ∧ r.1 / 4096 = (r.1 + r.2 - 1) / 4096) ∧
      (∀ x, a ≤ x → x < a + n → ∃ r ∈ burstsOf a n, r.1 ≤ x ∧ x < r.1 + r.2) ∧ (burstsOf a n).Pairwise (fun p q => p.1 + p.2 ≤ q.1)) ∧
    (∀ (d : Dev) (m : Master) (a : Nat) (l : List Nat), d.dramWrite m a l = (burstsOf a l.length).foldl (fun (x : Bool × Dev) r =>
      let y := x.2.dramWrite m r.1 ((l.drop (r.1 - a)).take r.2)
      (x.1 && y.1, y.2)) (true, d)) ∧
    (∀ (d : Dev) (m : Master) (a : Nat) (l : List Nat), l ≠ [] → a / 4096 = (a + l.length - 1) / 4096 →
      (a + l.length ≤ d.dramTotal → d.flag R.DMC_CHECK_CHECKED = true → d.inRegions a l.length = true →
        (d.dramWrite m a l).1 = true ∧ (d.dramWrite m a l).2.dram = memWrite d.dram a l ∧
        (d.dramWrite m a l).2.fld R.FAB_ERR_CNT_COUNT = d.fld R.FAB_ERR_CNT_COUNT ∧
        (d.dramWrite m a l).2.hdr = d.hdr ∧ (d.dramWrite m a l).2.hostMem = d.hostMem) ∧
      (d.dramTotal < a + l.length ∨ d.flag R.DMC_CHECK_CHECKED = false ∨ d.inRegions a l.length = false →
        (d.dramWrite m a l).1 = false ∧ (d.dramWrite m a l).2.dram = d.dram ∧
        (d.dramWrite m a l).2.fld R.FAB_ERR_CNT_COUNT = min (d.fld R.FAB_ERR_CNT_COUNT + 1) (2 ^ R.FAB_ERR_CNT_COUNT.w - 1) ∧
        (d.dramWrite m a l).2.flag R.FAB_ERR_INFO_VALID = true ∧
        (d.flag R.FAB_ERR_INFO_VALID = false → (d.dramWrite m a l).2.fld R.FAB_ERR_INFO_TYPE = 1 ∧
          (d.dramWrite m a l).2.fld R.FAB_ERR_INFO_MASTER = m.index ∧ (d.dramWrite m a l).2.fld R.FAB_ERR_ADDR_LO_ADDR_LO = a % 2 ^ 32) ∧
        (d.inRegions a l.length = false → (d.dramWrite m a l).2.fld R.DMC_OUTSIDE_COUNT =
          min (d.fld R.DMC_OUTSIDE_COUNT + 1) (2 ^ R.DMC_OUTSIDE_COUNT.w - 1)))) ∧
    (∀ (d : Dev) (a b : Nat), 7 ≤ d.fld R.DMC_CFG_GRAIN → d.fld R.DMC_CFG_GRAIN ≤ 16 → a < d.dramTotal → b < d.dramTotal →
      d.dramPlace a = d.dramPlace b → a = b)

/-- While DMC responds: DMC_CFG_WRITE in SETUP stores GRAIN clamped to 7..16, DENSITY and RANKS2 and clears CHECKED, elsewhere
only sets CFG_REFUSED; DLY_WRITE clears CHECKED; DMC_CHECK_GO in SETUP of a working DMC that is not checking stores MARGIN and
RECHECK, writes the check words and sets BUSY; DMC_RECHECK_WRITE without GO stores MARGIN and RECHECK. CHECK_DONE sets CHECKED
with no failing lane, else FAIL with the lanes. DRAM_RECHECK in RUN wakes every rank, and with a mismatch clears CHECKED and
leaves DMC faulted and forcing SAFE. REFRESH_EXPIRY of a working DMC: in a deadline window (a queued transaction's FAB_QOS, or
15 of a recheck, is at least RT_QOS) with postponing on, the channel not hot and fewer than eight owed, one more is owed and
DMC_POSTPONED counts; in a window otherwise the refresh is forced and DMC_FORCED counts; with no window nothing changes.
OWED_REFRESH_FLUSH with no window open: nothing is owed. MR4_POLL: each channel's HOT, OVERTEMP and rate code read as its ranks
report; one that becomes hot with refreshes owed owes twice as many, at most 16, which take TRFC each (R491). RANK_POWER_DOWN of
a rank no RETAIN region overlaps sets its PD bit and no other. (R482, R486, R487, R488, R489, R490, R491, R492, R476) -/
def Obligations.DramConfigurationChecksAndRefreshes : Prop :=
  ((∀ (s : State) (v : Word), s.dev.opens dmcBase = true →
      (s.dev.top.st = .setup → ∃ d : Dev, Makes (.dmcCfgWrite v) s d ∧ d.fld R.DMC_CFG_GRAIN = clampN 7 16 (bits v.toNat 20 5) ∧
        d.fld R.DMC_CFG_DENSITY = bits v.toNat 16 2 ∧ d.fld R.DMC_CFG_RANKS2 = bits v.toNat 8 1 ∧ d.flag R.DMC_CHECK_CHECKED = false ∧
        { d with regs := s.dev.regs } = s.dev) ∧
      (s.dev.top.st ≠ .setup → Makes (.dmcCfgWrite v) s (s.dev.raise F.dmcCfgRefused))) ∧
    (∀ (s : State) (lane : Fin 8) (i : Fin 4) (v : Word), s.dev.opens dmcBase = true → ∃ d : Dev, Makes (.dlyWrite lane i v) s d ∧
      d.flag R.DMC_CHECK_CHECKED = false ∧ { d with regs := s.dev.regs } = s.dev ∧
      (i.val = 0 → d.fld (R.DLY_WL_WL lane.val) = v.toNat % 2 ^ (R.DLY_WL_WL lane.val).w) ∧
      (i.val = 1 → d.fld (R.DLY_RG_RG lane.val) = v.toNat % 2 ^ (R.DLY_RG_RG lane.val).w) ∧
      (i.val = 2 → d.fld (R.DLY_WDSK_WDSK lane.val) = v.toNat % 2 ^ (R.DLY_WDSK_WDSK lane.val).w) ∧
      (i.val = 3 → d.fld (R.DLY_RDSK_RDSK lane.val) = v.toNat % 2 ^ (R.DLY_RDSK_RDSK lane.val).w)) ∧
    (∀ (s : State) (v : Word), s.dev.opens dmcBase = true → s.dev.top.st = .setup → s.dev.flag R.DMC_CHECK_BUSY = false →
      s.dev.works dmcBase = true → ∃ d : Dev, Makes (.dmcCheckGo v) s d ∧ d.flag R.DMC_CHECK_BUSY = true ∧
        d.fld R.DMC_CHECK_MARGIN = bits v.toNat 8 8 ∧ d.fld R.DMC_CHECK_RECHECK = bits v.toNat 0 8 ∧
        d.dram = s.dev.checkPlaces.foldl (fun m p => memWrite m p.1 (leBytes 4 p.2)) s.dev.dram ∧ d.hdr = s.dev.hdr) ∧
    (∀ (s : State) (v : Word), s.dev.opens dmcBase = true → bitAt v.toNat 31 = false →
      Makes (.dmcRecheckWrite v) s (s.dev.setFlds [(R.DMC_CHECK_MARGIN, bits v.toNat 8 8), (R.DMC_CHECK_RECHECK, bits v.toNat 0 8)])) ∧
    (∀ (s : State) (lanes : BitVec 8), s.dev.flag R.DMC_CHECK_BUSY = true → ∃ d : Dev, Makes (.checkDone lanes) s d ∧
      d.flag R.DMC_CHECK_BUSY = false ∧ d.fld R.DMC_CHECK_FAIL_LANE = lanes.toNat ∧
      (lanes = 0#8 → d.flag R.DMC_CHECK_CHECKED = true ∧ d.flag R.DMC_CHECK_FAIL = false ∧ d.dmc.fault = false) ∧
      (lanes ≠ 0#8 → d.flag R.DMC_CHECK_FAIL = true ∧ d.fld R.DMC_CHECK_CHECKED = s.dev.fld R.DMC_CHECK_CHECKED) ∧ d.dram = s.dev.dram) ∧
    (∀ (s : State) (bad : Bool), s.dev.top.st = .run → s.dev.fld R.DMC_CHECK_RECHECK ≠ 0 → s.dev.works dmcBase = true →
      (bad = true ∨ s.dev.checkWordsStand = false → ∃ d : Dev, Makes (.dramRecheck bad) s d ∧ d.flag R.DMC_CHECK_CHECKED = false ∧
        d.dmc.fault = true ∧ d.dmc.causeNew = true ∧ 5 ∈ d.safeCauses) ∧
      (bad = false → s.dev.checkWordsStand = true → Makes (.dramRecheck bad) s s.dev.wakeAll))) ∧
    ((∀ (s : State) (c : Fin 4) (qos : List Queued), s.dev.awake = true → s.dev.works dmcBase = true →
      (s.dev.windowOpen qos = true → s.dev.flag R.DMC_REF_POSTPONE_EN = true → s.dev.hotInterval c.val = false →
        s.dev.fld (R.DMC_CH_STAT_OWED c.val) < 8 → ∃ d : Dev, Makes (.refreshExpiry c qos) s d ∧
          d.fld (R.DMC_CH_STAT_OWED c.val) = s.dev.fld (R.DMC_CH_STAT_OWED c.val) + 1 ∧
          d.fld R.DMC_POSTPONED_COUNT = min (s.dev.fld R.DMC_POSTPONED_COUNT + 1) (2 ^ R.DMC_POSTPONED_COUNT.w - 1) ∧
          { d with regs := s.dev.regs } = s.dev) ∧
      (s.dev.windowOpen qos = true → s.dev.flag R.DMC_REF_POSTPONE_EN = false ∨ s.dev.hotInterval c.val = true ∨
        8 ≤ s.dev.fld (R.DMC_CH_STAT_OWED c.val) →
          Makes (.refreshExpiry c qos) s (((s.dev.count R.DMC_FORCED_COUNT).raise F.forcedRef).note .dmcForced)) ∧
      (s.dev.windowOpen qos = false → Makes (.refreshExpiry c qos) s s.dev ∧
        Makes (.owedRefreshFlush c qos) s (s.dev.setFld (R.DMC_CH_STAT_OWED c.val) 0))) ∧
    (∀ (s : State) (l : List Mr4), s.dev.awake = true → s.dev.works dmcBase = true → ∃ d : Dev, Makes (.mr4Poll l) s d ∧
      (∀ c, c < 4 → d.flag (R.DMC_CH_STAT_HOT c) = ((l.drop (s.dev.ranks * c)).take s.dev.ranks).any (·.twice) ∧
        d.flag (R.DMC_CH_STAT_OVERTEMP c) = ((l.drop (s.dev.ranks * c)).take s.dev.ranks).any (·.tooHot) ∧
        d.fld (R.DMC_CH_STAT_MR4_RATE c) = (((l.drop (s.dev.ranks * c)).take s.dev.ranks).map (·.code.toNat)).foldl max 0 ∧
        let hot := d.hotInterval c
        let o := s.dev.fld (R.DMC_CH_STAT_OWED c)
        let left := (min 16 (2 * o) * s.dev.fld R.DMC_REF_TRFC + 1) / 2
        (s.dev.hotInterval c = false → hot = true → o ≠ 0 → d.fld (R.DMC_CH_STAT_OWED c) = min 16 (2 * o) ∧
          (left ≠ 0 → smGet (fun _ => 0) d.dmc.burst c = left)) ∧
        (s.dev.hotInterval c = true ∨ hot = false ∨ o = 0 → d.fld (R.DMC_CH_STAT_OWED c) = o)) ∧
      d.tabs = s.dev.tabs ∧ d.dram = s.dev.dram ∧ d.top = s.dev.top) ∧
    (∀ (s : State) (c : Fin 4) (r : Fin 2), s.dev.awake = true → s.dev.works dmcBase = true → s.dev.fld R.DMC_PD_TIMER_PD_TIMER ≠ 0 →
      r.val < s.dev.ranks → s.dev.retains (s.dev.dramTotal / s.dev.ranks * r.val) (s.dev.dramTotal / s.dev.ranks * (r.val + 1)) = false →
      ∃ d : Dev, Makes (.rankPowerDown c r) s d ∧ bitAt (d.fld (R.DMC_CH_STAT_PD c.val)) r.val = true ∧
        (∀ q, q < 2 → q ≠ r.val → bitAt (d.fld (R.DMC_CH_STAT_PD c.val)) q = bitAt (s.dev.fld (R.DMC_CH_STAT_PD c.val)) q) ∧
        { d with regs := s.dev.regs } = s.dev)) ∧
    (∀ (d : Dev) (l : List Queued), d.windowOpen l = true ↔ ∃ q ∈ l, d.fld R.DMC_RT_QOS_RT_QOS ≤
      (if 10 ≤ q.master then 15 else if q.write then d.fld (R.FAB_QOS_QOS_WR q.master) else d.fld (R.FAB_QOS_QOS_RD q.master)))

/-- While TICK_RUN is 1, no sync edge is awaited and the device is awake, TICK_BOUNDARY completes: time and host stores pass,
the block that waited is emitted (in RUN, when the next one is not ready, the streams and ports repeat the last), the tick that
ends is processed and closed, the counter counts one modulo 2^48 (or takes the marker's tick where a standby realigns) with
PHASE restarting at 0, every unit acts, a marker goes to a standby, sets are computed up to four ticks ahead, and health,
records and services follow. A realignment without a marker waits. Otherwise it changes nothing. SERVICE_INSTANT changes nothing
while the tick runs; without it the state machine acts, an awake device applies what is due, and the reports follow. A block
emitted in time ends a run of overruns; one that is not counts in TOP_OVERRUN, and OVERRUN_LIMIT of them on end take the part to
SAFE (R28). A service of a working, awake HRE without failures: the status page, laid out as R71 says, where STATUS_EN = 1; the
vectors that are due; with POLL_EN the changes of ENABLE, the doorbell page, and the fetch in rounds over the rings in ascending
number until one takes nothing or FETCH_MAX is reached (R69): a CMD ring in service with a descriptor gives its next one, unless
it is barred by a BARRIER, no CPL entry is left for a requested completion, or the pending queue is full, which ends the fetch
with PAQ_FULL. (R21, R24, R28, R66, R69, R71, R77, R371, R551, R392) -/
def Obligations.BoundariesAndServiceInstantsFollowTheirOrder : Prop :=
  (∀ (s : State) (b : Boundary), let d := s.dev
      (d.flag R.TOP_RATE_TICK_RUN = true → d.ref.tickWait = false → d.awake = true →
        let e := (d.ageRings.timePasses b.cycles).hostStores b.hostWrites
        let e := { e with top := { e.top with fading := false }, tth := { e.tth with outNow := e.tth.outNext } }
        let again := decide (e.top.st = .run) && b.notReady
        let e := if again = true then e.strRepeat (e.top.tick - 1) else e
        let e := (((e.emitBlock again).endTick e.top.tick b).closeInterval).judgeEmission b.notReady
        let f := ((((((e.nextTick.atBoundary b).pwrService d.top.started).markerSend).transferStep).markerCheck).fitCheck).mtrSnapshot
        Makes (.tickBoundary b) s ((f.panCompute.lockSets).reportStep b) ∧
          (e.tth.realign = false → e.nextTick.top.tick = (e.top.tick + 1) % 2 ^ 48) ∧
          (∀ m, e.tth.realign = true → e.tth.marker = some m → e.nextTick.top.tick = m.tick % 2 ^ 48) ∧
          (e.tth.realign = true → e.tth.marker = none → e.nextTick.top.tick = (e.top.tick + 1) % 2 ^ 48 ∧ e.nextTick.tth.realign = true) ∧
          e.nextTick.phase = 0 ∧ (b.notReady = false → e.top.overruns = 0)) ∧
      (d.flag R.TOP_RATE_TICK_RUN = false ∨ d.ref.tickWait = true ∨ d.awake = false → Makes (.tickBoundary b) s d)) ∧
    (∀ (s : State) (b : Boundary), let d := s.dev
      (d.running = true → Makes (.serviceInstant b) s d) ∧
      (d.running = false →
        let e := ((((d.ageRings.timePasses b.cycles).hostStores b.hostWrites).closeInterval).rested.coresBusy).healthAll b.overtime false
        let e := if e.tickOn = true then e else e.stateStep
        Makes (.serviceInstant b) s (((((if e.awake = true then e.commandStep.realignDone else e).pwrService false).fitCheck)).reportStep b))) ∧
    (∀ d : Dev, d.top.st = .run → let g := d.judgeEmission true
      g.fld R.TOP_OVERRUN_COUNT = min (d.fld R.TOP_OVERRUN_COUNT + 1) (2 ^ R.TOP_OVERRUN_COUNT.w - 1) ∧ g.top.overruns = d.top.overruns + 1 ∧
      (d.effEn topBase = true → bitAt (g.hd topBase).event.toNat F.overrun.bit = true) ∧
      (g.top.overrunHit = true ↔ d.top.overrunHit = true ∨
        (d.fld R.TOP_PIPE_OVERRUN_LIMIT ≠ 0 ∧ d.fld R.TOP_PIPE_OVERRUN_LIMIT ≤ d.top.overruns + 1))) ∧
    (∀ (d : Dev) (b : Boundary), d.awake = true → d.works hreBase = true → d.hre.skipPage = false → b.fails = [] → b.pollLate = false →
      let e := { d with hre := { d.hre with urgentRuns := 0 } }
      let p := if d.flag R.HRE_CTL_STATUS_EN then { e with hostMem := memWrite d.hostMem (e.statusAddr % 2 ^ 64) (statusPage e) } else e
      let q := p.vectors.ringsFollow.doorbell false
      let n := q.fld R.HRE_CTL_FETCH_MAX
      d.service b = if p.vectors.flag R.HRE_CTL_POLL_EN then (fetchRounds [] n ⟨q, n, [], false⟩).dev.afterCommands else p.vectors) ∧
    (∀ (n : Nat) (f : Fetching), let g := (List.range 64).foldl (fetchOne []) { f with took := false }
      fetchRounds [] (n + 1) f = if g.took = true ∧ g.left ≠ 0 then fetchRounds [] n g else g) ∧
    (∀ (f : Fetching) (r : Nat), let d := f.dev
      let i := d.fld (R.RING_DEV_IDX_DEV_IDX r)
      let c := cmdOfBytes (memRead d.hostMem (d.ringAddr r i) 64) r i d.top.tick d.hre.serial
      (f.left = 0 ∨ r ∈ f.stop ∨ d.ringLive r = false ∨ d.ringType r ≠ 0 ∨ d.ringPosted r = 0 ∨ d.ringBarred r = true → fetchOne [] f r = f) ∧
      (f.left ≠ 0 → r ∉ f.stop → d.ringLive r = true → d.ringType r = 0 → d.ringPosted r ≠ 0 → d.ringBarred r = false →
        (d.paqTaken = true → fetchOne [] f r = { f with dev := d.raise F.paqFull, left := 0 }) ∧
        (d.paqTaken = false → c.cplReq = true → d.ringFree (d.fld (R.RING_CFG_LINK r)) = 0 → fetchOne [] f r = { f with stop := r :: f.stop }) ∧
        (d.paqTaken = false → c.cplReq = false ∨ d.ringFree (d.fld (R.RING_CFG_LINK r)) ≠ 0 →
          fetchOne [] f r = ⟨(d.setFld (R.RING_DEV_IDX_DEV_IDX r) ((i + 1) % 2 ^ 32)).fetched c, f.left - 1,
            if c.code.toNat = Opcode.barrier.code then r :: f.stop else f.stop, true⟩))) ∧
    (∀ d : Dev, let p := statusPage d
      p.length = 1024 ∧ (∀ r, r < 64 → (p.drop (8 * r)).take 8 = leBytes 4 (d.fld (R.RING_DEV_IDX_DEV_IDX r)) ++
        [d.fld (R.RING_CFG_ENABLE r) + 2 * d.fld (R.RING_CFG_HALTED r) + 16 * d.fld (R.RING_CFG_HALT_CAUSE r), 0, 0, 0]) ∧
      (∀ x ∈ ([(0x200, 4, d.top.tick), (0x204, 4, 0), (0x208, 8, d.top.tick % 2 ^ 48), (0x210, 4, d.tbFrac 0), (0x214, 4, d.tbNs 0), (0x218, 4, d.stateWord),
          (0x21C, 4, d.topEvents.toNat), (0x220, 4, d.hre.paq.length), (0x224, 4, d.levelNow), (0x228, 4, pairWord d), (0x22C, 4, d.digest),
          (0x230, 4, d.tbFrac 1), (0x234, 4, d.tbNs 1), (0x238, 4, d.tbFrac 2), (0x23C, 4, d.tbNs 2), (0x240, 4, d.tbFrac 3), (0x244, 4, d.tbNs 3),
          (0x248, 0x1B4, 0), (0x3FC, 4, d.top.tick)] : List (Nat × Nat × Nat)), (p.drop x.1).take x.2.1 = leBytes x.2.1 x.2.2))

/-- On a unit that is not a standby, with the measured ratio (in 0.01 ppm; a stream's from its packets' timestamps): a channel
in ACQUIRE whose estimate settles is LOCKED with that estimate, its fade-in at its start; one that does not settle stays and
sets ASRC_LOST. A LOCKED channel that departs by more than 0.1 % is in ACQUIRE, fades out from its present gain, counts in
SLP_RELOCK and sets ASRC_RELOCK; within it the channel stays LOCKED and its estimate moves to a value between the old one and
the measured one. An IDLE channel is unchanged, but that one in standby takes the measured ratio as its estimate. A ratio beyond
2 % of nominal, whichever measure shows it, loses a channel in ACQUIRE or LOCKED; back within it, a LOST channel whose clock is
not lost is in ACQUIRE. DEV shows the measured ratio, and only the channel's own state, its status register, the relock count
and events change. On a standby unit these change nothing. (R241, R242, R396) -/
def Obligations.AsrcStatesFollowR241AndR242 : Prop :=
  ∀ (s : State) (a : Fin 256) (dev : Int), let d := s.dev
    let seen := d.asrcSeen a.val dev
    let only (e : Dev) : Prop := (∀ x, x ≠ a.val → e.asrc x = d.asrc x) ∧ e.fld (R.SLP_ASRC_STAT_DEV a.val) = tc 24 (satS 24 seen) ∧
      (∀ r, r ≠ (R.SLP_ASRC_STAT_STATE a.val).addr → r ≠ R.SLP_RELOCK_COUNT.addr → e.reg r = d.reg r) ∧ e.tabs = d.tabs ∧ e.top = d.top ∧
      e.hostMem = d.hostMem ∧ e.dram = d.dram
    (d.isStandby = true → Makes (.asrcSettled a dev) s d ∧ Makes (.asrcAcquireTimeout a) s d ∧ Makes (.asrcRelock a dev) s d ∧
      Makes (.asrcRatioOut a dev) s d) ∧
    (d.isStandby = false →
      (2000000 < seen.natAbs → exec (.asrcSettled a dev) s = exec (.asrcRatioOut a dev) s ∧ exec (.asrcRelock a dev) s = exec (.asrcRatioOut a dev) s) ∧
      (d.asrcState a.val = 1 → seen.natAbs ≤ 2000000 → ∃ e : Dev, Makes (.asrcSettled a dev) s e ∧ only e ∧ e.asrcState a.val = 2 ∧ (e.asrc a.val).est = seen ∧
        (e.asrc a.val).faded = 0 ∧ (e.asrc a.val).unsettled = false ∧ e.hdr = d.hdr) ∧
      (d.asrcState a.val = 1 → Makes (.asrcAcquireTimeout a) s ((d.setAsrc a.val { d.asrc a.val with unsettled := true }).raise F.asrcLost)) ∧
      (d.asrcState a.val = 2 → seen.natAbs ≤ 2000000 → 100000 < (seen - (d.asrc a.val).est).natAbs → ∃ e : Dev, Makes (.asrcRelock a dev) s (e.raise F.asrcRelock) ∧
        only e ∧ e.asrcState a.val = 1 ∧ (e.asrc a.val).dying = true ∧ (e.asrc a.val).gain = d.asrcGain a.val ∧ (e.asrc a.val).faded = 0 ∧
        e.fld R.SLP_RELOCK_COUNT = min (d.fld R.SLP_RELOCK_COUNT + 1) (2 ^ R.SLP_RELOCK_COUNT.w - 1)) ∧
      (d.asrcState a.val = 2 → seen.natAbs ≤ 2000000 → (seen - (d.asrc a.val).est).natAbs ≤ 100000 → ∃ e : Dev, Makes (.asrcRelock a dev) s e ∧ only e ∧
        e.asrcState a.val = 2 ∧ min (d.asrc a.val).est seen ≤ (e.asrc a.val).est ∧ (e.asrc a.val).est ≤ max (d.asrc a.val).est seen ∧
        (e.asrc a.val).faded = (d.asrc a.val).faded ∧ e.fld R.SLP_RELOCK_COUNT = d.fld R.SLP_RELOCK_COUNT ∧ e.hdr = d.hdr) ∧
      (d.asrcState a.val = 0 → d.flag (R.SLP_ASRC_STAT_STANDBY a.val) = false → Makes (.asrcSettled a dev) s d ∧
        Makes (.asrcRelock a dev) s d ∧ Makes (.asrcRatioOut a dev) s d) ∧
      (d.asrcState a.val = 0 → d.flag (R.SLP_ASRC_STAT_STANDBY a.val) = true → ∃ e : Dev, only e ∧ e.asrcState a.val = 0 ∧
        (e.asrc a.val).est = seen ∧ Makes (.asrcSettled a dev) s e ∧ Makes (.asrcRelock a dev) s e ∧ Makes (.asrcRatioOut a dev) s e) ∧
      (d.asrcState a.val = 1 ∨ d.asrcState a.val = 2 → 2000000 < seen.natAbs → ∃ e : Dev, Makes (.asrcRatioOut a dev) s (e.raise F.asrcLost) ∧
        only e ∧ e.asrcState a.val = 3 ∧ (e.asrc a.val).ratioOut = true ∧ (d.asrcState a.val = 2 → (e.asrc a.val).dying = true)) ∧
      (d.asrcState a.val ≠ 0 → seen.natAbs ≤ 2000000 →
        let e := (d.setFld (R.SLP_ASRC_STAT_DEV a.val) (tc 24 (satS 24 seen))).setAsrc a.val { d.asrc a.val with ratioOut := false }
        let lost := ((asrcEntries e).find? (fun x => x.1 == a.val)).any (fun x => clockLost e x.2)
        (d.asrcState a.val = 3 → lost = false → ∃ g : Dev, Makes (.asrcRatioOut a dev) s g ∧ only g ∧ g.asrcState a.val = 1 ∧
          (g.asrc a.val).unsettled = false ∧ (g.asrc a.val).ratioOut = false) ∧
        (d.asrcState a.val ≠ 3 ∨ lost = true → Makes (.asrcRatioOut a dev) s e)))

/-- A STREAM_CFG that applies: COUNT 0 completes and changes nothing. COUNT above 10 or words beyond the entry (32 receive, 64
transmit) are BAD_TABLE, detail 3. If the entry that results is enabled and fails a check of R312, the command is NO_SPACE for
checks 5 and 6 and BAD_TABLE 3 otherwise, without effect. Else the live and staged words named are those given and every other
word, table, register, host memory, stream state and the device state are unchanged until the streams follow. On a unit that is
no standby, a locked enabled stream's check of 1,024 used packets measures anew, shows DEV, and beyond 0.1 % sets RATE_OUT and
RATE_CHG; otherwise it changes nothing (where no time passed on TB, the rate is the operand's: the model's choice, log 114); a
rate back within it is marked for the next boundary. A PLAYING stream without packets is INACTIVE and sets STREAM_INACTIVE. A
path that is lost reads 0, and sets PATH_LOST if the stream is enabled, uses both networks and the other still reads 1. A
transmit packet of a MEDIA stream, its one entry unchanged, all of whose samples have passed is formed with the next number and
joins the queue of each MAC of a network in use that can carry it, before free transmitters take what waits; a queued packet
that is late is removed, counts in TX_LATE and sets TX_LATE. (R312, R313, R79, R316, R320, R324, R326, R396) -/
def Obligations.StreamEntriesRatesAndPackets : Prop :=
  (∀ (s : State) (c : Cmd), s.dev.applies .streamCfg c →
    let d := s.dev.unqueue c
    let tx := bitAt (c.u8 16) 0
    let size := if tx = true then 64 else 32
    let t := if tx = true then T.strTx else T.strRx
    let first := size * c.u8 17 + c.u8 18
    let given (i : Nat) : Prop := first ≤ i ∧ i < first + c.u8 19
    let m := (List.range (c.u8 19)).foldl (fun m i => wordSet m (first + i) (c.u32 (24 + 4 * i))) (d.tab t).live
    let check := if tx = true then (if StrE.en (txWords m (c.u8 17)) = true then txCheck d (listedTx m) (txWords m (c.u8 17)) else none)
      else if StrE.en (rxWords m (c.u8 17)) = true then rxCheck d (listedRx m) (c.u8 17) (rxWords m (c.u8 17)) else none
    let ok : Cpl := ⟨lateOk (d.isLate c), 0, 0⟩
    (c.u8 19 = 0 → Makes (.streamCfg c) s (d.ends c ok)) ∧
    (c.u8 19 ≠ 0 → 10 < c.u8 19 ∨ size < c.u8 18 + c.u8 19 → Makes (.streamCfg c) s (d.ends c (.bad 3))) ∧
    (c.u8 19 ≠ 0 → c.u8 19 ≤ 10 → c.u8 18 + c.u8 19 ≤ size →
      (∀ k, check = some k → Makes (.streamCfg c) s (d.ends c (if k = 5 ∨ k = 6 then ⟨.noSpace, 0, 0⟩ else .bad 3))) ∧
      (check = none → ∃ e : Dev, Makes (.streamCfg c) s (e.ends c ok) ∧
        (∀ i, given i → e.live t i = c.u32 (24 + 4 * (i - first)) ∧ wordAt (e.tab t).staged i = c.u32 (24 + 4 * (i - first))) ∧
        (∀ i, ¬ given i → e.live t i = d.live t i ∧ wordAt (e.tab t).staged i = wordAt (d.tab t).staged i) ∧
        (∀ u, u ≠ t → e.tab u = d.tab u) ∧ (e.tab t).changed = (d.tab t).changed ∧ e.regs = d.regs ∧ e.hostMem = d.hostMem ∧
        e.str = d.str ∧ e.top = d.top))) ∧
    ((∀ (s : State) (x : Fin 256) (seen : Int), let d := s.dev
      let meas := (d.rx x.val).meas
      let fn := StrE.fn (d.rxE x.val)
      (d.isStandby = true → Makes (.streamRateCheck x seen) s d ∧ Makes (.streamRateRecover x) s d) ∧
      (d.isStandby = false → d.works strBase = true → StrE.en (d.rxE x.val) = true →
        (rxLocked d x.val (d.rxE x.val) = true → 1024 ≤ meas.count →
          let n := meas.span.1
          let ns := meas.span.2
          let w := d.setRx x.val { d.rx x.val with meas := { meas with count := 0, rtp0 := meas.rtp, ts0 := meas.ts } }
          let e := w.setFld (R.STR_RX_STAT_DEV x.val) (tc 16 (satS 16 ((meas.dev fn 1000000).getD seen)))
          let out := if (meas.dev fn 1000000).isSome = true then fn * ns < 1000 * (((n * 10 ^ 9 : Nat) : Int) - (fn * ns : Nat)).natAbs
            else 1000 < seen.natAbs
          (out → Makes (.streamRateCheck x seen) s ((e.setFld (R.STR_RX_STAT_RATE_OUT x.val) 1).raise F.strRateChg)) ∧
          (¬ out → Makes (.streamRateCheck x seen) s e)) ∧
        (rxLocked d x.val (d.rxE x.val) = false ∨ meas.count < 1024 → Makes (.streamRateCheck x seen) s d) ∧
        (d.flag (R.STR_RX_STAT_RATE_OUT x.val) = true →
          Makes (.streamRateRecover x) s (d.setRx x.val { d.rx x.val with recover := true })))) ∧
    (∀ (s : State) (x : Fin 256) (m : Fin 2), let d := s.dev
      let own := if m.val = 0 then R.STR_RX_STAT_PATH_A x.val else R.STR_RX_STAT_PATH_B x.val
      let other := if m.val = 0 then R.STR_RX_STAT_PATH_B x.val else R.STR_RX_STAT_PATH_A x.val
      d.works strBase = true →
        (d.fld (R.STR_RX_STAT_STATE x.val) = 2 →
          Makes (.streamInactive x) s ((d.setFld (R.STR_RX_STAT_STATE x.val) 3).raise F.streamInactive)) ∧
        (d.flag own = true →
          (StrE.en (d.rxE x.val) = true ∧ StrE.netA (d.rxE x.val) = true ∧ StrE.netB (d.rxE x.val) = true ∧ d.flag other = true →
            Makes (.pathLost x m) s ((d.setFld own 0).raise F.pathLost)) ∧
          (StrE.en (d.rxE x.val) = false ∨ StrE.netA (d.rxE x.val) = false ∨ StrE.netB (d.rxE x.val) = false ∨ d.flag other = false →
            Makes (.pathLost x m) s (d.setFld own 0)))) ∧
    (∀ (s : State) (x : Fin 256) (t : Nat) (e : List Nat), let d := s.dev
      d.works strBase = true → (d.tx x.val).cfgs = [(t, e)] → e ≠ [] → StrE.aux e = false → 0 < StrE.pkt e →
      ((d.tx x.val).q + 1) * StrE.pkt e ≤ d.gridAt (StrE.fn e) (d.top.tick - 1) →
      ∃ g : Dev, Makes (.txPacketQueue x) s g.txKicks ∧ (g.tx x.val).q = (d.tx x.val).q + 1 ∧
        g.flag (R.STR_TX_STAT_ACTIVE x.val) = true ∧ g.fld (R.STR_TX_STAT_SEQ x.val) = (StrE.seqRef e + (d.tx x.val).q) % 2 ^ 16 ∧
        (∀ m, m < 2 → let l := rtpPacket e (d.tx x.val).line (d.tx x.val).q m
          (StrE.net e m = true ∧ d.sendsStreams = true ∧ l.length + 4 ≤ d.fld (R.ETH_MAXFRM_MAXFRM m) ∧ d.flag (R.ETH_LINK_LINK_UP m) = true →
            (g.mac m).stx = (d.mac m).stx ++ [⟨x.val, l⟩]) ∧
          (¬ (StrE.net e m = true ∧ d.sendsStreams = true ∧ l.length + 4 ≤ d.fld (R.ETH_MAXFRM_MAXFRM m) ∧ d.flag (R.ETH_LINK_LINK_UP m) = true) →
            g.mac m = d.mac m)) ∧ g.tabs = d.tabs ∧ g.hostMem = d.hostMem) ∧
    (∀ (s : State) (m : Fin 2) (x : Fin 256) (p : StxPkt) (l r : List StxPkt), let d := s.dev
      (d.mac m.val).stx = l ++ p :: r → p.stream = x.val → (∀ q ∈ l, q.stream ≠ x.val) →
      Makes (.txLate m x) s ((((d.setMac m.val { d.mac m.val with stx := l ++ r }).count (R.STR_TX_LATE_COUNT x.val)).raise F.txLate).note .strLate)))

/-- A frame at a working MAC of an awake device, not in loopback: with RS-FEC on, the corrected and uncorrectable codewords it
brings count. The first check that fails (code error or an uncorrectable codeword within it, under 64 bytes, above MAXFRM, FCS)
adds one to its counter and to no other, and the FIFO, the hold, registers, tables, memories, streams and device state are
unchanged. A frame that passes is accepted with a stamp, then the transmitter is served; one that is no control frame and is
tagged HOST, with room, is last in the FIFO, and one without a tag counts as filtered. At a MAC that does not work, on a device
that is not awake, or in loopback, nothing changes. (R287, R288, R290, R292, R302) -/
def Obligations.ReceivedFramesAreCheckedThenSorted : Prop :=
  ∀ (s : State) (m : Fin 2) (f : RxFrame), let d := s.dev
    let C (e : Dev) (k : Nat) : Nat := smGet (fun _ => 0) (e.mac m.val).cnt k
    let n := f.bytes.length
    let body := f.bytes.take (n - 4)
    let fecBad : Bool := d.fecOn m.val && f.touched
    let drop : Option Nat := if (f.codeErr || fecBad) = true then some Cnt.rxCodeErr else if n ≤ 63 then some Cnt.rxRunt
      else if d.fld (R.ETH_MAXFRM_MAXFRM m.val) < n then some Cnt.rxOversize
      else if leBytes 4 (fcsOf body) ≠ f.bytes.drop (n - 4) then some Cnt.rxFcsErr else none
    (d.macOn m.val = false ∨ d.flag (R.ETH_MODE_LOOP m.val) = true → Makes (.ethRxFrame m f) s d) ∧
    (d.macOn m.val = true → d.flag (R.ETH_MODE_LOOP m.val) = false →
      (∀ k, drop = some k → ∃ e : Dev, Makes (.ethRxFrame m f) s e ∧ C e k = min (C d k + 1) (2 ^ 64 - 1) ∧
        (∀ j, j ≠ k → j ≠ Cnt.fecCorr → j ≠ Cnt.fecUncorr → C e j = C d j) ∧
        (d.fecOn m.val = true → C e Cnt.fecCorr = min (C d Cnt.fecCorr + f.corr) (2 ^ 64 - 1) ∧
          C e Cnt.fecUncorr = min (C d Cnt.fecUncorr + f.uncorr) (2 ^ 64 - 1)) ∧
        (e.mac m.val).fifo = (d.mac m.val).fifo ∧ (e.mac m.val).hold = (d.mac m.val).hold ∧ e.regs = d.regs ∧ e.tabs = d.tabs ∧ e.top = d.top ∧
        e.hostMem = d.hostMem ∧ e.dram = d.dram ∧ e.str = d.str) ∧
      (drop = none → ∃ (e : Dev) (ts : Nat), Makes (.ethRxFrame m f) s ((e.rxAccept m.val body ts).txKick m.val) ∧ e.regs = d.regs ∧
        e.tabs = d.tabs ∧ e.top = d.top ∧ e.hostMem = d.hostMem ∧ (e.mac m.val).fifo = (d.mac m.val).fifo ∧
        (∀ j, j ≠ Cnt.fecCorr → j ≠ Cnt.fecUncorr → C e j = C d j) ∧
        (ofBe (slice body 12 2) ≠ 0x8808 → (ethTag d m.val (body.take 6)).1 = 1 → (d.mac m.val).bytesIn + body.length + 4 ≤ 262144 →
          ((e.rxAccept m.val body ts).mac m.val).fifo = (d.mac m.val).fifo ++
            [⟨body, ts, d.fld (R.ETH_TS_CTL_TB m.val), (ethTag d m.val (body.take 6)).2⟩]) ∧
        (ofBe (slice body 12 2) ≠ 0x8808 → (ethTag d m.val (body.take 6)).1 = 0 →
          C (e.rxAccept m.val body ts) Cnt.rxFiltered = min (C d Cnt.rxFiltered + 1) (2 ^ 64 - 1) ∧
          ((e.rxAccept m.val body ts).mac m.val).fifo = (d.mac m.val).fifo)))

/-- A write of ETH_MODE is refused with CFG_REFUSED while the MAC is effectively enabled, and stored otherwise. ETH_MAC_HI puts
its entry in force with the LO word as it stands. Clearing GEN with XOFF active queues an XON. LINK_CHG shows the indications,
no block lock on a lane found inverted since RX_INV last changed (R512), and LINK_UP as R283 decides it, and counts a link that
falls. A counter's LO read answers its low half, keeps the high half in HI and clears it. A hold that ends at a working MAC
counts the quanta of it not yet counted and holds no more. XOFF_REFRESH queues one more XOFF where generation, XOFF and the low
watermark ask for it. NRX_COPY with a frame waiting and a usable first buffer that holds it all writes the frame there and its
entry with SOP and EOP, counts it and removes it from the FIFO; with no ring, no frame or a device not awake it changes nothing.
NTX_FRAME on a working idle transmitter with nothing else queued and an entry posted: an entry under 14 bytes, above MAXFRM,
whose buffer cannot be read (DMA_ERR too), or that meets a link that is down is not sent, and its status says which (1 to 4, in
that order); else the frame goes out and its entry says 0. TX_FRAME_BOUNDARY ends the frame, starts a hold that waited, gives
the frame to the receive path in loopback, and serves the transmitter, then the ring. (R281, R283, R289, R300, R301, R302, R306,
R295, R296, R297, R298, R299) -/
def Obligations.MacRegistersLinkAndHostFrames : Prop :=
  ((∀ (s : State) (m : Fin 2) (v : Word), let d := s.dev
      (d.opens (ethBase m.val) = false → Makes (.ethModeWrite m v) s d ∧ Makes (.ethPauseCtlWrite m v) s d) ∧
      (d.opens (ethBase m.val) = true →
        (d.effEn (ethBase m.val) = true → Makes (.ethModeWrite m v) s (d.raise (F.ethCfgRefused m.val))) ∧
        (d.effEn (ethBase m.val) = false → ∃ e : Dev, Makes (.ethModeWrite m v) s e ∧
          e.fld (R.ETH_MODE_SPEED m.val) = bits v.toNat 0 1 ∧ e.fld (R.ETH_MODE_FEC m.val) = bits v.toNat 2 1 ∧
          e.fld (R.ETH_MODE_TX_INV m.val) = bits v.toNat 3 1 ∧ e.fld (R.ETH_MODE_RX_INV m.val) = bits v.toNat 4 1 ∧
          e.fld (R.ETH_MODE_LOOP m.val) = bits v.toNat 8 1 ∧ (∀ r, r ≠ (R.ETH_MODE_LOOP m.val).addr → e.reg r = d.reg r) ∧ e.eth = d.eth ∧ e.hdr = d.hdr) ∧
        ∃ e : Dev, Makes (.ethPauseCtlWrite m v) s (e.txKick m.val) ∧ e.fld (R.ETH_PAUSE_CTL_GEN m.val) = bits v.toNat 0 1 ∧
          e.fld (R.ETH_PAUSE_CTL_OBEY m.val) = bits v.toNat 1 1 ∧
          (e.mac m.val).pq = (d.mac m.val).pq ++ (if d.flag (R.ETH_PAUSE_CTL_GEN m.val) = true ∧ bitAt v.toNat 0 = false ∧
            d.flag (R.ETH_PAUSE_STAT_XOFF_ACTIVE m.val) = true then [0] else []))) ∧
    (∀ (s : State) (m : Fin 2) (i : Fin 32) (v : Word), let d := s.dev
      let lo := d.fld (if m.val = 0 then R.ETHA_MAC_LO_ADDR_LO i.val else R.ETHB_MAC_LO_ADDR_LO i.val)
      (d.opens (ethBase m.val) = false → Makes (.ethMacHiWrite m i v) s d) ∧
      (d.opens (ethBase m.val) = true → ∃ e : Dev, Makes (.ethMacHiWrite m i v) s e ∧
        smGet (fun _ => (0, 0)) (e.mac m.val).filt i.val = (lo, v.toNat % 2 ^ 18) ∧
        (∀ j, j ≠ i.val → smGet (fun _ => (0, 0)) (e.mac m.val).filt j = smGet (fun _ => (0, 0)) (d.mac m.val).filt j) ∧
        (e.mac m.val).fifo = (d.mac m.val).fifo ∧ (e.mac m.val).cnt = (d.mac m.val).cnt ∧ e.hdr = d.hdr)) ∧
    (∀ (s : State) (m : Fin 2) (v : BitVec 5), let d := s.dev
      let held := decide ((d.mac m.val).rev = some (d.flag (R.ETH_MODE_RX_INV m.val)))
      let w := if held = true then setBits v.toNat 0 1 0 else v.toNat
      let up := bitAt w 0 && !bitAt v.toNat 1 && (bitAt v.toNat 2 || !d.fecOn m.val) && !bitAt v.toNat 3 && !bitAt v.toNat 4
      (d.macOn m.val = false → Makes (.linkChg m v) s d) ∧
      (d.macOn m.val = true → ∃ e : Dev, Makes (.linkChg m v) s (e.txKick m.val) ∧ e.flag (R.ETH_LINK_LINK_UP m.val) = up ∧
        (∀ n, n < 5 → e.fld ⟨(R.ETH_LINK_LINK_UP m.val).addr, n + 1, 1⟩ = bits w n 1) ∧
        smGet (fun _ => 0) (e.mac m.val).cnt Cnt.linkDown = (if d.flag (R.ETH_LINK_LINK_UP m.val) = true ∧ up = false
          then min (smGet (fun _ => 0) (d.mac m.val).cnt Cnt.linkDown + 1) (2 ^ 64 - 1) else smGet (fun _ => 0) (d.mac m.val).cnt Cnt.linkDown))) ∧
    (∀ (s : State) (m : Fin 2) (k : Fin 25), let d := s.dev
      let n := smGet (fun _ => 0) (d.mac m.val).cnt k.val
      d.opens (ethBase m.val) = true → ∃ e : Dev, Makes (.ethCounterRead m k) s e ∧ e.bus = ⟨BitVec.ofNat 64 (n % 2 ^ 32), false⟩ ∧
        smGet (fun _ => 0) (e.mac m.val).cnt k.val = 0 ∧
        e.fld (if m.val = 0 then R.ETHA_CNT_HI_HI k.val else R.ETHB_CNT_HI_HI k.val) = n / 2 ^ 32 % 2 ^ 32 ∧
        (∀ j, j ≠ k.val → smGet (fun _ => 0) (e.mac m.val).cnt j = smGet (fun _ => 0) (d.mac m.val).cnt j)) ∧
    (∀ (s : State) (m : Fin 2), let d := s.dev
      let due : Prop := d.macOn m.val = true ∧ d.flag (R.ETH_PAUSE_CTL_GEN m.val) = true ∧
          d.flag (R.ETH_PAUSE_STAT_XOFF_ACTIVE m.val) = true ∧ 256 * d.lowMark m.val < 100 * (d.mac m.val).fill
      (d.macOn m.val = false → Makes (.pauseHoldExpire m) s d) ∧
      (∀ q, d.macOn m.val = true → (d.mac m.val).hold = some q → ∃ e : Dev, Makes (.pauseHoldExpire m) s (e.txKick m.val) ∧ (e.mac m.val).hold = none ∧
        (e.mac m.val).held = 0 ∧ smGet (fun _ => 0) (e.mac m.val).cnt Cnt.rxPausedQuanta =
          min (smGet (fun _ => 0) (d.mac m.val).cnt Cnt.rxPausedQuanta + ((d.mac m.val).part +
            (q * d.quantum m.val - min (q * d.quantum m.val) (25 * (d.mac m.val).held))) / d.quantum m.val) (2 ^ 64 - 1)) ∧
      (d.macOn m.val = true → (d.mac m.val).hold = none → Makes (.pauseHoldExpire m) s (d.txKick m.val)) ∧
      (due → Makes (.xoffRefresh m) s
        ((d.setMac m.val { d.mac m.val with pq := (d.mac m.val).pq ++ [d.fld (R.ETH_PAUSE_QUANTA m.val)] }).txKick m.val)) ∧
      (¬ due → Makes (.xoffRefresh m) s (d.txKick m.val)))) ∧
    ((∀ (s : State) (m : Fin 2) (r : Nat) (f : EthFrame) (rest : List EthFrame), let d := s.dev
      let at_ := d.ringAddr r (d.fld (R.RING_DEV_IDX_DEV_IDX r))
      let e := memRead d.hostMem at_ 12
      let n := ofLe (slice e 8 4)
      d.ringFor 4 m.val = some r → (d.mac m.val).fifo = f :: rest → d.awake = true → d.ringLive r = true → 0 < d.ringPosted r → 0 < d.ringSize r →
      d.works (ethBase m.val) = true → n % 64 = 0 → 256 ≤ n → n ≤ 65536 → f.bytes ≠ [] → f.bytes.length ≤ n →
      Makes (.nrxCopy m) s (((((d.hostWrite (ofLe (slice e 0 8)) f.bytes).nrxBack r f ⟨ofLe (slice e 0 8), some f.bytes⟩ true true false).cnt
        m.val Cnt.rxToHost 1).setFifo m.val rest).txKick m.val)) ∧
    (∀ (s : State) (m : Fin 2), (s.dev.ringFor 4 m.val = none ∨ (s.dev.mac m.val).fifo = [] ∨ s.dev.awake = false) →
      Makes (.nrxCopy m) s s.dev) ∧
    (∀ (s : State) (m : Fin 2) (lead r : Nat) (readErr : Bool), let d := s.dev
      let e := memRead d.hostMem (d.ringAddr r (d.fld (R.RING_DEV_IDX_DEV_IDX r))) 32
      let n := ofLe (slice e 8 2)
      d.works (ethBase m.val) = true → d.awake = true → (d.mac m.val).busy = false → (d.mac m.val).hold = none → (d.mac m.val).pq = [] →
      (d.mac m.val).stx = [] → d.ringFor 5 m.val = some r → d.ringLive r = true → 0 < d.ringPosted r →
      let refused : Option Nat := if n < 14 then some 1 else if d.fld (R.ETH_MAXFRM_MAXFRM m.val) < n + 4 then some 2
        else if readErr = true then some 3 else if d.flag (R.ETH_LINK_LINK_UP m.val) = false then some 4 else none
      (∀ st, refused = some st → Makes (.ntxFrame m lead readErr) s
        ((((if st = 3 then d.raise F.dmaErr else d).cnt m.val Cnt.txDrop 1).raise (F.txDrop m.val)).ringBack r 32 ([st, 0, 0, 0] ++ leBytes 4 0 ++ List.replicate 23 0))) ∧
      (refused = none → ∃ (ts : Nat) (g : Dev), g.hostMem = d.hostMem ∧ g.regs = d.regs ∧ g.eth = d.eth ∧
        let sent := (g.cnt m.val Cnt.txHost 1).ethSend m.val (oneStep e (memRead d.hostMem (ofLe (slice e 0 8)) n) ts) ts
        Makes (.ntxFrame m lead readErr) s (sent.ntxBack m.val r 0 (if e.getD 10 0 % 4 ≠ 0 then ts else 0)) ∧ (sent.mac m.val).busy = true)) ∧
    (∀ (s : State) (m : Fin 2) (lead : Nat) (readErr : Bool), let x := s.dev.mac m.val
      let d := s.dev.setMac m.val { x with busy := false }
      let loops : Prop := x.busy = true ∧ s.dev.flag (R.ETH_MODE_LOOP m.val) = true
      ∃ h : Dev, (h.mac m.val).busy = false ∧ (x.holdNext = none → h = d) ∧
        (∀ q, x.holdNext = some q → (h.mac m.val).hold = some q ∧ (h.mac m.val).held = 0 ∧ (h.mac m.val).holdNext = none ∧ h.regs = d.regs) ∧
        (¬ loops → Makes (.txFrameBoundary m lead readErr) s ((h.txKick m.val).ntxTake m.val lead readErr)) ∧
        (loops → Makes (.txFrameBoundary m lead readErr) s
          (((h.ethTake m.val ⟨x.last, false, false, 0, 0, h.byteTime m.val x.last.length⟩).txKick m.val).ntxTake m.val lead readErr))))

/-- A TIME_STEER that applies on a base above 3 is BAD_TABLE 2; RATE under a servo source, or OFFSET under one that is not SW,
is BAD_TABLE 7. SET leaves the base at VALUE plus what it has counted since the boundary and answers VALUE; STEP adds VALUE ns
modulo 2^96 and answers the base so moved, as it stood at the boundary; an active servo then acquires with its integrator kept,
and the rate stays. RATE limits the word to ±500,000,000 ppt, writes no other register, and answers the base's value less what
it has counted since the boundary; OFFSET gives the servo one sample and answers the base then, likewise taken back. An OP above
3 on a base up to 3 is BAD_TABLE 3 (R335). SET, STEP and RATE leave every other base unchanged. (R333, R334, R335, R336) -/
def Obligations.TimeSteerMovesBasesAsR334Says : Prop :=
  (∀ (s : State) (c0 : Cmd) (k : Nat) (i : Instr),
    (i, k) ∈ [(Instr.timeSteerSet c0, 0), (Instr.timeSteerStep c0, 1), (Instr.timeSteerRate c0, 2), (Instr.timeSteerOffset c0, 3)] →
    let c := c0.withBits 17 8 k
    s.dev.applies .timeSteer c →
    let d := s.dev.unqueue c
    let b := Steer.tb c
    let lt := lateOk (d.isLate c)
    let since := d.sinceBoundary b
    let answer (e : Dev) : Nat := ((e.base b).val + 2 ^ 96 - since % 2 ^ 96) % 2 ^ 96 / 2 ^ 32
    let moved (e : Dev) : Prop := (∀ x, x ≠ b → e.base x = d.base x) ∧ e.top = d.top ∧ e.tabs = d.tabs ∧ e.hostMem = d.hostMem ∧
      (d.servoSrc b = 0 → e.base b = { d.base b with val := (e.base b).val, sec := (e.base b).sec, moved := (e.base b).moved } ∧ e.regs = d.regs) ∧
      (d.servoSrc b ≠ 0 → (e.base b).state = 1 ∧ (e.base b).integ = (d.base b).integ ∧ (e.base b).good = 0 ∧ (e.base b).outl = 0) ∧
      e.tbRate b = d.tbRate b
    (3 < b → Makes i s (d.ends c (.bad 2))) ∧
    (b ≤ 3 →
      (k = 0 → ∃ e : Dev, Makes i s (e.ends c ⟨lt, 0, c.u64 24⟩) ∧ moved e ∧ (e.base b).val = (c.u64 24 * 2 ^ 32 + since) % 2 ^ 96) ∧
      (k = 1 → ∃ (e : Dev) (r : Nat), Makes i s (e.ends c ⟨lt, 0, r⟩) ∧ moved e ∧
        ((e.base b).val : Int) = (((d.base b).val : Int) + sx 32 (c.u32 24) * 2 ^ 64) % 2 ^ 96 ∧
        (r : Int) = (((d.base b).val : Int) + sx 32 (c.u32 24) * 2 ^ 64 - since) % 2 ^ 96 / 2 ^ 32) ∧
      (k = 2 → d.servoSrc b ≠ 0 → Makes i s (d.ends c (.bad 7))) ∧
      (k = 2 → d.servoSrc b = 0 → ∃ e : Dev, Makes i s (e.ends c ⟨lt, 0, answer d⟩) ∧ e.tbu = d.tbu ∧
        e.tbRate b = clampI (-500000000) 500000000 (sx 32 (c.u32 24)) ∧ (∀ a, a ≠ (R.TB_RATE_RATE b).addr → e.reg a = d.reg a)) ∧
      (k = 3 → d.servoSrc b ≠ 1 → Makes i s (d.ends c (.bad 7))) ∧
      (k = 3 → d.servoSrc b = 1 → let e := d.servoSample b (b64.round (sx 64 (c.u64 24)) (-16)) (d.base b).interval
        Makes i s (e.ends c ⟨lt, 0, answer e⟩)))) ∧
    (∀ (d : Dev) (c : Cmd), d.cmdDue .timeSteer c = true → (d.unqueue c).refused .timeSteer c = none → Steer.tb c ≤ 3 → 3 < Steer.op c →
      d.applyEntry ⟨.timeSteer, c⟩ = (d.unqueue c).complete c (.bad 3))

/-- A sample of a servo on TB takes the difference of the two bases: LOCKED, an outlier (up to four in a row) counts and changes
neither base value nor rate; in ACQUIRE, an offset above STEP_THR µs moves the base by it, rounded, and counts a step; else, no
outlier, the loop acts. A PPS edge of the selected polarity on the one base that follows PPS gives the pairing a value within 1
ns of the base, and for a rise time above 5 ns within 10 % of it more (R543); an expected edge more than 0.5 s overdue moves the
expectation on and sets holdover and PPS_MISSING. An edge at an enabled channel not blocked by its last edge captures its base
as closely, corrected by CAP_LAT, and counts; CAP_TRIG captures, to 0.25 ns, on every channel that selects it. A read of TB_NS
answers the ns and latches the fraction of the same instant in TB_FRAC; a read of CAP_NS answers the captured ns and latches its
fraction and count; SNAP latches the four bases and the tick position. A TB_RATE write is refused with CFG_REFUSED while the
servo has a source, else limited to ±500,000,000 ppt. A TB_SERVO write limits BW to 10 to 1,000 and stores the source: without a
change of source the bases are as before; to OFF the servo is OFF; to SW it acquires, with the integrator at the rate if it
leaves OFF and kept otherwise. REF follows. (R337, R338, R339, R341, R343, R344, R348, R332, R347, R543) -/
def Obligations.TimeBasesServosAndCaptures : Prop :=
  ((∀ (s : State) (b : Fin 4), let d := s.dev
      let diff := diffNs ((d.base b.val).val / 2 ^ 32) ((d.base (d.fld (R.TB_SERVO_SRC_TB b.val))).val / 2 ^ 32)
      let θ := b64.round diff.m diff.e
      let out : Bool := (d.base b.val).state == 2 && d.fld (R.TB_OUTLIER_THR b.val) != 0 && (⟨d.fld (R.TB_OUTLIER_THR b.val), 0⟩ : Fl).lt θ.abs
      let far : Bool := d.fld (R.TB_STEP_THR_THR b.val) != 0 && (⟨1000 * d.fld (R.TB_STEP_THR_THR b.val), 0⟩ : Fl).lt θ.abs
      (d.servoSrc b.val ≠ 3 → Makes (.servoTbSample b) s d.refFollow) ∧
      (d.servoSrc b.val = 3 → d.works tbuBase = true → d.isStandby = false →
        (out = true → (d.base b.val).outl < 4 → ∃ e : Dev, Makes (.servoTbSample b) s (e.raise F.tbOutlier).refFollow ∧
          e.base b.val = { d.base b.val with outl := (d.base b.val).outl + 1, good := 0 } ∧ e.tbRate b.val = d.tbRate b.val ∧
          e.fld (R.TB_OUTLIERS_COUNT b.val) = min (d.fld (R.TB_OUTLIERS_COUNT b.val) + 1) (2 ^ (R.TB_OUTLIERS_COUNT b.val).w - 1)) ∧
        ((d.base b.val).state = 1 → far = true → ∃ e : Dev, Makes (.servoTbSample b) s (e.raise F.tbStepped).refFollow ∧
          ((e.base b.val).val : Int) = (((d.base b.val).val : Int) - θ.awayMul 0 * 2 ^ 64) % 2 ^ 96 ∧ e.tbRate b.val = d.tbRate b.val ∧
          (e.base b.val).state = 1 ∧ (e.base b.val).integ = (d.base b.val).integ ∧
          e.fld (R.TB_STEPS_COUNT b.val) = min (d.fld (R.TB_STEPS_COUNT b.val) + 1) (2 ^ (R.TB_STEPS_COUNT b.val).w - 1)) ∧
        (out = false → (d.base b.val).state ≠ 1 ∨ far = false → Makes (.servoTbSample b) s
          ((d.showOffset b.val θ).servoLoop b.val θ (b64.div ⟨1, 0⟩ ⟨1000, 0⟩)).refFollow))) ∧
    (∀ (s : State) (x : PinEdge), let d := s.dev
      (d.works tbuBase = false ∨ d.isStandby = true ∨ x.rising ≠ ppsRising d → Makes (.ppsEdge x) s d.refFollow) ∧
      (∀ b : Fin 4, d.works tbuBase = true → d.isStandby = false → x.rising = ppsRising d → (∀ y, y < 4 → (d.servoSrc y = 2 ↔ y = b.val)) →
        ∃ (c : Nat), Makes (.ppsEdge x) s ((d.drew 1).ppsPair b.val c).refFollow ∧
          ∃ err : Int, (((((d.base b.val).val / 2 ^ 62 : Nat) : Int) + err) * 2 ^ 62 - ((d.base b.val).val : Int)).natAbs ≤ (4 + slowEdge x.rise) * 2 ^ 62 ∧ (c : Int) = ((((d.base b.val).val / 2 ^ 62 : Nat) : Int) + err) * 2 ^ 30 % 2 ^ 64) ∧
      ∀ b : Fin 4, let next := d.fld (R.TB_PPS_NEXT_NEXT b.val)
        let beyond : Prop := 500000000 * 2 ^ 32 < sx 64 (((d.base b.val).val / 2 ^ 32 + 2 ^ 64 - next * 2 ^ 32) % 2 ^ 64)
        d.works tbuBase = true → d.isStandby = false → d.servoSrc b.val = 2 →
          (beyond → Makes (.ppsMissing b) s (((d.setFld (R.TB_PPS_NEXT_NEXT b.val) ((next + 10 ^ 9) % 2 ^ 32)).setBase b.val
            { d.base b.val with holdover := true }).raise F.ppsMissing)) ∧
          (¬ beyond → Makes (.ppsMissing b) s d)) ∧
    (∀ (s : State) (k src : Fin 8) (pe : PinEdge), let d := s.dev
      let cap (e : Dev) (x : Nat) : Capt := smGet (fun _ => Capt.zero) e.tbu.caps x
      let q (x : Nat) : Int := ((d.base (d.fld (R.CAP_CTL_TB x))).val / 2 ^ 62 : Nat)
      let lat := sx 16 (d.fld (R.CAP_LAT_LAT k.val))
      (d.works tbuBase = true → d.flag (R.CAP_CTL_EN k.val) = true → d.fld (R.CAP_CTL_SRC k.val) = src.val → src.val ≠ 0 → src.val < 6 →
        pe.rising = (d.fld (R.CAP_CTL_EDGE k.val) == 0) → d.capFree k.val = true → ∃ (e : Dev) (err : Int), Makes (.capEdge k src pe) s e ∧
          ((q k.val + err) * 2 ^ 62 - ((d.base (d.fld (R.CAP_CTL_TB k.val))).val : Int)).natAbs ≤ (4 + slowEdge pe.rise) * 2 ^ 62 ∧
          ((cap e k.val).val : Int) = ((q k.val + err) * 2 ^ 30 % 2 ^ 64 + (if src.val = 4 ∨ src.val = 5 then lat else -lat) * 2 ^ 32) % 2 ^ 64 ∧
          (cap e k.val).count = ((cap d k.val).count + 1) % 2 ^ (R.CAP_CNT_COUNT k.val).w ∧ (∀ x, x ≠ k.val → cap e x = cap d x) ∧ e.regs = d.regs) ∧
      (d.flag (R.CAP_CTL_EN k.val) = false ∨ d.fld (R.CAP_CTL_SRC k.val) ≠ src.val ∨ pe.rising ≠ (d.fld (R.CAP_CTL_EDGE k.val) == 0) ∨ d.capFree k.val = false → Makes (.capEdge k src pe) s d) ∧
      (d.works tbuBase = true → ∃ e : Dev, Makes .capTrig s e ∧ e.regs = d.regs ∧ ∀ x, x < 8 →
        (if d.flag (R.CAP_CTL_EN x) = true ∧ d.fld (R.CAP_CTL_SRC x) = 6 then
          ((cap e x).val : Int) = q x * 2 ^ 30 % 2 ^ 64 ∧ (cap e x).count = ((cap d x).count + 1) % 2 ^ (R.CAP_CNT_COUNT x).w
        else cap e x = cap d x)) ∧
      (d.works tbuBase = false → Makes .capTrig s d))) ∧
    ((∀ (s : State) (b : Fin 4), ∃ e : Dev, Makes (.tbNsRead b) s e ∧ e.bus = ⟨BitVec.ofNat 64 (s.dev.tbNs b.val % 2 ^ 32), false⟩ ∧
      e.fld (R.TB_FRAC_FRAC b.val) = s.dev.tbFrac b.val ∧ e.tbu = s.dev.tbu ∧ e.hdr = s.dev.hdr ∧
      (∀ r, r ≠ (R.TB_FRAC_FRAC b.val).addr → e.reg r = s.dev.reg r)) ∧
    (∀ (s : State) (k : Fin 8), let x : Capt := smGet (fun _ => Capt.zero) s.dev.tbu.caps k.val
      ∃ e : Dev, Makes (.capNsRead k) s e ∧ e.bus = ⟨BitVec.ofNat 64 (x.val / 2 ^ 32 % 2 ^ 32), false⟩ ∧
        e.fld (R.CAP_FRAC_FRAC k.val) = x.val % 2 ^ 32 ∧ e.fld (R.CAP_CNT_COUNT k.val) = x.count % 2 ^ (R.CAP_CNT_COUNT k.val).w ∧
        e.tbu = s.dev.tbu ∧ e.hdr = s.dev.hdr) ∧
    (∀ s : State, let d := s.dev
      (d.works tbuBase = false → Makes .snap s d) ∧
      (d.works tbuBase = true → ∃ e : Dev, Makes .snap s e ∧ (∀ b, b < 4 → e.fld (R.TB_SNAP_NS_NS b) = d.tbNs b % 2 ^ 32 ∧
          e.fld (R.TB_SNAP_FRAC_FRAC b) = d.tbFrac b) ∧
        e.fld R.TB_SNAP_TICK_LO_TICK_LO = d.top.tick % 2 ^ 32 ∧ e.fld R.TB_SNAP_TICK_HI_TICK_HI = d.top.tick / 2 ^ 32 % 2 ^ R.TB_SNAP_TICK_HI_TICK_HI.w ∧
        e.fld R.TB_SNAP_PHASE_PHASE = d.phase ∧ e.tbu = d.tbu ∧ e.hdr = d.hdr)) ∧
    (∀ (s : State) (b : Fin 4) (v : Word), let d := s.dev
      (d.servoSrc b.val ≠ 0 → Makes (.tbRateWrite b v) s (d.raise F.tbCfgRefused).refFollow) ∧
      (d.servoSrc b.val = 0 → ∃ e : Dev, Makes (.tbRateWrite b v) s e.refFollow ∧ e.tbRate b.val = clampI (-500000000) 500000000 v.toInt ∧
        (∀ r, r ≠ (R.TB_RATE_RATE b.val).addr → e.reg r = d.reg r) ∧ e.tbu = d.tbu ∧ e.hdr = d.hdr) ∧
      ∃ e : Dev, Makes (.tbServoWrite b v) s e.refFollow ∧ e.fld (R.TB_SERVO_BW b.val) = clampN 10 1000 (bits v.toNat 16 10) ∧
        e.fld (R.TB_SERVO_SRC_TB b.val) = bits v.toNat 4 2 ∧ e.fld (R.TB_SERVO_SRC b.val) = bits v.toNat 0 3 ∧
        (∀ x, x ≠ b.val → e.base x = d.base x) ∧ (e.base b.val).val = (d.base b.val).val ∧ e.tbRate b.val = d.tbRate b.val ∧
        (bits v.toNat 0 3 = d.fld (R.TB_SERVO_SRC b.val) → bits v.toNat 4 2 = d.fld (R.TB_SERVO_SRC_TB b.val) → e.tbu = d.tbu ∧ e.hdr = d.hdr) ∧
        (bits v.toNat 0 3 = 0 → d.fld (R.TB_SERVO_SRC b.val) ≠ 0 → (e.base b.val).state = 0) ∧
        (bits v.toNat 0 3 = 1 → d.fld (R.TB_SERVO_SRC b.val) ≠ 1 → (e.base b.val).state = 1 ∧
          (e.base b.val).integ = if d.servoSrc b.val = 0 then b64.div ⟨-(d.tbRate b.val), 0⟩ ⟨1000, 0⟩ else (d.base b.val).integ)))

/-- A reference (0 to 13; TETHER without a measurement against HARD) that is judged: not enabled is DISABLED; without activity
it is INVALID; one not yet QUALIFIED beyond HARD is INVALID; enabled, active, within HARD and with a lawful NOM it validates; a
QUALIFIED one beyond HARD stays so; the others keep their state. While REF works: a measurement of an active reference stores
FOFS saturated; edges stop and return in ACTIVE; QUAL makes a VALIDATING reference QUALIFIED, DISQUAL a QUALIFIED one beyond
HARD INVALID, each with its event. A write of REF_IN_CFG stores its fields and returns an enabled reference to INVALID where
NOM, EDGE or DIFF change (the command table's words of R352); REQUALIFY returns one that is not DISABLED to INVALID. REF then
follows. (R351, R352, R353, R354, R355, R356, R373) -/
def Obligations.ReferencesQualifyAsR355Says : Prop :=
  (∀ (d : Dev) (i : Nat), i < 14 → let e := d.refEval i
      let hard := if i = 13 then d.flag (R.REF_IN_STAT_HARD 13) else
        decide (1000 * d.fld R.REF_HARD_HARD < (if 9 ≤ i then d.tbRate (i - 9) else d.fofs i).natAbs)
      e.flag (R.REF_IN_STAT_HARD i) = hard ∧ e.flag (R.REF_IN_STAT_ACTIVE i) = refActive d i ∧
      (d.flag (R.REF_IN_CFG_EN i) = false → e.qstate i = 0) ∧
      (d.flag (R.REF_IN_CFG_EN i) = true →
        (refActive d i = false → e.qstate i = 1) ∧
        (d.qstate i ≤ 2 → hard = true → e.qstate i = 1) ∧
        (d.qstate i ≤ 1 → refActive d i = true → hard = false → refNomOk d i = true → e.qstate i = 2) ∧
        (d.qstate i = 2 → refActive d i = true → hard = false → e.qstate i = 2) ∧
        (d.qstate i = 3 → refActive d i = true → e.qstate i = 3)) ∧
      (∀ j, j ≠ i → e.qstate j = d.qstate j)) ∧
    (∀ (s : State) (r : Fin 14) (fofs : Int), let d := s.dev
      (d.works refBase = true → refActive d r.val = true →
        Makes (.refMeasure r fofs) s (d.setFld (R.REF_IN_FOFS_FOFS r.val) (tc 32 (satS 32 fofs))).refFollow) ∧
      (d.works refBase = false ∨ refActive d r.val = false → Makes (.refMeasure r fofs) s d)) ∧
    (∀ (s : State) (r : Fin 5), let d := s.dev
      (d.works refBase = true → Makes (.refActivityLoss r) s (d.setFld (R.REF_IN_STAT_ACTIVE r.val) 0).refFollow ∧
        Makes (.refActivityReturn r) s (d.setFld (R.REF_IN_STAT_ACTIVE r.val) 1).refFollow) ∧
      (d.works refBase = false → Makes (.refActivityLoss r) s d ∧ Makes (.refActivityReturn r) s d)) ∧
    (∀ (s : State) (r : Fin 14), let d := s.dev
      (d.works refBase = true → d.qstate r.val = 2 →
        Makes (.qual r) s ((d.setFld (R.REF_IN_STAT_QSTATE r.val) 3).raise F.qual).refFollow) ∧
      (d.works refBase = true → d.qstate r.val = 3 → d.flag (R.REF_IN_STAT_HARD r.val) = true →
        Makes (.disqual r) s ((d.setFld (R.REF_IN_STAT_QSTATE r.val) 1).raise F.disqual).refFollow) ∧
      (d.qstate r.val ≠ 2 → Makes (.qual r) s d) ∧ (d.qstate r.val ≠ 3 ∨ d.flag (R.REF_IN_STAT_HARD r.val) = false → Makes (.disqual r) s d)) ∧
    (∀ (s : State) (r : Fin 14) (v : Word), let d := s.dev
      let n := v.toNat
      let kind : Prop := d.fld (R.REF_IN_CFG_NOM r.val) ≠ bits n 0 18 ∨ d.fld (R.REF_IN_CFG_EDGE r.val) ≠ bits n 21 1 ∨
        d.fld (R.REF_IN_CFG_DIFF r.val) ≠ bits n 20 1
      (r.val = 13 → Makes (.refInCfgWrite r v) s d) ∧
      (r.val < 13 → ∃ e : Dev, Makes (.refInCfgWrite r v) s e.refFollow ∧ e.fld (R.REF_IN_CFG_EN r.val) = bits n 31 1 ∧
        e.fld (R.REF_IN_CFG_RANK_A r.val) = bits n 26 4 ∧ e.fld (R.REF_IN_CFG_RANK_B r.val) = bits n 22 4 ∧
        e.fld (R.REF_IN_CFG_EDGE r.val) = bits n 21 1 ∧ e.fld (R.REF_IN_CFG_DIFF r.val) = bits n 20 1 ∧ e.fld (R.REF_IN_CFG_NOM r.val) = bits n 0 18 ∧
        (kind → d.qstate r.val ≠ 0 → e.qstate r.val = 1) ∧ (¬ kind ∨ d.qstate r.val = 0 → e.qstate r.val = d.qstate r.val) ∧
        (∀ j, j ≠ r.val → e.qstate j = d.qstate j) ∧ e.hdr = d.hdr ∧ e.tabs = d.tabs)) ∧
    (∀ (s : State) (c0 : Cmd), let c := c0.withBits 16 8 6
      s.dev.applies .refCmd c → let d := s.dev.unqueue c
      let ok : Cpl := ⟨lateOk (d.isLate c), 0, 0⟩
      (13 < RefC.ref c → Makes (.requalify c0) s (d.ends c (.bad 2))) ∧
      (RefC.ref c < 13 → d.qstate (RefC.ref c) ≠ 0 →
        Makes (.requalify c0) s ((d.setFld (R.REF_IN_STAT_QSTATE (RefC.ref c)) 1).refFollow.ends c ok)) ∧
      (RefC.ref c = 13 ∨ RefC.ref c < 13 ∧ d.qstate (RefC.ref c) = 0 → Makes (.requalify c0) s (d.ends c ok)))

/-- While REF works, LOCK_TIME makes an acquiring DPLL LOCKED, leaving the thresholds a LOCKED one acquiring, each with
LOCK_CHG: the first with a phase error within LOCK_THR, the second with the mean left in AVG and a new phase error within half a
period. DPLL_CTL and DPLL_FB store their fields, FAMILY of DPLL-B only while it is disabled, else with CFG_REFUSED where it
differs. A REF_CMD that applies is BAD_TABLE 2 for a target or reference that does not exist, BAD_TABLE 7 for a disabled DPLL-B
or a phase step without DCO; else SELECT forces the reference, RELEASE ends that, DCO takes the limited word, DCO_OFF ends it
and PHASE_STEP adds to the step, which in DCO mode is 0 when it has run off. A REALIGN that applies on a reference without edges
of its own, or with no or an unknown output, is BAD_TABLE 2; else it waits. At the reference's edge the outputs that wait for it
begin a period with their setting as it stands and are aligned to it: WCK_OUT at any, PPS_OUT at a whole second of a base or any
edge of a pin; a realignment with all outputs placed is over and sets REALIGNED, one with PPS_OUT left waits on, as do those of
other references. At the time-out the one that has waited 2 s completes with BAD_TABLE 9; younger ones wait on. (R359, R361,
R362, R365, R366, R378, R375, R370, R374) -/
def Obligations.DpllsAndRealignments : Prop :=
  ((∀ (s : State) (p : Fin 2), let d := s.dev
      let lim : Int := d.fld (R.DPLL_LOCK_THR p.val) * (25 * 10 ^ 16)
      (d.works refBase = true → d.fld (R.DPLL_STAT_STATE p.val) = 2 → Makes (.dpllLockTime p) s
        (((d.setFld (R.DPLL_STAT_STATE p.val) 3).raise F.refLockChg).setDpll p.val
          { d.dpll p.val with locked := true, err := clampI (-lim) lim (d.dpll p.val).err })) ∧
      (d.works refBase = true → d.fld (R.DPLL_STAT_STATE p.val) = 3 → ∃ off : Int,
        let e := match (d.dpll p.val).mean with
          | some m => d.setFld (R.DPLL_AVG_AVG p.val) (tc 32 (satS 32 m))
          | none => d
        let e := if p.val = 0 then e.tripMaskable R.TTH_CTL_UNLOCK_TRIP else e
        let e := (e.setFld (R.DPLL_STAT_STATE p.val) 2).raise F.refLockChg
        let q := refPeriod e (d.fld (R.DPLL_STAT_SEL p.val))
        Makes (.dpllUnlock p) s ((e.setDpll p.val { e.dpll p.val with err := wrapPhase q off }).drew 1).refFollow) ∧
      (∀ (q : Nat) (off : Int), 0 < q → -(q : Int) < 2 * wrapPhase q off ∧ 2 * wrapPhase q off ≤ q ∧ (off - wrapPhase q off) % q = 0) ∧
      (d.fld (R.DPLL_STAT_STATE p.val) ≠ 2 → Makes (.dpllLockTime p) s d) ∧ (d.fld (R.DPLL_STAT_STATE p.val) ≠ 3 → Makes (.dpllUnlock p) s d) ∧
      (d.fld (R.DPLL_STAT_STATE p.val) = 4 → Makes (.phaseStepDone p) s (d.setDpll p.val { d.dpll p.val with step := 0 })) ∧
      (d.fld (R.DPLL_STAT_STATE p.val) ≠ 4 → Makes (.phaseStepDone p) s d)) ∧
    (∀ (s : State) (p : Fin 2) (v : Word), let d := s.dev
      (∃ e : Dev, Makes (.dpllCtlWrite p v) s e.refFollow ∧ e.fld (R.DPLL_CTL_REVERTIVE p.val) = bits v.toNat 30 1 ∧ e.ref = d.ref ∧ e.tabs = d.tabs ∧
        (p.val = 1 → e.fld (R.DPLL_CTL_EN 1) = bits v.toNat 31 1 ∧
          e.fld (R.DPLL_CTL_FAMILY 1) = (if d.flag (R.DPLL_CTL_EN 1) = true then d.fld (R.DPLL_CTL_FAMILY 1) else bits v.toNat 29 1) ∧
          (d.flag (R.DPLL_CTL_EN 1) = false ∨ d.fld (R.DPLL_CTL_FAMILY 1) = bits v.toNat 29 1 → e.hdr = d.hdr) ∧
          (d.flag (R.DPLL_CTL_EN 1) = true → d.fld (R.DPLL_CTL_FAMILY 1) ≠ bits v.toNat 29 1 → e.hdr = (d.raise F.refCfgRefused).hdr))) ∧
      ∃ e : Dev, Makes (.dpllFbWrite p v) s e.refFollow ∧ sx 32 (e.fld (R.DPLL_FB_FB p.val)) = clampI (-500000000) 500000000 v.toInt ∧
        (d.fld (R.DPLL_STAT_STATE p.val) = 1 → (e.dpll p.val).moving = true) ∧
        (∀ r, r ≠ (R.DPLL_FB_FB p.val).addr → e.reg r = d.reg r)) ∧
    (∀ (s : State) (c0 : Cmd) (k : Nat) (i : Instr), (i, k) ∈ [(Instr.select c0, 0), (Instr.release c0, 1), (Instr.dco c0, 2), (Instr.dcoOff c0, 3),
        (Instr.phaseStep c0, 4)] → let c := c0.withBits 16 8 k
      s.dev.applies .refCmd c → let d := s.dev.unqueue c
      let ok : Cpl := ⟨lateOk (d.isLate c), 0, 0⟩
      let t := RefC.target c
      let bad2 : Prop := 1 < t ∨ k = 0 ∧ 12 < RefC.ref c
      let bad7 : Prop := (t = 1 ∧ d.flag (R.DPLL_CTL_EN 1) = false) ∨ (k = 4 ∧ (d.dpll t).dco = false)
      (bad2 → Makes i s (d.ends c (.bad 2))) ∧ (¬ bad2 → bad7 → Makes i s (d.ends c (.bad 7))) ∧
      (¬ bad2 → ¬ bad7 →
        (k = 0 → Makes i s ((d.setDpll t { d.dpll t with forced := some (RefC.ref c) }).refFollow.ends c ok)) ∧
        (k = 1 → Makes i s ((d.setDpll t { d.dpll t with forced := none }).refFollow.ends c ok)) ∧
        (k = 2 → ∃ e : Dev, Makes i s (e.refFollow.ends c ok) ∧ sx 32 (e.fld (R.DPLL_DCO_DCO t)) = clampI (-500000000) 500000000 (RefC.value c) ∧
          (e.dpll t).dco = true ∧ (e.dpll t).moving = true ∧ (e.dpll t).forced = (d.dpll t).forced ∧ e.dpll (1 - t) = d.dpll (1 - t)) ∧
        (k = 3 → Makes i s ((d.setDpll t { d.dpll t with dco := false, step := 0 }).refFollow.ends c ok)) ∧
        (k = 4 → Makes i s ((d.setDpll t { d.dpll t with step := (d.dpll t).step + 500000000 * RefC.value c }).ends c ok))))) ∧
    ((∀ (s : State) (c0 : Cmd), let c := c0.withBits 16 8 5
      s.dev.applies .refCmd c → let d := s.dev.unqueue c
      let bad : Prop := RefC.ref c ∉ [0, 1, 4, 9, 10, 11, 12] ∨ RefC.target c = 0 ∨ 7 < RefC.target c
      (bad → Makes (.realign c0) s (d.ends c (.bad 2))) ∧
      (¬ bad → Makes (.realign c0) s ({ d with ref := { d.ref with realigns := d.ref.realigns ++ [Realign.mk c (d.isLate c) d.tbu.now] } }).afterCommands)) ∧
    (∀ (s : State) (r : Fin 14), let d := s.dev
      let hit (x : Realign) : Prop := RefC.ref x.cmd = r.val
      let whole := d.wholeEdge r.val
      let gone (x : Realign) : Prop := hit x ∧ (whole = true ∨ RefC.target x.cmd < 4)
      let begins (k : Nat) : Prop := (k ≠ 2 ∨ whole = true) ∧ ∃ x ∈ d.ref.realigns, hit x ∧ bitAt (RefC.target x.cmd) k = true
      (d.works refBase = true → (∃ x ∈ d.ref.realigns, hit x) → ∃ e : Dev,
        ((∃ x ∈ d.ref.realigns, gone x) → Makes (.realignPlace r) s (e.raise F.realigned)) ∧
        ((∀ x ∈ d.ref.realigns, ¬ gone x) → Makes (.realignPlace r) s e) ∧
        (∀ x, x ∈ e.ref.realigns ↔ (x ∈ d.ref.realigns ∧ ¬ hit x) ∨
          ∃ y ∈ d.ref.realigns, hit y ∧ ¬ gone y ∧ x = { y with cmd := y.cmd.withBits 17 8 (RefC.target y.cmd / 4 * 4) }) ∧
        (∀ x, x ∈ e.ref.placed ↔ x ∈ d.ref.placed ∨ ∃ y ∈ d.ref.realigns, gone y ∧ x = (y.cmd, y.late)) ∧
        (∀ k, k < 3 → (begins k → smGet (fun _ => 0) e.ref.aligned k = 1 + r.val) ∧
          (¬ begins k → smGet (fun _ => 0) e.ref.aligned k = smGet (fun _ => 0) d.ref.aligned k)) ∧
        (∀ k x, d.ref.outs[k]? = some x → ((k = 2 ∨ k = 3 ∨ ¬ begins (min k 2)) → e.ref.outs[k]? = some x) ∧
          (k ≠ 2 → k ≠ 3 → begins (min k 2) → e.ref.outs[k]? = some ⟨0, outSetting d k⟩)) ∧
        e.fmn.pps = d.fmn.pps + (if ∃ x ∈ d.ref.realigns, hit x ∧ whole = true ∧ bitAt (RefC.target x.cmd) 2 = true then 1 else 0) ∧
        e.regs = d.regs ∧ e.hdr = d.hdr ∧ e.hostMem = d.hostMem) ∧
      (d.works refBase = false ∨ (∀ e ∈ d.ref.realigns, ¬ hit e) → Makes (.realignPlace r) s d) ∧
      let old (x : Realign) : Prop := hit x ∧ x.since + 1000000000 ≤ d.tbu.now
      ((∀ e ∈ d.ref.realigns, ¬ old e) → Makes (.realignTimeout r) s d) ∧
      (∀ (l m : List Realign) (x : Realign), d.ref.realigns = l ++ x :: m → old x → (∀ e ∈ l ++ m, ¬ old e) →
        Makes (.realignTimeout r) s (({ d with ref := { d.ref with realigns := l ++ m } }).complete x.cmd (.bad 9)))))

/-- An FMN_SUBMIT that applies fails as R459 says, RESULT naming core 0xFF. Accepted, it counts; while FMN works, NOW makes an
instance ready with block A - 1 and the captured words; DUE above the counter before A lists it; otherwise it is ready at once
and late, with block DUE - 1 for a TICK list, and a periodic entry is relisted at the first due point, one or more periods on,
above the counter after A. While FMN does not work it is listed (the model's reading of R552, log 116). FMN_CANCEL of an entry
above 4,095 is BAD_TABLE 2, of one that is not scheduled NOT_FOUND; else it removes the entry wherever it waits, counts, and the
entry is no longer scheduled; delivered instances stay. (R455, R458, R459, R460, R462, R463, R464) -/
def Obligations.SubmissionsAreScheduledAsR460Says : Prop :=
  (∀ (s : State) (c : Cmd), s.dev.applies .fmnSubmit c →
      let d := s.dev.unqueue c
      let e := FCmd.entry c
      let l := FCmd.list c
      let p := FCmd.period c
      let bad (st : Status) (n : Nat) : Prop := Makes (.fmnSubmit c) s (d.ends c ⟨st, n, fmnResult 0 0 255 e 0 0⟩)
      let full : Prop := l < 4 ∧ 1024 ≤ (d.fmn.lists.filter (fun x => x.1 == l)).length
      let a := if d.running = true then d.top.tick else d.top.tick + 1
      let w : FWait := ⟨FCmd.due c, d.fmn.order, e, p, c⟩
      let inst (block : Nat) (late : Bool) : Inst :=
        ⟨e, (List.range 6).map (fun n => asRead T.fmnTask (2 + n) (d.live T.fmnTask (8 * e + 2 + n))), block % 2 ^ 48, late, c, decide (p ≠ 0), d.tbu.now, none, 0, 0, false, false⟩
      let same (g : Dev) : Prop := g.fmn.run = d.fmn.run ∧ g.tabs = d.tabs ∧ g.top = d.top ∧ g.hostMem = d.hostMem ∧
        g.fld R.FMN_SUBMITTED_COUNT = min (d.fld R.FMN_SUBMITTED_COUNT + 1) (2 ^ R.FMN_SUBMITTED_COUNT.w - 1)
      (4095 < e → bad .badTable 2) ∧
      (e ≤ 4095 → 4 < l ∨ l = 4 ∧ p ≠ 0 → bad .badTable 3) ∧
      (e ≤ 4095 → ¬ (4 < l ∨ l = 4 ∧ p ≠ 0) →
        (fmnScheduled d e = true → bad .noSpace 1) ∧
        (fmnScheduled d e = false → full → bad .noSpace 2) ∧
        (fmnScheduled d e = false → ¬ full →
          (d.works fmnBase = false → ∃ g : Dev, Makes (.fmnSubmit c) s g.afterCommands ∧ same g ∧ g.fmn.ready = d.fmn.ready ∧
            g.fmn.lists = listInsert (l, w) d.fmn.lists) ∧
          (l = 4 → d.works fmnBase = true → ∃ g : Dev, Makes (.fmnSubmit c) s g.afterCommands ∧ same g ∧ g.fmn.lists = d.fmn.lists ∧
            g.fmn.ready = d.fmn.ready ++ [inst (a + 2 ^ 48 - 1) (d.isLate c)]) ∧
          (l < 4 → listBefore d l < FCmd.due c → ∃ g : Dev, Makes (.fmnSubmit c) s g.afterCommands ∧ same g ∧ g.fmn.ready = d.fmn.ready ∧
            g.fmn.lists = listInsert (l, w) d.fmn.lists) ∧
          (l < 4 → d.works fmnBase = true → FCmd.due c ≤ listBefore d l → ∃ (g : Dev) (k : Nat), Makes (.fmnSubmit c) s g.afterCommands ∧ same g ∧ 1 ≤ k ∧
            g.fmn.ready = d.fmn.ready ++ [inst ((if fmnSrc d l = 0 then FCmd.due c else a) + 2 ^ 48 - 1) true] ∧
            (p = 0 → g.fmn.lists = d.fmn.lists) ∧
            (p ≠ 0 → g.fmn.lists = listInsert (l, { w with due := w.due + k * p }) d.fmn.lists ∧ listAfter d l < w.due + k * p ∧
              (k = 1 ∨ w.due + (k - 1) * p ≤ listAfter d l)))))) ∧
    (∀ (s : State) (c : Cmd), s.dev.applies .fmnCancel c →
      let d := s.dev.unqueue c
      let e := FCmd.entry c
      (4095 < e → Makes (.fmnCancel c) s (d.ends c (.bad 2))) ∧
      (e ≤ 4095 → fmnScheduled d e = false → Makes (.fmnCancel c) s (d.ends c ⟨.notFound, 0, 0⟩)) ∧
      (e ≤ 4095 → fmnScheduled d e = true → ∃ g : Dev, Makes (.fmnCancel c) s (g.ends c ⟨lateOk (d.isLate c), 0, 0⟩) ∧
        fmnScheduled g e = false ∧ (∀ x, x ∈ g.fmn.lists ↔ x ∈ d.fmn.lists ∧ x.2.entry ≠ e) ∧
        (∀ i, i ∈ g.fmn.ready ↔ i ∈ d.fmn.ready ∧ i.entry ≠ e) ∧ g.fmn.run = d.fmn.run ∧ g.tabs = d.tabs ∧
        g.fld R.FMN_CANCELLED_COUNT = min (d.fld R.FMN_CANCELLED_COUNT + 1) (2 ^ R.FMN_CANCELLED_COUNT.w - 1)))

/-- FMN_RELEASE moves the counters on; with one entry due, not yet ready, on a working FMN while the tick runs, it makes one
instance ready with the table words as they stand, and a single one leaves its list. The instance delivered is eligible and none
eligible has a higher PRIO; the core waits, none that waits began before it and none that began with it has a lower number.
Delivery takes the instance out of the ready list, gives it the next sequence number, loads the descriptor into D24 to D31,
TBLK, LATE and the return range, and the core runs on after TGET; with nothing eligible or no core waiting it changes nothing.
On an open FMN, a write of 1 to FMN_SWTICK counts on a unit that is no standby; FMN_LIST_CFG is written in SETUP, where it
zeroes the list's counter, and refused elsewhere with CFG_REFUSED; a read of the low word of LIST_NOW latches the high one; a
parity error of a working FMN is remembered and reported. At a boundary of a unit that is no standby a PPS list adds the PPS_OUT
periods, an SW list the writes. At its seal a return channel of block n carries what the block's buffer holds, or zeros where
the slot holds none; where a task of its range missed, zeros or the previous block as DSP_MISS says, and TOP_DSP_MISS counts;
the sealed buffer is then cleared; below DSP_LAG there is no return block. (R34, R35, R441, R443, R454, R456, R461, R465, R466,
R471, R474) -/
def Obligations.TasksAreReleasedAndDelivered : Prop :=
  (∀ s : State, let d := s.dev
      ((∀ x ∈ d.fmn.lists, fmnDue d x = false) → Makes .fmnRelease s { d with fmn := { d.fmn with cnt := d.fmn.nxt } }) ∧
      (∀ (l : List (Nat × FWait)) (x : Nat × FWait) (m : List (Nat × FWait)), d.works fmnBase = true → d.awake = true → d.running = true →
        d.fmn.lists = l ++ x :: m → fmnDue d x = true → (∀ y ∈ l ++ m, fmnDue d y = false) →
        (∀ i ∈ d.fmn.ready, i.entry ≠ x.2.entry) → ∃ (g : Dev) (i : Inst), Makes .fmnRelease s g ∧ g.fmn.cnt = d.fmn.nxt ∧
          g.fmn.ready = d.fmn.ready ++ [i] ∧ i.entry = x.2.entry ∧ i.cmd = x.2.cmd ∧ i.words = (List.range 6).map (fun n => asRead T.fmnTask (2 + n) (d.live T.fmnTask (8 * x.2.entry + 2 + n))) ∧
          (x.2.period = 0 → g.fmn.lists = l ++ m) ∧ g.fmn.run = d.fmn.run ∧ g.tabs = d.tabs ∧ g.top = d.top)) ∧
    (∀ (d : Dev) (i : Inst), bestInst d = some i → i ∈ fmnEligible d [] d.fmn.ready ∧ ∀ j ∈ fmnEligible d [] d.fmn.ready, FTask.prio j ≤ FTask.prio i) ∧
    (∀ (d : Dev) (k : Nat), nextCore d = some k → k < 16 ∧ ∃ n, (d.core k).st = .waiting n ∧
        ∀ j m, j < 16 → (d.core j).st = .waiting m → n < m ∨ n = m ∧ k ≤ j) ∧
    (∀ (s : State) (i : Inst) (k : Nat), let d := s.dev
      d.works fmnBase = true → d.awake = true → bestInst d = some i → nextCore d = some k →
      let seq := (d.fld R.FMN_SEQ_SEQ + 1) % 2 ^ 32
      ∃ (e : Dev) (j : Inst), Makes .taskDeliver s e ∧ e.fmn.ready = d.fmn.ready.filter (fun x => x.entry != i.entry) ∧ e.fmn.run = d.fmn.run ++ [j] ∧
        j.entry = i.entry ∧ j.core = some k ∧ j.seq = seq ∧ e.fld R.FMN_SEQ_SEQ = seq ∧ (e.core k).st = .running ∧ (e.core k).task = true ∧
        (e.core k).late = i.late ∧ (e.core k).tblk = i.block ∧ (e.core k).first = FTask.first i ∧ (e.core k).count = FTask.count i ∧
        (e.core k).pc = (d.core k).next.pc ∧ (e.core k).rep = (d.core k).next.rep ∧ (e.core k).loops = (d.core k).next.loops ∧
        (∀ n, n < 8 → smGet (fun _ => 0#32) (e.core k).d (24 + n) = BitVec.ofNat 32 ((instHead i ++ i.words).getD n 0)) ∧
        (∀ n, n < 24 → smGet (fun _ => 0#32) (e.core k).d n = smGet (fun _ => 0#32) (d.core k).d n) ∧
        (∀ q, q ≠ k → e.core q = d.core q) ∧ e.tabs = d.tabs ∧ e.localMem = d.localMem ∧ e.top = d.top) ∧
    (∀ s : State, (s.dev.works fmnBase = false ∨ s.dev.awake = false ∨ bestInst s.dev = none ∨ nextCore s.dev = none) → Makes .taskDeliver s s.dev) ∧
    (∀ (s : State) (v : Word) (l : Fin 4), let d := s.dev
      (d.opens fmnBase = false ∨ d.isStandby = true ∨ bitAt v.toNat 0 = false → Makes (.fmnSwtickWrite v) s d) ∧
      (d.opens fmnBase = true → d.isStandby = false → bitAt v.toNat 0 = true →
        Makes (.fmnSwtickWrite v) s { d with fmn := { d.fmn with sw := d.fmn.sw + 1 } }) ∧
      (d.opens fmnBase = true → d.top.st ≠ .setup → Makes (.fmnListCfgWrite l v) s (d.raise F.fmnCfgRefused)) ∧
      (d.top.st = .setup → ∃ e : Dev, Makes (.fmnListCfgWrite l v) s e ∧ fmnSrc e l.val = bits v.toNat 0 2 ∧
        smGet (fun _ => 0) e.fmn.cnt l.val = 0 ∧ smGet (fun _ => 0) e.fmn.nxt l.val = 0 ∧ e.fmn.lists = d.fmn.lists ∧
        (∀ r, r ≠ (R.FMN_LIST_CFG_SRC l.val).addr → e.reg r = d.reg r)) ∧
      (d.opens fmnBase = true → ∃ e : Dev, Makes (.fmnListNowLoRead l) s e ∧ e.bus = ⟨BitVec.ofNat 64 (listNow d l.val % 2 ^ 32), false⟩ ∧
        e.fld (R.FMN_LIST_NOW_HI_NOW_HI l.val) = listNow d l.val / 2 ^ 32 ∧ e.fmn = d.fmn) ∧
      (d.works fmnBase = true → Makes .fmnParityError s ({ d with fmn := { d.fmn with parity := true } }.raise F.fmnParity)) ∧
      (d.works fmnBase = false → Makes .fmnParityError s d)) ∧
    (∀ (d : Dev) (l : Nat), d.isStandby = false → l < 4 → let e := d.fmnPrepare
      e.fmn.pps = 0 ∧ e.fmn.sw = 0 ∧ smGet (fun _ => 0) e.fmn.nxt l =
        (match fmnSrc d l with
          | 0 | 1 => 0
          | 2 => (smGet (fun _ => 0) d.fmn.cnt l + d.fmn.pps) % 2 ^ 48
          | _ => (smGet (fun _ => 0) d.fmn.cnt l + d.fmn.sw) % 2 ^ 48)) ∧
    (∀ (d : Dev) (n r : Nat), r < 256 → let e := d.dspSeal n
      let bad : Prop := (∃ m ∈ d.dsp.miss, m.1 = n ∧ m.2.1 ≤ r ∧ r < m.2.1 + m.2.2) ∨ ∃ i ∈ d.fmn.ready ++ d.fmn.run,
        i.block = n ∧ i.missed = false ∧ i.dead = false ∧ FTask.first i ≤ r ∧ r < FTask.first i + FTask.count i
      (bad → smGet (fun _ => []) e.dsp.src r = (if d.flag R.TOP_PIPE_DSP_MISS = true then smGet (fun _ => []) d.dsp.src r else []) ∧
        (d.fld R.TOP_DSP_MISS_COUNT < 2 ^ R.TOP_DSP_MISS_COUNT.w - 1 → d.fld R.TOP_DSP_MISS_COUNT < e.fld R.TOP_DSP_MISS_COUNT)) ∧
      (¬ bad → smGet (fun _ => []) e.dsp.src r = (if d.ownedRet n = true then smGet (fun _ => []) d.dsp.ret (n % 16 * 256 + r) else [])) ∧
      (∀ g : Dev, g.dsp = e.dsp → d.ownedRet n = true → smGet (fun _ => []) g.dspClear.dsp.ret (n % 16 * 256 + r) = [])) ∧
    (∀ (d : Dev) (t : Nat), let k := d.fld R.TOP_PIPE_DSP_LAG
      (t < k → (d.dspBoundary t).dsp.src = []) ∧ (k ≤ t → (d.dspBoundary t).dsp.src = (d.dspClear.dspSeal (t - k)).dsp.src))

/-- Where a core executes it, each instruction of the multiply group puts the exact sum of products into its accumulators,
saturated to 72 bits with OV set where that alters it; OV is otherwise as it was, other accumulators, data registers and SAT are
unchanged, and the program counter goes on. PMAC with one accumulator named twice stops the core with ILLEGAL. (R428, R446) -/
def Obligations.ProductsAccumulateExactly : Prop :=
  ∀ (s : State) (k : Fin 16) (x y : Fin 4) (a b e f : Fin 32) (ops : List MemOp), let c := s.dev.core k.val
    let P := c.dI a.val * c.dI b.val
    let Q := c.dI e.val * c.dI f.val
    let one (v : Int) (g : Core) : Prop := g.xI x.val = satS 72 v ∧ g.ov = (c.ov || decide (satS 72 v ≠ v)) ∧
      (∀ n, n ≠ x.val → g.xI n = c.xI n) ∧ g.d = c.d ∧ g.sat = c.sat ∧ c.goesOn g
    (s.dev.executes k.val [] ops →
      Retires (.mpy k x a b ops) s k.val ops (one P) ∧ Retires (.mac k x a b ops) s k.val ops (one (c.xI x.val + P)) ∧
      Retires (.msu k x a b ops) s k.val ops (one (c.xI x.val - P)) ∧ Retires (.mac2 k x a b e f ops) s k.val ops (one (c.xI x.val + P + Q)) ∧
      Retires (.clr k x ops) s k.val ops (fun g => g.xI x.val = 0 ∧ g.ov = c.ov ∧ (∀ n, n ≠ x.val → g.xI n = c.xI n) ∧ g.d = c.d ∧
        g.sat = c.sat ∧ c.goesOn g) ∧
      (x ≠ y → Retires (.pmac k x y a b e f ops) s k.val ops (fun g => g.xI x.val = satS 72 (c.xI x.val + P) ∧
        g.xI y.val = satS 72 (c.xI y.val + Q) ∧ (∀ n, n ≠ x.val → n ≠ y.val → g.xI n = c.xI n) ∧
        g.ov = (c.ov || decide (satS 72 (c.xI x.val + P) ≠ c.xI x.val + P) || decide (satS 72 (c.xI y.val + Q) ≠ c.xI y.val + Q)) ∧
        g.d = c.d ∧ g.sat = c.sat ∧ c.goesOn g))) ∧
    (coreRuns s.dev k.val = true → Makes (.pmac k x x a b e f ops) s (s.dev.coreStop k.val 1))

/-- Where a core executes it, EXT, EXTA or EXTT with sh from 0 to 63 sets Dd to Xa / 2^sh rounded half to even, half away from
zero, or toward minus infinity, saturated to 32 bits with SAT set where that alters it. With sh = 24 and an accumulator that
holds a product x * g, EXT so gives x * g / 2^24 rounded half to even. Other registers, OV and memory beside the memory
operations are unchanged. (R429) -/
def Obligations.ExtractionsRoundAndSaturate : Prop :=
  ∀ (s : State) (k : Fin 16) (t : Fin 32) (x : Fin 4) (sh : Fin 64) (ops : List MemOp), s.dev.executes k.val [t.val] ops →
    let c := s.dev.core k.val
    let X := c.xI x.val
    let near (q : Int) : Prop := 2 * (X - q * 2 ^ sh.val).natAbs ≤ 2 ^ sh.val
    let tie (q : Int) : Prop := 2 * (X - q * 2 ^ sh.val).natAbs = 2 ^ sh.val
    let into (q : Int) (g : Core) : Prop := g.dI t.val = satS 32 q ∧ g.sat = (c.sat || decide (satS 32 q ≠ q)) ∧
      (∀ n, n ≠ t.val → g.dN n = c.dN n) ∧ g.x = c.x ∧ g.ov = c.ov ∧ c.goesOn g
    (∃ q : Int, near q ∧ (tie q → q % 2 = 0) ∧ Retires (.ext k t x sh ops) s k.val ops (into q)) ∧
    (∃ q : Int, near q ∧ (tie q → X.natAbs ≤ (q * 2 ^ sh.val).natAbs) ∧ Retires (.exta k t x sh ops) s k.val ops (into q)) ∧
    (∃ q : Int, q * 2 ^ sh.val ≤ X ∧ X < (q + 1) * 2 ^ sh.val ∧ Retires (.extt k t x sh ops) s k.val ops (into q)) ∧
    (∀ u g : Int, X = u * g → sh.val = 24 → Retires (.ext k t x sh ops) s k.val ops (fun r => r.dI t.val = satS 32 (divEven (u * g) (2 ^ 24))))

/-- Where a core executes it: EXP gives 31 for 0 and -1 and otherwise the least shift that brings the value to half scale; NORM
shifts by it; BFLT takes the lesser exponent; ASH shifts by the signed amount, from -31 to 31, a right shift rounding half to
even, a left shift saturating; ALU instructions into a data register give sum, difference, their saturated forms, minimum,
maximum, AND, OR, XOR, NOT, moves, and shifts by less than 32; other data registers, the accumulators and OV stay and the
program counter goes on. LOAD and STORE carry out their memory operations. A word load from local memory with no transfer in
progress gives the stored word and a store writes it, each with its post-modification; a modified address wraps in its buffer.
(R424, R427, R430, R431, R432) -/
def Obligations.DataInstructionsActAsR430Says : Prop :=
  (∀ (s : State) (k : Fin 16) (t a b : Fin 32) (ops : List MemOp), s.dev.executes k.val [t.val] ops →
      let c := s.dev.core k.val
      let v := c.dI a.val
      let kept (g : Core) : Prop := (∀ n, n ≠ t.val → g.dN n = c.dN n) ∧ g.x = c.x ∧ g.ov = c.ov ∧ c.goesOn g
      (∃ n : Nat, n ≤ 31 ∧ (v = 0 ∨ v = -1 → n = 31) ∧ (0 < v → 2 ^ 30 ≤ v * 2 ^ n ∧ v * 2 ^ n < 2 ^ 31) ∧
        (v < -1 → -2 ^ 31 ≤ v * 2 ^ n ∧ v * 2 ^ n < -2 ^ 30) ∧
        Retires (.exp k t (.d a) ops) s k.val ops (fun g => g.dI t.val = n ∧ g.sat = c.sat ∧ kept g) ∧
        Retires (.norm k t a ops) s k.val ops (fun g => g.dI t.val = v * 2 ^ n ∧ g.sat = c.sat ∧ kept g) ∧
        Retires (.bflt k t a ops) s k.val ops (fun g => g.dI t.val = min (c.dI t.val) n ∧ g.sat = c.sat ∧ kept g)) ∧
      (0 ≤ c.dI b.val → c.dI b.val ≤ 31 → Retires (.ash k t a b ops) s k.val ops (fun g =>
        g.dI t.val = satS 32 (v * 2 ^ (c.dI b.val).toNat) ∧ kept g)) ∧
      (c.dI b.val < 0 → -31 ≤ c.dI b.val → Retires (.ash k t a b ops) s k.val ops (fun g =>
        g.dI t.val = divEven v (2 ^ (c.dI b.val).natAbs) ∧ g.sat = c.sat ∧ kept g)) ∧
      (let gives (f : AluFn) (w : BitVec 32) : Prop :=
          Retires (.aluOp k (.bin f t a b) ops) s k.val ops (fun g => g.dN t.val = w.toNat ∧ g.sat = c.sat ∧ kept g)
        let sat (f : AluFn) (w : Int) : Prop := Retires (.aluOp k (.bin f t a b) ops) s k.val ops (fun g =>
          g.dI t.val = satS 32 w ∧ g.sat = (c.sat || decide (satS 32 w ≠ w)) ∧ kept g)
        let A := BitVec.ofNat 32 (c.dN a.val)
        let B := BitVec.ofNat 32 (c.dN b.val)
        gives .add (A + B) ∧ gives .sub (A - B) ∧ gives .band (A &&& B) ∧ gives .bor (A ||| B) ∧ gives .bxor (A ^^^ B) ∧
        gives .min (if A.slt B then A else B) ∧ gives .max (if A.slt B then B else A) ∧ sat .addS (v + c.dI b.val) ∧ sat .subS (v - c.dI b.val) ∧
        (c.dN b.val < 32 → gives .lsl (A <<< c.dN b.val) ∧ gives .lsr (A >>> c.dN b.val) ∧ gives .asr (A.sshiftRight (c.dN b.val))) ∧
        Retires (.aluOp k (.bnot t a) ops) s k.val ops (fun g => g.dN t.val = (~~~ A).toNat ∧ g.sat = c.sat ∧ kept g) ∧
        ∀ r : CReg, Retires (.aluOp k (.mov (.d t) r) ops) s k.val ops (fun g => g.dN t.val = c.read (c.free 0) r % 2 ^ 32 ∧ g.sat = c.sat ∧ kept g))) ∧
    (∀ (s : State) (k : Fin 16) (t : Fin 32) (x : Fin 4) (ops : List MemOp), s.dev.executes k.val [t.val] ops →
      Retires (.exp k t (.x x) ops) s k.val ops (fun g => g.dI t.val = signBits 72 ((s.dev.core k.val).xI x.val))) ∧
    (∀ (s : State) (k : Fin 16) (m : MemOp) (ops : List MemOp), let c := s.dev.core k.val
      (s.dev.executes k.val [] ({ m with store := false } :: ops) →
        Makes (.load k m ops) s ((s.dev.setCore k.val (s.dev.spent k.val c.next)).afterOps k.val c ({ m with store := false } :: ops))) ∧
      (s.dev.executes k.val [] ({ m with store := true } :: ops) →
        Makes (.store k m ops) s ((s.dev.setCore k.val (s.dev.spent k.val c.next)).afterOps k.val c ({ m with store := true } :: ops)))) ∧
    (∀ (s : State) (k : Fin 16) (m : MemOp), let c := s.dev.core k.val
      let ea := (effective c m).1
      let at_ := k.val * 0x80000 + ea
      m.wide = false → ea < 0x80000 → c.q = [] →
      (s.dev.executes k.val [] [{ m with store := false }] → ∃ e : Dev, Makes (.load k m []) s e ∧
        (e.core k.val).dN m.reg.val = memLe s.dev.localMem at_ 4 ∧ (∀ n, n ≠ m.reg.val → (e.core k.val).dN n = c.dN n) ∧
        (e.core k.val).aN m.a.val = (match (effective c m).2 with | some v => tc 32 v | none => c.aN m.a.val) ∧ e.localMem = s.dev.localMem ∧
        e.dram = s.dev.dram ∧ e.regs = s.dev.regs) ∧
      (s.dev.executes k.val [] [{ m with store := true }] → ∃ e : Dev, Makes (.store k m []) s e ∧
        e.localMem = memWrite s.dev.localMem at_ (leBytes 4 (c.dN m.reg.val)) ∧ (e.core k.val).d = c.d ∧ e.dram = s.dev.dram ∧ e.regs = s.dev.regs ∧
        (e.core k.val).aN m.a.val = (match (effective c m).2 with | some v => tc 32 v | none => c.aN m.a.val))) ∧
    (∀ (a n l : Nat) (x : Int), 0 < l → l ≤ 2 ^ n → (∀ j, l ≤ 2 ^ j → n ≤ j) →
      let b := a / 2 ^ n * 2 ^ n
      (b : Int) ≤ ringAdd a l x ∧ ringAdd a l x < b + l ∧ (ringAdd a l x - (a + x)) % l = 0)

/-- Where a core executes it: LOOP with a count pushes LS after it, LE and LC, with count 0 goes on after LE, and as a fifth
push stops the core; LPUSH and LPOP move an entry, LPOP of an empty stack stops it; REP repeats the next instruction or skips
it; a branch, taken or not, call and return have two slots, after which control passes on, and leave the loop stack; RTI
restores PC and SR. Under a REP with repeats left each is instead at its own address again, with one repeat less (the model's
reading of R434, log 127). An instruction that completes in a repeat stays, in the last slot passes control on, at LE goes back
while LC is above 1 and pops at 1. These, TGET and TDONE stop the core with ILLEGAL in a delay slot, at LE or within two
instructions before it. (R433, R434, R435, R436, R437, R446) -/
def Obligations.ControlInstructionsFollowR433ToR437 : Prop :=
  (∀ (s : State) (k : Fin 16) (ops : List MemOp), let x := s.dev.core k.val
      let after := (x.pc + 8) % 2 ^ 20
      coreRuns s.dev k.val = true →
      (x.barred = true → ∀ i ∈ [Instr.rti k ops, .tget k ops, .call k 0 ops, .return k ops], Makes i s (s.dev.coreStop k.val 1)) ∧
      (x.barred = true → ∀ (n : Count) (e : Nat) (a b f : Fin 32) (taken : Bool), ∀ i ∈ [Instr.loop k n e ops, .rep k n ops, .lpop k a b f ops,
        .lpush k a b f ops, .branch k e taken ops, .call k e ops, .tdone k a ops], Makes i s (s.dev.coreStop k.val 1)) ∧
      (x.barred = false → ∀ (c : Count) (stop : Nat), countOk 12 c = true → let n := countOf x 24 c
        (n = 0 → s.dev.executes k.val [] ops → Retires (.loop k c stop ops) s k.val ops (fun g => g = x.again { x with pc := (stop + 8) % 2 ^ 20, rep := none })) ∧
        (n ≠ 0 → x.loops.length ≠ 4 → s.dev.executes k.val [] ops → Retires (.loop k c stop ops) s k.val ops
          (fun g => g = x.again { x with pc := after, rep := none, loops := ⟨n, after, stop % 2 ^ 20⟩ :: x.loops })) ∧
        (n ≠ 0 → x.loops.length = 4 → Makes (.loop k c stop ops) s (s.dev.coreStop k.val 2))) ∧
      (x.barred = false → ∀ a b e : Fin 32,
        (x.loops = [] → Makes (.lpop k a b e ops) s (s.dev.coreStop k.val 3)) ∧
        (∀ l r, x.loops = l :: r → s.dev.executes k.val [a.val, b.val, e.val] ops → Retires (.lpop k a b e ops) s k.val ops (fun g =>
          g.loops = r ∧ g.pc = (x.again { x with pc := after, rep := none }).pc ∧ g.rep = (x.again { x with rep := none }).rep ∧
          g.dN a.val = l.lc % 2 ^ 32 ∧ g.dN b.val = l.ls % 2 ^ 32 ∧ g.dN e.val = l.le % 2 ^ 32 ∧ g.x = x.x ∧ g.a = x.a)) ∧
        (x.loops.length = 4 → Makes (.lpush k a b e ops) s (s.dev.coreStop k.val 2)) ∧
        (x.loops.length ≠ 4 → s.dev.executes k.val [] ops → Retires (.lpush k a b e ops) s k.val ops
          (fun g => g = x.again { x with pc := after, rep := none, loops := ⟨x.dN a.val % 2 ^ 24, x.dN b.val % 2 ^ 20, x.dN e.val % 2 ^ 20⟩ :: x.loops }))) ∧
      (x.barred = false → s.dev.executes k.val [] ops → ∀ (c : Count) (t : Nat),
        (countOk 16 c = true → countOf x 16 c = 0 → Retires (.rep k c ops) s k.val ops (fun g => g = x.again { x with pc := (x.pc + 16) % 2 ^ 20, rep := none })) ∧
        (countOk 16 c = true → countOf x 16 c ≠ 0 → Retires (.rep k c ops) s k.val ops (fun g => g = x.again { x with pc := after, rep := some (countOf x 16 c) })) ∧
        Retires (.branch k t true ops) s k.val ops (fun g => g = x.again { x with pc := after, rep := none, slot := some (t % 2 ^ 20, 2) }) ∧
        Retires (.branch k t false ops) s k.val ops (fun g => g = x.again { x with pc := after, rep := none, slot := some ((x.pc + 24) % 2 ^ 20, 2) }) ∧
        Retires (.call k t ops) s k.val ops (fun g => g = x.again { x with pc := after, rep := none, slot := some (t % 2 ^ 20, 2), calls := (x.pc + 24) % 2 ^ 20 :: x.calls }) ∧
        (∀ r l, x.calls = r :: l → Retires (.return k ops) s k.val ops (fun g => g = x.again { x with pc := after, rep := none, slot := some (r % 2 ^ 20, 2), calls := l })) ∧
        Retires (.rti k ops) s k.val ops (fun g => g.pc = (x.again { x with pc := x.ipc, rep := none }).pc ∧
          g.rep = (x.again { x with rep := none }).rep ∧ g.ie = bitAt x.isr 2 ∧ g.late = bitAt x.isr 3 ∧ g.sat = bitAt x.isr 1 ∧
          g.ov = bitAt x.isr 0 ∧ g.loops = x.loops ∧ g.d = x.d ∧ g.x = x.x ∧ g.a = x.a))) ∧
    (∀ x y : Core, (∀ n, x.rep = some (n + 2) → x.again y = { y with pc := x.pc, rep := some (n + 1) }) ∧
      ((∀ n, x.rep ≠ some (n + 2)) → x.again y = y)) ∧
    (∀ x : Core, let after := (x.pc + 8) % 2 ^ 20
      (∀ n, x.rep = some (n + 2) → x.next = { x with rep := some (n + 1) }) ∧
      (x.rep = some 1 → x.next = { x with pc := after, rep := none }) ∧
      (x.rep = none → ∀ t, x.slot = some (t, 2) → x.next = { x with pc := after, slot := some (t, 1) }) ∧
      (x.rep = none → ∀ t, x.slot = some (t, 1) → x.next = { x with pc := t, slot := none }) ∧
      (x.rep = none → x.slot = none → ∀ e r, x.loops = e :: r →
        (e.le = x.pc → 1 < e.lc → x.next = { x with pc := e.ls, loops := { e with lc := e.lc - 1 } :: r }) ∧
        (e.le = x.pc → e.lc ≤ 1 → x.next = { x with pc := after, loops := r }) ∧ (e.le ≠ x.pc → x.next = { x with pc := after })) ∧
      (x.rep = none → x.slot = none → x.loops = [] → x.next = { x with pc := after }))

/-- A held core that may run starts from its header, or stops with BOOT where MAGIC differs. A mailbox write to an open core is
stored and pends. An interrupt is taken as R437 says where R438 allows it, its vector in local memory and no transfer in
progress, and changes nothing where it does not. TGET waits from its DSPC cycle on and TDONE ends the task with its result; with
or without a task they raise TASK. The only instance delivered, neither periodic nor cut off, leaves Ferryman when it ends and
its submission completes with the status of R468. DWAIT goes on or waits; DMA_CMD queues or, with eight queued, stalls; MSG
shows its value; beside either, a second memory operation more or a store is ILLEGAL. A transfer that ends on a core not in
reset leaves the queue; an error, which the fabric logs, or a range beyond local memory, stops the core with DMA_ERR; else an
aligned transfer of 4 to 65,536 bytes that DRAM takes moves its bytes and pends its interrupt where asked. (R437, R438, R440,
R441, R444, R445, R447, R449, R451, R467, R468) -/
def Obligations.CoresStartTakeTasksAndTransfer : Prop :=
  (∀ (s : State) (k : Fin 16), let d := s.dev
      let w (n : Nat) : Nat := memLe d.localMem (k.val * 0x80000 + 4 * n) 4
      (((d.core k.val).st ≠ .held ∨ d.works (coreBase k.val) = false ∨ d.awake = false) → Makes (.coreStart k) s d) ∧
      ((d.core k.val).st = .held → d.works (coreBase k.val) = true → d.awake = true →
        (w 0 = 0x51400D5C → Makes (.coreStart k) s (d.setCore k.val
          { Core.zero.setA 15 (w 4) with st := .running, ha3 := bitAt (w 1) 0, pc := w 2 % 2 ^ 20, vectors := w 3 })) ∧
        (w 0 ≠ 0x51400D5C → ∃ e : Dev, Makes (.coreStart k) s (e.raise (F.bootErr k.val)) ∧ (e.core k.val).st = .stopped ∧
          e.fld (R.CORE_EXC_CAUSE k.val) = 0x10))) ∧
    (∀ (s : State) (k : Fin 16) (v : Word), let d := s.dev
      let pend (e : Dev) : Nat := (smGet (fun _ => 0#32) (e.core k.val).ctl 0x2C).toNat
      (d.opens (coreBase k.val) = true → ∃ e : Dev, Makes (.coreMboxWrite k v) s e ∧ e.fld (R.CORE_MBOX_MBOX k.val) = v.toNat ∧
        pend e = pend d ||| 4 ∧ (∀ r, r ≠ (R.CORE_MBOX_MBOX k.val).addr → e.reg r = d.reg r)) ∧
      (d.opens (coreBase k.val) = false → Makes (.coreMboxWrite k v) s d)) ∧
    (∀ (s : State) (k : Fin 16), let d := s.dev
      let x := d.core k.val
      let n := intReady x
      let i := if bitAt n 0 = true then 0 else if bitAt n 1 = true then 1 else 2
      let may : Prop := d.works (coreBase k.val) = true ∧ d.awake = true ∧ n ≠ 0 ∧ x.ie = true ∧ x.slot = none ∧ x.rep = none ∧
        (x.ha3 = true ∨ x.loops = []) ∧ (x.st = .running ∨ (∃ t, x.st = .waiting t) ∨ ∃ t, x.st = .dwait t)
      (¬ may → Makes (.interrupt k) s d) ∧
      (may → x.vectors + 4 * i < 0x80000 → x.q = [] → Makes (.interrupt k) s (d.setCore k.val
        { x with st := .running, ipc := x.pc, isr := x.sr, ie := false, pc := memLe d.localMem (k.val * 0x80000 + (x.vectors + 4 * i)) 4 % 2 ^ 20 }))) ∧
    (∀ (s : State) (k : Fin 16) (a : Fin 32) (ops : List MemOp), let d := s.dev
      let x := d.core k.val
      coreRuns d k.val = true → x.barred = false →
      (x.task = true → Makes (.tget k ops) s (d.coreStop k.val 7)) ∧ (x.task = false → Makes (.tdone k a ops) s (d.coreStop k.val 7)) ∧
      (x.task = false → d.executes k.val [] ops → Retires (.tget k ops) s k.val ops (fun g => g = { x with st := .waiting (d.dsp.clock / 500) })) ∧
      (x.task = true → d.executes k.val [] ops →
        let e := (d.setCore k.val (d.spent k.val x.next)).afterOps k.val x ops
        Makes (.tdone k a ops) s (((e.setCore k.val { e.core k.val with task := false }).count (R.CORE_TDONE_COUNT k.val)).instEnd k.val
          (some (x.dN a.val % 2 ^ 16))))) ∧
    (∀ (d : Dev) (k r : Nat) (i : Inst), d.fmn.run = [i] → i.core = some k → i.dead = false → i.periodic = false → i.missed = false →
      let st : Status × Nat := if FTask.count i ≠ 0 ∧ sealAt d i.block ≤ d.top.tick then (.late, 2) else if i.late = true then (.late, 1) else (.ok, 0)
      ∃ e : Dev, d.instEnd k (some r) = e.complete i.cmd ⟨st.1, st.2, fmnResult i.block r k i.entry i.seq i.wait⟩ ∧ e.fmn.run = [] ∧
        e.fmn.ready = d.fmn.ready ∧ e.fmn.lists = d.fmn.lists) ∧
    (∀ (s : State) (k : Fin 16) (n : Nat) (v : Word) (ops : List MemOp), let d := s.dev
      let x := d.core k.val
      (d.executes k.val [] ops →
        (x.q.length ≤ n → Retires (.dwait k n ops) s k.val ops (fun g => g = x.next)) ∧
        (n < x.q.length → Retires (.dwait k n ops) s k.val ops (fun g => g = { x with st := .dwait n })) ∧
        let e := (d.setCore k.val (d.spent k.val x.next)).afterOps k.val x ops
        besideStore ops = true →
        (x.q.length < 8 → Makes (.dmaCmd k v ops) s (e.dmaQueue k.val v.toNat)) ∧ Makes (.msg k v ops) s (e.ctlWrite k.val 0x34 v.toNat)) ∧
      (coreRuns d k.val = true → besideStore ops = true → 8 ≤ x.q.length → Makes (.dmaCmd k v ops) s (d.setCore k.val { x with st := .stalled })) ∧
      (coreRuns d k.val = true → (1 < ops.length ∨ ∃ m ∈ ops, m.store = true) →
        Makes (.dmaCmd k v ops) s (d.coreStop k.val 1) ∧ Makes (.msg k v ops) s (d.coreStop k.val 1))) ∧
    (∀ (s : State) (k : Fin 16) (err : Bool), let d := s.dev
      let x := d.core k.val
      (x.q = [] → Makes (.dmaTransferDone k err) s d) ∧
      (∀ t r, x.q = t :: r → d.heldInReset (coreBase k.val) = false →
        let d1 := d.setCore k.val { x with q := r }
        (err = true → ∃ id, id < 256 ∧ Makes (.dmaTransferDone k err) s
          (((d1.fabLog .slverr t.toDram (Master.quad (k.val / 4)).index id t.ext).drew 1).coreStop k.val 6)) ∧
        (err = false → 0x80000 < t.loc + t.len → Makes (.dmaTransferDone k err) s (d1.coreStop k.val 6)) ∧
        (err = false → t.loc + t.len ≤ 0x80000 → t.loc % 4 = 0 → t.ext % 4 = 0 → t.len % 4 = 0 → 0 < t.len → t.len ≤ 65536 →
          (t.toDram = true → ∀ g : Dev, d1.dramWrite (.quad (k.val / 4)) t.ext (memRead d.localMem (k.val * 0x80000 + t.loc) t.len) = (true, g) →
            g.core k.val = d1.core k.val → ∃ e : Dev, Makes (.dmaTransferDone k err) s e ∧ e.dram = g.dram ∧ e.localMem = g.localMem ∧ (e.core k.val).q = r ∧
              (t.irq = true → bitAt (smGet (fun _ => 0#32) (e.core k.val).ctl 0x2C).toNat 1 = true)) ∧
          (t.toDram = false → ∀ (g : Dev) (l : List Nat), d1.dramRead (.quad (k.val / 4)) t.ext t.len = (some l, g) →
            g.core k.val = d1.core k.val → ∃ e : Dev, Makes (.dmaTransferDone k err) s e ∧
              e.localMem = memWrite g.localMem (k.val * 0x80000 + t.loc) l ∧ e.dram = g.dram ∧ (e.core k.val).q = r ∧
              (t.irq = true → bitAt (smGet (fun _ => 0#32) (e.core k.val).ctl 0x2C).toNat 1 = true)))))

/-- A sample stores every enabled sensor's reading, saturated; a sensor that is not valid reads FAILED; T_max is the largest
valid reading with a sensor that gives it, 0x8000 without one; at or above T_SAFE the thermal cause stands. A rail measurement
stores current and voltage and which rails are above or below their windows. SUPPLY, its clearing, OVERTEMP and a sensor at 125
°C act where their condition holds, and change nothing otherwise. A decision lowers the level to m at once, raises it by one
after RISE_HOLD decisions above it, and else keeps it; LEVEL_RISE is that rise. The level that comes into force is the one
decided, and DSP_FREQ gives its frequency. (R498, R499, R500, R502, R504, R506, R507) -/
def Obligations.PowerFollowsSensorsRailsAndLevels : Prop :=
  ∀ s : State, let d := s.dev
    let act (e : Dev) : Dev := if e.safeCauses = d.safeCauses then e else e.safeNow
    let beyond : Prop := d.works pwrBase = true ∧ (d.railsOut = true ∨ d.lat R.PWR_ITRIP_I_TRIP < d.fld R.PWR_CORE_CURRENT)
    let under : Prop := d.works pwrBase = true ∧ d.railsOut = false ∧ d.fld R.PWR_CORE_CURRENT < d.lat R.PWR_ITRIP_I_TRIP
    let hot : Prop := d.works pwrBase = true ∧ d.overtemp = true
    (∀ l : List Int,
      (d.works pwrBase = false → Makes (.sensorSample l) s d) ∧
      (d.works pwrBase = true → ∃ e : Dev, Makes (.sensorSample l) s (act e) ∧
        (∀ i ∈ sensorsOn d, e.temp i = satS 16 (l.getD i (d.temp i)) ∧ e.flag (R.PWR_SENS_FAILED i) = !(validSensors e).contains i) ∧
        (∀ i ∉ sensorsOn d, e.reg (R.PWR_SENS_EN i).addr = d.reg (R.PWR_SENS_EN i).addr ∨ 16 ≤ i) ∧
        (validSensors e = [] → e.fld R.PWR_TMAX_TMAX = 0x8000 ∧ e.tmax = none) ∧
        (∀ i ∈ validSensors e, ∃ t, e.tmax = some t ∧ e.temp i ≤ t) ∧
        (∀ t, e.tmax = some t → ∃ i ∈ validSensors e, e.temp i = t ∧ e.fld R.PWR_TMAX_SENSOR = i) ∧
        (∀ t, e.tmax = some t → 16 * (d.lat R.PWR_THERM_T_SAFE : Int) ≤ t → e.pwr.thermal = true) ∧
        e.pwr.own = d.pwr.own ∧ e.tabs = d.tabs ∧ e.top = d.top ∧ e.hostMem = d.hostMem)) ∧
    (∀ (current voltage : Nat) (rails : List Nat),
      (d.works pwrBase = false → Makes (.railSample current voltage rails) s d) ∧
      (d.works pwrBase = true → ∃ e : Dev, Makes (.railSample current voltage rails) s e ∧ e.fld R.PWR_CORE_CURRENT = min current 0xFFFF ∧
        e.fld R.PWR_CORE_VOLTAGE = min voltage 0xFFFF ∧ e.pwr.powSum = d.pwr.powSum + min current 0xFFFF * min voltage 0xFFFF ∧
        e.pwr.powCount = d.pwr.powCount + 1 ∧
        (∀ i, i < 6 → i < rails.length → bitAt (e.fld R.PWR_SUPPLY_OVER) i = decide ((railWindows.getD i (0, 0)).2 < rails.getD i 0) ∧
          bitAt (e.fld R.PWR_SUPPLY_UNDER) i = decide (rails.getD i 0 < (railWindows.getD i (0, 0)).1)) ∧ e.hdr = d.hdr)) ∧
    (beyond → Makes .supply s (act ({ d with pwr := { d.pwr with supply := true } }.raiseIf (!d.pwr.supply) F.supply))) ∧
    (¬ beyond → Makes .supply s d) ∧
    (under → Makes .supplyCauseClear s { d with pwr := { d.pwr with supply := false } }) ∧ (¬ under → Makes .supplyCauseClear s d) ∧
    (hot → Makes .overtempSafeCause s (act ({ d with pwr := { d.pwr with thermal := true } }.raiseIf (!d.pwr.thermal) F.thermSafe))) ∧
    (¬ hot → Makes .overtempSafeCause s d) ∧
    (∀ t : Int, d.works pwrBase = true → d.tmax = some t → (2000 ≤ t → Makes .overtempReset s (d.softLevel false 4)) ∧ (t < 2000 → Makes .overtempReset s d)) ∧
    (let ripe : Prop := max 1 (d.lat R.PWR_LEVEL_RISE_HOLD) ≤ d.pwr.rises ∧ d.pwr.own < 7;
      (d.works pwrBase = true → ripe → Makes .levelRise s ({ d with pwr := { d.pwr with own := d.pwr.own + 1, rises := 0 } }.raise F.levelRise)) ∧
      (d.works pwrBase = false ∨ ¬ ripe → Makes .levelRise s d)) ∧
    (let m := min (d.lat R.PWR_LEVEL_CAP) (min (thermalLimit d) (energyLimit d));
      d.levelDecide.fld R.PWR_LEVEL_L_T = thermalLimit d ∧ m ≤ 7 ∧
      d.levelDecide.pwr.own = (if m < d.pwr.own then m else if d.pwr.own < m ∧ max 1 (d.lat R.PWR_LEVEL_RISE_HOLD) ≤ d.pwr.rises + 1 then d.pwr.own + 1
        else d.pwr.own)) ∧
    (d.works pwrBase = true → d.pwr.own ≤ 7 → let e := d.levelInForce
      e.fld R.PWR_LEVEL_LEVEL = d.pwr.own ∧ e.fld R.DSP_FREQ_MHZ = 10 * dspfAt d e.levelNow)

/-- A pad that is driven and reads its level starts its count again; the third check in a row that differs is a short, high or
low as read, recorded again later while its flag is clear. OWN_OUT released and low is stuck; asserted, it drives low; HB_OUT is
driven but after a loss of supply; a clock output that does not run drives its inactive level. An undriven pad is not checked.
GO in SETUP starts the open test, whose end clears BUSY and records each input that followed both pulls; a lane locked on
inverted data is reversed, and an Ethernet lane's link then stays down for this RX_INV. A fault records kind, class and index,
sets the class flag and the event, and releases a shorted pad where ACT says so. Clearing flags drives their pads again. (R509,
R510, R511, R512, R514) -/
def Obligations.PadFaultsAreRecordedAndActedOn : Prop :=
  (∀ (s : State) (cls : Fin 5) (idx : Fin 64) (j : Nat) (read : Bool), let d := s.dev
      let act (e : Dev) : Dev := if e.safeCauses = d.safeCauses then e else e.safeNow
      let pad := 64 * cls.val + idx.val
      let n := smGet (fun _ => 0) d.pin.miss pad
      let clear : Prop := bitAt (d.fld R.PIN_FLAGS_CLASS) cls.val = false
      let level := padLevel d cls.val idx.val j
      (d.works pinBase = false ∨ padDriven d cls.val idx.val = false → Makes (.padCheck cls idx j read) s d) ∧
      (d.works pinBase = true → padDriven d cls.val idx.val = true →
        (level = none → cls.val = 4 → idx.val = 1 → read = false → Makes (.padCheck cls idx j read) s (act (d.pinFault 4 1 .stuckLow))) ∧
        (level = none → cls.val ≠ 4 ∨ idx.val ≠ 1 ∨ read = true → Makes (.padCheck cls idx j read) s d) ∧
        (∀ out, level = some out →
          (out = read → Makes (.padCheck cls idx j read) s (d.setMiss pad 0)) ∧
          (out ≠ read → n < 2 → Makes (.padCheck cls idx j read) s (d.setMiss pad (n + 1))) ∧
          (out ≠ read → n = 2 ∨ 2 < n ∧ clear → Makes (.padCheck cls idx j read) s
            (act ((d.setMiss pad 3).pinFault cls.val idx.val (if read = true then .shortHigh else .shortLow)))) ∧
          (out ≠ read → 2 < n → ¬ clear → Makes (.padCheck cls idx j read) s (d.setMiss pad 3))))) ∧
    (∀ (d : Dev) (j : Nat), padLevel d 4 1 j = (if d.tth.ownOut = true then some false else none) ∧
      (d.boot.dark = true → padLevel d 4 0 j = none) ∧ (d.boot.dark = false → padLevel d 4 0 j = some (hbLevel d)) ∧
      (∀ k, k < 5 → padDriven d 2 k = true → clockOut d k = false →
        padLevel d 2 k j = some (k != 2 && k != 3 && bitAt (outSetting d k) 29))) ∧
    (∀ (d : Dev) (cls idx : Nat) (k : PinKind), cls < 7 → idx < 64 → let e := d.pinFault cls idx k
      e.fld R.PIN_LAST_KIND = k.code ∧ e.fld R.PIN_LAST_CLASS = cls ∧ e.fld R.PIN_LAST_INDEX = idx ∧ bitAt (e.fld R.PIN_FLAGS_CLASS) cls = true ∧
      (∀ c, c < 7 → c ≠ cls → bitAt (e.fld R.PIN_FLAGS_CLASS) c = bitAt (d.fld R.PIN_FLAGS_CLASS) c) ∧
      (∀ p, p ∈ e.pin.hiz ↔ p ∈ d.pin.hiz ∨ p = 64 * cls + idx ∧ (k = .shortLow ∨ k = .shortHigh) ∧ bitAt (d.fld R.PIN_ACT_ACT) cls = true)) ∧
    (∀ (s : State) (v : Word) (l : List Nat) (lane : Fin 4), let d := s.dev
      let act (e : Dev) : Dev := if e.safeCauses = d.safeCauses then e else e.safeNow
      let go : Prop := d.works pinBase = true ∧ bitAt v.toNat 31 = true ∧ d.top.st = .setup
      (go → Makes (.pinOpenTestGo v) s (d.setFld R.PIN_OPEN_TEST_BUSY 1)) ∧ (¬ go → Makes (.pinOpenTestGo v) s d) ∧
      (d.flag R.PIN_OPEN_TEST_BUSY = true → ∃ e : Dev, Makes (.openTestDone l) s (act e) ∧ e.fld R.PIN_OPEN_TEST_BUSY = 0 ∧
        (bitAt (e.fld R.PIN_FLAGS_CLASS) 5 = (bitAt (d.fld R.PIN_FLAGS_CLASS) 5 || l.any (openClass d))) ∧
        (∀ i, l.filter (openClass d) = [i] → e.fld R.PIN_LAST_KIND = 4 ∧ e.fld R.PIN_LAST_INDEX = i)) ∧
      (d.flag R.PIN_OPEN_TEST_BUSY = false → Makes (.openTestDone l) s d) ∧
      (∃ e : Dev, Makes (.pinFlagsClear v) s e ∧ (∀ c, c < 7 → bitAt (e.fld R.PIN_FLAGS_CLASS) c = (bitAt (d.fld R.PIN_FLAGS_CLASS) c && !bitAt v.toNat c)) ∧
        (∀ p, p ∈ e.pin.hiz ↔ p ∈ d.pin.hiz ∧ ¬ (p < 448 ∧ bitAt v.toNat (p / 64) = true)) ∧ e.hdr = d.hdr) ∧
      (let f := if d.works pinBase = true then d.pinFault 6 lane.val .reversed else d;
        (2 ≤ lane.val → Makes (.laneReversed lane) s (act f)) ∧ (lane.val < 2 → Makes (.laneReversed lane) s (act (f.laneHeld lane.val))))) ∧
    (∀ (d : Dev) (m : Nat), m < 2 → (d.macOn m = false → d.laneHeld m = d) ∧
      (d.macOn m = true → let e := d.laneHeld m
        (e.mac m).rev = some (d.flag (R.ETH_MODE_RX_INV m)) ∧ e.flag (R.ETH_LINK_LINK_UP m) = false ∧ e.flag (R.ETH_LINK_BLOCK_LOCK m) = false))

/-- A trip makes an active TRIPPED and a standby RETIRED. A stopped pin path is HB_LOST, a stopped link TETHER_DOWN, both
PEER_LOST; a standby then takes over if it was fit or may be unfit, once OWN_IN is deasserted. In JOIN in RUN, OWN_IN asserted
makes a standby, else a primary claims, a secondary after OWN_DEFER; a fresh secondary claim yields. Frame boundaries move
outputs with OWN_OUT and OWN_IN, a secondary's not within 1 us of its claim (the model's reading of R391, log 143), and release
one that ownership no longer governs; a cancelled handover keeps outputs, and OWN_OUT returns as OWN_IN goes; OWN_OUT is
released without a heartbeat, and pads give up outputs. Handover and reclaim announce H four ticks ahead; at H - 1 the lines
change, at H the roles. (R384, R386, R387, R388, R390, R391, R406, R407, R408, R411, R412, R413) -/
def Obligations.RolesOwnershipAndHandover : Prop :=
  (∀ s : State, let d := s.dev
      let tth (f : Tth → Tth) : Dev := { d with tth := f d.tth }
      let on : Prop := d.works tthBase = true
      (on → d.tth.role = .active → Makes .trip s ((tth (fun t => { t with role := .tripped, tripped := true, handover := none, kept := false })).raise F.tripped).tthAfter) ∧
      (on → d.tth.role = .standby → Makes .trip s (tth (fun t => { t with role := .retired, ownOut := false, handover := none, incoming := false, mirror := .idle, markers := false })).tthAfter) ∧
      (¬ on ∨ d.tth.role ≠ .active ∧ d.tth.role ≠ .standby → Makes .trip s d.tthAfter) ∧
      (d.top.st = .run → Makes .tickStall s ((tth (fun t => { t with stall := true })).trip true).tthAfter) ∧ (d.top.st ≠ .run → Makes .tickStall s d.tthAfter) ∧
      (on → Makes .hbPathAlive s (tth (fun t => { t with hbOk := true, peerLost := false })).tthAfter) ∧ (¬ on → Makes .hbPathAlive s d.tthAfter) ∧
      (d.tth.linkOk = true → Makes .tetherDown s (d.pathStop false true).tthAfter) ∧ (d.tth.linkOk = false → Makes .tetherDown s d.tthAfter) ∧
      (on → d.tth.linkOk = false → ∃ e : Dev, Makes .tetherLinkUp s e.tthAfter ∧ e.tth.linkOk = true ∧ e.tth.peerLost = false ∧
        (∃ h, e.tth.sent = some h ∧ h.role = d.tth.role ∧ h.tick = d.top.tick ∧ h.part = 0x5140) ∧
        (d.tth.role = .standby → e.tth.mirror = .transfer ∧ e.fld R.TTH_REMIRROR_COUNT = min (d.fld R.TTH_REMIRROR_COUNT + 1) (2 ^ R.TTH_REMIRROR_COUNT.w - 1))) ∧
      (¬ on ∨ d.tth.linkOk = true → Makes .tetherLinkUp s d.tthAfter) ∧
      (d.heartbeat = false → d.tth.ownOut = true → Makes .ownReleaseDelay s (((tth (fun t => { t with ownOut := false })).ownRefresh).retireCheck).tthAfter) ∧
      (d.heartbeat = true ∨ d.tth.ownOut = false → Makes .ownReleaseDelay s d.tthAfter) ∧
      (on → d.primary = false → d.tth.role = .join → d.top.st = .run → d.tth.ownIn = false → d.peerActive = false → ∃ e : Dev,
        Makes .ownDeferExpiry s e.tthAfter ∧ e.tth.role = .active ∧ e.tth.ownOut = true) ∧ (d.primary = true → Makes .ownDeferExpiry s d.tthAfter) ∧
      (on → d.tth.role = .active → d.fitPresent = true → d.tth.handover = none → Makes .handover s d.announceBoth.tthAfter) ∧
      d.announceBoth.tth = { d.tth with handover := some (d.top.tick + 4), incoming := decide (d.tth.role = .standby), line := d.tth.line ++ [(d.top.tick, Sent.announce (d.top.tick + 4))] } ∧ d.announceBoth.fld R.TTH_HANDOVER_TICK = (d.top.tick + 4) % 2 ^ 32 ∧
      (¬ on ∨ d.tth.role ≠ .active ∨ d.fitPresent = false ∨ d.tth.handover ≠ none → Makes .handover s d.tthAfter) ∧
      (let may : Prop := on ∧ d.tth.role = .standby ∧ d.primary = true ∧ d.flag R.TTH_CTL_REVERT = true ∧ d.fitCode = 0 ∧ d.tth.handover = none;
        (may → Makes .reclaim s d.announceBoth.tthAfter) ∧ (¬ may → Makes .reclaim s d.tthAfter)) ∧
      (∀ h, on → d.tth.linkOk = true → d.tth.role = .active ∨ d.tth.role = .standby → ∃ e : Dev, Makes (.handoverAnnounce h) s e.tthAfter ∧
        e.tth = { d.tth with handover := some h, incoming := decide (d.tth.role = .standby) } ∧ e.fld R.TTH_HANDOVER_TICK = h % 2 ^ 32) ∧
      (∀ h, on → d.tth.handover = some h →
        (d.top.tick + 1 = h → d.tth.incoming = true → d.tth.role = .standby → d.tth.ownIn = false → ∃ e : Dev, Makes .handoverExecute s e.tthAfter ∧
          e.tth.ownOut = true ∧ e.tth.role = .standby) ∧
        (d.top.tick + 1 = h → d.tth.incoming = false → d.tth.role = .active → ∃ e : Dev, Makes .handoverExecute s e.tthAfter ∧
          e.tth.ownOut = false ∧ e.tth.role = .active) ∧
        (h ≤ d.top.tick → d.tth.incoming = true → d.tth.role = .standby → ∃ e : Dev, Makes .handoverExecute s e.tthAfter ∧ e.tth.role = .active ∧
          e.tth.ownOut = (d.tth.ownOut || !d.tth.ownIn) ∧ e.tth.handover = none) ∧
        (h ≤ d.top.tick → d.tth.incoming = false → d.tth.role = .active → ∃ e : Dev, Makes .handoverExecute s e.tthAfter ∧ e.tth.role = .standby ∧
          e.tth.ownOut = false ∧ e.tth.handover = none))) ∧
    (∀ (s : State) (pin link : Bool), let d := s.dev
      let p := pin && d.tth.hbOk
      let l := link && d.tth.linkOk
      (p = false → l = false → Makes (.hbLost pin link) s d.tthAfter) ∧
      (p = true → l = false → d.tth.linkOk = true →
        Makes (.hbLost pin link) s ({ d with tth := { d.tth with hbOk := false } }.raise F.hbLost).tthAfter) ∧
      (p = false → l = true → d.tth.hbOk = true → Makes (.hbLost pin link) s (d.linkLost.raise F.tetherDown).tthAfter) ∧
      (p = true → l = true → let g := { d with tth := { d.tth with hbOk := false } }.linkLost.raise F.tetherDown
        Makes (.hbLost pin link) s (({ g with tth := { g.tth with peerLost := true, lossFit := d.fitCode == 0 } }.raise F.peerLost).takeover).tthAfter) ∧
      (p = true → l = true → d.tth.acks = [] → d.tth.shared = [] → ∃ e : Dev, Makes (.hbLost pin link) s e.tthAfter ∧ (d.effEn tthBase = true → bitAt (e.hd tthBase).event.toNat F.tetherDown.bit = true) ∧ e.tth.peerLost = true ∧ e.tth.hbOk = false ∧
        e.tth.linkOk = false ∧ (d.tth.role ≠ .standby → e.tth.role = d.tth.role ∧ e.tth.ownOut = d.tth.ownOut) ∧
        (d.tth.role = .standby → d.works tthBase = true → d.tth.ownIn = false → d.fitCode = 0 ∨ d.flag R.TTH_CTL_TAKEOVER_WHEN_UNFIT = true →
          e.tth.role = .active ∧ e.tth.ownOut = true ∧ e.fld R.TTH_TAKEOVER_COUNT = min (d.fld R.TTH_TAKEOVER_COUNT + 1) (2 ^ R.TTH_TAKEOVER_COUNT.w - 1)) ∧
        (d.tth.role = .standby → d.tth.ownIn = true ∨ d.fitCode ≠ 0 ∧ d.flag R.TTH_CTL_TAKEOVER_WHEN_UNFIT = false → e.tth.role = .standby))) ∧
    (∀ (s : State) (level : Bool), let d := s.dev
      (d.works tthBase = false → Makes (.ownInChange level) s { d with tth := { d.tth with ownIn := level } }.tthAfter) ∧
      (d.works tthBase = true → ∃ e : Dev, Makes (.ownInChange level) s e.tthAfter ∧ e.tth.ownIn = level ∧
        (d.tth.role = .join → d.top.st = .run → level = true → e.tth.role = .standby ∧ e.tth.ownOut = false) ∧
        (d.tth.role = .join → d.top.st = .run → level = false → d.peerActive = false → d.primary = true → e.tth.role = .active ∧ e.tth.ownOut = true) ∧
        (d.tth.role = .standby → level = false → d.tth.peerLost = true → d.tth.lossFit = true ∨ d.flag R.TTH_CTL_TAKEOVER_WHEN_UNFIT = true →
          e.tth.role = .active ∧ e.tth.ownOut = true) ∧
        (d.tth.role = .active → level = true → d.primary = false → (∃ n, d.tth.claimed = some n ∧ d.tbu.now ≤ n + 500) →
          e.tth.role = .standby ∧ e.tth.ownOut = false) ∧
        (d.tth.role = .active → level = false → d.tth.ownOut = false → d.tth.handover = none →
          e.tth.role = .active ∧ e.tth.ownOut = true ∧ e.tth.kept = false))) ∧
    (∀ (s : State) (o : Fin 45), let d := s.dev
      let held : Prop := d.tth.kept = true ∨ ∃ h, d.tth.handover = some h ∧ d.top.tick < h
      let settled : Prop := d.primary = true ∨ ∀ n, d.tth.claimed = some n → n + 500 < d.tbu.now
      (d.tth.ownOut = true → Makes (.padForceHiz o) s d.tthAfter) ∧
      (d.tth.ownOut = false → ∃ e : Dev, Makes (.padForceHiz o) s e.tthAfter ∧ ∀ p, p ∈ e.tth.own ↔ p ∈ d.tth.own ∧ p ≠ o.val) ∧
      (d.works tthBase = false ∨ ownable d o.val = true ∧ held → Makes (.ownershipChange o) s d.tthAfter) ∧
      (d.works tthBase = true → ownable d o.val = false → ∃ e : Dev, Makes (.ownershipChange o) s e.tthAfter ∧ ∀ p, p ∈ e.tth.own ↔ p ∈ d.tth.own ∧ p ≠ o.val) ∧
      (d.works tthBase = true → ownable d o.val = true → ¬ held →
        (d.tth.ownOut = true → d.tth.ownIn = false → settled → ∃ e : Dev, Makes (.ownershipChange o) s e.tthAfter ∧ ∀ p, p ∈ e.tth.own ↔ p ∈ d.tth.own ∨ p = o.val) ∧
        (d.tth.ownOut = false → ∃ e : Dev, Makes (.ownershipChange o) s e.tthAfter ∧ ∀ p, p ∈ e.tth.own ↔ p ∈ d.tth.own ∧ p ≠ o.val) ∧
        (d.tth.ownOut = true → d.tth.ownIn = true ∨ ¬ settled → Makes (.ownershipChange o) s d.tthAfter)))

/-- A HELLO is remembered; another part or revision is MISMATCH 1, the same ROLE pin 2, each with PAIR_MISMATCH, barring a unit
in JOIN except a primary beside another JOIN; a matching active makes a unit in JOIN in RUN a standby. Every frame that a unit
sends takes the next number and CVU1's value. One that is neither next nor awaited again is not taken (the model's choice, log
142); one whose value differs brings nothing, is asked for again and counts, the fourth time the link is down. The active of a
pair sends its marker, and host writes of mirrored registers with the next boundary; a standby ignores those of its own host. A
marker is taken by a standby and its declarations followed; BUDGET and DIVERGE follow it. A mirrored command is taken by a
working standby whose queue has room, with its data, and acknowledged; an acknowledged one is taken with the standby's tick;
without acknowledgement in time the link is down. A standby writes what a frame brings, but asks again for a piece that missed
its tick. At S an active that has sent all sends its state; the standby's is replaced and settles, until the count is 0 and the
digests agree. (R392, R393, R396, R399, R400, R402, R403, R404, R405) -/
def Obligations.PairsCompareAndMirror : Prop :=
  (∀ (s : State) (h : Hello), let d := s.dev
      let bad1 : Prop := h.part ≠ 0x5140 ∨ h.sirev ≠ Config.sirev.toNat
      (d.works tthBase = false ∨ d.tth.linkOk = false → Makes (.hello h) s d.tthAfter) ∧
      (d.works tthBase = true → d.tth.linkOk = true → ∃ e : Dev, Makes (.hello h) s e.tthAfter ∧ e.tth.peer = some h ∧
        e.fld R.TTH_PEER_PART = h.part % 2 ^ 16 ∧ e.fld R.TTH_PEER_SIREV = h.sirev % 2 ^ 8 ∧
        e.fld R.TTH_PEER_MISMATCH = (if bad1 then 1 else if h.rolePin = d.boot.role then 2 else 0) ∧
        (bad1 ∨ h.rolePin = d.boot.role → d.tth.role ≠ .join → e.tth.role = d.tth.role) ∧
        (bad1 → d.tth.role = .join → e.tth.role = if h.role = .join ∧ d.primary = true then .join else .barred) ∧
        (¬ bad1 → h.rolePin = d.boot.role → d.tth.role = .join → e.tth.role = .barred) ∧
        (¬ bad1 → h.rolePin ≠ d.boot.role → d.tth.role = .join → d.top.st = .run → h.role = .active → e.tth.role = .standby))) ∧
    (∀ s : State, let d := s.dev
      (d.works tthBase = true → d.tth.linkOk = true → Makes .helloSend s { d with tth := { d.tth with sent := some (ownHello d) } }) ∧
      (d.works tthBase = false ∨ d.tth.linkOk = false → Makes .helloSend s d) ∧
      (∀ cs, d.tth.acks = [] → Makes (.mirrorAck cs) s d) ∧
      (∀ cs c r, d.tth.acks = c :: r → Makes (.mirrorAck cs) s
        (({ d with tth := { d.tth with acks := r } }.shareCmd { c with fetch := cs }).takeCmd { c with fetch := cs }).afterCommands) ∧
      (d.tth.acks = [] → Makes .mirrorAckTimeout s d.tthAfter) ∧ (d.tth.acks ≠ [] → Makes .mirrorAckTimeout s d.declareDown.tthAfter) ∧
      (let done : Prop := ∃ m, d.tth.marker = some m ∧ d.isStandby = true ∧ d.tth.mirror = .settling ∧ d.fld R.TTH_SETTLE_LEFT = 0 ∧
          m.tick = d.top.tick ∧ d.digest = m.digest;
        (done → Makes .settleDone s { d with tth := { d.tth with mirror := .idle } }.tthAfter) ∧ (¬ done → Makes .settleDone s d.tthAfter))) ∧
    (∀ (d : Dev) (h : FrameHead) (f : Dev → Dev), let q := h.seq.toNat
      let fails := match d.tth.miss.find? (fun x => x.1 == q) with | some x => x.2 | none => 0
      let n := { d with tth := { d.tth with rxNext := if fails = 0 then (q + 1) % 2 ^ 32 else d.tth.rxNext, miss := d.tth.miss.filter (fun x => x.1 != q) } }
      let c := n.cvuCompute 1 (leBytes 8 q) h.payload
      let bad : Prop := n.works (cvuBase 1) = true ∧ c.1 ≠ h.crc.toNat
      let g := c.2.cvuFail 1 (leBytes 8 q) c.1 h.crc.toNat
      (fails = 0 → q ≠ d.tth.rxNext → d.linkFrame h f = d) ∧
      (fails ≠ 0 ∨ q = d.tth.rxNext →
        (¬ bad → d.linkFrame h f = f c.2) ∧ (bad → 3 ≤ fails → d.linkFrame h f = g.declareDown) ∧
        (bad → fails < 3 → (d.linkFrame h f).tth.miss = (q, fails + 1) :: n.tth.miss ∧
          (∃ x : MirrorFrame, x.chunk = .resend h.seq ∧ (d.linkFrame h f).tth.line = d.tth.line ++ [(d.top.tick, .frame x)]) ∧
          (d.linkFrame h f).fld R.TTH_RETRY_COUNT = min (d.fld R.TTH_RETRY_COUNT + 1) (2 ^ R.TTH_RETRY_COUNT.w - 1)))) ∧
    (∀ (d : Dev) (f : FrameHead → Sent) (a : Nat) (v : Word) (w : Dev → Dev),
      (∃ h, (d.tthSend f).tth = { d.tth with txSeq := (d.tth.txSeq + 1) % 2 ^ 32, line := d.tth.line ++ [(d.top.tick, f h)] } ∧
        h.seq = BitVec.ofNat 32 d.tth.txSeq ∧
        (d.works (cvuBase 1) = true → h.crc = BitVec.ofNat 32 (checkValue (leBytes 8 d.tth.txSeq) h.payload))) ∧
      (d.pairActive = true → d.markerSend = d.tthSend (fun h => .marker (ownMarker d h)) ∧
        (mirroredReg a = true → d.fromHost a v w = w (d.tthSend (fun h => .frame ⟨h, d.top.tick, .reg a v (d.top.tick + 1)⟩)))) ∧
      (d.pairActive = false → d.markerSend = d) ∧ (d.isStandby = true → mirroredReg a = true → d.fromHost a v w = d)) ∧
    (∀ (s : State) (x : MarkerIn), let d := s.dev
      let on : Prop := d.works tthBase = true ∧ d.tth.linkOk = true
      (¬ on → Makes (.tickMarker x) s d.tthAfter) ∧
      (on → Makes (.tickMarker x) s (d.linkFrame x.marker.head (fun d => if d.isStandby = true then d.markerIn x else d)).tthAfter) ∧
      (let m := x.marker
        let e := { d with tth := { d.tth with marker := some m, markers := true } }.setFld R.TTH_LINK_DELAY
          (clampI 0 0xFFFF (x.delay + sx 16 (d.fld R.TTH_SKEW_SKEW))).toNat
        let e := m.groups.foldl (fun d g => d.groupDeclared g.1.val g.2) e
        let e := m.streams.foldl (fun d x => d.streamDeclared x.1.val x.2) e
        let e := m.asrc.foldl (fun d a => d.asrcDeclared a.1.val a.2.1.val a.2.2) e
        d.markerIn x = e.markerCheck)) ∧
    (∀ (d : Dev) (m : Marker),
      (let causes := if d.fld R.PWR_LEVEL_OWN < m.level then setBits d.tth.causes 6 1 1
          else if d.fld R.PWR_LEVEL_OWN = m.level then setBits d.tth.causes 6 1 0 else d.tth.causes;
        (d.markerBudget m).tth = { d.tth with causes := causes }) ∧
      (d.tth.outNow ≠ m.outDigest → (d.markerDigests m).fld R.TTH_DIVERGE_COUNT = min (d.fld R.TTH_DIVERGE_COUNT + 1) (2 ^ R.TTH_DIVERGE_COUNT.w - 1))) ∧
    (∀ (s : State) (m : MirrorCmd) (data : List Nat) (f : MirrorFrame), let d := s.dev
      let on : Prop := d.works tthBase = true ∧ d.tth.linkOk = true
      (¬ on → Makes (.mirrorCommand m data) s d.tthAfter ∧ Makes (.mirrorFrame f) s d.tthAfter) ∧
      (on → Makes (.mirrorCommand m data) s (d.linkFrame m.head (fun d =>
          if d.isStandby = true ∧ d.awake = true ∧ d.paqTaken = false then d.takeMirrored m.cmd data else d)).tthAfter ∧
        Makes (.mirrorFrame f) s (d.linkFrame f.head (·.chunk f)).tthAfter) ∧
      (let c : Cmd := { m.cmd with ring := 256 + m.cmd.ring % 64, fetch := d.top.tick, seq := d.hre.serial };
        d.takeMirrored m.cmd data = ((({ d with tth := { d.tth with data := d.tth.data ++ [(c.id, data)], line := d.tth.line ++ [(d.top.tick, Sent.ack d.top.tick)] } }.shareCmd c).takeCmd c).afterCommands))) ∧
    (∀ (d : Dev) (f : MirrorFrame), (∀ q, f.chunk ≠ .resend q) → (∀ i j, f.chunk ≠ .copied i j) →
      (d.isStandby = false → d.chunk f = d) ∧
      (d.isStandby = true → (d.tth.mirror ≠ .transfer ∨ f.chunk.piece = none ∨ f.tick = d.top.tick) → d.chunk f = d.mirrored f.chunk) ∧
      (d.isStandby = true → d.tth.mirror = .transfer → f.chunk.piece ≠ none → f.tick ≠ d.top.tick →
        (d.chunk f).tth.miss = (f.head.seq.toNat, 1) :: d.tth.miss ∧ (d.chunk f).tabs = d.tabs ∧ (d.chunk f).dram = d.dram ∧
        (d.chunk f).localMem = d.localMem)) ∧
    (∀ (d : Dev) (t v o a k tick : Nat) (l : List Nat) (w : Word),
      ((d.mirrored (.table t v true o l)).tab t).staged = storeBytes (d.tab t).staged o l ∧
      ((d.mirrored (.table t v false o l)).tab t).live = storeBytes (d.tab t).live o l ∧
      d.mirrored (.core k o l) = { d with localMem := memWrite d.localMem (k * 0x80000 + o) l } ∧
      d.mirrored (.dram a l) = (d.dramWrite .tth a l).2 ∧
      d.mirrored (.reg a w tick) = { d with tth := { d.tth with regs := d.tth.regs ++ [(tick, a, w)] } }) ∧
    (∀ (s : State) (m : MirrorState), let d := s.dev
      (d.works tthBase = false ∨ d.tth.role ≠ .active ∧ d.tth.linkOk = false → Makes (.mirrorStateCopy m) s d.tthAfter) ∧
      (d.works tthBase = true → d.tth.role = .active →
        (d.pairActive = true → d.tth.mirror = .transfer → d.tth.xfer = [] → Makes (.mirrorStateCopy m) s
          ({ d with tth := { d.tth with mirror := .settling } }.tthSend (fun h => .state (ownState d h))).tthAfter) ∧
        (d.pairActive = false ∨ d.tth.mirror ≠ .transfer ∨ d.tth.xfer ≠ [] → Makes (.mirrorStateCopy m) s d.tthAfter)) ∧
      (d.works tthBase = true → d.tth.role ≠ .active → d.tth.linkOk = true → Makes (.mirrorStateCopy m) s (d.linkFrame m.head (fun d =>
        if d.isStandby = true ∧ d.tth.mirror = .transfer then d.stateIn m else d)).tthAfter) ∧
      (let e := d.stateIn m;
        e.tth.mirror = .settling ∧ e.xpt = m.xpt ∧ e.slp = m.slp ∧
          e.fmn = m.fmn ∧ e.obj.moves = m.obj.moves ∧ e.obj.admitted = m.obj.admitted ∧ e.out.banks = d.out.banks ∧
          (∀ b, b < 4 → (e.base b).val = m.bases.getD b 0 % 2 ^ 96) ∧ e.fld R.TTH_SETTLE_LEFT = settleTicks e % 2 ^ R.TTH_SETTLE_LEFT.w ∧
          e.tabs = d.tabs ∧ e.hostMem = d.hostMem ∧ e.top = d.top))

/-- Power-on, a loss of supply and RST_N low leave the whole part as at reset, RST_N low, but for grade, fuses, host memory, the
level on OWN_IN, the model's free-value counter and the reset cause: LEVEL is 0, or 1 for RST_N unless one of these is in
progress; the JTAG port is reset with power alone. RST_N rising leaves the same and samples straps and fuses. PERST_N (LEVEL 2)
and a keyed write of TOP_RESET (LEVEL 3) clear the same but keep the time bases' values, the RWS registers (RATE, FB), the
straps and, at LEVEL 3, the configuration space; every other register has its reset value, the MSI-X table too (the model's
reading, log 42). A write without the key changes nothing. (R516, R517, R518, R524, R537) -/
def Obligations.ResetLevelsRestoreThePart : Prop :=
  (∀ s : State, let d := s.dev
      let clear (b : Boot) (j : Jtag) : Dev := { Dev.reset with grade := d.grade, hostMem := d.hostMem, free := d.free,
                                                                tth := { Tth.reset with ownIn := d.tth.ownIn }, boot := b, jtag := j }
      let low (dark : Bool) : Boot := { Boot.reset with keyHash := d.boot.keyHash, minRollback := d.boot.minRollback, rstLow := true, dark := dark }
      let soft (c : PciCfg) (level : Nat) (e : Dev) : Prop :=
        { e with regs := [], tbu := .reset } = { clear { d.boot with run := none, spiDue := d.boot.bootsel } d.jtag with cfg := c } ∧
        e.fld R.TOP_RESET_CAUSE_LEVEL = level ∧ e.tbu = { Tbu.reset with bases := e.tbu.bases } ∧
        (∀ b, b < 4 → e.tbRate b = d.tbRate b ∧ e.base b =
          { TBase.zero with val := (d.base b).val, sec := (sx 96 ((d.base b).val % 2 ^ 96) % (10 ^ 9 * 2 ^ 64)).toNat }) ∧
        (∀ p, p < 2 → e.reg (R.DPLL_FB_FB p).addr = d.reg (R.DPLL_FB_FB p).addr) ∧
        (∀ r, (∀ b, b < 4 → r ≠ (R.TB_RATE_RATE b).addr) → (∀ p, p < 2 → r ≠ (R.DPLL_FB_FB p).addr) → r ≠ R.TOP_RESET_CAUSE_LEVEL.addr →
          e.reg r = resetReg d.grade r)
      Makes .powerOnReset s ((clear (low false) .reset).setFld R.TOP_RESET_CAUSE_LEVEL 0) ∧
      Makes .supplyLoss s ((clear (low true) .reset).setFld R.TOP_RESET_CAUSE_LEVEL 0) ∧
      Makes .rstNReset s ((clear (low d.boot.dark) d.jtag).setFld R.TOP_RESET_CAUSE_LEVEL
        (if d.boot.rstLow = true then d.fld R.TOP_RESET_CAUSE_LEVEL else 1)) ∧
      (∀ (role bootsel : Bool) (key : Option (List Nat)) (roll : Nat),
        (d.boot.rstLow = true → Makes (.rstNRise role bootsel key roll) s
          ((clear ⟨role, bootsel, key, roll, false, bootsel, none, false⟩ d.jtag).setFld R.TOP_RESET_CAUSE_LEVEL (d.fld R.TOP_RESET_CAUSE_LEVEL))) ∧
        (d.boot.rstLow = false → Makes (.rstNRise role bootsel key roll) s d)) ∧
      (d.boot.rstLow = true → Makes .perstNReset s d) ∧
      (d.boot.rstLow = false → ∃ e : Dev, Makes .perstNReset s e ∧ soft .reset 2 e) ∧
      (∀ v : Word, let keyed : Prop := bits v.toNat 16 16 = 0xA5C3 ∧ bitAt v.toNat 0 = true
        (¬ keyed ∨ d.boot.rstLow = true → Makes (.softReset v) s d) ∧
        (keyed → d.boot.rstLow = false → ∃ e : Dev, Makes (.softReset v) s e ∧ soft d.cfg 3 e)))

/-- In OFF, an SPI boot that is due starts with slot 0 (code 2); a host boot (code 1) starts on GO where none runs or is due. A
header that cannot be read, or fails a check of R521, ends the boot with that code, slot 1 following slot 0; one that passes
waits for the body. A body that cannot be read, whose signature fails, or whose ROLLBACK is too low ends it likewise; else DONE,
SRC, ROLLBACK and DIGEST are recorded and the device enters SETUP. A host boot reads its image from host memory at
TOP_BOOT_ADDR, with Bus Master Enable set; an SPI boot has the bytes of the flash. (R520, R521, R522, R523) -/
def Obligations.BootChecksTheImageThenEntersSetup : Prop :=
  (∀ (s : State) (v : Word), let d := s.dev
      let spi : Prop := d.top.st = .off ∧ d.boot.spiDue = true ∧ d.boot.run = none ∧ d.boot.rstLow = false
      let host : Prop := bitAt v.toNat 0 = true ∧ d.top.st = .off ∧ d.boot.run = none ∧ d.boot.spiDue = false ∧ d.boot.rstLow = false
      (spi → Makes .spiBoot s { d with boot := { d.boot with spiDue := false, run := some ⟨2, none⟩ } }) ∧ (¬ spi → Makes .spiBoot s d) ∧
      (host → Makes (.hostBootGo v) s { d with boot := { d.boot with run := some ⟨1, none⟩ } }) ∧ (¬ host → Makes (.hostBootGo v) s d)) ∧
    (∀ (s : State) (b : Option (List Nat)), let d := s.dev
      let gone (i : Instr) (r : BootRun) (err : Nat) : Prop := ∃ e : Dev, Makes i s e ∧ e.fld R.TOP_BOOT_ERR = err ∧
        e.boot = { d.boot with run := if r.src = 2 then some ⟨3, none⟩ else none } ∧ e.top = d.top ∧ (∀ a, a ≠ R.TOP_BOOT_ERR.addr → e.reg a = d.reg a)
      (d.boot.run = none → Makes (.bootHeaderRead b) s d ∧ Makes (.bootBodyRead b) s d) ∧
      (∀ r, d.boot.run = some r → r.header = none → Makes (.bootBodyRead b) s d ∧
        (bootBytes d r 0 256 b = none → gone (.bootHeaderRead b) r (if r.src = 1 then 6 else 7)) ∧
        (∀ l, bootBytes d r 0 256 b = some l → let n := ofLe (slice l 8 4)
          (ofLe (slice l 0 4) ≠ 0x5140B007 ∨ ofLe (slice l 4 4) ≠ 1 → gone (.bootHeaderRead b) r 1) ∧
          (ofLe (slice l 0 4) = 0x5140B007 → ofLe (slice l 4 4) = 1 →
            (n % 64 ≠ 0 ∨ n < 64 ∨ 0x100000 < n → gone (.bootHeaderRead b) r 2) ∧
            (n % 64 = 0 → 64 ≤ n → n ≤ 0x100000 →
              (∀ k, d.boot.keyHash = some k → sha384 (slice l 0x20 0x60) ≠ k → gone (.bootHeaderRead b) r 3) ∧
              ((∀ k, d.boot.keyHash = some k → sha384 (slice l 0x20 0x60) = k) →
                Makes (.bootHeaderRead b) s { d with boot := { d.boot with run := some { r with header := some l } } }))))) ∧
      (∀ r h, d.boot.run = some r → r.header = some h → Makes (.bootHeaderRead b) s d ∧
        (bootBytes d r 256 (ofLe (slice h 8 4)) b = none → gone (.bootBodyRead b) r (if r.src = 1 then 6 else 7)) ∧
        (∀ l, bootBytes d r 256 (ofLe (slice h 8 4)) b = some l →
          let digest := sha384 (h.take 0x80 ++ l)
          let signed := ecdsaOk (ofBe (slice h 0x20 48)) (ofBe (slice h 0x50 48)) (ofBe (slice h 0x80 48)) (ofBe (slice h 0xB0 48)) digest
          (signed = false → gone (.bootBodyRead b) r 4) ∧
          (signed = true → ofLe (slice h 0xC 4) < d.boot.minRollback → gone (.bootBodyRead b) r 5) ∧
          (signed = true → d.boot.minRollback ≤ ofLe (slice h 0xC 4) → ∃ e : Dev, Makes (.bootBodyRead b) s e.enterSetup ∧ e.flag R.TOP_BOOT_DONE = true ∧
            e.fld R.TOP_BOOT_SRC = r.src % 4 ∧ e.fld R.TOP_BOOT_ROLLBACK = ofLe (slice h 0xC 4) % 256 ∧ e.boot.run = none ∧ e.top = d.top ∧
            (∀ i, i < 12 → e.fld (R.TOP_FW_DIGEST_DIGEST i) = ofLe (slice digest (4 * i) 4) % 2 ^ 32))))) ∧
    (∀ (d : Dev) (r : BootRun) (o n : Nat) (l : List Nat), bootBytes d r o n none = none ∧
      (r.src = 1 → d.cfg.busMaster = false → bootBytes d r o n (some l) = none) ∧
      (r.src = 1 → d.cfg.busMaster = true → bootBytes d r o n (some l) =
        some (memRead d.hostMem (d.fld R.TOP_BOOT_ADDR_LO_ADDR_LO * 256 + d.fld R.TOP_BOOT_ADDR_HI_ADDR_HI * 2 ^ 32 + o) n)) ∧
      (r.src ≠ 1 → l.length < n → bootBytes d r o n (some l) = none) ∧ (r.src ≠ 1 → n ≤ l.length → bootBytes d r o n (some l) = some (l.take n)))
end

