-- ==== Sys2Proof/Laws/Makes.lean ====
section
/-! SUPPORT. How to show that a command completes: it is enough to say what its meaning makes of the part. -/
namespace Sys2Proof.Laws
open Machine

/-- A command whose meaning is `f` completes with what `f` makes of the part. -/
theorem makes_of {i : Instr} {s : State} {d : Dev} (f : Dev → Dev) (h : exec i s = s.act f) (e : f s.dev = d) : Makes i s d := by
  rw [Makes, h, State.act, e]

/-- A command completes with one part only, up to vector 0. -/
theorem makes_vector0 {i : Instr} {s : State} {d e : Dev} (hd : Makes i s d) (he : Makes i s e) : d.vector0 = e.vector0 := by
  have h := hd.symm.trans he
  simpa using h

end Sys2Proof.Laws
end

