-- ==== Sys2Proof/Laws/Map.lean ====
section
/-! SUPPORT. Laws of sparse maps: read after write, at the same and at another key, and the canonical form. -/
namespace Sys2Proof.Laws
open Machine

variable {α : Type}

theorem smGet_insert_self (d : Nat → α) (k : Nat) (v : α) (m : SMap α) (h : ∀ e ∈ m, e.1 ≠ k) :
    smGet d (smInsert k v m) k = v := by
  induction m with
  | nil => simp [smInsert, smGet]
  | cons e r ih =>
    obtain ⟨j, w⟩ := e
    have hj : j ≠ k := h (j, w) (by simp)
    by_cases hk : k < j
    · simp [smInsert, hk, smGet]
    · simp [smInsert, hk, smGet, hj, ih (fun e he => h e (by simp [he]))]

theorem smGet_insert_ne (d : Nat → α) {k i : Nat} (v : α) (m : SMap α) (h : i ≠ k) :
    smGet d (smInsert k v m) i = smGet d m i := by
  induction m with
  | nil => simp [smInsert, smGet, Ne.symm h]
  | cons e r ih =>
    obtain ⟨j, w⟩ := e
    by_cases hk : k < j
    · simp [smInsert, hk, smGet, Ne.symm h]
    · simp only [smInsert, hk, if_false, smGet, ih]

theorem smGet_filter_ne (d : Nat → α) {k i : Nat} (m : SMap α) (h : i ≠ k) :
    smGet d (m.filter (fun e => e.1 != k)) i = smGet d m i := by
  induction m with
  | nil => rfl
  | cons e r ih =>
    obtain ⟨j, w⟩ := e
    by_cases hj : j = k
    · subst hj; simp [smGet, Ne.symm h, ih]
    · simp [smGet, hj, ih]

theorem smGet_filter_self (d : Nat → α) (k : Nat) (m : SMap α) :
    smGet d (m.filter (fun e => e.1 != k)) k = d k := by
  induction m with
  | nil => rfl
  | cons e r ih =>
    obtain ⟨j, w⟩ := e
    by_cases hj : j = k
    · subst hj; simp [ih]
    · simp [smGet, hj, ih]

/-- A read after a write to the same key gives the value written. -/
@[simp] theorem smGet_smSet_self [DecidableEq α] (d : Nat → α) (m : SMap α) (k : Nat) (v : α) :
    smGet d (smSet d m k v) k = v := by
  unfold smSet
  by_cases h : v = d k
  · rw [if_pos h, smGet_filter_self, h]
  · simp only [if_neg h]
    exact smGet_insert_self d k v _ (fun e he => by simpa using (List.mem_filter.1 he).2)

/-- A write leaves every other key alone. -/
theorem smGet_smSet_ne [DecidableEq α] (d : Nat → α) (m : SMap α) {k i : Nat} (v : α) (h : i ≠ k) :
    smGet d (smSet d m k v) i = smGet d m i := by
  unfold smSet
  by_cases hv : v = d k
  · simp only [if_pos hv, smGet_filter_ne d m h]
  · simp only [if_neg hv, smGet_insert_ne d v _ h, smGet_filter_ne d m h]

/-! ## The canonical form -/

theorem smRising_mono {lo lo' : Nat} (h : lo' ≤ lo) : ∀ {m : SMap α}, smRising lo m = true → smRising lo' m = true
  | [], _ => rfl
  | (k, _) :: _, hm => by
    simp only [smRising, Bool.and_eq_true, decide_eq_true_eq] at hm ⊢
    exact ⟨by omega, hm.2⟩

theorem smRising_filter (p : Nat × α → Bool) : ∀ {lo : Nat} {m : SMap α}, smRising lo m = true → smRising lo (m.filter p) = true
  | _, [], _ => rfl
  | lo, e :: r, hm => by
    obtain ⟨k, w⟩ := e
    simp only [smRising, Bool.and_eq_true, decide_eq_true_eq] at hm
    by_cases hp : p (k, w)
    · simp only [List.filter_cons, hp, if_true, smRising, Bool.and_eq_true, decide_eq_true_eq]
      exact ⟨hm.1, smRising_filter p hm.2⟩
    · simp only [List.filter_cons, hp]
      exact smRising_mono (by omega) (smRising_filter p hm.2)

theorem smRising_insert (k : Nat) (v : α) : ∀ {lo : Nat} {m : SMap α}, smRising lo m = true → lo ≤ k → (∀ e ∈ m, e.1 ≠ k) →
    smRising lo (smInsert k v m) = true
  | lo, [], _, hk, _ => by simp [smInsert, smRising, hk]
  | lo, (j, w) :: r, hm, hk, hne => by
    simp only [smRising, Bool.and_eq_true, decide_eq_true_eq] at hm
    have hj : j ≠ k := hne (j, w) (by simp)
    by_cases h : k < j
    · simp only [smInsert, h, if_true, smRising, Bool.and_eq_true, decide_eq_true_eq]
      exact ⟨hk, by omega, hm.2⟩
    · simp only [smInsert, h, if_false, smRising, Bool.and_eq_true, decide_eq_true_eq]
      exact ⟨hm.1, smRising_insert k v hm.2 (by omega) (fun e he => hne e (by simp [he]))⟩

theorem mem_smInsert (k : Nat) (v : α) (m : SMap α) (e : Nat × α) (h : e ∈ smInsert k v m) : e = (k, v) ∨ e ∈ m := by
  induction m with
  | nil => simpa [smInsert] using h
  | cons a r ih =>
    obtain ⟨j, w⟩ := a
    by_cases hk : k < j
    · simpa [smInsert, hk] using h
    · simp only [smInsert, hk, if_false, List.mem_cons] at h ⊢
      rcases h with h | h
      · exact .inr (.inl h)
      · rcases ih h with h | h
        · exact .inl h
        · exact .inr (.inr h)

/-- A write keeps the canonical form: keys rising, nothing listed that equals its default. -/
theorem smSet_wf [DecidableEq α] (d : Nat → α) (m : SMap α) (k : Nat) (v : α) (h : smWf d m = true) : smWf d (smSet d m k v) = true := by
  simp only [smWf, Bool.and_eq_true, List.all_eq_true] at h ⊢
  have hr : smRising 0 (m.filter (fun e => e.1 != k)) = true := smRising_filter _ h.1
  have ha : ∀ e ∈ m.filter (fun e => e.1 != k), decide (e.2 ≠ d e.1) = true := fun e he => h.2 e (List.mem_filter.1 he).1
  unfold smSet
  by_cases hv : v = d k
  · simp only [if_pos hv]; exact ⟨hr, ha⟩
  · simp only [if_neg hv]
    refine ⟨smRising_insert k v hr (by omega) (fun e he => by simpa using (List.mem_filter.1 he).2), fun e he => ?_⟩
    rcases mem_smInsert k v _ e he with rfl | he
    · simpa using hv
    · exact ha e he

theorem smDrop_wf [DecidableEq α] (d : Nat → α) (p : Nat → Bool) (m : SMap α) (h : smWf d m = true) : smWf d (smDrop p m) = true := by
  simp only [smWf, smDrop, Bool.and_eq_true, List.all_eq_true] at h ⊢
  exact ⟨smRising_filter _ h.1, fun e he => h.2 e (List.mem_filter.1 he).1⟩

theorem smWf_nil [DecidableEq α] (d : Nat → α) : smWf d ([] : SMap α) = true := rfl

end Sys2Proof.Laws
end

