-- ==== Sys2Proof/Laws/State.lean ====
section
/-! SUPPORT. Small laws of the named updates of the part: what each leaves alone, field by field. -/
namespace Sys2Proof.Laws
open Machine

/-! ### setReg -/

@[simp] theorem setReg_grade (d : Dev) (a : Nat) (w : Word) : (d.setReg a w).grade = d.grade := (rfl)
@[simp] theorem setReg_top (d : Dev) (a : Nat) (w : Word) : (d.setReg a w).top = d.top := (rfl)
@[simp] theorem setReg_hdr (d : Dev) (a : Nat) (w : Word) : (d.setReg a w).hdr = d.hdr := (rfl)
@[simp] theorem setReg_latched (d : Dev) (a : Nat) (w : Word) : (d.setReg a w).latched = d.latched := (rfl)
@[simp] theorem setReg_ev (d : Dev) (a : Nat) (w : Word) : (d.setReg a w).ev = d.ev := (rfl)
@[simp] theorem setReg_lastEv (d : Dev) (a : Nat) (w : Word) : (d.setReg a w).lastEv = d.lastEv := (rfl)
@[simp] theorem setReg_hre (d : Dev) (a : Nat) (w : Word) : (d.setReg a w).hre = d.hre := (rfl)
@[simp] theorem setReg_tabs (d : Dev) (a : Nat) (w : Word) : (d.setReg a w).tabs = d.tabs := (rfl)
@[simp] theorem setReg_hostMem (d : Dev) (a : Nat) (w : Word) : (d.setReg a w).hostMem = d.hostMem := (rfl)
@[simp] theorem setReg_dram (d : Dev) (a : Nat) (w : Word) : (d.setReg a w).dram = d.dram := (rfl)
@[simp] theorem setReg_localMem (d : Dev) (a : Nat) (w : Word) : (d.setReg a w).localMem = d.localMem := (rfl)
@[simp] theorem setReg_bus (d : Dev) (a : Nat) (w : Word) : (d.setReg a w).bus = d.bus := (rfl)
@[simp] theorem setReg_dmc (d : Dev) (a : Nat) (w : Word) : (d.setReg a w).dmc = d.dmc := (rfl)
@[simp] theorem setReg_pwr (d : Dev) (a : Nat) (w : Word) : (d.setReg a w).pwr = d.pwr := (rfl)
@[simp] theorem setReg_pin (d : Dev) (a : Nat) (w : Word) : (d.setReg a w).pin = d.pin := (rfl)
@[simp] theorem setReg_boot (d : Dev) (a : Nat) (w : Word) : (d.setReg a w).boot = d.boot := (rfl)
@[simp] theorem setReg_free (d : Dev) (a : Nat) (w : Word) : (d.setReg a w).free = d.free := (rfl)
@[simp] theorem setReg_obj (d : Dev) (a : Nat) (w : Word) : (d.setReg a w).obj = d.obj := (rfl)
@[simp] theorem setReg_xpt (d : Dev) (a : Nat) (w : Word) : (d.setReg a w).xpt = d.xpt := (rfl)
@[simp] theorem setReg_mtr (d : Dev) (a : Nat) (w : Word) : (d.setReg a w).mtr = d.mtr := (rfl)
@[simp] theorem setReg_out (d : Dev) (a : Nat) (w : Word) : (d.setReg a w).out = d.out := (rfl)
@[simp] theorem setReg_tbu (d : Dev) (a : Nat) (w : Word) : (d.setReg a w).tbu = d.tbu := (rfl)
@[simp] theorem setReg_sap (d : Dev) (a : Nat) (w : Word) : (d.setReg a w).sap = d.sap := (rfl)
@[simp] theorem setReg_slp (d : Dev) (a : Nat) (w : Word) : (d.setReg a w).slp = d.slp := (rfl)
@[simp] theorem setReg_str (d : Dev) (a : Nat) (w : Word) : (d.setReg a w).str = d.str := (rfl)
@[simp] theorem setReg_eth (d : Dev) (a : Nat) (w : Word) : (d.setReg a w).eth = d.eth := (rfl)
@[simp] theorem setReg_tth (d : Dev) (a : Nat) (w : Word) : (d.setReg a w).tth = d.tth := (rfl)
@[simp] theorem setReg_dsp (d : Dev) (a : Nat) (w : Word) : (d.setReg a w).dsp = d.dsp := (rfl)
@[simp] theorem setReg_fmn (d : Dev) (a : Nat) (w : Word) : (d.setReg a w).fmn = d.fmn := (rfl)
@[simp] theorem setReg_ref (d : Dev) (a : Nat) (w : Word) : (d.setReg a w).ref = d.ref := (rfl)
@[simp] theorem setReg_banks (d : Dev) (a : Nat) (w : Word) : (d.setReg a w).banks = d.banks := (rfl)
@[simp] theorem setReg_cfg (d : Dev) (a : Nat) (w : Word) : (d.setReg a w).cfg = d.cfg := (rfl)
@[simp] theorem setReg_jtag (d : Dev) (a : Nat) (w : Word) : (d.setReg a w).jtag = d.jtag := (rfl)

/-! ### setFld -/

@[simp] theorem setFld_grade (d : Dev) (f : Field) (v : Nat) : (d.setFld f v).grade = d.grade := (rfl)
@[simp] theorem setFld_top (d : Dev) (f : Field) (v : Nat) : (d.setFld f v).top = d.top := (rfl)
@[simp] theorem setFld_hdr (d : Dev) (f : Field) (v : Nat) : (d.setFld f v).hdr = d.hdr := (rfl)
@[simp] theorem setFld_latched (d : Dev) (f : Field) (v : Nat) : (d.setFld f v).latched = d.latched := (rfl)
@[simp] theorem setFld_ev (d : Dev) (f : Field) (v : Nat) : (d.setFld f v).ev = d.ev := (rfl)
@[simp] theorem setFld_lastEv (d : Dev) (f : Field) (v : Nat) : (d.setFld f v).lastEv = d.lastEv := (rfl)
@[simp] theorem setFld_hre (d : Dev) (f : Field) (v : Nat) : (d.setFld f v).hre = d.hre := (rfl)
@[simp] theorem setFld_tabs (d : Dev) (f : Field) (v : Nat) : (d.setFld f v).tabs = d.tabs := (rfl)
@[simp] theorem setFld_hostMem (d : Dev) (f : Field) (v : Nat) : (d.setFld f v).hostMem = d.hostMem := (rfl)
@[simp] theorem setFld_dram (d : Dev) (f : Field) (v : Nat) : (d.setFld f v).dram = d.dram := (rfl)
@[simp] theorem setFld_localMem (d : Dev) (f : Field) (v : Nat) : (d.setFld f v).localMem = d.localMem := (rfl)
@[simp] theorem setFld_bus (d : Dev) (f : Field) (v : Nat) : (d.setFld f v).bus = d.bus := (rfl)
@[simp] theorem setFld_dmc (d : Dev) (f : Field) (v : Nat) : (d.setFld f v).dmc = d.dmc := (rfl)
@[simp] theorem setFld_pwr (d : Dev) (f : Field) (v : Nat) : (d.setFld f v).pwr = d.pwr := (rfl)
@[simp] theorem setFld_pin (d : Dev) (f : Field) (v : Nat) : (d.setFld f v).pin = d.pin := (rfl)
@[simp] theorem setFld_boot (d : Dev) (f : Field) (v : Nat) : (d.setFld f v).boot = d.boot := (rfl)
@[simp] theorem setFld_free (d : Dev) (f : Field) (v : Nat) : (d.setFld f v).free = d.free := (rfl)
@[simp] theorem setFld_obj (d : Dev) (f : Field) (v : Nat) : (d.setFld f v).obj = d.obj := (rfl)
@[simp] theorem setFld_xpt (d : Dev) (f : Field) (v : Nat) : (d.setFld f v).xpt = d.xpt := (rfl)
@[simp] theorem setFld_mtr (d : Dev) (f : Field) (v : Nat) : (d.setFld f v).mtr = d.mtr := (rfl)
@[simp] theorem setFld_out (d : Dev) (f : Field) (v : Nat) : (d.setFld f v).out = d.out := (rfl)
@[simp] theorem setFld_tbu (d : Dev) (f : Field) (v : Nat) : (d.setFld f v).tbu = d.tbu := (rfl)
@[simp] theorem setFld_sap (d : Dev) (f : Field) (v : Nat) : (d.setFld f v).sap = d.sap := (rfl)
@[simp] theorem setFld_slp (d : Dev) (f : Field) (v : Nat) : (d.setFld f v).slp = d.slp := (rfl)
@[simp] theorem setFld_str (d : Dev) (f : Field) (v : Nat) : (d.setFld f v).str = d.str := (rfl)
@[simp] theorem setFld_eth (d : Dev) (f : Field) (v : Nat) : (d.setFld f v).eth = d.eth := (rfl)
@[simp] theorem setFld_tth (d : Dev) (f : Field) (v : Nat) : (d.setFld f v).tth = d.tth := (rfl)
@[simp] theorem setFld_dsp (d : Dev) (f : Field) (v : Nat) : (d.setFld f v).dsp = d.dsp := (rfl)
@[simp] theorem setFld_fmn (d : Dev) (f : Field) (v : Nat) : (d.setFld f v).fmn = d.fmn := (rfl)
@[simp] theorem setFld_ref (d : Dev) (f : Field) (v : Nat) : (d.setFld f v).ref = d.ref := (rfl)
@[simp] theorem setFld_banks (d : Dev) (f : Field) (v : Nat) : (d.setFld f v).banks = d.banks := (rfl)
@[simp] theorem setFld_cfg (d : Dev) (f : Field) (v : Nat) : (d.setFld f v).cfg = d.cfg := (rfl)
@[simp] theorem setFld_jtag (d : Dev) (f : Field) (v : Nat) : (d.setFld f v).jtag = d.jtag := (rfl)

/-! ### latchReg -/

@[simp] theorem latchReg_grade (d : Dev) (a : Nat) : (d.latchReg a).grade = d.grade := (rfl)
@[simp] theorem latchReg_top (d : Dev) (a : Nat) : (d.latchReg a).top = d.top := (rfl)
@[simp] theorem latchReg_hdr (d : Dev) (a : Nat) : (d.latchReg a).hdr = d.hdr := (rfl)
@[simp] theorem latchReg_regs (d : Dev) (a : Nat) : (d.latchReg a).regs = d.regs := (rfl)
@[simp] theorem latchReg_ev (d : Dev) (a : Nat) : (d.latchReg a).ev = d.ev := (rfl)
@[simp] theorem latchReg_lastEv (d : Dev) (a : Nat) : (d.latchReg a).lastEv = d.lastEv := (rfl)
@[simp] theorem latchReg_hre (d : Dev) (a : Nat) : (d.latchReg a).hre = d.hre := (rfl)
@[simp] theorem latchReg_tabs (d : Dev) (a : Nat) : (d.latchReg a).tabs = d.tabs := (rfl)
@[simp] theorem latchReg_hostMem (d : Dev) (a : Nat) : (d.latchReg a).hostMem = d.hostMem := (rfl)
@[simp] theorem latchReg_dram (d : Dev) (a : Nat) : (d.latchReg a).dram = d.dram := (rfl)
@[simp] theorem latchReg_localMem (d : Dev) (a : Nat) : (d.latchReg a).localMem = d.localMem := (rfl)
@[simp] theorem latchReg_bus (d : Dev) (a : Nat) : (d.latchReg a).bus = d.bus := (rfl)
@[simp] theorem latchReg_dmc (d : Dev) (a : Nat) : (d.latchReg a).dmc = d.dmc := (rfl)
@[simp] theorem latchReg_pwr (d : Dev) (a : Nat) : (d.latchReg a).pwr = d.pwr := (rfl)
@[simp] theorem latchReg_pin (d : Dev) (a : Nat) : (d.latchReg a).pin = d.pin := (rfl)
@[simp] theorem latchReg_boot (d : Dev) (a : Nat) : (d.latchReg a).boot = d.boot := (rfl)
@[simp] theorem latchReg_free (d : Dev) (a : Nat) : (d.latchReg a).free = d.free := (rfl)
@[simp] theorem latchReg_obj (d : Dev) (a : Nat) : (d.latchReg a).obj = d.obj := (rfl)
@[simp] theorem latchReg_xpt (d : Dev) (a : Nat) : (d.latchReg a).xpt = d.xpt := (rfl)
@[simp] theorem latchReg_mtr (d : Dev) (a : Nat) : (d.latchReg a).mtr = d.mtr := (rfl)
@[simp] theorem latchReg_out (d : Dev) (a : Nat) : (d.latchReg a).out = d.out := (rfl)
@[simp] theorem latchReg_tbu (d : Dev) (a : Nat) : (d.latchReg a).tbu = d.tbu := (rfl)
@[simp] theorem latchReg_sap (d : Dev) (a : Nat) : (d.latchReg a).sap = d.sap := (rfl)
@[simp] theorem latchReg_slp (d : Dev) (a : Nat) : (d.latchReg a).slp = d.slp := (rfl)
@[simp] theorem latchReg_str (d : Dev) (a : Nat) : (d.latchReg a).str = d.str := (rfl)
@[simp] theorem latchReg_eth (d : Dev) (a : Nat) : (d.latchReg a).eth = d.eth := (rfl)
@[simp] theorem latchReg_tth (d : Dev) (a : Nat) : (d.latchReg a).tth = d.tth := (rfl)
@[simp] theorem latchReg_dsp (d : Dev) (a : Nat) : (d.latchReg a).dsp = d.dsp := (rfl)
@[simp] theorem latchReg_fmn (d : Dev) (a : Nat) : (d.latchReg a).fmn = d.fmn := (rfl)
@[simp] theorem latchReg_ref (d : Dev) (a : Nat) : (d.latchReg a).ref = d.ref := (rfl)
@[simp] theorem latchReg_banks (d : Dev) (a : Nat) : (d.latchReg a).banks = d.banks := (rfl)
@[simp] theorem latchReg_cfg (d : Dev) (a : Nat) : (d.latchReg a).cfg = d.cfg := (rfl)
@[simp] theorem latchReg_jtag (d : Dev) (a : Nat) : (d.latchReg a).jtag = d.jtag := (rfl)

/-! ### setHd -/

@[simp] theorem setHd_grade (d : Dev) (b : Nat) (h : Hdr) : (d.setHd b h).grade = d.grade := (rfl)
@[simp] theorem setHd_top (d : Dev) (b : Nat) (h : Hdr) : (d.setHd b h).top = d.top := (rfl)
@[simp] theorem setHd_regs (d : Dev) (b : Nat) (h : Hdr) : (d.setHd b h).regs = d.regs := (rfl)
@[simp] theorem setHd_latched (d : Dev) (b : Nat) (h : Hdr) : (d.setHd b h).latched = d.latched := (rfl)
@[simp] theorem setHd_ev (d : Dev) (b : Nat) (h : Hdr) : (d.setHd b h).ev = d.ev := (rfl)
@[simp] theorem setHd_lastEv (d : Dev) (b : Nat) (h : Hdr) : (d.setHd b h).lastEv = d.lastEv := (rfl)
@[simp] theorem setHd_hre (d : Dev) (b : Nat) (h : Hdr) : (d.setHd b h).hre = d.hre := (rfl)
@[simp] theorem setHd_tabs (d : Dev) (b : Nat) (h : Hdr) : (d.setHd b h).tabs = d.tabs := (rfl)
@[simp] theorem setHd_hostMem (d : Dev) (b : Nat) (h : Hdr) : (d.setHd b h).hostMem = d.hostMem := (rfl)
@[simp] theorem setHd_dram (d : Dev) (b : Nat) (h : Hdr) : (d.setHd b h).dram = d.dram := (rfl)
@[simp] theorem setHd_localMem (d : Dev) (b : Nat) (h : Hdr) : (d.setHd b h).localMem = d.localMem := (rfl)
@[simp] theorem setHd_bus (d : Dev) (b : Nat) (h : Hdr) : (d.setHd b h).bus = d.bus := (rfl)
@[simp] theorem setHd_dmc (d : Dev) (b : Nat) (h : Hdr) : (d.setHd b h).dmc = d.dmc := (rfl)
@[simp] theorem setHd_pwr (d : Dev) (b : Nat) (h : Hdr) : (d.setHd b h).pwr = d.pwr := (rfl)
@[simp] theorem setHd_pin (d : Dev) (b : Nat) (h : Hdr) : (d.setHd b h).pin = d.pin := (rfl)
@[simp] theorem setHd_boot (d : Dev) (b : Nat) (h : Hdr) : (d.setHd b h).boot = d.boot := (rfl)
@[simp] theorem setHd_free (d : Dev) (b : Nat) (h : Hdr) : (d.setHd b h).free = d.free := (rfl)
@[simp] theorem setHd_obj (d : Dev) (b : Nat) (h : Hdr) : (d.setHd b h).obj = d.obj := (rfl)
@[simp] theorem setHd_xpt (d : Dev) (b : Nat) (h : Hdr) : (d.setHd b h).xpt = d.xpt := (rfl)
@[simp] theorem setHd_mtr (d : Dev) (b : Nat) (h : Hdr) : (d.setHd b h).mtr = d.mtr := (rfl)
@[simp] theorem setHd_out (d : Dev) (b : Nat) (h : Hdr) : (d.setHd b h).out = d.out := (rfl)
@[simp] theorem setHd_tbu (d : Dev) (b : Nat) (h : Hdr) : (d.setHd b h).tbu = d.tbu := (rfl)
@[simp] theorem setHd_sap (d : Dev) (b : Nat) (h : Hdr) : (d.setHd b h).sap = d.sap := (rfl)
@[simp] theorem setHd_slp (d : Dev) (b : Nat) (h : Hdr) : (d.setHd b h).slp = d.slp := (rfl)
@[simp] theorem setHd_str (d : Dev) (b : Nat) (h : Hdr) : (d.setHd b h).str = d.str := (rfl)
@[simp] theorem setHd_eth (d : Dev) (b : Nat) (h : Hdr) : (d.setHd b h).eth = d.eth := (rfl)
@[simp] theorem setHd_tth (d : Dev) (b : Nat) (h : Hdr) : (d.setHd b h).tth = d.tth := (rfl)
@[simp] theorem setHd_dsp (d : Dev) (b : Nat) (h : Hdr) : (d.setHd b h).dsp = d.dsp := (rfl)
@[simp] theorem setHd_fmn (d : Dev) (b : Nat) (h : Hdr) : (d.setHd b h).fmn = d.fmn := (rfl)
@[simp] theorem setHd_ref (d : Dev) (b : Nat) (h : Hdr) : (d.setHd b h).ref = d.ref := (rfl)
@[simp] theorem setHd_banks (d : Dev) (b : Nat) (h : Hdr) : (d.setHd b h).banks = d.banks := (rfl)
@[simp] theorem setHd_cfg (d : Dev) (b : Nat) (h : Hdr) : (d.setHd b h).cfg = d.cfg := (rfl)
@[simp] theorem setHd_jtag (d : Dev) (b : Nat) (h : Hdr) : (d.setHd b h).jtag = d.jtag := (rfl)

/-! ### setTab -/

@[simp] theorem setTab_grade (d : Dev) (t : Nat) (v : Tab) : (d.setTab t v).grade = d.grade := (rfl)
@[simp] theorem setTab_top (d : Dev) (t : Nat) (v : Tab) : (d.setTab t v).top = d.top := (rfl)
@[simp] theorem setTab_hdr (d : Dev) (t : Nat) (v : Tab) : (d.setTab t v).hdr = d.hdr := (rfl)
@[simp] theorem setTab_regs (d : Dev) (t : Nat) (v : Tab) : (d.setTab t v).regs = d.regs := (rfl)
@[simp] theorem setTab_latched (d : Dev) (t : Nat) (v : Tab) : (d.setTab t v).latched = d.latched := (rfl)
@[simp] theorem setTab_ev (d : Dev) (t : Nat) (v : Tab) : (d.setTab t v).ev = d.ev := (rfl)
@[simp] theorem setTab_lastEv (d : Dev) (t : Nat) (v : Tab) : (d.setTab t v).lastEv = d.lastEv := (rfl)
@[simp] theorem setTab_hre (d : Dev) (t : Nat) (v : Tab) : (d.setTab t v).hre = d.hre := (rfl)
@[simp] theorem setTab_hostMem (d : Dev) (t : Nat) (v : Tab) : (d.setTab t v).hostMem = d.hostMem := (rfl)
@[simp] theorem setTab_dram (d : Dev) (t : Nat) (v : Tab) : (d.setTab t v).dram = d.dram := (rfl)
@[simp] theorem setTab_localMem (d : Dev) (t : Nat) (v : Tab) : (d.setTab t v).localMem = d.localMem := (rfl)
@[simp] theorem setTab_bus (d : Dev) (t : Nat) (v : Tab) : (d.setTab t v).bus = d.bus := (rfl)
@[simp] theorem setTab_dmc (d : Dev) (t : Nat) (v : Tab) : (d.setTab t v).dmc = d.dmc := (rfl)
@[simp] theorem setTab_pwr (d : Dev) (t : Nat) (v : Tab) : (d.setTab t v).pwr = d.pwr := (rfl)
@[simp] theorem setTab_pin (d : Dev) (t : Nat) (v : Tab) : (d.setTab t v).pin = d.pin := (rfl)
@[simp] theorem setTab_boot (d : Dev) (t : Nat) (v : Tab) : (d.setTab t v).boot = d.boot := (rfl)
@[simp] theorem setTab_free (d : Dev) (t : Nat) (v : Tab) : (d.setTab t v).free = d.free := (rfl)
@[simp] theorem setTab_obj (d : Dev) (t : Nat) (v : Tab) : (d.setTab t v).obj = d.obj := (rfl)
@[simp] theorem setTab_xpt (d : Dev) (t : Nat) (v : Tab) : (d.setTab t v).xpt = d.xpt := (rfl)
@[simp] theorem setTab_mtr (d : Dev) (t : Nat) (v : Tab) : (d.setTab t v).mtr = d.mtr := (rfl)
@[simp] theorem setTab_out (d : Dev) (t : Nat) (v : Tab) : (d.setTab t v).out = d.out := (rfl)
@[simp] theorem setTab_tbu (d : Dev) (t : Nat) (v : Tab) : (d.setTab t v).tbu = d.tbu := (rfl)
@[simp] theorem setTab_sap (d : Dev) (t : Nat) (v : Tab) : (d.setTab t v).sap = d.sap := (rfl)
@[simp] theorem setTab_slp (d : Dev) (t : Nat) (v : Tab) : (d.setTab t v).slp = d.slp := (rfl)
@[simp] theorem setTab_str (d : Dev) (t : Nat) (v : Tab) : (d.setTab t v).str = d.str := (rfl)
@[simp] theorem setTab_eth (d : Dev) (t : Nat) (v : Tab) : (d.setTab t v).eth = d.eth := (rfl)
@[simp] theorem setTab_tth (d : Dev) (t : Nat) (v : Tab) : (d.setTab t v).tth = d.tth := (rfl)
@[simp] theorem setTab_dsp (d : Dev) (t : Nat) (v : Tab) : (d.setTab t v).dsp = d.dsp := (rfl)
@[simp] theorem setTab_fmn (d : Dev) (t : Nat) (v : Tab) : (d.setTab t v).fmn = d.fmn := (rfl)
@[simp] theorem setTab_ref (d : Dev) (t : Nat) (v : Tab) : (d.setTab t v).ref = d.ref := (rfl)
@[simp] theorem setTab_banks (d : Dev) (t : Nat) (v : Tab) : (d.setTab t v).banks = d.banks := (rfl)
@[simp] theorem setTab_cfg (d : Dev) (t : Nat) (v : Tab) : (d.setTab t v).cfg = d.cfg := (rfl)
@[simp] theorem setTab_jtag (d : Dev) (t : Nat) (v : Tab) : (d.setTab t v).jtag = d.jtag := (rfl)

/-! ### hostWrite -/

@[simp] theorem hostWrite_grade (d : Dev) (a : Nat) (l : List Nat) : (d.hostWrite a l).grade = d.grade := (rfl)
@[simp] theorem hostWrite_top (d : Dev) (a : Nat) (l : List Nat) : (d.hostWrite a l).top = d.top := (rfl)
@[simp] theorem hostWrite_hdr (d : Dev) (a : Nat) (l : List Nat) : (d.hostWrite a l).hdr = d.hdr := (rfl)
@[simp] theorem hostWrite_regs (d : Dev) (a : Nat) (l : List Nat) : (d.hostWrite a l).regs = d.regs := (rfl)
@[simp] theorem hostWrite_latched (d : Dev) (a : Nat) (l : List Nat) : (d.hostWrite a l).latched = d.latched := (rfl)
@[simp] theorem hostWrite_ev (d : Dev) (a : Nat) (l : List Nat) : (d.hostWrite a l).ev = d.ev := (rfl)
@[simp] theorem hostWrite_lastEv (d : Dev) (a : Nat) (l : List Nat) : (d.hostWrite a l).lastEv = d.lastEv := (rfl)
@[simp] theorem hostWrite_hre (d : Dev) (a : Nat) (l : List Nat) : (d.hostWrite a l).hre = d.hre := (rfl)
@[simp] theorem hostWrite_tabs (d : Dev) (a : Nat) (l : List Nat) : (d.hostWrite a l).tabs = d.tabs := (rfl)
@[simp] theorem hostWrite_dram (d : Dev) (a : Nat) (l : List Nat) : (d.hostWrite a l).dram = d.dram := (rfl)
@[simp] theorem hostWrite_localMem (d : Dev) (a : Nat) (l : List Nat) : (d.hostWrite a l).localMem = d.localMem := (rfl)
@[simp] theorem hostWrite_bus (d : Dev) (a : Nat) (l : List Nat) : (d.hostWrite a l).bus = d.bus := (rfl)
@[simp] theorem hostWrite_dmc (d : Dev) (a : Nat) (l : List Nat) : (d.hostWrite a l).dmc = d.dmc := (rfl)
@[simp] theorem hostWrite_pwr (d : Dev) (a : Nat) (l : List Nat) : (d.hostWrite a l).pwr = d.pwr := (rfl)
@[simp] theorem hostWrite_pin (d : Dev) (a : Nat) (l : List Nat) : (d.hostWrite a l).pin = d.pin := (rfl)
@[simp] theorem hostWrite_boot (d : Dev) (a : Nat) (l : List Nat) : (d.hostWrite a l).boot = d.boot := (rfl)
@[simp] theorem hostWrite_free (d : Dev) (a : Nat) (l : List Nat) : (d.hostWrite a l).free = d.free := (rfl)
@[simp] theorem hostWrite_obj (d : Dev) (a : Nat) (l : List Nat) : (d.hostWrite a l).obj = d.obj := (rfl)
@[simp] theorem hostWrite_xpt (d : Dev) (a : Nat) (l : List Nat) : (d.hostWrite a l).xpt = d.xpt := (rfl)
@[simp] theorem hostWrite_mtr (d : Dev) (a : Nat) (l : List Nat) : (d.hostWrite a l).mtr = d.mtr := (rfl)
@[simp] theorem hostWrite_out (d : Dev) (a : Nat) (l : List Nat) : (d.hostWrite a l).out = d.out := (rfl)
@[simp] theorem hostWrite_tbu (d : Dev) (a : Nat) (l : List Nat) : (d.hostWrite a l).tbu = d.tbu := (rfl)
@[simp] theorem hostWrite_sap (d : Dev) (a : Nat) (l : List Nat) : (d.hostWrite a l).sap = d.sap := (rfl)
@[simp] theorem hostWrite_slp (d : Dev) (a : Nat) (l : List Nat) : (d.hostWrite a l).slp = d.slp := (rfl)
@[simp] theorem hostWrite_str (d : Dev) (a : Nat) (l : List Nat) : (d.hostWrite a l).str = d.str := (rfl)
@[simp] theorem hostWrite_eth (d : Dev) (a : Nat) (l : List Nat) : (d.hostWrite a l).eth = d.eth := (rfl)
@[simp] theorem hostWrite_tth (d : Dev) (a : Nat) (l : List Nat) : (d.hostWrite a l).tth = d.tth := (rfl)
@[simp] theorem hostWrite_dsp (d : Dev) (a : Nat) (l : List Nat) : (d.hostWrite a l).dsp = d.dsp := (rfl)
@[simp] theorem hostWrite_fmn (d : Dev) (a : Nat) (l : List Nat) : (d.hostWrite a l).fmn = d.fmn := (rfl)
@[simp] theorem hostWrite_ref (d : Dev) (a : Nat) (l : List Nat) : (d.hostWrite a l).ref = d.ref := (rfl)
@[simp] theorem hostWrite_banks (d : Dev) (a : Nat) (l : List Nat) : (d.hostWrite a l).banks = d.banks := (rfl)
@[simp] theorem hostWrite_cfg (d : Dev) (a : Nat) (l : List Nat) : (d.hostWrite a l).cfg = d.cfg := (rfl)
@[simp] theorem hostWrite_jtag (d : Dev) (a : Nat) (l : List Nat) : (d.hostWrite a l).jtag = d.jtag := (rfl)

/-! ### drew -/

@[simp] theorem drew_grade (d : Dev) (k : Nat) : (d.drew k).grade = d.grade := (rfl)
@[simp] theorem drew_top (d : Dev) (k : Nat) : (d.drew k).top = d.top := (rfl)
@[simp] theorem drew_hdr (d : Dev) (k : Nat) : (d.drew k).hdr = d.hdr := (rfl)
@[simp] theorem drew_regs (d : Dev) (k : Nat) : (d.drew k).regs = d.regs := (rfl)
@[simp] theorem drew_latched (d : Dev) (k : Nat) : (d.drew k).latched = d.latched := (rfl)
@[simp] theorem drew_ev (d : Dev) (k : Nat) : (d.drew k).ev = d.ev := (rfl)
@[simp] theorem drew_lastEv (d : Dev) (k : Nat) : (d.drew k).lastEv = d.lastEv := (rfl)
@[simp] theorem drew_hre (d : Dev) (k : Nat) : (d.drew k).hre = d.hre := (rfl)
@[simp] theorem drew_tabs (d : Dev) (k : Nat) : (d.drew k).tabs = d.tabs := (rfl)
@[simp] theorem drew_hostMem (d : Dev) (k : Nat) : (d.drew k).hostMem = d.hostMem := (rfl)
@[simp] theorem drew_dram (d : Dev) (k : Nat) : (d.drew k).dram = d.dram := (rfl)
@[simp] theorem drew_localMem (d : Dev) (k : Nat) : (d.drew k).localMem = d.localMem := (rfl)
@[simp] theorem drew_bus (d : Dev) (k : Nat) : (d.drew k).bus = d.bus := (rfl)
@[simp] theorem drew_dmc (d : Dev) (k : Nat) : (d.drew k).dmc = d.dmc := (rfl)
@[simp] theorem drew_pwr (d : Dev) (k : Nat) : (d.drew k).pwr = d.pwr := (rfl)
@[simp] theorem drew_pin (d : Dev) (k : Nat) : (d.drew k).pin = d.pin := (rfl)
@[simp] theorem drew_boot (d : Dev) (k : Nat) : (d.drew k).boot = d.boot := (rfl)
@[simp] theorem drew_obj (d : Dev) (k : Nat) : (d.drew k).obj = d.obj := (rfl)
@[simp] theorem drew_xpt (d : Dev) (k : Nat) : (d.drew k).xpt = d.xpt := (rfl)
@[simp] theorem drew_mtr (d : Dev) (k : Nat) : (d.drew k).mtr = d.mtr := (rfl)
@[simp] theorem drew_out (d : Dev) (k : Nat) : (d.drew k).out = d.out := (rfl)
@[simp] theorem drew_tbu (d : Dev) (k : Nat) : (d.drew k).tbu = d.tbu := (rfl)
@[simp] theorem drew_sap (d : Dev) (k : Nat) : (d.drew k).sap = d.sap := (rfl)
@[simp] theorem drew_slp (d : Dev) (k : Nat) : (d.drew k).slp = d.slp := (rfl)
@[simp] theorem drew_str (d : Dev) (k : Nat) : (d.drew k).str = d.str := (rfl)
@[simp] theorem drew_eth (d : Dev) (k : Nat) : (d.drew k).eth = d.eth := (rfl)
@[simp] theorem drew_tth (d : Dev) (k : Nat) : (d.drew k).tth = d.tth := (rfl)
@[simp] theorem drew_dsp (d : Dev) (k : Nat) : (d.drew k).dsp = d.dsp := (rfl)
@[simp] theorem drew_fmn (d : Dev) (k : Nat) : (d.drew k).fmn = d.fmn := (rfl)
@[simp] theorem drew_ref (d : Dev) (k : Nat) : (d.drew k).ref = d.ref := (rfl)
@[simp] theorem drew_banks (d : Dev) (k : Nat) : (d.drew k).banks = d.banks := (rfl)
@[simp] theorem drew_cfg (d : Dev) (k : Nat) : (d.drew k).cfg = d.cfg := (rfl)
@[simp] theorem drew_jtag (d : Dev) (k : Nat) : (d.drew k).jtag = d.jtag := (rfl)

/-! ### setRing -/

@[simp] theorem setRing_grade (d : Dev) (r : Nat) (x : RingS) : (d.setRing r x).grade = d.grade := (rfl)
@[simp] theorem setRing_top (d : Dev) (r : Nat) (x : RingS) : (d.setRing r x).top = d.top := (rfl)
@[simp] theorem setRing_hdr (d : Dev) (r : Nat) (x : RingS) : (d.setRing r x).hdr = d.hdr := (rfl)
@[simp] theorem setRing_regs (d : Dev) (r : Nat) (x : RingS) : (d.setRing r x).regs = d.regs := (rfl)
@[simp] theorem setRing_latched (d : Dev) (r : Nat) (x : RingS) : (d.setRing r x).latched = d.latched := (rfl)
@[simp] theorem setRing_ev (d : Dev) (r : Nat) (x : RingS) : (d.setRing r x).ev = d.ev := (rfl)
@[simp] theorem setRing_lastEv (d : Dev) (r : Nat) (x : RingS) : (d.setRing r x).lastEv = d.lastEv := (rfl)
@[simp] theorem setRing_tabs (d : Dev) (r : Nat) (x : RingS) : (d.setRing r x).tabs = d.tabs := (rfl)
@[simp] theorem setRing_hostMem (d : Dev) (r : Nat) (x : RingS) : (d.setRing r x).hostMem = d.hostMem := (rfl)
@[simp] theorem setRing_dram (d : Dev) (r : Nat) (x : RingS) : (d.setRing r x).dram = d.dram := (rfl)
@[simp] theorem setRing_localMem (d : Dev) (r : Nat) (x : RingS) : (d.setRing r x).localMem = d.localMem := (rfl)
@[simp] theorem setRing_bus (d : Dev) (r : Nat) (x : RingS) : (d.setRing r x).bus = d.bus := (rfl)
@[simp] theorem setRing_dmc (d : Dev) (r : Nat) (x : RingS) : (d.setRing r x).dmc = d.dmc := (rfl)
@[simp] theorem setRing_pwr (d : Dev) (r : Nat) (x : RingS) : (d.setRing r x).pwr = d.pwr := (rfl)
@[simp] theorem setRing_pin (d : Dev) (r : Nat) (x : RingS) : (d.setRing r x).pin = d.pin := (rfl)
@[simp] theorem setRing_boot (d : Dev) (r : Nat) (x : RingS) : (d.setRing r x).boot = d.boot := (rfl)
@[simp] theorem setRing_free (d : Dev) (r : Nat) (x : RingS) : (d.setRing r x).free = d.free := (rfl)
@[simp] theorem setRing_obj (d : Dev) (r : Nat) (x : RingS) : (d.setRing r x).obj = d.obj := (rfl)
@[simp] theorem setRing_xpt (d : Dev) (r : Nat) (x : RingS) : (d.setRing r x).xpt = d.xpt := (rfl)
@[simp] theorem setRing_mtr (d : Dev) (r : Nat) (x : RingS) : (d.setRing r x).mtr = d.mtr := (rfl)
@[simp] theorem setRing_out (d : Dev) (r : Nat) (x : RingS) : (d.setRing r x).out = d.out := (rfl)
@[simp] theorem setRing_tbu (d : Dev) (r : Nat) (x : RingS) : (d.setRing r x).tbu = d.tbu := (rfl)
@[simp] theorem setRing_sap (d : Dev) (r : Nat) (x : RingS) : (d.setRing r x).sap = d.sap := (rfl)
@[simp] theorem setRing_slp (d : Dev) (r : Nat) (x : RingS) : (d.setRing r x).slp = d.slp := (rfl)
@[simp] theorem setRing_str (d : Dev) (r : Nat) (x : RingS) : (d.setRing r x).str = d.str := (rfl)
@[simp] theorem setRing_eth (d : Dev) (r : Nat) (x : RingS) : (d.setRing r x).eth = d.eth := (rfl)
@[simp] theorem setRing_tth (d : Dev) (r : Nat) (x : RingS) : (d.setRing r x).tth = d.tth := (rfl)
@[simp] theorem setRing_dsp (d : Dev) (r : Nat) (x : RingS) : (d.setRing r x).dsp = d.dsp := (rfl)
@[simp] theorem setRing_fmn (d : Dev) (r : Nat) (x : RingS) : (d.setRing r x).fmn = d.fmn := (rfl)
@[simp] theorem setRing_ref (d : Dev) (r : Nat) (x : RingS) : (d.setRing r x).ref = d.ref := (rfl)
@[simp] theorem setRing_banks (d : Dev) (r : Nat) (x : RingS) : (d.setRing r x).banks = d.banks := (rfl)
@[simp] theorem setRing_cfg (d : Dev) (r : Nat) (x : RingS) : (d.setRing r x).cfg = d.cfg := (rfl)
@[simp] theorem setRing_jtag (d : Dev) (r : Nat) (x : RingS) : (d.setRing r x).jtag = d.jtag := (rfl)

/-! ### addFld -/

@[simp] theorem addFld_grade (d : Dev) (f : Field) (n : Nat) : (d.addFld f n).grade = d.grade := by unfold Dev.addFld; split <;> rfl
@[simp] theorem addFld_top (d : Dev) (f : Field) (n : Nat) : (d.addFld f n).top = d.top := by unfold Dev.addFld; split <;> rfl
@[simp] theorem addFld_hdr (d : Dev) (f : Field) (n : Nat) : (d.addFld f n).hdr = d.hdr := by unfold Dev.addFld; split <;> rfl
@[simp] theorem addFld_latched (d : Dev) (f : Field) (n : Nat) : (d.addFld f n).latched = d.latched := by unfold Dev.addFld; split <;> rfl
@[simp] theorem addFld_ev (d : Dev) (f : Field) (n : Nat) : (d.addFld f n).ev = d.ev := by unfold Dev.addFld; split <;> rfl
@[simp] theorem addFld_lastEv (d : Dev) (f : Field) (n : Nat) : (d.addFld f n).lastEv = d.lastEv := by unfold Dev.addFld; split <;> rfl
@[simp] theorem addFld_hre (d : Dev) (f : Field) (n : Nat) : (d.addFld f n).hre = d.hre := by unfold Dev.addFld; split <;> rfl
@[simp] theorem addFld_tabs (d : Dev) (f : Field) (n : Nat) : (d.addFld f n).tabs = d.tabs := by unfold Dev.addFld; split <;> rfl
@[simp] theorem addFld_hostMem (d : Dev) (f : Field) (n : Nat) : (d.addFld f n).hostMem = d.hostMem := by unfold Dev.addFld; split <;> rfl
@[simp] theorem addFld_dram (d : Dev) (f : Field) (n : Nat) : (d.addFld f n).dram = d.dram := by unfold Dev.addFld; split <;> rfl
@[simp] theorem addFld_localMem (d : Dev) (f : Field) (n : Nat) : (d.addFld f n).localMem = d.localMem := by unfold Dev.addFld; split <;> rfl
@[simp] theorem addFld_bus (d : Dev) (f : Field) (n : Nat) : (d.addFld f n).bus = d.bus := by unfold Dev.addFld; split <;> rfl
@[simp] theorem addFld_dmc (d : Dev) (f : Field) (n : Nat) : (d.addFld f n).dmc = d.dmc := by unfold Dev.addFld; split <;> rfl
@[simp] theorem addFld_pwr (d : Dev) (f : Field) (n : Nat) : (d.addFld f n).pwr = d.pwr := by unfold Dev.addFld; split <;> rfl
@[simp] theorem addFld_pin (d : Dev) (f : Field) (n : Nat) : (d.addFld f n).pin = d.pin := by unfold Dev.addFld; split <;> rfl
@[simp] theorem addFld_boot (d : Dev) (f : Field) (n : Nat) : (d.addFld f n).boot = d.boot := by unfold Dev.addFld; split <;> rfl
@[simp] theorem addFld_free (d : Dev) (f : Field) (n : Nat) : (d.addFld f n).free = d.free := by unfold Dev.addFld; split <;> rfl
@[simp] theorem addFld_obj (d : Dev) (f : Field) (n : Nat) : (d.addFld f n).obj = d.obj := by unfold Dev.addFld; split <;> rfl
@[simp] theorem addFld_xpt (d : Dev) (f : Field) (n : Nat) : (d.addFld f n).xpt = d.xpt := by unfold Dev.addFld; split <;> rfl
@[simp] theorem addFld_mtr (d : Dev) (f : Field) (n : Nat) : (d.addFld f n).mtr = d.mtr := by unfold Dev.addFld; split <;> rfl
@[simp] theorem addFld_out (d : Dev) (f : Field) (n : Nat) : (d.addFld f n).out = d.out := by unfold Dev.addFld; split <;> rfl
@[simp] theorem addFld_tbu (d : Dev) (f : Field) (n : Nat) : (d.addFld f n).tbu = d.tbu := by unfold Dev.addFld; split <;> rfl
@[simp] theorem addFld_sap (d : Dev) (f : Field) (n : Nat) : (d.addFld f n).sap = d.sap := by unfold Dev.addFld; split <;> rfl
@[simp] theorem addFld_slp (d : Dev) (f : Field) (n : Nat) : (d.addFld f n).slp = d.slp := by unfold Dev.addFld; split <;> rfl
@[simp] theorem addFld_str (d : Dev) (f : Field) (n : Nat) : (d.addFld f n).str = d.str := by unfold Dev.addFld; split <;> rfl
@[simp] theorem addFld_eth (d : Dev) (f : Field) (n : Nat) : (d.addFld f n).eth = d.eth := by unfold Dev.addFld; split <;> rfl
@[simp] theorem addFld_tth (d : Dev) (f : Field) (n : Nat) : (d.addFld f n).tth = d.tth := by unfold Dev.addFld; split <;> rfl
@[simp] theorem addFld_dsp (d : Dev) (f : Field) (n : Nat) : (d.addFld f n).dsp = d.dsp := by unfold Dev.addFld; split <;> rfl
@[simp] theorem addFld_fmn (d : Dev) (f : Field) (n : Nat) : (d.addFld f n).fmn = d.fmn := by unfold Dev.addFld; split <;> rfl
@[simp] theorem addFld_ref (d : Dev) (f : Field) (n : Nat) : (d.addFld f n).ref = d.ref := by unfold Dev.addFld; split <;> rfl
@[simp] theorem addFld_banks (d : Dev) (f : Field) (n : Nat) : (d.addFld f n).banks = d.banks := by unfold Dev.addFld; split <;> rfl
@[simp] theorem addFld_cfg (d : Dev) (f : Field) (n : Nat) : (d.addFld f n).cfg = d.cfg := by unfold Dev.addFld; split <;> rfl
@[simp] theorem addFld_jtag (d : Dev) (f : Field) (n : Nat) : (d.addFld f n).jtag = d.jtag := by unfold Dev.addFld; split <;> rfl

/-! ### count -/

@[simp] theorem count_grade (d : Dev) (f : Field) : (d.count f).grade = d.grade := addFld_grade d f 1
@[simp] theorem count_top (d : Dev) (f : Field) : (d.count f).top = d.top := addFld_top d f 1
@[simp] theorem count_hdr (d : Dev) (f : Field) : (d.count f).hdr = d.hdr := addFld_hdr d f 1
@[simp] theorem count_latched (d : Dev) (f : Field) : (d.count f).latched = d.latched := addFld_latched d f 1
@[simp] theorem count_ev (d : Dev) (f : Field) : (d.count f).ev = d.ev := addFld_ev d f 1
@[simp] theorem count_lastEv (d : Dev) (f : Field) : (d.count f).lastEv = d.lastEv := addFld_lastEv d f 1
@[simp] theorem count_hre (d : Dev) (f : Field) : (d.count f).hre = d.hre := addFld_hre d f 1
@[simp] theorem count_tabs (d : Dev) (f : Field) : (d.count f).tabs = d.tabs := addFld_tabs d f 1
@[simp] theorem count_hostMem (d : Dev) (f : Field) : (d.count f).hostMem = d.hostMem := addFld_hostMem d f 1
@[simp] theorem count_dram (d : Dev) (f : Field) : (d.count f).dram = d.dram := addFld_dram d f 1
@[simp] theorem count_localMem (d : Dev) (f : Field) : (d.count f).localMem = d.localMem := addFld_localMem d f 1
@[simp] theorem count_bus (d : Dev) (f : Field) : (d.count f).bus = d.bus := addFld_bus d f 1
@[simp] theorem count_dmc (d : Dev) (f : Field) : (d.count f).dmc = d.dmc := addFld_dmc d f 1
@[simp] theorem count_pwr (d : Dev) (f : Field) : (d.count f).pwr = d.pwr := addFld_pwr d f 1
@[simp] theorem count_pin (d : Dev) (f : Field) : (d.count f).pin = d.pin := addFld_pin d f 1
@[simp] theorem count_boot (d : Dev) (f : Field) : (d.count f).boot = d.boot := addFld_boot d f 1
@[simp] theorem count_free (d : Dev) (f : Field) : (d.count f).free = d.free := addFld_free d f 1
@[simp] theorem count_obj (d : Dev) (f : Field) : (d.count f).obj = d.obj := addFld_obj d f 1
@[simp] theorem count_xpt (d : Dev) (f : Field) : (d.count f).xpt = d.xpt := addFld_xpt d f 1
@[simp] theorem count_mtr (d : Dev) (f : Field) : (d.count f).mtr = d.mtr := addFld_mtr d f 1
@[simp] theorem count_out (d : Dev) (f : Field) : (d.count f).out = d.out := addFld_out d f 1
@[simp] theorem count_tbu (d : Dev) (f : Field) : (d.count f).tbu = d.tbu := addFld_tbu d f 1
@[simp] theorem count_sap (d : Dev) (f : Field) : (d.count f).sap = d.sap := addFld_sap d f 1
@[simp] theorem count_slp (d : Dev) (f : Field) : (d.count f).slp = d.slp := addFld_slp d f 1
@[simp] theorem count_str (d : Dev) (f : Field) : (d.count f).str = d.str := addFld_str d f 1
@[simp] theorem count_eth (d : Dev) (f : Field) : (d.count f).eth = d.eth := addFld_eth d f 1
@[simp] theorem count_tth (d : Dev) (f : Field) : (d.count f).tth = d.tth := addFld_tth d f 1
@[simp] theorem count_dsp (d : Dev) (f : Field) : (d.count f).dsp = d.dsp := addFld_dsp d f 1
@[simp] theorem count_fmn (d : Dev) (f : Field) : (d.count f).fmn = d.fmn := addFld_fmn d f 1
@[simp] theorem count_ref (d : Dev) (f : Field) : (d.count f).ref = d.ref := addFld_ref d f 1
@[simp] theorem count_banks (d : Dev) (f : Field) : (d.count f).banks = d.banks := addFld_banks d f 1
@[simp] theorem count_cfg (d : Dev) (f : Field) : (d.count f).cfg = d.cfg := addFld_cfg d f 1
@[simp] theorem count_jtag (d : Dev) (f : Field) : (d.count f).jtag = d.jtag := addFld_jtag d f 1

/-! ### raise -/

@[simp] theorem raise_grade (d : Dev) (f : Flag) : (d.raise f).grade = d.grade := by unfold Dev.raise; split <;> rfl
@[simp] theorem raise_top (d : Dev) (f : Flag) : (d.raise f).top = d.top := by unfold Dev.raise; split <;> rfl
@[simp] theorem raise_regs (d : Dev) (f : Flag) : (d.raise f).regs = d.regs := by unfold Dev.raise; split <;> rfl
@[simp] theorem raise_latched (d : Dev) (f : Flag) : (d.raise f).latched = d.latched := by unfold Dev.raise; split <;> rfl
@[simp] theorem raise_ev (d : Dev) (f : Flag) : (d.raise f).ev = d.ev := by unfold Dev.raise; split <;> rfl
@[simp] theorem raise_lastEv (d : Dev) (f : Flag) : (d.raise f).lastEv = d.lastEv := by unfold Dev.raise; split <;> rfl
@[simp] theorem raise_hre (d : Dev) (f : Flag) : (d.raise f).hre = d.hre := by unfold Dev.raise; split <;> rfl
@[simp] theorem raise_tabs (d : Dev) (f : Flag) : (d.raise f).tabs = d.tabs := by unfold Dev.raise; split <;> rfl
@[simp] theorem raise_hostMem (d : Dev) (f : Flag) : (d.raise f).hostMem = d.hostMem := by unfold Dev.raise; split <;> rfl
@[simp] theorem raise_dram (d : Dev) (f : Flag) : (d.raise f).dram = d.dram := by unfold Dev.raise; split <;> rfl
@[simp] theorem raise_localMem (d : Dev) (f : Flag) : (d.raise f).localMem = d.localMem := by unfold Dev.raise; split <;> rfl
@[simp] theorem raise_bus (d : Dev) (f : Flag) : (d.raise f).bus = d.bus := by unfold Dev.raise; split <;> rfl
@[simp] theorem raise_dmc (d : Dev) (f : Flag) : (d.raise f).dmc = d.dmc := by unfold Dev.raise; split <;> rfl
@[simp] theorem raise_pwr (d : Dev) (f : Flag) : (d.raise f).pwr = d.pwr := by unfold Dev.raise; split <;> rfl
@[simp] theorem raise_pin (d : Dev) (f : Flag) : (d.raise f).pin = d.pin := by unfold Dev.raise; split <;> rfl
@[simp] theorem raise_boot (d : Dev) (f : Flag) : (d.raise f).boot = d.boot := by unfold Dev.raise; split <;> rfl
@[simp] theorem raise_free (d : Dev) (f : Flag) : (d.raise f).free = d.free := by unfold Dev.raise; split <;> rfl
@[simp] theorem raise_obj (d : Dev) (f : Flag) : (d.raise f).obj = d.obj := by unfold Dev.raise; split <;> rfl
@[simp] theorem raise_xpt (d : Dev) (f : Flag) : (d.raise f).xpt = d.xpt := by unfold Dev.raise; split <;> rfl
@[simp] theorem raise_mtr (d : Dev) (f : Flag) : (d.raise f).mtr = d.mtr := by unfold Dev.raise; split <;> rfl
@[simp] theorem raise_out (d : Dev) (f : Flag) : (d.raise f).out = d.out := by unfold Dev.raise; split <;> rfl
@[simp] theorem raise_tbu (d : Dev) (f : Flag) : (d.raise f).tbu = d.tbu := by unfold Dev.raise; split <;> rfl
@[simp] theorem raise_sap (d : Dev) (f : Flag) : (d.raise f).sap = d.sap := by unfold Dev.raise; split <;> rfl
@[simp] theorem raise_slp (d : Dev) (f : Flag) : (d.raise f).slp = d.slp := by unfold Dev.raise; split <;> rfl
@[simp] theorem raise_str (d : Dev) (f : Flag) : (d.raise f).str = d.str := by unfold Dev.raise; split <;> rfl
@[simp] theorem raise_eth (d : Dev) (f : Flag) : (d.raise f).eth = d.eth := by unfold Dev.raise; split <;> rfl
@[simp] theorem raise_tth (d : Dev) (f : Flag) : (d.raise f).tth = d.tth := by unfold Dev.raise; split <;> rfl
@[simp] theorem raise_dsp (d : Dev) (f : Flag) : (d.raise f).dsp = d.dsp := by unfold Dev.raise; split <;> rfl
@[simp] theorem raise_fmn (d : Dev) (f : Flag) : (d.raise f).fmn = d.fmn := by unfold Dev.raise; split <;> rfl
@[simp] theorem raise_ref (d : Dev) (f : Flag) : (d.raise f).ref = d.ref := by unfold Dev.raise; split <;> rfl
@[simp] theorem raise_banks (d : Dev) (f : Flag) : (d.raise f).banks = d.banks := by unfold Dev.raise; split <;> rfl
@[simp] theorem raise_cfg (d : Dev) (f : Flag) : (d.raise f).cfg = d.cfg := by unfold Dev.raise; split <;> rfl
@[simp] theorem raise_jtag (d : Dev) (f : Flag) : (d.raise f).jtag = d.jtag := by unfold Dev.raise; split <;> rfl

/-! ### raiseIf -/

@[simp] theorem raiseIf_grade (d : Dev) (c : Bool) (f : Flag) : (d.raiseIf c f).grade = d.grade := by unfold Dev.raiseIf; split <;> simp
@[simp] theorem raiseIf_top (d : Dev) (c : Bool) (f : Flag) : (d.raiseIf c f).top = d.top := by unfold Dev.raiseIf; split <;> simp
@[simp] theorem raiseIf_regs (d : Dev) (c : Bool) (f : Flag) : (d.raiseIf c f).regs = d.regs := by unfold Dev.raiseIf; split <;> simp
@[simp] theorem raiseIf_latched (d : Dev) (c : Bool) (f : Flag) : (d.raiseIf c f).latched = d.latched := by unfold Dev.raiseIf; split <;> simp
@[simp] theorem raiseIf_ev (d : Dev) (c : Bool) (f : Flag) : (d.raiseIf c f).ev = d.ev := by unfold Dev.raiseIf; split <;> simp
@[simp] theorem raiseIf_lastEv (d : Dev) (c : Bool) (f : Flag) : (d.raiseIf c f).lastEv = d.lastEv := by unfold Dev.raiseIf; split <;> simp
@[simp] theorem raiseIf_hre (d : Dev) (c : Bool) (f : Flag) : (d.raiseIf c f).hre = d.hre := by unfold Dev.raiseIf; split <;> simp
@[simp] theorem raiseIf_tabs (d : Dev) (c : Bool) (f : Flag) : (d.raiseIf c f).tabs = d.tabs := by unfold Dev.raiseIf; split <;> simp
@[simp] theorem raiseIf_hostMem (d : Dev) (c : Bool) (f : Flag) : (d.raiseIf c f).hostMem = d.hostMem := by unfold Dev.raiseIf; split <;> simp
@[simp] theorem raiseIf_dram (d : Dev) (c : Bool) (f : Flag) : (d.raiseIf c f).dram = d.dram := by unfold Dev.raiseIf; split <;> simp
@[simp] theorem raiseIf_localMem (d : Dev) (c : Bool) (f : Flag) : (d.raiseIf c f).localMem = d.localMem := by unfold Dev.raiseIf; split <;> simp
@[simp] theorem raiseIf_bus (d : Dev) (c : Bool) (f : Flag) : (d.raiseIf c f).bus = d.bus := by unfold Dev.raiseIf; split <;> simp
@[simp] theorem raiseIf_dmc (d : Dev) (c : Bool) (f : Flag) : (d.raiseIf c f).dmc = d.dmc := by unfold Dev.raiseIf; split <;> simp
@[simp] theorem raiseIf_pwr (d : Dev) (c : Bool) (f : Flag) : (d.raiseIf c f).pwr = d.pwr := by unfold Dev.raiseIf; split <;> simp
@[simp] theorem raiseIf_pin (d : Dev) (c : Bool) (f : Flag) : (d.raiseIf c f).pin = d.pin := by unfold Dev.raiseIf; split <;> simp
@[simp] theorem raiseIf_boot (d : Dev) (c : Bool) (f : Flag) : (d.raiseIf c f).boot = d.boot := by unfold Dev.raiseIf; split <;> simp
@[simp] theorem raiseIf_free (d : Dev) (c : Bool) (f : Flag) : (d.raiseIf c f).free = d.free := by unfold Dev.raiseIf; split <;> simp
@[simp] theorem raiseIf_obj (d : Dev) (c : Bool) (f : Flag) : (d.raiseIf c f).obj = d.obj := by unfold Dev.raiseIf; split <;> simp
@[simp] theorem raiseIf_xpt (d : Dev) (c : Bool) (f : Flag) : (d.raiseIf c f).xpt = d.xpt := by unfold Dev.raiseIf; split <;> simp
@[simp] theorem raiseIf_mtr (d : Dev) (c : Bool) (f : Flag) : (d.raiseIf c f).mtr = d.mtr := by unfold Dev.raiseIf; split <;> simp
@[simp] theorem raiseIf_out (d : Dev) (c : Bool) (f : Flag) : (d.raiseIf c f).out = d.out := by unfold Dev.raiseIf; split <;> simp
@[simp] theorem raiseIf_tbu (d : Dev) (c : Bool) (f : Flag) : (d.raiseIf c f).tbu = d.tbu := by unfold Dev.raiseIf; split <;> simp
@[simp] theorem raiseIf_sap (d : Dev) (c : Bool) (f : Flag) : (d.raiseIf c f).sap = d.sap := by unfold Dev.raiseIf; split <;> simp
@[simp] theorem raiseIf_slp (d : Dev) (c : Bool) (f : Flag) : (d.raiseIf c f).slp = d.slp := by unfold Dev.raiseIf; split <;> simp
@[simp] theorem raiseIf_str (d : Dev) (c : Bool) (f : Flag) : (d.raiseIf c f).str = d.str := by unfold Dev.raiseIf; split <;> simp
@[simp] theorem raiseIf_eth (d : Dev) (c : Bool) (f : Flag) : (d.raiseIf c f).eth = d.eth := by unfold Dev.raiseIf; split <;> simp
@[simp] theorem raiseIf_tth (d : Dev) (c : Bool) (f : Flag) : (d.raiseIf c f).tth = d.tth := by unfold Dev.raiseIf; split <;> simp
@[simp] theorem raiseIf_dsp (d : Dev) (c : Bool) (f : Flag) : (d.raiseIf c f).dsp = d.dsp := by unfold Dev.raiseIf; split <;> simp
@[simp] theorem raiseIf_fmn (d : Dev) (c : Bool) (f : Flag) : (d.raiseIf c f).fmn = d.fmn := by unfold Dev.raiseIf; split <;> simp
@[simp] theorem raiseIf_ref (d : Dev) (c : Bool) (f : Flag) : (d.raiseIf c f).ref = d.ref := by unfold Dev.raiseIf; split <;> simp
@[simp] theorem raiseIf_banks (d : Dev) (c : Bool) (f : Flag) : (d.raiseIf c f).banks = d.banks := by unfold Dev.raiseIf; split <;> simp
@[simp] theorem raiseIf_cfg (d : Dev) (c : Bool) (f : Flag) : (d.raiseIf c f).cfg = d.cfg := by unfold Dev.raiseIf; split <;> simp
@[simp] theorem raiseIf_jtag (d : Dev) (c : Bool) (f : Flag) : (d.raiseIf c f).jtag = d.jtag := by unfold Dev.raiseIf; split <;> simp

/-! ### note -/

@[simp] theorem note_grade (d : Dev) (e : TickEv) : (d.note e).grade = d.grade := by unfold Dev.note; split <;> rfl
@[simp] theorem note_top (d : Dev) (e : TickEv) : (d.note e).top = d.top := by unfold Dev.note; split <;> rfl
@[simp] theorem note_hdr (d : Dev) (e : TickEv) : (d.note e).hdr = d.hdr := by unfold Dev.note; split <;> rfl
@[simp] theorem note_regs (d : Dev) (e : TickEv) : (d.note e).regs = d.regs := by unfold Dev.note; split <;> rfl
@[simp] theorem note_latched (d : Dev) (e : TickEv) : (d.note e).latched = d.latched := by unfold Dev.note; split <;> rfl
@[simp] theorem note_lastEv (d : Dev) (e : TickEv) : (d.note e).lastEv = d.lastEv := by unfold Dev.note; split <;> rfl
@[simp] theorem note_hre (d : Dev) (e : TickEv) : (d.note e).hre = d.hre := by unfold Dev.note; split <;> rfl
@[simp] theorem note_tabs (d : Dev) (e : TickEv) : (d.note e).tabs = d.tabs := by unfold Dev.note; split <;> rfl
@[simp] theorem note_hostMem (d : Dev) (e : TickEv) : (d.note e).hostMem = d.hostMem := by unfold Dev.note; split <;> rfl
@[simp] theorem note_dram (d : Dev) (e : TickEv) : (d.note e).dram = d.dram := by unfold Dev.note; split <;> rfl
@[simp] theorem note_localMem (d : Dev) (e : TickEv) : (d.note e).localMem = d.localMem := by unfold Dev.note; split <;> rfl
@[simp] theorem note_bus (d : Dev) (e : TickEv) : (d.note e).bus = d.bus := by unfold Dev.note; split <;> rfl
@[simp] theorem note_dmc (d : Dev) (e : TickEv) : (d.note e).dmc = d.dmc := by unfold Dev.note; split <;> rfl
@[simp] theorem note_pwr (d : Dev) (e : TickEv) : (d.note e).pwr = d.pwr := by unfold Dev.note; split <;> rfl
@[simp] theorem note_pin (d : Dev) (e : TickEv) : (d.note e).pin = d.pin := by unfold Dev.note; split <;> rfl
@[simp] theorem note_boot (d : Dev) (e : TickEv) : (d.note e).boot = d.boot := by unfold Dev.note; split <;> rfl
@[simp] theorem note_free (d : Dev) (e : TickEv) : (d.note e).free = d.free := by unfold Dev.note; split <;> rfl
@[simp] theorem note_obj (d : Dev) (e : TickEv) : (d.note e).obj = d.obj := by unfold Dev.note; split <;> rfl
@[simp] theorem note_xpt (d : Dev) (e : TickEv) : (d.note e).xpt = d.xpt := by unfold Dev.note; split <;> rfl
@[simp] theorem note_mtr (d : Dev) (e : TickEv) : (d.note e).mtr = d.mtr := by unfold Dev.note; split <;> rfl
@[simp] theorem note_out (d : Dev) (e : TickEv) : (d.note e).out = d.out := by unfold Dev.note; split <;> rfl
@[simp] theorem note_tbu (d : Dev) (e : TickEv) : (d.note e).tbu = d.tbu := by unfold Dev.note; split <;> rfl
@[simp] theorem note_sap (d : Dev) (e : TickEv) : (d.note e).sap = d.sap := by unfold Dev.note; split <;> rfl
@[simp] theorem note_slp (d : Dev) (e : TickEv) : (d.note e).slp = d.slp := by unfold Dev.note; split <;> rfl
@[simp] theorem note_str (d : Dev) (e : TickEv) : (d.note e).str = d.str := by unfold Dev.note; split <;> rfl
@[simp] theorem note_eth (d : Dev) (e : TickEv) : (d.note e).eth = d.eth := by unfold Dev.note; split <;> rfl
@[simp] theorem note_tth (d : Dev) (e : TickEv) : (d.note e).tth = d.tth := by unfold Dev.note; split <;> rfl
@[simp] theorem note_dsp (d : Dev) (e : TickEv) : (d.note e).dsp = d.dsp := by unfold Dev.note; split <;> rfl
@[simp] theorem note_fmn (d : Dev) (e : TickEv) : (d.note e).fmn = d.fmn := by unfold Dev.note; split <;> rfl
@[simp] theorem note_ref (d : Dev) (e : TickEv) : (d.note e).ref = d.ref := by unfold Dev.note; split <;> rfl
@[simp] theorem note_banks (d : Dev) (e : TickEv) : (d.note e).banks = d.banks := by unfold Dev.note; split <;> rfl
@[simp] theorem note_cfg (d : Dev) (e : TickEv) : (d.note e).cfg = d.cfg := by unfold Dev.note; split <;> rfl
@[simp] theorem note_jtag (d : Dev) (e : TickEv) : (d.note e).jtag = d.jtag := by unfold Dev.note; split <;> rfl

/-! ### setHealth -/

@[simp] theorem setHealth_grade (d : Dev) (b : Nat) (st : UState) (cause : Nat) (shed : Bool) (kids : Nat) : (d.setHealth b st cause shed kids).grade = d.grade := by
  simp only [Dev.setHealth]; repeat' split
  all_goals simp
@[simp] theorem setHealth_top (d : Dev) (b : Nat) (st : UState) (cause : Nat) (shed : Bool) (kids : Nat) : (d.setHealth b st cause shed kids).top = d.top := by
  simp only [Dev.setHealth]; repeat' split
  all_goals simp
@[simp] theorem setHealth_regs (d : Dev) (b : Nat) (st : UState) (cause : Nat) (shed : Bool) (kids : Nat) : (d.setHealth b st cause shed kids).regs = d.regs := by
  simp only [Dev.setHealth]; repeat' split
  all_goals simp
@[simp] theorem setHealth_latched (d : Dev) (b : Nat) (st : UState) (cause : Nat) (shed : Bool) (kids : Nat) : (d.setHealth b st cause shed kids).latched = d.latched := by
  simp only [Dev.setHealth]; repeat' split
  all_goals simp
@[simp] theorem setHealth_ev (d : Dev) (b : Nat) (st : UState) (cause : Nat) (shed : Bool) (kids : Nat) : (d.setHealth b st cause shed kids).ev = d.ev := by
  simp only [Dev.setHealth]; repeat' split
  all_goals simp
@[simp] theorem setHealth_lastEv (d : Dev) (b : Nat) (st : UState) (cause : Nat) (shed : Bool) (kids : Nat) : (d.setHealth b st cause shed kids).lastEv = d.lastEv := by
  simp only [Dev.setHealth]; repeat' split
  all_goals simp
@[simp] theorem setHealth_hre (d : Dev) (b : Nat) (st : UState) (cause : Nat) (shed : Bool) (kids : Nat) : (d.setHealth b st cause shed kids).hre = d.hre := by
  simp only [Dev.setHealth]; repeat' split
  all_goals simp
@[simp] theorem setHealth_tabs (d : Dev) (b : Nat) (st : UState) (cause : Nat) (shed : Bool) (kids : Nat) : (d.setHealth b st cause shed kids).tabs = d.tabs := by
  simp only [Dev.setHealth]; repeat' split
  all_goals simp
@[simp] theorem setHealth_hostMem (d : Dev) (b : Nat) (st : UState) (cause : Nat) (shed : Bool) (kids : Nat) : (d.setHealth b st cause shed kids).hostMem = d.hostMem := by
  simp only [Dev.setHealth]; repeat' split
  all_goals simp
@[simp] theorem setHealth_dram (d : Dev) (b : Nat) (st : UState) (cause : Nat) (shed : Bool) (kids : Nat) : (d.setHealth b st cause shed kids).dram = d.dram := by
  simp only [Dev.setHealth]; repeat' split
  all_goals simp
@[simp] theorem setHealth_localMem (d : Dev) (b : Nat) (st : UState) (cause : Nat) (shed : Bool) (kids : Nat) : (d.setHealth b st cause shed kids).localMem = d.localMem := by
  simp only [Dev.setHealth]; repeat' split
  all_goals simp
@[simp] theorem setHealth_bus (d : Dev) (b : Nat) (st : UState) (cause : Nat) (shed : Bool) (kids : Nat) : (d.setHealth b st cause shed kids).bus = d.bus := by
  simp only [Dev.setHealth]; repeat' split
  all_goals simp
@[simp] theorem setHealth_dmc (d : Dev) (b : Nat) (st : UState) (cause : Nat) (shed : Bool) (kids : Nat) : (d.setHealth b st cause shed kids).dmc = d.dmc := by
  simp only [Dev.setHealth]; repeat' split
  all_goals simp
@[simp] theorem setHealth_pwr (d : Dev) (b : Nat) (st : UState) (cause : Nat) (shed : Bool) (kids : Nat) : (d.setHealth b st cause shed kids).pwr = d.pwr := by
  simp only [Dev.setHealth]; repeat' split
  all_goals simp
@[simp] theorem setHealth_pin (d : Dev) (b : Nat) (st : UState) (cause : Nat) (shed : Bool) (kids : Nat) : (d.setHealth b st cause shed kids).pin = d.pin := by
  simp only [Dev.setHealth]; repeat' split
  all_goals simp
@[simp] theorem setHealth_boot (d : Dev) (b : Nat) (st : UState) (cause : Nat) (shed : Bool) (kids : Nat) : (d.setHealth b st cause shed kids).boot = d.boot := by
  simp only [Dev.setHealth]; repeat' split
  all_goals simp
@[simp] theorem setHealth_free (d : Dev) (b : Nat) (st : UState) (cause : Nat) (shed : Bool) (kids : Nat) : (d.setHealth b st cause shed kids).free = d.free := by
  simp only [Dev.setHealth]; repeat' split
  all_goals simp
@[simp] theorem setHealth_obj (d : Dev) (b : Nat) (st : UState) (cause : Nat) (shed : Bool) (kids : Nat) : (d.setHealth b st cause shed kids).obj = d.obj := by
  simp only [Dev.setHealth]; repeat' split
  all_goals simp
@[simp] theorem setHealth_xpt (d : Dev) (b : Nat) (st : UState) (cause : Nat) (shed : Bool) (kids : Nat) : (d.setHealth b st cause shed kids).xpt = d.xpt := by
  simp only [Dev.setHealth]; repeat' split
  all_goals simp
@[simp] theorem setHealth_mtr (d : Dev) (b : Nat) (st : UState) (cause : Nat) (shed : Bool) (kids : Nat) : (d.setHealth b st cause shed kids).mtr = d.mtr := by
  simp only [Dev.setHealth]; repeat' split
  all_goals simp
@[simp] theorem setHealth_out (d : Dev) (b : Nat) (st : UState) (cause : Nat) (shed : Bool) (kids : Nat) : (d.setHealth b st cause shed kids).out = d.out := by
  simp only [Dev.setHealth]; repeat' split
  all_goals simp
@[simp] theorem setHealth_tbu (d : Dev) (b : Nat) (st : UState) (cause : Nat) (shed : Bool) (kids : Nat) : (d.setHealth b st cause shed kids).tbu = d.tbu := by
  simp only [Dev.setHealth]; repeat' split
  all_goals simp
@[simp] theorem setHealth_sap (d : Dev) (b : Nat) (st : UState) (cause : Nat) (shed : Bool) (kids : Nat) : (d.setHealth b st cause shed kids).sap = d.sap := by
  simp only [Dev.setHealth]; repeat' split
  all_goals simp
@[simp] theorem setHealth_slp (d : Dev) (b : Nat) (st : UState) (cause : Nat) (shed : Bool) (kids : Nat) : (d.setHealth b st cause shed kids).slp = d.slp := by
  simp only [Dev.setHealth]; repeat' split
  all_goals simp
@[simp] theorem setHealth_str (d : Dev) (b : Nat) (st : UState) (cause : Nat) (shed : Bool) (kids : Nat) : (d.setHealth b st cause shed kids).str = d.str := by
  simp only [Dev.setHealth]; repeat' split
  all_goals simp
@[simp] theorem setHealth_eth (d : Dev) (b : Nat) (st : UState) (cause : Nat) (shed : Bool) (kids : Nat) : (d.setHealth b st cause shed kids).eth = d.eth := by
  simp only [Dev.setHealth]; repeat' split
  all_goals simp
@[simp] theorem setHealth_tth (d : Dev) (b : Nat) (st : UState) (cause : Nat) (shed : Bool) (kids : Nat) : (d.setHealth b st cause shed kids).tth = d.tth := by
  simp only [Dev.setHealth]; repeat' split
  all_goals simp
@[simp] theorem setHealth_dsp (d : Dev) (b : Nat) (st : UState) (cause : Nat) (shed : Bool) (kids : Nat) : (d.setHealth b st cause shed kids).dsp = d.dsp := by
  simp only [Dev.setHealth]; repeat' split
  all_goals simp
@[simp] theorem setHealth_fmn (d : Dev) (b : Nat) (st : UState) (cause : Nat) (shed : Bool) (kids : Nat) : (d.setHealth b st cause shed kids).fmn = d.fmn := by
  simp only [Dev.setHealth]; repeat' split
  all_goals simp
@[simp] theorem setHealth_ref (d : Dev) (b : Nat) (st : UState) (cause : Nat) (shed : Bool) (kids : Nat) : (d.setHealth b st cause shed kids).ref = d.ref := by
  simp only [Dev.setHealth]; repeat' split
  all_goals simp
@[simp] theorem setHealth_banks (d : Dev) (b : Nat) (st : UState) (cause : Nat) (shed : Bool) (kids : Nat) : (d.setHealth b st cause shed kids).banks = d.banks := by
  simp only [Dev.setHealth]; repeat' split
  all_goals simp
@[simp] theorem setHealth_cfg (d : Dev) (b : Nat) (st : UState) (cause : Nat) (shed : Bool) (kids : Nat) : (d.setHealth b st cause shed kids).cfg = d.cfg := by
  simp only [Dev.setHealth]; repeat' split
  all_goals simp
@[simp] theorem setHealth_jtag (d : Dev) (b : Nat) (st : UState) (cause : Nat) (shed : Bool) (kids : Nat) : (d.setHealth b st cause shed kids).jtag = d.jtag := by
  simp only [Dev.setHealth]; repeat' split
  all_goals simp

/-! ### setFlds -/

@[simp] theorem setFlds_grade (d : Dev) (l : List (Field × Nat)) : (d.setFlds l).grade = d.grade := by
  unfold Dev.setFlds; induction l generalizing d with
  | nil => rfl
  | cons p r ih => simp [List.foldl_cons, ih]
@[simp] theorem setFlds_top (d : Dev) (l : List (Field × Nat)) : (d.setFlds l).top = d.top := by
  unfold Dev.setFlds; induction l generalizing d with
  | nil => rfl
  | cons p r ih => simp [List.foldl_cons, ih]
@[simp] theorem setFlds_hdr (d : Dev) (l : List (Field × Nat)) : (d.setFlds l).hdr = d.hdr := by
  unfold Dev.setFlds; induction l generalizing d with
  | nil => rfl
  | cons p r ih => simp [List.foldl_cons, ih]
@[simp] theorem setFlds_latched (d : Dev) (l : List (Field × Nat)) : (d.setFlds l).latched = d.latched := by
  unfold Dev.setFlds; induction l generalizing d with
  | nil => rfl
  | cons p r ih => simp [List.foldl_cons, ih]
@[simp] theorem setFlds_ev (d : Dev) (l : List (Field × Nat)) : (d.setFlds l).ev = d.ev := by
  unfold Dev.setFlds; induction l generalizing d with
  | nil => rfl
  | cons p r ih => simp [List.foldl_cons, ih]
@[simp] theorem setFlds_lastEv (d : Dev) (l : List (Field × Nat)) : (d.setFlds l).lastEv = d.lastEv := by
  unfold Dev.setFlds; induction l generalizing d with
  | nil => rfl
  | cons p r ih => simp [List.foldl_cons, ih]
@[simp] theorem setFlds_hre (d : Dev) (l : List (Field × Nat)) : (d.setFlds l).hre = d.hre := by
  unfold Dev.setFlds; induction l generalizing d with
  | nil => rfl
  | cons p r ih => simp [List.foldl_cons, ih]
@[simp] theorem setFlds_tabs (d : Dev) (l : List (Field × Nat)) : (d.setFlds l).tabs = d.tabs := by
  unfold Dev.setFlds; induction l generalizing d with
  | nil => rfl
  | cons p r ih => simp [List.foldl_cons, ih]
@[simp] theorem setFlds_hostMem (d : Dev) (l : List (Field × Nat)) : (d.setFlds l).hostMem = d.hostMem := by
  unfold Dev.setFlds; induction l generalizing d with
  | nil => rfl
  | cons p r ih => simp [List.foldl_cons, ih]
@[simp] theorem setFlds_dram (d : Dev) (l : List (Field × Nat)) : (d.setFlds l).dram = d.dram := by
  unfold Dev.setFlds; induction l generalizing d with
  | nil => rfl
  | cons p r ih => simp [List.foldl_cons, ih]
@[simp] theorem setFlds_localMem (d : Dev) (l : List (Field × Nat)) : (d.setFlds l).localMem = d.localMem := by
  unfold Dev.setFlds; induction l generalizing d with
  | nil => rfl
  | cons p r ih => simp [List.foldl_cons, ih]
@[simp] theorem setFlds_bus (d : Dev) (l : List (Field × Nat)) : (d.setFlds l).bus = d.bus := by
  unfold Dev.setFlds; induction l generalizing d with
  | nil => rfl
  | cons p r ih => simp [List.foldl_cons, ih]
@[simp] theorem setFlds_dmc (d : Dev) (l : List (Field × Nat)) : (d.setFlds l).dmc = d.dmc := by
  unfold Dev.setFlds; induction l generalizing d with
  | nil => rfl
  | cons p r ih => simp [List.foldl_cons, ih]
@[simp] theorem setFlds_pwr (d : Dev) (l : List (Field × Nat)) : (d.setFlds l).pwr = d.pwr := by
  unfold Dev.setFlds; induction l generalizing d with
  | nil => rfl
  | cons p r ih => simp [List.foldl_cons, ih]
@[simp] theorem setFlds_pin (d : Dev) (l : List (Field × Nat)) : (d.setFlds l).pin = d.pin := by
  unfold Dev.setFlds; induction l generalizing d with
  | nil => rfl
  | cons p r ih => simp [List.foldl_cons, ih]
@[simp] theorem setFlds_boot (d : Dev) (l : List (Field × Nat)) : (d.setFlds l).boot = d.boot := by
  unfold Dev.setFlds; induction l generalizing d with
  | nil => rfl
  | cons p r ih => simp [List.foldl_cons, ih]
@[simp] theorem setFlds_free (d : Dev) (l : List (Field × Nat)) : (d.setFlds l).free = d.free := by
  unfold Dev.setFlds; induction l generalizing d with
  | nil => rfl
  | cons p r ih => simp [List.foldl_cons, ih]
@[simp] theorem setFlds_obj (d : Dev) (l : List (Field × Nat)) : (d.setFlds l).obj = d.obj := by
  unfold Dev.setFlds; induction l generalizing d with
  | nil => rfl
  | cons p r ih => simp [List.foldl_cons, ih]
@[simp] theorem setFlds_xpt (d : Dev) (l : List (Field × Nat)) : (d.setFlds l).xpt = d.xpt := by
  unfold Dev.setFlds; induction l generalizing d with
  | nil => rfl
  | cons p r ih => simp [List.foldl_cons, ih]
@[simp] theorem setFlds_mtr (d : Dev) (l : List (Field × Nat)) : (d.setFlds l).mtr = d.mtr := by
  unfold Dev.setFlds; induction l generalizing d with
  | nil => rfl
  | cons p r ih => simp [List.foldl_cons, ih]
@[simp] theorem setFlds_out (d : Dev) (l : List (Field × Nat)) : (d.setFlds l).out = d.out := by
  unfold Dev.setFlds; induction l generalizing d with
  | nil => rfl
  | cons p r ih => simp [List.foldl_cons, ih]
@[simp] theorem setFlds_tbu (d : Dev) (l : List (Field × Nat)) : (d.setFlds l).tbu = d.tbu := by
  unfold Dev.setFlds; induction l generalizing d with
  | nil => rfl
  | cons p r ih => simp [List.foldl_cons, ih]
@[simp] theorem setFlds_sap (d : Dev) (l : List (Field × Nat)) : (d.setFlds l).sap = d.sap := by
  unfold Dev.setFlds; induction l generalizing d with
  | nil => rfl
  | cons p r ih => simp [List.foldl_cons, ih]
@[simp] theorem setFlds_slp (d : Dev) (l : List (Field × Nat)) : (d.setFlds l).slp = d.slp := by
  unfold Dev.setFlds; induction l generalizing d with
  | nil => rfl
  | cons p r ih => simp [List.foldl_cons, ih]
@[simp] theorem setFlds_str (d : Dev) (l : List (Field × Nat)) : (d.setFlds l).str = d.str := by
  unfold Dev.setFlds; induction l generalizing d with
  | nil => rfl
  | cons p r ih => simp [List.foldl_cons, ih]
@[simp] theorem setFlds_eth (d : Dev) (l : List (Field × Nat)) : (d.setFlds l).eth = d.eth := by
  unfold Dev.setFlds; induction l generalizing d with
  | nil => rfl
  | cons p r ih => simp [List.foldl_cons, ih]
@[simp] theorem setFlds_tth (d : Dev) (l : List (Field × Nat)) : (d.setFlds l).tth = d.tth := by
  unfold Dev.setFlds; induction l generalizing d with
  | nil => rfl
  | cons p r ih => simp [List.foldl_cons, ih]
@[simp] theorem setFlds_dsp (d : Dev) (l : List (Field × Nat)) : (d.setFlds l).dsp = d.dsp := by
  unfold Dev.setFlds; induction l generalizing d with
  | nil => rfl
  | cons p r ih => simp [List.foldl_cons, ih]
@[simp] theorem setFlds_fmn (d : Dev) (l : List (Field × Nat)) : (d.setFlds l).fmn = d.fmn := by
  unfold Dev.setFlds; induction l generalizing d with
  | nil => rfl
  | cons p r ih => simp [List.foldl_cons, ih]
@[simp] theorem setFlds_ref (d : Dev) (l : List (Field × Nat)) : (d.setFlds l).ref = d.ref := by
  unfold Dev.setFlds; induction l generalizing d with
  | nil => rfl
  | cons p r ih => simp [List.foldl_cons, ih]
@[simp] theorem setFlds_banks (d : Dev) (l : List (Field × Nat)) : (d.setFlds l).banks = d.banks := by
  unfold Dev.setFlds; induction l generalizing d with
  | nil => rfl
  | cons p r ih => simp [List.foldl_cons, ih]
@[simp] theorem setFlds_cfg (d : Dev) (l : List (Field × Nat)) : (d.setFlds l).cfg = d.cfg := by
  unfold Dev.setFlds; induction l generalizing d with
  | nil => rfl
  | cons p r ih => simp [List.foldl_cons, ih]
@[simp] theorem setFlds_jtag (d : Dev) (l : List (Field × Nat)) : (d.setFlds l).jtag = d.jtag := by
  unfold Dev.setFlds; induction l generalizing d with
  | nil => rfl
  | cons p r ih => simp [List.foldl_cons, ih]

/-! ### msix -/

@[simp] theorem msix_grade (d : Dev) (v : Nat) : (d.msix v).grade = d.grade := by unfold Dev.msix; dsimp only; repeat (first | split | simp)
@[simp] theorem msix_top (d : Dev) (v : Nat) : (d.msix v).top = d.top := by unfold Dev.msix; dsimp only; repeat (first | split | simp)
@[simp] theorem msix_hdr (d : Dev) (v : Nat) : (d.msix v).hdr = d.hdr := by unfold Dev.msix; dsimp only; repeat (first | split | simp)
@[simp] theorem msix_latched (d : Dev) (v : Nat) : (d.msix v).latched = d.latched := by unfold Dev.msix; dsimp only; repeat (first | split | simp)
@[simp] theorem msix_ev (d : Dev) (v : Nat) : (d.msix v).ev = d.ev := by unfold Dev.msix; dsimp only; repeat (first | split | simp)
@[simp] theorem msix_lastEv (d : Dev) (v : Nat) : (d.msix v).lastEv = d.lastEv := by unfold Dev.msix; dsimp only; repeat (first | split | simp)
@[simp] theorem msix_hre (d : Dev) (v : Nat) : (d.msix v).hre = d.hre := by unfold Dev.msix; dsimp only; repeat (first | split | simp)
@[simp] theorem msix_tabs (d : Dev) (v : Nat) : (d.msix v).tabs = d.tabs := by unfold Dev.msix; dsimp only; repeat (first | split | simp)
@[simp] theorem msix_dram (d : Dev) (v : Nat) : (d.msix v).dram = d.dram := by unfold Dev.msix; dsimp only; repeat (first | split | simp)
@[simp] theorem msix_localMem (d : Dev) (v : Nat) : (d.msix v).localMem = d.localMem := by unfold Dev.msix; dsimp only; repeat (first | split | simp)
@[simp] theorem msix_bus (d : Dev) (v : Nat) : (d.msix v).bus = d.bus := by unfold Dev.msix; dsimp only; repeat (first | split | simp)
@[simp] theorem msix_dmc (d : Dev) (v : Nat) : (d.msix v).dmc = d.dmc := by unfold Dev.msix; dsimp only; repeat (first | split | simp)
@[simp] theorem msix_pwr (d : Dev) (v : Nat) : (d.msix v).pwr = d.pwr := by unfold Dev.msix; dsimp only; repeat (first | split | simp)
@[simp] theorem msix_pin (d : Dev) (v : Nat) : (d.msix v).pin = d.pin := by unfold Dev.msix; dsimp only; repeat (first | split | simp)
@[simp] theorem msix_boot (d : Dev) (v : Nat) : (d.msix v).boot = d.boot := by unfold Dev.msix; dsimp only; repeat (first | split | simp)
@[simp] theorem msix_free (d : Dev) (v : Nat) : (d.msix v).free = d.free := by unfold Dev.msix; dsimp only; repeat (first | split | simp)
@[simp] theorem msix_obj (d : Dev) (v : Nat) : (d.msix v).obj = d.obj := by unfold Dev.msix; dsimp only; repeat (first | split | simp)
@[simp] theorem msix_xpt (d : Dev) (v : Nat) : (d.msix v).xpt = d.xpt := by unfold Dev.msix; dsimp only; repeat (first | split | simp)
@[simp] theorem msix_mtr (d : Dev) (v : Nat) : (d.msix v).mtr = d.mtr := by unfold Dev.msix; dsimp only; repeat (first | split | simp)
@[simp] theorem msix_out (d : Dev) (v : Nat) : (d.msix v).out = d.out := by unfold Dev.msix; dsimp only; repeat (first | split | simp)
@[simp] theorem msix_tbu (d : Dev) (v : Nat) : (d.msix v).tbu = d.tbu := by unfold Dev.msix; dsimp only; repeat (first | split | simp)
@[simp] theorem msix_sap (d : Dev) (v : Nat) : (d.msix v).sap = d.sap := by unfold Dev.msix; dsimp only; repeat (first | split | simp)
@[simp] theorem msix_slp (d : Dev) (v : Nat) : (d.msix v).slp = d.slp := by unfold Dev.msix; dsimp only; repeat (first | split | simp)
@[simp] theorem msix_str (d : Dev) (v : Nat) : (d.msix v).str = d.str := by unfold Dev.msix; dsimp only; repeat (first | split | simp)
@[simp] theorem msix_eth (d : Dev) (v : Nat) : (d.msix v).eth = d.eth := by unfold Dev.msix; dsimp only; repeat (first | split | simp)
@[simp] theorem msix_tth (d : Dev) (v : Nat) : (d.msix v).tth = d.tth := by unfold Dev.msix; dsimp only; repeat (first | split | simp)
@[simp] theorem msix_dsp (d : Dev) (v : Nat) : (d.msix v).dsp = d.dsp := by unfold Dev.msix; dsimp only; repeat (first | split | simp)
@[simp] theorem msix_fmn (d : Dev) (v : Nat) : (d.msix v).fmn = d.fmn := by unfold Dev.msix; dsimp only; repeat (first | split | simp)
@[simp] theorem msix_ref (d : Dev) (v : Nat) : (d.msix v).ref = d.ref := by unfold Dev.msix; dsimp only; repeat (first | split | simp)
@[simp] theorem msix_banks (d : Dev) (v : Nat) : (d.msix v).banks = d.banks := by unfold Dev.msix; dsimp only; repeat (first | split | simp)
@[simp] theorem msix_cfg (d : Dev) (v : Nat) : (d.msix v).cfg = d.cfg := by unfold Dev.msix; dsimp only; repeat (first | split | simp)
@[simp] theorem msix_jtag (d : Dev) (v : Nat) : (d.msix v).jtag = d.jtag := by unfold Dev.msix; dsimp only; repeat (first | split | simp)

/-! ### vector0 -/

@[simp] theorem vector0_grade (d : Dev) : d.vector0.grade = d.grade := by unfold Dev.vector0; dsimp only; split <;> simp
@[simp] theorem vector0_top (d : Dev) : d.vector0.top = d.top := by unfold Dev.vector0; dsimp only; split <;> simp
@[simp] theorem vector0_hdr (d : Dev) : d.vector0.hdr = d.hdr := by unfold Dev.vector0; dsimp only; split <;> simp
@[simp] theorem vector0_latched (d : Dev) : d.vector0.latched = d.latched := by unfold Dev.vector0; dsimp only; split <;> simp
@[simp] theorem vector0_ev (d : Dev) : d.vector0.ev = d.ev := by unfold Dev.vector0; dsimp only; split <;> simp
@[simp] theorem vector0_lastEv (d : Dev) : d.vector0.lastEv = d.lastEv := by unfold Dev.vector0; dsimp only; split <;> simp
@[simp] theorem vector0_tabs (d : Dev) : d.vector0.tabs = d.tabs := by unfold Dev.vector0; dsimp only; split <;> simp
@[simp] theorem vector0_dram (d : Dev) : d.vector0.dram = d.dram := by unfold Dev.vector0; dsimp only; split <;> simp
@[simp] theorem vector0_localMem (d : Dev) : d.vector0.localMem = d.localMem := by unfold Dev.vector0; dsimp only; split <;> simp
@[simp] theorem vector0_bus (d : Dev) : d.vector0.bus = d.bus := by unfold Dev.vector0; dsimp only; split <;> simp
@[simp] theorem vector0_dmc (d : Dev) : d.vector0.dmc = d.dmc := by unfold Dev.vector0; dsimp only; split <;> simp
@[simp] theorem vector0_pwr (d : Dev) : d.vector0.pwr = d.pwr := by unfold Dev.vector0; dsimp only; split <;> simp
@[simp] theorem vector0_pin (d : Dev) : d.vector0.pin = d.pin := by unfold Dev.vector0; dsimp only; split <;> simp
@[simp] theorem vector0_boot (d : Dev) : d.vector0.boot = d.boot := by unfold Dev.vector0; dsimp only; split <;> simp
@[simp] theorem vector0_free (d : Dev) : d.vector0.free = d.free := by unfold Dev.vector0; dsimp only; split <;> simp
@[simp] theorem vector0_obj (d : Dev) : d.vector0.obj = d.obj := by unfold Dev.vector0; dsimp only; split <;> simp
@[simp] theorem vector0_xpt (d : Dev) : d.vector0.xpt = d.xpt := by unfold Dev.vector0; dsimp only; split <;> simp
@[simp] theorem vector0_mtr (d : Dev) : d.vector0.mtr = d.mtr := by unfold Dev.vector0; dsimp only; split <;> simp
@[simp] theorem vector0_out (d : Dev) : d.vector0.out = d.out := by unfold Dev.vector0; dsimp only; split <;> simp
@[simp] theorem vector0_tbu (d : Dev) : d.vector0.tbu = d.tbu := by unfold Dev.vector0; dsimp only; split <;> simp
@[simp] theorem vector0_sap (d : Dev) : d.vector0.sap = d.sap := by unfold Dev.vector0; dsimp only; split <;> simp
@[simp] theorem vector0_slp (d : Dev) : d.vector0.slp = d.slp := by unfold Dev.vector0; dsimp only; split <;> simp
@[simp] theorem vector0_str (d : Dev) : d.vector0.str = d.str := by unfold Dev.vector0; dsimp only; split <;> simp
@[simp] theorem vector0_eth (d : Dev) : d.vector0.eth = d.eth := by unfold Dev.vector0; dsimp only; split <;> simp
@[simp] theorem vector0_tth (d : Dev) : d.vector0.tth = d.tth := by unfold Dev.vector0; dsimp only; split <;> simp
@[simp] theorem vector0_dsp (d : Dev) : d.vector0.dsp = d.dsp := by unfold Dev.vector0; dsimp only; split <;> simp
@[simp] theorem vector0_fmn (d : Dev) : d.vector0.fmn = d.fmn := by unfold Dev.vector0; dsimp only; split <;> simp
@[simp] theorem vector0_ref (d : Dev) : d.vector0.ref = d.ref := by unfold Dev.vector0; dsimp only; split <;> simp
@[simp] theorem vector0_banks (d : Dev) : d.vector0.banks = d.banks := by unfold Dev.vector0; dsimp only; split <;> simp
@[simp] theorem vector0_cfg (d : Dev) : d.vector0.cfg = d.cfg := by unfold Dev.vector0; dsimp only; split <;> simp
@[simp] theorem vector0_jtag (d : Dev) : d.vector0.jtag = d.jtag := by unfold Dev.vector0; dsimp only; split <;> simp

end Sys2Proof.Laws
end

