-- ==== Sys2Proof/Laws/Regs.lean ====
section
/-! SUPPORT. Laws of registers, fields, headers, tables and byte memories: what is read after a write, at the same place and at
another. -/
namespace Sys2Proof.Laws
open Machine

/-! ## Registers and fields -/

@[simp] theorem reg_setReg_self (d : Dev) (a : Nat) (w : Word) : (d.setReg a w).reg a = w := by simp [Dev.reg, Dev.setReg]

theorem reg_setReg_ne (d : Dev) {a b : Nat} (w : Word) (h : b ≠ a) : (d.setReg a w).reg b = d.reg b := by
  simp [Dev.reg, Dev.setReg, smGet_smSet_ne _ _ _ h]

theorem reg_setFld_ne (d : Dev) (f : Field) (v : Nat) {b : Nat} (h : b ≠ f.addr) : (d.setFld f v).reg b = d.reg b :=
  reg_setReg_ne d _ h

theorem setFld_word (d : Dev) (f : Field) (v : Nat) (h : f.lo + f.w ≤ 32) :
    ((d.setFld f v).reg f.addr).toNat = setBits (d.reg f.addr).toNat f.lo f.w v := by
  simp only [Dev.setFld, reg_setReg_self, BitVec.toNat_ofNat]
  exact Nat.mod_eq_of_lt (setBits_lt _ _ _ _ _ (d.reg f.addr).isLt h)

/-- A field reads as written, modulo its width. -/
@[simp] theorem fld_setFld_self (d : Dev) (f : Field) (v : Nat) (h : f.lo + f.w ≤ 32) : (d.setFld f v).fld f = v % 2 ^ f.w := by
  rw [Dev.fld, setFld_word d f v h, bits_setBits_self]

/-- Two fields share no bit. -/
def apart (f g : Field) : Prop := g.addr ≠ f.addr ∨ g.lo + g.w ≤ f.lo ∨ f.lo + f.w ≤ g.lo

/-- A field apart from the one written keeps its value. -/
theorem fld_setFld_ne (d : Dev) (f g : Field) (v : Nat) (hf : f.lo + f.w ≤ 32) (h : apart f g) : (d.setFld f v).fld g = d.fld g := by
  by_cases ha : g.addr = f.addr
  · rcases h with h | h
    · exact absurd ha h
    · simp only [Dev.fld, ha, setFld_word d f v hf]
      exact bits_setBits_ne _ _ _ _ _ _ h
  · simp only [Dev.fld, reg_setFld_ne d f v ha]

theorem fld_lt (d : Dev) (f : Field) : d.fld f < 2 ^ f.w := bits_lt _ _ _

/-- Counters saturate at the field's maximum. -/
theorem fld_addFld_self (d : Dev) (f : Field) (n : Nat) (h : f.lo + f.w ≤ 32) :
    (d.addFld f n).fld f = min (d.fld f + n) (2 ^ f.w - 1) := by
  have hl := fld_lt d f
  unfold Dev.addFld
  split
  · omega
  · rw [fld_setFld_self _ _ _ h]
    exact Nat.mod_eq_of_lt (by omega)

theorem fld_addFld_ne (d : Dev) (f g : Field) (n : Nat) (hf : f.lo + f.w ≤ 32) (h : apart f g) : (d.addFld f n).fld g = d.fld g := by
  unfold Dev.addFld
  split
  · rfl
  · exact fld_setFld_ne d f g _ hf h

theorem reg_of_regs {d e : Dev} (hr : e.regs = d.regs) (hg : e.grade = d.grade) (a : Nat) : e.reg a = d.reg a := by
  simp [Dev.reg, hr, hg]

theorem fld_of_regs {d e : Dev} (hr : e.regs = d.regs) (hg : e.grade = d.grade) (f : Field) : e.fld f = d.fld f := by
  simp [Dev.fld, reg_of_regs hr hg]

theorem flag_of_regs {d e : Dev} (hr : e.regs = d.regs) (hg : e.grade = d.grade) (f : Field) : e.flag f = d.flag f := by
  simp [Dev.flag, fld_of_regs hr hg]

@[simp] theorem fld_raise (d : Dev) (x : Flag) (f : Field) : (d.raise x).fld f = d.fld f := fld_of_regs (by simp) (by simp) f
@[simp] theorem flag_raise (d : Dev) (x : Flag) (f : Field) : (d.raise x).flag f = d.flag f := flag_of_regs (by simp) (by simp) f
@[simp] theorem fld_note (d : Dev) (x : TickEv) (f : Field) : (d.note x).fld f = d.fld f := fld_of_regs (by simp) (by simp) f
@[simp] theorem fld_setHd (d : Dev) (b : Nat) (h : Hdr) (f : Field) : (d.setHd b h).fld f = d.fld f := fld_of_regs rfl rfl f
@[simp] theorem fld_setTab (d : Dev) (t : Nat) (x : Tab) (f : Field) : (d.setTab t x).fld f = d.fld f := fld_of_regs rfl rfl f

/-! ## Headers -/

@[simp] theorem hd_setHd_self (d : Dev) (b : Nat) (h : Hdr) : (d.setHd b h).hd b = h := by simp [Dev.hd, Dev.setHd]

theorem hd_setHd_ne (d : Dev) {a b : Nat} (h : Hdr) (n : a ≠ b) : (d.setHd b h).hd a = d.hd a := by
  simp [Dev.hd, Dev.setHd, smGet_smSet_ne _ _ _ n]

theorem hd_of_hdr {d e : Dev} (h : e.hdr = d.hdr) (b : Nat) : e.hd b = d.hd b := by simp [Dev.hd, h]

@[simp] theorem hd_setReg (d : Dev) (a b : Nat) (w : Word) : (d.setReg a w).hd b = d.hd b := rfl
@[simp] theorem hd_setFld (d : Dev) (f : Field) (v b : Nat) : (d.setFld f v).hd b = d.hd b := rfl
@[simp] theorem hd_setTab (d : Dev) (t b : Nat) (x : Tab) : (d.setTab t x).hd b = d.hd b := rfl

theorem effEn_of_hdr {d e : Dev} (h : e.hdr = d.hdr) (b : Nat) : e.effEn b = d.effEn b := by simp [Dev.effEn, hd_of_hdr h]
theorem works_of_hdr {d e : Dev} (h : e.hdr = d.hdr) (b : Nat) : e.works b = d.works b := by
  simp [Dev.works, Dev.effEn, Dev.heldInReset, hd_of_hdr h]

/-- Raising an event of an enabled unit sets its bit. -/
theorem raise_event (d : Dev) (f : Flag) (h : d.effEn f.base = true) :
    ((d.raise f).hd f.base).event = (d.hd f.base).event ||| BitVec.ofNat 32 (2 ^ f.bit) := by
  simp [Dev.raise, h]

/-- Raising an event changes no header's enable, hold, reset, health or event enable. -/
theorem raise_hd (d : Dev) (f : Flag) (b : Nat) :
    (d.raise f).hd b = { d.hd b with event := ((d.raise f).hd b).event, fresh := ((d.raise f).hd b).fresh } := by
  unfold Dev.raise
  split
  · by_cases hb : b = f.base
    · subst hb; simp
    · simp [hd_setHd_ne _ _ hb]
  · rfl

@[simp] theorem raise_enable (d : Dev) (f : Flag) (b : Nat) : ((d.raise f).hd b).enable = (d.hd b).enable := by rw [raise_hd]
@[simp] theorem raise_hold (d : Dev) (f : Flag) (b : Nat) : ((d.raise f).hd b).hold = (d.hd b).hold := by rw [raise_hd]
@[simp] theorem raise_inReset (d : Dev) (f : Flag) (b : Nat) : ((d.raise f).hd b).inReset = (d.hd b).inReset := by rw [raise_hd]
@[simp] theorem raise_st (d : Dev) (f : Flag) (b : Nat) : ((d.raise f).hd b).st = (d.hd b).st := by rw [raise_hd]
@[simp] theorem raise_cause (d : Dev) (f : Flag) (b : Nat) : ((d.raise f).hd b).cause = (d.hd b).cause := by rw [raise_hd]

@[simp] theorem raise_effEn (d : Dev) (f : Flag) (b : Nat) : (d.raise f).effEn b = d.effEn b := by simp [Dev.effEn]
@[simp] theorem raise_heldInReset (d : Dev) (f : Flag) (b : Nat) : (d.raise f).heldInReset b = d.heldInReset b := by simp [Dev.heldInReset]
@[simp] theorem raise_works (d : Dev) (f : Flag) (b : Nat) : (d.raise f).works b = d.works b := by simp [Dev.works]

/-! ## Tables -/

@[simp] theorem tab_setTab_self (d : Dev) (t : Nat) (x : Tab) : (d.setTab t x).tab t = x := by simp [Dev.tab, Dev.setTab]

theorem tab_setTab_ne (d : Dev) {s t : Nat} (x : Tab) (h : s ≠ t) : (d.setTab t x).tab s = d.tab s := by
  simp [Dev.tab, Dev.setTab, smGet_smSet_ne _ _ _ h]

@[simp] theorem wordAt_wordSet_self (m : SMap Word) (i v : Nat) : wordAt (wordSet m i v) i = v % 2 ^ 32 := by
  simp [wordAt, wordSet]

theorem wordAt_wordSet_ne (m : SMap Word) {i j : Nat} (v : Nat) (h : j ≠ i) : wordAt (wordSet m i v) j = wordAt m j := by
  simp [wordAt, wordSet, smGet_smSet_ne _ _ _ h]

/-! ## Byte memories -/

@[simp] theorem memGet_memSet_self (m : List Host.Cell) (a : Nat) (b : Byte) : memGet (memSet m a b) a = b := by simp [memGet, memSet]

theorem memGet_memSet_ne (m : List Host.Cell) {a i : Nat} (b : Byte) (h : i ≠ a) : memGet (memSet m a b) i = memGet m i := by
  simp [memGet, memSet, smGet_smSet_ne _ _ _ h]

/-- A write leaves every byte outside it alone. -/
theorem memGet_memWrite_out : ∀ (l : List Nat) (m : List Host.Cell) (a i : Nat), i < a ∨ a + l.length ≤ i →
    memGet (memWrite m a l) i = memGet m i
  | [], _, _, _, _ => rfl
  | b :: r, m, a, i, h => by
    simp only [List.length_cons] at h
    rw [memWrite, memGet_memWrite_out r _ _ _ (by omega), memGet_memSet_ne _ _ (by omega)]

/-- A byte written reads as written. -/
theorem memGet_memWrite_in : ∀ (l : List Nat) (m : List Host.Cell) (a k : Nat) (h : k < l.length),
    memGet (memWrite m a l) (a + k) = BitVec.ofNat 8 l[k]
  | [], _, _, _, h => by simp at h
  | b :: r, m, a, 0, _ => by
    rw [memWrite, memGet_memWrite_out r _ _ _ (by omega)]; exact memGet_memSet_self m a _
  | b :: r, m, a, k + 1, h => by
    rw [memWrite, show a + (k + 1) = a + 1 + k by omega, memGet_memWrite_in r _ _ k (by simpa using h)]; rfl

theorem memWrite_wf : ∀ (l : List Nat) (m : List Host.Cell) (a : Nat), smWf memDefault m = true → smWf memDefault (memWrite m a l) = true
  | [], _, _, h => h
  | _ :: r, m, a, h => memWrite_wf r _ _ (smSet_wf memDefault m a _ h)

end Sys2Proof.Laws
end

