-- ==== Sys2Proof/Laws/Commands.lean ====
section
/-! SUPPORT. What a row of an opcode does, case by case: a command that acts, one that is refused, one that waits. -/
namespace Sys2Proof.Laws
open Machine

/-- A descriptor with the row's code is the row's command. -/
theorem withOp_of_code {c : Cmd} {op : Opcode} (h : c.code = BitVec.ofNat 8 op.code) : c.withOp op = c := by
  simp [Cmd.withOp, ← h]

/-- A waiting command that is due: refused with its completion, or its effect. -/
theorem row_due {d : Dev} {op : Opcode} {c : Cmd} (hop : op ≠ .sceneCommit) (hc : c.code = BitVec.ofNat 8 op.code)
    (ha : d.awake = true) (hw : d.works hreBase = true) (hq : d.hre.paq.any (fun e => e.cmd.id == c.id) = true)
    (hd : d.cmdDue op c = true) : d.row op c = (d.applyCmd op c).afterCommands := by
  have e : (op == Opcode.sceneCommit) = false := by simpa using hop
  rw [Dev.row, withOp_of_code hc, if_neg (by simp [ha, hw]), if_pos hq, Dev.applyEntry, if_neg (by simp [hd]), if_neg (by simp [e])]

/-- A command that acts: its effect, with its completion where the effect gives one. -/
theorem row_applies {d : Dev} {op : Opcode} {c : Cmd} (hop : op ≠ .sceneCommit) (h : d.applies op c) :
    d.row op c = (match (d.unqueue c).effect op c ((d.unqueue c).cmdLate op c) with
      | (some p, e) => e.ends c p
      | (none, e) => e.afterCommands) := by
  obtain ⟨hc, ha, hw, hq, hd, hr⟩ := h
  rw [row_due hop hc ha hw hq hd]
  rw [Dev.applyCmd, hr]
  generalize (d.unqueue c).effect op c ((d.unqueue c).cmdLate op c) = x
  rcases x with ⟨_ | p, e⟩ <;> rfl

end Sys2Proof.Laws
end

