-- ==== Sys2Proof/Tests/Slice0.lean ====
section
/-! SUPPORT. Tests: ill-formed commands that `Instr.wf` refuses; states and operands that meet the hypotheses of each statement; one
step of a command on a small state, with the result that the cited rule gives. -/
namespace Sys2Proof.Tests
open Machine

set_option Elab.async false

/-! ## Small states -/

/-- The part in a device state, otherwise as after reset. -/
def inState (x : DevState) : Dev := { State.reset.dev with top := { State.reset.dev.top with st := x } }
def setup : Dev := inState .setup
def run : Dev := inState .run
def safe : Dev := inState .safe
/-- RUN with the tick running at tick 9. -/
def ticking : Dev := { run with top := { run.top with started := true, tick := 9 } }.setFlds [(R.TOP_RATE_TICK_RUN, 1)]
/-- A part with empty queue. -/
def st (d : Dev) : State := ⟨[], d⟩
/-- A unit enabled. -/
def enabled (b : Nat) (d : Dev) : Dev := d.setHd b { d.hd b with enable := true }
/-- A role of the pair, TTH enabled. -/
def inRole (r : Role) (d : Dev) : Dev := enabled tthBase { d with tth := { d.tth with role := r } }
/-- A descriptor of ring 0 with the given payload bytes (offset, value), apply tick 0. -/
def cmd (op : Opcode) (l : List (Nat × Nat)) : Cmd :=
  ⟨BitVec.ofNat 8 op.code, 0, 7, 0, BitVec.ofNat 384 (l.foldl (fun n x => n + x.2 * 2 ^ (8 * (x.1 - 16))) 0), 0, 5, 0, 7⟩
/-- The command waits in the pending-apply queue. -/
def queued (op : Opcode) (c : Cmd) (d : Dev) : Dev := { d with hre := { d.hre with paq := [⟨op, c⟩], outst := [c.id] } }
/-- A ring of a type, in service, of 2^s entries. -/
def ringOn (r ty s : Nat) (d : Dev) : Dev :=
  (d.setRing r { d.ring r with on := true }).setFlds [(R.RING_CFG_ENABLE r, 1), (R.RING_CFG_TYPE r, ty), (R.RING_CFG_LOG2_SIZE r, s)]

/-! The check words of R487: memory into which they have been written holds them. -/
theorem memGet_pieces (l : List (Nat × Nat)) : ∀ (m : List Host.Cell) (a : Nat), (∀ p ∈ l, a < p.1 ∨ p.1 + 4 ≤ a) →
    memGet (l.foldl (fun m p => memWrite m p.1 (leBytes 4 p.2)) m) a = memGet m a := by
  induction l with
  | nil => intros; rfl
  | cons q r ih =>
    intro m a h
    rw [List.foldl_cons, ih _ _ (fun p hp => h p (List.mem_cons_of_mem _ hp))]
    exact Laws.memGet_memWrite_out _ _ _ _ (by simpa [leBytes] using h q (List.mem_cons_self ..))

theorem words_stand (l : List (Nat × Nat)) : ∀ m : List Host.Cell, l.Pairwise (fun p q => p.1 + 4 ≤ q.1) → (∀ p ∈ l, p.2 < 2 ^ 32) →
    ∀ p ∈ l, memLe (l.foldl (fun m p => memWrite m p.1 (leBytes 4 p.2)) m) p.1 4 = p.2 := by
  induction l with
  | nil => intro _ _ _ p hp; cases hp
  | cons q r ih =>
    intro m hw hb p hp
    rcases List.mem_cons.1 hp with rfl | hp
    · have hd := (List.pairwise_cons.1 hw).1
      have g : ∀ k (hk : k < 4), memGet (r.foldl (fun m p => memWrite m p.1 (leBytes 4 p.2)) (memWrite m p.1 (leBytes 4 p.2))) (p.1 + k) =
          BitVec.ofNat 8 ((leBytes 4 p.2)[k]'(by simpa [leBytes] using hk)) := by
        intro k hk
        rw [memGet_pieces _ _ _ (fun e he => Or.inl (by have := hd e he; omega))]
        exact Laws.memGet_memWrite_in _ _ _ _ _
      have hp2 := hb p (List.mem_cons_self ..)
      have g0 := g 0 (by omega); have g1 := g 1 (by omega); have g2 := g 2 (by omega); have g3 := g 3 (by omega)
      simp only [Nat.add_zero] at g0
      simp only [List.foldl_cons, memLe, memRead, g0, g1, Nat.add_assoc, Nat.reduceAdd, g2, g3]
      simp [leBytes, ofLe]
      omega
    · exact ih _ (List.pairwise_cons.1 hw).2 (fun p hp => hb p (List.mem_cons_of_mem _ hp)) p hp
/-- Rising by at least 4. -/
def rising4 : List (Nat × Nat) → Bool
  | p :: q :: r => decide (p.1 + 4 ≤ q.1) && rising4 (q :: r)
  | _ => true
theorem rising4_pairwise : ∀ l : List (Nat × Nat), rising4 l = true → l.Pairwise (fun p q => p.1 + 4 ≤ q.1)
  | [], _ => .nil
  | [_], _ => List.pairwise_singleton ..
  | p :: q :: r, h => by
    simp only [rising4, Bool.and_eq_true, decide_eq_true_eq] at h
    have ih := rising4_pairwise (q :: r) h.2
    refine List.pairwise_cons.2 ⟨fun e he => ?_, ih⟩
    rcases List.mem_cons.1 he with rfl | he
    · exact h.1
    · have := (List.pairwise_cons.1 ih).1 e he; omega
/-- The part with the check words written. -/
def withWords (d : Dev) : Dev := { d with dram := d.checkPlaces.foldl (fun m p => memWrite m p.1 (leBytes 4 p.2)) d.dram }
theorem withWords_stand (d : Dev) (h : rising4 d.checkPlaces = true) (hb : d.checkPlaces.all (fun p => decide (p.2 < 2 ^ 32)) = true) :
    (withWords d).checkWordsStand = true := by
  have e : (withWords d).checkPlaces = d.checkPlaces := rfl
  simp only [Dev.checkWordsStand, List.all_eq_true, beq_iff_eq, e]
  exact words_stand _ _ (rising4_pairwise _ h) (fun p hp => by simpa using (List.all_eq_true.1 hb) p hp)
/-- RUN with a channel granule of 64 KiB. -/
def coarse : Dev := run.setFlds [(R.DMC_CFG_GRAIN, 16), (R.DMC_CHECK_RECHECK, 1)]
theorem check_words_stand : (withWords coarse).checkWordsStand = true :=
  withWords_stand _ (by decide +kernel) (by decide +kernel)
/-! ## Witnesses: the queue, device states, TOP -/

def queuedNop : State := ⟨[.snap, .urgentPoll], setup⟩
theorem witness_StepRunsTheFrontCommand : queuedNop.pending = .snap :: [.urgentPoll] := by decide
theorem witness_IdleStepIsOneTimeCycle : (st setup).pending = [] := by decide
theorem witness_Vector0ConditionIsKeptByEveryStep : State.reset.vec0Current ∧ ∃ t, step State.reset = .next t :=
  ⟨(by decide +kernel : State.reset.dev.hre.vec0 = (State.reset.dev.topEvents != 0)), _, rfl⟩
/-- An enabled event of TOP stands. -/
def signalled (m fm v0 : Bool) : Dev :=
  let d := setup.setHd topBase { setup.hd topBase with event := 1#32, eventEn := 1#32 }
  { d with hre := { d.hre with vec0 := v0 }, cfg := { d.cfg with msixEnable := m, funcMask := fm } }
theorem witness_Vector0SendsOnceOnTheRise :
    (signalled true false false).topEvents ≠ 0#32 ∧ (signalled true false false).hre.vec0 = false ∧ (signalled true false false).cfg.msixEnable = true ∧
    ((signalled true false false).setFld (R.MSIX_CTRL_MASK 0) 0).flag (R.MSIX_CTRL_MASK 0) = false ∧ (signalled true true false).cfg.funcMask = true ∧
    ((signalled true false false).setFld (R.MSIX_CTRL_MASK 0) 1).flag (R.MSIX_CTRL_MASK 0) = true ∧
    (signalled true false true).hre.vec0 = true ∧ setup.topEvents = 0#32 ∧ (signalled false false false).cfg.msixEnable = false := by decide +kernel
theorem witness_StateTransitionsFollowR38_requests :
    ticking.tickOn = true ∧ ticking.top.st = .run ∧ { ticking with top := { ticking.top with st := .setup } }.tickOn = true ∧
    (setup.tickOn = false ∧ setup.safeCauses = [] ∧ setup.top.st ≠ .run) := by
  decide +kernel
/-- A standing request. -/
def asking (r : DevState) (d : Dev) : Dev := { d with top := { d.top with req := some r } }
/-- SETUP with the tick to run, DPLL-A locked, the delays checked. -/
def ready : Dev := setup.setFlds [(R.TOP_RATE_TICK_RUN, 1), (R.DPLL_STAT_STATE 0, 3), (R.DMC_CHECK_CHECKED, 1)]
theorem witness_StateTransitionsFollowR38_moves :
    ((asking .run ready).safeCauses = [] ∧ (asking .run ready).top.st = .setup ∧ (asking .run ready).flag R.TOP_RATE_TICK_RUN = true ∧
      (asking .run ready).fld (R.DPLL_STAT_STATE 0) ≠ 0 ∧ (asking .run ready).flag R.DMC_CHECK_CHECKED = true) ∧
    (asking .setup run).safeCauses = [] ∧ (asking .safe run).safeCauses = [] ∧ (asking .setup safe).safeCauses = [] ∧
    ((asking .standby setup).safeCauses = [] ∧ (asking .standby setup).hre.paq = [] ∧
      (asking .standby setup).flag R.TOP_RATE_TICK_RUN = false) ∧ (asking .setup (inState .standby)).safeCauses = [] := by decide +kernel
theorem witness_StateTransitionsFollowR38_refusals :
    (State.reset.dev.safeCauses = [] ∧ State.reset.dev.top.st ≠ .standby ∧ State.reset.dev.top.st ≠ .setup ∧
      State.reset.dev.top.st ≠ .run ∧ State.reset.dev.top.st ≠ .safe) ∧
    setup.flag R.TOP_RATE_TICK_RUN = false ∧
    ((ready.setFld (R.DPLL_STAT_STATE 0) 0).flag R.TOP_RATE_TICK_RUN = true ∧
      (ready.setFld (R.DPLL_STAT_STATE 0) 0).fld (R.DPLL_STAT_STATE 0) = 0) ∧
    ((ready.setFld R.DMC_CHECK_CHECKED 0).fld (R.DPLL_STAT_STATE 0) ≠ 0 ∧
      (ready.setFld R.DMC_CHECK_CHECKED 0).flag R.DMC_CHECK_CHECKED = false) ∧
    (queued .nop (cmd .nop []) setup).hre.paq ≠ [] ∧ ready.hre.paq = [] ∧ ready.safeCauses = [] := by decide +kernel
/-- A standing supply fault. -/
def brownOut (d : Dev) : Dev := { d with pwr := { d.pwr with supply := true } }
theorem witness_HardwareCauseEntersSafe :
    (brownOut run).safeCauses = 4 :: [] ∧ (brownOut run).top.st = .run ∧
    (brownOut (asking .run setup)).safeCauses = 4 :: [] ∧ (asking .run setup).top.req = some .run ∧
    { run with top := { run.top with overruns := 8 } }.fld R.TOP_PIPE_OVERRUN_LIMIT ≠ 0 ∧
    { run with top := { run.top with overruns := 8 } }.fld R.TOP_PIPE_OVERRUN_LIMIT ≤ 8 := by decide +kernel
theorem witness_TopRateChangesOnlyInSetup :
    (setup.top.st = .setup ∧ setup.flag R.TOP_RATE_TICK_RUN = false) ∧ (ready.top.st = .setup ∧ ready.flag R.TOP_RATE_TICK_RUN = true) ∧
    run.top.st ≠ .setup ∧ run.effEn topBase = true ∧ bits (0 : Nat) 4 2 ≠ run.fld R.TOP_RATE_BLOCK := by decide +kernel
theorem witness_TopPipeWriteFollowsR36 :
    (inRole .standby run).isStandby = true ∧ setup.isStandby = false ∧ setup.top.st = .setup ∧ run.isStandby = false ∧
      run.top.st ≠ .setup := by decide +kernel
theorem witness_TickCounterReadAndLoad :
    bitAt (0x80000000#32).toNat 31 = true ∧ setup.flag R.TOP_RATE_TICK_RUN = false ∧ run.top.st ≠ .setup ∧ bitAt (0x7FFFFFFF#32).toNat 31 = false ∧
      { setup with ref := { setup.ref with tickWait := true } }.ref.tickWait = true := by decide +kernel
/-- The row of a unit. -/
def unitRow (b : Nat) : UnitRow := (unitAt b).getD ⟨0, 0, 0, 0, false, false, false, false, 0⟩
theorem witness_UnitEnablesAndControlsFollowR47AndR48 :
    (unitRow panBase ∈ unitRows ∧ (unitRow panBase).base ≠ topBase ∧ setup.effEn tthBase = false ∧ setup.effEn hreBase = true) ∧
    (unitRow slpBase ∈ unitRows ∧ setup.opens slpBase = true ∧ (setup.isStandby && mirroredReg (slpBase + 8)) = false ∧
      resetAllowed setup slpBase = true ∧ (setup.hd slpBase).hold = false ∧ bitAt (7#32).toNat 2 = true ∧ bitAt (3#32).toNat 2 = false) ∧
    (resetAllowed setup hreBase = false ∧ resetAllowed run hreBase = false ∧ resetAllowed (inState .off) pwrBase = true) ∧
    ({ setup with hdr := (setup.setHd slpBase { setup.hd slpBase with inReset := true }).hdr }.hd slpBase).inReset = true := by
  decide +kernel
theorem witness_ResetUnitRestoresTheSubtree :
    unitRow objBase ∈ unitRows ∧ isUnder (unitRow objBase).base (laneBase 31) = true ∧ laneBase 31 ≠ (unitRow objBase).base ∧
      isUnder (unitRow objBase).base hreBase = false := by decide +kernel
theorem witness_RegisterFieldsFollowTheirAccessTypes :
    [(0x20150, Acc.w1c), (0x20150, .ro), (0x124, .rc), (0x104, .wo), (0x60208, .rws), (0x10408, .rw)].all (fun x =>
      (rowAt x.1).any (fun r => r.fields.any (fun f => f.acc == x.2))) = true := by decide +kernel
theorem witness_RegisterAccessesThroughBar0 :
    (0x20124 : Nat) % 4 = 0 ∧ decoded 0x20124 = true ∧ setup.opens (0x20124 / 0x10000 * 0x10000) = true ∧ headerOf 0x20124 = none ∧
      entryAbsent setup 0x20124 = false ∧ writeHit 0x20124 = none ∧ readHit 0x20124 = none ∧ bits (15#8).toNat 0 4 = 15 ∧
      (setup.isStandby && mirroredReg 0x20124) = false ∧ bits (7#8).toNat 0 4 ≠ 15 ∧ (0x10438 : Nat) % 8 = 0 ∧
    ((inState .off).opens 0x20000 = false ∧ (headerOf 0x20000).isSome = true ∧ entryAbsent setup 0xE9000 = true ∧ entryAbsent setup 0xE8FFC = false ∧
      headerOf 0xE9000 = none ∧ setup.opens 0xE0000 = true ∧ (readHit 0x110).isSome = true ∧ entryAbsent setup 0x110 = false ∧ headerOf 0x110 = none ∧
      (writeHit 0x108).isSome = true ∧ entryAbsent setup 0x108 = false ∧ headerOf 0x108 = none ∧ decoded 0x110 = true ∧ setup.opens topBase = true) := by
  decide +kernel
theorem witness_Bar2AndUndecodedAccessesFollowR57 :
    run.top.st ≠ .setup ∧ setup.top.st = .setup ∧ (0x7FFFFC : Nat) % 4 = 0 ∧ (0x800000 : Nat) % 4 = 0 ∧ (0x9FFFFC : Nat) < 0xA00000 ∧
      (0xFFFFFC : Nat) < 0x1000000 ∧ (0x5000000 : Nat) % 4 = 0 ∧ decoded 0x3FFFFFC = false := by decide +kernel
/-- HRE polls and allows urgent polls. -/
def polling (n : Nat) (d : Dev) : Dev := d.setFlds [(R.HRE_CTL_POLL_EN, 1), (R.HRE_CTL_URGENT_MAX, n)]
def urgent (w : Bool) (n : Nat) (d : Dev) : Dev := { d with hre := { d.hre with urgentWait := w, urgentRuns := n } }
theorem witness_HostPollsAndErrorsFollowR67AndR97 :
    (setup.opens hreBase = true ∧ setup.works hreBase = true ∧ (polling 0 setup).fld R.HRE_CTL_URGENT_MAX = 0) ∧
    ((polling 3 setup).flag R.HRE_CTL_POLL_EN = true ∧ (polling 3 setup).fld R.HRE_CTL_URGENT_MAX = 3 ∧
      (urgent false 3 (polling 3 setup)).hre.urgentWait = false ∧ 3 ≤ (urgent false 3 (polling 3 setup)).hre.urgentRuns) ∧
    (let d := ((urgent true 2 (polling 3 setup)).timePasses Boundary.quiet.cycles).hostStores Boundary.quiet.hostWrites
     d.hre.urgentWait = true ∧ d.awake = true ∧ d.works hreBase = true ∧ d.flag R.HRE_CTL_POLL_EN = true ∧ d.fld R.HRE_CTL_URGENT_MAX ≠ 0 ∧
       Boundary.quiet.pollLate = false ∧ { Boundary.quiet with pollLate := true }.pollLate = true) ∧
    (let d := ((urgent true 2 (polling 0 setup)).timePasses Boundary.quiet.cycles).hostStores Boundary.quiet.hostWrites
     d.hre.urgentWait = true ∧ d.awake = true ∧ d.works hreBase = true ∧ d.fld R.HRE_CTL_URGENT_MAX = 0) ∧
    ((ringOn 63 0 4 setup).ringLive 63 = true ∧ (ringOn 63 0 4 setup).ringType 63 = 0 ∧ hostFed ((ringOn 63 0 4 setup).ringType 63) = true ∧
      (ringOn 63 0 4 setup).works hreBase = true ∧ setup.ringLive 62 = false ∧
      ({ setup with hre := { setup.hre with copies := [⟨cmd .tableRead [], false, none, false⟩] } } : Dev).hre.copies = ⟨cmd .tableRead [], false, none, false⟩ :: []) := by
  decide +kernel
def nop5 : Cmd := cmd .nop []
/-- An unlisted code. -/
def badCode : Cmd := { nop5 with code := 0xFF#8 }
/-- A command with a later tick. -/
def later (op : Opcode) (t : Nat) : Cmd := { cmd op [] with apply := BitVec.ofNat 48 t }
theorem witness_CommandsWaitActOrAreRefused_nop : (queued .nop nop5 setup).applies .nop nop5 := by unfold Dev.applies; decide +kernel
theorem witness_CommandsWaitActOrAreRefused :
    (opcodeOf badCode.code.toNat = none ∧ setup.works hreBase = true ∧ setup.paqTaken = false ∧
      ({ setup with hre := { setup.hre with paq := List.replicate 4096 ⟨.nop, nop5⟩ } } : Dev).paqTaken = true) ∧
    ([Opcode.nop, .tableRead, .xptNodes, .xptRampSet, .outBankLoad, .outSwap, .patchSet, .portCfg, .streamCfg, .fmnSubmit, .fmnCancel,
      .mtrCfg].all (fun op => ticking.cmdDue op (later op 20) == false && !ticking.paqTaken &&
        (later op 20).code == BitVec.ofNat 8 op.code && !ticking.hre.paq.any (fun e => e.cmd.id == (later op 20).id))) = true ∧
    ((queued .objSet (cmd .objSet []) safe).cmdDue .objSet (cmd .objSet []) = true ∧
      ((queued .outSwap (cmd .outSwap []) (inState .standby)).unqueue (cmd .outSwap [])).refused .outSwap (cmd .outSwap []) =
        some ⟨.refusedState, 0, 0⟩) ∧
    (safe.top.st = .safe ∧ Opcode.objSet.inSafe = false ∧ Opcode.nop.inSafe = true ∧ safe.effEn tthBase = false) ∧
    ((inRole .active run).tth.role = .active ∧ (inRole .active run).effEn tthBase = true ∧ (inRole .active run).fitPresent = false ∧
      { nop5 with flags := 0xFF#8 }.mirrorReq = true) := by decide +kernel
theorem witness_RingEntriesAndVectorsFollowR90AndR94 :
    ((63 : Nat) < 64 ∧ (List.replicate 63 0).length = 63 ∧
      (((ringOn 0 1 4 setup).setFld (R.RING_DEV_IDX_DEV_IDX 0) 0xFFFFFFFF).fld (R.RING_DEV_IDX_DEV_IDX 0) + 1) % 2 ^ 32 % (ringOn 0 1 4 setup).ringSize 0 = 0) ∧
    (setup.awake = true ∧ setup.works hreBase = true ∧
      vectorDue (((ringOn 9 2 4 setup).setRing 9 { setup.ring 9 with unrep := 1 }).setFlds [(R.RING_VEC_VEC 9, 3)]) 9 = true ∧
      vectorDue setup 8 = false) ∧
    ((inState .off).awake = false ∧ (inState .off).opens hreBase = false ∧ (signalled false false false).cfg.msixEnable = false ∧ (signalled true false false).cfg.funcMask = false ∧
      (signalled true true false).cfg.funcMask = true ∧ setup.effEn hreBase = true ∧ (setup.setFld (R.MSIX_CTRL_MASK 63) 0).flag (R.MSIX_CTRL_MASK 63) = false) ∧
    (setup.opens hreBase = true ∧ bitAt (setup.fld (R.MSIX_PBA_PENDING 1)) 31 = false ∧
      bitAt (((signalled true false false).setFld (R.MSIX_PBA_PENDING 1) 0x80000000).fld (R.MSIX_PBA_PENDING 1)) 31 = true) := by decide +kernel
/-- A marker of tick 9 at level 3. -/
def mark : Marker := ⟨⟨1, [1, 2, 3], 0⟩, 9, 100, [], 3, 0, 1, [], [], []⟩

/-! ## Witnesses: barriers, tables, commits, objects -/

/-- A barrier over every ring; an earlier command of ring 3 stands. -/
def bar : Cmd := cmd .barrier [(16, 1)]
def earlier : Dev := { setup with hre := { setup.hre with outst := [⟨3, 4, 1⟩] } }
theorem witness_BarrierCompletesAfterItsScope :
    (bar.code = BitVec.ofNat 8 Opcode.barrier.code ∧ setup.awake = true ∧ setup.works hreBase = true ∧
      setup.hre.paq.any (fun e => e.cmd.id == bar.id) = false ∧ setup.paqTaken = false ∧ setup.hre.barriers = [] ∧ (setup.enlist bar).isDue bar = true ∧ barrierWaits (setup.enlist bar) bar = [] ∧
      (setup.enlist bar).refused .barrier bar = none) ∧
    barrierWaits (earlier.enlist bar) bar ≠ [] ∧ (let c : Cmd := { bar with flags := 2#8 }
     let d := inRole .active setup
     d.awake = true ∧ d.works hreBase = true ∧ (d.enlist c).isDue c = true ∧ (d.enlist c).refused .barrier c = some ⟨.unfit, 0, 0⟩) ∧
    ({ ticking with hre := { ticking.hre with barriers := [⟨later .barrier 20, [], false, true⟩] } } : Dev).isDue (later .barrier 20) = false ∧ (ticking.enlist (later .barrier 20)).isDue (later .barrier 20) = false ∧
    (({ setup with hre := { setup.hre with barriers := [⟨bar, [⟨3, 4, 1⟩], false, false⟩] } } : Dev).hre.barriers = [⟨bar, [⟨3, 4, 1⟩], false, false⟩] ∧
      (⟨3, 4, 1⟩ : CmdId) ∉ setup.hre.outst ∧ setup.isDue bar = true ∧ setup.refused .barrier bar = none) := by decide +kernel
/-- An inline write of 32 bytes to the last bytes of the crosspoint node table; one beyond it; one with a check value. -/
def tw (l : List (Nat × Nat)) : Cmd := cmd .tableWrite ([(16, T.xptNode), (28, 2)] ++ l)
def twLast : Cmd := tw [(20, tableSize T.xptNode - 32), (24, 32)]
def twBeyond : Cmd := tw [(20, tableSize T.xptNode - 28), (24, 32)]
/-- A commit fetched before it that has not acted. -/
def committing (d : Dev) : Dev := { d with hre := { d.hre with commits := [⟨⟨1, 1, 1⟩, [], none, false⟩] } }
/-- An earlier write is held. -/
def holding : Dev := { setup with hre := { setup.hre with held := [tw [(20, 0), (24, 4)]] } }
def copying (c : Cmd) (w : Bool) (d : Dev) : Dev :=
  { d with hre := { d.hre with copies := [⟨c, w, some (d.tab (Tw.tableId c)).live, false⟩], outst := [c.id] } }
theorem witness_TableWriteCopiesIntoTheStagedCopy_held :
    ((committing setup).takesWrite twLast ∧ (hasStaged (Tw.tableId twLast) &&
      (((committing setup).enlist twLast).commitAhead twLast.id || !((committing setup).enlist twLast).hre.held.isEmpty)) = true) ∧
    (holding.takesWrite twLast ∧ (hasStaged (Tw.tableId twLast) && ((holding.enlist twLast).commitAhead twLast.id || !(holding.enlist twLast).hre.held.isEmpty)) = true) := by
  unfold Dev.takesWrite; decide +kernel
theorem witness_TableWriteCopiesIntoTheStagedCopy :
    setup.takesWrite twLast ∧ (hasStaged (Tw.tableId twLast) && ((setup.enlist twLast).commitAhead twLast.id || !(setup.enlist twLast).hre.held.isEmpty)) = false ∧
    (setup.enlist twLast).tableDetail twLast true = none ∧ (setup.enlist twBeyond).tableDetail twBeyond true = some 3 ∧
    ((copying twLast true setup).hre.copies.length = 1 ∧ Tw.inline twLast = true ∧ Tw.check twLast = false ∧ 32 ≤ Tw.length twLast) ∧
    (T.xptNode ≠ T.dspImage ∧ hasStaged T.xptNode = true) ∧
    (let d : Dev := { setup with hre := { setup.hre with held := [twLast], heldGo := true } }
     d.hre.heldGo = true ∧ ∀ c ∈ d.hre.held, d.commitAhead c.id = false) := by unfold Dev.takesWrite; decide +kernel
def tr (l : List (Nat × Nat)) : Cmd := cmd .tableRead ([(16, T.xptNode)] ++ l)
def trLast : Cmd := tr [(20, tableSize T.xptNode - 4), (24, 4), (32, 0x1000)]
def trNone : Cmd := tr [(24, 2)]
theorem witness_TableReadCopiesTheTableToHostMemory :
    (queued .tableRead trLast setup).applies .tableRead trLast ∧ ((queued .tableRead trLast setup).unqueue trLast).tableDetail trLast false = none ∧
    (queued .tableRead trNone setup).applies .tableRead trNone ∧ ((queued .tableRead trNone setup).unqueue trNone).tableDetail trNone false = some 3 ∧
    ((copying trLast false setup).hre.copies = [⟨trLast, false, some [], false⟩]) ∧ (0xFFFFFFFFFFFFFFFF : Nat) < 2 ^ 64 := by
  unfold Dev.applies; decide +kernel
def sc : Cmd := cmd .sceneCommit []
def scDiscard : Cmd := cmd .sceneCommit [(16, 1)]
/-- A changed staged table, and a bad one. -/
def staged (t : Nat) (bad : List (Nat × Nat)) (d : Dev) : Dev := d.setTab t { d.tab t with staged := [(0, 5)], changed := true, bad := bad }
def commitQueued (c : Cmd) (w : List CmdId) (late : Bool) (d : Dev) : Dev :=
  { d with hre := { d.hre with paq := [⟨.sceneCommit, c⟩], outst := [c.id], commits := [⟨c.id, w, none, late⟩] } }
theorem witness_SceneCommitSwapsOrDiscards :
    (let d := commitQueued sc [] false (staged T.xptClip [] setup)
     sc.withBits 16 1 0 = sc ∧ d.applies .sceneCommit sc ∧ d.refused .sceneCommit sc = none ∧ (d.commitW sc.id).late = false ∧
       commitReady d ⟨.sceneCommit, sc⟩ = true ∧ ∀ t ∈ stagedTables, ((d.commitChecks ⟨.sceneCommit, sc⟩).tab t).bad = []) ∧
    (let d := commitQueued sc [] false (staged T.xptClip [(0, 4)] setup)
     commitReady d ⟨.sceneCommit, sc⟩ = true ∧ ((d.commitChecks ⟨.sceneCommit, sc⟩).tab T.xptClip).bad ≠ [] ∧ T.xptClip ∈ stagedTables) ∧
    commitReady (commitQueued sc [⟨1, 1, 1⟩] false setup) ⟨.sceneCommit, sc⟩ = false ∧
    (let d := commitQueued scDiscard [] false (staged T.xptClip [(0, 4)] setup)
     scDiscard.withBits 16 1 1 = scDiscard ∧ d.applies .sceneCommit scDiscard ∧ d.refused .sceneCommit scDiscard = none ∧
       (d.commitW scDiscard.id).late = false ∧ (d.commitW scDiscard.id).waits = []) ∧
    (let d := commitQueued sc [] true setup
     d.hre.paq.filter (fun e => (d.commitW e.cmd.id).late) = [⟨.sceneCommit, sc⟩] ∧ d.isDue sc = true ∧ commitReady d ⟨.sceneCommit, sc⟩ = true) := by
  unfold Dev.applies; decide +kernel
/-- A layout with three real speakers, and a hull of one triangle on them that is its own neighbour. -/
def layout3 : SMap Word := [(0, 3#32), (16, 1#32), (19, 0x80000000#32), (20, 1#32), (23, 0x80000000#32), (24, 1#32), (27, 0x80000000#32)]
def hull1 : SMap Word := [(0, 1#32), (0x310, 0x10000#32), (0x311, 2#32)]
def pair (l h : SMap Word) (d : Dev) : Dev :=
  (d.setTab T.objLayout { d.tab T.objLayout with staged := l, changed := true }).setTab T.objHull { d.tab T.objHull with staged := h, changed := true }
theorem witness_PanStageValidatesTheStagedPair :
    (let d := commitQueued sc [] false (pair layout3 hull1 ticking)
     d.hre.paq = [⟨.sceneCommit, sc⟩] ∧ commitDiscard sc = false ∧ d.running = true ∧ (d.commitW sc.id).waits = [] ∧
       (d.commitW sc.id).validAt = none ∧ sc.fetch < d.top.tick ∧ swapsObj d = true) ∧
    ((pair layout3 hull1 setup).tab T.objLayout).changed = true ∧
    validate setup layout3 hull1 = none ∧ validate setup layout3 [] = none ∧ validate setup layout3 ((0x10, 7#32) :: hull1) = some (9, 2, 0) ∧ validate setup [(0, 1025#32)] hull1 = some (1, 1, 0) ∧
    (ticking.running = true ∧ ticking.awake = true) ∧ (setup.opens objBase = true ∧ setup.isStandby = false ∧ run.top.st ≠ .setup) := by
  decide +kernel
def objSetAt (j mask : Nat) : Cmd := cmd .objSet [(16, j), (18, mask), (24, 5)]
def objQ (c : Cmd) : Dev := queued .objSet c setup
theorem witness_ObjSetWritesTheSelectedWords :
    (objQ (objSetAt 1023 0x3FF)).applies .objSet (objSetAt 1023 0x3FF) ∧ (objSetAt 1023 0x3FF).u16 16 < ((objQ (objSetAt 1023 0x3FF)).unqueue (objSetAt 1023 0x3FF)).nObj ∧
      (maskBits ((objSetAt 1023 0x3FF).u16 18)).length = 10 ∧ (∀ n ∈ maskBits ((objSetAt 1023 0x3FF).u16 18), n < 10) ∧
    (objQ (objSetAt 1024 1)).applies .objSet (objSetAt 1024 1) ∧ setup.nObj ≤ (objSetAt 1024 1).u16 16 ∧
    (objQ (objSetAt 0 0x400)).applies .objSet (objSetAt 0 0x400) ∧ 10 ∈ maskBits ((objSetAt 0 0x400).u16 18) := by
  unfold Dev.applies; decide +kernel
def kf (j fl : Nat) : Cmd := cmd .objKeyframe [(16, j), (18, 8), (20, fl), (24, 0x1000), (36, 0x4000)]
theorem witness_ObjKeyframeStartsMovesFromTheTickBefore :
    (queued .objKeyframe (kf 1023 7) setup).applies .objKeyframe (kf 1023 7) ∧ (kf 1023 7).u16 16 < setup.nObj ∧ bitAt ((kf 1023 7).u8 20) 2 = true ∧
    (queued .objKeyframe (kf 0 0) setup).applies .objKeyframe (kf 0 0) ∧ bitAt ((kf 0 0).u8 20) 0 = false ∧
    (queued .objKeyframe (kf 1024 1) setup).applies .objKeyframe (kf 1024 1) ∧ setup.nObj ≤ (kf 1024 1).u16 16 := by
  unfold Dev.applies; decide +kernel
theorem witness_LanesAreLostAndObjectsReadmitted :
    (run.top.st = .run ∧ run.works (laneBase 31) = true ∧ run.works objBase = true ∧ run.works xptBase = true) ∧
    ({ run with obj := { run.obj with pHist := [7, 9], admitted := 3 } } : Dev).obj.pHist = 7 :: [9] := by decide +kernel
/-! ## Witnesses: crosspoint, meters, chains, ports, DRAM -/

theorem witness_CrosspointCommandsWriteBothCopies :
    (let c := cmd .xptNodes [(16, 1004), (18, 1023), (20, 20), (22, 2), (24, 5)]
     (queued .xptNodes c setup).applies .xptNodes c ∧ c.u16 20 ≤ 20 ∧ c.u16 16 + (c.u16 20 - 1) < setup.nBus) ∧
    (let c := cmd .xptNodes [(20, 1024), (22, 3), (24, 5)]
     (queued .xptNodes c setup).applies .xptNodes c ∧ c.u16 20 ≤ 1024 ∧ bitAt (c.u8 22) 0 = true) ∧
    (let c := cmd .xptNodes [(20, 21)]
     (queued .xptNodes c setup).applies .xptNodes c ∧ 20 < c.u16 20) ∧
    (let c := cmd .xptRampSet [(16, 1023), (18, 1), (20, 64)]
     (queued .xptRampSet c setup).applies .xptRampSet c ∧ c.u16 16 + c.u16 18 ≤ setup.nBus) ∧
    (let c := cmd .xptRampSet [(16, 1023), (18, 2)]
     (queued .xptRampSet c setup).applies .xptRampSet c ∧ setup.nBus < c.u16 16 + c.u16 18) := by unfold Dev.applies; decide +kernel
def mtrOn : Cmd := cmd .mtrCfg [(16, 63), (17, 3), (18, 1), (20, 4095), (22, 1)]
def mtrRing : Dev := ringOn 63 3 4 setup
/-- Snapshots due at tick 9 of an interval of 9, over 128 points, in ring 63. -/
def snapping (d : Dev) : Dev := d.setFlds [(R.MTR_SNAP_INTERVAL, 9), (R.MTR_SNAP_RING, 63), (R.MTR_SNAP_EN, 1), (R.MTR_RANGE_COUNT, 128)]
theorem witness_MeterSnapshotsFollowR190ToR192 :
    ((queued .mtrCfg mtrOn mtrRing).applies .mtrCfg mtrOn ∧ mtrRing.ringType (mtrOn.u8 16 % 64) = 3 ∧ mtrRing.ringEnabled 63 = true ∧
      snapEntries (mtrOn.u16 22) ≤ mtrRing.ringSize 63 ∧ mtrOn.u16 20 + mtrOn.u16 22 ≤ 4096) ∧
    ((queued .mtrCfg mtrOn setup).applies .mtrCfg mtrOn ∧ setup.ringType 63 ≠ 3 ∧ bitAt (mtrOn.u8 17) 0 = true) ∧
    (snapDue (snapping (ringOn 63 3 4 ticking)) = true ∧ (ringOn 63 3 4 ticking).ringLive 63 = true ∧
      snapEntries 128 ≤ (ringOn 63 3 4 ticking).ringFree 63) ∧
    snapDue (snapping ticking) = true ∧ ticking.ringLive 63 = false := by unfold Dev.applies; decide +kernel
def bankLoad (ch b off len : Nat) : Cmd := cmd .outBankLoad [(16, ch), (18, b), (20, off), (24, len), (32, 0x1000)]
def blQ (c : Cmd) : Dev := queued .outBankLoad c setup
def lastWord : Nat := bankSize setup - 4
def bank (x : CoefBank) (d : Dev) : Dev := d.setBank 511 1 x
theorem witness_BankLoadsRunFromCopyToRestart :
    (let c := bankLoad 511 1 lastWord 4
     (blQ c).applies .outBankLoad c ∧ c.u16 16 < setup.nChain ∧ c.u32 20 % 4 = 0 ∧ c.u32 20 + c.u32 24 ≤ bankSize setup ∧
       setup.out.fades.any (fun e => e.1 == 511) = false ∧ setup.audible 511 ≠ 1 ∧ ChainT.bank setup 511 ≠ 1) ∧
    (let c := bankLoad 512 1 0 4
     (blQ c).applies .outBankLoad c ∧ setup.nChain ≤ c.u16 16) ∧
    (let c := bankLoad 0 1 (lastWord + 4) 4
     (blQ c).applies .outBankLoad c ∧ ¬ c.u32 20 + c.u32 24 ≤ bankSize setup) ∧
    (let c := bankLoad 0 0 0 4
     (blQ c).applies .outBankLoad c ∧ setup.audible 0 = 0) ∧
    (let c := bankLoad 511 1 0 4
     ((bank { CoefBank.zero with st := .loading, copying := [(c, false)] } setup).bankOf 511 1).copying = (c, false) :: [] ∧
       bitAt (c.u8 19) 0 = false ∧ ((bank { CoefBank.zero with st := .loading, copying := [(c, false)] } setup).bankOf 511 1).copied = [] ∧
     ((bank { CoefBank.zero with transform := true, copied := [(c, false, 7)] } setup).bankOf 511 1).transform = true ∧
     ((bank { CoefBank.zero with tr := some (9, false) } ticking).bankOf 511 1).tr = some (9, false) ∧ 9 ≤ ticking.top.tick ∧ CoefBank.zero.transform = false) ∧
    (let c := { bankLoad 511 1 0 4 with payload := (bankLoad 511 1 0 4).payload ||| (1#384 <<< 24) }
     bitAt (c.u8 19) 0 = true ∧ setup.works (cvuBase 3) = true ∧ (setup.cvuCompute 3 (BankL.tag c) (setup.hostData c (c.u64 32) (c.u32 24))).1 ≠ c.u32 40) ∧
    (let d := bank { CoefBank.zero with formed := true, copied := [(bankLoad 511 1 0 4, false, 7)] } setup
     (d.bankOf 511 1).formed = true ∧ (d.bankOf 511 1).copied.getLast? = some (bankLoad 511 1 0 4, false, 7) ∧ d.isStandby = false) ∧
    (let d : Dev := { bank { CoefBank.zero with tr := some (9, false) } ticking with out := { (bank { CoefBank.zero with tr := some (9, false) } ticking).out with chains := [(511, { ChainR.zero with on := true })] } }
     (smGet (fun _ => ChainR.zero) d.out.chains 511).on = true) := by
  unfold Dev.applies; decide +kernel
def swap (ch b : Nat) : Cmd := cmd .outSwap [(16, ch), (18, b)]
theorem witness_SwapsCrossfadesAndPatchEntries :
    ((queued .outSwap (swap 511 1) setup).applies .outSwap (swap 511 1) ∧ (setup.bankOf 511 1).st = .ready ∧ 511 < setup.nChain ∧
      setup.out.fades = [] ∧ 1 ≠ setup.audible 511) ∧
    ((queued .outSwap (swap 512 0) setup).applies .outSwap (swap 512 0) ∧ setup.nChain ≤ 512) ∧
    ((queued .outSwap (swap 511 1) (bank { CoefBank.zero with st := .loading } setup)).applies .outSwap (swap 511 1) ∧
      ((bank { CoefBank.zero with st := .loading } setup).bankOf 511 1).st ≠ .ready) ∧
    ({ ticking with out := { ticking.out with fades := [(511, ⟨0, 1, 5, 4⟩)] } }.out.fades = [(511, ⟨0, 1, 5, 4⟩)] ∧ 5 + 4 ≤ ticking.top.tick) ∧
    (let c := cmd .patchSet [(16, 2038), (18, 10)]
     (queued .patchSet c setup).applies .patchSet c ∧ c.u16 16 + c.u16 18 ≤ 2048) ∧
    (let c := cmd .patchSet [(16, 2038), (18, 11)]
     (queued .patchSet c setup).applies .patchSet c ∧ 10 < c.u16 18) := by unfold Dev.applies; decide +kernel
def pc (b s : Nat) (l : List (Nat × Nat)) : Cmd := cmd .portCfg ([(16, b), (17, s)] ++ l)
def pcOk (c : Cmd) : Prop := (queued .portCfg c setup).applies .portCfg c
/-- Port 31 with a configuration waiting, envelopes at 0. -/
def waitingFor (ctl : Nat) : Dev := setup.setPort 31 { PortS.zero with want := some [ctl, 0, 0, 0, 0] }
def waiting : Dev := waitingFor 0xC0000000
/-- All 32 slots of every port asked for, one slot at a time. -/
def fullPorts : Dev := (List.range 32).foldl (fun d p =>
  (enabled (portBase p) d).setFlds [(R.PORT_CTL_CTL p, 0x80000000), (R.PORT_MASK_IN_MASK p, 0xFFFFFFFF)])
  ((List.range 8).foldl (fun d g => d.setFld (R.GRP_FMT_FMT g) 0x2020) (setup.setFld R.TOP_RATE_FS_MULT 1))
theorem witness_PortConfigurationIsCheckedShadowedAndRestarted :
    (pcOk (pc 31 0 []) ∧ Pc.sel (pc 31 0 []) = 0) ∧ (pcOk (pc 0x60 1 []) ∧ Pc.sel (pc 0x60 1 []) ≠ 0 ∧ (pc 0x60 1 []).u8 16 &&& 0x60 ≠ 0) ∧
    (pcOk (pc 0x87 1 [(20, 0x2121)]) ∧ fmtBad setup (Pc.fmt (pc 0x87 1 [(20, 0x2121)])) = true ∧ Pc.group (pc 0x87 1 [(20, 0x2121)]) = true) ∧
    (let c := pc 0x87 3 [(20, 0x202008)]
     pcOk c ∧ fmtBad setup (Pc.fmt c) = false ∧ ¬ setup.cap 1024 < askedSlots setup c false ∧ ¬ setup.cap 1024 < askedSlots setup c true) ∧
    fmtBad setup (Pc.fmt (pc 0x87 3 [(20, 0x2000 + 7 * 2 ^ 21)])) = true ∧
    (pcOk (pc 31 6 [(24, 0xFFFFFFFF)]) ∧ (bitAt (Pc.sel (pc 31 6 [(24, 0xFFFFFFFF)])) 0 || bitAt (Pc.sel (pc 31 6 [(24, 0xFFFFFFFF)])) 3) = false) ∧
    ((queued .portCfg (pc 0 2 [(24, 0xFFFFFFFF)]) fullPorts).applies .portCfg (pc 0 2 [(24, 0xFFFFFFFF)]) ∧
      fullPorts.cap 1024 < askedSlots fullPorts (pc 0 2 [(24, 0xFFFFFFFF)]) false) ∧
    ((waiting.port 31).want = some [0xC0000000, 0, 0, 0, 0] ∧ (waiting.grp (31 / 4)).want = none ∧ (waiting.port 31).inE.g = 0 ∧ (waiting.port 31).outE.g = 0 ∧ (portInvolved waiting 31 [0xC0000000, 0, 0, 0, 0]).2 = true ∧
      (portInvolved waiting 31 [0xC0000000, 0, 0, 0, 0]).1 = true) ∧
    (((waitingFor 0x80000000).port 31).want = some [0x80000000, 0, 0, 0, 0] ∧ portInvolved (waitingFor 0x80000000) 31 [0x80000000, 0, 0, 0, 0] = (true, false) ∧
      portInvolved (waitingFor 0x40000000) 31 [0x40000000, 0, 0, 0, 0] = (false, true)) := by unfold pcOk Dev.applies; decide +kernel
/-- Group 7 with a format: internal clock, or external and synchronous, of 8 slots of 32 bits. -/
def grpOn (f : Nat) (d : Dev) : Dev := d.setFld (R.GRP_FMT_FMT 7) f
def intl : Nat := 0x2008
def ext : Nat := 0xA0002008
theorem witness_FramesClocksAndRatesOfGroups :
    ((grpOn ext setup).awake = true ∧ (grpOn ext setup).works (grpBase 7) = true ∧ ((grpOn ext setup).grp 7).want = none ∧
      ((grpOn ext setup).grp 7).ctlWant = none ∧ ((grpOn ext setup).grp 7).restart = false ∧ GFmt.slots ((grpOn ext setup).gFmt 7) = 8 ∧
      GFmt.clkSrc ((grpOn ext setup).gFmt 7) = 2 ∧ 255 ≠ GFmt.slots ((grpOn ext setup).gFmt 7) * GFmt.width ((grpOn ext setup).gFmt 7)) ∧
    GFmt.clkSrc ((grpOn intl setup).gFmt 7) ≠ 2 ∧
    (((setup.setFld (R.GRP_STAT_SYNC_STATE 7) 3).setGrp 7 { Grp.zero with good := 2 }).fld (R.GRP_STAT_SYNC_STATE 7) = 3 ∧ (setup.grp 7).restart = false ∧
      2 ≤ ((setup.setGrp 7 { Grp.zero with good := 2 }).grp 7).good) ∧
    ((grpOn ext setup).fld (R.GRP_STAT_SYNC_STATE 7) ≠ 3 ∧ (grpOn ext setup).isStandby = false ∧ GFmt.sync ((grpOn ext setup).gFmt 7) = true ∧
      1000 < (-1001 : Int).natAbs ∧ (1000 : Int).natAbs ≤ 1000) ∧
    (((grpOn ext setup).setFld (R.GRP_STAT_RATE_OUT 7) 1).flag (R.GRP_STAT_RATE_OUT 7) = true ∧ GFmt.sync ((grpOn intl setup).gFmt 7) = false) := by
  decide +kernel
/-- Port 31 in memory mode, blocks of 8 frames, rings of 2 records, copied by the host, output in use. -/
def memPort (d : Dev) : Dev := (enabled (portBase 31) d).setFld (R.PORT_CTL_CTL 31) 0x68000000
def hostRing (ty : Nat) (d : Dev) : Dev := (ringOn 9 ty 4 d).setFlds [(R.RING_CFG_LINK 9, 31), (R.RING_HOST_IDX_HOST_IDX 9, 1)]
theorem witness_MemoryModeRecordsAreWrittenAndPlayed :
    (PCtl.memory ((memPort setup).pCtl 31) = true ∧ PCtl.memFrames ((memPort setup).pCtl 31) = 8 ∧ Rec.size (memPort setup) 31 = 2 ∧
      8 ≤ (((memPort setup).setPort 31 { PortS.zero with cap := { CapRun.zero with frames := List.replicate 8 [] } }).port 31).cap.frames.length) ∧
    (0 < 2 ∧ 2 ≤ (((memPort setup).setFld (R.PORT_CAP_WIDX_IDX 31) 2).fld (R.PORT_CAP_WIDX_IDX 31) + 2 ^ 32 -
      (memPort setup).fld (R.PORT_CAP_RIDX_IDX 31)) % 2 ^ 32) ∧
    ((memPort setup).dirOn 31 true = true ∧ ((memPort setup).port 31).ply.left = [] ∧
      ((memPort setup).grp (31 / 4)).frame % PCtl.memFrames ((memPort setup).pCtl 31) = 0 ∧
      (((memPort setup).setPort 31 { PortS.zero with ply := { PlyRun.zero with seen := 1 } }).port 31).ply.seen = 1 ∧
      ((memPort setup).port 31).ply.seen = (memPort setup).fld (R.PORT_PLY_RIDX_IDX 31)) ∧
    ((hostRing 6 (memPort setup)).ringFor 6 31 = some 9 ∧ PCtl.host ((hostRing 6 (memPort setup)).pCtl 31) = true ∧
      (hostRing 6 (memPort setup)).ringLive 9 = true ∧ (hostRing 6 (memPort setup)).ringPosted 9 ≠ 0 ∧ (hostRing 6 (memPort setup)).awake = true ∧
      ((hostRing 6 (memPort setup)).setFld (R.RING_HOST_IDX_HOST_IDX 9) 0).ringPosted 9 = 0 ∧
      ((hostRing 6 (memPort setup)).setFld (R.PORT_CAP_WIDX_IDX 31) 1).fld (R.PORT_CAP_WIDX_IDX 31) ≠ (memPort setup).fld (R.PORT_CAP_RIDX_IDX 31)) ∧
    ((hostRing 7 (memPort setup)).ringFor 7 31 = some 9 ∧ (hostRing 7 (memPort setup)).ringPosted 9 ≠ 0 ∧
      ((hostRing 7 (memPort setup)).fld (R.PORT_PLY_WIDX_IDX 31) + 2 ^ 32 - (memPort setup).fld (R.PORT_PLY_RIDX_IDX 31)) % 2 ^ 32 <
        Rec.size (hostRing 7 (memPort setup)) 31 ∧
      ofLe (slice (memRead (hostRing 7 (memPort setup)).hostMem ((hostRing 7 (memPort setup)).ringAddr 9 0) 16) 8 4) ≠ Rec.stride (memPort setup) 31 ∧
      ofLe (slice (memRead (memWrite [] 8 (leBytes 4 (Rec.stride (memPort setup) 31))) 0 16) 8 4) = Rec.stride (memPort setup) 31) := by
  decide +kernel
theorem witness_EnvelopesStayWithinTheirFade :
    (1 ≤ 1 ∧ (⟨64, 64, false, false, 0, false⟩ : Env).g ≤ 64 ∧ (⟨0, 64, true, false, 0, false⟩ : Env).fall = true) ∧
    (let d := { memPort setup with tth := { setup.tth with tripped := true, own := [31] } }
     (enabled tthBase d).tth.tripped = true ∧ (enabled tthBase d).effEn tthBase = true ∧ (enabled tthBase d).dirOn 31 true = true ∧
       (enabled tthBase d).tth.own.contains 31 = true ∧ ((enabled tthBase d).port 31).rep = false) := by decide +kernel
/-- One region over the first 64 KiB; delays checked. -/
def dram0 (d : Dev) : Dev :=
  (List.range 8).foldl Dev.latchRegion (d.setFlds [(R.REG_CTL_EN 0, 1), (R.REG_SIZE_SIZE 0, 1), (R.DMC_CHECK_CHECKED, 1)])
theorem witness_DramAccessesFollowR479AndR484 :
    ((List.replicate 64 7 ≠ [] ∧ 0xFFC0 + (List.replicate 64 7).length ≤ (dram0 setup).dramTotal) ∧ (dram0 setup).flag R.DMC_CHECK_CHECKED = true ∧
      (dram0 setup).inRegions 0xFFC0 64 = true) ∧ (dram0 setup).inRegions 0xFFC1 64 = false ∧ setup.flag R.DMC_CHECK_CHECKED = false ∧
    (dram0 setup).flag R.FAB_ERR_INFO_VALID = false ∧ (dram0 setup).dramTotal < (dram0 setup).dramTotal - 63 + 64 ∧
    (7 ≤ setup.fld R.DMC_CFG_GRAIN ∧ setup.fld R.DMC_CFG_GRAIN ≤ 16 ∧ 0x1FFFFFFF < setup.dramTotal) := by decide +kernel
theorem witness_DramConfigurationChecksAndRefreshes :
    (setup.opens dmcBase = true ∧ setup.flag R.DMC_CHECK_BUSY = false ∧ setup.works dmcBase = true ∧ run.top.st ≠ .setup ∧
      bitAt (0x7FFFFFFF#32).toNat 31 = false ∧ (setup.setFld R.DMC_CHECK_BUSY 1).flag R.DMC_CHECK_BUSY = true) ∧
    (coarse.top.st = .run ∧ coarse.fld R.DMC_CHECK_RECHECK ≠ 0 ∧ coarse.works dmcBase = true) ∧
    (setup.windowOpen [⟨10, false⟩] = true ∧ setup.windowOpen [] = false ∧ (setup.setFld R.DMC_REF_POSTPONE_EN 1).flag R.DMC_REF_POSTPONE_EN = true ∧
      setup.hotInterval 3 = false ∧ (setup.setFld (R.DMC_CH_STAT_OWED 3) 7).fld (R.DMC_CH_STAT_OWED 3) < 8 ∧
      8 ≤ (setup.setFld (R.DMC_CH_STAT_OWED 3) 8).fld (R.DMC_CH_STAT_OWED 3)) ∧
    ((setup.setFld R.DMC_PD_TIMER_PD_TIMER 1).fld R.DMC_PD_TIMER_PD_TIMER ≠ 0 ∧ 0 < setup.ranks ∧
      setup.retains (setup.dramTotal / setup.ranks * 0) (setup.dramTotal / setup.ranks * 1) = false) := by decide +kernel
theorem witness_BoundariesAndServiceInstantsFollowTheirOrder :
    (ticking.flag R.TOP_RATE_TICK_RUN = true ∧ ticking.ref.tickWait = false ∧ ticking.awake = true ∧ Boundary.quiet.notReady = false) ∧
    setup.flag R.TOP_RATE_TICK_RUN = false ∧ ticking.running = true ∧ setup.running = false ∧
    ({ ticking with tth := { ticking.tth with realign := true } } : Dev).tth.realign = true ∧
    ({ ticking with tth := { ticking.tth with realign := true, marker := some { mark with tick := 77 } } } : Dev).tth.marker = some { mark with tick := 77 } ∧
    ticking.tth.realign = false ∧ { Boundary.quiet with notReady := true }.notReady = true := by decide +kernel
/-! ## Witnesses: sample-rate conversion, streams, MACs, time bases -/

/-- Channel 255 in a state, with an estimate. -/
def asrcIn (st : Nat) (est : Int) : Dev := (setup.setFld (R.SLP_ASRC_STAT_STATE 255) st).setAsrc 255 { AsrcS.zero with est := est }
theorem witness_AsrcStatesFollowR241AndR242 :
    (inRole .standby run).isStandby = true ∧ ((asrcIn 1 0).isStandby = false ∧ (asrcIn 1 0).asrcState 255 = 1) ∧
    ((asrcIn 2 5).asrcState 255 = 2 ∧ 100000 < ((asrcIn 2 5).asrcSeen 255 100006 - ((asrcIn 2 5).asrc 255).est).natAbs ∧
      ((asrcIn 2 5).asrcSeen 255 100005 - ((asrcIn 2 5).asrc 255).est).natAbs ≤ 100000) ∧
    ((asrcIn 0 0).asrcState 255 = 0 ∧ (asrcIn 0 0).flag (R.SLP_ASRC_STAT_STANDBY 255) = false ∧
      ((asrcIn 0 0).setFld (R.SLP_ASRC_STAT_STANDBY 255) 1).flag (R.SLP_ASRC_STAT_STANDBY 255) = true ∧
      ((asrcIn 0 0).setFld (R.SLP_ASRC_STAT_STANDBY 255) 1).asrcState 255 = 0 ∧ (asrcIn 0 0).isStandby = false) ∧
    (2000000 < ((asrcIn 1 0).asrcSeen 255 (-2000001)).natAbs ∧ ((asrcIn 3 0).asrcSeen 255 2000000).natAbs ≤ 2000000 ∧ (asrcIn 3 0).asrcState 255 = 3 ∧
      ((asrcEntries (asrcIn 3 0)).find? (fun x => x.1 == 255)).any (fun x => clockLost (asrcIn 3 0) x.2) = false) := by decide +kernel
def stc (b0 str first n : Nat) (l : List (Nat × Nat)) : Cmd := cmd .streamCfg ([(16, b0), (17, str), (18, first), (19, n)] ++ l)
def stOk (c : Cmd) : Prop := (queued .streamCfg c setup).applies .streamCfg c
/-- The entry as the command leaves it, and its check. -/
def stcCheck (c : Cmd) : Option Nat :=
  let m := (List.range (c.u8 19)).foldl (fun m i => wordSet m (32 * c.u8 17 + c.u8 18 + i) (c.u32 (24 + 4 * i))) (setup.tab T.strRx).live
  if StrE.en (rxWords m (c.u8 17)) = true then rxCheck setup (listedRx m) (c.u8 17) (rxWords m (c.u8 17)) else none
/-- A receive entry in force: net A and B, locked. -/
def rxOn (d : Dev) : Dev := d.setTab T.strRx { d.tab T.strRx with live := [(32 * 255, 0xE1200000#32)] }
/-- It has used 1,024 packets of 48 samples in `ns`. -/
def measured (ns : Nat) : Dev := (rxOn setup).setRx 255 { RxS.zero with meas := ⟨true, 1024, 0, 0, 49152, ns⟩ }
theorem witness_StreamEntriesRatesAndPackets_cfg :
    (stOk (stc 0 255 0 0 []) ∧ (stc 0 255 0 0 []).u8 19 = 0) ∧ (stOk (stc 0 255 0 11 []) ∧ 10 < (stc 0 255 0 11 []).u8 19) ∧
    (stOk (stc 1 255 55 10 []) ∧ 64 < (stc 1 255 55 10 []).u8 18 + (stc 1 255 55 10 []).u8 19) ∧
    (stOk (stc 0 255 22 10 [(24, 1)]) ∧ (stc 0 255 22 10 [(24, 1)]).u8 18 + 10 ≤ 32 ∧ stcCheck (stc 0 255 22 10 [(24, 1)]) = none) ∧
    (stOk (stc 0 255 0 1 [(24, 0x80000000)]) ∧ stcCheck (stc 0 255 0 1 [(24, 0x80000000)]) = some 1) := by
  unfold stOk Dev.applies; decide +kernel
/-- A transmit entry of 48 samples a packet at 48 kHz on both networks. -/
def txEntry : List Nat := [0xE0200000, 48]
def txReady : Dev := ticking.setTx 255 { TxS.zero with cfgs := [(0, txEntry)] }
def stxAt (l : List StxPkt) (d : Dev) : Dev := d.setMac 1 { d.mac 1 with stx := l }
theorem witness_StreamEntriesRatesAndPackets :
    (inRole .standby run).isStandby = true ∧
    ((rxOn setup).isStandby = false ∧ (rxOn setup).works strBase = true ∧ StrE.en ((rxOn setup).rxE 255) = true ∧
      rxLocked (rxOn setup) 255 ((rxOn setup).rxE 255) = true ∧
      (let m := (measured 1022000000).rx 255 |>.meas
       1024 ≤ m.count ∧ 48000 * m.span.2 < 1000 * (((m.span.1 * 10 ^ 9 : Nat) : Int) - (48000 * m.span.2 : Nat)).natAbs) ∧
      (let m := (measured 1024000000).rx 255 |>.meas
       ¬ 48000 * m.span.2 < 1000 * (((m.span.1 * 10 ^ 9 : Nat) : Int) - (48000 * m.span.2 : Nat)).natAbs) ∧
      StrE.fn ((measured 0).rxE 255) = 48000 ∧ rxLocked (measured 0) 255 ((measured 0).rxE 255) = true ∧ ((rxOn setup).rx 255).meas.count < 1024 ∧
      ((rxOn setup).setFld (R.STR_RX_STAT_RATE_OUT 255) 1).flag (R.STR_RX_STAT_RATE_OUT 255) = true) ∧
    ((setup.setFld (R.STR_RX_STAT_STATE 255) 2).fld (R.STR_RX_STAT_STATE 255) = 2 ∧ StrE.netA ((rxOn setup).rxE 255) = true ∧
      StrE.netB ((rxOn setup).rxE 255) = true ∧
      ((rxOn setup).setFlds [(R.STR_RX_STAT_PATH_A 255, 1), (R.STR_RX_STAT_PATH_B 255, 1)]).flag (R.STR_RX_STAT_PATH_A 255) = true ∧
      ((rxOn setup).setFlds [(R.STR_RX_STAT_PATH_A 255, 1)]).flag (R.STR_RX_STAT_PATH_B 255) = false) ∧
    (txReady.works strBase = true ∧ (txReady.tx 255).cfgs = [(0, txEntry)] ∧ txEntry ≠ [] ∧ StrE.aux txEntry = false ∧ 0 < StrE.pkt txEntry ∧
      ((txReady.tx 255).q + 1) * StrE.pkt txEntry ≤ txReady.gridAt (StrE.fn txEntry) (txReady.top.tick - 1)) ∧
    (((stxAt [⟨3, []⟩, ⟨255, []⟩, ⟨255, [1]⟩] setup).mac 1).stx = [⟨3, []⟩] ++ (⟨255, []⟩ : StxPkt) :: [⟨255, [1]⟩] ∧
      ∀ q ∈ [(⟨3, []⟩ : StxPkt)], q.stream ≠ 255) := by decide +kernel
/-- MAC 1 enabled, its largest frame 1,518 bytes. -/
def macOn : Dev := enabled (ethBase 1) setup
/-- A frame of `n` bytes to `da` with its FCS. -/
def frame (n : Nat) (da : List Nat) : RxFrame :=
  let b := da ++ List.replicate (n - 4 - da.length) 0
  ⟨b ++ leBytes 4 (fcsOf b), false, false, 0, 0, 0⟩
def filt1 : Dev := macOn.setMac 1 { macOn.mac 1 with filt := [(31, (0x04030201, 0x10605))] }
theorem witness_ReceivedFramesAreCheckedThenSorted :
    setup.works (ethBase 1) = false ∧ macOn.works (ethBase 1) = true ∧ (frame 64 []).bytes.length = 64 ∧ 64 ≤ macOn.fld (R.ETH_MAXFRM_MAXFRM 1) ∧
    leBytes 4 (fcsOf ((frame 64 []).bytes.take 60)) = (frame 64 []).bytes.drop 60 ∧ ofBe (slice ((frame 64 []).bytes.take 60) 12 2) ≠ 0x8808 ∧
    leBytes 4 (fcsOf ((frame 64 []).bytes.take 60)) ≠ [0, 0, 0, 0] ∧
    (ethTag filt1 1 ((frame 64 [1, 2, 3, 4, 5, 6]).bytes.take 6)).1 = 1 ∧ (ethTag macOn 1 ((frame 64 [1]).bytes.take 6)).1 = 0 ∧
    (filt1.mac 1).bytesIn + 60 + 4 ≤ 262144 ∧ (macOn.setFld (R.ETH_MODE_FEC 1) 1).fecOn 1 = true := by decide +kernel
/-- Pauses generated and XOFF active, a frame of 100 bytes waiting. -/
def xoff : Dev := (macOn.setFlds [(R.ETH_PAUSE_CTL_GEN 1, 1), (R.ETH_PAUSE_STAT_XOFF_ACTIVE 1, 1), (R.ETH_PAUSE_LOW 1, 0)]).setMac 1
  { macOn.mac 1 with fifo := [⟨List.replicate 100 7, 0, 0, none⟩] }
theorem witness_MacRegistersLinkAndHostFrames_link :
    ((inState .off).opens (ethBase 1) = false ∧ setup.opens (ethBase 1) = true ∧ macOn.effEn (ethBase 1) = true ∧ setup.effEn (ethBase 1) = false) ∧
    (macOn.works (ethBase 1) = true ∧ ({ EthM.zero with hold := some 65535 } : EthM).hold = some 65535 ∧ (macOn.mac 1).hold = none) ∧
    (xoff.works (ethBase 1) = true ∧ xoff.flag (R.ETH_PAUSE_CTL_GEN 1) = true ∧ xoff.flag (R.ETH_PAUSE_STAT_XOFF_ACTIVE 1) = true ∧
      256 * xoff.lowMark 1 < 100 * (xoff.mac 1).fill) ∧ macOn.flag (R.ETH_PAUSE_STAT_XOFF_ACTIVE 1) = false ∧
    ({ EthM.zero with busy := true }.busy = true ∧ (macOn.setFld (R.ETH_MODE_LOOP 1) 1).flag (R.ETH_MODE_LOOP 1) = true ∧
      (macOn.setFld (R.ETH_MODE_LOOP 1) 1).works (ethBase 1) = true) := by decide +kernel
/-- A posted NRX buffer of 256 bytes at 0x1000 in ring 9, and a frame that fits exactly. -/
def nrx : Dev := (((ringOn 9 4 4 macOn).setFlds [(R.RING_CFG_LINK 9, 1), (R.RING_HOST_IDX_HOST_IDX 9, 1)]).hostWrite 0
  (leBytes 8 0x1000 ++ leBytes 4 256)).setMac 1 { macOn.mac 1 with fifo := [⟨List.replicate 256 7, 0, 0, none⟩] }
/-- A posted NTX entry of `n` bytes in ring 9; the link up or down. -/
def ntx (n up : Nat) : Dev := ((ringOn 9 5 4 macOn).setFlds [(R.RING_CFG_LINK 9, 1), (R.RING_HOST_IDX_HOST_IDX 9, 1), (R.ETH_LINK_LINK_UP 1, up)]).hostWrite 0
  (leBytes 8 0x1000 ++ leBytes 2 n)
theorem witness_MacRegistersLinkAndHostFrames :
    (nrx.ringFor 4 1 = some 9 ∧ (nrx.mac 1).fifo.length = 1 ∧ nrx.awake = true ∧ nrx.ringLive 9 = true ∧ 0 < nrx.ringPosted 9 ∧ 0 < nrx.ringSize 9 ∧
      nrx.works (ethBase 1) = true ∧ ofLe (slice (memRead nrx.hostMem (nrx.ringAddr 9 0) 12) 8 4) = 256) ∧
    setup.ringFor 4 1 = none ∧
    ((ntx 14 1).works (ethBase 1) = true ∧ ((ntx 14 1).mac 1).busy = false ∧ ((ntx 14 1).mac 1).hold = none ∧ ((ntx 14 1).mac 1).pq = [] ∧
      ((ntx 14 1).mac 1).stx = [] ∧ (ntx 14 1).ringFor 5 1 = some 9 ∧ (ntx 14 1).ringLive 9 = true ∧ 0 < (ntx 14 1).ringPosted 9 ∧
      ofLe (slice (memRead (ntx 14 1).hostMem ((ntx 14 1).ringAddr 9 0) 32) 8 2) = 14 ∧ (ntx 14 1).flag (R.ETH_LINK_LINK_UP 1) = true) ∧
    ofLe (slice (memRead (ntx 13 1).hostMem ((ntx 13 1).ringAddr 9 0) 32) 8 2) = 13 ∧ (ntx 14 0).flag (R.ETH_LINK_LINK_UP 1) = false ∧
    (ntx 9999 1).fld (R.ETH_MAXFRM_MAXFRM 1) < 9999 + 4 ∧ ({ EthM.zero with holdNext := some 5 } : EthM).holdNext = some 5 := by decide +kernel
def steer (b op : Nat) : Cmd := cmd .timeSteer [(16, b), (17, op), (24, 5)]
/-- Base 3 under a servo source. -/
def src (v : Nat) (d : Dev) : Dev := d.setFld (R.TB_SERVO_SRC 3) v
theorem witness_TimeSteerMovesBasesAsR334Says :
    [0, 1, 2, 3].all (fun k => decide ((steer 3 k).withBits 17 8 k = steer 3 k) && (setup.unqueue (steer 3 k)).servoSrc 3 == 0) = true ∧
    (∀ k ∈ [0, 1, 2, 3], (queued .timeSteer (steer 3 k) setup).applies .timeSteer (steer 3 k)) ∧
    (queued .timeSteer (steer 4 0) setup).applies .timeSteer (steer 4 0) ∧ 3 < Steer.tb (steer 4 0) ∧
    (src 1 setup).servoSrc 3 = 1 ∧ (src 2 setup).servoSrc 3 ≠ 0 ∧ (src 2 setup).servoSrc 3 ≠ 1 := by
  unfold Dev.applies; decide +kernel
theorem witness_TimeBasesServosAndCaptures_servo :
    ((src 3 setup).servoSrc 3 = 3 ∧ (src 3 setup).works tbuBase = true ∧ (src 3 setup).isStandby = false ∧ setup.servoSrc 3 ≠ 3) ∧
    (let d := ((src 3 setup).setFlds [(R.TB_OUTLIER_THR 3, 10), (R.TB_STEP_THR_THR 3, 10)]).setBase 3 { TBase.zero with val := 10 ^ 6 * 2 ^ 64, state := 2, outl := 3 }
     let diff := diffNs ((d.base 3).val / 2 ^ 32) ((d.base (d.fld (R.TB_SERVO_SRC_TB 3))).val / 2 ^ 32)
     let θ := b64.round diff.m diff.e
     ((d.base 3).state == 2 && d.fld (R.TB_OUTLIER_THR 3) != 0 && (⟨d.fld (R.TB_OUTLIER_THR 3), 0⟩ : Fl).lt θ.abs) = true ∧ (d.base 3).outl < 4 ∧
       (d.fld (R.TB_STEP_THR_THR 3) != 0 && (⟨1000 * d.fld (R.TB_STEP_THR_THR 3), 0⟩ : Fl).lt θ.abs) = true) ∧
    (let d := (src 3 setup).setBase 3 { TBase.zero with state := 1 }
     (d.base 3).state = 1 ∧ (d.setFld (R.TB_STEP_THR_THR 3) 0).fld (R.TB_STEP_THR_THR 3) = 0) ∧
    (let d := src 2 setup
     d.isStandby = false ∧ ppsRising d = true ∧ (∀ x, x < 4 → (d.servoSrc x = 2 ↔ x = 3))) ∧
    (let d := (src 2 setup).setBase 3 { TBase.zero with val := (500000000 * 2 ^ 32 + 1) * 2 ^ 32 }
     500000000 * 2 ^ 32 < sx 64 (((d.base 3).val / 2 ^ 32 + 2 ^ 64 - d.fld (R.TB_PPS_NEXT_NEXT 3) * 2 ^ 32) % 2 ^ 64)) ∧
    ¬ 500000000 * 2 ^ 32 < sx 64 (((setup.base 3).val / 2 ^ 32 + 2 ^ 64 - setup.fld (R.TB_PPS_NEXT_NEXT 3) * 2 ^ 32) % 2 ^ 64) := by decide +kernel
/-- Channel 7 captures source `n`. -/
def capOn (n : Nat) : Dev := setup.setFlds [(R.CAP_CTL_EN 7, 1), (R.CAP_CTL_SRC 7, n)]
theorem witness_TimeBasesServosAndCaptures :
    ((capOn 5).works tbuBase = true ∧ (capOn 5).flag (R.CAP_CTL_EN 7) = true ∧ (capOn 5).fld (R.CAP_CTL_SRC 7) = 5 ∧ (capOn 5).fld (R.CAP_CTL_EDGE 7) = 0 ∧ (capOn 5).capFree 7 = true ∧
      ({ capOn 5 with tbu := { (capOn 5).tbu with now := 100, caps := [(7, { Capt.zero with count := 1, last := 92 })] } } : Dev).capFree 7 = false) ∧
    ((capOn 6).fld (R.CAP_CTL_SRC 7) = 6 ∧ setup.flag (R.CAP_CTL_EN 7) = false) ∧
    { setup with hdr := (setup.setHd tbuBase { setup.hd tbuBase with enable := false }).hdr }.works tbuBase = false ∧
    ((src 1 setup).servoSrc 3 ≠ 0 ∧ setup.servoSrc 3 = 0 ∧ bits (1#32).toNat 0 3 = 1 ∧ setup.fld (R.TB_SERVO_SRC 3) ≠ 1 ∧
      (src 1 setup).fld (R.TB_SERVO_SRC 3) ≠ 0) := by decide +kernel
/-- Reference 12 (a time base) or 4 (PPS) enabled, in a state. -/
def refOn (i q : Nat) : Dev := setup.setFlds [(R.REF_IN_CFG_EN i, 1), (R.REF_IN_STAT_QSTATE i, q), (R.REF_IN_STAT_ACTIVE i, 1)]
def far (d : Dev) : Dev := d.setFld (R.REF_IN_FOFS_FOFS 4) 0x7FFFFFFF
def requal (r : Nat) : Cmd := cmd .refCmd [(16, 6), (18, r)]
theorem witness_ReferencesQualifyAsR355Says :
    (setup.flag (R.REF_IN_CFG_EN 4) = false ∧ (refOn 4 1).flag (R.REF_IN_CFG_EN 4) = true ∧ refActive (refOn 4 1) 4 = true ∧ refNomOk (refOn 4 1) 4 = true ∧
      decide (1000 * (refOn 4 1).fld R.REF_HARD_HARD < ((refOn 4 1).fofs 4).natAbs) = false ∧
      decide (1000 * (far (refOn 4 2)).fld R.REF_HARD_HARD < ((far (refOn 4 2)).fofs 4).natAbs) = true ∧ refActive setup 4 = false ∧
      (refOn 4 2).fld (R.REF_IN_CFG_NOM 4) ≠ bits (0x80000001#32).toNat 0 18 ∧ (refOn 4 3).qstate 4 = 3 ∧ refActive (refOn 4 3) 4 = true) ∧
    (setup.works refBase = true ∧ refActive (refOn 12 1) 12 = true ∧ refActive setup 13 = false) ∧
    ((refOn 12 2).qstate 12 = 2 ∧ (refOn 12 3).qstate 12 = 3 ∧ ((refOn 12 3).setFld (R.REF_IN_STAT_HARD 12) 1).flag (R.REF_IN_STAT_HARD 12) = true) ∧
    ((queued .refCmd (requal 14) setup).applies .refCmd (requal 14) ∧ (requal 14).withBits 16 8 6 = requal 14 ∧ 13 < RefC.ref (requal 14)) ∧
    ((queued .refCmd (requal 12) (refOn 12 3)).applies .refCmd (requal 12) ∧ (refOn 12 3).qstate (RefC.ref (requal 12)) ≠ 0) ∧
    (queued .refCmd (requal 13) setup).applies .refCmd (requal 13) ∧ setup.qstate 12 = 0 := by unfold Dev.applies; decide +kernel
def rc (op t r : Nat) : Cmd := cmd .refCmd [(16, op), (17, t), (18, r), (24, 5)]
def dpllBOn (d : Dev) : Dev := d.setFld (R.DPLL_CTL_EN 1) 1
def rOk (c : Cmd) (d : Dev) : Prop := (queued .refCmd c d).applies .refCmd c
def dcoOn : Dev := (dpllBOn setup).setDpll 1 { Dpll.zero with dco := true }
/-- A realignment of outputs 0 to 2 to reference 12 waits. -/
def realigning : Dev := { setup with ref := { setup.ref with realigns := [⟨rc 5 7 12, false, 0⟩] } }
/-- Base 3 stands at half a second. -/
def lateSecond : Dev := realigning.setBase 3 { TBase.zero with sec := 500000000 * 2 ^ 64 }
theorem witness_DpllsAndRealignments :
    ((setup.setFld (R.DPLL_STAT_STATE 1) 2).fld (R.DPLL_STAT_STATE 1) = 2 ∧ (setup.setFld (R.DPLL_STAT_STATE 1) 3).fld (R.DPLL_STAT_STATE 1) = 3 ∧
      setup.works refBase = true) ∧
    ((dpllBOn setup).flag (R.DPLL_CTL_EN 1) = true ∧ setup.flag (R.DPLL_CTL_EN 1) = false ∧ setup.fld (R.DPLL_CTL_FAMILY 1) ≠ bits (0x20000000#32).toNat 29 1 ∧
      (setup.setFld (R.DPLL_STAT_STATE 1) 1).fld (R.DPLL_STAT_STATE 1) = 1) ∧
    (∀ k ∈ [0, 1, 2, 3, 4], (rc k 1 12).withBits 16 8 k = rc k 1 12 ∧ (queued .refCmd (rc k 1 12) dcoOn).applies .refCmd (rc k 1 12)) ∧
    (¬ 1 < RefC.target (rc 0 1 12) ∧ ¬ 12 < RefC.ref (rc 0 1 12) ∧ dcoOn.flag (R.DPLL_CTL_EN 1) = true ∧ (dcoOn.dpll 1).dco = true) ∧
    (realigning.works refBase = true ∧ (∃ e ∈ realigning.ref.realigns, RefC.ref e.cmd = 12) ∧ (∀ e ∈ realigning.ref.realigns, ¬ RefC.ref e.cmd = 11) ∧
      realigning.ref.realigns = [] ++ ⟨rc 5 7 12, false, 0⟩ :: [] ∧ realigning.wholeEdge 12 = true ∧ realigning.wholeEdge 4 = true ∧
      (lateSecond.wholeEdge 12 = false ∧ 4 ≤ RefC.target (rc 5 7 12) ∧ RefC.target (rc 5 3 12) < 4) ∧ realigning.ref.outs[0]?.isSome = true ∧
      bitAt (RefC.target (rc 5 7 12)) 2 = true ∧ bitAt (RefC.target (rc 5 3 12)) 2 = false) := by unfold Dev.applies; decide +kernel
theorem witness_DpllsAndRealignments_commands :
    (1 < RefC.target (rc 1 2 0) ∧ rOk (rc 1 2 0) setup ∧ 12 < RefC.ref (rc 0 0 13) ∧ rOk (rc 0 0 13) setup) ∧
    (rOk (rc 4 0 0) setup ∧ (setup.dpll 0).dco = false ∧ rOk (rc 2 1 0) setup) ∧
    ((rc 5 7 12).withBits 16 8 5 = rc 5 7 12 ∧ rOk (rc 5 7 12) setup ∧ RefC.ref (rc 5 7 12) ∈ [0, 1, 4, 9, 10, 11, 12] ∧ RefC.target (rc 5 7 12) = 7 ∧
      rOk (rc 5 8 12) setup ∧ 7 < RefC.target (rc 5 8 12) ∧ rOk (rc 5 0 12) setup ∧ rOk (rc 5 1 3) setup) := by unfold rOk Dev.applies; decide +kernel
/-- A submission of an entry to a list with a due point and a period. -/
def sub (e l due p : Nat) : Cmd := cmd .fmnSubmit [(16, e), (18, l), (24, due), (32, p)]
def subOk (c : Cmd) (d : Dev) : Prop := (queued .fmnSubmit c d).applies .fmnSubmit c
def inList (e l due p : Nat) (d : Dev) : Dev := { d with fmn := { d.fmn with lists := [(l, ⟨due, 0, e, p, sub e l due p⟩)] } }
def fullList : Dev := { setup with fmn := { setup.fmn with lists := (List.range 1024).map (fun e => (3, ⟨9, e, e, 0, nop5⟩)) } }
def cancel (e : Nat) : Cmd := cmd .fmnCancel [(16, e)]
theorem witness_SubmissionsAreScheduledAsR460Says :
    (subOk (sub 4096 0 9 0) setup ∧ 4095 < FCmd.entry (sub 4096 0 9 0)) ∧ (subOk (sub 0 5 9 0) setup ∧ 4 < FCmd.list (sub 0 5 9 0)) ∧
    (subOk (sub 0 4 0 1) setup ∧ FCmd.list (sub 0 4 0 1) = 4 ∧ FCmd.period (sub 0 4 0 1) ≠ 0) ∧
    (subOk (sub 4095 3 9 0) (inList 4095 3 9 0 setup) ∧ fmnScheduled (inList 4095 3 9 0 setup) 4095 = true) ∧
    (subOk (sub 4095 3 9 0) fullList ∧ 1024 ≤ (fullList.fmn.lists.filter (fun x => x.1 == 3)).length ∧ fmnScheduled fullList 4095 = false) ∧
    ((queued .fmnCancel (cancel 4096) setup).applies .fmnCancel (cancel 4096) ∧ (queued .fmnCancel (cancel 4095) setup).applies .fmnCancel (cancel 4095) ∧
      (queued .fmnCancel (cancel 4095) (inList 4095 3 9 0 setup)).applies .fmnCancel (cancel 4095)) := by unfold subOk Dev.applies; decide +kernel
theorem witness_SubmissionsAreScheduledAsR460Says_taken :
    (subOk (sub 4095 4 0 0) setup ∧ fmnScheduled setup 4095 = false ∧ setup.works fmnBase = true) ∧
    (let d : Dev := setup.setHd fmnBase { setup.hd fmnBase with enable := false }
     subOk (sub 4095 4 0 0) d ∧ d.works fmnBase = false ∧ fmnScheduled d 4095 = false ∧ ¬ 1024 ≤ (d.fmn.lists.filter (fun x => x.1 == 4)).length) ∧
    (subOk (sub 4095 3 9 7) setup ∧ listBefore setup 3 < FCmd.due (sub 4095 3 9 7)) ∧
    (subOk (sub 4095 3 0 7) setup ∧ FCmd.due (sub 4095 3 0 7) ≤ listBefore setup 3 ∧ FCmd.period (sub 4095 3 0 7) ≠ 0 ∧ FCmd.period (sub 4095 3 0 0) = 0) := by unfold subOk Dev.applies; decide +kernel
def inst0 : Inst := ⟨4095, [0, 0, 0, 0, 0, 0], 8, false, nop5, false, 0, none, 0, 0, false, false⟩
/-- Core 15 enabled and in a state. -/
def coreIn (x : Core) : Dev := (enabled (coreBase 15) setup).setCore 15 x
def delivering : Dev := { coreIn { Core.zero with st := .waiting 3 } with fmn := { setup.fmn with ready := [inst0] } }
theorem witness_TasksAreReleasedAndDelivered :
    (∀ x ∈ setup.fmn.lists, listAfter setup x.1 < x.2.due) ∧
    (let d := inList 4095 0 9 0 ticking
     d.works fmnBase = true ∧ d.awake = true ∧ d.running = true ∧ d.fmn.lists = [] ++ (0, ⟨9, 0, 4095, 0, sub 4095 0 9 0⟩) :: [] ∧ 9 ≤ listAfter d 0 ∧
       ∀ i ∈ d.fmn.ready, i.entry ≠ 4095) ∧
    (delivering.works fmnBase = true ∧ delivering.awake = true ∧ bestInst delivering = some inst0 ∧ nextCore delivering = some 15) ∧
    bestInst setup = none ∧ nextCore setup = none ∧
    (setup.opens fmnBase = true ∧ setup.isStandby = false ∧ bitAt (1#32).toNat 0 = true ∧ run.top.st ≠ .setup ∧ (inState .off).opens fmnBase = false) := by
  decide +kernel
def runs (x : Core) : Dev := coreIn { x with st := .running }
/-- A word load and a pair store of data registers 4 and 5 through A0 = 8, A1 = 16. -/
def ld : MemOp := ⟨false, false, 7, 0, .postImm 1⟩
def sd : MemOp := ⟨true, true, 4, 1, .plain⟩
def core0 : Core := { Core.zero with a := [(0, 8#32), (1, 16#32)] }
theorem witness_ProductsAccumulateExactly : (runs core0).executes 15 [] [ld, sd] ∧ (runs core0).executes 15 [] [] ∧ coreRuns (runs core0) 15 = true ∧
    (3 : Fin 4) ≠ 2 := by unfold Dev.executes; decide +kernel
theorem witness_ExtractionsRoundAndSaturate : (runs core0).executes 15 [31] [ld, sd] ∧ (runs core0).executes 15 [31] [] ∧
    ((runs { core0 with x := [(3, 35)] }).core 15).xI 3 = 5 * 7 := by unfold Dev.executes; decide +kernel
theorem witness_DataInstructionsActAsR430Says :
    (runs core0).executes 15 [31] [ld, sd] ∧
    (let x := (runs { core0 with d := [(1, 31#32), (2, BitVec.ofInt 32 (-31)), (3, BitVec.ofInt 32 (-2)), (4, 0x40000000#32)] }).core 15
     x.dI 1 = 31 ∧ x.dI 2 = -31 ∧ x.dI 3 < -1 ∧ 0 < x.dI 4 ∧ x.dI 5 = 0 ∧ x.dN 1 < 32) ∧
    ((runs core0).executes 15 [] [{ ld with store := false }] ∧ ld.wide = false ∧ (effective core0 ld).1 < 0x80000 ∧ core0.q = [] ∧
      (runs core0).executes 15 [] [{ ld with store := true }]) ∧
    ((0 : Nat) < 5 ∧ 5 ≤ 2 ^ 3 ∧ ¬ 5 ≤ 2 ^ 2) := by unfold Dev.executes; decide +kernel
def loop1 (n : Nat) : LoopE := ⟨n, 8, 24⟩
theorem witness_ControlInstructionsFollowR433ToR437 :
    (coreRuns (runs core0) 15 = true ∧ ((runs { core0 with slot := some (0, 2) }).core 15).barred = true ∧ ((runs core0).core 15).barred = false) ∧
    (countOk 12 (.imm 0) = true ∧ countOf core0 24 (.imm 0) = 0 ∧ countOk 12 (.imm 4095) = true ∧ countOf core0 24 (.imm 4095) ≠ 0) ∧
    (((runs { core0 with loops := List.replicate 4 (loop1 2) }).core 15).loops.length = 4 ∧
      ((runs { core0 with loops := List.replicate 4 (loop1 2) }).core 15).barred = false) ∧
    (core0.loops = [] ∧ (runs { core0 with loops := [loop1 2] }).executes 15 [1, 2, 3] [] ∧ ((runs { core0 with loops := [loop1 2] }).core 15).barred = false) ∧
    (countOk 16 (.imm 65535) = true ∧ countOf core0 16 (.imm 65535) ≠ 0 ∧ ({ core0 with calls := [8] } : Core).calls = 8 :: []) ∧
    (({ core0 with rep := some 2 } : Core).rep = some (0 + 2) ∧ ({ core0 with loops := [loop1 2], pc := 24 } : Core).pc = (loop1 2).le ∧ 1 < (loop1 2).lc ∧
      (loop1 1).lc ≤ 1) := by unfold Dev.executes; decide +kernel
/-- An image header of core 15. -/
def header (m : Nat) : Dev := { coreIn Core.zero with localMem := memWrite [] (15 * 0x80000) (leBytes 4 m) }
def interrupted : Core := { core0 with ie := true, ctl := [(0x2C, 4#32), (0x28, 7#32)], ha3 := true }
def dma0 (dram : Bool) : Dma := ⟨0x7FFF0, 0, 16, true, dram⟩
def moving (dram : Bool) : Dev :=
  let d := dram0 ((enabled (coreBase 15) setup).setFlds [])
  d.setCore 15 { core0 with st := .running, q := [dma0 dram] }
theorem witness_CoresStartTakeTasksAndTransfer_start :
    ((setup.core 15).st = .held ∧ (enabled (coreBase 15) setup).works (coreBase 15) = true ∧ setup.awake = true ∧ setup.works (coreBase 15) = false) ∧
    memLe (header 0x51400D5C).localMem (15 * 0x80000 + 4 * 0) 4 = 0x51400D5C ∧ memLe (header 5).localMem (15 * 0x80000 + 4 * 0) 4 ≠ 0x51400D5C ∧
    (setup.opens (coreBase 15) = true ∧ (inState .off).opens (coreBase 15) = false) ∧
    ((runs interrupted).works (coreBase 15) = true ∧ intReady interrupted ≠ 0 ∧ interrupted.ie = true ∧ interrupted.slot = none ∧ interrupted.rep = none ∧
      interrupted.ha3 = true ∧ interrupted.vectors + 4 * 2 < 0x80000 ∧ interrupted.q = [] ∧ ¬ intReady core0 ≠ 0) := by decide +kernel
theorem witness_CoresStartTakeTasksAndTransfer :
    (coreRuns (runs { core0 with task := true }) 15 = true ∧ ((runs { core0 with task := true }).core 15).task = true ∧ core0.task = false ∧
      (runs { core0 with task := true }).executes 15 [] [] ∧ (runs core0).executes 15 [] []) ∧
    (let i := { inst0 with core := some 15 }
     ({ setup with fmn := { setup.fmn with run := [i] } } : Dev).fmn.run = [i] ∧ i.core = some 15 ∧ i.dead = false ∧ i.periodic = false ∧ i.missed = false) ∧
    (({ core0 with q := [dma0 true] } : Core).q.length ≤ 1 ∧ 0 < ({ core0 with q := [dma0 true] } : Core).q.length ∧
      8 ≤ ({ core0 with q := List.replicate 8 (dma0 true) } : Core).q.length ∧ coreRuns (runs { core0 with q := List.replicate 8 (dma0 true) }) 15 = true ∧
      (runs { core0 with q := [dma0 true] }).executes 15 [] []) ∧
    (((moving true).core 15).q = dma0 true :: [] ∧ (moving true).heldInReset (coreBase 15) = false ∧ (dma0 true).loc + (dma0 true).len ≤ 0x80000 ∧
      (((moving true).setCore 15 { core0 with q := [] }).dramWrite (.quad (15 / 4)) 0 (memRead (moving true).localMem (15 * 0x80000 + 0x7FFF0) 16)).1 = true ∧
      ((((moving true).setCore 15 { core0 with q := [] }).dramWrite (.quad (15 / 4)) 0 (memRead (moving true).localMem (15 * 0x80000 + 0x7FFF0) 16)).2).core 15 =
        ((moving true).setCore 15 { core0 with q := [] }).core 15) ∧
    ((((moving false).setCore 15 { core0 with q := [] }).dramRead (.quad (15 / 4)) 0 16).1 = some (List.replicate 16 0) ∧
      0x80000 < (⟨0x7FFF4, 0, 16, true, false⟩ : Dma).loc + 16) := by unfold Dev.executes; decide +kernel
/-! ## Witnesses: power, pads, the pair, resets, boot -/

/-- No sensor enabled. -/
def bare : Dev := (List.range 16).foldl (fun d i => (d.setFld (R.PWR_SENS_EN i) 0).latchReg (R.PWR_SENS_EN i).addr) setup
/-- Sensor 15 alone enabled, latched, reading 125 °C. -/
def sensed (t : Nat) : Dev :=
  let d := (bare.setFlds [(R.PWR_SENS_EN 15, 1), (R.PWR_SENS_TEMP 15, t), (R.PWR_TMAX_TMAX, t)]).latchReg (R.PWR_SENS_EN 15).addr
  { d with pwr := { d.pwr with valid := true } }
theorem witness_PowerFollowsSensorsRailsAndLevels :
    (setup.works pwrBase = true ∧ { setup with hdr := (setup.setHd pwrBase { setup.hd pwrBase with enable := false }).hdr }.works pwrBase = false) ∧
    (15 ∈ sensorsOn (sensed 2000) ∧ (sensed 2000).tmax = some 2000 ∧
      16 * ((sensed 2000).lat R.PWR_THERM_T_SAFE : Int) ≤ 2000 ∧ (sensed 1999).tmax = some 1999) ∧
    ((setup.setFld R.PWR_SUPPLY_OVER 0x20).railsOut = true ∧ setup.railsOut = false ∧
      setup.lat R.PWR_ITRIP_I_TRIP < (setup.setFld R.PWR_CORE_CURRENT 0xFFFF).fld R.PWR_CORE_CURRENT ∧ setup.fld R.PWR_CORE_CURRENT < setup.lat R.PWR_ITRIP_I_TRIP) ∧
    ((setup.setFld (R.DMC_CH_STAT_OVERTEMP 3) 1).overtemp = true ∧ setup.overtemp = false) ∧
    (let d : Dev := { setup with pwr := { setup.pwr with own := 6, rises := max 1 (setup.lat R.PWR_LEVEL_RISE_HOLD) } }
     max 1 (d.lat R.PWR_LEVEL_RISE_HOLD) ≤ d.pwr.rises ∧ d.pwr.own < 7) ∧ ¬ setup.pwr.own < 7 := by decide +kernel
theorem witness_PowerFollowsSensorsRailsAndLevels_valid : validSensors (sensed 2000) = [15] ∧ validSensors bare = [] := by
  have a : (sensorsOn (sensed 2000)).filter (fun i => decide (-960 ≤ (sensed 2000).temp i) && decide ((sensed 2000).temp i ≤ 2560)) = [15] := by
    decide +kernel
  have t : (sensed 2000).temp 15 = 2000 := by decide +kernel
  have b : sensorsOn bare = [] := by decide +kernel
  constructor
  · simp only [validSensors, a]; simp [median2, t]
  · simp [validSensors, b]
def missed (n : Nat) (d : Dev) : Dev := d.setMiss (64 * 3 + 5) n
theorem witness_PadFaultsAreRecordedAndActedOn :
    (setup.works pinBase = true ∧ padDriven setup 3 5 = true ∧ padDriven setup 3 6 = false ∧ padDriven setup 4 1 = true ∧ setup.tth.ownOut = false) ∧
    ({ setup with tth := { setup.tth with ownOut := true } }.tth.ownOut = true ∧ smGet (fun _ => 0) (missed 1 setup).pin.miss 197 < 2 ∧
      smGet (fun _ => 0) (missed 2 setup).pin.miss 197 = 2) ∧
    (bitAt (0x80000000#32).toNat 31 = true ∧ setup.top.st = .setup ∧ run.top.st ≠ .setup ∧ (setup.setFld R.PIN_OPEN_TEST_BUSY 1).flag R.PIN_OPEN_TEST_BUSY = true ∧
      [53, 54].filter (openClass setup) = [53]) := by decide +kernel
/-- TTH enabled, in a role, with changes to its state. -/
def pairAs (r : Role) (f : Tth → Tth) (x : DevState) : Dev := let d := inRole r (inState x); { d with tth := f d.tth }
/-- What a matching peer says. -/
def peerSays (r : Role) (pin : Bool) : Hello := ⟨0x5140, Config.sirev.toNat, pin, r, 0, 0, [], (State.reset.dev.reg R.TOP_RATE_TICK_RUN.addr).toNat, 0⟩
def linked (t : Tth) : Tth := { t with linkOk := true, hbOk := true, peer := some (peerSays .standby true) }
/-- DPLL-A locked to the tether. -/
def clocked (d : Dev) : Dev := d.setFlds [(R.DPLL_STAT_STATE 0, 3), (R.DPLL_STAT_SEL 0, 13)]
def secondary (d : Dev) : Dev := { d with boot := { d.boot with role := true } }
theorem witness_RolesOwnershipAndHandover_roles :
    ((pairAs .active id .run).works tthBase = true ∧ (pairAs .active id .run).tth.role = .active ∧ (pairAs .standby id .run).tth.role = .standby ∧
      run.works tthBase = false ∧ (pairAs .join id .run).tth.role ≠ .active) ∧
    ((pairAs .active linked .run).tth.linkOk = true ∧ (pairAs .active id .run).tth.linkOk = false) ∧
    ((pairAs .tripped (fun t => { t with ownOut := true }) .run).heartbeat = false ∧ (pairAs .tripped (fun t => { t with ownOut := true }) .run).tth.ownOut = true ∧
      (pairAs .active id .run).heartbeat = true) ∧
    ((secondary (pairAs .join id .run)).primary = false ∧ (secondary (pairAs .join id .run)).tth.ownIn = false ∧
      (secondary (pairAs .join id .run)).peerActive = false ∧ (pairAs .join id .run).primary = true) ∧
    ((pairAs .active linked .run).fitPresent = true ∧ (pairAs .active id .run).fitPresent = false) ∧
    ((clocked (pairAs .standby linked .run)).fitCode = 0 ∧ ((pairAs .standby id .run).setFld R.TTH_CTL_REVERT 1).flag R.TTH_CTL_REVERT = true) := by decide +kernel
def announced (r : Role) (h : Nat) (inc : Bool) : Dev :=
  let d := pairAs r (fun t => { t with handover := some h, incoming := inc }) .run
  { d with top := { d.top with tick := 8 } }
theorem witness_RolesOwnershipAndHandover_handover :
    ((announced .standby 9 true).top.tick + 1 = 9 ∧ (announced .standby 9 true).tth.incoming = true ∧ (announced .standby 9 true).tth.ownIn = false ∧
      (announced .standby 9 true).works tthBase = true ∧ (announced .active 9 false).tth.role = .active ∧ (announced .active 9 false).tth.incoming = false) ∧
    8 ≤ (announced .standby 8 true).top.tick ∧ 8 ≤ (announced .active 8 false).top.tick ∧ 0xFFFFFFFFFFFF < 2 ^ 48 := by decide +kernel
theorem witness_RolesOwnershipAndHandover_paths :
    ((true && (pairAs .standby linked .run).tth.hbOk) = true ∧ (true && (pairAs .standby linked .run).tth.linkOk) = true ∧
      (pairAs .standby linked .run).tth.acks = [] ∧ (pairAs .standby linked .run).tth.ownIn = false ∧ (clocked (pairAs .standby linked .run)).fitCode = 0 ∧
      (pairAs .standby (fun t => { linked t with mirror := .transfer }) .run).fitCode ≠ 0 ∧
      (pairAs .standby linked .run).flag R.TTH_CTL_TAKEOVER_WHEN_UNFIT = true ∧
      ((pairAs .standby linked .run).setFld R.TTH_CTL_TAKEOVER_WHEN_UNFIT 0).flag R.TTH_CTL_TAKEOVER_WHEN_UNFIT = false ∧ (pairAs .standby (fun t => { linked t with ownIn := true }) .run).tth.ownIn = true) ∧
    ((pairAs .standby (fun t => { t with peerLost := true, lossFit := true }) .run).tth.peerLost = true ∧
      (pairAs .standby (fun t => { t with peerLost := true, lossFit := true }) .run).tth.lossFit = true ∧
      (pairAs .join id .run).peerActive = false) ∧
    (let d := secondary (pairAs .active (fun t => { t with claimed := some 0 }) .run)
     let e : Dev := { d with tbu := { d.tbu with now := 500 } }
     e.primary = false ∧ e.tth.claimed = some 0 ∧ e.tbu.now ≤ 0 + 500 ∧ e.tth.own = []) ∧
    ((pairAs .active (fun t => { t with ownOut := true }) .run).tth.ownOut = true ∧ ownable (pairAs .active id .run) 44 = false ∧
      ownable (pairAs .active id .run) 39 = true ∧ ownable ((pairAs .active id .run).setFld R.TTH_CTL_GATE_CLK 1) 44 = true ∧
      (announced .active 9 false).tth.handover = some 9 ∧ (announced .active 9 false).top.tick < 9) := by decide +kernel
theorem witness_PairsCompareAndMirror_sirev : (peerSays .join true).sirev = Config.sirev.toNat := rfl
def frame0 (crc : Word) : MirrorFrame := ⟨⟨1, [1, 2, 3], crc⟩, 0, .none⟩
theorem witness_PairsCompareAndMirror :
    ((peerSays .join true).part = 0x5140 ∧ { peerSays .join true with part := 0x5141 }.part ≠ 0x5140 ∧
      (pairAs .join linked .run).boot.role = false ∧ (pairAs .join linked .run).tth.role = .join ∧ (pairAs .join linked .run).primary = true) ∧
    ((pairAs .standby linked .run).works tthBase = true ∧ (pairAs .standby linked .run).isStandby = true ∧ (pairAs .standby linked .run).awake = true ∧
      (pairAs .standby linked .run).paqTaken = false) ∧
    ((pairAs .active (fun t => { t with acks := [nop5] }) .run).tth.acks = nop5 :: [] ∧ (pairAs .active id .run).tth.acks = []) ∧
    (let d := pairAs .standby (fun t => { linked t with mirror := .settling }) .run
     let e : Dev := { d with tth := { d.tth with marker := some { mark with tick := 0, digest := 0 } } }
     e.tth.marker = some { mark with tick := 0, digest := 0 } ∧ e.top.tick = 0 ∧ e.tth.mirror = .settling ∧ e.fld R.TTH_SETTLE_LEFT = 0 ∧ e.isStandby = true) ∧
    (setup.fld R.PWR_LEVEL_OWN < 8 ∧ (setup.setFld R.PWR_LEVEL_OWN 2).fld R.PWR_LEVEL_OWN < mark.level ∧ (setup.setFld R.PWR_LEVEL_OWN 3).fld R.PWR_LEVEL_OWN = mark.level ∧
      (pairAs .standby linked .run).tth.outNow ≠ mark.outDigest) ∧
    ((pairAs .standby linked .run).works (cvuBase 1) = true ∧
      ((pairAs .standby linked .run).cvuCompute 1 (leBytes 8 1) [1, 2, 3]).1 ≠ (0#32).toNat ∧ (pairAs .standby (fun t => { linked t with rxNext := 1 }) .run).tth.rxNext = (frame0 0).head.seq.toNat ∧
      (pairAs .standby (fun t => { linked t with miss := [(1, 3)] }) .run).tth.miss.find? (fun x => x.1 == 1) = some (1, 3) ∧ (1 : Nat) ≠ (pairAs .standby linked .run).tth.rxNext) ∧
    ((pairAs .standby (fun t => { t with mirror := .transfer }) .run).tth.mirror = .transfer ∧ (pairAs .active (fun t => { t with mirror := .transfer }) .run).tth.role = .active) := by
  decide +kernel
theorem witness_ResetLevelsRestoreThePart :
    (run.boot.rstLow = false ∧ { run with boot := { run.boot with rstLow := true } }.boot.rstLow = true) ∧
    (bits (0xA5C30001#32).toNat 16 16 = 0xA5C3 ∧ bitAt (0xA5C30001#32).toNat 0 = true ∧ ¬ bits (0xA5C20001#32).toNat 16 16 = 0xA5C3) := by decide +kernel
/-- A key pair with private key 1, and its signature with nonce 1 over the header and 64 zero bytes (computed with Python's hashlib). -/
def sigS : Nat := 0x5f069430e6901712d2534b4a6d1c8459f48b089315abf162083c02bc9a6d4bc9722b4e3eb4b09b6340c2dff2b577bfed
def image (s : Nat) : List Nat := leBytes 4 0x5140B007 ++ leBytes 4 1 ++ leBytes 4 64 ++ leBytes 4 5 ++ List.replicate 16 0 ++
  beBytes 48 p384G.1 ++ beBytes 48 p384G.2 ++ beBytes 48 (p384G.1 % p384N) ++ beBytes 48 s ++ List.replicate 32 0
def booting (src : Nat) (h : Option (List Nat)) : Dev := { State.reset.dev with boot := { State.reset.dev.boot with run := some ⟨src, h⟩ } }
def signedBy (s : Nat) : Bool :=
  let h := image s
  ecdsaOk (ofBe (slice h 0x20 48)) (ofBe (slice h 0x50 48)) (ofBe (slice h 0x80 48)) (ofBe (slice h 0xB0 48))
    (sha384 (h.take 0x80 ++ (List.replicate 64 0).take (ofLe (slice h 8 4))))
set_option maxRecDepth 100000 in
theorem witness_BootChecksTheImageThenEntersSetup_signed : signedBy sigS = true ∧ signedBy (sigS + 1) = false := by decide +kernel
theorem witness_BootChecksTheImageThenEntersSetup :
    (State.reset.dev.top.st = .off ∧ State.reset.dev.boot.run = none ∧ State.reset.dev.boot.rstLow = false ∧ State.reset.dev.boot.spiDue = false ∧
      { State.reset.dev with boot := { State.reset.dev.boot with spiDue := true } }.boot.spiDue = true ∧ bitAt (1#32).toNat 0 = true) ∧
    ((booting 2 none).boot.run = some ⟨2, none⟩ ∧ (booting 2 (some (image sigS))).boot.run = some ⟨2, some (image sigS)⟩) ∧
    ((image sigS).length = 256 ∧ ofLe (slice (image sigS) 0 4) = 0x5140B007 ∧ ofLe (slice (image sigS) 4 4) = 1 ∧ ofLe (slice (image sigS) 8 4) = 64 ∧
      ofLe (slice (image sigS) 0xC 4) = 5 ∧ (booting 2 none).boot.keyHash = none ∧ (booting 2 none).boot.minRollback ≤ 5) ∧
    (ofLe (slice (List.replicate 256 0) 0 4) ≠ 0x5140B007 ∧ (List.replicate 255 0).length < 256 ∧ 0x100000 < 0x100040 ∧
      { State.reset.dev.boot with minRollback := 6 }.minRollback = 6) := by decide +kernel
set_option maxRecDepth 100000 in
/-- A fused key hash that the header's key does not have, and one that it has. -/
theorem witness_BootChecksTheImageThenEntersSetup_key :
    sha384 (slice (image sigS) 0x20 0x60) ≠ List.replicate 48 0 ∧
      ({ (booting 1 none).boot with keyHash := some (sha384 (slice (image sigS) 0x20 0x60)) } : Boot).keyHash = some (sha384 (slice (image sigS) 0x20 0x60)) := by
  decide +kernel

/-! ## Witnesses: further clauses of the statements -/

theorem witness_Vector0SendsOnceOnTheRise_load :
    (let d : Dev := { run.setHd topBase { run.hd topBase with eventEn := 0xFFFFFF#32 } with cfg := ⟨true, false, true⟩ }
     let e := d.setFld (R.MSIX_CTRL_MASK 0) 0
     bitAt (0x80000000#32).toNat 31 = true ∧ e.top.st ≠ .setup ∧ e.hre.vec0 = false ∧ e.effEn topBase = true ∧
       bitAt (e.hd topBase).eventEn.toNat F.topCfgRefused.bit = true ∧ e.cfg.msixEnable = true ∧ e.cfg.funcMask = false ∧
       e.flag (R.MSIX_CTRL_MASK 0) = false) := by decide +kernel
theorem witness_UnitEnablesAndControlsFollowR47AndR48_cuts :
    (unitRow (coreBase 15) ∈ unitRows ∧ ((inRole .standby run).isStandby && mirroredReg ((unitRow (coreBase 15)).base + 8)) = true ∧
      ((inState .off).isStandby && mirroredReg (slpBase + 8)) = false ∧ (inState .off).opens slpBase = false) ∧
    (unitRow hreBase ∈ unitRows ∧ resetAllowed setup hreBase = false ∧ (setup.hd hreBase).hold = false ∧ setup.opens hreBase = true) ∧
    ((setup.setHd objBase { setup.hd objBase with drain := true }).hd objBase).drain = true ∧
    (mastersOf dspBase).contains (⟨3, true, 0, 0x40, [1, 2]⟩ : CutBurst).master = true ∧ (setup.hd objBase).drain = false := by decide +kernel
theorem witness_ResetUnitRestoresTheSubtree_check :
    unitRow (cvuBase 0) ∈ unitRows ∧ (unitRow (cvuBase 0)).base = cvuBase 0 ∧ run.top.st = .run ∧ setup.top.st ≠ .run := by decide +kernel
theorem witness_Bar2AndUndecodedAccessesFollowR57_map :
    { setup with boot := { setup.boot with rstLow := true } }.boot.rstLow = true ∧ setup.boot.rstLow = false ∧
    bar2At 0x7FFFFC = .local ∧ bar2At 0x3040000 = .table T.xptBus 0 ∧ bar2At 0xBFFFFC = .stagedNode 0x7FFFF ∧ bar2At 0x1000000 = .window 0 ∧
    bar2At 0x4FFFFFC = .gap ∧ bar2At 0xC00000 = .hole ∧ (0xBFFFFC : Nat) % 4 = 0 := by decide +kernel
theorem witness_HostPollsAndErrorsFollowR67AndR97_writes :
    ([1, 2, 3, 4, 6, 5].all (fun t => (ringOn 63 t 4 setup).ringType 63 == t && (ringOn 63 t 4 setup).ringLive 63 &&
      (ringOn 63 t 4 setup).works hreBase)) = true ∧
    (copying twLast true setup).hre.copies.find? (fun x => !(x.write && (copying twLast true setup).copied x.cmd.id)) =
      some ⟨twLast, true, some (setup.tab (Tw.tableId twLast)).live, false⟩ := by decide +kernel
theorem witness_CommandsWaitActOrAreRefused_standby :
    (inRole .standby run).isStandby = true ∧ nop5.mirrored = false ∧ (inRole .standby run).tth.since ≤ nop5.seq ∧ (inRole .standby run).top.st = .run ∧
      Opcode.nop ∈ ([.nop, .barrier, .tableRead, .mtrCfg, .refCmd] : List Opcode) ∧ Opcode.objSet ∉ ([.nop, .barrier, .tableRead, .mtrCfg, .refCmd] : List Opcode) := by
  decide +kernel
theorem witness_RingEntriesAndVectorsFollowR90AndR94_events :
    setup.ringType (setup.fld R.HRE_EVT_RING) ≠ 2 ∧
    ((ringOn 9 2 4 setup).setFld R.HRE_EVT_RING 9).ringType 9 = 2 ∧ (ringOn 9 2 4 setup).ringLive 9 = true ∧ 0 < (ringOn 9 2 4 setup).ringFree 9 ∧
    (setup.setFlds [(R.RING_CFG_TYPE 9, 2)]).ringType 9 = 2 ∧ setup.ringLive 9 = false ∧
    ((ringOn 9 2 4 setup).setFld (R.RING_DEV_IDX_DEV_IDX 9) 16).ringFree 9 = 0 ∧
    (setup.setFld R.HRE_EVT_EN 1).flag R.HRE_EVT_EN = true ∧ setup.awake = true ∧ setup.works hreBase = true ∧
    (let d := setup.setHd slpBase { setup.hd slpBase with fresh := 1#32, eventEn := 1#32 }
     (d.hdr.filterMap (fun x => unitAt x.1)).filter (fun u => d.effEn u.base && d.freshBits u.base != 0) ≠ []) := by decide +kernel
theorem witness_BarrierCompletesAfterItsScope_late :
    (let d : Dev := { setup with hre := { setup.hre with barriers := [⟨bar, [], true, true⟩] } }
     d.awake = true ∧ d.hre.barriers = [⟨bar, [], true, true⟩] ∧ d.isDue bar = true) ∧ (∀ b ∈ setup.hre.barriers, b.cmd.id ≠ bar.id) := by decide +kernel
def sharing (f : Option (Option Nat)) (i : CmdId) (d : Dev) : Dev := { d with tth := { d.tth with shared := [⟨i, f, false⟩] } }
theorem witness_TableWriteCopiesIntoTheStagedCopy_shared :
    setup.tth.shared = [] ∧
    (let d := sharing none twLast.id (copying twLast true (inRole .standby run))
     d.hre.copies = [⟨twLast, true, some (d.tab (Tw.tableId twLast)).live, false⟩] ∧ d.waitsPeer twLast.id = true ∧ d.copied twLast.id = false) := by decide +kernel
/-- A commit with an apply tick still to come. -/
def scLater (n : Nat) : Cmd := { (cmd .sceneCommit [(16, n)]) with apply := 20#48 }
theorem witness_SceneCommitSwapsOrDiscards_waiting :
    (∀ n ∈ [0, 1], (scLater n).withBits 16 1 n = scLater n ∧ (scLater n).code = BitVec.ofNat 8 Opcode.sceneCommit.code ∧
      ticking.awake = true ∧ ticking.works hreBase = true ∧ ticking.isDue (scLater n) = false ∧
      (commitQueued (scLater n) [] false ticking).hre.paq.any (fun x => x.cmd.id == (scLater n).id) = true ∧
      (commitQueued (scLater n) [] false ticking).isDue (scLater n) = false ∧
      ticking.hre.paq.any (fun x => x.cmd.id == (scLater n).id) = false ∧ ticking.paqTaken = false ∧ (∀ x ∈ ticking.hre.commits, x.id ≠ (scLater n).id)) ∧
    ({ setup with hre := { setup.hre with paq := List.replicate 4096 ⟨.nop, nop5⟩ } } : Dev).paqTaken = true := by decide +kernel
/-- A commit that some check refuses at its tick: SAFE takes no SCENE_COMMIT. -/
theorem witness_SceneCommitSwapsOrDiscards_refused :
    (∀ n ∈ [0, 1], let c := cmd .sceneCommit [(16, n)]
      c.withBits 16 1 n = c ∧ (commitQueued c [] false safe).isDue c = true ∧ ((commitQueued c [] false safe).commitW c.id).late = false ∧
      (commitQueued c [] false safe).refused .sceneCommit c = some ⟨.refusedState, 0, 0⟩ ∧ safe.isDue c = true ∧
      (safe.enlist c).refused .sceneCommit c = some ⟨.refusedState, 0, 0⟩) ∧
    (let d : Dev := { setup with hre := { setup.hre with copies := [⟨twLast, true, none, false⟩], outst := [⟨1, 1, 1⟩] } }
     d.isDue sc = true ∧ (d.enlist sc).refused .sceneCommit sc = none ∧
       commitReady { d.enlist sc with hre := { (d.enlist sc).hre with commits := [⟨sc.id, [⟨1, 1, 1⟩], none, false⟩] } } ⟨.sceneCommit, sc⟩ = false) := by decide +kernel
theorem witness_ObjKeyframeStartsMovesFromTheTickBefore_flags :
    bitAt ((kf 1023 7).u8 20) 0 = true ∧ bitAt ((kf 1023 7).u8 20) 1 = true ∧ bitAt ((kf 0 0).u8 20) 1 = false ∧ bitAt ((kf 0 0).u8 20) 2 = false := by decide +kernel
/-- One node of the crosspoint at a gain, which the last block used at another. -/
def oneNode (c0 c : Nat) : Dev :=
  let d := (enabled xptBase run).setTab T.xptNode { run.tab T.xptNode with live := wordSet [] (XptT.node 1023 1023 / 2) (setBits 0 16 16 c) }
  { d with xpt := { d.xpt with last := some (wordSet [] (XptT.node 1023 1023 / 2) (setBits 0 16 16 c0)) } }
theorem witness_CrosspointCommandsWriteBothCopies_mix :
    (oneNode 0x4000 0x3000).inBlock xptBase = true ∧ 1023 < (oneNode 0x4000 0x3000).nBus ∧ XptT.node 1023 1023 % 2 = 1 ∧
      (oneNode 0x4000 0x3000).xpt.ramps = [] ∧ (oneNode 0x4000 0x3000).xpt.parity = [] ∧ (oneNode 0x4000 0x3000).xpt.scale = [] ∧
      (Bank.at (oneNode 0x4000 0x3000) [(1023, List.replicate (oneNode 0x4000 0x3000).blockB 7)] 1023).length = (oneNode 0x4000 0x3000).blockB ∧
      (1 : Nat) * 16 ≤ 16 ∧ 15 < (1 : Nat) * 16 := by decide +kernel
/-- Point 63 taps bus 1023. -/
def onePoint : Dev :=
  let d := (enabled mtrBase run).setTab T.mtrPoint { run.tab T.mtrPoint with live := [(126, 0x900003FF#32)] }
  { d with mtr := { d.mtr with last := [(126, 0x900003FF#32)] } }
theorem witness_MeterSnapshotsFollowR190ToR192_levels :
    onePoint.works mtrBase = true ∧ mtrChanged onePoint = [] ∧ MtrT.kind onePoint 63 = 1 ∧ MtrT.index onePoint 63 = 1023 ∧
      (((onePoint.tab T.mtrPoint).live.map (fun e => e.1 / 2)).eraseDups).filter (MtrT.on onePoint) = [63] := by decide +kernel
theorem witness_BankLoadsRunFromCopyToRestart_shared :
    (let c := bankLoad 511 1 0 4
     setup.share c.id = none ∧ (let d := sharing none c.id (bank { CoefBank.zero with st := .loading, copying := [(c, false)] } (inRole .standby run))
       (d.bankOf 511 1).copying = (c, false) :: [] ∧ d.waitsPeer c.id = true ∧ d.copied c.id = false)) ∧
    (let c := bankLoad 511 1 0 4
     ((sharing (some none) c.id (pairAs .active linked .run)).share c.id).isSome = true) ∧
    (let x := { CoefBank.zero with transform := true }
     x.firLen setup ≤ 16 * headTaps setup ∧
       16 * headTaps setup < ({ x with image := [(1, 0x4000#32)] } : CoefBank).firLen setup) := by decide +kernel
/-- Chain 511 takes feed 5 and runs on. -/
def oneChain : Dev :=
  let d := run.setTab T.outChain { run.tab T.outChain with live := [(8 * 511, 0x81000005#32)] }
  { d with out := { d.out with chains := [(511, { ChainR.zero with on := true, kind := ChainT.kind d 511, idx := ChainT.index d 511, delay := chainDelay d 511, v := chainV d 511 })] } }
theorem witness_SwapsCrossfadesAndPatchEntries_block :
    (let st := smGet (fun _ => ChainR.zero) oneChain.out.chains 511
     st.on = true ∧ st.kind = ChainT.kind oneChain 511 ∧ st.idx = ChainT.index oneChain 511 ∧ st.delay = chainDelay oneChain 511 ∧ st.v = chainV oneChain 511) ∧
    (chainInput oneChain [(5, List.replicate oneChain.blockB 9)] [] (ChainT.kind oneChain 511) (ChainT.index oneChain 511)).length = oneChain.blockB ∧
    oneChain.out.fades.find? (fun e => e.1 == 511) = none ∧ oneChain.audible 511 ≤ 1 ∧ (oneChain.bankOf 511 (oneChain.audible 511)).nsos = 0 ∧
    (oneChain.bankOf 511 (oneChain.audible 511)).firLen oneChain = 0 ∧ ChainT.lookahead oneChain 511 = false ∧ unlimited oneChain 0 511 = false := by decide +kernel
/-- Its group has a format; the write index had passed one record at the last block start. -/
def playing (f : Env) (miss : Bool) (seen : Nat) : Dev :=
  ((memPort setup).setFld (R.GRP_FMT_FMT 7) 0x2008).setPort 31 { PortS.zero with outE := f, ply := { PlyRun.zero with seen := seen, missing := miss } }
theorem witness_MemoryModeRecordsAreWrittenAndPlayed_start :
    (let d := playing .zero false 1
     d.awake = true ∧ d.works (grpBase 7) = true ∧ GFmt.slots (d.gFmt 7) ≠ 0 ∧ (d.grp 7).restart = false ∧ (d.port 31).ply.begun = false ∧ d.dirOn 31 true = true ∧
       (d.port 31).ply.left = [] ∧ PCtl.memory (d.pCtl 31) = true ∧ (d.grp 7).frame % PCtl.memFrames (d.pCtl 31) = 0 ∧
       0 < ((d.port 31).ply.seen + 2 ^ 32 - d.fld (R.PORT_PLY_RIDX_IDX 31)) % 2 ^ 32 ∧ (d.port 31).ply.missing = false) ∧
    (let d := playing ⟨0, 64, true, false, 0, true⟩ true 1
     (d.port 31).ply.missing = true ∧ (d.port 31).outE.fall = true ∧ (d.port 31).outE.fault = true ∧ d.works (grpBase 7) = true ∧ d.dirOn 31 true = true) := by decide +kernel
theorem witness_DramAccessesFollowR479AndR484_bursts :
    (List.replicate 64 7 ≠ [] ∧ 0xFFC0 / 4096 = (0xFFC0 + (List.replicate 64 7).length - 1) / 4096 ∧ (0x0FF0, 16) ∈ burstsOf 0x0FF0 48) := by decide +kernel
theorem witness_DramConfigurationChecksAndRefreshes_polls :
    ((setup.setFld (R.DMC_CH_STAT_HOT 3) 1).hotInterval 3 = true ∧ setup.hotInterval 3 = false ∧
      (setup.setFld (R.DMC_CH_STAT_OWED 3) 3).fld (R.DMC_CH_STAT_OWED 3) ≠ 0 ∧ (min 16 (2 * 3) * setup.fld R.DMC_REF_TRFC + 1) / 2 ≠ 0 ∧
      setup.fld (R.DMC_CH_STAT_OWED 3) = 0) ∧
    (let d : Dev := { coarse with dmc := { coarse.dmc with burst := [(3, 5)] } }
     d.top.st = .run ∧ d.works dmcBase = true) ∧
    (∃ q ∈ ([⟨6, true⟩] : List Queued), setup.fld R.DMC_RT_QOS_RT_QOS ≤ (if 10 ≤ q.master then 15 else if q.write then setup.fld (R.FAB_QOS_QOS_WR q.master)
      else setup.fld (R.FAB_QOS_QOS_RD q.master))) := by decide +kernel
/-- A descriptor of NOP that asks for no completion stands in ring 63; with the queue full or not; one that asks with no place in ring 62. -/
def posted (b : List Nat) : Dev := ((ringOn 63 0 4 setup).setFlds [(R.RING_HOST_IDX_HOST_IDX 63, 1), (R.RING_CFG_LINK 63, 62), (R.RING_CFG_LOG2_SIZE 62, 4), (R.RING_DEV_IDX_DEV_IDX 62, 16)]).hostWrite 0 b
def reading (d : Dev) : Cmd := cmdOfBytes (memRead d.hostMem (d.ringAddr 63 0) 64) 63 0 d.top.tick d.hre.serial
theorem witness_BoundariesAndServiceInstantsFollowTheirOrder_service :
    (setup.hre.skipPage = false ∧ Boundary.quiet.fails = [] ∧ Boundary.quiet.pollLate = false ∧ run.top.st = .run ∧ setup.ringLive 0 = false) ∧
    (let f : Fetching := ⟨posted [0x7F], 4, [], false⟩
     f.left ≠ 0 ∧ 63 ∉ f.stop ∧ f.dev.ringLive 63 = true ∧ f.dev.ringType 63 = 0 ∧ f.dev.ringPosted 63 ≠ 0 ∧ f.dev.ringBarred 63 = false ∧ f.dev.paqTaken = false ∧
       (reading f.dev).cplReq = false) ∧
    ((reading (posted [0, 1])).cplReq = true ∧ (posted [0, 1]).ringFree ((posted [0, 1]).fld (R.RING_CFG_LINK 63)) = 0) ∧
    (⟨setup, 0, [], false⟩ : Fetching).left = 0 ∧ 63 ∈ (⟨setup, 1, [63], false⟩ : Fetching).stop := by decide +kernel
theorem witness_AsrcStatesFollowR241AndR242_far :
    (asrcIn 1 0).asrcState 255 = 1 ∧ (asrcIn 2 5).asrcState 255 = 2 ∧ 2000000 < ((asrcIn 2 5).asrcSeen 255 2000001).natAbs ∧
      ((asrcIn 1 0).asrcSeen 255 2000000).natAbs ≤ 2000000 := by decide +kernel
theorem witness_ReceivedFramesAreCheckedThenSorted_on :
    macOn.macOn 1 = true ∧ macOn.flag (R.ETH_MODE_LOOP 1) = false ∧ setup.macOn 1 = false := by decide +kernel
theorem witness_MacRegistersLinkAndHostFrames_reversed :
    ({ EthM.zero with rev := some false } : EthM).rev = some ((macOn.setMac 1 { macOn.mac 1 with rev := some false }).flag (R.ETH_MODE_RX_INV 1)) ∧
      macOn.macOn 1 = true ∧ (macOn.mac 1).rev ≠ some (macOn.flag (R.ETH_MODE_RX_INV 1)) ∧ xoff.macOn 1 = true := by decide +kernel
theorem witness_TimeSteerMovesBasesAsR334Says_other :
    setup.cmdDue .timeSteer (cmd .timeSteer [(16, 3), (17, 4)]) = true ∧
      (setup.unqueue (cmd .timeSteer [(16, 3), (17, 4)])).refused .timeSteer (cmd .timeSteer [(16, 3), (17, 4)]) = none ∧
      Steer.tb (cmd .timeSteer [(16, 3), (17, 4)]) ≤ 3 ∧ 3 < Steer.op (cmd .timeSteer [(16, 3), (17, 4)]) := by decide +kernel
theorem witness_TimeBasesServosAndCaptures_edges :
    (let d := src 2 setup
     d.works tbuBase = true ∧ d.isStandby = false ∧ ppsRising d = true ∧ slowEdge 20 = 8 ∧ slowEdge 5 = 0) ∧
    ((false : Bool) ≠ ppsRising setup ∧ (true : Bool) = ((capOn 5).fld (R.CAP_CTL_EDGE 7) == 0)) := by decide +kernel
theorem witness_ReferencesQualifyAsR355Says_tether :
    (13 : Nat) < 14 ∧ (setup.setFld (R.REF_IN_STAT_HARD 13) 1).flag (R.REF_IN_STAT_HARD 13) = true ∧ setup.flag (R.REF_IN_STAT_HARD 13) = false := by decide +kernel
/-- Two realignments to reference 12, one of them older than 2 s. -/
def twoRealigns : Dev :=
  { setup with ref := { setup.ref with realigns := [⟨rc 5 7 12, false, 0⟩, ⟨rc 5 3 12, false, 1000000000⟩] }, tbu := { setup.tbu with now := 1500000000 } }
theorem witness_DpllsAndRealignments_waits :
    (RefC.ref (rc 5 7 12) = 12 ∧ 0 + 1000000000 ≤ twoRealigns.tbu.now ∧ ¬ 1000000000 + 1000000000 ≤ twoRealigns.tbu.now ∧
      twoRealigns.ref.realigns = [] ++ ⟨rc 5 7 12, false, 0⟩ :: [⟨rc 5 3 12, false, 1000000000⟩]) ∧
    (∀ e ∈ realigning.ref.realigns, ¬ e.since + 1000000000 ≤ realigning.tbu.now) ∧
    (let d := setup.setDpll 1 { Dpll.zero with avg := [(5, 5)] }
     (d.dpll 1).mean.isSome = true ∧ (setup.dpll 1).mean = none) ∧ 0 < refPeriod setup 12 := by decide +kernel
theorem witness_TasksAreReleasedAndDelivered_returns :
    (let d : Dev := { setup with dsp := { setup.dsp with miss := [(5, 100, 8)], owner := [(5, 5)] } }
     (∃ m ∈ d.dsp.miss, m.1 = 5 ∧ m.2.1 ≤ 107 ∧ 107 < m.2.1 + m.2.2) ∧ (¬ ∃ m ∈ d.dsp.miss, m.1 = 5 ∧ m.2.1 ≤ 108 ∧ 108 < m.2.1 + m.2.2)) ∧
    (let d : Dev := { setup with fmn := { setup.fmn with ready := [{ inst0 with words := [], block := 5 }] } }
     ∀ i ∈ d.fmn.ready ++ d.fmn.run, i.block = 5 ∧ i.missed = false ∧ i.dead = false) ∧
    setup.fld R.TOP_DSP_MISS_COUNT < 2 ^ R.TOP_DSP_MISS_COUNT.w - 1 ∧ (setup.setFld R.TOP_PIPE_DSP_MISS 1).flag R.TOP_PIPE_DSP_MISS = true ∧
    0 < setup.fld R.TOP_PIPE_DSP_LAG ∧ setup.fld R.TOP_PIPE_DSP_LAG ≤ 2 ∧ setup.isStandby = false ∧
    (let d : Dev := { setup with dsp := { setup.dsp with owner := [(5, 5)] } }; setup.ownedRet 5 = false ∨ d.ownedRet 5 = true) := by decide +kernel
theorem witness_ControlInstructionsFollowR433ToR437_again :
    ({ core0 with rep := some 3 } : Core).rep = some (1 + 2) ∧ (∀ n, core0.rep ≠ some (n + 2)) ∧ ({ core0 with rep := some 1 } : Core).rep = some 1 := by
  refine ⟨rfl, ?_, rfl⟩; intro n h; cases h
theorem witness_CoresStartTakeTasksAndTransfer_beside :
    besideStore [ld] = true ∧ besideStore [sd] = false ∧ (runs core0).executes 15 [] [ld] ∧ coreRuns (runs core0) 15 = true ∧
      (∃ m ∈ [sd], m.store = true) ∧ 1 < [ld, ld].length ∧ ((moving true).core 15).q = dma0 true :: [] := by unfold Dev.executes; decide +kernel
theorem witness_PowerFollowsSensorsRailsAndLevels_force : setup.works pwrBase = true ∧ setup.pwr.own ≤ 7 := by decide +kernel
theorem witness_PadFaultsAreRecordedAndActedOn_levels :
    (padDriven setup 3 0 = true ∧ padLevel setup 3 0 0 = some false ∧ padLevel setup 4 1 0 = none ∧ padDriven setup 4 1 = true ∧
      padLevel { setup with tth := { setup.tth with ownOut := true } } 4 1 0 = some false ∧
      bitAt (setup.fld R.PIN_FLAGS_CLASS) 3 = false ∧ bitAt ((setup.setFld R.PIN_FLAGS_CLASS 8).fld R.PIN_FLAGS_CLASS) 3 = true ∧
      2 < smGet (fun _ => 0) (missed 3 setup).pin.miss 197) ∧
    (let d : Dev := { setup with boot := { setup.boot with dark := true } }; d.boot.dark = true ∧ setup.boot.dark = false) ∧
    (padDriven setup 2 4 = true ∧ clockOut setup 4 = false) ∧ (2 ≤ (3 : Fin 4).val ∧ (1 : Fin 4).val < 2 ∧ setup.macOn 1 = false ∧ macOn.macOn 1 = true) := by
  decide +kernel
theorem witness_RolesOwnershipAndHandover_own :
    ((pairAs .active (fun t => { t with kept := true }) .run).tth.kept = true ∧ (pairAs .standby linked .run).tth.shared = []) ∧
    (let d := secondary (pairAs .active (fun t => { t with claimed := some 0, ownOut := true }) .run)
     let e : Dev := { d with tbu := { d.tbu with now := 501 } }
     d.tth.ownOut = true ∧ d.tth.ownIn = false ∧ d.primary = false ∧ (∀ n, d.tth.claimed = some n → ¬ n + 500 < d.tbu.now) ∧
       (∀ n, e.tth.claimed = some n → n + 500 < e.tbu.now) ∧ ownable e 39 = true ∧ e.works tthBase = true ∧ e.tth.kept = false ∧ e.tth.handover = none) ∧
    ((pairAs .active (fun t => { t with own := [44] }) .run).works tthBase = true ∧ ownable (pairAs .active (fun t => { t with own := [44] }) .run) 44 = false ∧
      44 ∈ (pairAs .active (fun t => { t with own := [44] }) .run).tth.own) ∧
    (let d := pairAs .active (fun t => { t with kept := true, ownOut := false }) .run
     d.works tthBase = true ∧ d.tth.role = .active ∧ d.tth.ownOut = false ∧ d.tth.handover = none) := by
  refine ⟨by decide +kernel, ⟨by decide +kernel, by decide +kernel, by decide +kernel, ?_, ?_, by decide +kernel, by decide +kernel, by decide +kernel, by decide +kernel⟩,
    by decide +kernel, by decide +kernel⟩
  · intro n h; obtain rfl : 0 = n := Option.some.inj h; decide +kernel
  · intro n h; obtain rfl : 0 = n := Option.some.inj h; decide +kernel
theorem witness_PairsCompareAndMirror_frames :
    (let d := pairAs .standby linked .run
     (0 : Nat) = d.tth.rxNext ∧ d.works tthBase = true ∧ d.tth.linkOk = true ∧ d.isStandby = true ∧
       (setup.works (cvuBase 1) = false ∨ (d.cvuCompute 1 (leBytes 8 0) [1, 2, 3]).1 ≠ (0#32).toNat)) ∧
    (run.tth.linkOk = false ∧ (pairAs .active linked .run).pairActive = true ∧ (pairAs .active id .run).pairActive = false ∧ mirroredReg 0x10C = true) ∧
    ((Chunk.copied 0 0).piece = none ∧ (Chunk.dram 0 [1]).piece ≠ none ∧ (⟨⟨1, [1], 0⟩, 5, .dram 0 [1]⟩ : MirrorFrame).tick ≠ run.top.tick) ∧
    ((pairAs .active (fun t => { linked t with mirror := .transfer }) .run).pairActive = true ∧
      (pairAs .active (fun t => { linked t with mirror := .transfer }) .run).tth.xfer = [] ∧
      (pairAs .standby (fun t => { linked t with mirror := .transfer }) .run).tth.linkOk = true) := by decide +kernel
theorem witness_BootChecksTheImageThenEntersSetup_sources :
    (⟨1, none⟩ : BootRun).src = 1 ∧ (⟨2, none⟩ : BootRun).src ≠ 1 ∧ (booting 1 none).cfg.busMaster = true ∧
      ({ booting 1 none with cfg := ⟨true, false, false⟩ } : Dev).cfg.busMaster = false ∧ bootBytes (booting 2 none) ⟨2, none⟩ 0 256 (some (image sigS)) =
        some ((image sigS).take 256) ∧ bootBytes (booting 2 none) ⟨2, none⟩ 0 256 none = none := by decide +kernel

/-! ## Commands that no sender of the spec can send: `Instr.wf` refuses each -/

def someCmd : Cmd := cmd .barrier []
def acc (a : Nat) (wide : Bool) (be : BitVec 8) : RegAcc := ⟨a, wide, be, 0, 0⟩
def quiet : Boundary := .quiet
def wideMem (r : Fin 32) : MemOp := ⟨false, true, r, 0, .plain⟩
def wordMem (store : Bool) : MemOp := ⟨store, false, 5, 0, .plain⟩

theorem test_wf_accepts : [Instr.barrier someCmd, .nop (cmd .nop []), .nop { someCmd with code := 0x7F }, .timeSteerStep (cmd .timeSteer [(17, 1)]),
    .sceneCommitDiscard (cmd .sceneCommit [(16, 1)]), .registerWrite (acc 0x3FFFFFC false 15), .registerWrite (acc 0x3FFFFF8 true 255), .tickBoundary quiet,
    .mac 0 0 0 0 [wideMem 4, wordMem true], .load 0 (wordMem false) [], .store 0 (wordMem true) [], .unitEnable tthBase 7, .bar2Access true 0 5 255,
    .rstNRise false true (some (List.replicate 48 0)) 0, .mirrorCommand ⟨mark.head, { someCmd with ring := 256 }⟩ [255], .tdmFrame 0 ⟨256, 0, 0, [2 ^ 256 - 1]⟩].map Instr.wf
    = List.replicate 16 true := by decide +kernel
theorem test_wf_descriptor : [Instr.barrier { someCmd with ring := 64 }, .barrier { someCmd with ring := 320 }, .barrier { someCmd with idx := 2 ^ 32 },
    .barrier { someCmd with fetch := 2 ^ 48 }, .tableWrite someCmd, .nop someCmd, .timeSteerStep (cmd .timeSteer [(17, 2)]), .select (cmd .refCmd [(16, 1)]),
    .sceneCommit (cmd .sceneCommit [(16, 1)]), .sceneCommitDiscard (cmd .sceneCommit []), .mirrorCommand ⟨mark.head, someCmd⟩ [],
    .mirrorCommand ⟨mark.head, { someCmd with ring := 256 }⟩ [256]].map Instr.wf = List.replicate 12 false := by decide +kernel
theorem test_wf_access : [Instr.registerWrite (acc 0x4000000 false 15), .rcRead (acc 0 false 16), .bar2Access true (2 ^ 28) 0 0, .bar2Access true 0 0 256,
    .undecodedAccess true tthBase 0, .undecodedAccess true 0x4000000 0, .undecodedAccess true 0x3FFFFFC 256].map Instr.wf = List.replicate 7 false := by decide +kernel
theorem test_wf_boundary : [Instr.tickBoundary { quiet with hostWrites := [(2 ^ 64 - 1, [0, 0])] }, .serviceInstant { quiet with heldObjs := [2048] },
    .urgentPollRun { quiet with lateObjs := [2048] }, .tickBoundary { quiet with lateConv := [(1024, 0, 1)] }, .tickBoundary { quiet with lateDelay := [(1024, 0, 1, 0)] },
    .tickBoundary { quiet with overtime := [4] }, .hostMemoryError (.descriptor 64), .hostMemoryError (.ringWrite 64)].map Instr.wf = List.replicate 8 false := by
  decide +kernel
theorem test_wf_units : [Instr.unitReset 4 1, .unitHold tthBase 8, .unitEnable 4 1, .unitResetDone tthBase [⟨10, true, 0, 4090, []⟩]].map Instr.wf = List.replicate 4 false := by decide +kernel
theorem test_wf_serial : [Instr.tdmFrame 0 ⟨256, 0, 0, [0, 0, 0, 0, 0]⟩, .tdmFrame 0 ⟨256, 0, 4096, [0]⟩, .tdmFrame 0 ⟨256, 0, 0, [2 ^ 1055]⟩,
    .ethRxFrame 0 ⟨[256], false, false, 0, 0, 0⟩, .mirrorFrame ⟨⟨0, [256], 0⟩, 0, .none⟩, .handoverAnnounce (2 ^ 48)].map Instr.wf = List.replicate 6 false := by decide +kernel
theorem test_wf_core : [Instr.mpy 0 0 0 0 [wideMem 5], .clr 0 0 [wideMem 4, wideMem 4, wideMem 4], .load 0 (wordMem true) [], .store 0 (wordMem false) [],
    .load 0 (wordMem false) [wideMem 4, wideMem 4], .return 0 [wideMem 1]].map Instr.wf = List.replicate 6 false := by decide +kernel
theorem test_wf_plant : [Instr.sensorSample (List.replicate 17 0), .railSample 0 0 (List.replicate 7 0), .mr4Poll (List.replicate 9 ⟨0, false, false⟩),
    .refreshExpiry 0 [⟨11, false⟩], .owedRefreshFlush 0 [⟨11, true⟩], .openTestDone [64], .rstNRise false false (some [0]) 0, .bootHeaderRead (some [0]),
    .bootBodyRead (some [256])].map Instr.wf = List.replicate 9 false := by decide +kernel

/-! ## Values the spec works out -/

/-- L4 coefficients of the example of 04_render_lanes.md (F = 2403). -/
theorem test_l4_coefficients : l4Coef 2403 = [-958304, 7775299, 11036056, -1075836] := by decide +kernel
/-- The move example of 03_objects_panning.md: 0 to 1.0 m over three ticks, at 3,000,003 to 3,000,006. -/
theorem test_move : (List.range 4).map (fun i => (⟨0, 65536, 3000004, 3⟩ : Move).at (3000003 + i)) = [0, 21845, 43691, 65536] := by decide +kernel
/-- The node ramp example of 05_crosspoint.md: last samples of blocks A and A+1, then of the four blocks of the second ramp. -/
theorem test_node_ramp : [16, 32].map ((⟨16777216, 8408526, 0, 4⟩ : NodeRamp).at 16) = [14685043, 12592871] ∧
    [16, 32, 48, 64].map ((⟨12592871, 16777216, 0, 4⟩ : NodeRamp).at 16) = [13638957, 14685044, 15731130, 16777216] := by decide +kernel
/-- AUTOSCALE with five contributing nodes, as in 05_crosspoint.md. -/
theorem test_scale_target : scaleTarget true 5 = 3355443 ∧ scaleTarget true 0 = 16777216 ∧ scaleTarget false 5 = 16777216 := by decide +kernel
/-- Contribution gain of object 9 in the example of 03_objects_panning.md. -/
theorem test_contribution_gain : contribGain 0xCC00 0xCC00 (-6144) ⟨1, 0⟩ = 4214246 := by decide +kernel
/-- Hint cell of the example of 03_objects_panning.md. -/
theorem test_hint_cell : hintCell ⟨b32.div ⟨2, 0⟩ ⟨3, 0⟩, b32.div ⟨2, 0⟩ ⟨3, 0⟩, b32.div ⟨1, 0⟩ ⟨3, 0⟩⟩ = 207 := by decide +kernel
set_option maxRecDepth 100000 in
/-- The published SHA-384 digest of "abc" (FIPS 180-4 examples). -/
theorem test_sha384 : ofBe (sha384 [0x61, 0x62, 0x63]) =
    0xcb00753f45a35e8bb5a03d699ac65007272c32ab0eded1631a8b605a43ff5bed8086072ba1e7cc2358baeca134c825a7 := by decide +kernel

/-! ## Steps -/

/-- The queue is first in, first out: the step runs the front command and leaves the rest. -/
theorem test_step_takes_the_front : (step (⟨[.topTickLoRead, .rstNReset], run⟩ : State) matches .next ⟨[.rstNReset], _⟩) = true := by decide +kernel
/-- Reserved bits of a bus entry read as 0, whatever was written to them (00 R8, 05 R182). -/
theorem test_reserved_table_bits_read_zero :
    ((((setup.setTab T.xptBus { setup.tab T.xptBus with live := [(3, 0xFFFFFFFF#32)] }).bar2Read 0x304000C 0).bus) = ⟨0x800003FF, false⟩) := by
  decide +kernel
/-- The table gives no row bits, so no word spells a command. -/
theorem test_no_word_spells_a_command : decodeTableWord 32 5 = none := by decide +kernel

end Sys2Proof.Tests
end

section
/-! SUPPORT. The register table and what the access types of R6 make of a register's fields: a plain write and a plain read each
replace the fields of the word one by one, and the fields of a row share no bit. -/
namespace Sys2Proof.Proofs
open Sys2Proof.Machine Sys2Proof.Laws

/-! ## Words rewritten field by field -/

/-- Two field rows share no bit. -/
def fieldsApart (f g : FieldRow) : Prop := f.lo + f.w ≤ g.lo ∨ g.lo + g.w ≤ f.lo

/-- The word `n` with every field `f` of a list replaced by what `k` makes of the bits that it held. -/
def rewriteFields (k : FieldRow → Nat → Nat) (l : List FieldRow) (n : Nat) : Nat :=
  l.foldl (fun n f => setBits n f.lo f.w (k f (bits n f.lo f.w))) n

theorem setBits_bits_self (n lo w : Nat) : setBits n lo w (bits n lo w) = n := by
  rw [setBits_eq, Nat.mod_eq_of_lt (bits_lt n lo w), ← split_field]

theorem rewriteFields_lt (k : FieldRow → Nat → Nat) {l : List FieldRow} (fit : ∀ f ∈ l, f.lo + f.w ≤ 32) {n : Nat}
    (hn : n < 2 ^ 32) : rewriteFields k l n < 2 ^ 32 :=
  List.foldlRecOn (motive := (· < 2 ^ 32)) l _ hn (fun m hm f hf => setBits_lt m f.lo f.w _ 32 hm (fit f hf))

/-- A field apart from every one that is rewritten keeps its bits. -/
theorem bits_rewriteFields_of_apart (k : FieldRow → Nat → Nat) {l : List FieldRow} {g : FieldRow} (h : ∀ f ∈ l, fieldsApart g f)
    (n : Nat) : bits (rewriteFields k l n) g.lo g.w = bits n g.lo g.w :=
  List.foldlRecOn (motive := fun m => bits m g.lo g.w = bits n g.lo g.w) l _ rfl
    (fun m hm f hf => (bits_setBits_ne m f.lo f.w _ g.lo g.w (h f hf)).trans hm)

/-- Among fields that share no bit, each one holds what is made of its own bits. -/
theorem bits_rewriteFields_of_mem (k : FieldRow → Nat → Nat) {l : List FieldRow} (h : l.Pairwise fieldsApart) {f : FieldRow}
    (hf : f ∈ l) (n : Nat) : bits (rewriteFields k l n) f.lo f.w = k f (bits n f.lo f.w) % 2 ^ f.w := by
  induction l generalizing n with
  | nil => simp at hf
  | cons g r ih =>
    obtain ⟨hg, hr⟩ := List.pairwise_cons.1 h
    change bits (rewriteFields k r (setBits n g.lo g.w (k g (bits n g.lo g.w)))) f.lo f.w = _
    rcases List.mem_cons.1 hf with rfl | hf
    · rw [bits_rewriteFields_of_apart k hg, bits_setBits_self]
    · rw [ih hr hf, bits_setBits_ne _ _ _ _ _ _ (hg f hf).symm]

/-! ## The register table -/

/-- The fields of a row lie within the word and share no bit. -/
def fieldsFit (r : RegRow) : Prop := (∀ f ∈ r.fields, f.lo + f.w ≤ 32) ∧ r.fields.Pairwise fieldsApart

theorem fieldsFit_of_page (p : Nat) : ∀ r ∈ rowsOfPage p, fieldsFit r := by
  have pages : ∀ p < 21, ∀ r ∈ rowsOfPage p, fieldsFit r := by unfold fieldsFit fieldsApart; decide +kernel
  by_cases hp : p < 21
  · exact pages p hp
  · obtain ⟨k, rfl⟩ := Nat.exists_eq_add_of_le' (Nat.le_of_not_lt hp)
    have empty : rowsOfPage (k + 21) = [] := rfl
    simp [empty]

/-- Every register of the table has fields that lie within the word and share no bit. -/
theorem fieldsFit_of_rowAt {a : Nat} {r : RegRow} (h : rowAt a = some r) : fieldsFit r :=
  fieldsFit_of_page _ r (List.mem_of_find?_eq_some h)

/-! ## Plain writes (R6) -/

/-- What a write of `v` makes of the bits `b` of a field. -/
def writtenBits (v : Nat) (f : FieldRow) (b : Nat) : Nat :=
  match f.acc with
  | .rw => bits v f.lo f.w
  | .rws => bits v f.lo f.w
  | .w1c => b &&& (2 ^ f.w - 1 - bits v f.lo f.w)
  | _ => b

theorem fieldWrite_eq_setBits (v n : Nat) (f : FieldRow) :
    fieldWrite v n f = setBits n f.lo f.w (writtenBits v f (bits n f.lo f.w)) := by
  unfold fieldWrite writtenBits
  cases f.acc <;> simp [setBits_bits_self]

theorem writtenBits_lt (v : Nat) (f : FieldRow) {b : Nat} (h : b < 2 ^ f.w) : writtenBits v f b < 2 ^ f.w := by
  unfold writtenBits
  split
  · exact bits_lt ..
  · exact bits_lt ..
  · exact Nat.and_le_left.trans_lt h
  · exact h

theorem writePlain_of_row {a : Nat} {r : RegRow} (h : rowAt a = some r) (d : Dev) (v : Word) :
    d.writePlain a v = d.setReg a (BitVec.ofNat 32 (rewriteFields (writtenBits v.toNat) r.fields (d.reg a).toNat)) := by
  have e : fieldWrite v.toNat = fun n f => setBits n f.lo f.w (writtenBits v.toNat f (bits n f.lo f.w)) :=
    funext fun n => funext fun f => fieldWrite_eq_setBits v.toNat n f
  simp only [Dev.writePlain, h, e, rewriteFields]

/-- A register stored from a rewritten word reads as that word. -/
theorem toNat_rewriteFields {r : RegRow} (fit : fieldsFit r) (k : FieldRow → Nat → Nat) (w : Word) :
    (BitVec.ofNat 32 (rewriteFields k r.fields w.toNat)).toNat = rewriteFields k r.fields w.toNat := by
  rw [BitVec.toNat_ofNat, Nat.mod_eq_of_lt (rewriteFields_lt k fit.1 w.isLt)]

/-- After a plain write each field holds what its access type makes of the bits held and written. -/
theorem bits_writePlain {a : Nat} {r : RegRow} (h : rowAt a = some r) {f : FieldRow} (hf : f ∈ r.fields) (d : Dev) (v : Word) :
    bits ((d.writePlain a v).reg a).toNat f.lo f.w = writtenBits v.toNat f (bits (d.reg a).toNat f.lo f.w) := by
  have fit := fieldsFit_of_rowAt h
  rw [writePlain_of_row h, reg_setReg_self, toNat_rewriteFields fit, bits_rewriteFields_of_mem _ fit.2 hf,
    Nat.mod_eq_of_lt (writtenBits_lt _ f (bits_lt ..))]

/-- A plain write changes no other register. -/
theorem reg_writePlain_ne (d : Dev) {a b : Nat} (v : Word) (h : b ≠ a) : (d.writePlain a v).reg b = d.reg b := by
  unfold Dev.writePlain
  split
  · rfl
  · exact reg_setReg_ne d _ h

/-- A plain write changes nothing but registers. -/
theorem writePlain_frame (d : Dev) (a : Nat) (v : Word) : { d.writePlain a v with regs := d.regs } = d := by
  unfold Dev.writePlain
  split <;> rfl

/-! ## Plain reads (R6) -/

/-- The bits of a field, 0 for one of access type `p`. -/
def droppedBits (p : Acc) (f : FieldRow) (b : Nat) : Nat := if f.acc = p then 0 else b

theorem droppedBits_lt (p : Acc) (f : FieldRow) {b : Nat} (h : b < 2 ^ f.w) : droppedBits p f b < 2 ^ f.w := by
  unfold droppedBits
  split
  · exact Nat.two_pow_pos _
  · exact h

theorem bits_droppedBits {r : RegRow} (fit : fieldsFit r) {f : FieldRow} (hf : f ∈ r.fields) (p : Acc) (n : Nat) :
    bits (rewriteFields (droppedBits p) r.fields n) f.lo f.w = if f.acc = p then 0 else bits n f.lo f.w := by
  rw [bits_rewriteFields_of_mem _ fit.2 hf, Nat.mod_eq_of_lt (droppedBits_lt p f (bits_lt ..)), droppedBits]

theorem readPlain_of_row {a : Nat} {r : RegRow} (h : rowAt a = some r) (d : Dev) :
    d.readPlain a =
      let drop (p : Acc) := rewriteFields (droppedBits p) r.fields (d.reg a).toNat
      (drop .wo, if drop .rc = (d.reg a).toNat then d else d.setReg a (BitVec.ofNat 32 (drop .rc))) := by
  have e (p : Acc) : (fun n (f : FieldRow) => if f.acc = p then setBits n f.lo f.w 0 else n) =
      fun n f => setBits n f.lo f.w (droppedBits p f (bits n f.lo f.w)) := by
    funext n f
    unfold droppedBits
    split
    · rfl
    · rw [setBits_bits_self]
  unfold Dev.readPlain
  simp only [h, e]
  rfl

/-- A plain read shows each field's bits, 0 for a WO field. -/
theorem bits_readPlain_value {a : Nat} {r : RegRow} (h : rowAt a = some r) {f : FieldRow} (hf : f ∈ r.fields) (d : Dev) :
    bits (d.readPlain a).1 f.lo f.w = if f.acc = .wo then 0 else bits (d.reg a).toNat f.lo f.w := by
  rw [readPlain_of_row h]
  exact bits_droppedBits (fieldsFit_of_rowAt h) hf .wo _

/-- After a plain read each field holds what it held, an RC field 0. -/
theorem bits_readPlain_reg {a : Nat} {r : RegRow} (h : rowAt a = some r) {f : FieldRow} (hf : f ∈ r.fields) (d : Dev) :
    bits ((d.readPlain a).2.reg a).toNat f.lo f.w = if f.acc = .rc then 0 else bits (d.reg a).toNat f.lo f.w := by
  have fit := fieldsFit_of_rowAt h
  have word : ((d.readPlain a).2.reg a).toNat = rewriteFields (droppedBits .rc) r.fields (d.reg a).toNat := by
    rw [readPlain_of_row h]
    dsimp only
    split
    · next same => exact same.symm
    · rw [reg_setReg_self, toNat_rewriteFields fit]
  rw [word, bits_droppedBits fit hf]

/-- A plain read changes no other register. -/
theorem reg_readPlain_ne (d : Dev) {a b : Nat} (h : b ≠ a) : (d.readPlain a).2.reg b = d.reg b := by
  unfold Dev.readPlain
  split
  · rfl
  · dsimp only
    split
    · rfl
    · exact reg_setReg_ne d _ h

/-- A plain read changes nothing but registers. -/
theorem readPlain_frame (d : Dev) (a : Nat) : { (d.readPlain a).2 with regs := d.regs } = d := by
  unfold Dev.readPlain
  split
  · rfl
  · dsimp only
    split <;> rfl

/-- Settles O15: the accesses rewrite the fields of the row one by one, and no two of them share a bit. -/
theorem registerFieldsFollowTheirAccessTypes : Obligations.RegisterFieldsFollowTheirAccessTypes := by
  unfold Obligations.RegisterFieldsFollowTheirAccessTypes
  exact ⟨fun d a v r h => ⟨fun f hf => bits_writePlain h hf d v, fun b hb => reg_writePlain_ne d v hb, writePlain_frame d a v⟩,
    fun d a r h => ⟨fun f hf => ⟨bits_readPlain_value h hf d, bits_readPlain_reg h hf d⟩, fun b hb => reg_readPlain_ne d hb,
      readPlain_frame d a⟩⟩

end Sys2Proof.Proofs
end

section
/-! SUPPORT. Accesses through BAR0: what leaves RST_N as it is, where an access goes, and the two halves of a 64-bit access. -/
namespace Sys2Proof.Proofs
open Sys2Proof.Machine Sys2Proof.Laws

/-! ## What a read leaves alone -/

@[simp] theorem fabLog_boot (d : Dev) (e : FabErr) (write : Bool) (master id addr : Nat) :
    (d.fabLog e write master id addr).boot = d.boot := by
  unfold Dev.fabLog
  dsimp only
  split <;> simp

@[simp] theorem healthOne_boot (overtime : List Nat) (keep : Bool) (d : Dev) (u : UnitRow) :
    (d.healthOne overtime keep u).boot = d.boot := by
  simp only [Dev.healthOne, apply_ite Dev.boot, setHealth_boot, drew_boot, ite_self]

@[simp] theorem healthAll_boot (d : Dev) (overtime : List Nat) (keep : Bool) : (d.healthAll overtime keep).boot = d.boot :=
  List.foldlRecOn (motive := fun e => e.boot = d.boot) healthOrder _ rfl (fun e he u _ => (healthOne_boot overtime keep e u).trans he)

@[simp] theorem headerRead_boot (d : Dev) (u : UnitRow) (off : Nat) : (d.headerRead u off).2.boot = d.boot := by
  unfold Dev.headerRead
  dsimp only
  split <;> simp

@[simp] theorem dpllPherr_boot (d : Dev) (p : Nat) : (d.dpllPherr p).2.boot = d.boot := by
  unfold Dev.dpllPherr
  dsimp only
  split
  · rfl
  · split <;> rfl

@[simp] theorem capNsRead_boot (d : Dev) (k : Nat) : (d.capNsRead k).2.boot = d.boot := setFlds_boot ..

/-- No rule of the table of reads moves a strap, a fuse or RST_N. -/
theorem readRow_boot : ∀ r ∈ readRows, ∀ (i : Nat) (d : Dev), (r.act i d).2.boot = d.boot := by
  simp [readRows, shows, Dev.tickLoRead, Dev.tbNsRead, Dev.cntRead, Dev.setMac, Dev.fmnNowRead]

theorem readHit_boot {a : Nat} {f : Dev → Nat × Dev} (h : readHit a = some f) (d : Dev) : (f d).2.boot = d.boot := by
  obtain ⟨r, hr, hf⟩ := List.exists_of_findSome?_eq_some h
  obtain ⟨i, -, rfl⟩ := Option.map_eq_some_iff.1 hf
  exact readRow_boot r hr i d

theorem readPlain_boot (d : Dev) (a : Nat) : (d.readPlain a).2.boot = d.boot := (congrArg Dev.boot (readPlain_frame d a) :)

/-! ## Where a read goes -/

/-- What a read of a register of a unit that responds gives, and the part afterwards. -/
def getReg (d : Dev) (a : Nat) : Nat × Dev :=
  match headerOf a with
  | some u => d.headerRead u (a - u.base)
  | none => if entryAbsent d a then (0, d) else match readHit a with | some f => f d | none => d.readPlain a

theorem readWord_undecoded {a : Nat} (h : decoded a = false) (d : Dev) (tag : Nat) :
    d.readWord tag a = (0, true, d.fabLog .decerr false 0 (tag % 256) (0x500000000 + a)) := by simp [Dev.readWord, h]

theorem readWord_closed {d : Dev} {a : Nat} (h : decoded a = true) (ho : d.opens (a / 0x10000 * 0x10000) = false) (tag : Nat) :
    d.readWord tag a = (0, false, d) := by simp [Dev.readWord, h, ho]

theorem readWord_open {d : Dev} {a : Nat} (h : decoded a = true) (ho : d.opens (a / 0x10000 * 0x10000) = true) (tag : Nat) :
    d.readWord tag a = ((getReg d a).1, false, (getReg d a).2) := by
  unfold Dev.readWord
  rw [if_neg (by simp [h]), if_neg (by simp [ho])]
  rfl

theorem getReg_header {a : Nat} {u : UnitRow} (h : headerOf a = some u) (d : Dev) : getReg d a = d.headerRead u (a - u.base) := by
  simp [getReg, h]

theorem getReg_absent {d : Dev} {a : Nat} (h : headerOf a = none) (ha : entryAbsent d a = true) : getReg d a = (0, d) := by
  simp [getReg, h, ha]

theorem getReg_rule {d : Dev} {a : Nat} (h : headerOf a = none) (ha : entryAbsent d a = false) {f : Dev → Nat × Dev}
    (hf : readHit a = some f) : getReg d a = f d := by simp [getReg, h, ha, hf]

theorem getReg_plain {d : Dev} {a : Nat} (h : headerOf a = none) (ha : entryAbsent d a = false) (hf : readHit a = none) :
    getReg d a = d.readPlain a := by simp [getReg, h, ha, hf]

theorem getReg_boot (d : Dev) (a : Nat) : (getReg d a).2.boot = d.boot := by
  cases hh : headerOf a with
  | some u => rw [getReg_header hh, headerRead_boot]
  | none =>
    cases ha : entryAbsent d a with
    | true => rw [getReg_absent hh ha]
    | false =>
      cases hf : readHit a with
      | some f => rw [getReg_rule hh ha hf, readHit_boot hf]
      | none => rw [getReg_plain hh ha hf, readPlain_boot]

/-- A read leaves RST_N as it is. -/
theorem busRead32_boot (d : Dev) (tag a be : Nat) : (d.busRead32 tag a be).boot = d.boot := by
  change (d.readWord tag a).2.2.boot = d.boot
  cases hd : decoded a with
  | false => rw [readWord_undecoded hd, fabLog_boot]
  | true =>
    cases ho : d.opens (a / 0x10000 * 0x10000) with
    | false => rw [readWord_closed hd ho]
    | true => rw [readWord_open hd ho, getReg_boot]

theorem busRead32_closed {d : Dev} {a : Nat} (h : decoded a = true) (ho : d.opens (a / 0x10000 * 0x10000) = false) (tag be : Nat) :
    d.busRead32 tag a be = { d with bus := ⟨0, false⟩ } := by simp [Dev.busRead32, readWord_closed h ho]

/-- A read with four byte enables answers the whole word. -/
theorem busRead32_open {d : Dev} {a : Nat} (h : decoded a = true) (ho : d.opens (a / 0x10000 * 0x10000) = true) (tag : Nat) :
    d.busRead32 tag a 15 = { (getReg d a).2 with bus := ⟨BitVec.ofNat 64 ((getReg d a).1 % 2 ^ 32), false⟩ } := by
  have mask : laneMask 15 = 2 ^ 32 - 1 := by decide
  simp only [Dev.busRead32, readWord_open h ho, mask, Nat.and_two_pow_sub_one_eq_mod]

/-! ## Where a write goes -/

/-- Telling the standby of a write counts a check value and moves no rate. -/
theorem fld_tellReg (d : Dev) (a : Nat) (v : Word) : (d.tellReg a v).fld R.TOP_RATE_FS_MULT = d.fld R.TOP_RATE_FS_MULT := by
  have compute (e : Dev) (pre l : List Nat) : (e.cvuCompute 1 pre l).2.fld R.TOP_RATE_FS_MULT = e.fld R.TOP_RATE_FS_MULT := by
    unfold Dev.cvuCompute
    split
    · exact fld_addFld_ne e _ _ 1 (by decide) (.inl (by decide))
    · rfl
  have send (f : FrameHead → Sent) : (d.tthSend f).fld R.TOP_RATE_FS_MULT = d.fld R.TOP_RATE_FS_MULT := compute (d.drew 1) _ _
  unfold Dev.tellReg Dev.tell
  split
  · split
    · exact send _
    · rfl
  · rfl

theorem entryAbsent_tellReg (d : Dev) (a : Nat) (v : Word) (b : Nat) : entryAbsent (d.tellReg a v) b = entryAbsent d b := by
  have rate : (d.tellReg a v).rateM = d.rateM := by simp only [Dev.rateM, fld_tellReg]
  have objs : (d.tellReg a v).nObj = d.nObj := by rw [Dev.nObj, Dev.cap, rate, Dev.nObj, Dev.cap]
  have chains : (d.tellReg a v).nChain = d.nChain := by rw [Dev.nChain, Dev.cap, rate, Dev.nChain, Dev.cap]
  have buses : (d.tellReg a v).nBus = d.nBus := by rw [Dev.nBus, rate, Dev.nBus]
  simp only [entryAbsent, objs, chains, buses]

theorem putReg_header {a : Nat} {u : UnitRow} (h : headerOf a = some u) (d : Dev) (v : Word) :
    d.putReg a v = d.headerWrite u (a - u.base) v := by simp [Dev.putReg, h]

theorem putReg_absent {d : Dev} {a : Nat} (h : headerOf a = none) (ha : entryAbsent d a = true) (v : Word) : d.putReg a v = d := by
  simp [Dev.putReg, h, ha]

theorem putReg_rule {d : Dev} {a : Nat} (h : headerOf a = none) (ha : entryAbsent d a = false) {f : Word → Dev → Dev}
    (hf : writeHit a = some f) (v : Word) : d.putReg a v = f (limited a v) d := by simp [Dev.putReg, h, ha, hf]

theorem putReg_plain {d : Dev} {a : Nat} (h : headerOf a = none) (ha : entryAbsent d a = false) (hf : writeHit a = none) (v : Word) :
    d.putReg a v = d.writePlain a (limited a v) := by simp [Dev.putReg, h, ha, hf]

theorem writeWord_undecoded {a : Nat} (h : decoded a = false) (d : Dev) (tag : Nat) (v : Word) (be : Nat) :
    d.writeWord tag a v be = d.fabLog .decerr true 0 (tag % 256) (0x500000000 + a) := by simp [Dev.writeWord, h]

theorem writeWord_closed {d : Dev} {a : Nat} (h : decoded a = true) (ho : d.opens (a / 0x10000 * 0x10000) = false) (tag : Nat)
    (v : Word) (be : Nat) : d.writeWord tag a v be = d := by simp [Dev.writeWord, h, ho]

/-- A write with fewer than four byte enables, and one of a standby's own host to a mirrored register, change nothing. -/
theorem writeWord_ignored {d : Dev} {a be : Nat} (h : decoded a = true) (hi : be ≠ 15 ∨ (d.isStandby && mirroredReg a) = true)
    (tag : Nat) (v : Word) : d.writeWord tag a v be = d := by
  unfold Dev.writeWord Dev.fromHost
  rcases hi with hbe | hs
  · simp [h, hbe]
  · simp only [hs, if_true, h, ite_self, Bool.not_true, Bool.false_eq_true, if_false]

/-- A full write to a unit that responds goes to the standby, then to the register. -/
theorem writeWord_open {d : Dev} {a : Nat} (h : decoded a = true) (ho : d.opens (a / 0x10000 * 0x10000) = true)
    (hs : (d.isStandby && mirroredReg a) = false) (tag : Nat) (v : Word) : d.writeWord tag a v 15 = (d.tellReg a v).putReg a v := by
  simp [Dev.writeWord, Dev.fromHost, h, ho, hs]

/-! ## Accesses of 32 bits -/

theorem busWrite_low {d : Dev} (h : d.boot.rstLow = true) (x : RegAcc) : d.busWrite x = d := by simp [Dev.busWrite, h]

theorem busRead_low {d : Dev} (h : d.boot.rstLow = true) (x : RegAcc) : d.busRead x = d := by simp [Dev.busRead, h]

/-- While RST_N is low no unit responds (R519). -/
theorem opens_low {d : Dev} (h : d.boot.rstLow = true) (b : Nat) : d.opens b = false := by simp [Dev.opens, h]

/-- An aligned 32-bit read is one word's. -/
theorem busRead_word {d : Dev} (h : d.boot.rstLow = false) {x : RegAcc} (hw : x.wide = false) (ha : x.addr % 4 = 0) :
    d.busRead x = d.busRead32 x.tag.toNat x.addr (bits x.be.toNat 0 4) := by simp [Dev.busRead, accAligned, h, hw, ha]

/-- An aligned 32-bit write is one word's: while RST_N is low, one to a decoded address finds no unit that responds. -/
theorem busWrite_word {d : Dev} {x : RegAcc} (h : decoded x.addr = true ∨ d.boot.rstLow = false) (hw : x.wide = false)
    (ha : x.addr % 4 = 0) : d.busWrite x = d.writeWord x.tag.toNat x.addr (BitVec.ofNat 32 x.data.toNat) (bits x.be.toNat 0 4) := by
  cases hr : d.boot.rstLow with
  | false => simp [Dev.busWrite, accAligned, hr, hw, ha]
  | true =>
    have hd : decoded x.addr = true := h.resolve_right (by simp [hr])
    rw [busWrite_low hr, writeWord_closed hd (opens_low hr _)]

/-! ## The two halves of a 64-bit access -/

/-- The lower and the upper 32-bit access that a 64-bit access is made of (R5). -/
def lowHalf (x : RegAcc) : RegAcc := ⟨x.addr, false, BitVec.ofNat 8 (bits x.be.toNat 0 4), BitVec.ofNat 64 (x.data.toNat % 2 ^ 32), x.tag⟩
def highHalf (x : RegAcc) : RegAcc :=
  ⟨x.addr + 4, false, BitVec.ofNat 8 (bits x.be.toNat 4 4), BitVec.ofNat 64 (x.data.toNat / 2 ^ 32), x.tag⟩

/-- Four byte enables kept in a byte. -/
theorem bits_four_of_byte (n lo : Nat) : bits (BitVec.ofNat 8 (bits n lo 4)).toNat 0 4 = bits n lo 4 := by
  have := bits_lt n lo 4
  rw [BitVec.toNat_ofNat]
  unfold bits at *
  omega

theorem lowHalf_data (x : RegAcc) : BitVec.ofNat 32 (lowHalf x).data.toNat = BitVec.ofNat 32 x.data.toNat := by
  apply BitVec.eq_of_toNat_eq
  simp only [lowHalf, BitVec.toNat_ofNat]
  omega

theorem highHalf_data (x : RegAcc) : BitVec.ofNat 32 (highHalf x).data.toNat = BitVec.ofNat 32 (x.data.toNat / 2 ^ 32) := by
  apply BitVec.eq_of_toNat_eq
  simp only [highHalf, BitVec.toNat_ofNat]
  omega

/-- The decoded spans of a page begin and end at multiples of 8 (R528). -/
theorem spansOf_aligned (p : Nat) : ∀ s ∈ spansOf p, s.1 % 8 = 0 ∧ s.2 % 8 = 0 := by
  unfold spansOf
  split <;> decide

/-- Both words of an aligned 64-bit access are decoded, or neither is. -/
theorem decoded_add_four {a : Nat} (h : a % 8 = 0) : decoded (a + 4) = decoded a := by
  have page : (a + 4) / 0x10000 = a / 0x10000 := by omega
  have off : (a + 4) % 0x10000 = a % 0x10000 + 4 := by omega
  rw [Bool.eq_iff_iff]
  simp only [decoded, page, off, List.any_eq_true, Bool.and_eq_true, decide_eq_true_eq]
  refine exists_congr fun s => and_congr_right fun hs => ?_
  obtain ⟨first, last⟩ := spansOf_aligned _ s hs
  omega

theorem busRead_wide {d : Dev} (h : d.boot.rstLow = false) {x : RegAcc} (hw : x.wide = true) (ha : x.addr % 8 = 0) :
    let lo := d.busRead (lowHalf x)
    let hi := lo.vector0.busRead (highHalf x)
    d.busRead x = { hi with bus := ⟨BitVec.ofNat 64 (hi.bus.data.toNat * 2 ^ 32 + lo.bus.data.toNat), lo.bus.abort || hi.bus.abort⟩ } := by
  have lo : d.busRead (lowHalf x) = d.busRead32 x.tag.toNat x.addr (bits x.be.toNat 0 4) := by
    rw [busRead_word h rfl (by simp only [lowHalf]; omega)]
    simp only [lowHalf, bits_four_of_byte]
  have stays : (d.busRead (lowHalf x)).vector0.boot.rstLow = false := by rw [vector0_boot, lo, busRead32_boot, h]
  have hi : (d.busRead (lowHalf x)).vector0.busRead (highHalf x) =
      (d.busRead (lowHalf x)).vector0.busRead32 x.tag.toNat (x.addr + 4) (bits x.be.toNat 4 4) := by
    rw [busRead_word stays rfl (by simp only [highHalf]; omega)]
    simp only [highHalf, bits_four_of_byte]
  dsimp only
  rw [hi, lo]
  unfold Dev.busRead
  rw [if_neg (by simp [h]), if_neg (by simp [accAligned, hw, ha])]
  simp only [hw, if_true]

theorem busWrite_wide {d : Dev} (h : d.boot.rstLow = false) {x : RegAcc} (hw : x.wide = true) (ha : x.addr % 8 = 0) :
    d.busWrite x = (d.busWrite (lowHalf x)).vector0.busWrite (highHalf x) := by
  have lo : d.busWrite (lowHalf x) = d.writeWord x.tag.toNat x.addr (BitVec.ofNat 32 x.data.toNat) (bits x.be.toNat 0 4) := by
    rw [busWrite_word (.inr h) rfl (by simp only [lowHalf]; omega), lowHalf_data]
    simp only [lowHalf, bits_four_of_byte]
  have answered : decoded (x.addr + 4) = true ∨ (d.busWrite (lowHalf x)).vector0.boot.rstLow = false := by
    cases hd : decoded x.addr with
    | true => exact .inl ((decoded_add_four ha).trans hd)
    | false => exact .inr (by rw [vector0_boot, lo, writeWord_undecoded hd, fabLog_boot, h])
  have hi : (d.busWrite (lowHalf x)).vector0.busWrite (highHalf x) = (d.busWrite (lowHalf x)).vector0.writeWord x.tag.toNat
      (x.addr + 4) (BitVec.ofNat 32 (x.data.toNat / 2 ^ 32)) (bits x.be.toNat 4 4) := by
    rw [busWrite_word answered rfl (by simp only [highHalf]; omega), highHalf_data]
    simp only [highHalf, bits_four_of_byte]
  rw [hi, lo]
  simp [Dev.busWrite, accAligned, h, hw, ha]

/-! ## The commands -/

theorem makes_registerWrite {s : State} {x : RegAcc} {d : Dev} (h : s.dev.busWrite x = d) : Makes (.registerWrite x) s d :=
  makes_of (·.busWrite x) rfl h

theorem makes_rcRead {s : State} {x : RegAcc} {d : Dev} (h : s.dev.busRead x = d) : Makes (.rcRead x) s d :=
  makes_of (·.busRead x) rfl h

section
variable {s : State} {x : RegAcc} (hr : s.dev.boot.rstLow = false) (hw : x.wide = false) (ha : x.addr % 4 = 0)
  (hd : decoded x.addr = true)
include hr hw ha hd

/-- A 32-bit read of a unit that does not respond. -/
theorem makes_rcRead_closed (ho : s.dev.opens (x.addr / 0x10000 * 0x10000) = false) :
    Makes (.rcRead x) s { s.dev with bus := ⟨0, false⟩ } :=
  makes_rcRead (by rw [busRead_word hr hw ha, busRead32_closed hd ho])

/-- A 32-bit read with four byte enables, of a unit that responds. -/
theorem makes_rcRead_open (ho : s.dev.opens (x.addr / 0x10000 * 0x10000) = true) (hbe : bits x.be.toNat 0 4 = 15) {r : Nat × Dev}
    (h : getReg s.dev x.addr = r) : Makes (.rcRead x) s { r.2 with bus := ⟨BitVec.ofNat 64 (r.1 % 2 ^ 32), false⟩ } :=
  makes_rcRead (by rw [busRead_word hr hw ha, hbe, busRead32_open hd ho, h])

/-- A 32-bit read of an entry above the capacity. -/
theorem makes_rcRead_absent (ho : s.dev.opens (x.addr / 0x10000 * 0x10000) = true) (hbe : bits x.be.toNat 0 4 = 15)
    (hh : headerOf x.addr = none) (he : entryAbsent s.dev x.addr = true) : Makes (.rcRead x) s { s.dev with bus := ⟨0, false⟩ } :=
  makes_rcRead (by rw [busRead_word hr hw ha, hbe, busRead32_open hd ho, getReg_absent hh he]; rfl)

/-- A 32-bit write of a unit that does not respond. -/
theorem makes_registerWrite_closed (ho : s.dev.opens (x.addr / 0x10000 * 0x10000) = false) : Makes (.registerWrite x) s s.dev :=
  makes_registerWrite (by rw [busWrite_word (.inr hr) hw ha, writeWord_closed hd ho])

/-- A 32-bit write that the byte enables or the role of standby suppress. -/
theorem makes_registerWrite_ignored (hi : bits x.be.toNat 0 4 ≠ 15 ∨ (s.dev.isStandby && mirroredReg x.addr) = true) :
    Makes (.registerWrite x) s s.dev :=
  makes_registerWrite (by rw [busWrite_word (.inr hr) hw ha, writeWord_ignored hd hi])

/-- A 32-bit write with four byte enables, of a unit that responds. -/
theorem makes_registerWrite_open (ho : s.dev.opens (x.addr / 0x10000 * 0x10000) = true) (hbe : bits x.be.toNat 0 4 = 15)
    (hs : (s.dev.isStandby && mirroredReg x.addr) = false) {e : Dev}
    (h : (s.dev.tellReg x.addr (BitVec.ofNat 32 x.data.toNat)).putReg x.addr (BitVec.ofNat 32 x.data.toNat) = e) :
    Makes (.registerWrite x) s e :=
  makes_registerWrite (by rw [busWrite_word (.inr hr) hw ha, hbe, writeWord_open hd ho hs, h])

end

/-- Settles O16: an access goes where the address leads, and a 64-bit one is its two halves. -/
theorem registerAccessesThroughBar0 : Obligations.RegisterAccessesThroughBar0 := by
  unfold Obligations.RegisterAccessesThroughBar0
  refine ⟨fun s x hr => ⟨makes_registerWrite (busWrite_low hr x), makes_rcRead (busRead_low hr x)⟩,
    fun s x hr hw ha hd => ?_, fun s x hr hw ha => ?_⟩
  · refine ⟨fun ho => ⟨makes_registerWrite_closed hr hw ha hd ho, makes_rcRead_closed hr hw ha hd ho⟩,
      makes_registerWrite_ignored hr hw ha hd, fun ho hbe => ⟨?_, ?_, ?_, fun hs => ⟨?_, ?_, ?_⟩⟩⟩
    · exact fun u hu => makes_rcRead_open hr hw ha hd ho hbe (getReg_header hu _)
    · exact makes_rcRead_absent hr hw ha hd ho hbe
    · exact fun hh he => ⟨fun f hf => makes_rcRead_open hr hw ha hd ho hbe (getReg_rule hh he hf),
        fun hf => makes_rcRead_open hr hw ha hd ho hbe (getReg_plain hh he hf)⟩
    · exact fun u hu => makes_registerWrite_open hr hw ha hd ho hbe hs (putReg_header hu _ _)
    · exact fun hh he => makes_registerWrite_open hr hw ha hd ho hbe hs (putReg_absent hh ((entryAbsent_tellReg ..).trans he) _)
    · intro hh he
      have he' := (entryAbsent_tellReg s.dev x.addr (BitVec.ofNat 32 x.data.toNat) x.addr).trans he
      exact ⟨fun f hf => makes_registerWrite_open hr hw ha hd ho hbe hs (putReg_rule hh he' hf _),
        fun hf => makes_registerWrite_open hr hw ha hd ho hbe hs (putReg_plain hh he' hf _)⟩
  · exact ⟨⟨_, _, makes_registerWrite rfl, makes_registerWrite rfl, makes_registerWrite (busWrite_wide hr hw ha)⟩,
      _, _, makes_rcRead rfl, makes_rcRead rfl, makes_rcRead (busRead_wide hr hw ha)⟩

end Sys2Proof.Proofs
end

section
/-! SUPPORT. Resets of units: what the clearing of one unit leaves alone, and the headers after the reset of a subtree. -/
namespace Sys2Proof.Proofs
open Sys2Proof.Machine Sys2Proof.Laws

/-- What each step of a fold keeps, the fold keeps. -/
theorem foldl_keeps {α β γ : Type} (view : α → γ) {f : α → β → α} (h : ∀ a b, view (f a b) = view a) (l : List β) (a : α) :
    view (l.foldl f a) = view a :=
  List.foldlRecOn (motive := fun x => view x = view a) l f rfl (fun x hx b _ => (h x b).trans hx)

/-! ## One unit (R48) -/

/-- What the clearing of a unit's running state leaves alone. -/
def resetView (d : Dev) : SMap Hdr × Top × List Host.Cell × List Host.Cell × List PaqE := (d.hdr, d.top, d.hostMem, d.dram, d.hre.paq)

@[simp] theorem resetView_setTab (d : Dev) (t : Nat) (x : Tab) : resetView (d.setTab t x) = resetView d := rfl
@[simp] theorem resetView_setFld (d : Dev) (f : Field) (v : Nat) : resetView (d.setFld f v) = resetView d := rfl

@[simp] theorem resetView_unlink (d : Dev) (c : Cmd) : resetView (d.unlink c) = resetView d := by
  unfold Dev.unlink
  dsimp only
  split <;> rfl

@[simp] theorem resetView_forget (d : Dev) (c : Cmd) : resetView (d.forget c) = resetView d := resetView_unlink d c

@[simp] theorem resetView_banksReset (d : Dev) : resetView d.banksReset = resetView d := foldl_keeps resetView resetView_forget _ d

@[simp] theorem resetView_fmnReset (d : Dev) : resetView d.fmnReset = resetView d := foldl_keeps resetView resetView_forget _ d

@[simp] theorem resetView_endRepeats (d : Dev) : resetView d.endRepeats = resetView d := foldl_keeps resetView (fun _ _ => by rfl) ..

@[simp] theorem resetView_tthReset (d : Dev) : resetView d.tthReset = resetView d := resetView_endRepeats { d with tth := _ }

@[simp] theorem resetView_tbuReset (d : Dev) : resetView d.tbuReset = resetView d := foldl_keeps resetView (fun _ _ => by rfl) ..

@[simp] theorem resetView_strDrop (d : Dev) (x : Nat) : resetView (d.strDrop x) = resetView d := by
  simp [resetView, Dev.strDrop]

@[simp] theorem resetView_stxDrop (d : Dev) (m : Nat) : resetView (d.stxDrop m) = resetView d := by
  unfold Dev.stxDrop
  refine foldl_keeps resetView (fun e p => ?_) ..
  split
  · exact resetView_strDrop ..
  · rfl

@[simp] theorem resetView_ethReset (d : Dev) (m : Nat) : resetView (d.ethReset m) = resetView d := resetView_stxDrop d m

/-- The clearing of a unit's tables and running state moves no header, no device state, no host memory, no DRAM and no waiting
command. -/
theorem resetView_clearUnit (d : Dev) (u : UnitRow) : resetView (d.clearUnit u) = resetView d := by
  have tables : resetView ((tablesOf u.base).foldl (fun d t => d.setTab t Tab.zero) d) = resetView d :=
    foldl_keeps resetView (f := fun d t => d.setTab t Tab.zero) (fun _ _ => rfl) ..
  unfold Dev.clearUnit
  dsimp only
  rw [← tables]
  generalize (tablesOf u.base).foldl (fun d t => d.setTab t Tab.zero) d = e
  split
  case h_3 => exact resetView_tbuReset e
  case h_5 => exact resetView_ethReset e u.inst
  case h_14 => exact resetView_banksReset e
  case h_16 => exact resetView_fmnReset e
  case h_17 => exact resetView_tthReset e
  all_goals rfl

/-- CVU0 in RUN: a reset of the unit with header `b` clears its counters only (R495). -/
abbrev cvu0InRun (d : Dev) (b : Nat) : Prop := b = cvuBase 0 ∧ d.top.st = .run

theorem resetOne_of_cvu0 {d : Dev} {u : UnitRow} (h : cvu0InRun d u.base) : d.resetOne u = d.cvu0Counters := if_pos h

theorem resetOne_of_not_cvu0 {d : Dev} {u : UnitRow} (h : ¬ cvu0InRun d u.base) :
    d.resetOne u = ((d.clearRegs u.base).clearUnit u).setHd u.base (resetHdr u.base) := if_neg h

/-- The reset of one unit moves no device state, no host memory, no DRAM and no waiting command. -/
theorem resetOne_keeps (d : Dev) (u : UnitRow) :
    (d.resetOne u).top = d.top ∧ (d.resetOne u).hostMem = d.hostMem ∧ (d.resetOne u).dram = d.dram ∧
      (d.resetOne u).hre.paq = d.hre.paq := by
  by_cases h : cvu0InRun d u.base
  · rw [resetOne_of_cvu0 h]
    exact ⟨rfl, rfl, rfl, rfl⟩
  · rw [resetOne_of_not_cvu0 h]
    have view : resetView ((d.clearRegs u.base).clearUnit u) = resetView d := resetView_clearUnit ..
    simp only [resetView, Prod.mk.injEq] at view
    exact view.2

/-- The reset of one unit puts its own header at reset values, but for CVU0's in RUN, and moves no other. -/
theorem resetOne_hd (d : Dev) (u : UnitRow) (b : Nat) :
    (d.resetOne u).hd b = if b = u.base ∧ ¬ cvu0InRun d b then resetHdr b else d.hd b := by
  by_cases h : cvu0InRun d u.base
  · rw [resetOne_of_cvu0 h, if_neg (by rintro ⟨rfl, hb⟩; exact hb h)]
    rfl
  · rw [resetOne_of_not_cvu0 h]
    by_cases hb : b = u.base
    · subst hb
      rw [hd_setHd_self, if_pos ⟨rfl, h⟩]
    · rw [hd_setHd_ne _ _ hb, if_neg (fun x => hb x.1)]
      exact hd_of_hdr (congrArg Prod.fst (resetView_clearUnit (d.clearRegs u.base) u)) b

/-! ## The units of a list, one after the other -/

theorem foldl_resetOne_keeps (l : List UnitRow) (d : Dev) :
    (l.foldl Dev.resetOne d).top = d.top ∧ (l.foldl Dev.resetOne d).hostMem = d.hostMem ∧ (l.foldl Dev.resetOne d).dram = d.dram ∧
      (l.foldl Dev.resetOne d).hre.paq = d.hre.paq :=
  ⟨foldl_keeps Dev.top (fun d u => (resetOne_keeps d u).1) .., foldl_keeps Dev.hostMem (fun d u => (resetOne_keeps d u).2.1) ..,
    foldl_keeps Dev.dram (fun d u => (resetOne_keeps d u).2.2.1) .., foldl_keeps (·.hre.paq) (fun d u => (resetOne_keeps d u).2.2.2) ..⟩

theorem foldl_resetOne_hd_of_not_mem {l : List UnitRow} {b : Nat} (h : ∀ u ∈ l, u.base ≠ b) (d : Dev) :
    (l.foldl Dev.resetOne d).hd b = d.hd b := by
  exact List.foldlRecOn (motive := fun (e : Dev) => e.hd b = d.hd b) l _ rfl fun e he u hu => by
    rw [resetOne_hd, if_neg (fun x => h u hu x.1.symm), he]

/-- Once reset, a header stays at reset values. -/
theorem foldl_resetOne_hd_of_mem {l : List UnitRow} {b : Nat} {d : Dev} (h : ∃ u ∈ l, u.base = b) (hc : ¬ cvu0InRun d b) :
    (l.foldl Dev.resetOne d).hd b = resetHdr b := by
  induction l generalizing d with
  | nil => simp at h
  | cons u r ih =>
    have hc' : ¬ cvu0InRun (d.resetOne u) b := by rwa [cvu0InRun, (resetOne_keeps d u).1]
    by_cases hr : ∃ v ∈ r, v.base = b
    · exact ih hr hc'
    · have hu : b = u.base := by
        obtain ⟨v, hv, rfl⟩ := h
        rcases List.mem_cons.1 hv with rfl | hv
        · rfl
        · exact absurd ⟨v, hv, rfl⟩ hr
      rw [List.foldl_cons, foldl_resetOne_hd_of_not_mem (fun v hv e => hr ⟨v, hv, e⟩), resetOne_hd, if_pos ⟨hu, hc⟩]

theorem foldl_resetOne_hd_of_cvu0 (l : List UnitRow) {b : Nat} {d : Dev} (hc : cvu0InRun d b) :
    (l.foldl Dev.resetOne d).hd b = d.hd b := by
  refine (List.foldlRecOn (motive := fun e => cvu0InRun e b ∧ e.hd b = d.hd b) l _ ⟨hc, rfl⟩ fun e ⟨he, hh⟩ u _ => ⟨?_, ?_⟩).2
  · rwa [cvu0InRun, (resetOne_keeps e u).1]
  · rw [resetOne_hd, if_neg (fun x => x.2 he), hh]

/-! ## The subtree (R48, R495) -/

theorem mem_subtree {b : Nat} {v : UnitRow} : v ∈ subtree b ↔ v ∈ unitRows ∧ isUnder b v.base = true := by simp [subtree]

/-- The header of a unit in the subtree, the whole of it reset. -/
theorem subtree_hd (d : Dev) {b : Nat} {v : UnitRow} (hv : v ∈ subtree b) :
    ((subtree b).foldl Dev.resetOne d).hd v.base = if v.base = cvuBase 0 ∧ d.top.st = .run then d.hd v.base else resetHdr v.base := by
  by_cases hc : cvu0InRun d v.base
  · rw [foldl_resetOne_hd_of_cvu0 _ hc, if_pos hc]
  · rw [if_neg hc, foldl_resetOne_hd_of_mem ⟨v, hv, rfl⟩ hc]

/-- Every unit lies in its own subtree. -/
theorem isUnder_self (b : Nat) : isUnder b b = true := by
  simp [isUnder, pathUp, pathGo]
  split <;> simp

/-- The counters of CVU0 after they are cleared. -/
theorem cvu0Counters_zero (d : Dev) : d.cvu0Counters.fld (R.CVU_DONE_COUNT 0) = 0 ∧ d.cvu0Counters.fld (R.CVU_ERR_COUNT 0) = 0 := by
  unfold Dev.cvu0Counters Dev.setFlds
  simp only [List.foldl_cons, List.foldl_nil]
  constructor
  · rw [fld_setFld_self _ _ _ (by decide), Nat.zero_mod]
  · rw [fld_setFld_ne _ _ _ _ (by decide) (.inl (by decide)), fld_setFld_self _ _ _ (by decide), Nat.zero_mod]

/-- CVU0 has no units below it. -/
theorem subtree_cvu0 : ∃ u : UnitRow, u.base = cvuBase 0 ∧ subtree (cvuBase 0) = [u] :=
  ⟨⟨cvuBase 0, 0x0501, 0, cvuGroup, true, false, true, false, 0⟩, rfl, by decide +kernel⟩

/-- Settles O14: the units of the subtree are reset one after the other, and none of them moves another's header. -/
theorem resetUnitRestoresTheSubtree : Obligations.ResetUnitRestoresTheSubtree := by
  unfold Obligations.ResetUnitRestoresTheSubtree
  intro d u en hold pulse hu
  obtain ⟨top, host, dram, paq⟩ := foldl_resetOne_keeps (subtree u.base) d
  have own := subtree_hd d (mem_subtree.2 ⟨hu, isUnder_self u.base⟩)
  have other {v : UnitRow} (h : v.base ≠ u.base) :
      (d.resetUnit u.base en hold pulse).hd v.base = ((subtree u.base).foldl Dev.resetOne d).hd v.base := hd_setHd_ne _ _ h
  refine ⟨?_, fun v hv under ne => ?_, fun v hv out => ?_, fun hb run => ?_, congrArg _ top, host, dram, paq⟩
  · rw [Dev.resetUnit]
    simp only [top, own, hd_setHd_self]
    split_ifs <;> rfl
  · rw [other ne, subtree_hd d (mem_subtree.2 ⟨hv, under⟩)]
  · have ne : v.base ≠ u.base := fun e => by rw [e, isUnder_self] at out; exact absurd out (by decide)
    rw [other ne]
    refine foldl_resetOne_hd_of_not_mem (fun w hw e => ?_) d
    rw [← e, (mem_subtree.1 hw).2] at out
    exact absurd out (by decide)
  · obtain ⟨c, hc, only⟩ := subtree_cvu0
    have cleared : (subtree u.base).foldl Dev.resetOne d = d.cvu0Counters := by
      rw [hb, only, List.foldl_cons, List.foldl_nil, resetOne_of_cvu0 ⟨hc, run⟩]
    simp only [Dev.resetUnit, cleared, fld_setHd]
    exact cvu0Counters_zero d

end Sys2Proof.Proofs
end

section
/-! SUPPORT. The part at reset, and a TIME cycle that ends a refresh burst. -/
namespace Sys2Proof.Proofs
open Sys2Proof.Machine Sys2Proof.Laws

/-! ## Reset -/

/-- At reset no header is listed, so every unit has the header of R46. -/
theorem reset_enable : ∀ u ∈ unitRows, (State.reset.dev.hd u.base).enable = u.en := by decide +kernel

/-- Settles O7: nothing is listed at reset, so everything reads its reset value. -/
theorem resetLeavesThePartOff : Obligations.ResetLeavesThePartOff := by
  unfold Obligations.ResetLeavesThePartOff
  have events : State.reset.dev.topEvents = 0#32 := by decide +kernel
  have cond : State.reset.vec0Current := by rw [State.vec0Current, events]; rfl
  exact ⟨rfl, rfl, rfl, rfl, fun _ => rfl, by decide +kernel, by decide +kernel, by decide +kernel, reset_enable, fun _ _ => ⟨rfl, rfl⟩,
    fun _ => rfl, rfl, rfl, rfl, rfl, rfl, rfl, rfl, cond, events, rfl⟩

/-! ## A TIME cycle -/

/-- Without an enabled event of TOP, vector 0 moves no register. -/
theorem vector0_regs_of_quiet {d : Dev} (h : d.topEvents = 0#32) : d.vector0.regs = d.regs := by
  unfold Dev.vector0
  simp [h]

/-- Where no header is listed, no event of TOP stands. -/
theorem topEvents_of_no_header {d : Dev} (h : d.hdr = []) : d.topEvents = 0#32 := by
  have top : (resetHdr topBase).event = 0#32 := by decide +kernel
  simp [Dev.topEvents, Dev.eventWord, Dev.childBit, Dev.hd, h, smGet, top]

/-- The part at reset but for the last TIME cycle of channel 0's refresh burst, which issues the refreshes owed (R491). -/
def burstEnding : State :=
  ⟨[], { State.reset.dev with dmc := { State.reset.dev.dmc with burst := [(0, 1)] } }.setFld (R.DMC_CH_STAT_OWED 0) 2⟩

/-- Refutes O2: the TIME cycle in which a refresh burst ends leaves the channel nothing owed, so DMC_CH_STAT changes. -/
theorem not_idleStepIsOneTimeCycle : ¬ Obligations.IdleStepIsOneTimeCycle := by
  unfold Obligations.IdleStepIsOneTimeCycle
  intro h
  obtain ⟨d, hs, -, regs, hdr, -⟩ := h burstEnding rfl
  have passed : (burstEnding.dev.timePasses 1).vector0 = d.vector0 := by
    have := congrArg (fun o => match o with | Host.Outcome.next t => t.dev | _ => d) hs
    exact this
  have quiet : (burstEnding.dev.timePasses 1).topEvents = 0#32 := by decide +kernel
  have same : (burstEnding.dev.timePasses 1).regs = burstEnding.dev.regs := by
    rw [← vector0_regs_of_quiet quiet, passed, vector0_regs_of_quiet (topEvents_of_no_header hdr), regs]
  exact absurd same (by decide +kernel)

end Sys2Proof.Proofs
end

section
/-! SUPPORT. TOP's own registers: TOP_RATE, TOP_PIPE and the tick counter (R19 to R23, R36). -/
namespace Sys2Proof.Proofs
open Sys2Proof.Machine Sys2Proof.Laws

/-! ## What leaves TOP_RATE and TOP's header alone -/

/-- TOP_RATE and the header of TOP. -/
def rateView (d : Dev) : Word × Hdr := (d.reg R.TOP_RATE_TICK_RUN.addr, d.hd topBase)

theorem rateView_of_eq {d e : Dev} (hr : e.regs = d.regs) (hg : e.grade = d.grade) (hh : e.hdr = d.hdr) : rateView e = rateView d :=
  Prod.ext (reg_of_regs hr hg _) (hd_of_hdr hh _)

theorem rateView_setFld (d : Dev) {f : Field} (v : Nat) (h : f.addr ≠ R.TOP_RATE_TICK_RUN.addr) : rateView (d.setFld f v) = rateView d :=
  Prod.ext (reg_setFld_ne d f v h.symm) rfl

theorem rateView_raise (d : Dev) {f : Flag} (h : f.base ≠ topBase) : rateView (d.raise f) = rateView d := by
  refine Prod.ext (reg_of_regs (raise_regs d f) (raise_grade d f) _) ?_
  change (d.raise f).hd topBase = d.hd topBase
  unfold Dev.raise
  split
  · exact hd_setHd_ne d _ h.symm
  · rfl

theorem rateView_raiseIf (d : Dev) (c : Bool) {f : Flag} (h : f.base ≠ topBase) : rateView (d.raiseIf c f) = rateView d := by
  unfold Dev.raiseIf
  split
  · exact rateView_raise d h
  · rfl

theorem rateView_trip (d : Dev) (may : Bool) : rateView (d.trip may) = rateView d := by
  unfold Dev.trip
  split
  · split
    · exact rateView_raise _ (by decide)
    · rfl
    · rfl
  · rfl

theorem rateView_dpllState (d : Dev) {p : Nat} (hp : p < 2) (st : Nat) : rateView (d.dpllState p st) = rateView d := by
  have avg : (R.DPLL_AVG_AVG p).addr ≠ R.TOP_RATE_TICK_RUN.addr := by interval_cases p <;> decide
  have state : (R.DPLL_STAT_STATE p).addr ≠ R.TOP_RATE_TICK_RUN.addr := by interval_cases p <;> decide
  unfold Dev.dpllState
  dsimp only
  split
  · rfl
  · rw [rateView_raiseIf _ _ (by decide), rateView_raiseIf _ _ (by decide), rateView_setFld _ _ state]
    split <;> split <;> simp only [Dev.tripMaskable, rateView_trip, rateView_setFld _ _ avg]

theorem rateView_dpllRetune (d : Dev) : rateView d.dpllRetune = rateView d := by
  unfold Dev.dpllRetune
  split
  · rfl
  · dsimp only
    rw [rateView_dpllState _ (by decide)]
    exact rateView_of_eq rfl rfl rfl

/-! ## TOP_RATE (R20) -/

/-- A field of TOP_RATE is written with `n`: it takes the value where it may change; a change that it may not make is remembered. -/
def ratePut (acc : Dev × Bool) (f : Field) (may : Bool) (n : Nat) : Dev × Bool :=
  if acc.1.fld f = n then acc else if may then (acc.1.setFld f n, acc.2) else (acc.1, true)

theorem ratePut_fld_self (acc : Dev × Bool) {f : Field} (may : Bool) {n : Nat} (hf : f.lo + f.w ≤ 32) (hn : n < 2 ^ f.w) :
    (ratePut acc f may n).1.fld f = if may then n else acc.1.fld f := by
  unfold ratePut
  split
  · next same => rw [same, ite_self]
  · cases may
    · rfl
    · exact (fld_setFld_self acc.1 f n hf).trans (Nat.mod_eq_of_lt hn)

theorem ratePut_fld_ne (acc : Dev × Bool) {f g : Field} (may : Bool) (n : Nat) (hf : f.lo + f.w ≤ 32) (h : apart f g) :
    (ratePut acc f may n).1.fld g = acc.1.fld g := by
  unfold ratePut
  split
  · rfl
  · split
    · exact fld_setFld_ne acc.1 f g n hf h
    · rfl

theorem ratePut_refused (acc : Dev × Bool) (f : Field) (may : Bool) (n : Nat) :
    (ratePut acc f may n).2 = (acc.2 || (!may && decide (n ≠ acc.1.fld f))) := by
  unfold ratePut
  split
  · next same => simp [same]
  · next other => cases may <;> simp [Ne.symm other]

theorem ratePut_hdr (acc : Dev × Bool) (f : Field) (may : Bool) (n : Nat) : (ratePut acc f may n).1.hdr = acc.1.hdr := by
  unfold ratePut
  split
  · rfl
  · split <;> rfl

/-- FS_MULT as a write of `v` gives it: 3 keeps the stored value (R19). -/
def rateMult (d : Dev) (v : Word) : Nat := if bits v.toNat 0 2 = 3 then d.fld R.TOP_RATE_FS_MULT else bits v.toNat 0 2

/-- A write of TOP_RATE may change TICK_RUN; it may change the other fields (R20). -/
def rateSetup (d : Dev) : Bool := d.top.st == .setup
def rateStopped (d : Dev) : Bool := rateSetup d && !d.flag R.TOP_RATE_TICK_RUN

/-- The four fields of TOP_RATE after a write, and whether one was refused. -/
def ratePuts (d : Dev) (v : Word) : Dev × Bool :=
  ratePut (ratePut (ratePut (ratePut (d, false) R.TOP_RATE_BLOCK (rateStopped d) (bits v.toNat 4 2))
    R.TOP_RATE_FAMILY (rateStopped d) (bits v.toNat 2 1)) R.TOP_RATE_FS_MULT (rateStopped d) (rateMult d v))
    R.TOP_RATE_TICK_RUN (rateSetup d) (bits v.toNat 8 1)

/-- What follows a write of TOP_RATE on a part that held `d`: DPLL-A retunes to another family, the tick starts or stops (R371, R116). -/
def rateFollows (d e : Dev) : Dev :=
  let e := if e.fld R.TOP_RATE_FAMILY = d.fld R.TOP_RATE_FAMILY then e else e.dpllRetune
  let now := e.fld R.TOP_RATE_TICK_RUN
  if now = d.fld R.TOP_RATE_TICK_RUN then e
  else if now = 1 then
    let sync := e.flag R.REF_TICK_SYNC_EN
    let e := if sync then e else e.setFld R.REF_TICK_SYNC_MISSED 0
    { e with top := { e.top with started := false, mediaAcc := 0 }, ref := { e.ref with tickWait := sync } }
  else { e with top := { e.top with started := false, mediaAcc := 0 }, ref := { e.ref with tickWait := false }, obj := { e.obj with sets := [] } }

theorem rateWrite_eq (d : Dev) (v : Word) :
    d.rateWrite v = (rateFollows d (ratePuts d v).1).raiseIf (ratePuts d v).2 F.topCfgRefused := rfl

theorem rateView_rateFollows (d e : Dev) : rateView (rateFollows d e) = rateView e := by
  have retune : rateView (if e.fld R.TOP_RATE_FAMILY = d.fld R.TOP_RATE_FAMILY then e else e.dpllRetune) = rateView e := by
    split
    · rfl
    · exact rateView_dpllRetune e
  unfold rateFollows
  extract_lets g now sync g'
  refine Eq.trans ?_ retune
  split
  · rfl
  · split
    · have missed : rateView g' = rateView g := by
        unfold g'
        split
        · rfl
        · exact rateView_setFld g 0 (by decide)
      exact (rateView_of_eq rfl rfl rfl).trans missed
    · exact rateView_of_eq rfl rfl rfl

/-- Every field of TOP_RATE is read from the one register that `rateView` shows. -/
theorem rateWrite_fld (d : Dev) (v : Word) {f : Field} (hf : f.addr = R.TOP_RATE_TICK_RUN.addr) :
    (d.rateWrite v).fld f = (ratePuts d v).1.fld f := by
  have word := congrArg (fun x : Word × Hdr => bits x.1.toNat f.lo f.w) (rateView_rateFollows d (ratePuts d v).1)
  have kept : (rateFollows d (ratePuts d v).1).fld f = (ratePuts d v).1.fld f := by simpa only [Dev.fld, hf, rateView] using word
  rw [rateWrite_eq, Dev.raiseIf]
  split
  · rw [fld_raise, kept]
  · exact kept

theorem rateWrite_event (d : Dev) (v : Word) :
    ((d.rateWrite v).hd topBase).event =
      if (ratePuts d v).2 = true ∧ d.effEn topBase = true then (d.hd topBase).event ||| 1#32 else (d.hd topBase).event := by
  have hdr : (ratePuts d v).1.hdr = d.hdr := by simp only [ratePuts, ratePut_hdr]
  have same : (rateFollows d (ratePuts d v).1).hd topBase = d.hd topBase :=
    (congrArg Prod.snd (rateView_rateFollows d (ratePuts d v).1)).trans (hd_of_hdr hdr _)
  have en : (rateFollows d (ratePuts d v).1).effEn topBase = d.effEn topBase := congrArg (fun h : Hdr => h.enable && true) same
  rw [rateWrite_eq, Dev.raiseIf]
  cases hb : (ratePuts d v).2 with
  | false => simp [same]
  | true =>
    by_cases he : d.effEn topBase = true
    · rw [if_pos rfl, if_pos ⟨rfl, he⟩, ← same]
      exact raise_event _ F.topCfgRefused (en.trans he)
    · rw [if_pos rfl, if_neg (fun x => he x.2), Dev.raise, if_neg (by simpa [F.topCfgRefused, en] using he), same]

/-- The four fields after a write of TOP_RATE (R20). -/
theorem ratePuts_fld (d : Dev) (v : Word) :
    (ratePuts d v).1.fld R.TOP_RATE_BLOCK = (if rateStopped d then bits v.toNat 4 2 else d.fld R.TOP_RATE_BLOCK) ∧
      (ratePuts d v).1.fld R.TOP_RATE_FAMILY = (if rateStopped d then bits v.toNat 2 1 else d.fld R.TOP_RATE_FAMILY) ∧
      (ratePuts d v).1.fld R.TOP_RATE_FS_MULT = (if rateStopped d then rateMult d v else d.fld R.TOP_RATE_FS_MULT) ∧
      (ratePuts d v).1.fld R.TOP_RATE_TICK_RUN = (if rateSetup d then bits v.toNat 8 1 else d.fld R.TOP_RATE_TICK_RUN) := by
  have mult : rateMult d v < 2 ^ R.TOP_RATE_FS_MULT.w := by
    unfold rateMult
    split
    · exact fld_lt d _
    · exact bits_lt ..
  unfold ratePuts
  refine ⟨?_, ?_, ?_, ?_⟩
  · rw [ratePut_fld_ne _ _ _ (by decide) (.inr (by decide)), ratePut_fld_ne _ _ _ (by decide) (.inr (by decide)),
      ratePut_fld_ne _ _ _ (by decide) (.inr (by decide))]
    exact ratePut_fld_self _ _ (by decide) (bits_lt ..)
  · rw [ratePut_fld_ne _ _ _ (by decide) (.inr (by decide)), ratePut_fld_ne _ _ _ (by decide) (.inr (by decide)),
      ratePut_fld_self _ _ (by decide) (by exact bits_lt ..), ratePut_fld_ne _ _ _ (by decide) (.inr (by decide))]
  · rw [ratePut_fld_ne _ _ _ (by decide) (.inr (by decide)), ratePut_fld_self _ _ (by decide) mult,
      ratePut_fld_ne _ _ _ (by decide) (.inr (by decide)), ratePut_fld_ne _ _ _ (by decide) (.inr (by decide))]
  · rw [ratePut_fld_self _ _ (by decide) (by exact bits_lt ..), ratePut_fld_ne _ _ _ (by decide) (.inr (by decide)),
      ratePut_fld_ne _ _ _ (by decide) (.inr (by decide)), ratePut_fld_ne _ _ _ (by decide) (.inr (by decide))]

/-- A write of TOP_RATE is refused where a field that may not change was written with another value (R20). -/
theorem ratePuts_refused (d : Dev) (v : Word) : (ratePuts d v).2 = true ↔
    (rateStopped d = false ∧ (bits v.toNat 4 2 ≠ d.fld R.TOP_RATE_BLOCK ∨ bits v.toNat 2 1 ≠ d.fld R.TOP_RATE_FAMILY ∨
      rateMult d v ≠ d.fld R.TOP_RATE_FS_MULT)) ∨ (rateSetup d = false ∧ bits v.toNat 8 1 ≠ d.fld R.TOP_RATE_TICK_RUN) := by
  unfold ratePuts
  simp only [ratePut_refused]
  rw [ratePut_fld_ne _ _ _ (by decide) (.inr (by decide)), ratePut_fld_ne _ _ _ (by decide) (.inr (by decide)),
    ratePut_fld_ne _ _ _ (by decide) (.inr (by decide)), ratePut_fld_ne _ _ _ (by decide) (.inr (by decide)),
    ratePut_fld_ne _ _ _ (by decide) (.inr (by decide)), ratePut_fld_ne _ _ _ (by decide) (.inr (by decide))]
  simp only [Bool.false_or, Bool.or_eq_true, Bool.and_eq_true, Bool.not_eq_true', decide_eq_true_eq, and_or_left, or_assoc]

theorem rateSetup_iff (d : Dev) : rateSetup d = true ↔ d.top.st = .setup := by simp [rateSetup]

theorem rateStopped_iff (d : Dev) : rateStopped d = true ↔ d.top.st = .setup ∧ d.flag R.TOP_RATE_TICK_RUN = false := by
  simp [rateStopped, rateSetup]

/-- An event bit that is set reads as set. -/
theorem bitAt_or_one (w : Word) : bitAt (w ||| 1#32).toNat 0 = true := by
  simp [bitAt, BitVec.toNat_or, Nat.or_mod_two_eq_one]

/-- Settles O10: the fields are put one by one, and nothing that follows a write of TOP_RATE touches them or TOP's header. -/
theorem topRateChangesOnlyInSetup : Obligations.TopRateChangesOnlyInSetup := by
  unfold Obligations.TopRateChangesOnlyInSetup
  intro s v
  obtain ⟨block, family, mult, tickRun⟩ := ratePuts_fld s.dev v
  have refused := ratePuts_refused s.dev v
  have may := rateSetup_iff s.dev
  have stopped := rateStopped_iff s.dev
  refine ⟨s.dev.rateWrite v, rfl, ?_⟩
  rw [rateWrite_fld (f := R.TOP_RATE_BLOCK) _ _ rfl, rateWrite_fld (f := R.TOP_RATE_FAMILY) _ _ rfl,
    rateWrite_fld (f := R.TOP_RATE_FS_MULT) _ _ rfl, rateWrite_fld (f := R.TOP_RATE_TICK_RUN) _ _ rfl, rateWrite_event,
    block, family, mult, tickRun, ← stopped, ← may]
  change _ ∧ _ ∧ _ ∧ _ ∧ ((_ ∧ (_ ∨ _ ∨ rateMult s.dev v ≠ _)) ∨ _ → _) ∧ ((_ ∨ (_ ∧ _ ∧ rateMult s.dev v = _)) ∧ _ → _)
  refine ⟨fun h => ?_, fun h => ?_, fun h => if_pos h, fun h => if_neg h, fun h en => ?_, fun h => ?_⟩
  · simp only [h, if_true, rateMult, and_self]
  · simp only [if_neg h, and_self]
  · have bad : (ratePuts s.dev v).2 = true := refused.2 (by simpa only [Bool.not_eq_true] using h)
    rw [if_pos ⟨bad, en⟩]
    exact bitAt_or_one _
  · have good : ¬ (ratePuts s.dev v).2 = true := fun bad => by
      have := refused.1 bad
      grind
    rw [if_neg (fun x => good x.1)]

/-! ## TOP_PIPE (R36, R395) -/

/-- TOP_PIPE with the two fields of a write that change in every state. -/
def pipePlain (d : Dev) (v : Word) : Dev := d.setFlds [(R.TOP_PIPE_DSP_MISS, bits v.toNat 12 1), (R.TOP_PIPE_OVERRUN_LIMIT, bits v.toNat 0 8)]

theorem pipePlain_fld (d : Dev) (v : Word) :
    (pipePlain d v).fld R.TOP_PIPE_DSP_MISS = bits v.toNat 12 1 ∧ (pipePlain d v).fld R.TOP_PIPE_OVERRUN_LIMIT = bits v.toNat 0 8 ∧
      (pipePlain d v).fld R.TOP_PIPE_DSP_LAG = d.fld R.TOP_PIPE_DSP_LAG := by
  simp only [pipePlain, Dev.setFlds, List.foldl_cons, List.foldl_nil]
  refine ⟨?_, ?_, ?_⟩
  · rw [fld_setFld_ne _ _ _ _ (by decide) (.inr (by decide)), fld_setFld_self _ _ _ (by decide)]
    exact Nat.mod_eq_of_lt (bits_lt ..)
  · rw [fld_setFld_self _ _ _ (by decide)]
    exact Nat.mod_eq_of_lt (bits_lt ..)
  · rw [fld_setFld_ne _ _ _ _ (by decide) (.inr (by decide)), fld_setFld_ne _ _ _ _ (by decide) (.inr (by decide))]

theorem pipePlain_reg (d : Dev) (v : Word) {a : Nat} (h : a ≠ 0x10C) : (pipePlain d v).reg a = d.reg a :=
  (reg_setFld_ne _ R.TOP_PIPE_OVERRUN_LIMIT _ h).trans (reg_setFld_ne _ R.TOP_PIPE_DSP_MISS _ h)

/-- Storing fields changes nothing but registers. -/
theorem setFld_frame (d : Dev) (f : Field) (v : Nat) (r : SMap Word) (h : SMap Hdr) :
    { d.setFld f v with regs := r, hdr := h } = { d with regs := r, hdr := h } := rfl

theorem setFlds_frame (l : List (Field × Nat)) (d : Dev) (r : SMap Word) (h : SMap Hdr) :
    { d.setFlds l with regs := r, hdr := h } = { d with regs := r, hdr := h } := by
  induction l generalizing d with
  | nil => rfl
  | cons p l ih => exact (ih (d.setFld p.1 p.2)).trans (setFld_frame ..)

theorem pipePlain_frame (d : Dev) (v : Word) : { pipePlain d v with regs := d.regs, hdr := d.hdr } = d := setFlds_frame ..

/-- The lag that a write of TOP_PIPE asks for. -/
def pipeLag (v : Word) : Nat := clampN 2 8 (bits v.toNat 8 4)

theorem pipeLag_lt (v : Word) : pipeLag v < 16 := by
  unfold pipeLag clampN
  split
  · omega
  · split <;> omega

theorem pipeWrite_of_same {d : Dev} {v : Word} (h : pipeLag v = d.fld R.TOP_PIPE_DSP_LAG) : d.pipeWrite v = pipePlain d v :=
  if_pos (h.trans (pipePlain_fld d v).2.2.symm)

theorem pipeWrite_of_setup {d : Dev} {v : Word} (h : pipeLag v ≠ d.fld R.TOP_PIPE_DSP_LAG) (hs : d.top.st = .setup) :
    d.pipeWrite v = (pipePlain d v).setFld R.TOP_PIPE_DSP_LAG (pipeLag v) :=
  (if_neg (fun e => h (e.trans (pipePlain_fld d v).2.2))).trans (if_pos hs)

theorem pipeWrite_refused {d : Dev} {v : Word} (h : pipeLag v ≠ d.fld R.TOP_PIPE_DSP_LAG) (hs : d.top.st ≠ .setup) :
    d.pipeWrite v = (pipePlain d v).raise F.topCfgRefused :=
  (if_neg (fun e => h (e.trans (pipePlain_fld d v).2.2))).trans (if_neg hs)

/-- Raising an event changes nothing but headers. -/
theorem raise_eq (d : Dev) (f : Flag) : d.raise f = { d with hdr := (d.raise f).hdr } := by
  unfold Dev.raise
  split <;> rfl

/-- Raising an event moves no header but the unit's own. -/
theorem raise_hd_ne (d : Dev) (f : Flag) {b : Nat} (h : b ≠ f.base) : (d.raise f).hd b = d.hd b := by
  unfold Dev.raise
  split
  · exact hd_setHd_ne d _ h
  · rfl

/-- What a write of TOP_PIPE gives (R36). -/
structure PipeWritten (d e : Dev) (v : Word) : Prop where
  miss : e.fld R.TOP_PIPE_DSP_MISS = bits v.toNat 12 1
  limit : e.fld R.TOP_PIPE_OVERRUN_LIMIT = bits v.toNat 0 8
  lag : d.top.st = .setup → e.fld R.TOP_PIPE_DSP_LAG = pipeLag v
  lagKept : d.top.st ≠ .setup → e.fld R.TOP_PIPE_DSP_LAG = d.fld R.TOP_PIPE_DSP_LAG
  event : (e.hd topBase).event = if d.top.st ≠ .setup ∧ pipeLag v ≠ d.fld R.TOP_PIPE_DSP_LAG ∧ d.effEn topBase = true then
    (d.hd topBase).event ||| 1#32 else (d.hd topBase).event
  reg : ∀ a, a ≠ 0x10C → e.reg a = d.reg a
  hd : ∀ b, b ≠ topBase → e.hd b = d.hd b
  frame : { e with regs := d.regs, hdr := d.hdr } = d

theorem pipeWrite_written (d : Dev) (v : Word) : PipeWritten d (d.pipeWrite v) v := by
  obtain ⟨miss, limit, lag⟩ := pipePlain_fld d v
  by_cases same : pipeLag v = d.fld R.TOP_PIPE_DSP_LAG
  · rw [pipeWrite_of_same same]
    exact ⟨miss, limit, fun _ => lag.trans same.symm, fun _ => lag, (if_neg (fun x => x.2.1 same)).symm,
      fun a h => pipePlain_reg d v h, fun _ _ => rfl, pipePlain_frame d v⟩
  · by_cases setup : d.top.st = .setup
    · rw [pipeWrite_of_setup same setup]
      refine ⟨?_, ?_, fun _ => ?_, fun h => absurd setup h, (if_neg (fun x => x.1 setup)).symm, fun a h => ?_, fun _ _ => rfl,
        (setFld_frame ..).trans (pipePlain_frame d v)⟩
      · rw [fld_setFld_ne _ _ _ _ (by decide) (.inr (by decide)), miss]
      · rw [fld_setFld_ne _ _ _ _ (by decide) (.inr (by decide)), limit]
      · rw [fld_setFld_self _ _ _ (by decide)]
        exact Nat.mod_eq_of_lt (pipeLag_lt v)
      · exact (reg_setFld_ne _ R.TOP_PIPE_DSP_LAG _ h).trans (pipePlain_reg d v h)
    · rw [pipeWrite_refused same setup]
      refine ⟨by rw [fld_raise, miss], by rw [fld_raise, limit], fun h => absurd h setup, fun _ => by rw [fld_raise, lag], ?_,
        fun a h => ?_, fun b h => raise_hd_ne _ _ h, ?_⟩
      · by_cases en : d.effEn topBase = true
        · rw [if_pos ⟨setup, same, en⟩]
          exact raise_event (pipePlain d v) F.topCfgRefused en
        · rw [if_neg (fun x => en x.2.2), Dev.raise, if_neg (show ¬ (pipePlain d v).effEn F.topCfgRefused.base = true from en)]
          rfl
      · rw [reg_of_regs (raise_regs ..) (raise_grade ..), pipePlain_reg d v h]
      · rw [raise_eq]
        exact pipePlain_frame d v

theorem exec_topPipeWrite (s : State) (v : Word) :
    exec (.topPipeWrite v) s = s.act (·.fromHost R.TOP_PIPE_DSP_LAG.addr v (·.pipeWrite v)) := rfl

theorem makes_topPipeWrite {s : State} {v : Word} {d : Dev} (h : s.dev.fromHost R.TOP_PIPE_DSP_LAG.addr v (·.pipeWrite v) = d) :
    Makes (.topPipeWrite v) s d := makes_of _ (exec_topPipeWrite s v) h

/-- An active is no standby. -/
theorem not_standby_of_pairActive {d : Dev} (h : d.pairActive = true) : d.isStandby = false := by
  simp only [Dev.pairActive, Bool.and_eq_true, beq_iff_eq] at h
  simp [Dev.isStandby, h.1]

/-- Settles O11: a standby's own host writes nothing, an active sends the write first; the write itself is `pipeWrite_written`. -/
theorem topPipeWriteFollowsR36 : Obligations.TopPipeWriteFollowsR36 := by
  unfold Obligations.TopPipeWriteFollowsR36
  have mirrored : mirroredReg R.TOP_PIPE_DSP_LAG.addr = true := by decide
  intro s v
  refine ⟨fun h => makes_topPipeWrite ?_, fun h => makes_topPipeWrite ?_, fun hs ha => ?_⟩
  · simp [Dev.fromHost, h, mirrored]
  · simp [Dev.fromHost, not_standby_of_pairActive h, Dev.tellReg, mirrored, Dev.tell, h]
    rfl
  · obtain ⟨miss, limit, lag, lagKept, event, reg, hd, frame⟩ := pipeWrite_written s.dev v
    refine ⟨s.dev.pipeWrite v, makes_topPipeWrite ?_, miss, limit, lag, lagKept, event, reg, hd, frame⟩
    simp [Dev.fromHost, hs, Dev.tellReg, mirrored, Dev.tell, ha]

/-! ## The tick counter (R22, R23, R371) -/

theorem makes_tickLoad {s : State} {v : Word} {d : Dev} (h : s.dev.tickLoad v = d) : Makes (.tickLoad v) s d :=
  makes_of (·.tickLoad v) rfl h

theorem makes_tickSyncEdge {s : State} {d : Dev} (h : s.dev.tickSyncEdge = d) : Makes .tickSyncEdge s d := makes_of (·.tickSyncEdge) rfl h

/-- The end of the wait for the tick's first edge. -/
theorem tickRelease_of_wait {d : Dev} (h : d.ref.tickWait = true) (missed : Bool) :
    d.tickRelease missed = { d with ref := { d.ref with tickWait := false } }.setFld R.REF_TICK_SYNC_MISSED (b2n missed) := if_pos h

/-- TOP_TICK_LO has a rule of its own: it latches the high bits. -/
theorem getReg_tickLo (d : Dev) : getReg d 0x110 = d.tickLoRead := by
  have hit : readHit 0x110 = some (fun d => d.tickLoRead) := by rfl
  have absent : entryAbsent d 0x110 = false := by simp [entryAbsent]; omega
  rw [getReg_rule (by decide +kernel) absent hit]

theorem busRead_tickLo {d : Dev} (h : d.boot.rstLow = false) :
    d.busReadAt 0x110 = { d with bus := ⟨BitVec.ofNat 64 (d.top.tick % 2 ^ 32), false⟩,
                                 top := { d.top with tickHi := d.top.tick / 2 ^ 32 % 2 ^ 16 } } := by
  have opens : d.opens (0x110 / 0x10000 * 0x10000) = true := by simp [Dev.opens, h, topBase]
  rw [Dev.busReadAt, busRead_word h rfl rfl]
  exact (busRead32_open (by decide) opens _).trans (by rw [getReg_tickLo]; simp only [Dev.tickLoRead, Nat.mod_mod])

/-- Settles O12: reads and loads of the counter, and the end of the wait for its first edge, case by case. -/
theorem tickCounterReadAndLoad : Obligations.TickCounterReadAndLoad := by
  unfold Obligations.TickCounterReadAndLoad
  refine ⟨fun s h => makes_of (·.busReadAt 0x110) rfl (busRead_tickLo h), fun s v => ⟨fun load st stopped => makes_tickLoad ?_,
    fun load other => makes_tickLoad ?_, fun load => makes_tickLoad ?_⟩, fun s wait => ⟨fun whole => makes_tickSyncEdge ?_,
    fun part => makes_tickSyncEdge ?_, makes_of (·.tickRelease true) rfl (tickRelease_of_wait wait true)⟩, fun d i hi => ?_⟩
  · rw [Dev.tickLoad, if_pos load, if_pos ⟨st, stopped⟩]
  · rw [Dev.tickLoad, if_pos load, if_neg]
    rintro ⟨st, stopped⟩
    rcases other with h | h
    · exact h st
    · simp [h] at stopped
  · rw [Dev.tickLoad, if_neg (by simp [load])]
  · rw [Dev.tickSyncEdge, if_pos whole, tickRelease_of_wait wait]
    rfl
  · rw [Dev.tickSyncEdge, if_neg (by simp [part])]
  · simp [Dev.wholeEdge, hi]

end Sys2Proof.Proofs
end

section
/-! SUPPORT. Effective enables, and the writes of UNIT_CTL (R45 to R48, R450, R480, R552). -/
namespace Sys2Proof.Proofs
open Sys2Proof.Machine Sys2Proof.Laws

/-! ## Effective enables (R47) -/

/-- A unit below TOP stands before its parent's ancestors. -/
theorem pathUp_of_unit : ∀ u ∈ unitRows, u.base ≠ topBase → pathUp u.base = u.base :: pathUp u.parent := by decide +kernel

theorem effEn_top (d : Dev) : d.effEn topBase = (d.hd topBase).enable := Bool.and_true _

theorem effEn_of_unit (d : Dev) {u : UnitRow} (hu : u ∈ unitRows) (h : u.base ≠ topBase) :
    d.effEn u.base = ((d.hd u.base).enable && d.effEn u.parent) := by
  rw [Dev.effEn, pathUp_of_unit u hu h, List.all_cons]
  rfl

theorem raise_of_disabled {d : Dev} {f : Flag} (h : d.effEn f.base = false) : d.raise f = d := if_neg (by simp [h])

/-! ## What a write of UNIT_CTL tells the standby leaves alone (R395, R450) -/

theorem tellReg_top_boot (d : Dev) (a : Nat) (v : Word) : (d.tellReg a v).top = d.top ∧ (d.tellReg a v).boot = d.boot := by
  have compute (e : Dev) (pre l : List Nat) : (e.cvuCompute 1 pre l).2.top = e.top ∧ (e.cvuCompute 1 pre l).2.boot = e.boot := by
    unfold Dev.cvuCompute
    split
    · exact ⟨count_top .., count_boot ..⟩
    · exact ⟨rfl, rfl⟩
  unfold Dev.tellReg Dev.tell
  split
  · split
    · exact compute (d.drew 1) _ _
    · exact ⟨rfl, rfl⟩
  · exact ⟨rfl, rfl⟩

theorem opens_tellReg (d : Dev) (a : Nat) (v : Word) (b : Nat) : (d.tellReg a v).opens b = d.opens b := by
  obtain ⟨top, boot⟩ := tellReg_top_boot d a v
  simp only [Dev.opens, top, boot]

theorem resetAllowed_tellReg (d : Dev) (a : Nat) (v : Word) (b : Nat) : resetAllowed (d.tellReg a v) b = resetAllowed d b := by
  simp only [resetAllowed, (tellReg_top_boot d a v).1]

/-! ## UNIT_CTL (R48) -/

theorem exists_unitAt {u : UnitRow} (h : u ∈ unitRows) : ∃ w, unitAt u.base = some w :=
  Option.isSome_iff_exists.1 (List.find?_isSome.2 ⟨u, h, by simp⟩)

section
variable {d : Dev} {u : UnitRow} (hu : u ∈ unitRows)
include hu

theorem unitCtl_closed (ho : d.opens u.base = false) (en hold pulse : Bool) : d.unitCtl u.base en hold pulse = d := by
  obtain ⟨w, hw⟩ := exists_unitAt hu
  simp [Dev.unitCtl, hw, ho]

/-- A write that starts no reset stores ENABLE and HOLD. -/
theorem unitCtl_stores (ho : d.opens u.base = true) (en : Bool) {hold : Bool} (hh : hold = false ∨ (d.hd u.base).hold = true) :
    d.unitCtl u.base en hold false = (d.setHd u.base { d.hd u.base with enable := en, hold := hold }).unitsChanged := by
  obtain ⟨w, hw⟩ := exists_unitAt hu
  have none : (hold && !(d.hd u.base).hold) = false := by rcases hh with h | h <;> simp [h]
  simp [Dev.unitCtl, hw, ho, none]

/-- A write asks for a reset by a pulse or by a new HOLD. -/
def asksReset (d : Dev) (b : Nat) (hold pulse : Bool) : Prop := pulse = true ∨ hold = true ∧ (d.hd b).hold = false

theorem unitCtl_resets (ho : d.opens u.base = true) (en : Bool) {hold pulse : Bool} (hr : asksReset d u.base hold pulse)
    (ha : resetAllowed d u.base = true) : d.unitCtl u.base en hold pulse = (d.resetUnit u.base en hold pulse).unitsChanged := by
  obtain ⟨w, hw⟩ := exists_unitAt hu
  have asked : (pulse || (hold && !(d.hd u.base).hold)) = true := by rcases hr with h | ⟨h, h'⟩ <;> simp [*]
  simp [Dev.unitCtl, hw, ho, asked, ha]

/-- A reset that the state refuses stores ENABLE alone and reports CAUSE 0xFF. -/
theorem unitCtl_refuses (ho : d.opens u.base = true) (en : Bool) {hold pulse : Bool} (hr : asksReset d u.base hold pulse)
    (ha : resetAllowed d u.base = false) : d.unitCtl u.base en hold pulse =
      ((d.setHd u.base { d.hd u.base with enable := en, cause := 255 }).raise (F.healthChg u.base)).unitsChanged := by
  obtain ⟨w, hw⟩ := exists_unitAt hu
  have asked : (pulse || (hold && !(d.hd u.base).hold)) = true := by rcases hr with h | ⟨h, h'⟩ <;> simp [*]
  simp [Dev.unitCtl, hw, ho, asked, ha]

end

/-- The write of ENABLE alone. -/
def enableOnly (d : Dev) (b : Nat) (en : Bool) : Dev := d.unitCtl b en (d.hd b).hold false

theorem exec_unitEnable (b : Nat) (v : Word) (s : State) :
    exec (.unitEnable b v) s = s.act (·.fromHost (b + 8) v (fun d => enableOnly d b (bitAt v.toNat 0))) := rfl
theorem exec_unitHold (b : Nat) (v : Word) (s : State) :
    exec (.unitHold b v) s = s.act (·.fromHost (b + 8) v (·.unitCtl b (bitAt v.toNat 0) (bitAt v.toNat 2) false)) := rfl
theorem exec_unitReset (b : Nat) (v : Word) (s : State) :
    exec (.unitReset b v) s = s.act (·.fromHost (b + 8) v (·.unitCtl b (bitAt v.toNat 0) (bitAt v.toNat 2) true)) := rfl

theorem fromHost_ignored {d : Dev} {a : Nat} (h : (d.isStandby && mirroredReg a) = true) (v : Word) (f : Dev → Dev) : d.fromHost a v f = d :=
  if_pos h

theorem fromHost_taken {d : Dev} {a : Nat} (h : (d.isStandby && mirroredReg a) = false) (v : Word) (f : Dev → Dev) :
    d.fromHost a v f = f (d.tellReg a v) := if_neg (by simp [h])

theorem resetAllowed_iff (d : Dev) (b : Nat) : resetAllowed d b = true ↔
    ((d.top.st = .run ∨ d.top.st = .safe) ∧ ∀ u ∈ subtree b, u.hot = true) ∨
      (d.top.st = .setup ∧ b ≠ topBase ∧ b ≠ hreBase ∧ b ≠ fabBase) ∨
      ((d.top.st = .off ∨ d.top.st = .standby) ∧ (b = pwrBase ∨ b = tbuBase ∨ b = refBase ∨ b = pinBase)) := by
  unfold resetAllowed
  cases d.top.st <;> simp [and_assoc, or_assoc]

theorem resetDone_of_none {d : Dev} {b : Nat} (hr : (d.hd b).inReset = false) (hd : (d.hd b).drain = false) (cut : List CutBurst) :
    d.resetDone b cut = d := if_neg (by simp [hr, hd])

/-- Settles O13: what a write of UNIT_CTL does, case by case, once the standby has been told. -/
theorem unitEnablesAndControlsFollowR47AndR48 : Obligations.UnitEnablesAndControlsFollowR47AndR48 := by
  unfold Obligations.UnitEnablesAndControlsFollowR47AndR48
  refine ⟨fun d => ⟨effEn_top d, fun u hu h => effEn_of_unit d hu h, fun f => ⟨raise_of_disabled, fun h => ⟨raise_event d f h,
    fun b hb => raise_hd_ne d f hb, by rw [raise_eq]⟩⟩⟩, fun s u v hu => ?_, fun s b cut => ⟨fun h => makes_of (·.resetDone b cut) rfl ?_,
    fun hr hd => makes_of (·.resetDone b cut) rfl (resetDone_of_none hr hd cut)⟩, resetAllowed_iff⟩
  · refine ⟨fun h => ⟨makes_of _ (exec_unitEnable ..) (fromHost_ignored h ..), makes_of _ (exec_unitHold ..) (fromHost_ignored h ..),
      makes_of _ (exec_unitReset ..) (fromHost_ignored h ..)⟩, fun h ho => ?_, fun h ho => ?_⟩
    · have closed : (s.dev.tellReg (u.base + 8) v).opens u.base = false := (opens_tellReg ..).trans ho
      exact ⟨makes_of _ (exec_unitEnable ..) ((fromHost_taken h ..).trans (unitCtl_closed hu closed ..)),
        makes_of _ (exec_unitHold ..) ((fromHost_taken h ..).trans (unitCtl_closed hu closed ..)),
        makes_of _ (exec_unitReset ..) ((fromHost_taken h ..).trans (unitCtl_closed hu closed ..))⟩
    · have opened : (s.dev.tellReg (u.base + 8) v).opens u.base = true := (opens_tellReg ..).trans ho
      rw [← resetAllowed_tellReg s.dev (u.base + 8) v u.base]
      refine ⟨makes_of _ (exec_unitEnable ..) ((fromHost_taken h ..).trans ?_), fun hh => makes_of _ (exec_unitHold ..) ((fromHost_taken h ..).trans ?_),
        fun new old ha => makes_of _ (exec_unitHold ..) ((fromHost_taken h ..).trans ?_), fun new old ha => makes_of _ (exec_unitHold ..) ((fromHost_taken h ..).trans ?_),
        fun ha => makes_of _ (exec_unitReset ..) ((fromHost_taken h ..).trans ?_), fun ha => makes_of _ (exec_unitReset ..) ((fromHost_taken h ..).trans ?_)⟩
      · exact unitCtl_stores hu opened _ (by cases ((s.dev.tellReg (u.base + 8) v).hd u.base).hold <;> simp)
      · exact unitCtl_stores hu opened _ hh
      · rw [new]; exact unitCtl_resets hu opened _ (.inr ⟨rfl, old⟩) ha
      · exact unitCtl_refuses hu opened _ (.inr ⟨new, old⟩) ha
      · exact unitCtl_resets hu opened _ (.inl rfl) ha
      · exact unitCtl_refuses hu opened _ (.inl rfl) ha
  · exact if_pos (by simpa using h)

end Sys2Proof.Proofs
end

section
/-! SUPPORT. What leaves the device state, the tick's registers and TOP's header alone: trips, references and DPLLs, and the entries
into the other units that a change of state brings. -/
namespace Sys2Proof.Proofs
open Sys2Proof.Machine Sys2Proof.Laws

/-! ## References and DPLLs (R355 to R361, R406) -/

/-- TOP_RATE, the header of TOP and the device's state. -/
def stateView (d : Dev) : (Word × Hdr) × Top := (rateView d, d.top)

theorem stateView_setFld (d : Dev) {f : Field} (v : Nat) (h : 0x10000 ≤ f.addr) : stateView (d.setFld f v) = stateView d :=
  Prod.ext (rateView_setFld d v (Nat.ne_of_gt (Nat.lt_of_lt_of_le (by decide) h))) rfl

theorem stateView_addFld (d : Dev) {f : Field} (n : Nat) (h : 0x10000 ≤ f.addr) : stateView (d.addFld f n) = stateView d := by
  unfold Dev.addFld
  split
  · rfl
  · exact stateView_setFld d _ h

theorem stateView_raise (d : Dev) {f : Flag} (h : f.base ≠ topBase) : stateView (d.raise f) = stateView d :=
  Prod.ext (rateView_raise d h) (raise_top d f)

theorem stateView_raiseIf (d : Dev) (c : Bool) {f : Flag} (h : f.base ≠ topBase) : stateView (d.raiseIf c f) = stateView d :=
  Prod.ext (rateView_raiseIf d c h) (raiseIf_top d c f)

/-- A step of DPLLs or references that keeps registers and headers. -/
theorem stateView_of_eq {d e : Dev} (hr : e.regs = d.regs) (hg : e.grade = d.grade) (hh : e.hdr = d.hdr) (ht : e.top = d.top) :
    stateView e = stateView d := Prod.ext (rateView_of_eq hr hg hh) ht

@[simp] theorem trip_top (d : Dev) (may : Bool) : (d.trip may).top = d.top := by
  unfold Dev.trip
  split
  · split
    · exact raise_top ..
    · rfl
    · rfl
  · rfl

theorem stateView_trip (d : Dev) (may : Bool) : stateView (d.trip may) = stateView d := Prod.ext (rateView_trip d may) (trip_top d may)

theorem stateView_setDpll (d : Dev) (p : Nat) (x : Dpll) : stateView (d.setDpll p x) = stateView d := stateView_of_eq rfl rfl rfl rfl

theorem stateView_dpllState (d : Dev) (p st : Nat) : stateView (d.dpllState p st) = stateView d := by
  unfold Dev.dpllState
  extract_lets was avg trip state lock
  split
  · rfl
  · have hAvg : stateView avg = stateView d := by
      unfold avg
      split
      · exact stateView_setFld d _ (Nat.le_add_right_of_le (by decide))
      · rfl
    have hTrip : stateView trip = stateView avg := by
      unfold trip
      split
      · exact stateView_trip ..
      · rfl
    calc stateView (lock.raiseIf (st == 1) F.freerunEntered) = stateView lock := stateView_raiseIf _ _ (by decide)
      _ = stateView state := stateView_raiseIf _ _ (by decide)
      _ = stateView trip := stateView_setFld _ _ (Nat.le_add_right_of_le (by decide))
      _ = stateView d := hTrip.trans hAvg

theorem stateView_dpllFresh (d : Dev) (p i : Nat) : stateView (d.dpllFresh p i) = stateView d := stateView_of_eq rfl rfl rfl rfl

theorem stateView_dpllPhase (d : Dev) (b p : Nat) : stateView (d.dpllPhase b p) = stateView d := by
  unfold Dev.dpllPhase
  dsimp only
  split
  · split
    · exact (stateView_dpllState ..).trans (stateView_setDpll ..)
    · exact stateView_setDpll ..
  · rfl

theorem stateView_refPhases (d : Dev) : stateView d.refPhases = stateView d := by
  refine foldl_keeps stateView (fun e b => ?_) ..
  split
  · rfl
  · exact (stateView_of_eq rfl rfl rfl rfl).trans ((stateView_dpllPhase ..).trans (stateView_dpllPhase ..))

theorem stateView_refLimits (d : Dev) (i : Nat) : stateView (d.refLimits i) = stateView d :=
  (stateView_raiseIf _ _ (by decide)).trans ((stateView_setFld _ _ (Nat.le_add_right_of_le (by decide))).trans
    (stateView_setFld d _ (Nat.le_add_right_of_le (by decide))))

theorem stateView_refEval (d : Dev) (i : Nat) : stateView (d.refEval i) = stateView d := by
  unfold Dev.refEval
  extract_lets offset limits act hard q q1 q2 q3 q4
  have hOffset : stateView offset = stateView d := by
    unfold offset
    split
    · exact stateView_setFld d _ (Nat.le_add_right_of_le (by decide))
    · rfl
  have hLimits : stateView limits = stateView offset := by
    unfold limits
    split
    · exact stateView_refLimits ..
    · rfl
  exact ((stateView_setFld _ _ (Nat.le_add_right_of_le (by decide))).trans (stateView_setFld _ _ (Nat.le_add_right_of_le (by decide)))).trans
    (hLimits.trans hOffset)

theorem stateView_refFormats (d : Dev) : stateView d.refFormats = stateView d := by
  refine foldl_keeps stateView (fun e i => ?_) ..
  dsimp only
  split
  · rfl
  · split
    · exact stateView_of_eq rfl rfl rfl rfl
    · exact (stateView_setFld _ _ (Nat.le_add_right_of_le (by decide))).trans (stateView_of_eq rfl rfl rfl rfl)

theorem stateView_dpllEval (d : Dev) (p : Nat) : stateView (d.dpllEval p) = stateView d := by
  unfold Dev.dpllEval
  split
  · extract_lets off
    have hOff : stateView off = stateView d := by
      unfold off
      split
      · rfl
      · exact stateView_dpllState ..
    exact ((stateView_setFld _ _ (Nat.le_add_right_of_le (by decide))).trans ((stateView_setFld _ _ (Nat.le_add_right_of_le (by decide))).trans
      (stateView_setFld _ _ (Nat.le_add_right_of_le (by decide))))).trans ((stateView_setDpll ..).trans hOff)
  · extract_lets on st old sel tether switch sel1 count st' state fresh x target dis
    have hOn : stateView on = stateView d := by
      unfold on
      split
      · exact stateView_dpllState ..
      · rfl
    have hSel : stateView sel1 = stateView on :=
      (stateView_setFld _ _ (Nat.le_add_right_of_le (by decide))).trans (stateView_setFld _ _ (Nat.le_add_right_of_le (by decide)))
    have hCount : stateView count = stateView sel1 := by
      unfold count
      split
      · exact (stateView_raise _ (by decide)).trans (stateView_addFld _ 1 (Nat.le_add_right_of_le (by decide)))
      · rfl
    have hFresh : stateView fresh = stateView state := by
      unfold fresh
      split
      · exact stateView_dpllFresh ..
      · rfl
    calc _ = stateView (target.raiseIf (dis && !target.flag (R.DPLL_STAT_DISAGREE p)) F.refDisagree) :=
          stateView_setFld _ _ (Nat.le_add_right_of_le (by decide))
      _ = stateView target := stateView_raiseIf _ _ (by decide)
      _ = stateView fresh := stateView_setDpll ..
      _ = stateView state := hFresh
      _ = stateView count := stateView_dpllState ..
      _ = stateView d := hCount.trans (hSel.trans hOn)

/-- The references and the DPLLs follow what has changed: the device's state, TOP_RATE and TOP's header stay. -/
theorem stateView_refFollow (d : Dev) : stateView d.refFollow = stateView d := by
  unfold Dev.refFollow
  split
  · rfl
  · extract_lets phases evals role dplls
    have hEvals : stateView evals = stateView d :=
      (foldl_keeps stateView stateView_refEval _ _).trans ((stateView_refFormats _).trans (stateView_refPhases d))
    have hDplls : stateView dplls = stateView d := (stateView_dpllEval ..).trans ((stateView_dpllEval ..).trans hEvals)
    split
    · exact hDplls
    · exact (stateView_dpllEval ..).trans hDplls

@[simp] theorem refFollow_top (d : Dev) : d.refFollow.top = d.top := congrArg Prod.snd (stateView_refFollow d)

/-! ## Completions and cores (R425, R469) -/

@[simp] theorem tripMaskable_top (d : Dev) (f : Field) : (d.tripMaskable f).top = d.top := trip_top ..
@[simp] theorem unlink_top (d : Dev) (c : Cmd) : (d.unlink c).top = d.top := congrArg (fun x => x.2.1) (resetView_unlink d c)
@[simp] theorem ringPut_top (d : Dev) (r : Nat) (l : List Nat) : (d.ringPut r l).top = d.top := rfl
@[simp] theorem ringDrop_top (d : Dev) (r : Nat) : (d.ringDrop r).top = d.top := (raise_top ..).trans (count_top ..)

@[simp] theorem complete_top (d : Dev) (c : Cmd) (p : Cpl) : (d.complete c p).top = d.top := by
  change (d.writeCpl c p).top = d.top
  simp only [Dev.writeCpl, apply_ite Dev.top, ringPut_top, ringDrop_top, unlink_top, ite_self]

@[simp] theorem writeSpare_top (d : Dev) (c : Cmd) (p : Cpl) : (d.writeSpare c p).2.top = d.top := by
  simp only [Dev.writeSpare, apply_ite Prod.snd, apply_ite Dev.top, ringPut_top, ringDrop_top, ite_self]

@[simp] theorem dspMissed_top (d : Dev) : d.dspMissed.top = d.top := by simp [Dev.dspMissed]

@[simp] theorem instEnd_top (d : Dev) (k : Nat) (r : Option Nat) : (d.instEnd k r).top = d.top := by
  unfold Dev.instEnd
  split
  · rfl
  · split
    · rfl
    · extract_lets fmn run ended empty before dsp missed sealed
      have hEnded : ended.top = d.top := by
        unfold ended
        split
        · simp only [note_top, raise_top, count_top]
          rfl
        · rfl
      have hMissed : missed.top = ended.top := by
        unfold missed
        split <;> rfl
      have hSealed : sealed.top = missed.top := by
        unfold sealed
        split
        · exact dspMissed_top missed
        · rfl
      rw [← hEnded, ← hMissed, ← hSealed]
      generalize (if r.isNone = true then (Status.late, 3) else _ : Status × Nat) = how
      obtain ⟨status, detail⟩ := how
      dsimp only
      split
      · split <;> simp
      · exact complete_top ..

@[simp] theorem coreHold_top (d : Dev) (k : Nat) : (d.coreHold k).top = d.top := by
  unfold Dev.coreHold
  dsimp only
  split
  · rfl
  · split
    · exact instEnd_top ..
    · rfl

@[simp] theorem coresRefresh_top (d : Dev) : d.coresRefresh.top = d.top := by
  refine foldl_keeps Dev.top (fun e k => ?_) ..
  split
  · rfl
  · exact coreHold_top ..

/-! ## The pair (R386, R390) -/

@[simp] theorem ownRefresh_top (d : Dev) : d.ownRefresh.top = d.top := by
  simp only [Dev.ownRefresh, apply_ite Dev.top, ite_self]

@[simp] theorem retireCheck_top (d : Dev) : d.retireCheck.top = d.top := by
  simp only [Dev.retireCheck, apply_ite Dev.top, ite_self]

@[simp] theorem mirrorStart_top (d : Dev) : d.mirrorStart.top = d.top := by
  simp [Dev.mirrorStart]

@[simp] theorem cause_top (d : Dev) (i : Nat) (on : Bool) : (d.cause i on).top = d.top := rfl

@[simp] theorem becomeStandby_top (d : Dev) : d.becomeStandby.top = d.top := by
  simp only [Dev.becomeStandby, ownRefresh_top, apply_ite Dev.top, mirrorStart_top, cause_top, ite_self]

@[simp] theorem becomeActive_top (d : Dev) : d.becomeActive.top = d.top := ownRefresh_top { d with tth := _ }

@[simp] theorem joinStep_top (d : Dev) (deferred : Bool) : (d.joinStep deferred).top = d.top := by
  simp only [Dev.joinStep, apply_ite Dev.top, becomeStandby_top, becomeActive_top, raiseIf_top, ite_self]

@[simp] theorem giveUp_top (d : Dev) (o : Nat) : (d.giveUp o).top = d.top := by
  unfold Dev.giveUp
  split
  · extract_lets tth kept port quiet
    have hQuiet : quiet.top = d.top := by
      unfold quiet
      split <;> rfl
    rw [retireCheck_top, raiseIf_top, hQuiet]
  · rfl

@[simp] theorem outputsOff_top (d : Dev) : d.outputsOff.top = d.top := by
  unfold Dev.outputsOff
  dsimp only
  rw [foldl_keeps Dev.top giveUp_top, retireCheck_top, ownRefresh_top]

/-! ## Entries into the states (R37, R38) -/

@[simp] theorem latchRegion_top (d : Dev) (n : Nat) : (d.latchRegion n).top = d.top :=
  foldl_keeps Dev.top (fun _ _ => latchReg_top ..) ..

@[simp] theorem objEnterRun_top (d : Dev) : d.objEnterRun.top = d.top := by
  unfold Dev.objEnterRun
  extract_lets kept old latched renewed
  have hKept : kept.top = d.top := foldl_keeps Dev.top (fun _ _ => by rfl) ..
  have hRenewed : renewed.top = latched.top := by
    unfold renewed
    split <;> rfl
  have hLatched : latched.top = kept.top := foldl_keeps Dev.top latchReg_top ..
  exact hRenewed.trans (hLatched.trans hKept)

@[simp] theorem outEnterRun_top (d : Dev) : d.outEnterRun.top = d.top :=
  foldl_keeps Dev.top latchReg_top ..

@[simp] theorem pwrEnterRun_top (d : Dev) : d.pwrEnterRun.top = d.top := by
  unfold Dev.pwrEnterRun Dev.levelInForce Dev.dspFreq
  simp only [apply_ite Dev.top, setFld_top, setFlds_top, ite_self]

@[simp] theorem tthEnterRun_top (d : Dev) : d.tthEnterRun.top = d.top := by
  simp only [Dev.tthEnterRun, joinStep_top, apply_ite Dev.top, ite_self]

/-- Entry into RUN moves the state, and the overruns with their limit. -/
theorem enterRun_top (d : Dev) : d.enterRun.top = { d.top with st := .run, overruns := 0, overrunHit := false, fading := false } := by
  unfold Dev.enterRun
  extract_lets top run regions dmc latched entered
  have hRegions : regions.top = run.top := foldl_keeps Dev.top latchRegion_top (List.range 8) run
  clear_value regions
  have hEntered : entered.top = latched.top := by
    simp only [entered, Dev.slpEnterRun, Dev.mtrEnterRun, pwrEnterRun_top, outEnterRun_top, objEnterRun_top, Dev.xptEnterRun, note_top]
  have hLatched : latched.top = regions.top := rfl
  rw [tthEnterRun_top, hEntered, hLatched, hRegions]

@[simp] theorem forget_top (d : Dev) (c : Cmd) : (d.forget c).top = d.top := unlink_top d c
@[simp] theorem fmnClear_top (d : Dev) : d.fmnClear.top = d.top := foldl_keeps Dev.top forget_top _ d
@[simp] theorem banksReset_top (d : Dev) : d.banksReset.top = d.top := foldl_keeps Dev.top forget_top _ d
@[simp] theorem stxDrop_top (d : Dev) (m : Nat) : (d.stxDrop m).top = d.top := congrArg (fun x => x.2.1) (resetView_stxDrop d m)

@[simp] theorem ethRefresh_top (d : Dev) : d.ethRefresh.top = d.top := by
  refine foldl_keeps Dev.top (fun e m => ?_) ..
  split
  · rfl
  · exact stxDrop_top ..

@[simp] theorem sapRefresh_top (d : Dev) : d.sapRefresh.top = d.top := by
  refine foldl_keeps Dev.top (fun e p => ?_) ..
  split <;> rfl

@[simp] theorem dramStandby_top (d : Dev) : d.dramStandby.top = d.top := setFlds_top { d with dram := _ } _
@[simp] theorem dramResume_top (d : Dev) : d.dramResume.top = d.top := foldl_keeps Dev.top (fun _ _ => setFld_top ..) ..

@[simp] theorem holdCores_top (d : Dev) : d.holdCores.top = d.top := by
  unfold Dev.holdCores
  rw [coresRefresh_top]
  exact foldl_keeps Dev.top (fun _ _ => by rfl) ..

@[simp] theorem strFade_top (d : Dev) : d.strFade.top = d.top := foldl_keeps Dev.top (fun _ _ => by rfl) ..

/-- Entry into STANDBY moves the state alone. -/
theorem enterStandby_top (d : Dev) : d.enterStandby.top = { d.top with st := .standby } := by
  unfold Dev.enterStandby
  simp only [outputsOff_top, sapRefresh_top, ethRefresh_top, dramStandby_top, Dev.dropLocal, banksReset_top, coresRefresh_top, fmnClear_top]

/-- Entry into SETUP from OFF or STANDBY moves the state alone. -/
theorem enterSetup_top (d : Dev) : d.enterSetup.top = { d.top with st := .setup } := by
  unfold Dev.enterSetup
  simp only [refFollow_top, holdCores_top, Dev.dropLocal, apply_ite Dev.top, dramResume_top, ite_self]

/-- RUN is left: the state changes and the outputs fade. -/
theorem leaveRun_top (d : Dev) (st : DevState) : (d.leaveRun st).top = { d.top with st := st, fading := d.running } := by
  unfold Dev.leaveRun
  rw [refFollow_top, trip_top]

/-- Entry into SAFE from RUN. -/
theorem enterSafe_top {d : Dev} (h : d.top.st = .run) (cause : Nat) : (d.enterSafe cause).top =
    { d.top with st := .safe, fading := d.running, safeCause := cause, overruns := 0, overrunHit := false } := by
  unfold Dev.enterSafe
  rw [if_pos h, raise_top]
  simp only [leaveRun_top]

/-! ## Requests (R38) -/

/-- The part with no request, or with the request `r`. -/
def withReq (d : Dev) (r : Option DevState) : Dev := { d with top := { d.top with req := r } }

@[simp] theorem withReq_top (d : Dev) (r : Option DevState) : (withReq d r).top = { d.top with req := r } := rfl

theorem withReq_safeCauses (d : Dev) (r : Option DevState) : (withReq d r).safeCauses = d.safeCauses := rfl

/-- With no hardware cause of SAFE the request that stands is judged. -/
theorem stateStep_of_no_cause {d : Dev} (h : d.safeCauses = []) : d.stateStep = d.judgeRequest := if_neg (fun x => x.1 h)

/-- A request that is refused is gone, and REFUSE tells why. -/
theorem judgeRequest_refused {d : Dev} {r : DevState} (h : d.top.req = some r) (hc : refuseCode d r ≠ 0) :
    d.judgeRequest = { d with top := { d.top with req := none, refuse := refuseCode d r } }.raise F.stateRefused := by
  simp only [Dev.judgeRequest, h, if_pos hc]

/-- A request that is not refused is carried out. -/
def carryOut (d : Dev) : DevState → Dev
  | .run => (withReq d none).enterRun
  | .standby => (withReq d none).enterStandby
  | .safe => (withReq d none).enterSafe 1
  | .setup => if d.top.st = .run then (withReq d none).leaveRun .setup else if d.top.st = .standby then (withReq d none).enterSetup
    else { withReq d none with top := { (withReq d none).top with st := .setup } }
  | .off => withReq d none

theorem judgeRequest_carried {d : Dev} {r : DevState} (h : d.top.req = some r) (hc : refuseCode d r = 0) :
    d.judgeRequest = carryOut d r := by
  simp only [Dev.judgeRequest, h, hc, ne_eq, not_true_eq_false, if_false]
  cases r <;> rfl

theorem makes_stateTransition {s : State} {d : Dev} (h : s.dev.stateStep = d) : Makes .stateTransition s d :=
  makes_of (·.stateStep) rfl h

/-- A request with no hardware cause and nothing that refuses it: STATE_TRANSITION carries it out. -/
theorem makes_carried {s : State} {r : DevState} (hn : s.dev.safeCauses = []) (h : s.dev.top.req = some r) (hc : refuseCode s.dev r = 0) :
    Makes .stateTransition s (carryOut s.dev r) :=
  makes_stateTransition ((stateStep_of_no_cause hn).trans (judgeRequest_carried h hc))

theorem tickOn_of_view {d e : Dev} (h : stateView e = stateView d) : e.tickOn = d.tickOn := by
  simp only [stateView, rateView, Prod.mk.injEq] at h
  simp only [Dev.tickOn, Dev.awake, Dev.flag, Dev.fld, h.1.1, h.2]

/-- A request to leave RUN is a trip cause (R406). -/
def reqTrip (d : Dev) (r : DevState) : Dev := if d.top.st = .run ∧ (r = .setup ∨ r = .safe) then (d.trip true).refFollow else d

theorem stateView_reqTrip (d : Dev) (r : DevState) : stateView (reqTrip d r) = stateView d := by
  unfold reqTrip
  split
  · exact (stateView_refFollow _).trans (stateView_trip d true)
  · rfl

/-- The commands that request a state. -/
def requests : List (Instr × DevState) := [(.stateReqSetup, .setup), (.stateReqRun, .run), (.stateReqSafe, .safe), (.stateReqStandby, .standby)]

/-- What a request of state `r` does: it stands, and acts at once where no boundary is to come. -/
def requested (d : Dev) (r : DevState) : Dev :=
  let e := withReq (reqTrip d r) (some r)
  if e.tickOn then e else e.judgeRequest

theorem makes_request {p : Instr × DevState} (hp : p ∈ requests) (s : State) : Makes p.1 s (requested s.dev p.2) := by
  simp only [requests, List.mem_cons, List.not_mem_nil, or_false] at hp
  rcases hp with rfl | rfl | rfl | rfl
  · exact makes_of (·.stateReq 1) rfl rfl
  · exact makes_of (·.stateReq 2) rfl rfl
  · exact makes_of (·.stateReq 3) rfl rfl
  · exact makes_of (·.stateReq 4) rfl rfl

/-- While a boundary is to come the request stands. -/
theorem requested_stands {d : Dev} (h : d.tickOn = true) (r : DevState) : requested d r = withReq (reqTrip d r) (some r) := by
  have same : (reqTrip d r).tickOn = d.tickOn := tickOn_of_view (stateView_reqTrip d r)
  exact if_pos (same.trans h)

theorem requested_acts {d : Dev} (h : d.tickOn = false) (ho : d.top.st ≠ .run) (r : DevState) :
    requested d r = (withReq d (some r)).judgeRequest := by
  have stays : reqTrip d r = d := if_neg (fun x => ho x.1)
  simp only [requested, stays]
  exact if_neg (by rw [show (withReq d (some r)).tickOn = d.tickOn from rfl, h]; decide)

/-- The code of a refused request, condition by condition (R38, R40). -/
theorem refuseCode_of_refused {d : Dev} {r : DevState} {n : Nat}
    (h : (d.top.st ≠ .standby ∧ d.top.st ≠ .setup ∧ d.top.st ≠ .run ∧ d.top.st ≠ .safe ∧ n = 1) ∨
     (d.top.st = .run ∧ r ≠ .setup ∧ r ≠ .safe ∧ n = 1) ∨ (d.top.st = .safe ∧ r ≠ .setup ∧ n = 1) ∨
     (d.top.st = .standby ∧ r ≠ .setup ∧ n = 1) ∨ (d.top.st = .setup ∧ r ≠ .run ∧ r ≠ .standby ∧ n = 1) ∨
     (d.top.st = .setup ∧ r = .run ∧ d.flag R.TOP_RATE_TICK_RUN = false ∧ n = 2) ∨
     (d.top.st = .setup ∧ r = .run ∧ d.flag R.TOP_RATE_TICK_RUN = true ∧ d.fld (R.DPLL_STAT_STATE 0) = 0 ∧ n = 3) ∨
     (d.top.st = .setup ∧ r = .run ∧ d.flag R.TOP_RATE_TICK_RUN = true ∧ d.fld (R.DPLL_STAT_STATE 0) ≠ 0 ∧
       d.flag R.DMC_CHECK_CHECKED = false ∧ n = 4) ∨
     (d.top.st = .setup ∧ r = .standby ∧ d.hre.paq ≠ [] ∧ n = 5) ∨
     (d.top.st = .setup ∧ r = .standby ∧ d.hre.paq = [] ∧ d.flag R.TOP_RATE_TICK_RUN = true ∧ n = 6)) :
    refuseCode d r = n ∧ n ≠ 0 := by
  rcases h with ⟨hb, hs, hr, hf, rfl⟩ | ⟨st, h1, h2, rfl⟩ | ⟨st, h1, rfl⟩ | ⟨st, h1, rfl⟩ | ⟨st, h1, h2, rfl⟩ | ⟨st, rfl, tick, rfl⟩ |
    ⟨st, rfl, tick, clock, rfl⟩ | ⟨st, rfl, tick, clock, dram, rfl⟩ | ⟨st, rfl, paq, rfl⟩ | ⟨st, rfl, paq, tick, rfl⟩
  · have off : d.top.st = .off := by cases h : d.top.st <;> simp_all
    simp [refuseCode, off]
  · cases r <;> simp_all [refuseCode]
  · cases r <;> simp_all [refuseCode]
  · cases r <;> simp_all [refuseCode]
  · cases r <;> simp_all [refuseCode]
  · simp [refuseCode, st, tick]
  · simp [refuseCode, st, tick, clock]
  · simp [refuseCode, st, tick, clock, dram]
  · simp [refuseCode, st, paq]
  · simp [refuseCode, st, paq, tick]

/-- Settles O8: a request stands or acts at once; STATE_TRANSITION carries it out or refuses it. -/
theorem stateTransitionsFollowR38 : Obligations.StateTransitionsFollowR38 := by
  unfold Obligations.StateTransitionsFollowR38
  refine ⟨fun s h => ?_, fun s d h hn ho p hp hd => ?_, fun s hn => ⟨fun st req tick clock dram => ?_, fun st req => ?_, fun st req => ?_, fun st req => ?_,
    fun st req paq tick => ?_, fun st req => ?_⟩, fun s r n hn req why => ?_⟩
  · have stands {p : Instr × DevState} (hp : p ∈ requests) : Makes p.1 s (withReq (reqTrip s.dev p.2) (some p.2)) := by
      rw [← requested_stands h]
      exact makes_request hp s
    have plain {r : DevState} (hr : s.dev.top.st ≠ .run ∨ r ≠ .setup ∧ r ≠ .safe) : reqTrip s.dev r = s.dev :=
      if_neg (by rintro ⟨st, rfl | rfl⟩ <;> simp [st] at hr)
    have trips {r : DevState} (st : s.dev.top.st = .run) (hr : r = .setup ∨ r = .safe) : reqTrip s.dev r = (s.dev.trip true).refFollow :=
      if_pos ⟨st, hr⟩
    refine ⟨?_, ?_, fun st => ⟨?_, ?_⟩, fun st => ⟨?_, ?_⟩⟩
    · have := stands (p := (.stateReqRun, .run)) (by decide)
      rwa [plain (.inr (by decide))] at this
    · have := stands (p := (.stateReqStandby, .standby)) (by decide)
      rwa [plain (.inr (by decide))] at this
    · have := stands (p := (.stateReqSetup, .setup)) (by decide)
      rwa [plain (.inl st)] at this
    · have := stands (p := (.stateReqSafe, .safe)) (by decide)
      rwa [plain (.inl st)] at this
    · have := stands (p := (.stateReqSetup, .setup)) (by decide)
      rwa [trips st (.inl rfl)] at this
    · have := stands (p := (.stateReqSafe, .safe)) (by decide)
      rwa [trips st (.inr rfl)] at this
  · have carried : (withReq s.dev (some p.2)).stateStep.vector0 = d.vector0 :=
      makes_vector0 (makes_stateTransition (s := { s with dev := withReq s.dev (some p.2) }) rfl) hd
    rw [stateStep_of_no_cause ((withReq_safeCauses ..).trans hn), ← requested_acts h ho] at carried
    rw [Makes, ← carried]
    exact makes_request hp s
  · exact ⟨_, makes_carried hn req (by simp [refuseCode, st, tick, clock, dram]), by simp [carryOut, enterRun_top]⟩
  · exact ⟨_, makes_carried hn req (by simp [refuseCode, st]), by simp [carryOut, st, leaveRun_top]⟩
  · exact ⟨_, makes_carried hn req (by simp [refuseCode, st]), by simp [carryOut, enterSafe_top (d := withReq s.dev none) st]⟩
  · exact ⟨_, makes_carried hn req (by simp [refuseCode, st]), by simp [carryOut, st]⟩
  · exact ⟨_, makes_carried hn req (by simp [refuseCode, st, paq, tick]), by simp [carryOut, enterStandby_top]⟩
  · exact ⟨_, makes_carried hn req (by simp [refuseCode, st]), by simp [carryOut, st, enterSetup_top]⟩
  · obtain ⟨code, ne⟩ := refuseCode_of_refused why
    refine makes_stateTransition ((stateStep_of_no_cause hn).trans ((judgeRequest_refused req (code.trans_ne ne)).trans ?_))
    rw [code]

end Sys2Proof.Proofs
end

section
/-! SUPPORT. Tick boundaries and service instants, overruns, services of HRE and the status page (01 R21 to R28, 02 R66 to R71). -/
namespace Sys2Proof.Proofs
open Sys2Proof.Machine Sys2Proof.Laws

/-! ## The counter (R21, R392) -/

theorem nextTick_of_no_realign {d : Dev} (h : d.tth.realign = false) : d.nextTick.top.tick = (d.top.tick + 1) % 2 ^ 48 := by
  simp [Dev.nextTick, h]

theorem nextTick_of_marker {d : Dev} {m : Marker} (h : d.tth.realign = true) (hm : d.tth.marker = some m) :
    d.nextTick.top.tick = m.tick % 2 ^ 48 := by
  simp [Dev.nextTick, h, hm]

theorem nextTick_of_no_marker {d : Dev} (h : d.tth.realign = true) (hm : d.tth.marker = none) :
    d.nextTick.top.tick = (d.top.tick + 1) % 2 ^ 48 ∧ d.nextTick.tth.realign = true := by
  simp [Dev.nextTick, h, hm]

/-- The position in the tick restarts at 0 (R22). -/
theorem nextTick_phase (d : Dev) : d.nextTick.phase = 0 := by
  have media : d.nextTick.top.mediaAcc = 0 := rfl
  simp [Dev.phase, media]

/-! ## Overruns (R28) -/

/-- A block emitted in time ends a run of overruns. -/
theorem judgeEmission_in_time (d : Dev) : (d.judgeEmission false).top.overruns = 0 := by
  simp [Dev.judgeEmission]

/-- An overrun as counted, before what it may trip. -/
def overrunCounted (d : Dev) : Dev :=
  let e := ((d.count R.TOP_OVERRUN_COUNT).raise F.overrun).note .overrun
  { e with top := { e.top with overruns := e.top.overruns + 1 } }

theorem overrun_eq (d : Dev) : d.overrun = (overrunCounted d).tripMaskable R.TTH_CTL_OVERRUN_TRIP := rfl

theorem trip_regs_grade (d : Dev) (may : Bool) : (d.trip may).regs = d.regs ∧ (d.trip may).grade = d.grade := by
  unfold Dev.trip
  split
  · split
    · exact ⟨raise_regs .., raise_grade ..⟩
    · exact ⟨rfl, rfl⟩
    · exact ⟨rfl, rfl⟩
  · exact ⟨rfl, rfl⟩

theorem fld_trip (d : Dev) (may : Bool) (f : Field) : (d.trip may).fld f = d.fld f :=
  fld_of_regs (trip_regs_grade d may).1 (trip_regs_grade d may).2 f

theorem overrun_top (d : Dev) : d.overrun.top = { d.top with overruns := d.top.overruns + 1 } := by
  rw [overrun_eq, tripMaskable_top, overrunCounted]
  simp only [note_top, raise_top, count_top]

theorem overrun_fld (d : Dev) (f : Field) : d.overrun.fld f = (d.count R.TOP_OVERRUN_COUNT).fld f := by
  have counted : (overrunCounted d).fld f = (((d.count R.TOP_OVERRUN_COUNT).raise F.overrun).note .overrun).fld f := fld_of_regs rfl rfl f
  rw [overrun_eq, Dev.tripMaskable, fld_trip, counted, fld_note, fld_raise]

theorem overrun_count (d : Dev) :
    d.overrun.fld R.TOP_OVERRUN_COUNT = min (d.fld R.TOP_OVERRUN_COUNT + 1) (2 ^ R.TOP_OVERRUN_COUNT.w - 1) := by
  rw [overrun_fld]
  exact fld_addFld_self d _ 1 (by decide)

theorem overrun_limit_kept (d : Dev) : d.overrun.fld R.TOP_PIPE_OVERRUN_LIMIT = d.fld R.TOP_PIPE_OVERRUN_LIMIT := by
  rw [overrun_fld]
  exact fld_addFld_ne d _ _ 1 (by decide) (.inl (by decide))

/-- An event bit that has been raised reads as set. -/
theorem bitAt_or_bit (w : Word) {i : Nat} (hi : i < 32) : bitAt (w ||| BitVec.ofNat 32 (2 ^ i)).toNat i = true := by
  have bit : (2 ^ i % 4294967296 : Nat) = 2 ^ i := Nat.mod_eq_of_lt (Nat.pow_lt_pow_right (by decide) hi)
  have set : (w.toNat ||| 2 ^ i).testBit i = true := by simp
  rw [Nat.testBit_eq_decide_div_mod_eq] at set
  simpa [bitAt, bit] using set

theorem overrun_event {d : Dev} (h : d.effEn topBase = true) : bitAt (d.overrun.hd topBase).event.toNat F.overrun.bit = true := by
  have trip : d.overrun.hd topBase = (overrunCounted d).hd topBase := congrArg Prod.snd (rateView_trip (overrunCounted d) _)
  have counted : (overrunCounted d).hd topBase = ((d.count R.TOP_OVERRUN_COUNT).raise F.overrun).hd topBase :=
    hd_of_hdr (note_hdr ..) _
  have en : (d.count R.TOP_OVERRUN_COUNT).effEn F.overrun.base = true := (effEn_of_hdr (count_hdr ..) _).trans h
  rw [trip, counted]
  exact (congrArg (fun w : Word => bitAt w.toNat 2) (raise_event _ F.overrun en)).trans (bitAt_or_bit _ (by decide))

/-- The cause of SAFE stands once there are OVERRUN_LIMIT overruns in a row, and registers and headers stay. -/
theorem overrunLimit_hit (d : Dev) : d.overrunLimit.top.overrunHit = true ↔ d.top.overrunHit = true ∨
    (d.fld R.TOP_PIPE_OVERRUN_LIMIT ≠ 0 ∧ d.fld R.TOP_PIPE_OVERRUN_LIMIT ≤ d.top.overruns) := by
  unfold Dev.overrunLimit
  dsimp only
  split
  · next h => simp [h]
  · next h => simp [h]

theorem overrunLimit_keeps (d : Dev) : d.overrunLimit.regs = d.regs ∧ d.overrunLimit.grade = d.grade ∧ d.overrunLimit.hdr = d.hdr ∧
    d.overrunLimit.top.overruns = d.top.overruns := by
  unfold Dev.overrunLimit
  dsimp only
  split <;> exact ⟨rfl, rfl, rfl, rfl⟩

/-- A block that is not ready in RUN is an overrun (R28). -/
theorem judgeEmission_late {d : Dev} (h : d.top.st = .run) : d.judgeEmission true = d.overrun.overrunLimit := by
  simp [Dev.judgeEmission, h]

/-! ## Boundaries and service instants (R21, R551) -/

theorem boundary_off {d : Dev} (h : d.flag R.TOP_RATE_TICK_RUN = false ∨ d.ref.tickWait = true ∨ d.awake = false) (b : Boundary) :
    d.boundary b = d := if_pos (by rcases h with h | h | h <;> simp [h])

theorem serviceInstant_of_running {d : Dev} (h : d.running = true) (b : Boundary) : d.serviceInstant b = d := if_pos h

/-! ## Services (R66, R69, R77) -/

theorem entryFails_nil (d : Dev) : d.entryFails [] = d := rfl

/-- A poll whose read of the doorbell page succeeds. -/
theorem poll_of_doorbell (d : Dev) {fails : List HostAccess} (h : fails.contains .doorbell = false) : d.poll fails =
    (fetchRounds fails ((d.ringsFollow.doorbell false).fld R.HRE_CTL_FETCH_MAX)
      ⟨(d.ringsFollow.doorbell false).entryFails fails, (d.ringsFollow.doorbell false).fld R.HRE_CTL_FETCH_MAX, [], false⟩).dev.afterCommands := by
  unfold Dev.poll
  simp only [h]
  rw [if_neg (by decide)]

/-- With no failure a poll is the changes of ENABLE, the doorbell page and the fetch. -/
theorem poll_of_no_failure (d : Dev) : d.poll [] =
    (fetchRounds [] ((d.ringsFollow.doorbell false).fld R.HRE_CTL_FETCH_MAX)
      ⟨d.ringsFollow.doorbell false, (d.ringsFollow.doorbell false).fld R.HRE_CTL_FETCH_MAX, [], false⟩).dev.afterCommands := by
  have h := poll_of_doorbell d (fails := []) rfl
  rwa [entryFails_nil] at h

theorem writePage_of_no_failure {d : Dev} (h : d.hre.skipPage = false) :
    d.writePage false = if d.flag R.HRE_CTL_STATUS_EN then d.hostWrite d.statusAddr (statusPage d) else d := by
  simp [Dev.writePage, h]

theorem fetchRounds_succ (n : Nat) (f : Fetching) :
    let g := (List.range 64).foldl (fetchOne []) { f with took := false }
    fetchRounds [] (n + 1) f = if g.took = true ∧ g.left ≠ 0 then fetchRounds [] n g else g := by
  dsimp only
  rw [fetchRounds]
  simp

/-- A ring's turn comes to nothing. -/
theorem fetchOne_passes {f : Fetching} {r : Nat} (h : f.left = 0 ∨ r ∈ f.stop ∨ f.dev.ringLive r = false ∨ f.dev.ringType r ≠ 0 ∨
    f.dev.ringPosted r = 0 ∨ f.dev.ringBarred r = true) : fetchOne [] f r = f := by
  unfold fetchOne
  exact if_pos (by simpa [or_assoc] using h)

/-- The descriptor at the device index of a ring. -/
def nextCmd (d : Dev) (r : Nat) : Cmd :=
  cmdOfBytes (memRead d.hostMem (d.ringAddr r (d.fld (R.RING_DEV_IDX_DEV_IDX r))) 64) r (d.fld (R.RING_DEV_IDX_DEV_IDX r)) d.top.tick d.hre.serial

/-- It is ring `r`'s turn and it has a descriptor to give. -/
structure HasTurn (f : Fetching) (r : Nat) : Prop where
  left : f.left ≠ 0
  runs : r ∉ f.stop
  live : f.dev.ringLive r = true
  cmd : f.dev.ringType r = 0
  posted : f.dev.ringPosted r ≠ 0
  free : f.dev.ringBarred r = false

section
variable {f : Fetching} {r : Nat} (h : HasTurn f r)
include h

/-- The pending queue is full: the fetch ends. -/
theorem HasTurn.queue_full (full : f.dev.paqTaken = true) : fetchOne [] f r = { f with dev := f.dev.raise F.paqFull, left := 0 } := by
  obtain ⟨left, runs, live, cmd, posted, free⟩ := h
  simp [fetchOne, left, runs, live, cmd, posted, free, full]

/-- No completion entry is left: the ring stops for this poll. -/
theorem HasTurn.no_entry (room : f.dev.paqTaken = false) (req : (nextCmd f.dev r).cplReq = true)
    (none : f.dev.ringFree (f.dev.fld (R.RING_CFG_LINK r)) = 0) : fetchOne [] f r = { f with stop := r :: f.stop } := by
  obtain ⟨left, runs, live, cmd, posted, free⟩ := h
  simp only [nextCmd] at req
  simp [fetchOne, left, runs, live, cmd, posted, free, room, req, none]

/-- The ring gives its next command. -/
theorem HasTurn.gives (room : f.dev.paqTaken = false)
    (entry : (nextCmd f.dev r).cplReq = false ∨ f.dev.ringFree (f.dev.fld (R.RING_CFG_LINK r)) ≠ 0) : fetchOne [] f r =
      ⟨(f.dev.setFld (R.RING_DEV_IDX_DEV_IDX r) ((f.dev.fld (R.RING_DEV_IDX_DEV_IDX r) + 1) % 2 ^ 32)).fetched (nextCmd f.dev r), f.left - 1,
        if (nextCmd f.dev r).code.toNat = Opcode.barrier.code then r :: f.stop else f.stop, true⟩ := by
  obtain ⟨left, runs, live, cmd, posted, free⟩ := h
  have goes : f.stop.contains r = false := by simpa using runs
  have taken : ((nextCmd f.dev r).cplReq && decide (f.dev.ringFree (f.dev.fld (R.RING_CFG_LINK r)) = 0)) = false := by
    rcases entry with e | e <;> simp [e]
  unfold nextCmd at taken ⊢
  unfold fetchOne
  simp only [left, goes, live, cmd, posted, free, room, taken, List.contains_nil, decide_false, Bool.or_false,
    Bool.not_true, bne_self_eq_false, Bool.false_eq_true, if_false]

end

/-- A service of a working HRE without failures. -/
theorem service_of_no_failure {d : Dev} {b : Boundary} (ha : d.awake = true) (hw : d.works hreBase = true)
    (hf : b.fails = []) (hl : b.pollLate = false) :
    let e := { d with hre := { d.hre with urgentRuns := 0 } }
    let p := e.writePage false
    d.service b = if p.vectors.flag R.HRE_CTL_POLL_EN then p.vectors.poll [] else p.vectors := by
  simp [Dev.service, ha, hw, hf, hl, Dev.raiseIf]

/-! ## The status page (R71) -/

@[simp] theorem leBytes_length (n v : Nat) : (leBytes n v).length = n := by
  induction n generalizing v with
  | zero => rfl
  | succ n ih => rw [leBytes, List.length_cons, ih]

theorem leBytes_zero (n : Nat) : leBytes n 0 = List.replicate n 0 := by
  induction n with
  | zero => rfl
  | succ n ih => rw [leBytes, Nat.zero_div, ih, List.replicate_succ, Nat.zero_mod]

/-- The bytes of a number above its low `m` are those of its high part. -/
theorem leBytes_add (m n v : Nat) : leBytes (m + n) v = leBytes m v ++ leBytes n (v / 256 ^ m) := by
  induction m generalizing v with
  | zero => simp [leBytes]
  | succ m ih =>
    rw [show m + 1 + n = (m + n) + 1 by omega, leBytes, leBytes, ih, List.cons_append, Nat.div_div_eq_div_mul, Nat.pow_succ, Nat.mul_comm]

theorem leBytes_mod (n v : Nat) : leBytes n (v % 256 ^ n) = leBytes n v := by
  induction n generalizing v with
  | zero => rfl
  | succ n ih =>
    rw [leBytes, leBytes, ← ih (v / 256)]
    congr 1
    · rw [Nat.pow_succ, Nat.mod_mul_left_mod]
    · congr 1
      rw [Nat.pow_succ, Nat.mul_comm, Nat.mod_mul_right_div_self]

/-- The tick as the page shows it: six bytes and two zeros. -/
theorem leBytes_tick (t : Nat) : leBytes 8 (t % 2 ^ 48) = leBytes 6 t ++ [0, 0] := by
  have high : t % 2 ^ 48 / 256 ^ 6 = 0 := by omega
  rw [leBytes_add 6 2, high]
  exact congrArg (· ++ [0, 0]) (leBytes_mod 6 t)

/-- One ring as the page shows it. -/
def ringBytes (d : Dev) (r : Nat) : List Nat := leBytes 4 (d.fld (R.RING_DEV_IDX_DEV_IDX r)) ++
  [d.fld (R.RING_CFG_ENABLE r) + 2 * d.fld (R.RING_CFG_HALTED r) + 16 * d.fld (R.RING_CFG_HALT_CAUSE r), 0, 0, 0]

@[simp] theorem ringBytes_length (d : Dev) (r : Nat) : (ringBytes d r).length = 8 := by simp [ringBytes]

/-- The page after its rings, piece by piece: the value and its number of bytes. -/
def pageFields (d : Dev) : List (Nat × Nat) :=
  [(4, d.top.tick), (4, 0), (8, d.top.tick % 2 ^ 48), (4, d.tbFrac 0), (4, d.tbNs 0), (4, d.stateWord), (4, d.topEvents.toNat), (4, d.hre.paq.length),
    (4, d.levelNow), (4, pairWord d), (4, d.digest), (4, d.tbFrac 1), (4, d.tbNs 1), (4, d.tbFrac 2), (4, d.tbNs 2), (4, d.tbFrac 3), (4, d.tbNs 3),
    (0x1B4, 0), (4, d.top.tick)]

/-- The bytes of fields one after the other. -/
def fieldBytes (l : List (Nat × Nat)) : List Nat := l.flatMap (fun x => leBytes x.1 x.2)

/-- The page is its rings, then its fields. -/
theorem statusPage_eq (d : Dev) : statusPage d = (List.range 64).flatMap (ringBytes d) ++ fieldBytes (pageFields d) := by
  simp only [statusPage, fieldBytes, pageFields, List.flatMap_cons, List.flatMap_nil, List.append_nil, List.append_assoc, tbBytes, leBytes_tick,
    leBytes_zero]
  rfl

theorem length_flatMap_of_const {α β : Type} {f : α → List β} {n : Nat} (hf : ∀ a, (f a).length = n) (l : List α) :
    (l.flatMap f).length = n * l.length := by
  simp [List.length_flatMap, hf, Nat.mul_comm]

/-- The `i`th piece of pieces of `n` elements each. -/
theorem piece_of_flatMap {α β : Type} {f : α → List β} {n : Nat} (hf : ∀ a, (f a).length = n) {l : List α} {i : Nat} (h : i < l.length)
    (t : List β) : ((l.flatMap f ++ t).drop (n * i)).take n = f l[i] := by
  have split : l = l.take i ++ l[i] :: l.drop (i + 1) := by rw [List.getElem_cons_drop, List.take_append_drop]
  have before : ((l.take i).flatMap f).length = n * i := by
    rw [length_flatMap_of_const hf, List.length_take, Nat.min_eq_left h.le]
  conv_lhs => rw [split, List.flatMap_append, List.flatMap_cons]
  rw [List.append_assoc, ← before, List.drop_left, List.append_assoc]
  exact List.take_left' (hf _)

/-- Fields with the offsets at which they stand. -/
def placed : Nat → List (Nat × Nat) → List (Nat × Nat × Nat)
  | _, [] => []
  | off, (n, v) :: l => (off, n, v) :: placed (off + n) l

/-- Each field stands at its offset. -/
theorem fieldBytes_placed {l : List (Nat × Nat)} {a : List Nat} {off : Nat} (ha : a.length = off) :
    ∀ x ∈ placed off l, ((a ++ fieldBytes l).drop x.1).take x.2.1 = leBytes x.2.1 x.2.2 := by
  induction l generalizing a off with
  | nil => simp [placed]
  | cons f l ih =>
    obtain ⟨n, v⟩ := f
    have next : (a ++ leBytes n v).length = off + n := by rw [List.length_append, ha, leBytes_length]
    have bytes : a ++ fieldBytes ((n, v) :: l) = (a ++ leBytes n v) ++ fieldBytes l := (List.append_assoc ..).symm
    simp only [placed, List.forall_mem_cons]
    refine ⟨?_, fun x hx => ?_⟩
    · rw [← ha, bytes, List.append_assoc, List.drop_left]
      exact List.take_left' (leBytes_length n v)
    · rw [bytes]
      exact ih next x hx

theorem rings_length (d : Dev) : ((List.range 64).flatMap (ringBytes d)).length = 0x200 := by
  rw [length_flatMap_of_const (ringBytes_length d), List.length_range]

theorem statusPage_length (d : Dev) : (statusPage d).length = 1024 := by
  rw [statusPage_eq, List.length_append, rings_length]
  simp [fieldBytes, pageFields]

theorem statusPage_ring (d : Dev) {r : Nat} (h : r < 64) : ((statusPage d).drop (8 * r)).take 8 = ringBytes d r := by
  rw [statusPage_eq, piece_of_flatMap (ringBytes_length d) (by simpa using h), List.getElem_range]

theorem statusPage_field (d : Dev) : ∀ x ∈ placed 0x200 (pageFields d), ((statusPage d).drop x.1).take x.2.1 = leBytes x.2.1 x.2.2 := by
  rw [statusPage_eq]
  exact fieldBytes_placed (rings_length d)

/-- Settles O39: a boundary and a service instant are their steps in order; the counter, overruns, a service, the fetch and the page
each have their own lemma. -/
theorem boundariesAndServiceInstantsFollowTheirOrder : Obligations.BoundariesAndServiceInstantsFollowTheirOrder := by
  unfold Obligations.BoundariesAndServiceInstantsFollowTheirOrder
  refine ⟨fun s b => ⟨fun run edge awake => ⟨makes_of (·.boundary b) rfl ?_, nextTick_of_no_realign, fun m => nextTick_of_marker,
    nextTick_of_no_marker, nextTick_phase _, fun ready => by rw [ready]; exact judgeEmission_in_time _⟩,
    fun h => makes_of (·.boundary b) rfl (boundary_off h b)⟩,
    fun s b => ⟨fun h => makes_of (·.serviceInstant b) rfl (serviceInstant_of_running h b), fun h => makes_of (·.serviceInstant b) rfl ?_⟩,
    fun d run => ?_, fun d b ha hw hs hf hl => ?_, fetchRounds_succ, fun f r => ⟨fetchOne_passes, fun hl hs hr ht hp hb => ?_⟩,
    fun d => ⟨statusPage_length d, fun r hr => statusPage_ring d hr, statusPage_field d⟩⟩
  · exact if_neg (by simp [run, edge, awake])
  · exact if_neg (by simp [h])
  · obtain ⟨regs, grade, hdr, overruns⟩ := overrunLimit_keeps d.overrun
    rw [judgeEmission_late run]
    refine ⟨?_, ?_, fun en => ?_, ?_⟩
    · rw [fld_of_regs regs grade, overrun_count]
    · rw [overruns, overrun_top]
    · rw [hd_of_hdr hdr, overrun_event en]
    · rw [overrunLimit_hit, overrun_limit_kept, overrun_top]
  · extract_lets hre e p q n
    have page : e.writePage false = p := writePage_of_no_failure (d := e) hs
    have steps : d.service b = if (e.writePage false).vectors.flag R.HRE_CTL_POLL_EN then (e.writePage false).vectors.poll []
      else (e.writePage false).vectors := service_of_no_failure ha hw hf hl
    rw [steps, page, poll_of_no_failure]
  · have turn : HasTurn f r := ⟨hl, hs, hr, ht, hp, hb⟩
    exact ⟨turn.queue_full, turn.no_entry, turn.gives⟩

end Sys2Proof.Proofs
end

section
/-! SUPPORT. A mirrored write on an active goes to the standby (11 R457), which the statement on tasks leaves out. -/
namespace Sys2Proof.Proofs
open Sys2Proof.Machine Sys2Proof.Laws

/-! ## What the link carries -/

@[simp] theorem cvuCompute_tth (d : Dev) (k : Nat) (pre l : List Nat) : (d.cvuCompute k pre l).2.tth = d.tth := by
  unfold Dev.cvuCompute
  split
  · exact count_tth d _
  · rfl

@[simp] theorem frameHead_tth (d : Dev) (q : Nat) : (d.frameHead q).2.tth = d.tth := cvuCompute_tth (d.drew 1) 1 (leBytes 8 q) _

/-- A numbered frame makes the line one longer. -/
theorem tthSend_line_length (d : Dev) (f : FrameHead → Sent) : (d.tthSend f).tth.line.length = d.tth.line.length + 1 := by
  have line : (d.frameHead d.tth.txSeq).2.tth.line = d.tth.line := congrArg Tth.line (frameHead_tth d _)
  simp only [Dev.tthSend, line, List.length_append, List.length_singleton]

theorem tellReg_line_length {d : Dev} {a : Nat} (h : d.pairActive = true) (ha : mirroredReg a = true) (v : Word) :
    (d.tellReg a v).tth.line.length = d.tth.line.length + 1 := by
  simp only [Dev.tellReg, ha, Dev.tell, h, if_true]
  exact tthSend_line_length d _

/-! ## FMN_SWTICK on an active (R456, R457) -/

theorem exec_fmnSwtickWrite (v : Word) (s : State) :
    exec (.fmnSwtickWrite v) s = s.act (fun d => d.ifOpen fmnBase (·.fromHost R.FMN_SWTICK_TICK.addr v (·.fmnSwtick v))) := rfl

/-- On an active with a standby, a write of 0 to FMN_SWTICK does nothing but send the write. -/
theorem makes_fmnSwtickWrite_zero {s : State} (hf : s.dev.opens fmnBase = true) (h : s.dev.pairActive = true) :
    Makes (.fmnSwtickWrite 0#32) s (s.dev.tellReg R.FMN_SWTICK_TICK.addr 0#32) := by
  have taken : (s.dev.isStandby && mirroredReg R.FMN_SWTICK_TICK.addr) = false := by simp [not_standby_of_pairActive h]
  refine makes_of _ (exec_fmnSwtickWrite 0#32 s) ?_
  simp [Dev.ifOpen, hf, fromHost_taken taken, Dev.fmnSwtick, bitAt]

/-- An active in RUN with a standby present. -/
def activeWithStandby : State := ⟨[], Sys2Proof.Tests.pairAs .active Sys2Proof.Tests.linked .run⟩

theorem activeWithStandby_open : activeWithStandby.dev.opens fmnBase = true ∧ activeWithStandby.dev.pairActive = true := by decide +kernel

/-- Refutes O49: on an active with a standby present, a write to FMN_SWTICK with bit 0 clear sends a frame, so it is not without
effect as the sixth clause claims (FMN_SWTICK is mirrored, R457). -/
theorem not_tasksAreReleasedAndDelivered : ¬ Obligations.TasksAreReleasedAndDelivered := by
  unfold Obligations.TasksAreReleasedAndDelivered
  intro ⟨_, _, _, _, _, writes, _⟩
  obtain ⟨hopen, hactive⟩ := activeWithStandby_open
  have nothing := (writes activeWithStandby 0#32 0).1 (.inr (.inr (by decide)))
  have sent := makes_fmnSwtickWrite_zero hopen hactive
  have same : activeWithStandby.dev.tth = (activeWithStandby.dev.tellReg R.FMN_SWTICK_TICK.addr 0#32).tth := by
    simpa only [vector0_tth] using congrArg Dev.tth (makes_vector0 nothing sent)
  have longer := tellReg_line_length hactive (show mirroredReg R.FMN_SWTICK_TICK.addr = true by decide) 0#32
  rw [← same] at longer
  omega

end Sys2Proof.Proofs
end

section
/-! SUPPORT. Vector 0 follows TOP's enabled events after every command (R50, R56, R95). -/
namespace Sys2Proof.Proofs
open Sys2Proof.Machine Sys2Proof.Laws

/-! ## Messages (R56, R94, R95) -/

/-- The address and the data of a vector's message. -/
def vectorAddr (d : Dev) (v : Nat) : Nat := d.fld (R.MSIX_ADDR_LO_ADDR_LO v) * 4 + d.fld (R.MSIX_ADDR_HI_ADDR_HI v) * 2 ^ 32
def vectorData (d : Dev) (v : Nat) : List Nat := leBytes 4 (d.fld (R.MSIX_DATA_DATA v))

theorem msix_of_disabled {d : Dev} (h : d.cfg.msixEnable = false) (v : Nat) : d.msix v = d := by simp [Dev.msix, h]

theorem msix_of_unmasked {d : Dev} {v : Nat} (h : d.cfg.msixEnable = true) (hf : d.cfg.funcMask = false) (hv : d.flag (R.MSIX_CTRL_MASK v) = false) :
    d.msix v = { d with hostMem := memWrite d.hostMem (vectorAddr d v % 2 ^ 64) (vectorData d v) } := by
  simp [Dev.msix, h, hf, hv, Dev.hostWrite, vectorAddr, vectorData]

theorem msix_of_masked {d : Dev} {v : Nat} (h : d.cfg.msixEnable = true) (hm : d.cfg.funcMask = true ∨ d.flag (R.MSIX_CTRL_MASK v) = true) :
    d.msix v = d.setFld (R.MSIX_PBA_PENDING (v / 32)) (setBits (d.fld (R.MSIX_PBA_PENDING (v / 32))) (v % 32) 1 1) := by
  have masked : (d.cfg.funcMask || d.flag (R.MSIX_CTRL_MASK v)) = true := by simpa using hm
  simp [Dev.msix, h, masked]

/-! ## The pending bits -/

theorem bitAt_eq_bits (n i : Nat) : bitAt n i = (bits n i 1 == 1) := by simp [bitAt, bits]

theorem bitAt_setBits_self (n i b : Nat) : bitAt (setBits n i 1 b) i = (b % 2 == 1) := by simp [bitAt_eq_bits]

theorem bitAt_setBits_ne (n b : Nat) {i j : Nat} (h : j ≠ i) : bitAt (setBits n i 1 b) j = bitAt n j := by
  rw [bitAt_eq_bits, bitAt_eq_bits, bits_setBits_ne _ _ _ _ _ _ (by omega)]

/-- A word of the pending bits with one of them replaced. -/
theorem fld_setPending (d : Dev) (w i b : Nat) (h : i < 32) : (d.setFld (R.MSIX_PBA_PENDING w) (setBits (d.fld (R.MSIX_PBA_PENDING w)) i 1 b)).fld
    (R.MSIX_PBA_PENDING w) = setBits (d.fld (R.MSIX_PBA_PENDING w)) i 1 b :=
  (fld_setFld_self d (R.MSIX_PBA_PENDING w) _ (by simp [R.MSIX_PBA_PENDING])).trans
    (Nat.mod_eq_of_lt (setBits_lt _ _ _ _ 32 (fld_lt d (R.MSIX_PBA_PENDING w)) (by omega)))

/-- A masked vector is marked pending. -/
theorem pending_of_masked {d : Dev} {v : Nat} (h : d.cfg.msixEnable = true) (hm : d.cfg.funcMask = true ∨ d.flag (R.MSIX_CTRL_MASK v) = true) :
    bitAt ((d.msix v).fld (R.MSIX_PBA_PENDING (v / 32))) (v % 32) = true := by
  rw [msix_of_masked h hm, fld_setPending _ _ _ _ (by omega), bitAt_setBits_self]
  rfl

/-- Raising an event of an enabled unit sets its bit. -/
theorem bit_raise {d : Dev} {f : Flag} (h : d.effEn f.base = true) (hb : f.bit < 32) :
    bitAt ((d.raise f).hd f.base).event.toNat f.bit = true := by
  rw [raise_event d f h]
  exact bitAt_or_bit _ hb

/-! ## What every command does last (R95) -/

/-- The part with the condition of vector 0 remembered as it stands. -/
def vec0Noted (d : Dev) : Dev := { d with hre := { d.hre with vec0 := d.topEvents != 0 } }

theorem vector0_of_quiet {d : Dev} (h : d.hre.vec0 = true ∨ d.topEvents = 0#32) : d.vector0 = vec0Noted d := by
  refine if_neg ?_
  rcases h with h | h <;> simp [h]

theorem vector0_of_rise {d : Dev} (h : d.hre.vec0 = false) (he : d.topEvents ≠ 0#32) : d.vector0 = (vec0Noted d).msix 0 :=
  if_pos (by simpa [h] using he)

@[simp] theorem vector0_vec0 (d : Dev) : d.vector0.hre.vec0 = (d.topEvents != 0) := by
  unfold Dev.vector0
  dsimp only
  split <;> simp

/-- A new condition sends the message of vector 0 where nothing masks it. -/
theorem vector0_sends {d : Dev} (new : d.hre.vec0 = false) (stands : d.topEvents ≠ 0#32) (on : d.cfg.msixEnable = true)
    (noMask : d.cfg.funcMask = false) (unmasked : d.flag (R.MSIX_CTRL_MASK 0) = false) :
    d.vector0 = { vec0Noted d with hostMem := memWrite d.hostMem (vectorAddr d 0 % 2 ^ 64) (vectorData d 0) } := by
  rw [vector0_of_rise new stands, msix_of_unmasked (d := vec0Noted d) on noMask unmasked]
  rfl

theorem topEvents_of_hdr {d e : Dev} (h : e.hdr = d.hdr) : e.topEvents = d.topEvents := by
  simp only [Dev.topEvents, Dev.eventWord, Dev.childBit, Dev.ownEvents, Dev.effEn, Dev.hd, h]
  rfl

/-- A part with vector 0 brought up to date remembers the condition as it stands. -/
theorem vec0Current_vector0 (q : List Instr) (d : Dev) : State.vec0Current ⟨q, d.vector0⟩ := by
  rw [State.vec0Current, vector0_vec0, topEvents_of_hdr (vector0_hdr d)]

/-- Every command completes: its meaning acts on the part alone, and vector 0 follows. -/
theorem exists_makes (c : Instr) (s : State) : ∃ d : Dev, Makes c s d := by
  cases c <;> exact ⟨_, rfl⟩

/-- A step makes some part of the part, and vector 0 follows. -/
theorem step_vector0 (s : State) : ∃ (q : List Instr) (d : Dev), step s = .next ⟨q, d.vector0⟩ := by
  unfold step
  split
  · exact ⟨_, _, rfl⟩
  · next c rest _ =>
    obtain ⟨d, h⟩ := exists_makes c { s with pending := rest }
    exact ⟨_, d, h⟩

/-- Settles O5: whatever a step makes of the part, vector 0 is brought up to date last. -/
theorem vector0ConditionIsKeptByEveryStep : Obligations.Vector0ConditionIsKeptByEveryStep := by
  unfold Obligations.Vector0ConditionIsKeptByEveryStep
  intro s t _ h
  obtain ⟨q, d, made⟩ := step_vector0 s
  obtain rfl : _ = t := Host.Outcome.next.inj (made.symm.trans h)
  exact vec0Current_vector0 q d

/-! ## TICK_LOAD outside SETUP (R23) -/

/-- An enabled event of TOP that stands drives vector 0. -/
theorem topEvents_of_event {d : Dev} {i : Nat} (he : bitAt (d.hd topBase).event.toNat i = true)
    (hen : bitAt (d.hd topBase).eventEn.toNat i = true) : d.topEvents ≠ 0#32 := by
  have testBit_bitAt (n : Nat) : bitAt n i = n.testBit i := by simp [bitAt, Nat.testBit, Nat.shiftRight_eq_div_pow, Nat.and_comm 1]
  rw [testBit_bitAt] at he hen
  intro none
  have bit := congrArg (fun w : Word => w.toNat.testBit i) none
  simp [Dev.topEvents, Dev.eventWord, he, hen] at bit

theorem tickLoad_refused {d : Dev} {v : Word} (load : bitAt v.toNat 31 = true) (other : d.top.st ≠ .setup) :
    d.tickLoad v = d.raise F.topCfgRefused := by
  rw [Dev.tickLoad, if_pos load, if_neg (fun x => other x.1)]

/-- Settles O6: a command's effect is known up to vector 0, which sends or marks pending on the rise alone. -/
theorem vector0SendsOnceOnTheRise : Obligations.Vector0SendsOnceOnTheRise := by
  unfold Obligations.Vector0SendsOnceOnTheRise
  refine ⟨exists_makes, fun c s d made => ⟨d.vector0, made, by simp, by simp, by simp, by simp, by simp, by simp, ?_, ?_, ?_⟩, ?_⟩
  · intro h
    by_cases quiet : d.hre.vec0 = true ∨ d.topEvents = 0#32
    · rw [vector0_of_quiet quiet]
      exact ⟨rfl, rfl⟩
    · obtain ⟨new, stands⟩ : d.hre.vec0 = false ∧ d.topEvents ≠ 0#32 := by simpa using quiet
      have off : d.cfg.msixEnable = false := by simpa [new, stands] using h
      rw [vector0_of_rise new stands, msix_of_disabled (d := vec0Noted d) off]
      exact ⟨rfl, rfl⟩
  · intro new stands on noMask unmasked
    rw [vector0_sends new stands on noMask unmasked]
    exact ⟨rfl, rfl⟩
  · intro new stands on masked
    have pending := pending_of_masked (d := vec0Noted d) on masked
    rw [← vector0_of_rise new stands] at pending
    refine ⟨?_, pending⟩
    rw [vector0_of_rise new stands, msix_of_masked (d := vec0Noted d) on masked]
    rfl
  · intro s v load other new en enabled on noMask unmasked
    let d := s.dev.raise F.topCfgRefused
    have made : Makes (.tickLoad v) s d := makes_tickLoad (tickLoad_refused load other)
    have event : bitAt (d.hd topBase).event.toNat F.topCfgRefused.bit = true := bit_raise (f := F.topCfgRefused) en (by decide)
    have stands : d.topEvents ≠ 0#32 := by
      refine topEvents_of_event event ?_
      rw [show (d.hd topBase).eventEn = _ from congrArg Hdr.eventEn (raise_hd s.dev F.topCfgRefused topBase)]
      exact enabled
    have old : d.hre = s.dev.hre ∧ d.cfg = s.dev.cfg := ⟨raise_hre .., raise_cfg ..⟩
    have sent : d.vector0 = _ := vector0_sends (by rw [old.1, new]) stands (by rw [old.2, on]) (by rw [old.2, noMask]) (by simp [d, unmasked])
    refine ⟨d.vector0, made, ?_, ?_, ?_⟩
    · rw [sent]
      exact raise_regs ..
    · simpa using stands
    · rw [sent]
      simp [d, vectorAddr, vectorData]

end Sys2Proof.Proofs
end

section
/-! SUPPORT. Ring entries, vectors of rings, MSI-X unmasking and event records (02 R61, R90, R92 to R95). -/
namespace Sys2Proof.Proofs
open Sys2Proof.Machine Sys2Proof.Laws

/-! ## Rings -/

@[simp] theorem ring_setRing_self (d : Dev) (r : Nat) (x : RingS) : (d.setRing r x).ring r = x := by simp [Dev.ring, Dev.setRing]

theorem ring_setRing_ne (d : Dev) {q r : Nat} (x : RingS) (h : q ≠ r) : (d.setRing r x).ring q = d.ring q := by
  simp [Dev.ring, Dev.setRing, smGet_smSet_ne _ _ _ h]

@[simp] theorem fld_setRing (d : Dev) (r : Nat) (x : RingS) (f : Field) : (d.setRing r x).fld f = d.fld f := fld_of_regs rfl rfl f

/-- What a ring holds after an entry has been written: PHASE flips where the new index is slot 0 (R90). -/
def ringWritten (d : Dev) (r : Nat) : RingS :=
  { d.ring r with phase := if (d.fld (R.RING_DEV_IDX_DEV_IDX r) + 1) % 2 ^ 32 % d.ringSize r = 0 then !(d.ring r).phase else (d.ring r).phase,
                  unrep := (d.ring r).unrep + 1 }

theorem ringPut_eq (d : Dev) (r : Nat) (body : List Nat) : d.ringPut r body =
    ((d.hostWrite (d.ringAddr r (d.fld (R.RING_DEV_IDX_DEV_IDX r))) (body ++ [b2n (d.ring r).phase])).setFld (R.RING_DEV_IDX_DEV_IDX r)
      ((d.fld (R.RING_DEV_IDX_DEV_IDX r) + 1) % 2 ^ 32)).setRing r (ringWritten d r) := rfl

theorem ringPut_index (d : Dev) (r : Nat) (body : List Nat) :
    (d.ringPut r body).fld (R.RING_DEV_IDX_DEV_IDX r) = (d.fld (R.RING_DEV_IDX_DEV_IDX r) + 1) % 2 ^ 32 := by
  rw [ringPut_eq, fld_setRing]
  exact (fld_setFld_self _ (R.RING_DEV_IDX_DEV_IDX r) _ (by simp [R.RING_DEV_IDX_DEV_IDX])).trans (Nat.mod_mod ..)

theorem ringPut_ring_self (d : Dev) (r : Nat) (body : List Nat) : (d.ringPut r body).ring r = ringWritten d r := by
  rw [ringPut_eq, ring_setRing_self]

theorem ringPut_ring_ne (d : Dev) {q r : Nat} (body : List Nat) (h : q ≠ r) : (d.ringPut r body).ring q = d.ring q := by
  rw [ringPut_eq, ring_setRing_ne _ _ h]
  rfl

theorem ringPut_reg_ne (d : Dev) {a r : Nat} (body : List Nat) (h : a ≠ (R.RING_DEV_IDX_DEV_IDX r).addr) :
    (d.ringPut r body).reg a = d.reg a := by
  rw [ringPut_eq, reg_of_regs (setRing_regs ..) (setRing_grade ..), reg_setFld_ne _ _ _ h]
  rfl

theorem ringDrop_count (d : Dev) (r : Nat) : (d.ringDrop r).fld (R.RING_DROP_COUNT r) = min (d.fld (R.RING_DROP_COUNT r) + 1) 0xFFFF := by
  rw [Dev.ringDrop, fld_raise]
  exact fld_addFld_self d (R.RING_DROP_COUNT r) 1 (by simp [R.RING_DROP_COUNT])

theorem ringDrop_event {d : Dev} (h : d.effEn hreBase = true) (r : Nat) : bitAt ((d.ringDrop r).hd hreBase).event.toNat 3 = true :=
  bit_raise (f := F.evtLost) (by rw [effEn_of_hdr (count_hdr ..)]; exact h) (by decide)

/-! ## Vectors of rings (R94) -/

theorem vectorDue_iff (d : Dev) (r : Nat) : vectorDue d r = true ↔ d.fld (R.RING_VEC_VEC r) ≠ 0 ∧ 0 < (d.ring r).unrep ∧
    (max 1 (d.fld (R.RING_VEC_COAL_COUNT r)) ≤ (d.ring r).unrep ∨ d.fld (R.RING_VEC_COAL_TICKS r) ≤ (d.ring r).age) := by
  simp [vectorDue, and_assoc]

/-- A ring's entries have been reported. -/
def reported (d : Dev) (r : Nat) : Dev := d.setRing r { d.ring r with unrep := 0, age := 0 }

theorem foldl_reported_regs (l : List Nat) (d : Dev) : (l.foldl reported d).regs = d.regs ∧ (l.foldl reported d).grade = d.grade :=
  ⟨foldl_keeps Dev.regs (fun _ _ => by rfl) .., foldl_keeps Dev.grade (fun _ _ => by rfl) ..⟩

theorem foldl_reported_frame (l : List Nat) (d : Dev) :
    { l.foldl reported d with hre := { (l.foldl reported d).hre with rings := d.hre.rings } } = d :=
  foldl_keeps (fun e : Dev => { e with hre := { e.hre with rings := d.hre.rings } }) (fun _ _ => by rfl) l d

theorem foldl_reported_ring_of_not_mem {l : List Nat} {r : Nat} (h : r ∉ l) (d : Dev) : (l.foldl reported d).ring r = d.ring r := by
  induction l generalizing d with
  | nil => rfl
  | cons q l ih =>
    simp only [List.mem_cons, not_or] at h
    rw [List.foldl_cons, ih h.2, reported, ring_setRing_ne _ _ h.1]

theorem foldl_reported_ring_of_mem {l : List Nat} {r : Nat} (h : r ∈ l) (d : Dev) :
    (l.foldl reported d).ring r = { d.ring r with unrep := 0, age := 0 } := by
  induction l generalizing d with
  | nil => simp at h
  | cons q l ih =>
    rw [List.foldl_cons]
    by_cases hl : r ∈ l
    · rw [ih hl, reported]
      by_cases hq : r = q
      · rw [hq, ring_setRing_self]
      · rw [ring_setRing_ne _ _ hq]
    · obtain rfl : r = q := by simpa [hl] using h
      rw [foldl_reported_ring_of_not_mem hl, reported, ring_setRing_self]

theorem vectors_eq (d : Dev) : d.vectors = ((((List.range 64).filter (vectorDue d)).map (fun r => d.fld (R.RING_VEC_VEC r))).eraseDups).foldl
    Dev.msix (((List.range 64).filter (vectorDue d)).foldl reported d) := by
  obtain ⟨regs, grade⟩ := foldl_reported_regs ((List.range 64).filter (vectorDue d)) d
  have same : (fun r => (((List.range 64).filter (vectorDue d)).foldl reported d).fld (R.RING_VEC_VEC r)) =
      (fun r => d.fld (R.RING_VEC_VEC r)) := funext (fun r => fld_of_regs regs grade _)
  rw [← same]
  rfl

/-! ## MSI-X (R56, R95) -/

/-- A field of another register keeps its value. -/
theorem fld_setFld_of_addr (d : Dev) {f g : Field} (v : Nat) (h : g.addr ≠ f.addr) : (d.setFld f v).fld g = d.fld g := by
  simp [Dev.fld, reg_setFld_ne d f v h]

/-- A pending vector leaves the other vectors' pending bits alone. -/
theorem pending_ne {d : Dev} {v w : Nat} (h : d.cfg.msixEnable = true) (hm : d.cfg.funcMask = true ∨ d.flag (R.MSIX_CTRL_MASK v) = true)
    (hw : w ≠ v) : bitAt ((d.msix v).fld (R.MSIX_PBA_PENDING (w / 32))) (w % 32) = bitAt (d.fld (R.MSIX_PBA_PENDING (w / 32))) (w % 32) := by
  rw [msix_of_masked h hm]
  by_cases word : w / 32 = v / 32
  · rw [word, fld_setPending _ _ _ _ (by omega), bitAt_setBits_ne _ _ (by omega)]
  · refine congrArg (bitAt · (w % 32)) (fld_setFld_of_addr d _ ?_)
    simp only [R.MSIX_PBA_PENDING]
    omega

/-- A masked vector changes its word of the pending bits alone. -/
theorem msix_of_masked_frame {d : Dev} {v : Nat} (h : d.cfg.msixEnable = true) (hm : d.cfg.funcMask = true ∨ d.flag (R.MSIX_CTRL_MASK v) = true) :
    { d.msix v with regs := d.regs } = d ∧ ∀ a, a ≠ (R.MSIX_PBA_PENDING (v / 32)).addr → (d.msix v).reg a = d.reg a := by
  rw [msix_of_masked h hm]
  exact ⟨rfl, fun a ha => reg_setFld_ne d _ _ ha⟩

/-- The part with vector `v` unmasked. -/
def unmasked (d : Dev) (v : Nat) : Dev := d.setFld (R.MSIX_CTRL_MASK v) 0

theorem unmasked_flag (d : Dev) (v : Nat) : (unmasked d v).flag (R.MSIX_CTRL_MASK v) = false := by
  have zero : (unmasked d v).fld (R.MSIX_CTRL_MASK v) = 0 := (fld_setFld_self d (R.MSIX_CTRL_MASK v) 0 (by simp [R.MSIX_CTRL_MASK])).trans (Nat.zero_mod _)
  simp [Dev.flag, zero]

/-- A vector's mask lies apart from its pending bit, its address and its data. -/
theorem maskAddr_ne (v : Nat) : (R.MSIX_CTRL_MASK v).addr ≠ (R.MSIX_PBA_PENDING (v / 32)).addr ∧
    (R.MSIX_CTRL_MASK v).addr ≠ (R.MSIX_ADDR_LO_ADDR_LO v).addr ∧ (R.MSIX_CTRL_MASK v).addr ≠ (R.MSIX_ADDR_HI_ADDR_HI v).addr ∧
    (R.MSIX_CTRL_MASK v).addr ≠ (R.MSIX_DATA_DATA v).addr := by
  simp only [R.MSIX_CTRL_MASK, R.MSIX_PBA_PENDING, R.MSIX_ADDR_LO_ADDR_LO, R.MSIX_ADDR_HI_ADDR_HI, R.MSIX_DATA_DATA]
  omega

/-- A vector's pending bit lies apart from its address and its data. -/
theorem pendingAddr_ne {v : Nat} (h : v < 64) : (R.MSIX_PBA_PENDING (v / 32)).addr ≠ (R.MSIX_ADDR_LO_ADDR_LO v).addr ∧
    (R.MSIX_PBA_PENDING (v / 32)).addr ≠ (R.MSIX_ADDR_HI_ADDR_HI v).addr ∧ (R.MSIX_PBA_PENDING (v / 32)).addr ≠ (R.MSIX_DATA_DATA v).addr := by
  simp only [R.MSIX_PBA_PENDING, R.MSIX_ADDR_LO_ADDR_LO, R.MSIX_ADDR_HI_ADDR_HI, R.MSIX_DATA_DATA]
  omega

/-- The vector's pending bit is cleared. -/
def pendingCleared (d : Dev) (v : Nat) : Dev :=
  d.setFld (R.MSIX_PBA_PENDING (v / 32)) (setBits (d.fld (R.MSIX_PBA_PENDING (v / 32))) (v % 32) 1 0)

/-- The message of a vector whose pending bit is cleared is as it was before the unmasking. -/
theorem pendingCleared_message {v : Nat} (h : v < 64) (d : Dev) : vectorAddr (pendingCleared (unmasked d v) v) v = vectorAddr d v ∧
    vectorData (pendingCleared (unmasked d v) v) v = vectorData d v := by
  obtain ⟨_, lo, hi, data⟩ := maskAddr_ne v
  obtain ⟨lo', hi', data'⟩ := pendingAddr_ne h
  simp only [vectorAddr, vectorData, pendingCleared, unmasked, fld_setFld_of_addr _ _ lo.symm, fld_setFld_of_addr _ _ hi.symm,
    fld_setFld_of_addr _ _ data.symm, fld_setFld_of_addr _ _ lo'.symm, fld_setFld_of_addr _ _ hi'.symm, fld_setFld_of_addr _ _ data'.symm, and_self]

theorem unmasked_pending (d : Dev) (v : Nat) : (unmasked d v).fld (R.MSIX_PBA_PENDING (v / 32)) = d.fld (R.MSIX_PBA_PENDING (v / 32)) :=
  fld_setFld_of_addr d _ (maskAddr_ne v).1.symm

theorem pendingCleared_flag (d : Dev) (v : Nat) : (pendingCleared (unmasked d v) v).flag (R.MSIX_CTRL_MASK v) = false := by
  rw [← unmasked_flag d v]
  exact congrArg (· == 1) (fld_setFld_of_addr _ _ (maskAddr_ne v).1)

/-- Vector `v` is unmasked while its message is pending and nothing else holds it back (R95). -/
def sendsPending (d : Dev) (v : Nat) : Prop :=
  bitAt (d.fld (R.MSIX_PBA_PENDING (v / 32))) (v % 32) = true ∧ d.cfg.msixEnable = true ∧ d.cfg.funcMask = false

theorem msixUnmask_eq (d : Dev) (v : Nat) : d.msixUnmask v =
    if bitAt ((unmasked d v).fld (R.MSIX_PBA_PENDING (v / 32))) (v % 32) && d.cfg.msixEnable && !d.cfg.funcMask then
      (pendingCleared (unmasked d v) v).msix v else unmasked d v := rfl

theorem msixUnmask_of_not_sends {d : Dev} {v : Nat} (h : ¬ sendsPending d v) : d.msixUnmask v = unmasked d v := by
  rw [msixUnmask_eq, unmasked_pending]
  exact if_neg (by simpa [sendsPending, and_assoc] using h)

theorem msixUnmask_of_sends {d : Dev} {v : Nat} (hv : v < 64) (h : sendsPending d v) : d.msixUnmask v =
    { pendingCleared (unmasked d v) v with hostMem := memWrite d.hostMem (vectorAddr d v % 2 ^ 64) (vectorData d v) } := by
  obtain ⟨addr, data⟩ := pendingCleared_message hv d
  rw [msixUnmask_eq, unmasked_pending, if_pos (by simpa [sendsPending, and_assoc] using h),
    msix_of_unmasked (d := pendingCleared (unmasked d v) v) h.2.1 h.2.2 (pendingCleared_flag d v), addr, data]
  rfl

/-! ## Event records (R92, R93) -/

/-- A record after its unit: value and number of bytes, piece by piece. -/
def recordFields (d : Dev) (u : UnitRow) (new : Word) : List (Nat × Nat) :=
  [(4, new.toNat), (6, d.top.tick), (2, min d.hre.evtLost 0xFFFF), (4, (d.healthWord u.base).toNat), (4, d.tbNs 0), (39, 0)]

theorem eventBody_eq (d : Dev) (u : UnitRow) (new : Word) :
    eventBody d u new = (leBytes 2 u.code ++ [u.inst, 0]) ++ fieldBytes (recordFields d u new) := by
  simp only [eventBody, fieldBytes, recordFields, List.flatMap_cons, List.flatMap_nil, List.append_nil, List.append_assoc, leBytes_zero]

theorem eventBody_field (d : Dev) (u : UnitRow) (new : Word) :
    ∀ x ∈ (0, 2, u.code) :: placed 4 (recordFields d u new), ((eventBody d u new).drop x.1).take x.2.1 = leBytes x.2.1 x.2.2 := by
  rw [eventBody_eq, List.forall_mem_cons]
  exact ⟨List.take_left' (leBytes_length ..), fieldBytes_placed (by simp)⟩

theorem eventBody_length (d : Dev) (u : UnitRow) (new : Word) : (eventBody d u new).length = 63 := by
  simp [eventBody_eq, fieldBytes, recordFields]

/-- A record is lost. -/
def recordLost (d : Dev) : Dev := { d with hre := { d.hre with evtLost := d.hre.evtLost + 1 } }

section
variable {d : Dev} {r : Nat} (u : UnitRow) (new : Word) (hr : d.fld R.HRE_EVT_RING = r)
include hr

theorem eventRecord_of_type (h : d.ringType r ≠ 2) : d.eventRecord u new = recordLost (d.raise F.evtLost) := by
  subst hr
  exact if_pos h

theorem eventRecord_of_full (ht : d.ringType r = 2) (h : d.ringLive r = false ∨ d.ringFree r = 0) :
    d.eventRecord u new = recordLost (d.ringDrop r) := by
  subst hr
  exact (if_neg (not_not.2 ht)).trans (if_neg (by rcases h with h | h <;> simp [h]))

theorem eventRecord_of_room (ht : d.ringType r = 2) (hl : d.ringLive r = true) (hf : 0 < d.ringFree r) : d.eventRecord u new =
    { d.ringPut r (eventBody d u new) with hre := { (d.ringPut r (eventBody d u new)).hre with evtLost := 0 } } := by
  subst hr
  exact (if_neg (not_not.2 ht)).trans (if_pos (by simp [hl, hf]))

end

/-- What is new of every listed unit is forgotten. -/
def freshForgotten (d : Dev) (l : List (Nat × Hdr)) : Dev := l.foldl (fun e x => e.setHd x.1 { e.hd x.1 with fresh := 0 }) d

theorem unitAt_base {b : Nat} {u : UnitRow} (h : unitAt b = some u) : u.base = b := by
  simpa using List.find?_some h

/-- Units with something to report, in ascending address. -/
theorem reporting_ascending {l : List (Nat × Hdr)} (h : l.Pairwise (fun a b => a.1 < b.1)) (p : UnitRow → Bool) :
    ((l.filterMap (fun x => unitAt x.1)).filter p).Pairwise (fun a b => a.base < b.base) := by
  refine (List.Pairwise.filterMap (fun x : Nat × Hdr => unitAt x.1) (fun a b hab u hu v hv => ?_) h).filter p
  rw [unitAt_base hu, unitAt_base hv]
  exact hab

/-- A header that has been set is the listed one, or is listed as before. -/
theorem mem_smSet {α : Type} [DecidableEq α] {d : Nat → α} {m : SMap α} {k : Nat} {v : α} {e : Nat × α} (h : e ∈ smSet d m k v) :
    e = (k, v) ∨ e ∈ m ∧ e.1 ≠ k := by
  have rest {e : Nat × α} (h : e ∈ m.filter (fun e => e.1 != k)) : e ∈ m ∧ e.1 ≠ k := by simpa using h
  unfold smSet at h
  dsimp only at h
  split at h
  · exact .inr (rest h)
  · exact (mem_smInsert k v _ e h).imp_right rest

theorem freshForgotten_fresh (l : List (Nat × Hdr)) (d : Dev) (h : ∀ x ∈ d.hdr, x.2.fresh = 0 ∨ x.1 ∈ l.map Prod.fst) :
    ∀ x ∈ (freshForgotten d l).hdr, x.2.fresh = 0 := by
  induction l generalizing d with
  | nil => exact fun x hx => (h x hx).resolve_right (by simp)
  | cons y l ih =>
    refine ih _ (fun x hx => ?_)
    rcases mem_smSet hx with rfl | ⟨old, other⟩
    · exact .inl rfl
    · simpa [other] using h x old

theorem eventRecords_eq (d : Dev) : d.eventRecords =
    if (d.flag R.HRE_EVT_EN && d.awake && d.works hreBase) = true then
      ((d.hdr.filterMap (fun x => unitAt x.1)).filter (fun u => d.effEn u.base && d.freshBits u.base != 0)).foldl
        (fun e u => e.eventRecord u (d.freshBits u.base)) (freshForgotten d d.hdr)
    else freshForgotten d d.hdr := by
  simp only [Dev.eventRecords, List.foldl_map, freshForgotten]

/-- Settles O20: each part has its own lemma. -/
theorem ringEntriesAndVectorsFollowR90AndR94 : Obligations.RingEntriesAndVectorsFollowR90AndR94 := by
  unfold Obligations.RingEntriesAndVectorsFollowR90AndR94
  refine ⟨fun d r body _ _ => ⟨rfl, ringPut_index d r body, ?_, ?_, fun q => ringPut_ring_ne d body, fun a => ringPut_reg_ne d body,
      ringDrop_count d r, fun en => ringDrop_event en r, ?_, ?_⟩,
    ⟨fun d v _ => ⟨fun off => msix_of_disabled off v, msix_of_unmasked, fun on masked => ?_⟩, fun s => ⟨fun awake works => ?_, fun idle => ?_⟩,
      vectorDue_iff, fun s v => ⟨fun closed => ?_, fun opens => ⟨unmasked_flag s.dev v, fun quiet => ?_, fun sends => ?_⟩⟩⟩,
    fun d u new => ⟨eventRecord_of_type u new rfl, eventRecord_of_full u new rfl, eventRecord_of_room u new rfl, eventBody_length d u new,
      eventBody_field d u new, ?_, ?_⟩,
    fun d => ⟨eventRecords_eq d, fun rising => ⟨reporting_ascending rising _, freshForgotten_fresh d.hdr d (fun x hx => ?_)⟩, fun b => rfl⟩⟩
  · rw [ringPut_ring_self]; rfl
  · rw [ringPut_ring_self]; rfl
  · simp [Dev.ringDrop]
  · simp [Dev.ringDrop]
  · obtain ⟨frame, regs⟩ := msix_of_masked_frame on masked
    exact ⟨pending_of_masked on masked, frame, regs, fun w _ => pending_ne on masked⟩
  · refine ⟨_, makes_of _ rfl ((if_pos (by simp [awake, works])).trans (vectors_eq s.dev)), fun r hr => foldl_reported_ring_of_mem hr s.dev,
      fun r hr => foldl_reported_ring_of_not_mem hr s.dev, foldl_reported_frame _ s.dev⟩
  · exact makes_of _ rfl (if_neg (by rcases idle with h | h <;> simp [h]))
  · exact makes_of _ rfl (if_neg (by simp [closed]))
  · exact makes_of _ rfl ((if_pos opens).trans (msixUnmask_of_not_sends quiet))
  · exact makes_of _ rfl ((if_pos opens).trans (msixUnmask_of_sends v.isLt sends))
  · simp [eventBody_eq]
  · simp [eventBody_eq, List.getElem?_append]
  · exact .inr (List.mem_map_of_mem hx)

end Sys2Proof.Proofs
end

section
/-! SUPPORT. Accesses through BAR2 and to undecoded addresses of BAR0 (02 R57 to R59, 16 R479, R481, 19 R531). -/
namespace Sys2Proof.Proofs
open Sys2Proof.Machine Sys2Proof.Laws

/-! ## The map of BAR2 (R531) -/

theorem bar2At_local {off : Nat} (h : off < 0x800000) : bar2At off = .local := if_pos h

theorem bar2At_staged {off : Nat} (h : 0xA00000 ≤ off) (hi : off < 0xC00000) : bar2At off = .stagedNode ((off - 0xA00000) / 4) := by
  rw [bar2At, if_neg (by omega), if_pos ⟨h, hi⟩]

theorem bar2At_hole {off : Nat} (h : 0xC00000 ≤ off ∧ off < 0x1000000 ∨ 0x5000000 ≤ off) : bar2At off = .hole := by
  rw [bar2At, if_neg (by omega), if_neg (by omega), if_pos h]

theorem bar2At_window {off : Nat} (h : 0x1000000 ≤ off) (hi : off < 0x3000000) : bar2At off = .window ((off - 0x1000000) / 4) := by
  rw [bar2At, if_neg (by omega), if_neg (by omega), if_neg (by omega), if_pos ⟨h, hi⟩]

/-- Where live tables lie, an offset reaches the first whose place holds it. -/
theorem bar2At_found {off : Nat} {e : Nat × Nat} (h : 0x800000 ≤ off ∧ off < 0xA00000 ∨ 0x3000000 ≤ off ∧ off < 0x5000000)
    (found : bar2Tables.find? (fun e => e.1 ≤ off && off < e.1 + tableSize e.2) = some e) : bar2At off = .table e.2 ((off - e.1) / 4) := by
  rw [bar2At, if_neg (by omega), if_neg (by omega), if_neg (by omega), if_neg (by omega), found]

/-- No two live tables overlap, and each lies where tables do. -/
theorem bar2Tables_places : bar2Tables.Pairwise (fun a b => a.1 + tableSize a.2 ≤ b.1 ∨ b.1 + tableSize b.2 ≤ a.1) ∧
    ∀ e ∈ bar2Tables, 0x800000 ≤ e.1 ∧ e.1 + tableSize e.2 ≤ 0xA00000 ∨ 0x3000000 ≤ e.1 ∧ e.1 + tableSize e.2 ≤ 0x5000000 := by
  decide

/-- Of places that do not overlap, the one that holds an offset is found. -/
theorem find_place {l : List (Nat × Nat)} (apart : l.Pairwise (fun a b => a.1 + tableSize a.2 ≤ b.1 ∨ b.1 + tableSize b.2 ≤ a.1))
    {e : Nat × Nat} (he : e ∈ l) {off : Nat} (lo : e.1 ≤ off) (hi : off < e.1 + tableSize e.2) :
    l.find? (fun e => e.1 ≤ off && off < e.1 + tableSize e.2) = some e := by
  induction l with
  | nil => simp at he
  | cons x l ih =>
    obtain ⟨hx, hl⟩ := List.pairwise_cons.1 apart
    rcases List.mem_cons.1 he with rfl | mem
    · simp [lo, hi]
    · have other := hx e mem
      rw [List.find?_cons_of_neg (by simp; omega)]
      exact ih hl mem

theorem bar2At_table {e : Nat × Nat} (he : e ∈ bar2Tables) {off : Nat} (lo : e.1 ≤ off) (hi : off < e.1 + tableSize e.2) :
    bar2At off = .table e.2 ((off - e.1) / 4) := by
  obtain ⟨apart, places⟩ := bar2Tables_places
  have place := places e he
  exact bar2At_found (by omega) (find_place apart he lo hi)

theorem bar2At_gap {off : Nat} (h : bar2At off = .gap) : 0x3000000 ≤ off ∧ off < 0x5000000 := by
  by_contra outside
  have other : bar2At off ≠ .gap := by
    by_cases h1 : off < 0x800000
    · simp [bar2At_local h1]
    by_cases h2 : off < 0xA00000
    · rw [bar2At_table (e := (0x800000, T.xptNode)) (by decide) (by simpa using h1) (by simpa [tableSize] using h2)]
      simp
    by_cases h3 : off < 0xC00000
    · simp [bar2At_staged (by omega) h3]
    by_cases h4 : 0x1000000 ≤ off ∧ off < 0x3000000
    · simp [bar2At_window h4.1 h4.2]
    · simp [bar2At_hole (off := off) (by omega)]
  exact other h

/-! ## Accesses -/

theorem exec_bar2Access (s : State) (write : Bool) (off : Nat) (v : Word) (tag : Nat) :
    exec (.bar2Access write off v tag) s = s.act (·.bar2 write off v tag) := rfl

theorem makes_bar2 {s : State} {write : Bool} {off tag : Nat} {v : Word} {d : Dev} (h : s.dev.bar2 write off v tag = d) :
    Makes (.bar2Access write off v tag) s d := makes_of _ (exec_bar2Access ..) h

theorem bar2_low {d : Dev} (h : d.boot.rstLow = true) (write : Bool) (off : Nat) (v : Word) (tag : Nat) : d.bar2 write off v tag = d :=
  if_pos h

theorem bar2_denied {d : Dev} (h : d.boot.rstLow = false) (hs : d.top.st ≠ .setup) (write : Bool) (off : Nat) (v : Word) (tag : Nat) :
    d.bar2 write off v tag = if write then d.raise F.bar2Denied else { d.raise F.bar2Denied with bus := ⟨0, false⟩ } := by
  simp [Dev.bar2, h, hs]

theorem bar2_setup {d : Dev} (h : d.boot.rstLow = false) (hs : d.top.st = .setup) {off : Nat} (ha : off % 4 = 0) (write : Bool) (v : Word)
    (tag : Nat) : d.bar2 write off v tag = if write then d.bar2Write off v tag else d.bar2Read off tag := by
  have word : off / 4 * 4 = off := by omega
  simp [Dev.bar2, h, hs, word]

theorem bar2_word (d : Dev) (write : Bool) (off : Nat) (v : Word) (tag : Nat) : d.bar2 write off v tag = d.bar2 write (off / 4 * 4) v tag := by
  have word : off / 4 * 4 / 4 * 4 = off / 4 * 4 := by omega
  simp only [Dev.bar2, word]

theorem exec_bar2Access_word (s : State) (write : Bool) (off : Nat) (v : Word) (tag : Nat) :
    exec (.bar2Access write off v tag) s = exec (.bar2Access write (off / 4 * 4) v tag) s := by
  rw [exec_bar2Access, exec_bar2Access, State.act, State.act, bar2_word]

section
variable {s : State} {off : Nat} (v : Word) (tag : Nat) (h : s.dev.boot.rstLow = false) (hs : s.dev.top.st = .setup) (ha : off % 4 = 0)
include h hs ha

theorem makes_bar2_read : Makes (.bar2Access false off v tag) s (s.dev.bar2Read off tag) := makes_bar2 (bar2_setup h hs ha false v tag)

theorem makes_bar2_write : Makes (.bar2Access true off v tag) s (s.dev.bar2Write off v tag) := makes_bar2 (bar2_setup h hs ha true v tag)

end

/-- The delay memory with word `i` written: the listed words stay in order. -/
def windowPut (l : List (Nat × Word)) (i : Nat) (v : Word) : List (Nat × Word) :=
  l.filter (fun e => decide (e.1 < i)) ++ (i, v) :: l.filter (fun e => decide (i < e.1))

theorem find_windowPut (l : List (Nat × Word)) (i : Nat) (v : Word) : (windowPut l i v).find? (fun x => x.1 == i) = some (i, v) := by
  rw [windowPut, List.find?_append, List.find?_eq_none.2 (by simp; omega)]
  simp

theorem filter_windowPut_ne (l : List (Nat × Word)) {i j : Nat} (v : Word) (h : j ≠ i) :
    (windowPut l i v).filter (fun x => x.1 == j) = l.filter (fun x => x.1 == j) := by
  have new : ((i, v).1 == j) = false := by simpa using h.symm
  rw [windowPut, List.filter_append, List.filter_cons_of_neg (by simp [new]), List.filter_filter, List.filter_filter]
  rcases Nat.lt_or_gt_of_ne h with below | above
  · have kept : l.filter (fun x => x.1 == j && decide (x.1 < i)) = l.filter (fun x => x.1 == j) := List.filter_congr (by simp; omega)
    have none : l.filter (fun x => x.1 == j && decide (i < x.1)) = [] := List.filter_eq_nil_iff.2 (by simp; omega)
    rw [kept, none, List.append_nil]
  · have none : l.filter (fun x => x.1 == j && decide (x.1 < i)) = [] := List.filter_eq_nil_iff.2 (by simp; omega)
    rw [none, List.nil_append]
    exact List.filter_congr (by simp; omega)

/-! ## Undecoded addresses of BAR0 (R57, R479) -/

theorem exec_undecodedAccess (write : Bool) (a tag : Nat) (s : State) : exec (.undecodedAccess write a tag) s =
    s.act (fun d => if decoded a || d.boot.rstLow then d else if write then d.writeWord tag a 0 15
      else { (d.readWord tag a).2.2 with bus := ⟨0, (d.readWord tag a).2.1⟩ }) := rfl

theorem makes_undecodedAccess {s : State} {a : Nat} (high : s.dev.boot.rstLow = false) (h : decoded a = false) (tag : Nat) :
    Makes (.undecodedAccess false a tag) s { s.dev.fabLog .decerr false 0 (tag % 256) (0x500000000 + a) with bus := ⟨0, true⟩ } ∧
      Makes (.undecodedAccess true a tag) s (s.dev.fabLog .decerr true 0 (tag % 256) (0x500000000 + a)) := by
  have taken : ¬ (decoded a || s.dev.boot.rstLow) = true := by simp [h, high]
  refine ⟨makes_of _ (exec_undecodedAccess false a tag s) ((if_neg taken).trans ?_), makes_of _ (exec_undecodedAccess true a tag s) ((if_neg taken).trans ?_)⟩
  · rw [readWord_undecoded h]
    rfl
  · rw [writeWord_undecoded h]
    rfl

/-- Settles O17: the map, then what an access does at each kind of place. -/
theorem bar2AndUndecodedAccessesFollowR57 : Obligations.Bar2AndUndecodedAccessesFollowR57 := by
  unfold Obligations.Bar2AndUndecodedAccessesFollowR57
  refine ⟨fun s write off v tag low => makes_bar2 (bar2_low low write off v tag),
    fun s off v tag high other => ⟨makes_bar2 (bar2_denied high other false off v tag), makes_bar2 (bar2_denied high other true off v tag)⟩,
    fun s off v tag high setup aligned => ?_, exec_bar2Access_word,
    fun off => ⟨bar2At_local, fun lo hi => ?_, bar2At_staged, fun lo hi => bar2At_hole (.inl ⟨lo, hi⟩), bar2At_window,
      fun lo => bar2At_hole (.inr lo), fun p hp lo hi => bar2At_table (List.mem_cons_of_mem _ hp) lo hi, bar2At_gap⟩,
    fun s a tag high undecoded => makes_undecodedAccess high undecoded tag⟩
  · have read := makes_bar2_read v tag high setup aligned
    have write := makes_bar2_write v tag high setup aligned
    refine ⟨fun h => ?_, fun t i h => ?_, fun i h => ?_, fun i h => ?_, fun h => ?_, fun h => ?_⟩
    all_goals simp only [Dev.bar2Read, Dev.bar2Write, h] at read write
    · exact ⟨read, write⟩
    · exact ⟨read, write⟩
    · exact ⟨read, write⟩
    · exact ⟨read, _, write, find_windowPut .., fun j => filter_windowPut_ne _ v, rfl⟩
    · exact ⟨read, write⟩
    · exact ⟨read, write⟩
  · exact bar2At_table (e := (0x800000, T.xptNode)) (by decide) lo hi

end Sys2Proof.Proofs
end

section
/-! SUPPORT. Urgent polls, halted rings and failures of host memory (02 R62, R67, R68, R97, R98). -/
namespace Sys2Proof.Proofs
open Sys2Proof.Machine Sys2Proof.Laws

/-! ## Urgent polls (R67, R68) -/

theorem exec_urgentPoll (s : State) : exec .urgentPoll s = s.act (fun d => d.ifOpen hreBase (·.urgentPoll)) := rfl

theorem makes_urgentPoll {s : State} (h : s.dev.opens hreBase = true) {d : Dev} (hd : s.dev.urgentPoll = d) : Makes .urgentPoll s d :=
  makes_of _ (exec_urgentPoll s) ((if_pos h).trans hd)

theorem urgentPoll_ignored {d : Dev} (h : d.works hreBase = false ∨ d.flag R.HRE_CTL_POLL_EN = false ∨ d.fld R.HRE_CTL_URGENT_MAX = 0 ∨
    d.hre.urgentWait = true) : d.urgentPoll = d := by
  refine if_pos ?_
  rcases h with h | h | h | h <;> simp [h]

section
variable {d : Dev} (works : d.works hreBase = true) (polls : d.flag R.HRE_CTL_POLL_EN = true) (most : d.fld R.HRE_CTL_URGENT_MAX ≠ 0)
  (new : d.hre.urgentWait = false)
include works polls most new

theorem urgentPoll_limited (h : d.fld R.HRE_CTL_URGENT_MAX ≤ d.hre.urgentRuns) : d.urgentPoll = d.raise F.urgentLimit :=
  (if_neg (by simp [works, polls, most, new])).trans (if_pos h)

theorem urgentPoll_waits (h : d.hre.urgentRuns < d.fld R.HRE_CTL_URGENT_MAX) :
    d.urgentPoll = { d with hre := { d.hre with urgentWait := true } } :=
  (if_neg (by simp [works, polls, most, new])).trans (if_neg (by omega))

end

theorem exec_urgentPollRun (b : Boundary) (s : State) : exec (.urgentPollRun b) s = s.act (·.urgentRun b) := rfl

/-- The part once the time and the host's stores that an urgent poll brings have passed. -/
def urgentStart (d : Dev) (b : Boundary) : Dev := (d.timePasses b.cycles).hostStores b.hostWrites

/-- The urgent poll itself: it waits no longer and counts for the tick. -/
def urgentPolled (d : Dev) (b : Boundary) : Dev :=
  { d with hre := { d.hre with urgentWait := false, urgentRuns := d.hre.urgentRuns + 1 } }.poll b.fails

theorem urgentRun_eq (d : Dev) (b : Boundary) : d.urgentRun b =
    if (urgentStart d b).hre.urgentWait && (urgentStart d b).awake && (urgentStart d b).works hreBase then
      if (urgentStart d b).flag R.HRE_CTL_POLL_EN && (urgentStart d b).fld R.HRE_CTL_URGENT_MAX != 0 then
        if b.pollLate then (urgentPolled (urgentStart d b) b).pollOverran else urgentPolled (urgentStart d b) b
      else { urgentStart d b with hre := { (urgentStart d b).hre with urgentWait := false } }
    else urgentStart d b := rfl

section
variable {d : Dev} {b : Boundary} (waits : (urgentStart d b).hre.urgentWait = true) (awake : (urgentStart d b).awake = true)
  (works : (urgentStart d b).works hreBase = true)
include waits awake works

theorem urgentRun_polls (polls : (urgentStart d b).flag R.HRE_CTL_POLL_EN = true) (most : (urgentStart d b).fld R.HRE_CTL_URGENT_MAX ≠ 0) :
    d.urgentRun b = if b.pollLate then (urgentPolled (urgentStart d b) b).pollOverran else urgentPolled (urgentStart d b) b := by
  rw [urgentRun_eq, if_pos (by simp [waits, awake, works]), if_pos (by simp [polls, most])]

theorem urgentRun_rests (h : (urgentStart d b).flag R.HRE_CTL_POLL_EN = false ∨ (urgentStart d b).fld R.HRE_CTL_URGENT_MAX = 0) :
    d.urgentRun b = { urgentStart d b with hre := { (urgentStart d b).hre with urgentWait := false } } := by
  rw [urgentRun_eq, if_pos (by simp [waits, awake, works]), if_neg (by rcases h with h | h <;> simp [h])]

end

/-! ## A ring halts (R62, R97) -/

/-- Address of a ring's configuration word. -/
def cfgAddr (r : Nat) : Nat := (R.RING_CFG_HALTED r).addr

theorem cfgAddr_inj {q r : Nat} (h : cfgAddr q = cfgAddr r) : q = r := by
  simp only [cfgAddr, R.RING_CFG_HALTED] at h
  omega

theorem haltRing_eq (d : Dev) (r c : Nat) :
    d.haltRing r c = ((d.setFld (R.RING_CFG_HALTED r) 1).setFld (R.RING_CFG_HALT_CAUSE r) c).raise F.ringHalt := rfl

theorem haltRing_halted (d : Dev) (r c : Nat) : (d.haltRing r c).fld (R.RING_CFG_HALTED r) = 1 := by
  rw [haltRing_eq, fld_raise, fld_setFld_ne _ _ _ _ (by simp [R.RING_CFG_HALT_CAUSE]) (.inr (.inl (by simp [R.RING_CFG_HALTED, R.RING_CFG_HALT_CAUSE])))]
  exact fld_setFld_self d (R.RING_CFG_HALTED r) 1 (by simp [R.RING_CFG_HALTED])

theorem haltRing_cause (d : Dev) (r : Nat) {c : Nat} (h : c < 16) : (d.haltRing r c).fld (R.RING_CFG_HALT_CAUSE r) = c := by
  rw [haltRing_eq, fld_raise]
  exact (fld_setFld_self _ (R.RING_CFG_HALT_CAUSE r) c (by simp [R.RING_CFG_HALT_CAUSE])).trans (Nat.mod_eq_of_lt h)

theorem haltRing_enable (d : Dev) (r c : Nat) : (d.haltRing r c).fld (R.RING_CFG_ENABLE r) = d.fld (R.RING_CFG_ENABLE r) := by
  rw [haltRing_eq, fld_raise, fld_setFld_ne _ _ _ _ (by simp [R.RING_CFG_HALT_CAUSE]) (.inr (.inl (by simp [R.RING_CFG_ENABLE, R.RING_CFG_HALT_CAUSE]))),
    fld_setFld_ne _ _ _ _ (by simp [R.RING_CFG_HALTED]) (.inr (.inl (by simp [R.RING_CFG_ENABLE, R.RING_CFG_HALTED])))]

theorem haltRing_reg_ne (d : Dev) {a r : Nat} (c : Nat) (h : a ≠ cfgAddr r) : (d.haltRing r c).reg a = d.reg a := by
  rw [haltRing_eq, reg_of_regs (raise_regs ..) (raise_grade ..), reg_setFld_ne _ _ _ (show a ≠ (R.RING_CFG_HALT_CAUSE r).addr from h),
    reg_setFld_ne _ _ _ (show a ≠ (R.RING_CFG_HALTED r).addr from h)]

@[simp] theorem haltRing_hre (d : Dev) (r c : Nat) : (d.haltRing r c).hre = d.hre := by simp [haltRing_eq]
@[simp] theorem haltRing_hostMem (d : Dev) (r c : Nat) : (d.haltRing r c).hostMem = d.hostMem := by simp [haltRing_eq]

theorem haltRing_event {d : Dev} (h : d.effEn hreBase = true) (r c : Nat) : bitAt ((d.haltRing r c).hd hreBase).event.toNat 0 = true :=
  bit_raise (f := F.ringHalt) h (by decide)

/-! ## Event bits stay -/

theorem bitAt_eq_testBit (n i : Nat) : bitAt n i = n.testBit i := by
  simp [bitAt, Nat.testBit, Nat.shiftRight_eq_div_pow, Nat.and_comm 1]

/-- Raising an event clears none. -/
theorem bit_raise_keeps {d : Dev} {b i : Nat} (h : bitAt (d.hd b).event.toNat i = true) (f : Flag) :
    bitAt ((d.raise f).hd b).event.toNat i = true := by
  unfold Dev.raise
  split
  · by_cases hb : b = f.base
    · subst hb
      rw [bitAt_eq_testBit] at h ⊢
      simp [h]
    · rw [hd_setHd_ne _ _ hb]
      exact h
  · exact h

/-! ## The doorbell page cannot be read (R97) -/

/-- A CMD ring in service. -/
def cmdRing (d : Dev) (r : Nat) : Bool := d.ringLive r && d.ringType r == 0

theorem cmdRing_iff (d : Dev) (r : Nat) : cmdRing d r = true ↔ d.ringLive r = true ∧ d.ringType r = 0 := by simp [cmdRing]

/-- Whether a ring serves commands stands in its configuration word and in what HRE holds. -/
theorem cmdRing_of_eq {d e : Dev} {q : Nat} (hr : e.reg (cfgAddr q) = d.reg (cfgAddr q)) (hh : e.hre = d.hre) : cmdRing e q = cmdRing d q := by
  have word (lo w : Nat) : e.fld ⟨cfgAddr q, lo, w⟩ = d.fld ⟨cfgAddr q, lo, w⟩ := by simp only [Dev.fld, hr]
  have ring : e.ring q = d.ring q := by simp only [Dev.ring, hh]
  have halted : e.flag (R.RING_CFG_HALTED q) = d.flag (R.RING_CFG_HALTED q) := congrArg (· == 1) (word 1 1)
  have type : e.ringType q = d.ringType q := word ..
  simp only [cmdRing, Dev.ringLive, ring, halted, type]

/-- A ring that serves commands halts with cause 2. -/
def haltCmd (d : Dev) (r : Nat) : Dev := if cmdRing d r then d.haltRing r 2 else d

theorem haltCmd_keeps {α : Type} (view : Dev → α) (h : ∀ d r, view (d.haltRing r 2) = view d) (d : Dev) (r : Nat) : view (haltCmd d r) = view d := by
  unfold haltCmd
  split
  · exact h d r
  · rfl

theorem haltCmd_hre (d : Dev) (r : Nat) : (haltCmd d r).hre = d.hre := haltCmd_keeps Dev.hre (fun d r => haltRing_hre d r 2) d r

theorem haltCmd_reg_ne (d : Dev) {q r : Nat} (h : r ≠ q) : (haltCmd d r).reg (cfgAddr q) = d.reg (cfgAddr q) := by
  unfold haltCmd
  split
  · exact haltRing_reg_ne d 2 (fun e => h (cfgAddr_inj e).symm)
  · rfl

/-- A ring that serves no commands keeps its configuration word. -/
theorem foldl_haltCmd_reg {l : List Nat} {q : Nat} {d : Dev} (h : cmdRing d q = false) : (l.foldl haltCmd d).reg (cfgAddr q) = d.reg (cfgAddr q) := by
  induction l generalizing d with
  | nil => rfl
  | cons r l ih =>
    have word : (haltCmd d r).reg (cfgAddr q) = d.reg (cfgAddr q) := by
      by_cases hr : r = q
      · subst hr
        rw [haltCmd, h]
        rfl
      · exact haltCmd_reg_ne d hr
    rw [List.foldl_cons, ih ((cmdRing_of_eq word (haltCmd_hre d r)).trans h), word]

/-- The ring reads HALTED with cause 2. -/
def haltedByRead (d : Dev) (q : Nat) : Prop := d.fld (R.RING_CFG_HALTED q) = 1 ∧ d.fld (R.RING_CFG_HALT_CAUSE q) = 2

theorem haltedByRead_haltCmd {d : Dev} {q : Nat} (h : haltedByRead d q) (r : Nat) : haltedByRead (haltCmd d r) q := by
  by_cases hr : r = q
  · subst hr
    unfold haltCmd
    split
    · exact ⟨haltRing_halted d r 2, haltRing_cause d r (by decide)⟩
    · exact h
  · have word (lo w : Nat) : (haltCmd d r).fld ⟨cfgAddr q, lo, w⟩ = d.fld ⟨cfgAddr q, lo, w⟩ := by simp only [Dev.fld, haltCmd_reg_ne d hr]
    exact ⟨(word ..).trans h.1, (word ..).trans h.2⟩

theorem haltedByRead_foldl_haltCmd {l : List Nat} {q : Nat} {d : Dev} (h : haltedByRead d q) : haltedByRead (l.foldl haltCmd d) q := by
  induction l generalizing d with
  | nil => exact h
  | cons r l ih => exact ih (haltedByRead_haltCmd h r)

/-- Every ring of the list that serves commands is halted. -/
theorem foldl_haltCmd_halted {l : List Nat} {q : Nat} (hq : q ∈ l) {d : Dev} (h : cmdRing d q = true) : haltedByRead (l.foldl haltCmd d) q := by
  induction l generalizing d with
  | nil => simp at hq
  | cons r l ih =>
    rw [List.foldl_cons]
    by_cases hr : r = q
    · subst hr
      have now : haltedByRead (haltCmd d r) r := by
        rw [haltCmd, if_pos h]
        exact ⟨haltRing_halted d r 2, haltRing_cause d r (by decide)⟩
      exact haltedByRead_foldl_haltCmd now
    · have other : q ∈ l := (List.mem_cons.1 hq).resolve_left (fun e => hr e.symm)
      exact ih other ((cmdRing_of_eq (haltCmd_reg_ne d hr) (haltCmd_hre d r)).trans h)

theorem doorbell_failed (d : Dev) : d.doorbell true = (List.range 64).foldl haltCmd (d.raise F.dmaErr) := rfl

/-- Halting rings clears no event. -/
theorem foldl_haltCmd_event {l : List Nat} {d : Dev} {i : Nat} (h : bitAt (d.hd hreBase).event.toNat i = true) :
    bitAt ((l.foldl haltCmd d).hd hreBase).event.toNat i = true := by
  induction l generalizing d with
  | nil => exact h
  | cons r l ih =>
    refine ih ?_
    unfold haltCmd
    split
    · rw [haltRing_eq]
      exact bit_raise_keeps (by simpa using h) _
    · exact h

/-- A failed read of the doorbell page sets DMA_ERR. -/
theorem doorbell_event {d : Dev} (h : d.effEn hreBase = true) : bitAt ((d.doorbell true).hd hreBase).event.toNat 5 = true := by
  rw [doorbell_failed]
  exact foldl_haltCmd_event (bit_raise (f := F.dmaErr) h (by decide))

theorem doorbell_keeps (d : Dev) : (d.doorbell true).hostMem = d.hostMem ∧ (d.doorbell true).hre = d.hre := by
  have hostMem := foldl_keeps Dev.hostMem (haltCmd_keeps _ (fun d r => haltRing_hostMem d r 2)) (List.range 64) (d.raise F.dmaErr)
  have hre := foldl_keeps Dev.hre haltCmd_hre (List.range 64) (d.raise F.dmaErr)
  rw [doorbell_failed]
  exact ⟨hostMem.trans (raise_hostMem ..), hre.trans (raise_hre ..)⟩

section
variable {d : Dev} {r : Nat}

theorem cmdRing_raise (d : Dev) (f : Flag) (r : Nat) : cmdRing (d.raise f) r = cmdRing d r :=
  cmdRing_of_eq (reg_of_regs (raise_regs ..) (raise_grade ..) _) (raise_hre ..)

/-- A CMD ring in service reads HALTED with cause 2 once the doorbell page could not be read. -/
theorem doorbell_halts (hr : r < 64) (h : cmdRing d r = true) : haltedByRead (d.doorbell true) r := by
  rw [doorbell_failed]
  exact foldl_haltCmd_halted (List.mem_range.2 hr) ((cmdRing_raise ..).trans h)

/-- Every other ring keeps its configuration word. -/
theorem doorbell_reg (h : cmdRing d r = false) : (d.doorbell true).reg (cfgAddr r) = d.reg (cfgAddr r) := by
  rw [doorbell_failed, foldl_haltCmd_reg ((cmdRing_raise ..).trans h)]
  exact reg_of_regs (raise_regs ..) (raise_grade ..) _

end

/-! ## HOST_MEMORY_ERROR (R97) -/

theorem exec_tableWriteCopyDone (err : Option Nat) (s : State) :
    exec (.tableWriteCopyDone err) s = s.act (fun d => (d.copyWriteDone err).commitTell) := rfl

theorem exec_tableReadCopyDone (err : Option Nat) (s : State) : exec (.tableReadCopyDone err) s = s.act (·.copyReadDone err) := rfl

theorem exec_hostMemoryError (w : HostAccess) (s : State) : exec (.hostMemoryError w) s = s.act (·.hostError w) := rfl

section
variable {d : Dev} (h : d.works hreBase = true)
include h

theorem hostError_descriptor {r : Nat} (live : d.ringLive r = true) (fed : hostFed (d.ringType r) = true) :
    d.hostError (.descriptor r) = (d.haltRing r 2).raise F.dmaErr := by simp [Dev.hostError, h, Dev.entryFail, live, fed]

theorem hostError_doorbell : d.hostError .doorbell = d.doorbell true := if_neg (by simp [h])

theorem hostError_ringWrite {r a n : Nat} (live : d.ringLive r = true) (bytes : deviceBytes (d.ringType r) = (a, n)) (some : n ≠ 0) :
    d.hostError (.ringWrite r) =
      ((d.hostFree (d.ringAddr r (d.fld (R.RING_DEV_IDX_DEV_IDX r) + 2 ^ 32 - 1) + a) n).haltRing r 3).raise F.dmaErr := by
  have fails : d.ringFail r =
      ((d.hostFree (d.ringAddr r (d.fld (R.RING_DEV_IDX_DEV_IDX r) + 2 ^ 32 - 1) + a) n).haltRing r 3).raise F.dmaErr := by
    simp only [Dev.ringFail, live, bytes]
    exact if_pos (by simpa using some)
  have acts : d.hostError (.ringWrite r) = d.ringFail r := if_neg (by simp [h])
  rw [acts, fails]

theorem hostError_statusPage : d.hostError .statusPage = d.pageFail := if_neg (by simp [h])

theorem hostError_copy {x : Copy} (first : d.hre.copies.find? (fun x => !(x.write && d.copied x.cmd.id)) = some x) (n : Nat) :
    d.hostError (.copy n) = if x.write then (d.copyWriteDone (some n)).commitTell else d.copyReadDone (some n) := by
  simp only [Dev.hostError, h, first, Bool.not_true, Bool.false_eq_true, if_false]

end

/-- The bytes of an entry that the device writes, by the ring's type (R90, R92, R193, R269, R294, R297). -/
theorem deviceBytes_of {ty a n : Nat} (h : ((ty = 1 ∨ ty = 2 ∨ ty = 3) ∧ a = 0 ∧ n = 64) ∨ ((ty = 4 ∨ ty = 6) ∧ a = 16 ∧ n = 48) ∨
    (ty = 5 ∧ a = 32 ∧ n = 32)) : deviceBytes ty = (a, n) ∧ n ≠ 0 := by
  rcases h with ⟨ty, rfl, rfl⟩ | ⟨ty, rfl, rfl⟩ | ⟨rfl, rfl, rfl⟩
  · rcases ty with rfl | rfl | rfl <;> decide
  · rcases ty with rfl | rfl <;> decide
  · decide

@[simp] theorem hostFree_hdr (d : Dev) (a n : Nat) : (d.hostFree a n).hdr = d.hdr := rfl

theorem hostFree_hostMem (d : Dev) (a n : Nat) :
    (d.hostFree a n).hostMem = memWrite d.hostMem (a % 2 ^ 64) ((List.range n).map d.freeNat) := rfl

theorem pageFail_statusEn (d : Dev) : d.pageFail.fld R.HRE_CTL_STATUS_EN = 0 := by
  rw [fld_of_regs (d := (d.hostFree d.statusAddr 1024).setFld R.HRE_CTL_STATUS_EN 0) (by simp only [Dev.pageFail, raise_regs])
    (by simp only [Dev.pageFail, raise_grade])]
  exact fld_setFld_self _ R.HRE_CTL_STATUS_EN 0 (by decide)

theorem pageFail_event {d : Dev} (h : d.effEn hreBase = true) : bitAt (d.pageFail.hd hreBase).event.toNat 5 = true := by
  have same : ((d.hostFree d.statusAddr 1024).setFld R.HRE_CTL_STATUS_EN 0).effEn hreBase = true := by
    have hdr : ((d.hostFree d.statusAddr 1024).setFld R.HRE_CTL_STATUS_EN 0).hdr = d.hdr := by rw [setFld_hdr, hostFree_hdr]
    rw [effEn_of_hdr hdr, h]
  have hdr : d.pageFail.hdr = (((d.hostFree d.statusAddr 1024).setFld R.HRE_CTL_STATUS_EN 0).raise F.dmaErr).hdr := by simp only [Dev.pageFail]
  rw [hd_of_hdr hdr]
  exact bit_raise (f := F.dmaErr) same (by decide)

theorem pageFail_hostMem (d : Dev) :
    d.pageFail.hostMem = memWrite d.hostMem (d.statusAddr % 2 ^ 64) ((List.range 1024).map d.freeNat) := by
  rw [← hostFree_hostMem]
  simp only [Dev.pageFail, raise_hostMem, setFld_hostMem]

/-- Settles O18: urgent polls, then each failure with what halts, and what halting a ring changes. -/
theorem hostPollsAndErrorsFollowR67AndR97 : Obligations.HostPollsAndErrorsFollowR67AndR97 := by
  unfold Obligations.HostPollsAndErrorsFollowR67AndR97
  refine ⟨⟨fun s opens => ⟨fun h => makes_urgentPoll opens (urgentPoll_ignored h), fun works polls most new =>
      ⟨fun h => makes_urgentPoll opens (urgentPoll_limited works polls most new h),
        fun h => makes_urgentPoll opens (urgentPoll_waits works polls most new h)⟩⟩, fun s b => ?_⟩,
    fun s r _ works live fed => makes_of _ (exec_hostMemoryError _ s) (hostError_descriptor works live fed), fun s works => ?_,
    fun s r a n _ works live h => ?_, fun s n x works first => ?_, fun d r c _ hc => ⟨haltRing_halted d r c, haltRing_cause d r hc,
      haltRing_enable d r c, fun en => haltRing_event en r c, fun a ha => haltRing_reg_ne d c ha⟩, fun s works => ?_⟩
  · intro d p waits awake works
    refine ⟨fun polls most => ⟨fun late => ?_, fun late => ?_⟩, fun h => makes_of _ (exec_urgentPollRun b s) (urgentRun_rests waits awake works h)⟩
    · have run := urgentRun_polls waits awake works polls most
      rw [if_neg (by simp [late])] at run
      exact makes_of _ (exec_urgentPollRun b s) run
    · have run := urgentRun_polls waits awake works polls most
      rw [if_pos late] at run
      exact makes_of _ (exec_urgentPollRun b s) run
  · obtain ⟨hostMem, hre⟩ := doorbell_keeps s.dev
    exact ⟨_, makes_of _ (exec_hostMemoryError _ s) (hostError_doorbell works), fun r hr live cmd => doorbell_halts hr ((cmdRing_iff ..).2 ⟨live, cmd⟩),
      fun r _ other => doorbell_reg (by rcases other with h | h <;> simp [cmdRing, h]), doorbell_event, hostMem, hre⟩
  · obtain ⟨bytes, some⟩ := deviceBytes_of h
    exact makes_of _ (exec_hostMemoryError _ s) (hostError_ringWrite works live bytes some)
  · have ends := hostError_copy works first n
    refine ⟨fun write => ?_, fun read => ?_⟩
    · rw [if_pos write] at ends
      rw [exec_hostMemoryError, exec_tableWriteCopyDone, State.act, State.act, ends]
    · rw [if_neg (by simp [read])] at ends
      rw [exec_hostMemoryError, exec_tableReadCopyDone, State.act, State.act, ends]
  · exact ⟨s.dev.pageFail, makes_of _ (exec_hostMemoryError _ s) (hostError_statusPage works), pageFail_statusEn s.dev, pageFail_event, rfl,
      pageFail_hostMem s.dev⟩

end Sys2Proof.Proofs
end

section
/-! SUPPORT. How a command is taken: what listing it and queueing it leave alone, and the row of an opcode case by case
(02 R30, R41, R69, R70, R75 to R77, 13 R394). -/
namespace Sys2Proof.Proofs
open Sys2Proof.Machine Sys2Proof.Laws

/-! ## What the checks and the apply tick of a command rest on -/

/-- All that a command's checks and its apply tick look at: TOP, the headers, the Tether unit, the registers of TOP_RATE and DPLL_STAT. -/
def checkView (d : Dev) : Top × SMap Hdr × Tth × Word × Word := (d.top, d.hdr, d.tth, d.reg R.TOP_RATE_TICK_RUN.addr, d.reg (R.DPLL_STAT_STATE 0).addr)

section
variable {d e : Dev} (h : checkView e = checkView d)
include h

theorem running_of_checkView : e.running = d.running := by
  obtain ⟨top, _, _, rate, _⟩ : _ ∧ _ ∧ _ ∧ _ ∧ _ := by simpa only [checkView, Prod.mk.injEq] using h
  simp only [Dev.running, Dev.flag, Dev.fld, top, rate]

theorem isDue_of_checkView (c : Cmd) : e.isDue c = d.isDue c := by
  have top : e.top = d.top := congrArg Prod.fst h
  simp only [Dev.isDue, running_of_checkView h, top]

theorem cmdDue_of_checkView (op : Opcode) (c : Cmd) : e.cmdDue op c = d.cmdDue op c := by
  have top : e.top = d.top := congrArg Prod.fst h
  unfold Dev.cmdDue Dev.objDue
  rw [running_of_checkView h, isDue_of_checkView h, top]

theorem refused_of_checkView (op : Opcode) (c : Cmd) : e.refused op c = d.refused op c := by
  obtain ⟨top, hdr, tth, rate, dpll⟩ : _ ∧ _ ∧ _ ∧ _ ∧ _ := by simpa only [checkView, Prod.mk.injEq] using h
  have field (lo w : Nat) : e.fld ⟨(R.DPLL_STAT_STATE 0).addr, lo, w⟩ = d.fld ⟨(R.DPLL_STAT_STATE 0).addr, lo, w⟩ := by simp only [Dev.fld, dpll]
  have locked : e.tetherLocked = d.tetherLocked := by
    rw [Dev.tetherLocked, Dev.tetherLocked, show e.fld (R.DPLL_STAT_STATE 0) = _ from field .., show e.fld (R.DPLL_STAT_SEL 0) = _ from field ..]
    rfl
  have causes : e.ownCauses = d.ownCauses := by simp only [Dev.ownCauses, tth, locked, rate]
  have standby : e.isStandby = d.isStandby := by simp only [Dev.isStandby, effEn_of_hdr hdr, tth]
  have fit : e.fitPresent = d.fitPresent := by
    simp only [Dev.fitPresent, Dev.fitCode, Dev.standbyPresent, standby, effEn_of_hdr hdr, tth, causes]
  unfold Dev.refused Dev.pairUnfit
  rw [top, standby, tth, effEn_of_hdr hdr, fit]

end

theorem checkView_setFld (d : Dev) {f : Field} (v : Nat) (hr : R.TOP_RATE_TICK_RUN.addr ≠ f.addr) (hd : (R.DPLL_STAT_STATE 0).addr ≠ f.addr) :
    checkView (d.setFld f v) = checkView d := by
  simp only [checkView, setFld_top, setFld_hdr, setFld_tth, reg_setFld_ne d f v hr, reg_setFld_ne d f v hd]

theorem checkView_count (d : Dev) {f : Field} (hr : R.TOP_RATE_TICK_RUN.addr ≠ f.addr) (hd : (R.DPLL_STAT_STATE 0).addr ≠ f.addr) :
    checkView (d.count f) = checkView d := checkView_setFld d _ hr hd

theorem checkView_setPaq (d : Dev) (l : List PaqE) : checkView (d.setPaq l) = checkView d :=
  (checkView_setFld _ _ (by decide) (by decide)).trans (checkView_setFld _ _ (by decide) (by decide))

/-! ## A fetched command is listed (R69) -/

theorem checkView_enlist (d : Dev) (c : Cmd) : checkView (d.enlist c) = checkView d := by
  unfold Dev.enlist
  dsimp only
  split
  · rfl
  · split <;> rfl

/-- The lists of HRE that a newly listed command leaves alone. -/
def hreLists (d : Dev) : List PaqE × List Barrier × List CommitW × List Copy × List Cmd × Bool :=
  (d.hre.paq, d.hre.barriers, d.hre.commits, d.hre.copies, d.hre.held, d.hre.heldGo)

theorem hreLists_enlist (d : Dev) (c : Cmd) : hreLists (d.enlist c) = hreLists d := by
  unfold Dev.enlist
  dsimp only
  split
  · rfl
  · split <;> rfl

@[simp] theorem enlist_paq (d : Dev) (c : Cmd) : (d.enlist c).hre.paq = d.hre.paq := congrArg (·.1) (hreLists_enlist d c)
@[simp] theorem enlist_barriers (d : Dev) (c : Cmd) : (d.enlist c).hre.barriers = d.hre.barriers := congrArg (·.2.1) (hreLists_enlist d c)
@[simp] theorem enlist_commits (d : Dev) (c : Cmd) : (d.enlist c).hre.commits = d.hre.commits := congrArg (·.2.2.1) (hreLists_enlist d c)

/-! ## The row of an opcode (R37, R70, R77) -/

section
variable {d : Dev} {op : Opcode} {c : Cmd} (code : c.code = BitVec.ofNat 8 op.code) (awake : d.awake = true) (works : d.works hreBase = true)
include code awake works

theorem row_waiting (h : d.hre.paq.any (fun e => e.cmd.id == c.id) = true) : d.row op c = (d.applyEntry ⟨op, c⟩).afterCommands := by
  rw [Dev.row, withOp_of_code code, if_neg (by simp [awake, works]), if_pos h]

theorem row_full (h : d.hre.paq.any (fun e => e.cmd.id == c.id) = false) (full : d.paqTaken = true) : d.row op c = d.raise F.paqFull := by
  rw [Dev.row, withOp_of_code code, if_neg (by simp [awake, works]), if_neg (by simp [h]), if_pos full]

theorem row_new (h : d.hre.paq.any (fun e => e.cmd.id == c.id) = false) (room : d.paqTaken = false) :
    d.row op c = (d.takeOp op c).afterCommands := by
  rw [Dev.row, withOp_of_code code, if_neg (by simp [awake, works]), if_neg (by simp [h]), if_neg (by simp [room])]

/-- A waiting command that is due and that a check refuses. -/
theorem row_refused (hop : op ≠ .sceneCommit) (h : d.hre.paq.any (fun e => e.cmd.id == c.id) = true) (due : d.cmdDue op c = true) {q : Cpl}
    (refused : (d.unqueue c).refused op c = some q) : d.row op c = ((d.unqueue c).unseen op c).ends c q := by
  rw [row_due hop code awake works h due, Dev.applyCmd, refused]
  rfl

end

theorem applyEntry_of_not_due {d : Dev} {op : Opcode} {c : Cmd} (h : d.cmdDue op c = false) : d.applyEntry ⟨op, c⟩ = d := if_pos (by simp [h])

/-- A fetched command whose boundary is still to come enters the queue as its last entry. -/
theorem actOrWait_waits {d : Dev} {op : Opcode} {c : Cmd} (due : d.cmdDue op c = false)
    (new : d.hre.paq.any (fun e => e.cmd.id == c.id) = false) : d.actOrWait op c = d.setPaq (d.hre.paq ++ [⟨op, c⟩]) := by
  have queued : d.enqueue op c = d.setPaq (d.hre.paq ++ [⟨op, c⟩]) := if_neg (by simp [new])
  have waits : (d.setPaq (d.hre.paq ++ [⟨op, c⟩])).cmdDue op c = false := (cmdDue_of_checkView (checkView_setPaq ..) op c).trans due
  simp only [Dev.actOrWait, due, Bool.false_and, Bool.false_eq_true, if_false, queued]
  exact applyEntry_of_not_due waits

theorem checkView_objFetched (d : Dev) (c : Cmd) : checkView (d.objFetched c) = checkView d := by
  unfold Dev.objFetched Dev.dropSets
  dsimp only
  split
  · split
    · exact checkView_count d (f := R.PAN_RECOMP_COUNT) (by decide) (by decide)
    · rfl
  · rfl

@[simp] theorem objFetched_hre (d : Dev) (c : Cmd) : (d.objFetched c).hre = d.hre := by
  unfold Dev.objFetched Dev.dropSets
  dsimp only
  split
  · split
    · exact count_hre d R.PAN_RECOMP_COUNT
    · rfl
  · rfl

/-- The part once a fetched command is listed, and an object command noted by the pan stage (R31). -/
def listed (d : Dev) (op : Opcode) (c : Cmd) : Dev := if op = .objSet ∨ op = .objKeyframe then (d.enlist c).objFetched c else d.enlist c

theorem checkView_listed (d : Dev) (op : Opcode) (c : Cmd) : checkView (listed d op c) = checkView d := by
  unfold listed
  split
  · exact (checkView_objFetched ..).trans (checkView_enlist d c)
  · exact checkView_enlist d c

@[simp] theorem listed_paq (d : Dev) (op : Opcode) (c : Cmd) : (listed d op c).hre.paq = d.hre.paq := by
  unfold listed
  split <;> simp

/-- Opcodes that R75 applies at their tick, SCENE_COMMIT apart. -/
def appliesAtTick (op : Opcode) : Prop := op ≠ .tableWrite ∧ op ≠ .barrier ∧ op ≠ .sceneCommit

theorem takeOp_of_appliesAtTick (d : Dev) {op : Opcode} (h : appliesAtTick op) (c : Cmd) : d.takeOp op c = (listed d op c).actOrWait op c := by
  obtain ⟨write, barrier, commit⟩ := h
  cases op
  case tableWrite => exact absurd rfl write
  case barrier => exact absurd rfl barrier
  case sceneCommit => exact absurd rfl commit
  all_goals rfl

theorem takeOp_waits {d : Dev} {op : Opcode} (h : appliesAtTick op) {c : Cmd} (due : d.cmdDue op c = false)
    (new : d.hre.paq.any (fun e => e.cmd.id == c.id) = false) :
    d.takeOp op c = (listed d op c).setPaq ((listed d op c).hre.paq ++ [⟨op, c⟩]) := by
  rw [takeOp_of_appliesAtTick d h]
  exact actOrWait_waits ((cmdDue_of_checkView (checkView_listed d op c) op c).trans due) (by rw [listed_paq]; exact new)

end Sys2Proof.Proofs
end

section
/-! SUPPORT. NOP, codes that R75 does not list, and the commands of every opcode that applies at its tick (02 R41, R75 to R77, 13 R394). -/
namespace Sys2Proof.Proofs
open Sys2Proof.Machine Sys2Proof.Laws

/-! ## The checks at the apply tick (R41, R76, R394) -/

theorem inSafe_iff (op : Opcode) :
    op.inSafe = true ↔ op ∈ ([.nop, .barrier, .tableWrite, .tableRead, .timeSteer, .refCmd, .mtrCfg, .fmnCancel] : List Opcode) := by
  cases op <;> decide

theorem onStandby_iff (op : Opcode) : op.onStandby = true ↔ op ∈ ([.nop, .barrier, .tableRead, .mtrCfg, .refCmd] : List Opcode) := by
  cases op <;> decide

/-- The device state accepts commands of the opcode (R41). -/
def stateTakes (d : Dev) (op : Opcode) : Prop := d.top.st = .setup ∨ d.top.st = .run ∨ (d.top.st = .safe ∧ op.inSafe = true)

theorem refused_of_state {d : Dev} {op : Opcode} (h : ¬ stateTakes d op) (c : Cmd) : d.refused op c = some ⟨.refusedState, 0, 0⟩ := if_neg h

theorem refused_of_taken {d : Dev} {op : Opcode} (h : stateTakes d op) (c : Cmd) : d.refused op c =
    if d.isStandby && !c.mirrored && !op.onStandby && d.tth.since ≤ c.seq then some ⟨.refusedState, 10, 0⟩
    else if c.mirrorReq && d.pairUnfit then some ⟨.unfit, 0, 0⟩ else none := if_pos h

theorem role_of_standby {d : Dev} (h : d.isStandby = true) : d.tth.role = .standby := by
  simp only [Dev.isStandby, Bool.and_eq_true, beq_iff_eq] at h
  exact h.2

theorem not_unfit_of_standby {d : Dev} (h : d.isStandby = true) : d.pairUnfit = false := by simp [Dev.pairUnfit, role_of_standby h]

theorem refused_alone {d : Dev} {op : Opcode} {c : Cmd} (off : d.effEn tthBase = false) (h : stateTakes d op) : d.refused op c = none := by
  simp [refused_of_taken h, Dev.isStandby, Dev.pairUnfit, off]

theorem refused_unfit {d : Dev} {op : Opcode} {c : Cmd} (active : d.tth.role = .active) (on : d.effEn tthBase = true)
    (unfit : d.fitPresent = false) (asks : c.mirrorReq = true) (h : stateTakes d op) : d.refused op c = some ⟨.unfit, 0, 0⟩ := by
  simp [refused_of_taken h, Dev.isStandby, Dev.pairUnfit, active, on, unfit, asks]

theorem refused_on_standby {d : Dev} {op : Opcode} {c : Cmd} (standby : d.isStandby = true) (own : c.mirrored = false)
    (since : d.tth.since ≤ c.seq) (h : stateTakes d op) (other : op.onStandby = false) : d.refused op c = some ⟨.refusedState, 10, 0⟩ := by
  simp [refused_of_taken h, standby, own, since, other]

theorem taken_on_standby {d : Dev} {op : Opcode} {c : Cmd} (standby : d.isStandby = true) (h : stateTakes d op) (accepts : op.onStandby = true) :
    d.refused op c = none := by
  simp [refused_of_taken h, accepts, not_unfit_of_standby standby]

/-! ## The rows (R75) -/

/-- The rows of the opcodes that apply at their tick, SCENE_COMMIT apart: opcode, row, and the bits that the row fixes. -/
def tickRows : List (Opcode × (Cmd → Instr) × (Cmd → Cmd)) :=
  [(.nop, .nop, id), (.tableRead, .tableRead, id), (.objSet, .objSet, id), (.objKeyframe, .objKeyframe, id), (.xptNodes, .xptNodes, id),
    (.xptRampSet, .xptRampSet, id), (.outBankLoad, .outBankLoad, id), (.outSwap, .outSwap, id), (.patchSet, .patchSet, id),
    (.portCfg, .portCfg, id), (.streamCfg, .streamCfg, id), (.fmnSubmit, .fmnSubmit, id), (.fmnCancel, .fmnCancel, id),
    (.mtrCfg, .mtrCfg, id), (.timeSteer, .timeSteerSet, (·.withBits 17 8 0)), (.timeSteer, .timeSteerStep, (·.withBits 17 8 1)),
    (.timeSteer, .timeSteerRate, (·.withBits 17 8 2)), (.timeSteer, .timeSteerOffset, (·.withBits 17 8 3)),
    (.refCmd, .select, (·.withBits 16 8 0)), (.refCmd, .release, (·.withBits 16 8 1)), (.refCmd, .dco, (·.withBits 16 8 2)),
    (.refCmd, .dcoOff, (·.withBits 16 8 3)), (.refCmd, .phaseStep, (·.withBits 16 8 4)), (.refCmd, .realign, (·.withBits 16 8 5)),
    (.refCmd, .requalify, (·.withBits 16 8 6))]

theorem tickRows_apply : ∀ p ∈ tickRows, appliesAtTick p.1 := by
  simp [tickRows, appliesAtTick]

theorem exec_nop (c : Cmd) (s : State) : exec (.nop c) s = s.act (fun d =>
    if d.awake && d.works hreBase && (opcodeOf c.code.toNat).isNone then (if d.paqTaken then d.raise F.paqFull else d.takeCmd c)
    else d.row .nop c) := rfl

theorem makes_nop {s : State} {c : Cmd} (code : c.code = BitVec.ofNat 8 Opcode.nop.code) {d : Dev} (h : s.dev.row .nop c = d) :
    Makes (.nop c) s d := by
  have listed : opcodeOf c.code.toNat = some .nop := by rw [code]; rfl
  exact makes_of _ (exec_nop c s) ((if_neg (by simp [listed])).trans h)

/-- A row does what its opcode's row does with the command. -/
theorem makes_row (s : State) (c : Cmd) : ∀ p ∈ tickRows, (p.2.2 c).code = BitVec.ofNat 8 p.1.code →
    ∀ d, s.dev.row p.1 (p.2.2 c) = d → Makes (p.2.1 c) s d := by
  simp only [tickRows, List.forall_mem_cons, List.not_mem_nil, false_implies, implies_true, and_true]
  refine ⟨fun code d => makes_nop code, ?_⟩
  and_intros
  all_goals exact fun _ d h => makes_of (fun e => e.row _ _) rfl h

/-- A code that R75 does not list completes with BAD_OPCODE at once. -/
theorem takeCmd_of_unlisted {c : Cmd} (h : opcodeOf c.code.toNat = none) (d : Dev) : d.takeCmd c = (d.enlist c).complete c ⟨.badOpcode, 0, 0⟩ := by
  simp only [Dev.takeCmd, h]

/-- Settles O19: NOP and unlisted codes, then every row while it waits, with the queue full and refused, then the checks. -/
theorem commandsWaitActOrAreRefused : Obligations.CommandsWaitActOrAreRefused := by
  unfold Obligations.CommandsWaitActOrAreRefused
  refine ⟨⟨fun s c applies => ?_, fun s c awake works room unlisted => ?_⟩, fun p hp s c0 => ?_, fun d op c => ⟨inSafe_iff op, fun safe out => ?_,
    fun rests => ?_, refused_alone, fun active on unfit asks st => ?_, fun standby own since st => ⟨fun accepts => ?_, fun other => ?_⟩⟩⟩
  · exact makes_nop applies.1 (row_applies (by decide) applies)
  · exact makes_of _ (exec_nop c s) ((if_pos (by simp [awake, works, unlisted])).trans
      ((if_neg (by simp [room])).trans (takeCmd_of_unlisted unlisted s.dev)))
  · intro c d code awake works
    have makes := makes_row s c0 p hp code
    refine ⟨fun new full => makes _ (row_full code awake works new full), fun new room due => makes _ ?_,
      fun q waiting due refused => makes _ (row_refused code awake works (tickRows_apply p hp).2.2 waiting due refused)⟩
    rw [row_new code awake works new room, takeOp_waits (tickRows_apply p hp) due new]
    rfl
  · exact refused_of_state (by simp [stateTakes, safe, out]) c
  · exact refused_of_state (by rcases rests with h | h <;> simp [stateTakes, h]) c
  · exact refused_unfit active on unfit asks (st.imp_right .inl)
  · exact taken_on_standby standby st ((onStandby_iff op).2 accepts)
  · exact refused_on_standby standby own since st (Bool.not_eq_true _ ▸ fun accepts => other ((onStandby_iff op).1 accepts))

end Sys2Proof.Proofs
end

section
/-! SUPPORT. BARRIER: it waits for its apply tick and for the earlier commands of its scope (02 R30, R76, R80). -/
namespace Sys2Proof.Proofs
open Sys2Proof.Machine Sys2Proof.Laws

/-! ## One barrier is tried -/

section
variable {d : Dev} {b : Barrier}

theorem barrierTry_of_not_due (h : d.isDue b.cmd = false) : d.barrierTry b = d := if_pos (by simp [h])

section
variable (due : d.isDue b.cmd = true)
include due

theorem barrierTry_refused (new : b.judged = false) {q : Cpl} (h : d.refused .barrier b.cmd = some q) : d.barrierTry b = d.barrierEnd b q := by
  simp [Dev.barrierTry, due, new, h]

variable (passes : b.judged = true ∨ d.refused .barrier b.cmd = none)
include passes

theorem barrierTry_completes (h : ∀ i ∈ b.waits, i ∉ d.hre.outst) : d.barrierTry b = d.barrierEnd b ⟨lateOk b.late, 0, 0⟩ := by
  have check : (if b.judged then none else d.refused .barrier b.cmd) = none := by rcases passes with h | h <;> simp [h]
  have settled : b.waits.all (fun i => !d.hre.outst.contains i) = true := by simpa using h
  simp only [Dev.barrierTry, due, check, settled, Bool.not_true, Bool.false_eq_true, if_false, if_true]

/-- A barrier that still waits has been judged. -/
theorem barrierTry_waits (h : ∃ i ∈ b.waits, i ∈ d.hre.outst) : d.barrierTry b =
    { d with hre := { d.hre with barriers := d.hre.barriers.map (fun x => if x.cmd.id = b.cmd.id then { x with judged := true } else x) } } := by
  have check : (if b.judged then none else d.refused .barrier b.cmd) = none := by rcases passes with h | h <;> simp [h]
  have waiting : b.waits.all (fun i => !d.hre.outst.contains i) = false := by simpa using h
  simp only [Dev.barrierTry, due, check, waiting, Bool.not_true, Bool.false_eq_true, if_false]

end
end

/-! ## The list of barriers -/

/-- The part with one barrier more. -/
def withBarrier (d : Dev) (b : Barrier) : Dev := { d with hre := { d.hre with barriers := d.hre.barriers ++ [b] } }

section
variable {d : Dev} {b : Barrier} (new : ∀ x ∈ d.hre.barriers, x.cmd.id ≠ b.cmd.id)
include new

theorem withBarrier_end (p : Cpl) : (withBarrier d b).barrierEnd b p = d.complete b.cmd p := by
  have others : (d.hre.barriers ++ [b]).filter (fun x => x.cmd.id != b.cmd.id) = d.hre.barriers := by
    rw [List.filter_append, List.filter_eq_self.2 (by simpa using new)]
    simp
  simp only [Dev.barrierEnd, withBarrier, others]

theorem withBarrier_judged : { withBarrier d b with hre := { (withBarrier d b).hre with
    barriers := (withBarrier d b).hre.barriers.map (fun x => if x.cmd.id = b.cmd.id then { x with judged := true } else x) } } =
      withBarrier d { b with judged := true } := by
  have others : d.hre.barriers.map (fun x => if x.cmd.id = b.cmd.id then { x with judged := true } else x) = d.hre.barriers :=
    (List.map_congr_left (fun x hx => if_neg (new x hx))).trans (List.map_id _)
  simp only [withBarrier, List.map_append, List.map_singleton, others, if_true]

end

theorem checkView_withBarrier (d : Dev) (b : Barrier) : checkView (withBarrier d b) = checkView d := rfl

/-! ## A fetched barrier -/

/-- The barrier of a fetched command, not yet judged. -/
def barrierOf (d : Dev) (c : Cmd) : Barrier := ⟨c, barrierWaits d c, d.isLate c, false⟩

theorem takeOp_barrier (d : Dev) (c : Cmd) :
    d.takeOp .barrier c = (withBarrier (d.enlist c) (barrierOf (d.enlist c) c)).barrierTry (barrierOf (d.enlist c) c) := rfl

theorem mem_barrierWaits (d : Dev) (c : Cmd) (i : CmdId) :
    i ∈ barrierWaits d c ↔ i ∈ d.hre.outst ∧ i.seq < c.seq ∧ (bitAt (c.u8 16) 0 = true ∨ i.ring = c.ring) := by
  simp [barrierWaits, barrierAll]

section
variable {d : Dev} {c : Cmd} (new : ∀ b ∈ d.hre.barriers, b.cmd.id ≠ c.id)
include new

/-- Before its tick, or with commands of its scope outstanding, the barrier joins those that wait; it has been judged if it is due. -/
theorem takeOp_barrier_waits (h : (d.enlist c).isDue c = false ∨
    ((d.enlist c).refused .barrier c = none ∧ barrierWaits (d.enlist c) c ≠ [])) :
    d.takeOp .barrier c = withBarrier (d.enlist c) ⟨c, barrierWaits (d.enlist c) c, (d.enlist c).isLate c, (d.enlist c).isDue c⟩ := by
  rw [takeOp_barrier]
  cases due : (d.enlist c).isDue c with
  | false => exact barrierTry_of_not_due (b := barrierOf (d.enlist c) c) ((isDue_of_checkView (checkView_withBarrier ..) c).trans due)
  | true =>
    obtain ⟨passes, waits⟩ := h.resolve_left (by simp [due])
    obtain ⟨i, hi⟩ := List.exists_mem_of_ne_nil _ waits
    rw [barrierTry_waits (b := barrierOf (d.enlist c) c) ((isDue_of_checkView (checkView_withBarrier ..) c).trans due)
      (.inr ((refused_of_checkView (checkView_withBarrier ..) .barrier c).trans passes)) ⟨i, hi, ((mem_barrierWaits ..).1 hi).1⟩]
    exact withBarrier_judged (b := barrierOf (d.enlist c) c) (by rw [enlist_barriers]; exact new)

variable (due : (d.enlist c).isDue c = true)
include due

/-- With its tick come and nothing of its scope outstanding the barrier completes at once. -/
theorem takeOp_barrier_completes (passes : (d.enlist c).refused .barrier c = none) (none : barrierWaits (d.enlist c) c = []) :
    d.takeOp .barrier c = (d.enlist c).complete c ⟨lateOk ((d.enlist c).isLate c), 0, 0⟩ := by
  rw [takeOp_barrier, barrierTry_completes (b := barrierOf (d.enlist c) c) ((isDue_of_checkView (checkView_withBarrier ..) c).trans due)
    (.inr ((refused_of_checkView (checkView_withBarrier ..) .barrier c).trans passes)) (by simp [barrierOf, none])]
  exact withBarrier_end (b := barrierOf (d.enlist c) c) (by rw [enlist_barriers]; exact new) _

theorem takeOp_barrier_refused {q : Cpl} (refused : (d.enlist c).refused .barrier c = some q) :
    d.takeOp .barrier c = (d.enlist c).complete c q := by
  rw [takeOp_barrier, barrierTry_refused (b := barrierOf (d.enlist c) c) ((isDue_of_checkView (checkView_withBarrier ..) c).trans due) rfl
    ((refused_of_checkView (checkView_withBarrier ..) .barrier c).trans refused)]
  exact withBarrier_end (b := barrierOf (d.enlist c) c) (by rw [enlist_barriers]; exact new) q

end

/-! ## Rows -/

theorem exec_barrier (c : Cmd) (s : State) : exec (.barrier c) s = s.act (·.row .barrier c) := rfl

theorem exec_barrierComplete (s : State) : exec .barrierComplete s = s.act (fun d => if d.awake then d.barriers else d) := rfl

theorem makes_barrierComplete {s : State} {b : Barrier} (awake : s.dev.awake = true) (one : s.dev.hre.barriers = [b]) {d : Dev}
    (h : s.dev.barrierTry b = d) : Makes .barrierComplete s d :=
  makes_of _ (exec_barrierComplete s) ((if_pos awake).trans (by rw [Dev.barriers, one]; exact h))

/-- Settles O21: a fetched barrier case by case, then the one that waits. -/
theorem barrierCompletesAfterItsScope : Obligations.BarrierCompletesAfterItsScope := by
  unfold Obligations.BarrierCompletesAfterItsScope
  refine ⟨fun s c code awake works unqueued room new => ?_, fun s b awake one => ⟨fun early => ?_, fun due passes settled => ?_⟩, mem_barrierWaits⟩
  · have row : s.dev.row .barrier c = (s.dev.takeOp .barrier c).afterCommands := row_new code awake works unqueued room
    refine ⟨fun h => makes_of _ (exec_barrier c s) (row.trans ?_), fun due passes none => makes_of _ (exec_barrier c s) (row.trans ?_),
      fun q due refused => makes_of _ (exec_barrier c s) (row.trans ?_)⟩
    · rw [takeOp_barrier_waits new h]
      rfl
    · rw [takeOp_barrier_completes new due passes none]
      rfl
    · rw [takeOp_barrier_refused new due refused]
      rfl
  · exact makes_barrierComplete awake one (barrierTry_of_not_due early)
  · refine makes_barrierComplete awake one ((barrierTry_completes due passes settled).trans ?_)
    simp [Dev.barrierEnd, one]

end Sys2Proof.Proofs
end

section
/-! SUPPORT. TABLE_WRITE: bytes of a table's copies, how a write starts, and how its copy ends (02 R82 to R85, R89, R393). -/
namespace Sys2Proof.Proofs
open Sys2Proof.Machine Sys2Proof.Laws

/-! ## Bytes of a table copy -/

/-- The byte at offset `k` of a table copy. -/
def byteAt (m : SMap Word) (k : Nat) : Nat := bits (wordAt m (k / 4)) (8 * (k % 4)) 8

theorem loadBytes_one (m : SMap Word) (k : Nat) : loadBytes m k 1 = [byteAt m k] := rfl

/-- The copy with one byte changed. -/
def byteSet (m : SMap Word) (o b : Nat) : SMap Word := wordSet m (o / 4) (setBits (wordAt m (o / 4)) (8 * (o % 4)) 8 b)

theorem wordAt_byteSet (m : SMap Word) (o b : Nat) :
    wordAt (byteSet m o b) (o / 4) = setBits (wordAt m (o / 4)) (8 * (o % 4)) 8 b := by
  rw [byteSet, wordAt_wordSet_self]
  exact Nat.mod_eq_of_lt (setBits_lt _ _ _ _ _ (BitVec.isLt _) (by omega))

theorem byteAt_byteSet_self (m : SMap Word) (o b : Nat) : byteAt (byteSet m o b) o = b % 256 := by
  rw [byteAt, wordAt_byteSet, bits_setBits_self]
  rfl

theorem byteAt_byteSet_ne (m : SMap Word) {o k : Nat} (b : Nat) (h : k ≠ o) : byteAt (byteSet m o b) k = byteAt m k := by
  by_cases word : k / 4 = o / 4
  · rw [byteAt, word, wordAt_byteSet, bits_setBits_ne _ _ _ _ _ _ (by omega), byteAt, word]
  · simp only [byteAt, byteSet, wordAt_wordSet_ne _ _ word]

theorem storeBytes_cons (m : SMap Word) (o b : Nat) (r : List Nat) : storeBytes m o (b :: r) = storeBytes (byteSet m o b) (o + 1) r := rfl

/-- Stored bytes leave every other byte as it was. -/
theorem byteAt_storeBytes_out : ∀ (l : List Nat) (m : SMap Word) (o k : Nat), k < o ∨ o + l.length ≤ k →
    byteAt (storeBytes m o l) k = byteAt m k
  | [], _, _, _, _ => rfl
  | b :: r, m, o, k, h => by
    simp only [List.length_cons] at h
    rw [storeBytes_cons, byteAt_storeBytes_out r _ _ _ (by omega), byteAt_byteSet_ne _ _ (by omega)]

theorem byteAt_storeBytes_in : ∀ (l : List Nat) (m : SMap Word) (o k : Nat), k < l.length →
    byteAt (storeBytes m o l) (o + k) = l[k]! % 256
  | [], _, _, _, h => by simp at h
  | b :: r, m, o, 0, _ => by
    rw [storeBytes_cons, byteAt_storeBytes_out r _ _ _ (by omega)]
    exact byteAt_byteSet_self m o b
  | b :: r, m, o, k + 1, h => by
    rw [storeBytes_cons, show o + (k + 1) = o + 1 + k by omega, byteAt_storeBytes_in r _ _ k (by simpa using h)]
    simp

/-! ## Storing into a table with a staged copy (R83, R85) -/

section
variable (d : Dev) {t : Nat} (i o n : Nat) (l : List Nat) (core : t ≠ T.dspImage) (staged : hasStaged t = true)
include core staged

theorem tab_tableStore_self (failed : Bool) : (d.tableStore t i o l n failed).tab t =
    { d.tab t with staged := storeBytes (d.tab t).staged o l, changed := (d.tab t).changed || !l.isEmpty || !failed,
                   bad := if failed then (d.tab t).bad ++ [(o, n)] else (d.tab t).bad.filter (fun b => !covers o n b) } := by
  rw [Dev.tableStore, if_neg core]
  simp only [staged, if_true, tab_setTab_self]

theorem tab_tableStore_ne (failed : Bool) {u : Nat} (h : u ≠ t) : (d.tableStore t i o l n failed).tab u = d.tab u := by
  rw [Dev.tableStore, if_neg core]
  simp only [staged, if_true, tab_setTab_ne _ _ h]

end

@[simp] theorem tableStore_tth (d : Dev) (t i o : Nat) (l : List Nat) (n : Nat) (failed : Bool) : (d.tableStore t i o l n failed).tth = d.tth := by
  unfold Dev.tableStore
  dsimp only
  split
  · rfl
  · split <;> rfl

/-! ## Starting a write (R83, R85, R89) -/

section
variable {d : Dev} {c : Cmd}

theorem startWrite_copies (h : d.tableDetail c true = none) :
    d.startWrite c = { d with hre := { d.hre with copies := d.hre.copies ++ [(⟨c, true, none, false⟩ : Copy)] } } := by
  rw [Dev.startWrite, h]

theorem startWrite_refused {n : Nat} (h : d.tableDetail c true = some n) :
    d.startWrite c = (d.complete c ⟨.badTable, n, 0⟩).wroteFor c.id := by
  rw [Dev.startWrite, h]
  rfl

/-- What holds a write back: its table has a staged copy, and a commit ahead of it or a held write stands. -/
def holdsWrite (d : Dev) (c : Cmd) : Bool := hasStaged (Tw.tableId c) && (d.commitAhead c.id || !d.hre.held.isEmpty)

variable (passes : d.refused .tableWrite c = none)
include passes

theorem tableWrite_held (h : holdsWrite d c = true) : d.tableWrite c = { d with hre := { d.hre with held := d.hre.held ++ [c] } } := by
  rw [Dev.tableWrite, passes]
  exact if_pos h

theorem tableWrite_starts (h : holdsWrite d c = false) : d.tableWrite c = d.startWrite c := by
  rw [Dev.tableWrite, passes]
  exact if_neg (Bool.eq_false_iff.1 h)

end

theorem exec_tableWrite (c : Cmd) (s : State) : exec (.tableWrite c) s = s.act (·.row .tableWrite c) := rfl

theorem makes_tableWrite {s : State} {c : Cmd} (h : s.dev.takesWrite c) : Makes (.tableWrite c) s ((s.dev.enlist c).tableWrite c).afterCommands := by
  obtain ⟨code, awake, works, new, room, -⟩ := h
  exact makes_of _ (exec_tableWrite c s) (row_new code awake works new room)

/-! ## Nothing is shared with another unit -/

theorem share_of_unshared {d : Dev} (h : d.tth.shared = []) (i : CmdId) : d.share i = none := by rw [Dev.share, h, List.find?_nil]

theorem copied_of_unshared {d : Dev} (h : d.tth.shared = []) (i : CmdId) : d.copied i = false := by rw [Dev.copied, share_of_unshared h]

theorem waitsPeer_of_unshared {d : Dev} (h : d.tth.shared = []) (i : CmdId) : d.waitsPeer i = false := by rw [Dev.waitsPeer, share_of_unshared h]

theorem commitBound_of_unshared {d : Dev} (h : d.tth.shared = []) (e : PaqE) : commitBound d e = none := by
  simp [commitBound, share_of_unshared h]

theorem commitTell_of_unshared {d : Dev} (h : d.tth.shared = []) : d.commitTell = d :=
  List.foldl_fixed' (fun e => by rw [commitBound_of_unshared h]) _

@[simp] theorem unlink_tth (d : Dev) (c : Cmd) : (d.unlink c).tth = d.tth := by
  unfold Dev.unlink
  dsimp only
  split <;> rfl

@[simp] theorem ringPut_tth (d : Dev) (r : Nat) (l : List Nat) : (d.ringPut r l).tth = d.tth := rfl
@[simp] theorem ringDrop_tth (d : Dev) (r : Nat) : (d.ringDrop r).tth = d.tth := (raise_tth ..).trans (count_tth ..)

@[simp] theorem writeCpl_tth (d : Dev) (c : Cmd) (p : Cpl) : (d.writeCpl c p).tth = d.tth := by
  simp only [Dev.writeCpl, apply_ite Dev.tth, ringPut_tth, ringDrop_tth, unlink_tth, ite_self]

theorem complete_unshared {d : Dev} (h : d.tth.shared = []) (c : Cmd) (p : Cpl) : (d.complete c p).tth.shared = [] := by
  change (d.writeCpl c p).tth.shared.filter _ = []
  rw [writeCpl_tth, h, List.filter_nil]

/-! ## A copy ends (R83 to R85, R393) -/

@[simp] theorem cvuCompute_hdr (d : Dev) (k : Nat) (pre l : List Nat) : (d.cvuCompute k pre l).2.hdr = d.hdr := by
  unfold Dev.cvuCompute
  split
  · exact count_hdr d _
  · rfl

@[simp] theorem cvuFail_tth (d : Dev) (k : Nat) (pre : List Nat) (got want : Nat) : (d.cvuFail k pre got want).tth = d.tth := by simp [Dev.cvuFail]

theorem writeOver_unshared {d : Dev} (h : d.tth.shared = []) (c : Cmd) (err : Option Nat) (l : List Nat) (v : Nat) (wrong : Bool) :
    (d.writeOver c err l v wrong).tth.shared = [] := complete_unshared (by rw [tableStore_tth]; exact h) ..

section
variable {d : Dev} {c : Cmd} {l : List Nat} (unshared : d.tth.shared = [])
include unshared

/-- A copy that ended whole with the check value right, not asked for, or its data inline. -/
theorem writeDone_right (hl : d.writeBytes c none = l) (right : Tw.check c = false ∨ Tw.inline c = true ∨ d.works (cvuBase 3) = false ∨
      (d.cvuCompute 3 (checkPrefix c) l).1 = Tw.expected c) :
    d.writeDone c none = (d.cvuCompute 3 (checkPrefix c) l).2.writeOver c none l (d.cvuCompute 3 (checkPrefix c) l).1 false := by
  have works : (d.cvuCompute 3 (checkPrefix c) l).2.works (cvuBase 3) = d.works (cvuBase 3) := works_of_hdr (by simp) _
  have wrong : (Tw.check c && !Tw.inline c && (d.cvuCompute 3 (checkPrefix c) l).2.works (cvuBase 3) &&
      (d.cvuCompute 3 (checkPrefix c) l).1 != Tw.expected c) = false := by
    rw [works]
    rcases right with h | h | h | h <;> simp [h]
  have alone : (d.cvuCompute 3 (checkPrefix c) l).2.share c.id = none := share_of_unshared (by simpa using unshared) _
  simp only [Dev.writeDone, hl, Option.isNone_none, Bool.true_and, wrong, Option.isSome_none, Bool.false_eq_true, if_false, alone]

/-- A copy that ended whole with the wrong check value. -/
theorem writeDone_wrong (hl : d.writeBytes c none = l) (check : Tw.check c = true) (inline : Tw.inline c = false)
    (works : d.works (cvuBase 3) = true) (wrong : (d.cvuCompute 3 (checkPrefix c) l).1 ≠ Tw.expected c) :
    d.writeDone c none = ((d.cvuCompute 3 (checkPrefix c) l).2.cvuFail 3 (checkPrefix c) (d.cvuCompute 3 (checkPrefix c) l).1 (Tw.expected c)).writeOver
      c none l (d.cvuCompute 3 (checkPrefix c) l).1 true := by
  have works' : (d.cvuCompute 3 (checkPrefix c) l).2.works (cvuBase 3) = true := (works_of_hdr (by simp) _).trans works
  have differs : ((d.cvuCompute 3 (checkPrefix c) l).1 != Tw.expected c) = true := by simpa using wrong
  have alone : ((d.cvuCompute 3 (checkPrefix c) l).2.cvuFail 3 (checkPrefix c) (d.cvuCompute 3 (checkPrefix c) l).1 (Tw.expected c)).share c.id = none :=
    share_of_unshared (by simpa using unshared) _
  simp only [Dev.writeDone, hl, Option.isNone_none, check, inline, works', differs, Bool.not_false, Bool.and_true, if_true,
    Option.isSome_none, Bool.false_eq_true, if_false, alone]

/-- A copy that failed after `n` bytes. -/
theorem writeDone_failed {n : Nat} (hl : d.writeBytes c (some n) = l) :
    d.writeDone c (some n) = (((d.cvuCompute 3 (checkPrefix c) l).2.raise F.dmaErr).note .hreCopyErr).writeOver c (some n) l
      (d.cvuCompute 3 (checkPrefix c) l).1 false := by
  have alone : (((d.cvuCompute 3 (checkPrefix c) l).2.raise F.dmaErr).note .hreCopyErr).share c.id = none :=
    share_of_unshared (by simpa using unshared) _
  simp only [Dev.writeDone, hl, Option.isNone_some, Bool.false_and, Bool.false_eq_true, if_false, Option.isSome_some, if_true, alone,
    Option.isSome_none]

end

section
variable {s : State} {x : Copy} {r : List Copy} (first : s.dev.hre.copies = x :: r) (write : x.write = true)
include first write

/-- The first write copies and shares nothing: its copy ends. -/
theorem makes_copyWriteDone (unshared : s.dev.tth.shared = []) {err : Option Nat} {e : Dev} {l : List Nat} {v : Nat} {wrong : Bool}
    (h : { s.dev with hre := { s.dev.hre with copies := r } }.writeDone x.cmd err = e.writeOver x.cmd err l v wrong)
    (unshared' : e.tth.shared = []) : Makes (.tableWriteCopyDone err) s (e.writeOver x.cmd err l v wrong) := by
  have picked : takeFirst (fun (x : Copy) => x.write && !s.dev.copied x.cmd.id) s.dev.hre.copies = some (x, r) := by
    rw [first, takeFirst, if_pos (by simp [write, copied_of_unshared unshared])]
  have ends : s.dev.copyWriteDone err = e.writeOver x.cmd err l v wrong := by
    simp only [Dev.copyWriteDone, picked, waitsPeer_of_unshared unshared, Bool.false_eq_true, if_false, h]
  refine makes_of _ (exec_tableWriteCopyDone err s) ?_
  rw [ends, commitTell_of_unshared (writeOver_unshared unshared' ..)]

/-- The other unit of the pair has still to copy or to judge: that this one has copied is noted. -/
theorem makes_copyWriteDone_waits (waits : s.dev.waitsPeer x.cmd.id = true) (new : s.dev.copied x.cmd.id = false) (err : Option Nat) :
    Makes (.tableWriteCopyDone err) s (s.dev.copiedHere x.cmd.id err).commitTell := by
  have picked : takeFirst (fun (x : Copy) => x.write && !s.dev.copied x.cmd.id) s.dev.hre.copies = some (x, r) := by
    rw [first, takeFirst, if_pos (by simp [write, new])]
  have noted : s.dev.copyWriteDone err = s.dev.copiedHere x.cmd.id err := by simp only [Dev.copyWriteDone, picked, waits, if_true]
  exact makes_of _ (exec_tableWriteCopyDone err s) (by rw [noted])

end

/-! ## Held writes (R89) -/

theorem exec_heldWriteStart (s : State) : exec .heldWriteStart s = s.act (·.startHeld) := rfl

theorem startHeld_of_closed {d : Dev} (h : d.hre.heldGo = false) : d.startHeld = d := by
  have none : d.heldReady = [] := if_neg (by simp [h])
  have all : d.hre.held.filter (fun c => !([] : List Cmd).contains c) = d.hre.held := List.filter_eq_self.2 (by simp)
  rw [Dev.startHeld, none, Dev.startThese, List.foldl_nil, all, ← h]

theorem startHeld_of_open {d : Dev} (h : d.hre.heldGo = true) {go : List Cmd} (hgo : d.hre.held.filter (fun c => !d.commitAhead c.id) = go) :
    d.startHeld = go.foldl Dev.startWrite { d with hre := { d.hre with heldGo := false, held := d.hre.held.filter (fun c => !go.contains c) } } := by
  have ready : d.heldReady = go := (if_pos h).trans hgo
  rw [Dev.startHeld, ready, Dev.startThese]

/-- Settles O22: what a fetched write starts, how its copy ends, what is stored, and what the end of a commit lets go. -/
theorem tableWriteCopiesIntoTheStagedCopy : Obligations.TableWriteCopiesIntoTheStagedCopy := by
  unfold Obligations.TableWriteCopiesIntoTheStagedCopy
  refine ⟨fun s c takes => ?held, fun s c takes => ?starts, fun s x r first write unshared => ?right, fun s x r first write unshared => ?wrong,
    fun s x r n first write unshared short => ?failed, fun s x r err first write waits new => makes_copyWriteDone_waits first write waits new err,
    fun d t i o n l core staged => ?stores, fun s => ⟨fun h => ?go, fun h => ?stay⟩, fun d c => ⟨startWrite_copies, fun _ => startWrite_refused⟩⟩
  case held =>
    obtain ⟨-, -, -, -, -, passes⟩ := id takes
    intro d h
    rw [← tableWrite_held passes h]
    exact makes_tableWrite takes
  case starts =>
    obtain ⟨-, -, -, -, -, passes⟩ := id takes
    intro d h
    have made := makes_tableWrite takes
    rw [tableWrite_starts passes h] at made
    exact ⟨fun whole => startWrite_copies whole ▸ made, fun n detail => startWrite_refused detail ▸ made⟩
  case right =>
    intro c d l v right
    exact makes_copyWriteDone first write unshared (writeDone_right (d := d) unshared rfl right) (by rw [cvuCompute_tth]; exact unshared)
  case wrong =>
    intro c d l v check inline works wrong
    exact makes_copyWriteDone first write unshared
      (writeDone_wrong (d := d) unshared (if_neg (by simp [c, inline])) check inline works wrong) (by rw [cvuFail_tth, cvuCompute_tth]; exact unshared)
  case failed =>
    intro c d l v
    have bytes : d.writeBytes c (some n) = l := by simp only [Dev.writeBytes, c, Nat.min_eq_left short, l]
    exact makes_copyWriteDone first write unshared (writeDone_failed (d := d) unshared bytes)
      (by rw [note_tth, raise_tth, cvuCompute_tth]; exact unshared)
  case stores =>
    have whole := tab_tableStore_self d i o n l core staged false
    refine ⟨by rw [whole], by simp [whole], ?_, fun k hk => ?_, fun k hk => ?_, fun u => tab_tableStore_ne d i o n l core staged false⟩
    · simp [tab_tableStore_self d i o n l core staged true]
    · rw [whole, loadBytes_one, byteAt_storeBytes_in l _ o k hk]
    · rw [whole, loadBytes_one, loadBytes_one, byteAt_storeBytes_out l _ o k hk]
  case go => exact makes_of _ (exec_heldWriteStart s) (startHeld_of_open h rfl)
  case stay => exact makes_of _ (exec_heldWriteStart s) (startHeld_of_closed h)

end Sys2Proof.Proofs
end

section
/-! SUPPORT. What the units do after the commands of a boundary leaves HRE's lists, the tables and the memories alone, but for the
images that table reads take (02 R86). -/
namespace Sys2Proof.Proofs
open Sys2Proof.Machine Sys2Proof.Laws

/-- What the units that follow a change of the tables leave alone. -/
def storeView (d : Dev) : Hre × SMap Tab × List Host.Cell × List Host.Cell := (d.hre, d.tabs, d.hostMem, d.localMem)

section
variable (d : Dev)

@[simp] theorem storeView_setFld (f : Field) (v : Nat) : storeView (d.setFld f v) = storeView d := (rfl)
@[simp] theorem storeView_setPort (p : Nat) (x : PortS) : storeView (d.setPort p x) = storeView d := (rfl)
@[simp] theorem storeView_setAud (c b : Nat) : storeView (d.setAud c b) = storeView d := (rfl)
@[simp] theorem storeView_setRx (x : Nat) (v : RxS) : storeView (d.setRx x v) = storeView d := (rfl)
@[simp] theorem storeView_setTx (x : Nat) (v : TxS) : storeView (d.setTx x v) = storeView d := (rfl)
@[simp] theorem storeView_setAsrc (a : Nat) (x : AsrcS) : storeView (d.setAsrc a x) = storeView d := (rfl)
@[simp] theorem storeView_setDpll (p : Nat) (x : Dpll) : storeView (d.setDpll p x) = storeView d := (rfl)
@[simp] theorem storeView_setBase (b : Nat) (x : TBase) : storeView (d.setBase b x) = storeView d := (rfl)
@[simp] theorem storeView_out (x : Out) : storeView { d with out := x } = storeView d := (rfl)
@[simp] theorem storeView_slp (x : Slp) : storeView { d with slp := x } = storeView d := (rfl)
@[simp] theorem storeView_ref (x : Ref) : storeView { d with ref := x } = storeView d := (rfl)
@[simp] theorem storeView_drew (n : Nat) : storeView (d.drew n) = storeView d := (rfl)
@[simp] theorem storeView_setFlds (l : List (Field × Nat)) : storeView (d.setFlds l) = storeView d := by simp [storeView]
@[simp] theorem storeView_count (f : Field) : storeView (d.count f) = storeView d := by simp [storeView]
@[simp] theorem storeView_raise (f : Flag) : storeView (d.raise f) = storeView d := by simp [storeView]
@[simp] theorem storeView_raiseIf (c : Bool) (f : Flag) : storeView (d.raiseIf c f) = storeView d := by simp [storeView]

/-! ## Streams (R320, R326) -/

@[simp] theorem storeView_rxFollow (s : Nat) : storeView (d.rxFollow s) = storeView d := by
  unfold Dev.rxFollow
  extract_lets _ _ key
  split
  · rfl
  · exact (storeView_setFlds ..).trans (storeView_setRx ..)

@[simp] theorem storeView_txPlace (x t first : Nat) (e : List Nat) : storeView (d.txPlace x t first e) = storeView d :=
  (storeView_setFld ..).trans (storeView_setTx ..)
@[simp] theorem storeView_txFresh (x t : Nat) (e : List Nat) : storeView (d.txFresh x t e) = storeView d := storeView_txPlace ..

@[simp] theorem storeView_txFollow (x t : Nat) : storeView (d.txFollow x t) = storeView d := by
  unfold Dev.txFollow
  extract_lets e v now
  split
  · dsimp only
    simp only [apply_ite storeView, storeView_setTx, storeView_txPlace, storeView_txFresh, storeView_setFld, ite_self]
  · split
    · rfl
    · exact storeView_txFresh ..

@[simp] theorem storeView_strFollow (t : Nat) : storeView (d.strFollow t) = storeView d :=
  (foldl_keeps storeView (fun e x => storeView_txFollow e x t) _ _).trans (foldl_keeps storeView storeView_rxFollow _ _)

/-! ## Banks and the patch (R211, R221) -/

@[simp] theorem storeView_judgeBank (c : Nat) : storeView (d.judgeBank c) = storeView d := by
  unfold Dev.judgeBank
  extract_lets want fading set
  split
  · exact (storeView_out ..).trans (storeView_setAud ..)
  · split
    · rfl
    · exact storeView_out ..

@[simp] theorem storeView_judgeBanks : storeView d.judgeBanks = storeView d :=
  (storeView_out ..).trans (foldl_keeps storeView storeView_judgeBank _ _)

@[simp] theorem storeView_patchConflicts : storeView d.patchConflicts = storeView d :=
  (storeView_setFld ..).trans ((storeView_out ..).trans (storeView_raiseIf ..))

/-! ## ASRC channels (R236, R247) -/

@[simp] theorem storeView_asrcRenew (a target : Nat) (est : Int) : storeView (d.asrcRenew a target est) = storeView d := storeView_setAsrc ..

@[simp] theorem storeView_asrcLeave (a st : Nat) : storeView (d.asrcLeave a st) = storeView d := by
  simp only [Dev.asrcLeave, storeView_setFld, apply_ite storeView, storeView_setAsrc, ite_self]

@[simp] theorem storeView_asrcServe (a : Nat) : storeView (d.asrcServe a) = storeView d := by
  unfold Dev.asrcServe
  split
  · simp
  · dsimp only
    simp only [apply_ite storeView, storeView_setFld, storeView_asrcRenew, storeView_raiseIf, storeView_raise, storeView_asrcLeave, storeView_setAsrc, ite_self]

@[simp] theorem storeView_asrcIdle : storeView d.asrcIdle = storeView d := foldl_keeps storeView (fun e a => by simp) _ _

@[simp] theorem storeView_noAsrc : storeView d.noAsrc = storeView d := (storeView_setFld ..).trans (storeView_raiseIf ..)

@[simp] theorem storeView_asrcService : storeView d.asrcService = storeView d := by
  unfold Dev.asrcService
  extract_lets now conflict slp served
  have hServed : storeView served = storeView d := (storeView_noAsrc _).trans ((storeView_slp ..).trans (storeView_raiseIf ..))
  split
  · exact (foldl_keeps storeView storeView_asrcServe _ _).trans hServed
  · exact (storeView_asrcIdle _).trans hServed

/-! ## Ports (R47) -/

@[simp] theorem storeView_sapRefresh : storeView d.sapRefresh = storeView d :=
  foldl_keeps storeView (fun e p => by split <;> simp) _ _

/-! ## References and DPLLs (R355 to R361, R406) -/

@[simp] theorem storeView_trip (may : Bool) : storeView (d.trip may) = storeView d := by
  unfold Dev.trip
  split
  · split
    · exact storeView_raise ..
    · rfl
    · rfl
  · rfl

@[simp] theorem storeView_dpllState (p st : Nat) : storeView (d.dpllState p st) = storeView d := by
  unfold Dev.dpllState
  dsimp only
  split
  · rfl
  · simp only [storeView_raiseIf, storeView_setFld, Dev.tripMaskable, apply_ite storeView, storeView_trip, ite_self]
    split <;> rfl

@[simp] theorem storeView_dpllFresh (p i : Nat) : storeView (d.dpllFresh p i) = storeView d := (storeView_drew ..).trans (storeView_setDpll ..)

@[simp] theorem storeView_dpllPhase (b p : Nat) : storeView (d.dpllPhase b p) = storeView d := by
  simp only [Dev.dpllPhase, apply_ite storeView, storeView_dpllState, storeView_setDpll, ite_self]

@[simp] theorem storeView_refPhases : storeView d.refPhases = storeView d :=
  foldl_keeps storeView (fun e b => by split <;> simp) _ _

@[simp] theorem storeView_refLimits (i : Nat) : storeView (d.refLimits i) = storeView d := by simp [Dev.refLimits]

@[simp] theorem storeView_refEval (i : Nat) : storeView (d.refEval i) = storeView d := by
  simp only [Dev.refEval, storeView_setFlds, apply_ite storeView, storeView_refLimits, storeView_setFld, ite_self]

@[simp] theorem storeView_refFormats : storeView d.refFormats = storeView d := by
  refine foldl_keeps storeView (fun e i => ?_) _ _
  dsimp only
  split
  · rfl
  · split
    · exact storeView_ref ..
    · exact (storeView_setFld ..).trans (storeView_ref ..)

@[simp] theorem storeView_dpllEval (p : Nat) : storeView (d.dpllEval p) = storeView d := by
  unfold Dev.dpllEval
  split
  · simp only [storeView_setFlds, storeView_setDpll, apply_ite storeView, storeView_dpllState, ite_self]
  · simp only [storeView_setFlds, storeView_setFld, storeView_setDpll, storeView_raise, storeView_raiseIf, storeView_count, apply_ite storeView,
      storeView_dpllState, storeView_dpllFresh, ite_self]

@[simp] theorem storeView_refFollow : storeView d.refFollow = storeView d := by
  unfold Dev.refFollow
  split
  · rfl
  · extract_lets phases evals role dplls
    have hEvals : storeView evals = storeView d :=
      (foldl_keeps storeView storeView_refEval _ _).trans ((storeView_refFormats _).trans (storeView_refPhases d))
    have hDplls : storeView dplls = storeView d := (storeView_dpllEval ..).trans ((storeView_dpllEval ..).trans hEvals)
    split
    · exact hDplls
    · exact (storeView_dpllEval ..).trans hDplls

/-! ## Images of the tables (R86) -/

theorem tableImage_of_storeView {d e : Dev} (h : storeView e = storeView d) (c : Cmd) : e.tableImage c = d.tableImage c := by
  obtain ⟨-, tabs, -, cores⟩ : _ ∧ _ ∧ _ ∧ _ := by simpa only [storeView, Prod.mk.injEq] using h
  simp only [Dev.tableImage, Dev.tab, tabs, cores]

theorem captureReads_of_storeView {d e : Dev} (h : storeView e = storeView d) : storeView e.captureReads = storeView d.captureReads := by
  obtain ⟨hre, tabs, host, cores⟩ : _ ∧ _ ∧ _ ∧ _ := by simpa only [storeView, Prod.mk.injEq] using h
  simp only [storeView, Dev.captureReads, tableImage_of_storeView h, hre, tabs, host, cores]

/-- After the commands of a boundary, HRE's lists, the tables and the memories stand as they did, and table reads have taken their images. -/
theorem storeView_afterCommands : storeView d.afterCommands = storeView d.captureReads := by
  unfold Dev.afterCommands
  extract_lets str banks
  have hBanks : storeView banks = storeView d := by simp only [banks, apply_ite storeView, storeView_judgeBanks, ite_self, str, storeView_strFollow]
  rw [storeView_refFollow, storeView_sapRefresh]
  exact captureReads_of_storeView ((storeView_asrcService _).trans ((storeView_patchConflicts _).trans hBanks))

end

end Sys2Proof.Proofs
end

section
/-! SUPPORT. TABLE_READ: the image of a table and its copy to host memory (02 R86, R97). -/
namespace Sys2Proof.Proofs
open Sys2Proof.Machine Sys2Proof.Laws

/-! ## A read that applies -/

theorem exec_tableRead (c : Cmd) (s : State) : exec (.tableRead c) s = s.act (·.row .tableRead c) := rfl

/-- The part with one copy more in progress. -/
def withCopy (d : Dev) (x : Copy) : Dev := { d with hre := { d.hre with copies := d.hre.copies ++ [x] } }

/-- A copy that has no image yet takes the table as it stands. -/
theorem withCopy_captured (d : Dev) (c : Cmd) (late : Bool) :
    (⟨c, false, some (d.tableImage c), late⟩ : Copy) ∈ (withCopy d ⟨c, false, none, late⟩).captureReads.hre.copies :=
  List.mem_map.2 ⟨⟨c, false, none, late⟩, List.mem_append_right _ (List.mem_singleton_self _), rfl⟩

section
variable {s : State} {c : Cmd} (h : s.dev.applies .tableRead c)
include h

theorem makes_tableRead_starts (whole : (s.dev.unqueue c).tableDetail c false = none) :
    Makes (.tableRead c) s (withCopy (s.dev.unqueue c) ⟨c, false, none, (s.dev.unqueue c).isLate c⟩).afterCommands := by
  have effect : (s.dev.unqueue c).effect .tableRead c ((s.dev.unqueue c).cmdLate .tableRead c) =
      (none, withCopy (s.dev.unqueue c) ⟨c, false, none, (s.dev.unqueue c).isLate c⟩) := by
    change (s.dev.unqueue c).tableRead c ((s.dev.unqueue c).isLate c) = _
    rw [Dev.tableRead, whole]
    rfl
  exact makes_of _ (exec_tableRead c s) (by rw [row_applies (by decide) h, effect])

theorem makes_tableRead_refused {n : Nat} (detail : (s.dev.unqueue c).tableDetail c false = some n) :
    Makes (.tableRead c) s ((s.dev.unqueue c).ends c ⟨.badTable, n, 0⟩) := by
  have effect : (s.dev.unqueue c).effect .tableRead c ((s.dev.unqueue c).cmdLate .tableRead c) = (some (.bad n), s.dev.unqueue c) := by
    change (s.dev.unqueue c).tableRead c ((s.dev.unqueue c).isLate c) = _
    rw [Dev.tableRead, detail]
  exact makes_of _ (exec_tableRead c s) (by rw [row_applies (by decide) h, effect]; rfl)

end

/-! ## The copy ends -/

/-- The bytes that a read copies. -/
def readBytes (c : Cmd) (m : SMap Word) : List Nat := loadBytes m (Tw.offset c) (Tw.length c)

section
variable {d : Dev} {x : Copy} {r : List Copy} {m : SMap Word} (first : d.hre.copies = x :: r) (read : x.write = false) (snap : x.snap = some m)
  {v : Nat × Dev} (hv : { d with hre := { d.hre with copies := r } }.cvuCompute 3 (checkPrefix x.cmd) (readBytes x.cmd m) = v)
include first read snap hv

theorem copyReadDone_whole : d.copyReadDone none =
    (v.2.hostWrite (Tw.hostAddr x.cmd) (readBytes x.cmd m)).complete x.cmd ⟨lateOk x.late, 0, v.1⟩ := by
  have picked : takeFirst (fun (x : Copy) => !x.write) d.hre.copies = some (x, r) := by
    rw [first, takeFirst, if_pos (by simp [read])]
  subst hv
  simp only [Dev.copyReadDone, picked, snap, readBytes]

theorem copyReadDone_failed (n : Nat) : d.copyReadDone (some n) =
    ((((v.2.hostWrite (Tw.hostAddr x.cmd) ((readBytes x.cmd m).take n)).hostFree (Tw.hostAddr x.cmd + n) (Tw.length x.cmd - n)).raise
      F.dmaErr).note .hreCopyErr).complete x.cmd ⟨.badTable, 5, v.1⟩ := by
  have picked : takeFirst (fun (x : Copy) => !x.write) d.hre.copies = some (x, r) := by
    rw [first, takeFirst, if_pos (by simp [read])]
  subst hv
  simp only [Dev.copyReadDone, picked, snap, readBytes]

end

/-! ## Host memory -/

theorem hostByte_hostWrite_out (d : Dev) {a : Nat} (l : List Nat) {i : Nat} (ha : a < 2 ^ 64) (h : i < a ∨ a + l.length ≤ i) :
    (d.hostWrite a l).hostByte i = d.hostByte i := by
  change memGet (memWrite d.hostMem (a % 2 ^ 64) l) i = memGet d.hostMem i
  rw [Nat.mod_eq_of_lt ha]
  exact memGet_memWrite_out l _ a i h

theorem hostByte_hostWrite_in (d : Dev) {a : Nat} (l : List Nat) {k : Nat} (h : k < l.length) (ha : a < 2 ^ 64) :
    (d.hostWrite a l).hostByte (a + k) = BitVec.ofNat 8 l[k] := by
  change memGet (memWrite d.hostMem (a % 2 ^ 64) l) (a + k) = _
  rw [Nat.mod_eq_of_lt ha]
  exact memGet_memWrite_in l _ a k h

/-- Settles O23: the copy that a read starts, its image, how it ends, and what a host write stores. -/
theorem tableReadCopiesTheTableToHostMemory : Obligations.TableReadCopiesTheTableToHostMemory := by
  unfold Obligations.TableReadCopiesTheTableToHostMemory
  refine ⟨fun s c h whole => ?starts, fun d c core => ?image, fun s c n h detail => makes_tableRead_refused h detail,
    fun s x r m first read snap => ⟨?ends, fun n => ?fails⟩, fun d a l i ha out => hostByte_hostWrite_out d l ha out,
    fun d a l k hk ha => hostByte_hostWrite_in d l hk ha⟩
  case starts =>
    intro d
    obtain ⟨hre, tabs, host, -⟩ : _ ∧ _ ∧ _ ∧ _ := by
      simpa only [storeView, Prod.mk.injEq] using storeView_afterCommands (withCopy d ⟨c, false, none, d.isLate c⟩)
    exact ⟨_, makes_tableRead_starts h whole, hre ▸ withCopy_captured d c _, host, tabs⟩
  case image =>
    rw [Dev.tableImage]
    simp [core]
  case ends => exact makes_of _ (exec_tableReadCopyDone none s) (copyReadDone_whole first read snap rfl)
  case fails => exact makes_of _ (exec_tableReadCopyDone (some n) s) (copyReadDone_failed first read snap rfl n)

end Sys2Proof.Proofs
end

section
/-! SUPPORT. SCENE_COMMIT: swapping and taking back the staged tables, and how a commit waits, acts and ends (02 R87 to R89). -/
namespace Sys2Proof.Proofs
open Sys2Proof.Machine Sys2Proof.Laws

/-! ## The form of a commit -/

/-- A field of a word of any width replaced. -/
theorem toNat_ofNat_setBits {n : Nat} (x : BitVec n) {lo w : Nat} (v : Nat) (h : lo + w ≤ n) :
    (BitVec.ofNat n (setBits x.toNat lo w v)).toNat = setBits x.toNat lo w v := by
  rw [BitVec.toNat_ofNat]
  exact Nat.mod_eq_of_lt (setBits_lt _ _ _ _ _ x.isLt h)

theorem commitDiscard_withBits (c : Cmd) (b : Nat) : commitDiscard (c.withBits 16 1 b) = (b % 2 == 1) := by
  have payload : (c.withBits 16 1 b).payload.toNat = setBits c.payload.toNat 0 1 b :=
    toNat_ofNat_setBits c.payload b (by decide)
  have byte : bitAt (bits (setBits c.payload.toNat 0 1 b) 0 8) 0 = bitAt (setBits c.payload.toNat 0 1 b) 0 := by
    simp only [bitAt, bits, Nat.pow_zero, Nat.div_one]
    rw [Nat.mod_mod_of_dvd _ (by decide)]
  rw [commitDiscard, Cmd.u8, Cmd.bitsAt, payload, ← bitAt_setBits_self c.payload.toNat 0 b]
  exact byte

/-! ## Tables changed one after the other -/

/-- Every table of a list without repeats is changed by itself. -/
theorem tab_foldl_setTab (f : Tab → Tab) {l : List Nat} (nodup : l.Nodup) (d : Dev) (t : Nat) :
    (l.foldl (fun d t => d.setTab t (f (d.tab t))) d).tab t = if t ∈ l then f (d.tab t) else d.tab t := by
  induction l generalizing d with
  | nil => rfl
  | cons u r ih =>
    obtain ⟨fresh, nodup⟩ := List.nodup_cons.1 nodup
    rw [List.foldl_cons, ih nodup]
    by_cases h : t = u
    · subst h
      simp [fresh]
    · simp [h, tab_setTab_ne]

/-- A table whose staged copy is taken back. -/
def takenBack (x : Tab) : Tab := { x with staged := x.live, changed := false, bad := [] }

/-- A table at a swap (R87, R89). -/
def swapped (x : Tab) : Tab := if x.changed then { x with live := x.staged, changed := false } else { x with staged := x.live }

theorem swapped_of_good {x : Tab} (good : x.bad = []) :
    swapped x = let m := if x.changed = true then x.staged else x.live; ⟨m, m, false, []⟩ := by
  obtain ⟨live, staged, changed, bad⟩ := x
  cases good
  cases changed <;> rfl

/-- What a commit and its validations leave alone. -/
def worldView (d : Dev) : List Host.Cell × Top := (d.hostMem, d.top)

theorem hostMem_of_worldView {d e : Dev} (h : worldView e = worldView d) : e.hostMem = d.hostMem := congrArg Prod.fst h
theorem top_of_worldView {d e : Dev} (h : worldView e = worldView d) : e.top = d.top := congrArg Prod.snd h

section
variable (d : Dev)

@[simp] theorem worldView_setTab (t : Nat) (x : Tab) : worldView (d.setTab t x) = worldView d := by simp [worldView]
@[simp] theorem worldView_setFld (f : Field) (v : Nat) : worldView (d.setFld f v) = worldView d := (rfl)
@[simp] theorem worldView_setFlds (l : List (Field × Nat)) : worldView (d.setFlds l) = worldView d := by simp [worldView]
@[simp] theorem worldView_raise (f : Flag) : worldView (d.raise f) = worldView d := by simp [worldView]

theorem tab_discardStaged {t : Nat} (h : t ∈ stagedTables) : d.discardStaged.tab t = takenBack (d.tab t) :=
  (tab_foldl_setTab takenBack (by decide) d t).trans (if_pos h)

theorem worldView_discardStaged : worldView d.discardStaged = worldView d := foldl_keeps worldView (fun _ _ => worldView_setTab ..) _ _

theorem swapMoves_frame : (worldView d.swapMoves, d.swapMoves.tabs) = (worldView d, d.tabs) := by
  unfold Dev.swapMoves
  refine foldl_keeps (fun d => (worldView d, d.tabs)) (fun e x => ?_) ..
  rfl

/-- Every table with a staged copy, swapped. -/
def swappedAll (d : Dev) : Dev := stagedTables.foldl (fun d t => d.setTab t (swapped (d.tab t))) d

theorem swapStaged_eq : d.swapStaged =
    (if (d.tab T.objObject).changed then (swappedAll (if swapsObj d then d.dropAllSets d.top.tick else d)).swapMoves
      else swappedAll (if swapsObj d then d.dropAllSets d.top.tick else d)) := by
  have step : (fun (d : Dev) t => if (d.tab t).changed then d.setTab t { d.tab t with live := (d.tab t).staged, changed := false }
      else d.setTab t { d.tab t with staged := (d.tab t).live }) = fun d t => d.setTab t (swapped (d.tab t)) := by
    funext d t
    rw [swapped, apply_ite (d.setTab t)]
  rw [Dev.swapStaged, swappedAll, ← step]

theorem tab_swapStaged {t : Nat} (h : t ∈ stagedTables) : d.swapStaged.tab t = swapped (d.tab t) := by
  have moves (e : Dev) : e.swapMoves.tab t = e.tab t := by
    rw [Dev.tab, show e.swapMoves.tabs = e.tabs from congrArg Prod.snd (swapMoves_frame e), Dev.tab]
  have sets : (if swapsObj d then d.dropAllSets d.top.tick else d).tab t = d.tab t := by split <;> rfl
  have all : (swappedAll (if swapsObj d then d.dropAllSets d.top.tick else d)).tab t = swapped (d.tab t) := by
    rw [swappedAll, tab_foldl_setTab swapped (by decide), if_pos h, sets]
  rw [swapStaged_eq, apply_ite (Dev.tab · t), moves, all, ite_self]

theorem worldView_swapStaged : worldView d.swapStaged = worldView d := by
  have all (e : Dev) : worldView (swappedAll e) = worldView e := foldl_keeps worldView (fun _ _ => worldView_setTab ..) _ _
  have moves (e : Dev) : worldView e.swapMoves = worldView e := congrArg Prod.fst (swapMoves_frame e)
  have sets : worldView (if swapsObj d then d.dropAllSets d.top.tick else d) = worldView d := by split <;> rfl
  rw [swapStaged_eq, apply_ite worldView, moves, all, sets, ite_self]

/-! ## The validations before a swap (R116, R213, R312) -/

theorem worldView_panValidate : worldView d.panValidate.2 = worldView d := by
  unfold Dev.panValidate
  dsimp only
  split
  · split <;> simp
  · rfl

theorem worldView_outValidate : worldView d.outValidate.2 = worldView d := by
  unfold Dev.outValidate
  dsimp only
  split <;> simp

theorem worldView_strValidate : worldView d.strValidate.2 = worldView d := by
  unfold Dev.strValidate
  extract_lets rx tx
  split
  · exact worldView_setFld ..
  · dsimp only
    rw [worldView_raise, worldView_setFlds, worldView_setTab]

theorem worldView_commitChecks (e : PaqE) : worldView (d.commitChecks e) = worldView d := by
  simp only [Dev.commitChecks, apply_ite worldView, worldView_strValidate, worldView_outValidate, worldView_panValidate, ite_self]

/-! ## A commit is over (R89) -/

variable (c : Cmd)

@[simp] theorem commitOver_tabs : (d.commitOver c).tabs = d.tabs := (rfl)
@[simp] theorem commitOver_heldGo : (d.commitOver c).hre.heldGo = true := (rfl)
@[simp] theorem worldView_commitOver : worldView (d.commitOver c) = worldView d := (rfl)
@[simp] theorem tab_commitOver (t : Nat) : (d.commitOver c).tab t = d.tab t := (rfl)

@[simp] theorem digest_commitOver : (d.commitOver c).digest = d.digest := by simp only [Dev.digest, tab_commitOver]

end

/-! ## A commit acts (R87) -/

section
variable {d : Dev} {c : Cmd} (late : Bool)

theorem commitAct_discards (h : commitDiscard c = true) : d.commitAct ⟨.sceneCommit, c⟩ late =
    (d.discardStaged.commitOver c).complete c ⟨lateOk late, 0, (d.discardStaged.commitOver c).digest⟩ := by
  simp only [Dev.commitAct, h, if_true, digest_commitOver]

section
variable (h : commitDiscard c = false)
include h

theorem commitAct_swaps (good : ∀ t ∈ stagedTables, ((d.commitChecks ⟨.sceneCommit, c⟩).tab t).bad = []) :
    d.commitAct ⟨.sceneCommit, c⟩ late = ((d.commitChecks ⟨.sceneCommit, c⟩).swapStaged.commitOver c).complete c
      ⟨lateOk late, 0, ((d.commitChecks ⟨.sceneCommit, c⟩).swapStaged.commitOver c).digest⟩ := by
  have none : stagedTables.any (fun t => !((d.commitChecks ⟨.sceneCommit, c⟩).tab t).bad.isEmpty) = false := by
    rw [List.any_eq_false]
    exact fun t ht => by simp [good t ht]
  simp only [Dev.commitAct, h, none, Bool.false_eq_true, if_false, if_true, digest_commitOver]

theorem commitAct_refuses (bad : ∃ t ∈ stagedTables, ((d.commitChecks ⟨.sceneCommit, c⟩).tab t).bad ≠ []) :
    d.commitAct ⟨.sceneCommit, c⟩ late = ((d.commitChecks ⟨.sceneCommit, c⟩).commitOver c).complete c
      ⟨.badTable, 6, ((d.commitChecks ⟨.sceneCommit, c⟩).commitOver c).digest⟩ := by
  have some : stagedTables.any (fun t => !((d.commitChecks ⟨.sceneCommit, c⟩).tab t).bad.isEmpty) = true := by
    obtain ⟨t, ht, hb⟩ := bad
    exact List.any_eq_true.2 ⟨t, ht, by simpa using hb⟩
  simp only [Dev.commitAct, h, some, Bool.false_eq_true, if_false, if_true, digest_commitOver]

end
end

/-! ## A commit is tried at or after its apply tick (R76, R88) -/

section
variable {d : Dev} {c : Cmd} (due : d.isDue c = true)
include due

theorem applyEntry_tries : d.applyEntry ⟨.sceneCommit, c⟩ = d.commitTry ⟨.sceneCommit, c⟩ (d.isLate c) :=
  (if_neg (by simp [show d.cmdDue .sceneCommit c = true from due])).trans (if_pos rfl)

/-- A commit that was late already is judged no more. -/
theorem applyEntry_late (late : (d.commitW c.id).late = true) (ready : commitReady d ⟨.sceneCommit, c⟩ = true) :
    d.applyEntry ⟨.sceneCommit, c⟩ = d.commitAct ⟨.sceneCommit, c⟩ true := by
  simp only [applyEntry_tries due, Dev.commitTry, late, ready, Bool.or_true, if_true]

variable (early : (d.commitW c.id).late = false)
include early

theorem applyEntry_refuses {q : Cpl} (h : d.refused .sceneCommit c = some q) : d.applyEntry ⟨.sceneCommit, c⟩ = (d.commitOver c).complete c q := by
  simp only [applyEntry_tries due, Dev.commitTry, early, Bool.false_eq_true, if_false, h]

variable (passes : d.refused .sceneCommit c = none)
include passes

theorem applyEntry_acts (ready : commitReady d ⟨.sceneCommit, c⟩ = true) :
    d.applyEntry ⟨.sceneCommit, c⟩ = d.commitAct ⟨.sceneCommit, c⟩ (d.isLate c) := by
  simp only [applyEntry_tries due, Dev.commitTry, early, Bool.false_eq_true, if_false, passes, ready, if_true, Bool.or_false]

theorem applyEntry_stays (ready : commitReady d ⟨.sceneCommit, c⟩ = false) :
    d.applyEntry ⟨.sceneCommit, c⟩ = d.setCommitW c.id (fun w => { w with late := true }) := by
  simp only [applyEntry_tries due, Dev.commitTry, early, Bool.false_eq_true, if_false, passes, ready]

end

/-! ## A fetched commit -/

/-- The part once a fetched commit is listed with what it waits for (R88). -/
def commitListed (d : Dev) (c : Cmd) : Dev :=
  { d.enlist c with hre := { (d.enlist c).hre with commits := (d.enlist c).hre.commits ++ [(⟨c.id, (d.enlist c).writesOpen, none, false⟩ : CommitW)] } }

theorem checkView_commitListed (d : Dev) (c : Cmd) : checkView (commitListed d c) = checkView d := checkView_enlist d c

theorem takeOp_sceneCommit (d : Dev) (c : Cmd) : d.takeOp .sceneCommit c = (commitListed d c).actOrWait .sceneCommit c := rfl

theorem commitW_commitListed {d : Dev} {c : Cmd} (new : ∀ x ∈ d.hre.commits, x.id ≠ c.id) :
    (commitListed d c).commitW c.id = ⟨c.id, (d.enlist c).writesOpen, none, false⟩ := by
  have unseen : (d.enlist c).hre.commits.find? (fun w => w.id == c.id) = none := by
    rw [enlist_commits, List.find?_eq_none]
    exact fun x hx => by simpa using new x hx
  have found : (commitListed d c).hre.commits.find? (fun w => w.id == c.id) = some ⟨c.id, (d.enlist c).writesOpen, none, false⟩ := by
    rw [commitListed, List.find?_append, unseen]
    simp
  rw [Dev.commitW, found]

theorem commitW_setPaq (d : Dev) (l : List PaqE) (i : CmdId) : (d.setPaq l).commitW i = d.commitW i := rfl

theorem commitReady_setPaq (d : Dev) (l : List PaqE) (x : PaqE) : commitReady (d.setPaq l) x = commitReady d x := by
  simp only [commitReady, commitW_setPaq, running_of_checkView (checkView_setPaq d l)]
  rfl

section
variable {d : Dev} {c : Cmd} (due : d.isDue c = true)
include due

/-- A commit that a check refuses does not enter the queue. -/
theorem actOrWait_refused (early : (d.commitW c.id).late = false) {q : Cpl} (h : d.refused .sceneCommit c = some q) :
    d.actOrWait .sceneCommit c = (d.commitOver c).complete c q := by
  have now : d.cmdDue .sceneCommit c = true := due
  simp only [Dev.actOrWait, now, h, Option.isSome_some, Bool.or_true, Bool.true_or, Bool.and_true, if_true]
  exact applyEntry_refuses due early h

/-- A commit that is due and not ready enters the queue and is marked late. -/
theorem actOrWait_stays (early : (d.commitW c.id).late = false) (passes : d.refused .sceneCommit c = none)
    (ready : commitReady d ⟨.sceneCommit, c⟩ = false) (new : d.hre.paq.any (fun e => e.cmd.id == c.id) = false) :
    d.actOrWait .sceneCommit c = (d.setPaq (d.hre.paq ++ [⟨.sceneCommit, c⟩])).setCommitW c.id (fun w => { w with late := true }) := by
  have queued : d.enqueue .sceneCommit c = d.setPaq (d.hre.paq ++ [⟨.sceneCommit, c⟩]) := if_neg (by simp [new])
  have wait : (d.cmdDue .sceneCommit c && (Opcode.sceneCommit != .sceneCommit || (d.refused .sceneCommit c).isSome ||
      commitReady d ⟨.sceneCommit, c⟩)) = false := by simp [passes, ready]
  simp only [Dev.actOrWait, wait, Bool.false_eq_true, if_false, queued]
  exact applyEntry_stays ((isDue_of_checkView (checkView_setPaq ..) c).trans due) (by rw [commitW_setPaq]; exact early)
    ((refused_of_checkView (checkView_setPaq ..) _ c).trans passes) ((commitReady_setPaq ..).trans ready)

end

/-! ## Rows -/

/-- The two forms of the command with their DISCARD bit. -/
def commitRows : List ((Cmd → Instr) × Nat) := [(.sceneCommit, 0), (.sceneCommitDiscard, 1)]

theorem exec_commitRow (s : State) (c0 : Cmd) (p : (Cmd → Instr) × Nat) (hp : p ∈ commitRows) :
    exec (p.1 c0) s = s.act (·.row .sceneCommit (c0.withBits 16 1 p.2)) := by
  rcases List.mem_cons.1 hp with rfl | hp
  · rfl
  · rw [List.mem_singleton.1 hp]
    rfl

theorem makes_commitRow {s : State} {c0 : Cmd} {p : (Cmd → Instr) × Nat} (hp : p ∈ commitRows) {d : Dev}
    (h : s.dev.row .sceneCommit (c0.withBits 16 1 p.2) = d) : Makes (p.1 c0) s d := makes_of _ (exec_commitRow s c0 p hp) h

theorem makes_commitApplies {s : State} {c0 : Cmd} {p : (Cmd → Instr) × Nat} (hp : p ∈ commitRows)
    (h : s.dev.applies .sceneCommit (c0.withBits 16 1 p.2)) {d : Dev} (acts : s.dev.applyEntry ⟨.sceneCommit, c0.withBits 16 1 p.2⟩ = d) :
    Makes (p.1 c0) s d.afterCommands := by
  obtain ⟨code, awake, works, waiting, -, -⟩ := h
  exact makes_commitRow hp ((row_waiting code awake works waiting).trans (by rw [acts]))

theorem exec_sceneCommitAct (s : State) : exec .sceneCommitAct s =
    s.act (fun d => ((d.hre.paq.filter (fun e => (d.commitW e.cmd.id).late)).foldl Dev.applyEntry d).afterCommands) := rfl

/-- Settles O24: a commit that acts, one that takes the staged tables back, one that waited, and one that is queued or fetched. -/
theorem sceneCommitSwapsOrDiscards : Obligations.SceneCommitSwapsOrDiscards := by
  unfold Obligations.SceneCommitSwapsOrDiscards
  refine ⟨fun s c0 => ?swap, fun s c0 => ?discard, fun s e late op due ready => ?act, fun p hp s c0 => ?form⟩
  case swap =>
    intro c applies passes early
    have due : s.dev.isDue c = true := applies.2.2.2.2.1
    have keep : commitDiscard c = false := commitDiscard_withBits c0 0
    have hp : ((.sceneCommit, 0) : (Cmd → Instr) × Nat) ∈ commitRows := .head _
    refine ⟨fun ready => makes_commitApplies hp applies (applyEntry_stays due early passes ready), fun ready => ?_⟩
    have acts := applyEntry_acts due early passes ready
    intro d
    have world : worldView d = worldView s.dev := worldView_commitChecks ..
    refine ⟨fun good => ⟨d.swapStaged.commitOver c, makes_commitApplies hp applies (acts.trans (commitAct_swaps _ keep good)), fun t ht => ?_,
      commitOver_heldGo .., ?_⟩, fun bad => ⟨d.commitOver c, makes_commitApplies hp applies (acts.trans (commitAct_refuses _ keep bad)),
      commitOver_tabs .., commitOver_heldGo ..⟩⟩
    · rw [tab_commitOver, tab_swapStaged d ht, swapped_of_good (good t ht)]
    · have rest : worldView (d.swapStaged.commitOver c) = worldView s.dev :=
        ((worldView_commitOver ..).trans (worldView_swapStaged d)).trans world
      exact ⟨hostMem_of_worldView rest, top_of_worldView rest⟩
  case discard =>
    intro c applies passes early ready
    have due : s.dev.isDue c = true := applies.2.2.2.2.1
    refine ⟨s.dev.discardStaged.commitOver c, makes_commitApplies (p := (.sceneCommitDiscard, 1)) (.tail _ (.head _)) applies
      ((applyEntry_acts due early passes ready).trans (commitAct_discards _ (commitDiscard_withBits c0 1))), fun t ht => ?_, commitOver_heldGo .., ?_⟩
    · rw [tab_commitOver, tab_discardStaged _ ht]
      rfl
    · have rest : worldView (s.dev.discardStaged.commitOver c) = worldView s.dev :=
        (worldView_commitOver ..).trans (worldView_discardStaged s.dev)
      exact hostMem_of_worldView rest
  case act =>
    obtain ⟨_, c⟩ := e
    cases op
    have listed : (⟨.sceneCommit, c⟩ : PaqE) ∈ s.dev.hre.paq.filter (fun e => (s.dev.commitW e.cmd.id).late) := by
      rw [late]
      exact List.mem_singleton_self _
    have marked : (s.dev.commitW c.id).late = true := (List.mem_filter.1 listed).2
    refine makes_of _ (exec_sceneCommitAct s) ?_
    rw [late, List.foldl_cons, List.foldl_nil, applyEntry_late due marked ready]
  case form =>
    intro c w d e code awake works
    refine ⟨fun waiting => ⟨fun early => makes_commitRow hp ?_, fun q due early refused => makes_commitRow hp ?_⟩,
      fun new => ⟨fun full => makes_commitRow hp (row_full code awake works new full), fun room fresh => ?_⟩⟩
    · rw [row_waiting code awake works waiting, applyEntry_of_not_due (op := .sceneCommit) (c := c) early]
    · rw [row_waiting code awake works waiting, applyEntry_refuses due early refused]
      rfl
    · have taken : s.dev.row .sceneCommit c = (d.actOrWait .sceneCommit c).afterCommands :=
        (row_new code awake works new room).trans (congrArg Dev.afterCommands (takeOp_sceneCommit s.dev c))
      have isDue : d.isDue c = s.dev.isDue c := isDue_of_checkView (checkView_commitListed s.dev c) c
      have unqueued : d.hre.paq.any (fun e => e.cmd.id == c.id) = false := by rw [show d.hre.paq = s.dev.hre.paq from enlist_paq ..]; exact new
      have early : (d.commitW c.id).late = false := by rw [show d.commitW c.id = _ from commitW_commitListed fresh]
      refine ⟨fun wait => makes_commitRow hp (taken.trans ?_), fun due passes ready => makes_commitRow hp (taken.trans ?_),
        fun q due refused => makes_commitRow hp (taken.trans ?_)⟩
      · rw [actOrWait_waits (op := .sceneCommit) (c := c) (isDue.trans wait) unqueued]
      · rw [actOrWait_stays (isDue.trans due) early passes ready unqueued]
      · rw [actOrWait_refused (isDue.trans due) early refused]
        rfl

end Sys2Proof.Proofs
end

section
/-! SUPPORT. Words of a table that a unit command writes in both copies (02 R79). -/
namespace Sys2Proof.Proofs
open Sys2Proof.Machine Sys2Proof.Laws

/-- The live and the staged copy of a table. -/
abbrev bothCopies : List (Tab → SMap Word) := [Tab.live, Tab.staged]

/-- What `g` makes of word `i` of a table, in each copy of the copy's own word. -/
def rewriteBoth (d : Dev) (t i : Nat) (g : Nat → Nat) : Dev :=
  d.setTab t { d.tab t with live := wordSet (d.tab t).live i (g (wordAt (d.tab t).live i)),
                            staged := wordSet (d.tab t).staged i (g (wordAt (d.tab t).staged i)) }

theorem writeBoth_eq (d : Dev) (t i v : Nat) : d.writeBoth t i v = rewriteBoth d t i (fun _ => v) := rfl

theorem writeBothBits_eq (d : Dev) (t i lo w v : Nat) : d.writeBothBits t i lo w v = rewriteBoth d t i (fun n => setBits n lo w v) := rfl

theorem tab_writeBoth_ne (d : Dev) {t u : Nat} (i v : Nat) (h : u ≠ t) : (d.writeBoth t i v).tab u = d.tab u := tab_setTab_ne d _ h

theorem tab_writeBothBits_ne (d : Dev) {t u : Nat} (i lo w v : Nat) (h : u ≠ t) : (d.writeBothBits t i lo w v).tab u = d.tab u :=
  tab_setTab_ne d _ h

section
variable {cp : Tab → SMap Word} (hcp : cp ∈ bothCopies) (d : Dev) (t : Nat)
include hcp

/-- In each copy the word reads as what is made of it. -/
theorem wordAt_rewriteBoth_self (i : Nat) (g : Nat → Nat) :
    wordAt (cp ((rewriteBoth d t i g).tab t)) i = g (wordAt (cp (d.tab t)) i) % 2 ^ 32 := by
  rw [rewriteBoth, tab_setTab_self]
  simp only [bothCopies, List.mem_cons, List.not_mem_nil, or_false] at hcp
  rcases hcp with rfl | rfl
  · exact wordAt_wordSet_self ..
  · exact wordAt_wordSet_self ..

/-- In each copy every other word keeps its value. -/
theorem wordAt_rewriteBoth_ne {i k : Nat} (g : Nat → Nat) (h : k ≠ i) :
    wordAt (cp ((rewriteBoth d t i g).tab t)) k = wordAt (cp (d.tab t)) k := by
  rw [rewriteBoth, tab_setTab_self]
  simp only [bothCopies, List.mem_cons, List.not_mem_nil, or_false] at hcp
  rcases hcp with rfl | rfl
  · exact wordAt_wordSet_ne _ _ h
  · exact wordAt_wordSet_ne _ _ h

theorem wordAt_writeBoth_self (i : Nat) {v : Nat} (hv : v < 2 ^ 32) : wordAt (cp ((d.writeBoth t i v).tab t)) i = v := by
  rw [writeBoth_eq, wordAt_rewriteBoth_self hcp, Nat.mod_eq_of_lt hv]

theorem wordAt_writeBoth_ne {i k : Nat} (v : Nat) (h : k ≠ i) : wordAt (cp ((d.writeBoth t i v).tab t)) k = wordAt (cp (d.tab t)) k := by
  rw [writeBoth_eq, wordAt_rewriteBoth_ne hcp d t _ h]

theorem wordAt_writeBothBits_self (i : Nat) {lo w : Nat} (v : Nat) (h : lo + w ≤ 32) :
    wordAt (cp ((d.writeBothBits t i lo w v).tab t)) i = setBits (wordAt (cp (d.tab t)) i) lo w v := by
  rw [writeBothBits_eq, wordAt_rewriteBoth_self hcp]
  exact Nat.mod_eq_of_lt (setBits_lt _ _ _ _ _ (BitVec.isLt _) h)

theorem wordAt_writeBothBits_ne {i k : Nat} (lo w v : Nat) (h : k ≠ i) :
    wordAt (cp ((d.writeBothBits t i lo w v).tab t)) k = wordAt (cp (d.tab t)) k := by
  rw [writeBothBits_eq, wordAt_rewriteBoth_ne hcp d t _ h]

end

/-! ## Fields of a descriptor (R73) -/

theorem u16_lt (c : Cmd) (o : Nat) : c.u16 o < 2 ^ 16 := bits_lt ..

theorem u32_lt (c : Cmd) (o : Nat) : c.u32 o < 2 ^ 32 := bits_lt ..

end Sys2Proof.Proofs
end

section
/-! SUPPORT. Object commands: the moves of an object, and what OBJ_SET and OBJ_KEYFRAME make of moves and tables (03 R110 to R114). -/
namespace Sys2Proof.Proofs
open Sys2Proof.Machine Sys2Proof.Laws

/-! ## Moves (R110) -/

theorem mv_setMv_self (d : Dev) (j : Nat) (m : ObjMoves) : (d.setMv j m).mv j = m := smGet_smSet_self ..

theorem mv_setMv_ne (d : Dev) {i j : Nat} (m : ObjMoves) (h : i ≠ j) : (d.setMv j m).mv i = d.mv i := smGet_smSet_ne _ _ _ h

section
variable {v : Move} {t : Nat}

/-- Before its first tick a move holds its start. -/
theorem move_at_start (h : t < v.first) : v.at t = v.a := if_pos (by omega)

/-- From its last tick on a move holds its target. -/
theorem move_at_target (begun : v.first ≤ t) (past : v.first + v.len ≤ t + 1) : v.at t = v.b :=
  (if_neg (by omega)).trans (if_pos (.inl (by omega)))

/-- Between them it runs straight. -/
theorem move_at_between (begun : v.first ≤ t) (runs : t + 1 < v.first + v.len) :
    v.at t = v.a + divAway ((v.b - v.a) * ((t : Int) - v.first + 1)) v.len :=
  (if_neg (by omega)).trans (if_neg (by omega))

end

/-! ## What an object command leaves alone -/

/-- Registers, headers and host memory. -/
def outerView (d : Dev) : SMap Word × SMap Hdr × List Host.Cell := (d.regs, d.hdr, d.hostMem)

/-! ## How an object command completes (R108, R113) -/

theorem exec_objSet (c : Cmd) (s : State) : exec (.objSet c) s = s.act (·.row .objSet c) := rfl
theorem exec_objKeyframe (c : Cmd) (s : State) : exec (.objKeyframe c) s = s.act (·.row .objKeyframe c) := rfl

theorem lateOk_late (late : Bool) : (lateOk late == .late) = late := by cases late <;> rfl

/-- An object command that acts: its completion, counted where that is LATE. -/
theorem row_objCommand {d e : Dev} {op : Opcode} {c : Cmd} {p : Cpl} (hop : op ≠ .sceneCommit) (h : d.applies op c)
    (effect : (d.unqueue c).effect op c ((d.unqueue c).cmdLate op c) = done (kfCounted (p, e))) :
    d.row op c = (e.kfLate (p.status == .late)).ends c p := by
  rw [row_applies hop h, effect]
  rfl

section
variable {s : State} {c : Cmd} {p : Cpl} {e : Dev}

theorem makes_objSet (h : s.dev.applies .objSet c) (acts : objSet (s.dev.unqueue c) c ((s.dev.unqueue c).objLate c) = (p, e)) :
    Makes (.objSet c) s ((e.kfLate (p.status == .late)).ends c p) :=
  makes_of _ (exec_objSet c s) (row_objCommand (by decide) h (congrArg (fun x => done (kfCounted x)) acts))

theorem makes_objKeyframe (h : s.dev.applies .objKeyframe c)
    (acts : objKeyframe (s.dev.unqueue c) c ((s.dev.unqueue c).objDue c) ((s.dev.unqueue c).objLate c) = (p, e)) :
    Makes (.objKeyframe c) s ((e.kfLate (p.status == .late)).ends c p) :=
  makes_of _ (exec_objKeyframe c s) (row_objCommand (by decide) h (congrArg (fun x => done (kfCounted x)) acts))

end

/-! ## One word of an OBJ_SET (R111) -/

/-- The moves of an object once an OBJ_SET has written the words `ws` of its entry. -/
def endedBy (ws : List Nat) (m : ObjMoves) : ObjMoves :=
  ⟨if 4 ∈ ws then none else m.x, if 5 ∈ ws then none else m.y, if 6 ∈ ws then none else m.z, if 2 ∈ ws then none else m.gain,
    if 2 ∈ ws then none else m.spread⟩

theorem endedBy_cons (n : Nat) (ws : List Nat) (m : ObjMoves) : endedBy ws (endedBy [n] m) = endedBy (n :: ws) m := by
  have either (k : Nat) (v : Option Move) :
      (if k ∈ ws then none else if k ∈ [n] then none else v) = if k ∈ n :: ws then none else v := by
    by_cases hw : k ∈ ws <;> simp [hw]
  simp only [endedBy, either]

section
variable (d : Dev) (j n v : Nat)

theorem objWord_tabs : (d.objWord j n v).tabs = (d.writeBoth T.objObject (16 * j + n) v).tabs := by
  unfold Dev.objWord
  dsimp only
  split_ifs <;> rfl

theorem objWord_tab (t : Nat) : (d.objWord j n v).tab t = (d.writeBoth T.objObject (16 * j + n) v).tab t := by
  rw [Dev.tab, objWord_tabs, Dev.tab]

theorem objWord_outerView : outerView (d.objWord j n v) = outerView d := by
  unfold Dev.objWord
  dsimp only
  split_ifs <;> rfl

theorem objWord_mv_self : (d.objWord j n v).mv j = endedBy [n] (d.mv j) := by
  have kept : (d.writeBoth T.objObject (16 * j + n) v).mv j = d.mv j := rfl
  unfold Dev.objWord
  dsimp only
  rw [kept]
  split_ifs with x y z g
  · subst x
    exact mv_setMv_self ..
  · subst y
    exact mv_setMv_self ..
  · subst z
    exact mv_setMv_self ..
  · subst g
    exact mv_setMv_self ..
  · rw [kept]
    simp [endedBy, Ne.symm x, Ne.symm y, Ne.symm z, Ne.symm g]

theorem objWord_mv_ne {i : Nat} (h : i ≠ j) : (d.objWord j n v).mv i = d.mv i := by
  unfold Dev.objWord
  dsimp only
  split_ifs
  case neg => rfl
  all_goals exact mv_setMv_ne _ _ h

end

/-! ## All words of an OBJ_SET (R111) -/

/-- One word of object `j`'s entry, with the place of its datum, is written. -/
def setWord (c : Cmd) (j : Nat) (d : Dev) (x : Nat × Nat) : Dev := d.objWord j x.1 (c.u32 (24 + 4 * x.2))

/-- The part once the listed words are written. -/
def setWords (c : Cmd) (j : Nat) (l : List (Nat × Nat)) (d : Dev) : Dev := l.foldl (setWord c j) d

section
variable (c : Cmd) (j : Nat)

theorem setWords_cons (x : Nat × Nat) (l : List (Nat × Nat)) (d : Dev) :
    setWords c j (x :: l) d = setWords c j l (d.objWord j x.1 (c.u32 (24 + 4 * x.2))) := rfl

theorem setWords_outerView (l : List (Nat × Nat)) (d : Dev) : outerView (setWords c j l d) = outerView d :=
  foldl_keeps outerView (fun _ _ => objWord_outerView ..) l d

theorem setWords_tab_ne (l : List (Nat × Nat)) (d : Dev) {t : Nat} (h : t ≠ T.objObject) : (setWords c j l d).tab t = d.tab t :=
  foldl_keeps (Dev.tab · t) (fun _ _ => (objWord_tab ..).trans (tab_writeBoth_ne _ _ _ h)) l d

theorem setWords_mv_ne (l : List (Nat × Nat)) (d : Dev) {i : Nat} (h : i ≠ j) : (setWords c j l d).mv i = d.mv i :=
  foldl_keeps (Dev.mv · i) (fun _ _ => objWord_mv_ne _ _ _ _ h) l d

theorem setWords_mv_self (l : List (Nat × Nat)) (d : Dev) : (setWords c j l d).mv j = endedBy (l.map Prod.fst) (d.mv j) := by
  induction l generalizing d with
  | nil => rfl
  | cons x l ih => rw [setWords_cons, ih, objWord_mv_self, endedBy_cons, List.map_cons]

section
variable {cp : Tab → SMap Word} (hcp : cp ∈ bothCopies)
include hcp

/-- A word that is not listed keeps its value in each copy. -/
theorem wordAt_setWords_of_not_mem {l : List (Nat × Nat)} {i : Nat} (h : ∀ n ∈ l.map Prod.fst, i ≠ 16 * j + n) (d : Dev) :
    wordAt (cp ((setWords c j l d).tab T.objObject)) i = wordAt (cp (d.tab T.objObject)) i := by
  induction l generalizing d with
  | nil => rfl
  | cons x l ih =>
    simp only [List.map_cons, List.forall_mem_cons] at h
    rw [setWords_cons, ih h.2, objWord_tab, wordAt_writeBoth_ne hcp d _ _ h.1]

/-- A listed word holds its datum in each copy. -/
theorem wordAt_setWords_of_mem {l : List (Nat × Nat)} (once : (l.map Prod.fst).Nodup) {x : Nat × Nat} (hx : x ∈ l) (d : Dev) :
    wordAt (cp ((setWords c j l d).tab T.objObject)) (16 * j + x.1) = c.u32 (24 + 4 * x.2) := by
  induction l generalizing d with
  | nil => simp at hx
  | cons y l ih =>
    obtain ⟨fresh, once⟩ := List.nodup_cons.1 once
    rw [setWords_cons]
    rcases List.mem_cons.1 hx with rfl | hx
    · have later : ∀ n ∈ l.map Prod.fst, 16 * j + x.1 ≠ 16 * j + n := fun n hn e => fresh (by rwa [Nat.add_left_cancel e])
      rw [wordAt_setWords_of_not_mem c j hcp later, objWord_tab, wordAt_writeBoth_self hcp d _ _ (u32_lt ..)]
    · exact ih once hx _

end
end

/-! ## OBJ_SET (R111, R114) -/

theorem maskBits_nodup (m : Nat) : (maskBits m).Nodup := List.nodup_range.filter _

section
variable {d : Dev} {c : Cmd} (late : Bool)

theorem objSet_absent (h : d.nObj ≤ c.u16 16) : objSet d c late = (.bad 2, d) := if_pos h

section
variable (known : c.u16 16 < d.nObj)
include known

theorem objSet_ill_formed (h : 10 < (maskBits (c.u16 18)).length ∨ ∃ n ∈ maskBits (c.u16 18), 10 ≤ n) :
    objSet d c late = (.bad 3, d) :=
  (if_neg (Nat.not_le.2 known)).trans (if_pos (by simpa using h))

theorem objSet_writes (few : (maskBits (c.u16 18)).length ≤ 10) (low : ∀ n ∈ maskBits (c.u16 18), n < 10) :
    objSet d c late = (⟨lateOk late, 0, 0⟩, setWords c (c.u16 16) (maskBits (c.u16 18)).zipIdx d) :=
  (if_neg (Nat.not_le.2 known)).trans (if_neg (by simpa using ⟨few, low⟩))

end
end

/-- Settles O26: the words are written one after the other, each once, and each ends the moves it carries. -/
theorem objSetWritesTheSelectedWords : Obligations.ObjSetWritesTheSelectedWords := by
  unfold Obligations.ObjSetWritesTheSelectedWords
  intro s c applies d late j ws
  refine ⟨fun absent => makes_objSet applies (objSet_absent late absent),
    fun known ill => makes_objSet applies (objSet_ill_formed late known ill), fun known few low => ?_⟩
  have makes := makes_objSet applies (objSet_writes late known few low)
  rw [lateOk_late] at makes
  have words : ws.zipIdx.map Prod.fst = ws := List.zipIdx_map_fst ..
  have live : Tab.live ∈ bothCopies := .head _
  have staged : Tab.staged ∈ bothCopies := .tail _ (.head _)
  obtain ⟨regs, hdr, hostMem⟩ : _ ∧ _ ∧ _ := by simpa only [outerView, Prod.mk.injEq] using setWords_outerView c j ws.zipIdx d
  refine ⟨_, makes, fun x hx => ?selected, fun i out => ?other, fun t ht => setWords_tab_ne c j _ d ht, ?moves,
    fun i hi => setWords_mv_ne c j _ d hi, regs, hdr, hostMem⟩
  case selected =>
    have once : (ws.zipIdx.map Prod.fst).Nodup := by rw [words]; exact maskBits_nodup _
    exact ⟨wordAt_setWords_of_mem c j live once hx d, wordAt_setWords_of_mem c j staged once hx d⟩
  case other =>
    have apart : ∀ n ∈ ws.zipIdx.map Prod.fst, i ≠ 16 * j + n := words.symm ▸ out
    exact ⟨wordAt_setWords_of_not_mem c j live apart d, wordAt_setWords_of_not_mem c j staged apart d⟩
  case moves =>
    have ended := setWords_mv_self c j ws.zipIdx d
    rw [words] at ended
    exact ended

end Sys2Proof.Proofs
end

section
/-! SUPPORT. OBJ_KEYFRAME: the moves it starts and the targets it writes into both copies (02 R79, 03 R112). -/
namespace Sys2Proof.Proofs
open Sys2Proof.Machine Sys2Proof.Laws

/-! ## The targets in the tables -/

/-- The target of a selected position, written in both copies. -/
def withPosition (c : Cmd) (d : Dev) : Dev :=
  if bitAt (c.u8 20) 0 then
    ((d.writeBoth T.objObject (16 * c.u16 16 + 4) (c.u32 24)).writeBoth T.objObject (16 * c.u16 16 + 5) (c.u32 28)).writeBoth
      T.objObject (16 * c.u16 16 + 6) (c.u32 32)
  else d

/-- The target at byte `o` of the command, written in both copies into the half of W2 from bit `lo` on, if flag `k` selects it. -/
def withHalf (c : Cmd) (k lo o : Nat) (d : Dev) : Dev :=
  if bitAt (c.u8 20) k then d.writeBothBits T.objObject (16 * c.u16 16 + 2) lo 16 (c.u16 o) else d

/-- The targets of a keyframe: position, gain, spread. -/
def withTargets (c : Cmd) (d : Dev) : Dev := withHalf c 2 0 38 (withHalf c 1 16 36 (withPosition c d))

/-- What the targets leave alone: OBJ's state with its moves, registers, headers and host memory. -/
def targetsView (d : Dev) : Obj × SMap Word × SMap Hdr × List Host.Cell := (d.obj, outerView d)

theorem mv_of_targetsView {d e : Dev} (h : targetsView e = targetsView d) : e.mv = d.mv := by
  have obj : e.obj = d.obj := congrArg Prod.fst h
  funext j
  rw [Dev.mv, obj, Dev.mv]

section
variable (c : Cmd) (d : Dev)

theorem withPosition_view : targetsView (withPosition c d) = targetsView d := by
  unfold withPosition
  split <;> rfl

theorem withHalf_view (k lo o : Nat) : targetsView (withHalf c k lo o d) = targetsView d := by
  unfold withHalf
  split <;> rfl

theorem withTargets_view : targetsView (withTargets c d) = targetsView d := by
  rw [withTargets, withHalf_view, withHalf_view, withPosition_view]

theorem withPosition_tab_ne {t : Nat} (h : t ≠ T.objObject) : (withPosition c d).tab t = d.tab t := by
  unfold withPosition
  split
  · rw [tab_writeBoth_ne _ _ _ h, tab_writeBoth_ne _ _ _ h, tab_writeBoth_ne _ _ _ h]
  · rfl

theorem withHalf_tab_ne (k lo o : Nat) {t : Nat} (h : t ≠ T.objObject) : (withHalf c k lo o d).tab t = d.tab t := by
  unfold withHalf
  split
  · exact tab_writeBothBits_ne _ _ _ _ _ h
  · rfl

theorem withTargets_tab_ne {t : Nat} (h : t ≠ T.objObject) : (withTargets c d).tab t = d.tab t := by
  rw [withTargets, withHalf_tab_ne _ _ _ _ _ h, withHalf_tab_ne _ _ _ _ _ h, withPosition_tab_ne _ _ h]

section
variable {cp : Tab → SMap Word} (hcp : cp ∈ bothCopies)
include hcp

theorem wordAt_withPosition_self (h : bitAt (c.u8 20) 0 = true) :
    wordAt (cp ((withPosition c d).tab T.objObject)) (16 * c.u16 16 + 4) = c.u32 24 ∧
      wordAt (cp ((withPosition c d).tab T.objObject)) (16 * c.u16 16 + 5) = c.u32 28 ∧
      wordAt (cp ((withPosition c d).tab T.objObject)) (16 * c.u16 16 + 6) = c.u32 32 := by
  rw [withPosition, if_pos h]
  refine ⟨?_, ?_, wordAt_writeBoth_self hcp _ _ _ (u32_lt ..)⟩
  · rw [wordAt_writeBoth_ne hcp _ _ _ (by omega), wordAt_writeBoth_ne hcp _ _ _ (by omega), wordAt_writeBoth_self hcp _ _ _ (u32_lt ..)]
  · rw [wordAt_writeBoth_ne hcp _ _ _ (by omega), wordAt_writeBoth_self hcp _ _ _ (u32_lt ..)]

/-- Every word but those of a selected position. -/
theorem wordAt_withPosition_ne {i : Nat} (h : bitAt (c.u8 20) 0 = true → i ≠ 16 * c.u16 16 + 4 ∧ i ≠ 16 * c.u16 16 + 5 ∧ i ≠ 16 * c.u16 16 + 6) :
    wordAt (cp ((withPosition c d).tab T.objObject)) i = wordAt (cp (d.tab T.objObject)) i := by
  unfold withPosition
  split
  case isTrue selected =>
    obtain ⟨x, y, z⟩ := h selected
    rw [wordAt_writeBoth_ne hcp _ _ _ z, wordAt_writeBoth_ne hcp _ _ _ y, wordAt_writeBoth_ne hcp _ _ _ x]
  case isFalse => rfl

theorem wordAt_withHalf_ne (k lo o : Nat) {i : Nat} (h : i ≠ 16 * c.u16 16 + 2) :
    wordAt (cp ((withHalf c k lo o d).tab T.objObject)) i = wordAt (cp (d.tab T.objObject)) i := by
  unfold withHalf
  split
  · exact wordAt_writeBothBits_ne hcp _ _ _ _ _ h
  · rfl

theorem bits_withHalf_self (k o : Nat) {lo : Nat} (fits : lo + 16 ≤ 32) :
    bits (wordAt (cp ((withHalf c k lo o d).tab T.objObject)) (16 * c.u16 16 + 2)) lo 16 =
      if bitAt (c.u8 20) k then c.u16 o else bits (wordAt (cp (d.tab T.objObject)) (16 * c.u16 16 + 2)) lo 16 := by
  unfold withHalf
  split
  · rw [wordAt_writeBothBits_self hcp _ _ _ _ fits, bits_setBits_self, Nat.mod_eq_of_lt (u16_lt ..)]
  · rfl

/-- The other half keeps its value. -/
theorem bits_withHalf_ne (k o : Nat) {lo lo' : Nat} (fits : lo + 16 ≤ 32) (apart : lo' + 16 ≤ lo ∨ lo + 16 ≤ lo') :
    bits (wordAt (cp ((withHalf c k lo o d).tab T.objObject)) (16 * c.u16 16 + 2)) lo' 16 =
      bits (wordAt (cp (d.tab T.objObject)) (16 * c.u16 16 + 2)) lo' 16 := by
  unfold withHalf
  split
  · rw [wordAt_writeBothBits_self hcp _ _ _ _ fits, bits_setBits_ne _ _ _ _ _ _ apart]
  · rfl

/-! ## The words after a keyframe -/

/-- Outside W2 only the position is written. -/
theorem wordAt_withTargets {i : Nat} (h : i ≠ 16 * c.u16 16 + 2) :
    wordAt (cp ((withTargets c d).tab T.objObject)) i = wordAt (cp ((withPosition c d).tab T.objObject)) i := by
  rw [withTargets, wordAt_withHalf_ne _ _ hcp _ _ _ h, wordAt_withHalf_ne _ _ hcp _ _ _ h]

theorem gainHalf_withTargets : bits (wordAt (cp ((withTargets c d).tab T.objObject)) (16 * c.u16 16 + 2)) 16 16 =
    if bitAt (c.u8 20) 1 then c.u16 36 else bits (wordAt (cp (d.tab T.objObject)) (16 * c.u16 16 + 2)) 16 16 := by
  rw [withTargets, bits_withHalf_ne _ _ hcp _ _ (by decide) (.inr (by decide)), bits_withHalf_self _ _ hcp _ _ (by decide),
    wordAt_withPosition_ne _ _ hcp (fun _ => by omega)]

theorem spreadHalf_withTargets : bits (wordAt (cp ((withTargets c d).tab T.objObject)) (16 * c.u16 16 + 2)) 0 16 =
    if bitAt (c.u8 20) 2 then c.u16 38 else bits (wordAt (cp (d.tab T.objObject)) (16 * c.u16 16 + 2)) 0 16 := by
  rw [withTargets, bits_withHalf_self _ _ hcp _ _ (by decide), bits_withHalf_ne _ _ hcp _ _ (by decide) (.inl (by decide)),
    wordAt_withPosition_ne _ _ hcp (fun _ => by omega)]

end
end

/-! ## The moves it starts -/

/-- The moves of the object once a keyframe that first governs tick `f` has started those that its flags select. -/
def keyMoves (d : Dev) (c : Cmd) (f : Nat) : ObjMoves :=
  let j := c.u16 16
  let mk := fun (a b : Int) => some (⟨a, b, f, c.u16 18⟩ : Move)
  ⟨if bitAt (c.u8 20) 0 then mk (d.posAt j 0 (f - 1)) (sx 32 (c.u32 24)) else (d.mv j).x,
    if bitAt (c.u8 20) 0 then mk (d.posAt j 1 (f - 1)) (sx 32 (c.u32 28)) else (d.mv j).y,
    if bitAt (c.u8 20) 0 then mk (d.posAt j 2 (f - 1)) (sx 32 (c.u32 32)) else (d.mv j).z,
    if bitAt (c.u8 20) 1 then mk (d.gainAt j (f - 1)) (c.u16 36) else (d.mv j).gain,
    if bitAt (c.u8 20) 2 then mk (d.spreadAt j (f - 1)) (c.u16 38) else (d.mv j).spread⟩

/-- A choice between two sets of moves is a choice field by field. -/
theorem ite_moves (b : Bool) (x y z gain spread : Option Move) (m : ObjMoves) : (if b then ⟨x, y, z, gain, spread⟩ else m) =
    (⟨if b then x else m.x, if b then y else m.y, if b then z else m.z, if b then gain else m.gain, if b then spread else m.spread⟩ : ObjMoves) := by
  cases b <;> rfl

theorem ite_pair {α β : Type} (b : Bool) (x x' : α) (y y' : β) :
    (if b then (x, y) else (x', y')) = (if b then x else x', if b then y else y') := by cases b <;> rfl

section
variable {d : Dev} {c : Cmd} (f : Nat) (late : Bool)

theorem objKeyframe_absent (h : d.nObj ≤ c.u16 16) : objKeyframe d c f late = (.bad 2, d) := if_pos h

/-- Gain and spread before the move are read once the position is written, which leaves W2 alone. -/
theorem gainAt_withPosition (t : Nat) : (withPosition c d).gainAt (c.u16 16) t = d.gainAt (c.u16 16) t ∧
    (withPosition c d).spreadAt (c.u16 16) t = d.spreadAt (c.u16 16) t := by
  have moves : (withPosition c d).mv = d.mv := mv_of_targetsView (withPosition_view c d)
  have word : Ent.w (withPosition c d) (c.u16 16) 2 = Ent.w d (c.u16 16) 2 :=
    wordAt_withPosition_ne c d (.head _) (fun _ => by omega)
  simp only [Dev.gainAt, Dev.spreadAt, moves, word, and_self]

theorem objKeyframe_starts (known : c.u16 16 < d.nObj) :
    objKeyframe d c f late = (⟨lateOk late, 0, 0⟩, (withTargets c d).setMv (c.u16 16) (keyMoves d c f)) := by
  obtain ⟨gain, spread⟩ := gainAt_withPosition (d := d) (c := c) (f - 1)
  unfold withPosition at gain spread
  unfold objKeyframe
  rw [if_neg (Nat.not_le.2 known)]
  simp only [ite_pair, ite_moves, ite_self, gain, spread]
  rfl

end

/-- Settles O27: the targets are written in both copies beside the moves that start, and the cases of a move exclude each other. -/
theorem objKeyframeStartsMovesFromTheTickBefore : Obligations.ObjKeyframeStartsMovesFromTheTickBefore := by
  unfold Obligations.ObjKeyframeStartsMovesFromTheTickBefore
  refine ⟨fun s c applies => ?_, fun v t => ⟨move_at_start, move_at_target, move_at_between⟩⟩
  intro d late j f mk
  refine ⟨fun absent => makes_objKeyframe applies (objKeyframe_absent f late absent), fun known => ?_⟩
  have makes := makes_objKeyframe applies (objKeyframe_starts f late known)
  rw [lateOk_late] at makes
  have moves : ((withTargets c d).setMv j (keyMoves d c f)).mv j = keyMoves d c f := mv_setMv_self ..
  have others : (withTargets c d).mv = d.mv := mv_of_targetsView (withTargets_view c d)
  obtain ⟨-, regs, -, hostMem⟩ : _ ∧ _ ∧ _ ∧ _ := by simpa only [targetsView, outerView, Prod.mk.injEq] using withTargets_view c d
  refine ⟨_, makes, by rw [moves]; rfl, by rw [moves]; rfl, by rw [moves]; rfl, by rw [moves]; rfl, by rw [moves]; rfl,
    fun i hi => (mv_setMv_ne _ _ hi).trans (congrFun others i), fun cp hcp => ?words, fun t ht => withTargets_tab_ne c d ht, regs, hostMem⟩
  intro w w0
  have position {i : Nat} (h : i ≠ 16 * j + 2) : w i = wordAt (cp ((withPosition c d).tab T.objObject)) i := wordAt_withTargets c d hcp h
  refine ⟨fun selected => ?_, fun rests => ?_, gainHalf_withTargets c d hcp, spreadHalf_withTargets c d hcp, fun i w2 x y z => ?_⟩
  · rw [position (by omega), position (by omega), position (by omega)]
    exact wordAt_withPosition_self c d hcp selected
  · have kept {i : Nat} (h : i ≠ 16 * j + 2) : w i = w0 i :=
      (position h).trans (wordAt_withPosition_ne c d hcp (fun selected => by simp [rests] at selected))
    exact ⟨kept (by omega), kept (by omega), kept (by omega)⟩
  · exact (position w2).trans (wordAt_withPosition_ne c d hcp (fun _ => ⟨x, y, z⟩))

end Sys2Proof.Proofs
end

section
/-! SUPPORT. The pan stage's validation of the staged pair, its sets, and OBJ_C (03 R107, R115, R116, R134). -/
namespace Sys2Proof.Proofs
open Sys2Proof.Machine Sys2Proof.Laws

/-! ## Validation at the boundary v (R116) -/

theorem exec_panValidate (s : State) : exec .panValidate s = s.act (·.commitValidates) := rfl

theorem commitValidate_validates {d : Dev} {c : Cmd} (keep : commitDiscard c = false) (running : d.running = true)
    (settled : (d.commitW c.id).waits = []) (new : (d.commitW c.id).validAt = none) (fetched : c.fetch < d.top.tick) (swaps : swapsObj d = true) :
    d.commitValidate ⟨.sceneCommit, c⟩ = d.panValidate.2.setCommitW c.id (fun w => { w with validAt := some d.top.tick }) :=
  if_pos (by simp [keep, running, settled, new, fetched, swaps])

/-! ## What is recorded (R115) -/

/-- PAN_VALID with the outcome of a validation. -/
def panReported (d : Dev) (chk t item : Nat) : Dev :=
  d.setFlds [(R.PAN_VALID_CHECK, chk), (R.PAN_VALID_TABLE, t), (R.PAN_VALID_ITEM, item)]

theorem panReported_eq (d : Dev) (chk t item : Nat) :
    panReported d chk t item = ((d.setFld R.PAN_VALID_CHECK chk).setFld R.PAN_VALID_TABLE t).setFld R.PAN_VALID_ITEM item := rfl

theorem panReported_fields (d : Dev) (chk t item : Nat) :
    (panReported d chk t item).fld R.PAN_VALID_CHECK = chk % 2 ^ R.PAN_VALID_CHECK.w ∧
      (panReported d chk t item).fld R.PAN_VALID_TABLE = t % 2 ^ R.PAN_VALID_TABLE.w ∧
      (panReported d chk t item).fld R.PAN_VALID_ITEM = item % 2 ^ R.PAN_VALID_ITEM.w := by
  rw [panReported_eq]
  refine ⟨?_, ?_, fld_setFld_self _ _ _ (by decide)⟩
  · rw [fld_setFld_ne _ _ _ _ (by decide) (.inr (by decide)), fld_setFld_ne _ _ _ _ (by decide) (.inr (by decide)),
      fld_setFld_self _ _ _ (by decide)]
  · rw [fld_setFld_ne _ _ _ _ (by decide) (.inr (by decide)), fld_setFld_self _ _ _ (by decide)]

/-- A table marked bad as a whole. -/
def markedBad (d : Dev) (t : Nat) : Dev := d.setTab t { d.tab t with bad := (d.tab t).bad ++ [(0, 0)] }

section
variable {d : Dev} (changed : (d.tab T.objLayout).changed = true ∨ (d.tab T.objHull).changed = true)
include changed

theorem panValidate_passes (h : validate d (d.tab T.objLayout).staged (d.tab T.objHull).staged = none) :
    d.panValidate = (true, panReported d 0 0 0) := by
  have asked : ((d.tab T.objLayout).changed || (d.tab T.objHull).changed) = true := by simpa using changed
  simp only [Dev.panValidate, asked, if_true, h]
  rfl

theorem panValidate_fails {chk t item : Nat} (h : validate d (d.tab T.objLayout).staged (d.tab T.objHull).staged = some (chk, t, item)) :
    d.panValidate =
      (false, (panReported (markedBad d (if t = 1 then T.objLayout else T.objHull)) chk t item).raise F.hullInvalid) := by
  have asked : ((d.tab T.objLayout).changed || (d.tab T.objHull).changed) = true := by simpa using changed
  simp only [Dev.panValidate, asked, if_true, h]
  rfl

end

/-! ## OBJ_C (R107, R395) -/

theorem exec_objCWrite (v : Word) (s : State) :
    exec (.objCWrite v) s = s.act (fun d => d.ifOpen objBase (·.fromHost R.OBJ_C_C.addr v (·.writeObjC v.toNat))) := rfl

/-- A word read as two's complement. -/
theorem sx_toNat (v : Word) : sx 32 v.toNat = v.toInt := by
  rw [sx, Nat.mod_eq_of_lt v.isLt]
  rfl

/-- A write of OBJ_C that the part takes: the standby is told of it first. -/
theorem makes_objCWrite {s : State} (opens : s.dev.opens objBase = true) (own : s.dev.isStandby = false) {v : Word} {d : Dev}
    (h : (s.dev.tellReg R.OBJ_C_C.addr v).writeObjC v.toNat = d) : Makes (.objCWrite v) s d :=
  makes_of _ (exec_objCWrite v s) ((if_pos opens).trans ((fromHost_taken (by simp [own]) v _).trans h))

theorem exec_panCompute (s : State) : exec .panCompute s = s.act (fun d => if d.running && d.awake then d.panCompute else d) := rfl

/-- Settles O25: the boundary v, what a validation records, the sets, and a write of OBJ_C by the state. -/
theorem panStageValidatesTheStagedPair : Obligations.PanStageValidatesTheStagedPair := by
  unfold Obligations.PanStageValidatesTheStagedPair
  refine ⟨fun s c one keep running settled new fetched swaps => makes_of _ (exec_panValidate s) ?boundary,
    fun d changed => ⟨fun valid => ?passes, fun chk t item invalid => ?fails⟩,
    fun s running awake => makes_of _ (exec_panCompute s) (if_pos (by simp [running, awake])),
    fun s rests => makes_of _ (exec_panCompute s) (if_neg ?rests), fun s v opens own => ⟨fun setup => ?writes, fun other => ?refused⟩⟩
  case boundary =>
    rw [Dev.commitValidates, one]
    exact commitValidate_validates keep running settled new fetched swaps
  case passes =>
    rw [panValidate_passes changed valid]
    obtain ⟨check, table, item⟩ := panReported_fields d 0 0 0
    exact ⟨rfl, check, table, item, setFlds_tabs .., setFlds_hdr ..⟩
  case fails =>
    rw [panValidate_fails changed invalid]
    generalize (if t = 1 then T.objLayout else T.objHull) = u
    obtain ⟨check, table, entry⟩ := panReported_fields (markedBad d u) chk t item
    have bad : (((panReported (markedBad d u) chk t item).raise F.hullInvalid).tab u).bad ≠ [] := by
      rw [Dev.tab, raise_tabs, panReported, setFlds_tabs, ← Dev.tab, markedBad, tab_setTab_self]
      simp
    have hdr : (panReported (markedBad d u) chk t item).hdr = d.hdr := setFlds_hdr ..
    exact ⟨rfl, (fld_raise ..).trans check, (fld_raise ..).trans table, (fld_raise ..).trans entry, bad,
      fun enabled => bit_raise (f := F.hullInvalid) ((effEn_of_hdr hdr _).trans enabled) (by decide)⟩
  case rests => rcases rests with h | h <;> simp [h]
  case writes =>
    refine makes_objCWrite opens own ((if_pos ((congrArg Top.st (tellReg_top_boot ..).1).trans setup)).trans ?_)
    rw [sx_toNat]
  case refused => exact makes_objCWrite opens own (if_neg (fun e => other ((congrArg Top.st (tellReg_top_boot ..).1).symm.trans e)))

end Sys2Proof.Proofs
end

section
/-! SUPPORT. Lost lanes, the readmission of objects and the parity of the crosspoint's nodes (03 R155, R159; 05 R194). -/
namespace Sys2Proof.Proofs
open Sys2Proof.Machine Sys2Proof.Laws

/-! ## What setting a unit's health does to the headers (R45, R47) -/

/-- A unit works by the enable, hold and reset of the headers above it alone. -/
theorem works_of_controls {d e : Dev}
    (h : ∀ a, (e.hd a).enable = (d.hd a).enable ∧ (e.hd a).hold = (d.hd a).hold ∧ (e.hd a).inReset = (d.hd a).inReset) (a : Nat) :
    e.works a = d.works a := by
  simp [Dev.works, Dev.effEn, Dev.heldInReset, h]

section
variable (d : Dev) (b : Nat) (st : UState) (cause : Nat) (shed : Bool) (kids : Nat)

/-- The header that a new health leaves, but for the event HEALTH_CHG. -/
def healthHd : Hdr :=
  { d.hd b with st := if d.effEn b then st else .off, cause := if d.effEn b then cause else 0, shed := shed && d.effEn b, faultKids := kids }

theorem setHealth_cases : d.setHealth b st cause shed kids = d.setHd b (healthHd d b st cause shed kids) ∨
    d.setHealth b st cause shed kids = (d.setHd b (healthHd d b st cause shed kids)).raise (F.healthChg b) := by
  by_cases same : (d.hd b).st = if d.effEn b then st else .off
  · exact .inl (if_pos same)
  · exact .inr (if_neg same)

theorem setHealth_st : ((d.setHealth b st cause shed kids).hd b).st = if d.effEn b then st else .off := by
  rcases setHealth_cases d b st cause shed kids with h | h <;> simp [h, healthHd]

theorem setHealth_cause : ((d.setHealth b st cause shed kids).hd b).cause = if d.effEn b then cause else 0 := by
  rcases setHealth_cases d b st cause shed kids with h | h <;> simp [h, healthHd]

theorem setHealth_st_ne {a : Nat} (n : a ≠ b) : ((d.setHealth b st cause shed kids).hd a).st = (d.hd a).st := by
  rcases setHealth_cases d b st cause shed kids with h | h <;> simp [h, hd_setHd_ne _ _ n]

@[simp] theorem setHealth_works (a : Nat) : (d.setHealth b st cause shed kids).works a = d.works a := by
  have set : (d.setHd b (healthHd d b st cause shed kids)).works a = d.works a := by
    refine works_of_controls (fun u => ?_) a
    by_cases hu : u = b
    · simp [hu, healthHd]
    · simp [hd_setHd_ne _ _ hu]
  rcases setHealth_cases d b st cause shed kids with h | h <;> simp [h, set]

end

/-! ## A lost lane (R159) -/

theorem exec_laneLost (l : Fin 32) (parity : Bool) (s : State) :
    exec (.laneLost l parity) s = s.act (fun d => if d.top.st = .run then d.laneLost l.val parity else d) := rfl

/-- A lane's failure on the lane: its event and its health. -/
def laneFaulted (d : Dev) (l : Nat) (parity : Bool) : Dev :=
  (d.raise (if parity then F.laneParity l else F.laneOvertime l)).setHealth (laneBase l) .fault (if parity then 1 else 2) false 0

/-- A lane's failure in its cluster and in OBJ: LANE_LOST, the counter, and the lanes lost for the running block. -/
def laneRecorded (d : Dev) (l : Nat) : Dev :=
  let e := (d.raise (F.laneLost (l / 4))).count R.OBJ_LANE_LOST_COUNT
  { e with obj := { e.obj with lost := e.obj.lost ++ [l] } }

theorem laneLost_of_works {d : Dev} {l : Nat} (w : d.works (laneBase l) = true) (h : l < 32) (parity : Bool) :
    d.laneLost l parity = laneRecorded (laneFaulted d l parity) l := if_pos (by simp [w, h])

theorem laneLost_of_idle {d : Dev} {l : Nat} (w : d.works (laneBase l) = false) (parity : Bool) : d.laneLost l parity = d := if_neg (by simp [w])

theorem laneFaulted_health {d : Dev} {l : Nat} (w : d.works (laneBase l) = true) (parity : Bool) :
    ((laneFaulted d l parity).hd (laneBase l)).st = .fault ∧ ((laneFaulted d l parity).hd (laneBase l)).cause = if parity then 1 else 2 := by
  have en : d.effEn (laneBase l) = true := (Bool.and_eq_true_iff.1 w).1
  simp [laneFaulted, setHealth_st, setHealth_cause, en]

theorem laneBase_inj {k l : Nat} (h : laneBase k = laneBase l) : k = l := by
  unfold laneBase at h
  omega

theorem laneFaulted_st_ne (d : Dev) {k l : Nat} (h : k ≠ l) (parity : Bool) :
    ((laneFaulted d l parity).hd (laneBase k)).st = (d.hd (laneBase k)).st :=
  (setHealth_st_ne _ _ _ _ _ _ (fun e => h (laneBase_inj e))).trans (raise_st ..)

theorem laneFaulted_works (d : Dev) (l : Nat) (parity : Bool) (b : Nat) : (laneFaulted d l parity).works b = d.works b :=
  (setHealth_works ..).trans (raise_works ..)

theorem laneRecorded_hdr (d : Dev) (l : Nat) : (laneRecorded d l).hdr = (d.raise (F.laneLost (l / 4))).hdr := by
  simp only [laneRecorded, count_hdr]

/-- Recording a lost lane touches no health, enable or reset: its cluster's LANE_LOST is an event alone. -/
theorem laneRecorded_hd (d : Dev) (l b : Nat) : (laneRecorded d l).hd b = (d.raise (F.laneLost (l / 4))).hd b :=
  hd_of_hdr (laneRecorded_hdr d l) b

theorem laneRecorded_works (d : Dev) (l b : Nat) : (laneRecorded d l).works b = d.works b :=
  (works_of_hdr (laneRecorded_hdr d l) b).trans (raise_works ..)

theorem laneRecorded_count (d : Dev) (l : Nat) :
    (laneRecorded d l).fld R.OBJ_LANE_LOST_COUNT = min (d.fld R.OBJ_LANE_LOST_COUNT + 1) (2 ^ R.OBJ_LANE_LOST_COUNT.w - 1) := by
  have counted : (laneRecorded d l).fld R.OBJ_LANE_LOST_COUNT =
      ((d.raise (F.laneLost (l / 4))).count R.OBJ_LANE_LOST_COUNT).fld R.OBJ_LANE_LOST_COUNT :=
    fld_of_regs (by simp only [laneRecorded]) (by simp only [laneRecorded]) _
  rw [counted, Dev.count, fld_addFld_self _ _ _ (by decide), fld_raise]

theorem laneRecorded_st (d : Dev) (l b : Nat) : ((laneRecorded d l).hd b).st = (d.hd b).st := by rw [laneRecorded_hd, raise_st]

theorem laneLost_works (d : Dev) (l : Nat) (parity : Bool) (b : Nat) : (laneRecorded (laneFaulted d l parity) l).works b = d.works b :=
  (laneRecorded_works ..).trans (laneFaulted_works ..)

theorem mem_healthyLanes {d : Dev} {l : Nat} : l ∈ healthyLanes d ↔
    l < 32 ∧ d.works (laneBase l) = true ∧ ((d.hd (laneBase l)).st = .ok ∨ (d.hd (laneBase l)).st = .degraded) := by
  simp [healthyLanes]

theorem not_mem_healthyLanes_of_fault {d : Dev} {l : Nat} (h : (d.hd (laneBase l)).st = .fault) : l ∉ healthyLanes d := by
  simp [mem_healthyLanes, h]

theorem mem_healthyLanes_of_ne {d : Dev} {k l : Nat} (ne : k ≠ l) (parity : Bool) (h : k ∈ healthyLanes d) :
    k ∈ healthyLanes (laneRecorded (laneFaulted d l parity) l) := by
  rw [mem_healthyLanes] at h ⊢
  rwa [laneLost_works, laneRecorded_st, laneFaulted_st_ne d ne]

/-! ## Readmission (R155) -/

theorem exec_objectReadmit (s : State) :
    exec .objectReadmit s = s.act (fun d => if d.top.st = .run && d.works objBase then d.readmit else d) := rfl

theorem readmit_of_history {d : Dev} {p : Nat} {ps : List Nat} (h : d.obj.pHist = p :: ps) :
    let a := admitCount (d.lat R.OBJ_LANE_CFG_READMIT_HOLD) d.obj.admitted p (p :: ps)
    d.readmit = { d with obj := { d.obj with admitted := a } }.setFlds
      [(R.OBJ_ADMIT_ADMITTED, a), (R.OBJ_ADMIT_SHED, (enabledObjs d).length - a)] := by
  simp only [Dev.readmit, h]

theorem admitCount_le (hold a p : Nat) (ps : List Nat) : admitCount hold a p ps ≤ p := Nat.min_le_left ..

/-- Readmission only grows A, but for the budget's P. -/
theorem le_admitCount (hold a p : Nat) (ps : List Nat) : min a p ≤ admitCount hold a p ps :=
  Nat.le_min.2 ⟨Nat.min_le_right .., (Nat.min_le_left ..).trans (Nat.le_max_left ..)⟩

/-! ## Node parity (R194) -/

theorem exec_parity (n : Fin 1048576) (k : Fin 64) (s : State) :
    exec (.parity n k) s = s.act (fun d => if d.top.st = .run then d.xptParity n.val k.val else d) := rfl

theorem xptParity_of_works {d : Dev} {n : Nat} (w : d.works xptBase = true) (h : n < 1048576) (k : Nat) :
    d.xptParity n k = (({ d with xpt := { d.xpt with parity := d.xpt.parity ++ [(n, k)] } }.count R.XPT_PARITY_COUNT).raise F.xptParity).note
      .xptParity := if_pos (by simp [w, h])

/-- Settles O28: a lost lane by its two parts, the lane's own and the record in OBJ; readmission by the bounds of its count; parity as
the crosspoint notes it. -/
theorem lanesAreLostAndObjectsReadmitted : Obligations.LanesAreLostAndObjectsReadmitted := by
  unfold Obligations.LanesAreLostAndObjectsReadmitted
  refine ⟨fun s l parity run works => ?lost, fun s l parity idle => makes_of _ (exec_laneLost l parity s) ?idle,
    fun s p ps run works hist => ⟨makes_of _ (exec_objectReadmit s) ?readmits, admitCount_le .., le_admitCount ..⟩,
    fun s n k run works => makes_of _ (exec_parity n k s) ((if_pos run).trans (xptParity_of_works works n.isLt k))⟩
  case lost =>
    obtain ⟨st, cause⟩ := laneFaulted_health works parity
    have fault := (laneRecorded_st (laneFaulted s.dev l parity) l (laneBase l)).trans st
    refine ⟨laneRecorded (laneFaulted s.dev l parity) l,
      makes_of _ (exec_laneLost l parity s) ((if_pos run).trans (laneLost_of_works works l.isLt parity)),
      fault, ?cause, by simp [laneRecorded], not_mem_healthyLanes_of_fault fault, ?next, ?counts, ?tabs, ?mem, ?rings, ?top,
      fun k ne => mem_healthyLanes_of_ne ne parity⟩
    case cause => rw [laneRecorded_hd, raise_cause, cause]
    case counts =>
      rw [laneRecorded_count, fld_of_regs (d := s.dev) (by simp [laneFaulted]) (by simp [laneFaulted])]
    all_goals simp [laneRecorded, laneFaulted]
  case idle =>
    rcases idle with other | rests
    · exact if_neg other
    · exact ite_eq_right_iff.2 fun _ => laneLost_of_idle rests parity
  case readmits => exact (if_pos (by simp [run, works])).trans (readmit_of_history hist)

end Sys2Proof.Proofs
end

section
/-! SUPPORT. Writes that fall one after the other on places of their own, and what a unit's command makes of the part (02 R76, R79). -/
namespace Sys2Proof.Proofs
open Sys2Proof.Machine Sys2Proof.Laws

/-! ## A run of writes -/

section
variable {δ : Type} {read : δ → Nat → Nat} {step : δ → Nat → δ} {place : Nat → Nat}
  (kept : ∀ d i k, k ≠ place i → read (step d i) k = read d k)
include kept

/-- A place that no step writes keeps its value. -/
theorem read_foldl_of_ne {l : List Nat} {k : Nat} (h : ∀ i ∈ l, k ≠ place i) (d : δ) : read (l.foldl step d) k = read d k := by
  induction l generalizing d with
  | nil => rfl
  | cons i l ih =>
    rw [List.forall_mem_cons] at h
    rw [List.foldl_cons, ih h.2, kept d i k h.1]

/-- Where the steps write different places, each place holds what its own step makes of the value before them all. -/
theorem read_foldl_of_mem {make : Nat → Nat → Nat} (written : ∀ d i, read (step d i) (place i) = make i (read d (place i)))
    (inj : ∀ i j, place i = place j → i = j) {l : List Nat} (once : l.Nodup) {i : Nat} (hi : i ∈ l) (d : δ) :
    read (l.foldl step d) (place i) = make i (read d (place i)) := by
  induction l generalizing d with
  | nil => simp at hi
  | cons j l ih =>
    obtain ⟨fresh, once⟩ := List.nodup_cons.1 once
    rw [List.foldl_cons]
    rcases List.mem_cons.1 hi with rfl | hi
    · rw [read_foldl_of_ne kept (fun k hk e => fresh (by rwa [inj _ _ e])), written]
    · have other : place i ≠ place j := fun e => fresh (by rwa [← inj _ _ e])
      rw [ih once hi, kept d j _ other]

end

/-! ## Commands that complete as they act (R76) -/

theorem row_done {d e : Dev} {op : Opcode} {c : Cmd} {p : Cpl} (hop : op ≠ .sceneCommit) (h : d.applies op c)
    (acts : (d.unqueue c).effect op c ((d.unqueue c).cmdLate op c) = done (p, e)) : d.row op c = e.ends c p := by
  rw [row_applies hop h, acts]
  rfl

/-- The lateness of a command that is not an object's. -/
theorem cmdLate_of_other {op : Opcode} (set : op ≠ .objSet) (key : op ≠ .objKeyframe) (d : Dev) (c : Cmd) : d.cmdLate op c = d.isLate c :=
  if_neg (by simp [set, key])

/-! ## What writes of fields in both copies leave alone (R79) -/

section
variable (t : Nat) (word lo w v : Nat → Nat) (l : List Nat) (d : Dev)

/-- Fields of words of a table, written in both copies one after the other. -/
def writeRun : Dev := l.foldl (fun d i => d.writeBothBits t (word i) (lo i) (w i) (v i)) d

theorem writeRun_tab_ne {u : Nat} (h : u ≠ t) : (writeRun t word lo w v l d).tab u = d.tab u :=
  foldl_keeps (Dev.tab · u) (fun _ _ => tab_writeBothBits_ne _ _ _ _ _ h) l d

theorem writeRun_changed : ((writeRun t word lo w v l d).tab t).changed = (d.tab t).changed :=
  foldl_keeps (fun e => (e.tab t).changed) (fun e i => by rw [Dev.writeBothBits, tab_setTab_self]) l d

theorem writeRun_frame : { writeRun t word lo w v l d with tabs := d.tabs } = d :=
  foldl_keeps (fun e => { e with tabs := d.tabs }) (f := fun e i => e.writeBothBits t (word i) (lo i) (w i) (v i)) (fun _ _ => rfl) l d

end

end Sys2Proof.Proofs
end

section
/-! SUPPORT. XPT_NODES and XPT_RAMP_SET: the gains and ramp lengths they write into both copies (05 R170, R171, R177). -/
namespace Sys2Proof.Proofs
open Sys2Proof.Machine Sys2Proof.Laws

theorem exec_xptNodes (c : Cmd) (s : State) : exec (.xptNodes c) s = s.act (·.row .xptNodes c) := rfl
theorem effect_xptNodes (d : Dev) (c : Cmd) (late : Bool) : d.effect .xptNodes c late = done (xptNodes d c late) := rfl
theorem exec_xptRampSet (c : Cmd) (s : State) : exec (.xptRampSet c) s = s.act (·.row .xptRampSet c) := rfl
theorem effect_xptRampSet (d : Dev) (c : Cmd) (late : Bool) : d.effect .xptRampSet c late = done (xptRampSet d c late) := rfl

section
variable {s : State} {c : Cmd} {p : Cpl} {e : Dev}

theorem makes_xptNodes (h : s.dev.applies .xptNodes c) (acts : xptNodes (s.dev.unqueue c) c ((s.dev.unqueue c).isLate c) = (p, e)) :
    Makes (.xptNodes c) s (e.ends c p) := by
  refine makes_of _ (exec_xptNodes c s) (row_done (by decide) h ?_)
  rw [effect_xptNodes, cmdLate_of_other (by decide) (by decide), acts]

theorem makes_xptRampSet (h : s.dev.applies .xptRampSet c) (acts : xptRampSet (s.dev.unqueue c) c ((s.dev.unqueue c).isLate c) = (p, e)) :
    Makes (.xptRampSet c) s (e.ends c p) := by
  refine makes_of _ (exec_xptRampSet c s) (row_done (by decide) h ?_)
  rw [effect_xptRampSet, cmdLate_of_other (by decide) (by decide), acts]

end

/-! ## One node (R169) -/

/-- Two nodes in one word hold different halves of it. -/
theorem halves_apart {m n : Nat} (ne : m ≠ n) (word : m / 2 = n / 2) : 16 * (m % 2) + 16 ≤ 16 * (n % 2) ∨ 16 * (n % 2) + 16 ≤ 16 * (m % 2) := by
  omega

section
variable {cp : Tab → SMap Word} (hcp : cp ∈ bothCopies) (d : Dev)
include hcp

theorem code_writeBothBits_self (n v : Nat) :
    XptT.code (cp ((d.writeBothBits T.xptNode (n / 2) (16 * (n % 2)) 16 v).tab T.xptNode)) n = v % 2 ^ 16 := by
  rw [XptT.code, wordAt_writeBothBits_self hcp _ _ _ _ (by omega), bits_setBits_self]

theorem code_writeBothBits_ne {m n : Nat} (v : Nat) (ne : m ≠ n) :
    XptT.code (cp ((d.writeBothBits T.xptNode (n / 2) (16 * (n % 2)) 16 v).tab T.xptNode)) m = XptT.code (cp (d.tab T.xptNode)) m := by
  rw [XptT.code, XptT.code]
  by_cases word : m / 2 = n / 2
  · rw [word, wordAt_writeBothBits_self hcp _ _ _ _ (by omega), bits_setBits_ne _ _ _ _ _ _ (halves_apart ne word)]
  · rw [wordAt_writeBothBits_ne hcp _ _ _ _ _ word]

end

/-! ## XPT_NODES (R170, R171) -/

/-- Node `i` of the run that an XPT_NODES names: of a row of buses, or of a column of slots. -/
def runNode (c : Cmd) (i : Nat) : Nat :=
  if bitAt (c.u8 22) 1 then XptT.node (c.u16 18) (c.u16 16 + i) else XptT.node (c.u16 18 + i) (c.u16 16)

/-- Its gain; with FILL the first one throughout. -/
def runGain (c : Cmd) (i : Nat) : Nat := c.u16 (24 + if bitAt (c.u8 22) 0 then 0 else 2 * i)

/-- The most nodes that one XPT_NODES may name. -/
def runLimit (c : Cmd) : Nat := if bitAt (c.u8 22) 0 then 1024 else 20

/-- The last slot and the last bus of the run. -/
def runLast (c : Cmd) : Nat × Nat :=
  if bitAt (c.u8 22) 1 then (c.u16 18, c.u16 16 + (c.u16 20 - 1)) else (c.u16 18 + (c.u16 20 - 1), c.u16 16)

theorem runLast_fst (c : Cmd) : (runLast c).1 = if bitAt (c.u8 22) 1 then c.u16 18 else c.u16 18 + (c.u16 20 - 1) := apply_ite ..
theorem runLast_snd (c : Cmd) : (runLast c).2 = if bitAt (c.u8 22) 1 then c.u16 16 + (c.u16 20 - 1) else c.u16 16 := apply_ite ..

theorem runNode_inj (c : Cmd) (i j : Nat) (h : runNode c i = runNode c j) : i = j := by
  unfold runNode XptT.node at h
  split at h <;> omega

/-- The gains of the run, written in both copies. -/
def withNodes (c : Cmd) (d : Dev) : Dev :=
  writeRun T.xptNode (fun i => runNode c i / 2) (fun i => 16 * (runNode c i % 2)) (fun _ => 16) (runGain c) (List.range (c.u16 20)) d

section
variable (c : Cmd) (d : Dev) {cp : Tab → SMap Word} (hcp : cp ∈ bothCopies)
include hcp

theorem code_withNodes {i : Nat} (hi : i < c.u16 20) : XptT.code (cp ((withNodes c d).tab T.xptNode)) (runNode c i) = runGain c i := by
  have wrote := read_foldl_of_mem (read := fun e n => XptT.code (cp (e.tab T.xptNode)) n) (make := fun i _ => runGain c i % 2 ^ 16)
    (fun e _ _ ne => code_writeBothBits_ne hcp e _ ne) (fun e _ => code_writeBothBits_self hcp e _ _) (runNode_inj c) List.nodup_range
    (List.mem_range.2 hi) d
  exact wrote.trans (Nat.mod_eq_of_lt (u16_lt ..))

theorem code_withNodes_ne {n : Nat} (h : ∀ i, i < c.u16 20 → n ≠ runNode c i) :
    XptT.code (cp ((withNodes c d).tab T.xptNode)) n = XptT.code (cp (d.tab T.xptNode)) n :=
  read_foldl_of_ne (read := fun e n => XptT.code (cp (e.tab T.xptNode)) n) (fun e _ _ ne => code_writeBothBits_ne hcp e _ ne)
    (fun i hi => h i (List.mem_range.1 hi)) d

end

section
variable {d : Dev} {c : Cmd} (late : Bool)

theorem xptNodes_eq : xptNodes d c late =
    if runLimit c < c.u16 20 then (.bad 3, d)
    else if c.u16 20 = 0 then (⟨lateOk late, 0, 0⟩, d)
    else if d.nBus ≤ (runLast c).1 ∨ d.nBus ≤ (runLast c).2 then (.bad 3, d)
    else (⟨lateOk late, 0, 0⟩, withNodes c d) := rfl

theorem xptNodes_refused (h : runLimit c < c.u16 20 ∨ (c.u16 20 ≠ 0 ∧ (d.nBus ≤ (runLast c).1 ∨ d.nBus ≤ (runLast c).2))) :
    xptNodes d c late = (.bad 3, d) := by
  rw [xptNodes_eq]
  split_ifs with many none outside
  · rfl
  · exact absurd h (by simp [none])
  · rfl
  · exact absurd h (by simp [many, outside])

/-- A run of no node writes nothing, as does the fold over none. -/
theorem xptNodes_writes (few : c.u16 20 ≤ runLimit c) (inside : c.u16 20 = 0 ∨ ((runLast c).1 < d.nBus ∧ (runLast c).2 < d.nBus)) :
    xptNodes d c late = (⟨lateOk late, 0, 0⟩, withNodes c d) := by
  rw [xptNodes_eq, if_neg (Nat.not_lt.2 few)]
  split_ifs with none outside
  · have nothing : withNodes c d = d := by rw [withNodes, none]; rfl
    rw [nothing]
  · omega
  · rfl

end

/-! ## XPT_RAMP_SET (R177) -/

/-- The ramp length of each bus of the range, written in both copies. -/
def withRamps (c : Cmd) (d : Dev) : Dev :=
  writeRun T.xptClip (fun i => c.u16 16 + i) (fun _ => 8) (fun _ => 7) (fun _ => min (c.u8 20) 64) (List.range (c.u16 18)) d

section
variable (c : Cmd) (d : Dev) {cp : Tab → SMap Word} (hcp : cp ∈ bothCopies)
include hcp

theorem wordAt_withRamps {i : Nat} (hi : i < c.u16 18) : wordAt (cp ((withRamps c d).tab T.xptClip)) (c.u16 16 + i) =
    setBits (wordAt (cp (d.tab T.xptClip)) (c.u16 16 + i)) 8 7 (min (c.u8 20) 64) :=
  read_foldl_of_mem (read := fun e k => wordAt (cp (e.tab T.xptClip)) k) (make := fun _ w => setBits w 8 7 (min (c.u8 20) 64))
    (fun e _ _ ne => wordAt_writeBothBits_ne hcp e _ _ _ _ ne) (fun e _ => wordAt_writeBothBits_self hcp e _ _ _ (by decide))
    (fun _ _ => Nat.add_left_cancel) List.nodup_range (List.mem_range.2 hi) d

theorem wordAt_withRamps_ne {k : Nat} (h : k < c.u16 16 ∨ c.u16 16 + c.u16 18 ≤ k) :
    wordAt (cp ((withRamps c d).tab T.xptClip)) k = wordAt (cp (d.tab T.xptClip)) k := by
  refine read_foldl_of_ne (read := fun e k => wordAt (cp (e.tab T.xptClip)) k) (place := fun i => c.u16 16 + i)
    (fun e _ _ ne => wordAt_writeBothBits_ne hcp e _ _ _ _ ne) (fun i hi => ?_) d
  have := List.mem_range.1 hi
  omega

end

section
variable {d : Dev} {c : Cmd} (late : Bool)

theorem xptRampSet_refused (some : c.u16 18 ≠ 0) (outside : d.nBus < c.u16 16 + c.u16 18) : xptRampSet d c late = (.bad 3, d) :=
  if_pos ⟨some, outside⟩

theorem xptRampSet_writes (inside : c.u16 18 = 0 ∨ c.u16 16 + c.u16 18 ≤ d.nBus) :
    xptRampSet d c late = (⟨lateOk late, 0, 0⟩, withRamps c d) := if_neg (by omega)

end

end Sys2Proof.Proofs
end

section
/-! SUPPORT. The crosspoint's node table in which one node alone is not at mute, and how two such tables differ (05 R169, R174). -/
namespace Sys2Proof.Proofs
open Sys2Proof.Machine Sys2Proof.Laws

/-! ## A table in which one node alone is not at mute (R169) -/

/-- The node table that holds code `v` in node `n` and mute in every other. -/
def loneNode (n v : Nat) : SMap Word := wordSet [] (n / 2) (setBits 0 (16 * (n % 2)) 16 v)

theorem nBus_le (d : Dev) : d.nBus ≤ 1024 := by
  unfold Dev.nBus
  split <;> decide

theorem node_slot {s x : Nat} (h : s < 1024) : XptT.node s x % 1024 = s := by
  unfold XptT.node
  omega

theorem node_bus {s x : Nat} (h : s < 1024) : XptT.node s x / 1024 = x := by
  unfold XptT.node
  omega

theorem code_nil (m : Nat) : XptT.code [] m = 0 := by simp [XptT.code, wordAt, smGet, wordDefault, bits]

section
variable {n v : Nat} (hv : v < 2 ^ 16)
include hv

theorem loneNode_word : setBits 0 (16 * (n % 2)) 16 v = v * 2 ^ (16 * (n % 2)) ∧ v * 2 ^ (16 * (n % 2)) < 2 ^ 32 := by
  constructor
  · simpa [setBits, bits] using hv
  · rcases Nat.mod_two_eq_zero_or_one n with h | h <;> rw [h] <;> omega

theorem code_loneNode_self : XptT.code (loneNode n v) n = v := by
  have fits : setBits 0 (16 * (n % 2)) 16 v < 2 ^ 32 := (loneNode_word hv).1 ▸ (loneNode_word hv).2
  rw [XptT.code, loneNode, wordAt_wordSet_self, Nat.mod_eq_of_lt fits, bits_setBits_self, Nat.mod_eq_of_lt hv]

theorem code_loneNode_ne {m : Nat} (ne : m ≠ n) : XptT.code (loneNode n v) m = 0 := by
  by_cases word : m / 2 = n / 2
  · have fits : setBits 0 (16 * (n % 2)) 16 v < 2 ^ 32 := (loneNode_word hv).1 ▸ (loneNode_word hv).2
    rw [XptT.code, loneNode, word, wordAt_wordSet_self, Nat.mod_eq_of_lt fits, bits_setBits_ne _ _ _ _ _ _ (halves_apart ne word)]
    simp [bits]
  · rw [XptT.code, loneNode, wordAt_wordSet_ne _ _ word]
    exact code_nil m

/-- The table lists the node's word alone, and nothing where the node is at mute too. -/
theorem loneNode_eq : ∃ w : Word, w.toNat = v * 2 ^ (16 * (n % 2)) ∧ loneNode n v = if v = 0 then [] else [(n / 2, w)] := by
  obtain ⟨word, fits⟩ := loneNode_word (n := n) hv
  refine ⟨BitVec.ofNat 32 (v * 2 ^ (16 * (n % 2))), Nat.mod_eq_of_lt fits, ?_⟩
  rw [loneNode, word]
  split
  case isTrue mute =>
    subst mute
    simp [wordSet, smSet, wordDefault]
  case isFalse sounds =>
    have listed : BitVec.ofNat 32 (v * 2 ^ (16 * (n % 2))) ≠ wordDefault (n / 2) := by
      intro e
      have := congrArg BitVec.toNat e
      rw [BitVec.toNat_ofNat, Nat.mod_eq_of_lt fits] at this
      simp [wordDefault, sounds] at this
    rw [wordSet, smSet, if_neg listed]
    rfl

/-- The nodes of its listed words that are not at mute. -/
theorem sounding_loneNode : ((loneNode n v).map (fun e => [2 * e.1, 2 * e.1 + 1])).flatten.filter (fun m => XptT.code (loneNode n v) m != 0) =
    if v = 0 then [] else [n] := by
  have self := code_loneNode_self (n := n) hv
  have other {m : Nat} (ne : m ≠ n) := code_loneNode_ne hv ne
  generalize XptT.code (loneNode n v) = code at self other
  obtain ⟨w, -, listed⟩ := loneNode_eq (n := n) hv
  rw [listed]
  split
  case isTrue => rfl
  case isFalse sounds =>
    rcases Nat.mod_two_eq_zero_or_one n with h | h
    · have even : 2 * (n / 2) = n := by omega
      simp [even, self, sounds, other (m := n + 1) (by omega)]
    · have odd : 2 * (n / 2) + 1 = n := by omega
      simp [odd, self, sounds, other (m := 2 * (n / 2)) (by omega)]

end

/-- Of two such tables the node's word alone can differ. -/
theorem smDiff_loneNode {n v w : Nat} (hv : v < 2 ^ 16) (hw : w < 2 ^ 16) :
    smDiff (loneNode n v) (loneNode n w) = if v = w then [] else [n / 2] := by
  split
  case isTrue same =>
    rw [same, smDiff, if_pos rfl]
  case isFalse differ =>
    have tables : loneNode n v ≠ loneNode n w := by
      intro e
      have := congrArg (XptT.code · n) e
      simp only [code_loneNode_self hv, code_loneNode_self hw] at this
      exact differ this
    obtain ⟨a, ha, old⟩ := loneNode_eq (n := n) hv
    obtain ⟨b, hb, new⟩ := loneNode_eq (n := n) hw
    have words : a ≠ b := fun e => differ (Nat.eq_of_mul_eq_mul_right (by positivity) (ha.symm.trans ((congrArg _ e).trans hb)))
    have zeroA : v ≠ 0 → a ≠ 0#32 := fun sounds e => sounds (by simpa [e] using ha.symm)
    have zeroB : w ≠ 0 → b ≠ 0#32 := fun sounds e => sounds (by simpa [e] using hb.symm)
    rw [smDiff, if_neg tables, old, new]
    by_cases v0 : v = 0
    · have w0 : w ≠ 0 := fun e => differ (v0.trans e.symm)
      simp [v0, w0, zeroB w0, smGet, wordDefault]
    · by_cases w0 : w = 0
      · simp [v0, w0, (zeroA v0).symm, smGet, wordDefault]
      · simp [v0, w0, words.symm, zeroA v0, smGet, wordDefault]

end Sys2Proof.Proofs
end

section
/-! SUPPORT. The block of a crosspoint in which one node alone sounds: its ramp, its mix and its bus (05 R172, R174, R179, R180). -/
namespace Sys2Proof.Proofs
open Sys2Proof.Machine Sys2Proof.Laws

/-! ## Ramps (R174) -/

section
variable (r : NodeRamp) {b k : Nat}

theorem ramp_at_target (h : r.len * b ≤ k) : r.at b k = r.g1 := if_pos h

theorem ramp_at_between (h : k < r.len * b) : r.at b k = ((r.g0 : Int) + divAway (((r.g1 : Int) - r.g0) * k) (r.len * b)).toNat :=
  if_neg (Nat.not_le.2 h)

/-- Between equal multipliers a ramp stands still. -/
theorem ramp_at_flat (h : r.g0 = r.g1) (b k : Nat) : r.at b k = r.g1 := by
  rcases Nat.lt_or_ge k (r.len * b) with runs | past
  · have still : divAway 0 (r.len * b) = 0 := by
      have : 0 < r.len * b := Nat.lt_of_le_of_lt (Nat.zero_le k) runs
      exact (if_pos le_rfl).trans (Int.ediv_eq_zero_of_lt (by omega) (by omega))
    rw [ramp_at_between r runs, h, sub_self, zero_mul, still, add_zero, Int.toNat_natCast]
  · exact ramp_at_target r past

end

/-- What the start of block `t` makes of the ramps for one node: a new one where its multiplier has changed, from where the old one stood. -/
def rampStarted (d : Dev) (t : Nat) (old live : SMap Word) (m : SMap NodeRamp) (n : Nat) : SMap NodeRamp :=
  if nodeUsed d n then
    if gainM (XptT.code live n) = gainM (XptT.code old n) then m
    else
      smSet (fun _ => (⟨0, 0, 0, 0⟩ : NodeRamp)) m n
        ⟨match m.find? (fun e => e.1 == n) with
          | some e => e.2.at d.blockB ((t - e.2.first) * d.blockB)
          | none => gainM (XptT.code old n), gainM (XptT.code live n), t, XptT.ramp d (n / 1024)⟩
  else m

/-- The ramps of block `t`, word by word of the table. -/
def rampsStarted (d : Dev) (t : Nat) (old live : SMap Word) : SMap NodeRamp :=
  (smDiff old live).foldl (fun m w => rampStarted d t old live (rampStarted d t old live m (2 * w)) (2 * w + 1)) d.xpt.ramps

theorem startRamps_of_last {d : Dev} {old : SMap Word} (h : d.xpt.last = some old) (t : Nat) : d.startRamps t =
    { d with xpt := { d.xpt with ramps := rampsStarted d t old (d.tab T.xptNode).live, last := some (d.tab T.xptNode).live } } := by
  simp only [Dev.startRamps, h]
  rfl

section
variable {d : Dev} {old live : SMap Word} {n : Nat}

theorem rampStarted_of_same (t : Nat) (m : SMap NodeRamp) (h : XptT.code old n = XptT.code live n) : rampStarted d t old live m n = m := by
  rw [rampStarted, h, if_pos rfl, ite_self]

theorem rampStarted_of_none (t : Nat) (used : nodeUsed d n = true) : rampStarted d t old live [] n =
    if gainM (XptT.code live n) = gainM (XptT.code old n) then []
    else [(n, ⟨gainM (XptT.code old n), gainM (XptT.code live n), t, XptT.ramp d (n / 1024)⟩)] := by
  have listed (r : NodeRamp) (h : r ≠ ⟨0, 0, 0, 0⟩) : smSet (fun _ => (⟨0, 0, 0, 0⟩ : NodeRamp)) [] n r = [(n, r)] := if_neg h
  rw [rampStarted, if_pos used]
  split
  case isTrue => rfl
  case isFalse moves =>
    refine listed _ fun e => moves ?_
    obtain ⟨g0, g1, -, -⟩ := NodeRamp.mk.inj e
    exact g1.trans g0.symm

end

/-! ## One node alone (R172) -/

section
variable {d : Dev} {t s x c0 c : Nat} (hs : s < d.nBus) (hx : x < d.nBus) (h0 : c0 < 2 ^ 16) (h1 : c < 2 ^ 16)

/-- The ramp of a lone node in block `t`, between the multipliers of its two codes. -/
def loneRamp (d : Dev) (t x c0 c : Nat) : NodeRamp := ⟨gainM c0, gainM c, t, XptT.ramp d x⟩

/-- The part with the node table as used, and the ramp of a lone node where its multiplier changes. -/
def loneStarted (d : Dev) (t s x c0 c : Nat) : Dev :=
  { d with xpt := { d.xpt with last := some (loneNode (XptT.node s x) c),
                               ramps := if gainM c = gainM c0 then [] else [(XptT.node s x, loneRamp d t x c0 c)] } }

include hs hx

theorem nodeUsed_node : nodeUsed d (XptT.node s x) = true := by
  have slot : s < 1024 := Nat.lt_of_lt_of_le hs (nBus_le d)
  simp [nodeUsed, node_slot slot, node_bus slot, hs, hx]

include h0 h1

/-- The two nodes of the word take their turn; the other one rests at mute. -/
theorem rampsStarted_lone (ramps : d.xpt.ramps = []) : rampsStarted d t (loneNode (XptT.node s x) c0) (loneNode (XptT.node s x) c) =
    if gainM c = gainM c0 then [] else [(XptT.node s x, loneRamp d t x c0 c)] := by
  rw [rampsStarted, smDiff_loneNode h0 h1, ramps]
  have slot : s < 1024 := Nat.lt_of_lt_of_le hs (nBus_le d)
  have starts := rampStarted_of_none (old := loneNode (XptT.node s x) c0) (live := loneNode (XptT.node s x) c) t (nodeUsed_node hs hx)
  rw [code_loneNode_self h0, code_loneNode_self h1, node_bus slot] at starts
  have rests {m : Nat} (ne : m ≠ XptT.node s x) (l : SMap NodeRamp) :
      rampStarted d t (loneNode (XptT.node s x) c0) (loneNode (XptT.node s x) c) l m = l :=
    rampStarted_of_same t l ((code_loneNode_ne h0 ne).trans (code_loneNode_ne h1 ne).symm)
  split
  case isTrue same => simp [same]
  case isFalse =>
    generalize XptT.node s x = n at starts rests
    rw [List.foldl_cons, List.foldl_nil]
    rcases Nat.mod_two_eq_zero_or_one n with h | h
    · have even : 2 * (n / 2) = n := by omega
      rw [even, rests (m := n + 1) (by omega)]
      exact starts
    · have odd : 2 * (n / 2) + 1 = n := by omega
      rw [odd, rests (m := 2 * (n / 2)) (by omega)]
      exact starts

theorem startRamps_lone (live : (d.tab T.xptNode).live = loneNode (XptT.node s x) c) (last : d.xpt.last = some (loneNode (XptT.node s x) c0))
    (ramps : d.xpt.ramps = []) : d.startRamps t = loneStarted d t s x c0 c := by
  rw [startRamps_of_last last, live, rampsStarted_lone hs hx h0 h1 ramps]
  rfl

end

/-! ## The nodes of a block (R172, R174) -/

/-- Node `n` as block `t` uses it. -/
def runOf (d : Dev) (t n : Nat) : NodeRun :=
  let target := gainM (XptT.code (d.tab T.xptNode).live n)
  let par := d.xpt.parity.find? (fun e => e.1 == n)
  match d.xpt.ramps.find? (fun e => e.1 == n) with
  | some e => ⟨n % 1024, e.2.at d.blockB ((t - e.2.first) * d.blockB), target, (List.range d.blockB).map (fun i =>
      match par with
      | some q => if q.2 ≤ i then target else e.2.at d.blockB ((t - e.2.first) * d.blockB + i + 1)
      | none => e.2.at d.blockB ((t - e.2.first) * d.blockB + i + 1))⟩
  | none => ⟨n % 1024, target, target, List.replicate d.blockB target⟩

section
variable {d : Dev} {t n : Nat}

theorem runOf_of_rest (h : d.xpt.ramps.find? (fun e => e.1 == n) = none) : runOf d t n =
    let target := gainM (XptT.code (d.tab T.xptNode).live n)
    ⟨n % 1024, target, target, List.replicate d.blockB target⟩ := by
  simp only [runOf, h]

theorem runOf_of_ramp {r : NodeRamp} (h : d.xpt.ramps.find? (fun e => e.1 == n) = some (n, r)) (whole : d.xpt.parity = []) (first : r.first = t) :
    runOf d t n = ⟨n % 1024, r.at d.blockB 0, gainM (XptT.code (d.tab T.xptNode).live n),
      (List.range d.blockB).map (fun i => r.at d.blockB (i + 1))⟩ := by
  simp [runOf, h, whole, first]

end

/-- The nodes that a block uses: those not at mute, and those that ramp to mute. -/
def runNodes (d : Dev) : List Nat :=
  let live := (d.tab T.xptNode).live
  ((live.map (fun e => [2 * e.1, 2 * e.1 + 1])).flatten.filter (fun n => XptT.code live n != 0) ++
    (d.xpt.ramps.map Prod.fst).filter (fun n => XptT.code live n == 0)).filter (nodeUsed d)

theorem nodeRuns_eq (d : Dev) (t : Nat) : nodeRuns d t =
    (runNodes d).foldl (fun m n => smSet (fun _ => []) m (n / 1024) (smGet (fun _ => []) m (n / 1024) ++ [runOf d t n])) [] := rfl

/-- A block that uses one node. -/
theorem nodeRuns_one {d : Dev} {n : Nat} (h : runNodes d = [n]) (t : Nat) : nodeRuns d t = [(n / 1024, [runOf d t n])] := by
  rw [nodeRuns_eq, h]
  rfl

/-! ## Mixing (R172, R179, R180) -/

/-- A bus that mixes at most one node keeps the scale factor 2^24. -/
theorem scaleTarget_of_le_one (auto : Bool) {n : Nat} (h : n ≤ 1) : scaleTarget auto n = 2 ^ 24 := by
  interval_cases n <;> cases auto <;> decide

/-- Dividing a multiple rounds nothing. -/
theorem divEven_mul_self (v : Int) {k : Nat} (h : 0 < k) : divEven (v * k) k = v := by
  have pos : (k : Int) ≠ 0 := by omega
  simp only [divEven, Int.mul_emod_left, Int.mul_ediv_cancel v pos]
  exact if_pos (by omega)

/-- The scale factor 2^24 throughout a block changes no sample. -/
theorem scaled_at_rest (l : List Int) (b : Nat) : l.zipIdx.map (fun s => divEven (s.1 * (2 ^ 24 + divFloor 0 b)) (2 ^ 24)) = l := by
  have one (v : Int) : divEven (v * (2 ^ 24 + divFloor 0 b)) (2 ^ 24) = v := by
    rw [divFloor, Int.zero_ediv, add_zero]
    exact divEven_mul_self v (by decide)
  simp only [one]
  exact List.zipIdx_map_fst ..

/-- One node's part of its bus, sample by sample. -/
theorem mixColumn_one {d : Dev} {src : Bank} {r : NodeRun} (full : (Bank.at d src r.slot).length = d.blockB) (gains : r.g.length = d.blockB) :
    mixColumn d src [r] = (List.zip (Bank.at d src r.slot) r.g).map (fun p => divEven (p.1 * p.2) (2 ^ 24)) := by
  refine List.ext_getElem (by simp [mixColumn, full, gains]) fun i h _ => ?_
  simp [mixColumn]

/-- A bus's samples after its clip policy (R179). -/
def clipped (d : Dev) (x : Nat) (l : List Int) : List Int :=
  l.map (if XptT.policy d x = 2 then clampI (-0x1000000) 0xFFFFFF else satH)

theorem clipped_eq (d : Dev) (x : Nat) (l : List Int) :
    clipped d x l = if XptT.policy d x = 2 then l.map (clampI (-0x1000000) 0xFFFFFF) else l.map satH := by
  unfold clipped
  split <;> rfl

section
variable {d : Dev} {src : Bank} {t : Nat} (takes : d.inBlock xptBase = true) (scale : (d.startRamps t).xpt.scale = [])
include takes scale

/-- A block that uses no node leaves every bus silent. -/
theorem xptBlock_of_no_run (rests : nodeRuns (d.startRamps t) t = []) : (xptBlock d t src []).1 = [] := by
  simp [xptBlock, takes, scale, rests]

/-- A block that uses one node mixes its bus alone. -/
theorem xptBlock_of_one_run {x : Nat} {r : NodeRun} (one : nodeRuns (d.startRamps t) t = [(x, [r])]) :
    (xptBlock d t src []).1 = Bank.put [] x (clipped (d.startRamps t) x (mixColumn (d.startRamps t) src [r])) := by
  have few : ([r].filter (fun r => r.before != 0 || r.target != 0)).length ≤ 1 := List.length_filter_le ..
  have alone : smGet (fun _ => ([] : List NodeRun)) [(x, [r])] x = [r] := if_pos rfl
  have before : smGet (fun _ => 2 ^ 24) ([] : SMap Nat) x = 2 ^ 24 := rfl
  simp [-Nat.reducePow, -Int.reducePow, -List.map_map, xptBlock, takes, scale, one, alone, before, scaleTarget_of_le_one _ few,
    scaled_at_rest, clipped_eq]

end

/-! ## Blocks of a bank -/

section
variable (d : Dev) (m : Bank) (x : Nat) {l : List Int}

/-- A whole block put into a bank reads as it is, silent ones too. -/
theorem bank_at_put_self (whole : l.length = d.blockB) : Bank.at d (Bank.put m x l) x = l := by
  unfold Bank.at Bank.put
  rw [smGet_smSet_self]
  split_ifs with silent
  · exact (List.eq_replicate_iff.2 ⟨whole, by simpa using silent⟩).symm
  · cases l
    case nil => simp at silent
    case cons => rfl

theorem bank_at_put_ne {y : Nat} (ne : y ≠ x) : Bank.at d (Bank.put m x l) y = Bank.at d m y := by
  unfold Bank.at Bank.put
  rw [smGet_smSet_ne _ _ _ ne]

end

/-! ## The bus of a lone node (R172, R179) -/

section
variable {d : Dev} {t s x c0 c : Nat} (hs : s < d.nBus) (h1 : c < 2 ^ 16)
  (live : (d.tab T.xptNode).live = loneNode (XptT.node s x) c)
include hs h1 live

/-- The block uses the node, but where it is at mute and does not ramp. -/
theorem runNodes_lone (hx : x < d.nBus) : runNodes (loneStarted d t s x c0 c) = if c = 0 ∧ gainM c = gainM c0 then [] else [XptT.node s x] := by
  have used : nodeUsed (loneStarted d t s x c0 c) (XptT.node s x) = true := nodeUsed_node (d := loneStarted d t s x c0 c) hs hx
  have table : ((loneStarted d t s x c0 c).tab T.xptNode).live = loneNode (XptT.node s x) c := live
  have ramps : (loneStarted d t s x c0 c).xpt.ramps = if gainM c = gainM c0 then [] else [(XptT.node s x, loneRamp d t x c0 c)] := rfl
  have code : XptT.code (loneNode (XptT.node s x) c) (XptT.node s x) = c := code_loneNode_self h1
  simp only [runNodes, table, sounding_loneNode h1, ramps]
  by_cases mute : c = 0
  · subst mute
    by_cases rests : gainM 0 = gainM c0
    · simp [rests]
    · simp [rests, code, used]
  · by_cases rests : gainM c = gainM c0
    · simp [mute, rests, used]
    · simp [mute, rests, code, used]

theorem runOf_lone (parity : d.xpt.parity = []) : ∃ before, runOf (loneStarted d t s x c0 c) t (XptT.node s x) =
    ⟨s, before, gainM c, (List.range d.blockB).map (fun i => (loneRamp d t x c0 c).at d.blockB (i + 1))⟩ := by
  have slot : s < 1024 := Nat.lt_of_lt_of_le hs (nBus_le d)
  have table : ((loneStarted d t s x c0 c).tab T.xptNode).live = loneNode (XptT.node s x) c := live
  have ramps : (loneStarted d t s x c0 c).xpt.ramps = if gainM c = gainM c0 then [] else [(XptT.node s x, loneRamp d t x c0 c)] := rfl
  have whole : (loneStarted d t s x c0 c).xpt.parity = [] := parity
  have code : XptT.code (loneNode (XptT.node s x) c) (XptT.node s x) = c := code_loneNode_self h1
  by_cases rests : gainM c = gainM c0
  · rw [runOf_of_rest (by simp [ramps, rests]), table, code, node_slot slot]
    have flat (k : Nat) : (loneRamp d t x c0 c).at d.blockB k = gainM c := ramp_at_flat _ rests.symm _ k
    simp only [flat, List.map_const', List.length_range]
    exact ⟨_, rfl⟩
  · rw [runOf_of_ramp (t := t) (n := XptT.node s x) (r := loneRamp d t x c0 c) (by simp [ramps, rests]) whole rfl, table, code, node_slot slot]
    exact ⟨_, rfl⟩

end

/-- The samples of a lone node's bus: the source's times the ramp at each sample, under the bus's clip policy. -/
def loneBus (d : Dev) (t s x c0 c : Nat) (src : Bank) : List Int :=
  (Bank.at d src s).zipIdx.map (fun p => (if XptT.policy d x = 2 then clampI (-0x1000000) 0xFFFFFF else satH)
    (divEven (p.1 * (loneRamp d t x c0 c).at d.blockB (p.2 + 1)) (2 ^ 24)))

section
variable {d : Dev} {t s x c0 c : Nat} {src : Bank}

theorem loneBus_length (full : (Bank.at d src s).length = d.blockB) : (loneBus d t s x c0 c src).length = d.blockB := by
  simp [loneBus, full]

/-- A node at mute that does not ramp gives silence. -/
theorem loneBus_of_mute (full : (Bank.at d src s).length = d.blockB) (rests : gainM c = gainM c0) (mute : c = 0) :
    loneBus d t s x c0 c src = List.replicate d.blockB 0 := by
  have flat (k : Nat) : (loneRamp d t x c0 c).at d.blockB k = 0 := (ramp_at_flat _ rests.symm _ k).trans (by rw [loneRamp, mute]; rfl)
  have silent : (if XptT.policy d x = 2 then clampI (-0x1000000) 0xFFFFFF else satH) (divEven 0 (2 ^ 24)) = 0 := by
    split <;> decide
  simp only [loneBus, flat, Nat.cast_zero, mul_zero, silent, List.map_const', List.length_zipIdx, full]

theorem clipped_mixColumn_lone (full : (Bank.at d src s).length = d.blockB) (before : Nat) :
    clipped d x (mixColumn d src [⟨s, before, gainM c, (List.range d.blockB).map (fun i => (loneRamp d t x c0 c).at d.blockB (i + 1))⟩]) =
      loneBus d t s x c0 c src := by
  rw [mixColumn_one full (by simp)]
  exact List.ext_getElem (by simp [clipped, loneBus, full]) fun i _ _ => by simp [clipped, loneBus]

/-- Mixing a block of a lone node: its bus, and silence on every other. -/
theorem xptBlock_lone (takes : d.inBlock xptBase = true) (hs : s < d.nBus) (hx : x < d.nBus) (h0 : c0 < 2 ^ 16) (h1 : c < 2 ^ 16)
    (live : (d.tab T.xptNode).live = loneNode (XptT.node s x) c) (last : d.xpt.last = some (loneNode (XptT.node s x) c0))
    (ramps : d.xpt.ramps = []) (parity : d.xpt.parity = []) (scale : d.xpt.scale = []) (full : (Bank.at d src s).length = d.blockB) :
    Bank.at d (xptBlock d t src []).1 x = loneBus d t s x c0 c src ∧
      ∀ y, y ≠ x → Bank.at d (xptBlock d t src []).1 y = List.replicate d.blockB 0 := by
  have slot : s < 1024 := Nat.lt_of_lt_of_le hs (nBus_le d)
  have starts : d.startRamps t = loneStarted d t s x c0 c := startRamps_lone hs hx h0 h1 live last ramps
  have factors : (d.startRamps t).xpt.scale = [] := by rw [starts]; exact scale
  have nodes := runNodes_lone (t := t) (c0 := c0) hs h1 live hx
  split_ifs at nodes with silent
  · obtain ⟨mute, rests⟩ := silent
    have none : (xptBlock d t src []).1 = [] := xptBlock_of_no_run takes factors (by rw [starts, nodeRuns_eq, nodes]; rfl)
    rw [none, loneBus_of_mute full rests mute]
    exact ⟨rfl, fun _ _ => rfl⟩
  · obtain ⟨before, run⟩ := runOf_lone (t := t) (c0 := c0) hs h1 live parity
    have one := nodeRuns_one nodes t
    rw [run, node_bus slot, ← starts] at one
    have bus : clipped (loneStarted d t s x c0 c) x (mixColumn (loneStarted d t s x c0 c) src [_]) = loneBus d t s x c0 c src :=
      clipped_mixColumn_lone full before
    rw [xptBlock_of_one_run takes factors one, starts, bus]
    exact ⟨bank_at_put_self _ _ _ (loneBus_length full), fun y ne => bank_at_put_ne _ _ _ ne⟩

end

/-- Settles O29: the run of nodes and the range of ramps as writes that fall on places of their own; the block of one node by its ramp,
the only run it mixes. -/
theorem crosspointCommandsWriteBothCopies : Obligations.CrosspointCommandsWriteBothCopies := by
  unfold Obligations.CrosspointCommandsWriteBothCopies
  have live : Tab.live ∈ bothCopies := .head _
  have staged : Tab.staged ∈ bothCopies := .tail _ (.head _)
  refine ⟨fun s c applies => ?nodes, fun s c applies => ?rampLengths, fun d t s x c0 c src => ?mix,
    fun r b k => ⟨ramp_at_target r, ramp_at_between r⟩⟩
  case nodes =>
    intro d cnt fill node lastS lastB gain
    have hS : (runLast c).1 = lastS := runLast_fst c
    have hB : (runLast c).2 = lastB := runLast_snd c
    refine ⟨fun bad => makes_xptNodes applies (xptNodes_refused _ ?_), fun few inside => ?_⟩
    · rw [hS, hB]
      exact bad
    · have makes := makes_xptNodes applies (xptNodes_writes _ few (by rw [hS, hB]; exact inside))
      exact ⟨_, makes, fun i hi => ⟨code_withNodes c d live hi, code_withNodes c d staged hi⟩,
        fun n out => ⟨code_withNodes_ne c d live out, code_withNodes_ne c d staged out⟩,
        fun t ht => writeRun_tab_ne _ _ _ _ _ _ d ht, writeRun_changed .., writeRun_frame ..⟩
  case rampLengths =>
    intro d first cnt
    refine ⟨fun some outside => makes_xptRampSet applies (xptRampSet_refused _ some outside), fun inside => ?_⟩
    exact ⟨_, makes_xptRampSet applies (xptRampSet_writes _ inside),
      fun i hi => ⟨wordAt_withRamps c d live hi, wordAt_withRamps c d staged hi⟩,
      fun k out => ⟨wordAt_withRamps_ne c d live out, wordAt_withRamps_ne c d staged out⟩,
      fun t ht => writeRun_tab_ne _ _ _ _ _ _ d ht, writeRun_frame ..⟩
  case mix =>
    intro n only r takes hs hx h0 h1 table last ramps parity scale full
    exact xptBlock_lone takes hs hx h0 h1 table last ramps parity scale full

end Sys2Proof.Proofs
end

section
/-! SUPPORT. What the completion of a command and what follows it leave of the meters (05 R189, R191), and a mirrored MTR_CFG, which the
statement on snapshots leaves out (13 R394). -/
namespace Sys2Proof.Proofs
open Sys2Proof.Machine Sys2Proof.Laws

/-! ## Streams and banks (R211, R320) -/

@[simp] theorem rxFollow_mtr (d : Dev) (s : Nat) : (d.rxFollow s).mtr = d.mtr := by
  unfold Dev.rxFollow
  extract_lets _ _ key
  split
  · rfl
  · exact setFlds_mtr (d.setRx s _) _

@[simp] theorem txFollow_mtr (d : Dev) (x t : Nat) : (d.txFollow x t).mtr = d.mtr := by
  unfold Dev.txFollow
  extract_lets e v now
  split
  · simp [Dev.txFresh, Dev.txPlace, Dev.setTx, apply_ite Dev.mtr]
  · simp [Dev.txFresh, Dev.txPlace, Dev.setTx, apply_ite Dev.mtr]

@[simp] theorem strFollow_mtr (d : Dev) (t : Nat) : (d.strFollow t).mtr = d.mtr :=
  (foldl_keeps Dev.mtr (fun e x => txFollow_mtr e x t) _ _).trans (foldl_keeps Dev.mtr rxFollow_mtr _ _)

@[simp] theorem judgeBank_mtr (d : Dev) (c : Nat) : (d.judgeBank c).mtr = d.mtr := by
  simp [Dev.judgeBank, Dev.setAud, apply_ite Dev.mtr]

@[simp] theorem judgeBanks_mtr (d : Dev) : d.judgeBanks.mtr = d.mtr := foldl_keeps Dev.mtr judgeBank_mtr (chainsKnown d) d

@[simp] theorem patchConflicts_mtr (d : Dev) : d.patchConflicts.mtr = d.mtr := by simp [Dev.patchConflicts]

/-! ## ASRC channels and ports (R47, R236) -/

@[simp] theorem setAsrc_mtr (d : Dev) (a : Nat) (x : AsrcS) : (d.setAsrc a x).mtr = d.mtr := (rfl)

@[simp] theorem asrcRenew_mtr (d : Dev) (a target : Nat) (est : Int) : (d.asrcRenew a target est).mtr = d.mtr := (rfl)

@[simp] theorem asrcLeave_mtr (d : Dev) (a st : Nat) : (d.asrcLeave a st).mtr = d.mtr := by
  simp [Dev.asrcLeave, apply_ite Dev.mtr]

@[simp] theorem asrcServe_mtr (d : Dev) (a : Nat) : (d.asrcServe a).mtr = d.mtr := by
  unfold Dev.asrcServe
  split
  · simp
  · simp [apply_ite Dev.mtr]

@[simp] theorem asrcIdle_mtr (d : Dev) : d.asrcIdle.mtr = d.mtr := foldl_keeps Dev.mtr (fun e a => setFlds_mtr (e.setAsrc a .zero) _) _ d

@[simp] theorem asrcService_mtr (d : Dev) : d.asrcService.mtr = d.mtr := by
  have serves (e : Dev) (l : List Nat) : (l.foldl Dev.asrcServe e).mtr = e.mtr := foldl_keeps Dev.mtr asrcServe_mtr l e
  simp [Dev.asrcService, Dev.noAsrc, apply_ite Dev.mtr, serves]

@[simp] theorem sapRefresh_mtr (d : Dev) : d.sapRefresh.mtr = d.mtr := foldl_keeps Dev.mtr (fun e p => by split <;> rfl) _ d

/-! ## References and DPLLs (R355 to R361, R406) -/

@[simp] theorem trip_mtr (d : Dev) (may : Bool) : (d.trip may).mtr = d.mtr := by
  unfold Dev.trip
  split
  · split
    · exact raise_mtr ..
    · rfl
    · rfl
  · rfl

@[simp] theorem dpllState_mtr (d : Dev) (p st : Nat) : (d.dpllState p st).mtr = d.mtr := by
  unfold Dev.dpllState
  dsimp only
  split
  · rfl
  · simp only [raiseIf_mtr, setFld_mtr, Dev.tripMaskable, apply_ite Dev.mtr, trip_mtr, ite_self]
    split <;> rfl

@[simp] theorem dpllFresh_mtr (d : Dev) (p i : Nat) : (d.dpllFresh p i).mtr = d.mtr := (rfl)

@[simp] theorem dpllPhase_mtr (d : Dev) (b p : Nat) : (d.dpllPhase b p).mtr = d.mtr := by
  simp [Dev.dpllPhase, Dev.setDpll, apply_ite Dev.mtr]

@[simp] theorem refPhases_mtr (d : Dev) : d.refPhases.mtr = d.mtr :=
  foldl_keeps Dev.mtr (fun e b => by simp [Dev.setBase, apply_ite Dev.mtr]) _ d

@[simp] theorem refEval_mtr (d : Dev) (i : Nat) : (d.refEval i).mtr = d.mtr := by
  simp [Dev.refEval, Dev.refLimits, apply_ite Dev.mtr]

@[simp] theorem refFormats_mtr (d : Dev) : d.refFormats.mtr = d.mtr :=
  foldl_keeps Dev.mtr (fun e i => by simp [apply_ite Dev.mtr]) _ d

@[simp] theorem dpllEval_mtr (d : Dev) (p : Nat) : (d.dpllEval p).mtr = d.mtr := by
  simp [Dev.dpllEval, Dev.setDpll, apply_ite Dev.mtr]

@[simp] theorem refFollow_mtr (d : Dev) : d.refFollow.mtr = d.mtr := by
  have evals (e : Dev) (l : List Nat) : (l.foldl Dev.refEval e).mtr = e.mtr := foldl_keeps Dev.mtr refEval_mtr l e
  simp [Dev.refFollow, apply_ite Dev.mtr, evals]

/-! ## Commands (R76, R80) -/

@[simp] theorem afterCommands_mtr (d : Dev) : d.afterCommands.mtr = d.mtr := by
  simp [Dev.afterCommands, Dev.captureReads, apply_ite Dev.mtr]

@[simp] theorem complete_mtr (d : Dev) (c : Cmd) (p : Cpl) : (d.complete c p).mtr = d.mtr := by
  have unlinked : (d.unlink c).mtr = d.mtr := by simp [Dev.unlink, apply_ite Dev.mtr]
  have put (e : Dev) (r : Nat) (l : List Nat) : (e.ringPut r l).mtr = e.mtr := rfl
  simp [Dev.complete, Dev.writeCpl, Dev.ringDrop, apply_ite Dev.mtr, unlinked, put]

@[simp] theorem ends_mtr (d : Dev) (c : Cmd) (p : Cpl) : (d.ends c p).mtr = d.mtr := by simp [Dev.ends]

/-! ## A mirrored MTR_CFG (R394) -/

theorem exec_mtrCfg (c : Cmd) (s : State) : exec (.mtrCfg c) s = s.act (·.row .mtrCfg c) := rfl

theorem effect_mtrCfg_mirrored (d : Dev) {c : Cmd} (mirrored : c.mirrored = true) (late : Bool) :
    d.effect .mtrCfg c late = done (⟨lateOk late, 0, 0⟩, d) := if_pos mirrored

/-- A standby completes a mirrored MTR_CFG and leaves its own meters alone. -/
theorem makes_mtrCfg_mirrored {s : State} {c : Cmd} (h : s.dev.applies .mtrCfg c) (mirrored : c.mirrored = true) :
    Makes (.mtrCfg c) s ((s.dev.unqueue c).ends c ⟨lateOk ((s.dev.unqueue c).isLate c), 0, 0⟩) := by
  refine makes_of _ (exec_mtrCfg c s) (row_done (by decide) h ?_)
  rw [effect_mtrCfg_mirrored _ mirrored, cmdLate_of_other (by decide) (by decide)]

/-- An MTR_CFG that turns snapshots off, mirrored from ring 0 of the active. -/
def mirroredCfg : Cmd := { Sys2Proof.Tests.cmd .mtrCfg [] with ring := 256 }

/-- The command waits at a standby whose counter stands at 3; its meters have never been configured. -/
def standbyWithCfg : State :=
  ⟨[], Sys2Proof.Tests.queued .mtrCfg mirroredCfg
    (Sys2Proof.Tests.inRole .standby { Sys2Proof.Tests.setup with top := { Sys2Proof.Tests.setup.top with tick := 3 } })⟩

theorem standbyWithCfg_due : mirroredCfg.code = BitVec.ofNat 8 Opcode.mtrCfg.code ∧ standbyWithCfg.dev.awake = true ∧
    standbyWithCfg.dev.works hreBase = true ∧ standbyWithCfg.dev.hre.paq.any (fun e => e.cmd.id == mirroredCfg.id) = true ∧
    standbyWithCfg.dev.cmdDue .mtrCfg mirroredCfg = true := by decide +kernel

theorem standbyWithCfg_standby : (standbyWithCfg.dev.unqueue mirroredCfg).isStandby = true ∧
    (standbyWithCfg.dev.unqueue mirroredCfg).top.st = .setup := by decide +kernel

theorem standbyWithCfg_applies : standbyWithCfg.dev.applies .mtrCfg mirroredCfg := by
  obtain ⟨code, awake, works, queued, due⟩ := standbyWithCfg_due
  obtain ⟨standby, setup⟩ := standbyWithCfg_standby
  have takes : stateTakes (standbyWithCfg.dev.unqueue mirroredCfg) .mtrCfg := .inl setup
  exact ⟨code, awake, works, queued, due, taken_on_standby standby takes (by decide)⟩

/-- Refutes O30: a standby takes a mirrored MTR_CFG without effect on its own meters (R394), so boundary A stays 0 where the statement
makes it the current tick, 3. -/
theorem not_meterSnapshotsFollowR190ToR192 : ¬ Obligations.MeterSnapshotsFollowR190ToR192 := by
  unfold Obligations.MeterSnapshotsFollowR190ToR192
  intro ⟨configured, _, _⟩
  obtain ⟨e, claimed, -, -, -, -, -, start, -⟩ := (configured standbyWithCfg mirroredCfg standbyWithCfg_applies).2 (.inl (by decide +kernel))
  have made := makes_mtrCfg_mirrored standbyWithCfg_applies (by decide)
  have same : e.mtr = (standbyWithCfg.dev.unqueue mirroredCfg).mtr := by
    simpa only [vector0_mtr, ends_mtr] using congrArg Dev.mtr (makes_vector0 claimed made)
  rw [same] at start
  exact absurd start (by decide +kernel)

end Sys2Proof.Proofs
end

section
/-! SUPPORT. Coefficient banks: how a load applies, how its copy, its transform and its restart end (06 R205, R207 to R209, 13 R393). -/
namespace Sys2Proof.Proofs
open Sys2Proof.Machine Sys2Proof.Laws

/-! ## One bank -/

@[simp] theorem bankOf_setBank_self (d : Dev) (ch b : Nat) (x : CoefBank) : (d.setBank ch b x).bankOf ch b = x := smGet_smSet_self ..

theorem bankOf_of_out {d e : Dev} (h : e.out = d.out) (ch b : Nat) : e.bankOf ch b = d.bankOf ch b := by rw [Dev.bankOf, h, Dev.bankOf]

@[simp] theorem cvuCompute_out (d : Dev) (k : Nat) (pre l : List Nat) : (d.cvuCompute k pre l).2.out = d.out := by
  unfold Dev.cvuCompute
  split
  · exact count_out d _
  · rfl

@[simp] theorem cvuFail_out (d : Dev) (k : Nat) (pre : List Nat) (got want : Nat) : (d.cvuFail k pre got want).out = d.out := by
  simp [Dev.cvuFail]

/-! ## A command that the other unit does not share (R393) -/

theorem share_of_tth {d e : Dev} (h : e.tth = d.tth) (i : CmdId) : e.share i = d.share i := by rw [Dev.share, h, Dev.share]

theorem copied_of_not_shared {d : Dev} {i : CmdId} (h : d.share i = none) : d.copied i = false := by rw [Dev.copied, h]

theorem waitsPeer_of_not_shared {d : Dev} {i : CmdId} (h : d.share i = none) : d.waitsPeer i = false := by rw [Dev.waitsPeer, h]

/-! ## OUT_BANK_LOAD (R207, R208) -/

theorem exec_outBankLoad (c : Cmd) (s : State) : exec (.outBankLoad c) s = s.act (·.row .outBankLoad c) := rfl
theorem effect_outBankLoad (d : Dev) (c : Cmd) (late : Bool) : d.effect .outBankLoad c late = outBankLoad d c late := rfl

section
variable {s : State} {c : Cmd} (h : s.dev.applies .outBankLoad c)
include h

theorem makes_outBankLoad_refused {n : Nat}
    (acts : outBankLoad (s.dev.unqueue c) c ((s.dev.unqueue c).isLate c) = (some (.bad n), s.dev.unqueue c)) :
    Makes (.outBankLoad c) s ((s.dev.unqueue c).ends c ⟨.badTable, n, 0⟩) := by
  refine makes_of _ (exec_outBankLoad c s) (row_done (by decide) h ?_)
  rw [effect_outBankLoad, cmdLate_of_other (by decide) (by decide), acts, done, Cpl.bad]

theorem makes_outBankLoad_begins {e : Dev} (acts : outBankLoad (s.dev.unqueue c) c ((s.dev.unqueue c).isLate c) = (none, e)) :
    Makes (.outBankLoad c) s e.afterCommands := by
  refine makes_of _ (exec_outBankLoad c s) ?_
  rw [row_applies (by decide) h, effect_outBankLoad, cmdLate_of_other (by decide) (by decide), acts]

end

/-- The range of a load is aligned and lies within a bank's image. -/
def loadAligned (d : Dev) (c : Cmd) : Prop := c.u32 20 % 4 = 0 ∧ c.u32 24 % 4 = 0 ∧ 4 ≤ c.u32 24 ∧ c.u32 20 + c.u32 24 ≤ bankSize d

/-- The bank of a load is neither heard nor about to be. -/
def loadFree (d : Dev) (c : Cmd) : Prop :=
  d.out.fades.any (fun e => e.1 == c.u16 16) = false ∧ d.audible (c.u16 16) ≠ c.u8 18 % 2 ∧ ChainT.bank d (c.u16 16) ≠ c.u8 18 % 2

theorem loadFree_iff (d : Dev) (c : Cmd) : loadFree d c ↔ ¬ (d.out.fades.any (fun e => e.1 == c.u16 16) = true ∨
    d.audible (c.u16 16) = c.u8 18 % 2 ∨ ChainT.bank d (c.u16 16) = c.u8 18 % 2) := by
  rw [loadFree, not_or, not_or, Bool.not_eq_true]

theorem loadAligned_iff (d : Dev) (c : Cmd) : loadAligned d c ↔
    ¬ (c.u32 20 % 4 ≠ 0 ∨ c.u32 24 % 4 ≠ 0 ∨ c.u32 24 < 4 ∨ bankSize d < c.u32 20 + c.u32 24) := by
  rw [loadAligned]
  omega

section
variable {d : Dev} {c : Cmd} (late : Bool)

theorem outBankLoad_absent (h : d.nChain ≤ c.u16 16) : outBankLoad d c late = (some (.bad 2), d) := if_pos h

section
variable (h : c.u16 16 < d.nChain)
include h

theorem outBankLoad_unaligned (range : ¬ loadAligned d c) : outBankLoad d c late = (some (.bad 3), d) :=
  (if_neg (Nat.not_le.2 h)).trans (if_pos (not_not.1 (mt (loadAligned_iff d c).2 range)))

section
variable (range : loadAligned d c)
include range

theorem outBankLoad_taken (taken : ¬ loadFree d c) : outBankLoad d c late = (some (.bad 7), d) :=
  (if_neg (Nat.not_le.2 h)).trans ((if_neg ((loadAligned_iff d c).1 range)).trans (if_pos (not_not.1 (mt (loadFree_iff d c).2 taken))))

theorem outBankLoad_begins (free : loadFree d c) : outBankLoad d c late =
    (none, d.setBank (c.u16 16) (c.u8 18 % 2) { d.bankOf (c.u16 16) (c.u8 18 % 2) with
      st := .loading, copying := (d.bankOf (c.u16 16) (c.u8 18 % 2)).copying ++ [(c, late)], transform := false, formed := false, tr := none }) :=
  (if_neg (Nat.not_le.2 h)).trans ((if_neg ((loadAligned_iff d c).1 range)).trans (if_neg ((loadFree_iff d c).1 free)))

end
end
end

/-! ## A copy ends (R208, R393) -/

theorem exec_bankCopyDone (ch : Fin 1024) (b : Fin 2) (err : Option Nat) (s : State) :
    exec (.bankCopyDone ch b err) s = s.act (·.bankCopyDone ch.val b.val err) := rfl

section
variable {d : Dev} {ch b : Nat} {c : Cmd} {late : Bool} {rest : List (Cmd × Bool)} (first : (d.bankOf ch b).copying = (c, late) :: rest)
include first

theorem bankCopyDone_waits (new : d.copied c.id = false) (waits : d.waitsPeer c.id = true) (err : Option Nat) :
    d.bankCopyDone ch b err = d.copiedHere c.id err := by
  simp only [Dev.bankCopyDone, first, new, waits, Bool.false_eq_true, if_false, if_true]

theorem bankCopyDone_alone (alone : d.share c.id = none) (err : Option Nat) : d.bankCopyDone ch b err = d.bankLoaded ch b c err := by
  simp only [Dev.bankCopyDone, first, copied_of_not_shared alone, waitsPeer_of_not_shared alone, Bool.false_eq_true, if_false]

theorem bankOver_good (l : List Nat) (v : Nat) : d.bankOver ch b none l v false = d.setBank ch b { d.bankOf ch b with
    image := storeBytes (d.bankOf ch b).image (c.u32 20) l, copying := rest, copied := (d.bankOf ch b).copied ++ [(c, late, v)],
    transform := rest.isEmpty, formed := false, tr := none } := by
  simp only [Dev.bankOver, first, Option.isSome_none, Bool.or_self, Bool.false_eq_true, if_false, BankL.offset]

theorem bankOver_bad (fresh : (d.bankOf ch b).copied = []) {err : Option Nat} {wrong : Bool} (bad : (err.isSome || wrong) = true) (l : List Nat)
    (v : Nat) : d.bankOver ch b err l v wrong = ((d.setBank ch b { d.bankOf ch b with
      image := storeBytes (d.bankOf ch b).image (c.u32 20) l, copying := rest, st := .bad, transform := false, formed := false, tr := none }).raise
        F.bankBad).complete c ⟨.badTable, if err.isSome then 5 else 4, v⟩ := by
  simp only [Dev.bankOver, first, bad, if_true, fresh, List.foldl_nil, BankL.offset]

end

section
variable {d : Dev} {ch b : Nat} {c : Cmd} {late : Bool} {rest : List (Cmd × Bool)} (alone : d.share c.id = none)
include alone

/-- A copy that ended whole with the check value right or not asked for. -/
theorem bankLoaded_right {l : List Nat} (hl : d.bankBytes c none = l) (right : bitAt (c.u8 19) 0 = false ∨ d.works (cvuBase 3) = false ∨
    (d.cvuCompute 3 (BankL.tag c) l).1 = c.u32 40) : d.bankLoaded ch b c none =
      (d.cvuCompute 3 (BankL.tag c) l).2.bankOver ch b none l (d.cvuCompute 3 (BankL.tag c) l).1 false := by
  have works : (d.cvuCompute 3 (BankL.tag c) l).2.works (cvuBase 3) = d.works (cvuBase 3) := works_of_hdr (by simp) _
  have fine : (BankL.check c && d.works (cvuBase 3) && (d.cvuCompute 3 (BankL.tag c) l).1 != BankL.want c) = false := by
    rw [BankL.check, BankL.want]
    rcases right with h | h | h <;> simp [h]
  have alone' : (d.cvuCompute 3 (BankL.tag c) l).2.share c.id = none := (share_of_tth (by simp) _).trans alone
  simp only [Dev.bankLoaded, hl, works, Option.isNone_none, Bool.true_and, fine, Option.isSome_none, Bool.false_eq_true, if_false, alone']

/-- A copy that ended whole with the wrong check value. -/
theorem bankLoaded_wrong {l : List Nat} (hl : d.bankBytes c none = l) (check : bitAt (c.u8 19) 0 = true) (works : d.works (cvuBase 3) = true)
    (wrong : (d.cvuCompute 3 (BankL.tag c) l).1 ≠ c.u32 40) : d.bankLoaded ch b c none =
      ((d.cvuCompute 3 (BankL.tag c) l).2.cvuFail 3 (BankL.tag c) (d.cvuCompute 3 (BankL.tag c) l).1 (c.u32 40)).bankOver ch b none l
        (d.cvuCompute 3 (BankL.tag c) l).1 true := by
  have works' : (d.cvuCompute 3 (BankL.tag c) l).2.works (cvuBase 3) = true := (works_of_hdr (by simp) _).trans works
  have differs : ((d.cvuCompute 3 (BankL.tag c) l).1 != c.u32 40) = true := bne_iff_ne.2 wrong
  have alone' : ((d.cvuCompute 3 (BankL.tag c) l).2.cvuFail 3 (BankL.tag c) (d.cvuCompute 3 (BankL.tag c) l).1 (c.u32 40)).share c.id = none :=
    (share_of_tth (by simp) _).trans alone
  simp only [Dev.bankLoaded, hl, Option.isNone_none, BankL.check, check, works', BankL.want, differs, Bool.and_true, if_true,
    Option.isSome_none, Bool.false_eq_true, if_false, alone']

/-- A copy that ended after `n` bytes. -/
theorem bankLoaded_failed {n : Nat} {l : List Nat} (hl : d.bankBytes c (some n) = l) : d.bankLoaded ch b c (some n) =
    ((d.cvuCompute 3 (BankL.tag c) l).2.raise F.dmaErr).bankOver ch b (some n) l (d.cvuCompute 3 (BankL.tag c) l).1 false := by
  have alone' : ((d.cvuCompute 3 (BankL.tag c) l).2.raise F.dmaErr).share c.id = none := (share_of_tth (by simp) _).trans alone
  simp only [Dev.bankLoaded, hl, Option.isNone_some, Bool.false_and, Bool.false_eq_true, if_false, Option.isSome_some, if_true, alone',
    Option.isSome_none]

end

/-! ## The transform ends (R209, R205) -/

theorem exec_bankTransformDone (ch : Fin 1024) (b : Fin 2) (s : State) :
    exec (.bankTransformDone ch b) s = s.act (·.bankTransformDone ch.val b.val) := rfl

/-- The taps of a bank are formed. -/
def bankFormed (d : Dev) (ch b : Nat) : Dev := d.setBank ch b { d.bankOf ch b with transform := false, formed := true }

theorem bankTransformDone_idle {d : Dev} {ch b : Nat} (h : (d.bankOf ch b).transform = false) : d.bankTransformDone ch b = d :=
  if_neg (by simp [h])

theorem bankTransformDone_of_transform {d : Dev} {ch b : Nat} (h : (d.bankOf ch b).transform = true) : d.bankTransformDone ch b =
    if 16 * headTaps (bankFormed d ch b) < (d.bankOf ch b).firLen (bankFormed d ch b) then (bankFormed d ch b).convWrite 2 (bankFormed d ch b).top.tick ch
    else bankFormed d ch b := if_pos h

/-! ## The restart boundary is fixed (R209, R224) -/

/-- The restart boundary of a load, and whether it is late for it. -/
def restartFor (d : Dev) (c : Cmd) : Nat × Bool :=
  if c.u48 44 ≠ 0 ∧ d.top.tick ≤ c.u48 44 then (c.u48 44, false) else (d.top.tick, c.u48 44 != 0)

theorem bankFix_of_formed {d : Dev} {ch b : Nat} {e : Cmd × Bool × Nat} (formed : (d.bankOf ch b).formed = true)
    (last : (d.bankOf ch b).copied.getLast? = some e) (own : d.isStandby = false) : d.bankFix ch b =
      if (d.share e.1.id).isSome then
        (d.setBank ch b { d.bankOf ch b with formed := false, tr := some (restartFor d e.1) }).tell
          (.restart ch b (restartFor d e.1).1 (restartFor d e.1).2)
      else d.setBank ch b { d.bankOf ch b with formed := false, tr := some (restartFor d e.1) } := by
  simp only [Dev.bankFix, formed, last, own, Bool.false_and, Bool.false_eq_true, if_false, restartFor, BankL.ready]
  rfl

/-! ## The restart (R209) -/

theorem exec_bankRestart (ch : Fin 1024) (b : Fin 2) (s : State) :
    exec (.bankRestart ch b) s = s.act (fun d => (d.bankRestart ch.val b.val).judgeBanks) := rfl

/-- The completion of a load that waited for its bank's restart. -/
def loadCpl (tr : Nat) (late : Bool) (e : Cmd × Bool × Nat) : Cpl := ⟨lateOk (late || e.2.1), 0, ofLe (leBytes 4 e.2.2 ++ leBytes 6 tr)⟩

/-- What runs in chain `ch`. -/
def chainRun (d : Dev) (ch : Nat) : ChainR := smGet (fun _ => ChainR.zero) d.out.chains ch

/-- The run state of bank `b` in a chain. -/
def bankRunOf (b : Nat) (st : ChainR) : BankRun := if b = 0 then st.bankA else st.bankB

/-- A chain in which bank `b` starts from zero. -/
def zeroRun (b : Nat) (st : ChainR) : ChainR := if b = 0 then { st with bankA := .zero } else { st with bankB := .zero }

theorem bankRunOf_zeroRun (b : Nat) (st : ChainR) : bankRunOf b (zeroRun b st) = .zero := by
  unfold bankRunOf zeroRun
  split
  · rfl
  · rfl

theorem zeroRun_on (b : Nat) (st : ChainR) : (zeroRun b st).on = st.on := by
  unfold zeroRun
  split
  · rfl
  · rfl

/-- A bank that restarts is READY, and no load waits for its restart any longer. -/
def bankReadied (d : Dev) (ch b : Nat) : Dev := d.setBank ch b { d.bankOf ch b with st := .ready, copied := [], tr := none }

/-- The part after a bank's restart: in a chain that is on, the bank starts from zero. -/
def bankRested (d : Dev) (ch b : Nat) : Dev :=
  if (chainRun d ch).on then
    { bankReadied d ch b with
      out := { (bankReadied d ch b).out with chains := smSet (fun _ => ChainR.zero) d.out.chains ch (zeroRun b (chainRun d ch)) } }
  else bankReadied d ch b

section
variable (d : Dev) (ch b : Nat)

theorem bankRested_bankOf : (bankRested d ch b).bankOf ch b = { d.bankOf ch b with st := .ready, copied := [], tr := none } := by
  unfold bankRested
  split
  · exact bankOf_setBank_self ..
  · exact bankOf_setBank_self ..

theorem bankRested_run {d : Dev} {ch : Nat} (on : (chainRun d ch).on = true) : bankRunOf b (chainRun (bankRested d ch b) ch) = .zero := by
  rw [bankRested, if_pos on, chainRun, smGet_smSet_self, bankRunOf_zeroRun]

theorem bankRested_keeps : (bankRested d ch b).tabs = d.tabs ∧ (bankRested d ch b).hostMem = d.hostMem ∧ (bankRested d ch b).regs = d.regs := by
  unfold bankRested
  split
  · exact ⟨rfl, rfl, rfl⟩
  · exact ⟨rfl, rfl, rfl⟩

end

section
variable {d : Dev} {ch b tr : Nat} {late : Bool} (fixed : (d.bankOf ch b).tr = some (tr, late)) (due : tr ≤ d.top.tick)
  (still : (d.bankOf ch b).transform = false)
include fixed due still

theorem bankReady_of_due : d.bankReady ch b = ((d.bankOf ch b).copied.map (fun e => (e.1, loadCpl tr late e)), bankRested d ch b) := by
  have restarts : (decide (tr ≤ d.top.tick) && !(d.bankOf ch b).transform) = true := by simp [due, still]
  rw [bankRested, ← zeroRun_on b (chainRun d ch)]
  simp only [Dev.bankReady, fixed, restarts, if_true]
  rfl

theorem bankRestart_of_due : d.bankRestart ch b =
    (d.bankOf ch b).copied.foldl (fun d e => d.complete e.1 (loadCpl tr late e)) (bankRested d ch b) := by
  rw [Dev.bankRestart, bankReady_of_due fixed due still, List.foldl_map]

end

/-- Settles O31: a load at its apply boundary, the end of its copy, of its transform and of its wait for the restart, case by case. That
the loads of one bank share one restart is the model's reading (log 54). -/
theorem bankLoadsRunFromCopyToRestart : Obligations.BankLoadsRunFromCopyToRestart := by
  unfold Obligations.BankLoadsRunFromCopyToRestart
  refine ⟨fun s c applies => ?applies, fun s ch b c late rest => ?good, fun s ch b c late rest err => ?bad,
    fun s ch b err c late rest first new waits => makes_of _ (exec_bankCopyDone ch b err s) (bankCopyDone_waits first new waits err),
    fun s ch b => ?transform, fun d ch b e => fun formed last own => bankFix_of_formed formed last own, fun s ch b tr late => ?restart⟩
  case applies =>
    exact ⟨fun absent => makes_outBankLoad_refused applies (outBankLoad_absent _ absent),
      fun present range => makes_outBankLoad_refused applies (outBankLoad_unaligned _ present range),
      fun present range taken => makes_outBankLoad_refused applies (outBankLoad_taken _ present range taken),
      fun present range free => makes_outBankLoad_begins applies (outBankLoad_begins _ present range free)⟩
  case good =>
    intro x l v first alone right
    refine makes_of _ (exec_bankCopyDone ch b none s) ?_
    have same : v.2.bankOf ch.val b.val = x := bankOf_of_out (cvuCompute_out ..) _ _
    rw [bankCopyDone_alone first alone, ← same]
    rw [← same] at first
    exact (bankLoaded_right alone rfl right).trans (bankOver_good first _ _)
  case bad =>
    intro x n l v d first alone fresh wrong
    refine makes_of _ (exec_bankCopyDone ch b err s) ?_
    have same : d.bankOf ch.val b.val = x := bankOf_of_out (by cases err <;> simp [d, v]) _ _
    rw [bankCopyDone_alone first alone, ← same]
    rw [← same] at first fresh
    cases err with
    | none =>
      obtain ⟨check, works, differs⟩ := wrong rfl
      exact (bankLoaded_wrong alone rfl check works differs).trans (bankOver_bad first fresh rfl _ _)
    | some k => exact (bankLoaded_failed alone rfl).trans (bankOver_bad first fresh rfl _ _)
  case transform =>
    intro x e
    refine ⟨fun idle => ?_, fun runs near => ?_, fun runs far => ?_⟩
    · exact makes_of _ (exec_bankTransformDone ch b s) (bankTransformDone_idle idle)
    · exact makes_of _ (exec_bankTransformDone ch b s) ((bankTransformDone_of_transform runs).trans (if_neg (Nat.not_lt.2 near)))
    · exact makes_of _ (exec_bankTransformDone ch b s) ((bankTransformDone_of_transform runs).trans (if_pos far))
  case restart =>
    intro x chain fixed due still
    refine ⟨bankRested s.dev ch.val b.val, makes_of _ (exec_bankRestart ch b s) ?_, bankRested_bankOf .., bankRested_run b.val,
      bankRested_keeps ..⟩
    rw [bankRestart_of_due fixed due still]
    rfl

end Sys2Proof.Proofs
end

section
/-! SUPPORT. OUT_SWAP, PATCH_SET and crossfades: what they write in both copies, and which bank is heard (06 R210 to R212, R222, 02 R79). -/
namespace Sys2Proof.Proofs
open Sys2Proof.Machine Sys2Proof.Laws

theorem exec_outSwap (c : Cmd) (s : State) : exec (.outSwap c) s = s.act (·.row .outSwap c) := rfl
theorem effect_outSwap (d : Dev) (c : Cmd) (late : Bool) : d.effect .outSwap c late = done (outSwap d c late) := rfl
theorem exec_patchSet (c : Cmd) (s : State) : exec (.patchSet c) s = s.act (·.row .patchSet c) := rfl
theorem effect_patchSet (d : Dev) (c : Cmd) (late : Bool) : d.effect .patchSet c late = done (patchSet d c late) := rfl
theorem exec_crossfadeEnd (s : State) : exec .crossfadeEnd s = s.act (fun d => d.endFades.judgeBanks) := rfl

section
variable {s : State} {c : Cmd} {p : Cpl} {e : Dev}

theorem makes_outSwap (h : s.dev.applies .outSwap c) (acts : outSwap (s.dev.unqueue c) c ((s.dev.unqueue c).isLate c) = (p, e)) :
    Makes (.outSwap c) s (e.ends c p) := by
  refine makes_of _ (exec_outSwap c s) (row_done (by decide) h ?_)
  rw [effect_outSwap, cmdLate_of_other (by decide) (by decide), acts]

theorem makes_patchSet (h : s.dev.applies .patchSet c) (acts : patchSet (s.dev.unqueue c) c ((s.dev.unqueue c).isLate c) = (p, e)) :
    Makes (.patchSet c) s (e.ends c p) := by
  refine makes_of _ (exec_patchSet c s) (row_done (by decide) h ?_)
  rw [effect_patchSet, cmdLate_of_other (by decide) (by decide), acts]

end

theorem writeBothBits_frame (d : Dev) (t i lo w v : Nat) : { d.writeBothBits t i lo w v with tabs := d.tabs } = d := rfl

/-! ## The bank of a chain's entry (R198, R210) -/

/-- BANK of chain `ch` written in both copies. -/
def withBank (d : Dev) (ch b : Nat) : Dev := d.writeBothBits T.outChain (8 * ch) 30 1 b

section
variable (d : Dev) (ch : Nat) {b : Nat}

theorem withBank_word {cp : Tab → SMap Word} (hcp : cp ∈ bothCopies) :
    wordAt (cp ((withBank d ch b).tab T.outChain)) (8 * ch) = setBits (wordAt (cp (d.tab T.outChain)) (8 * ch)) 30 1 b :=
  wordAt_writeBothBits_self hcp _ _ _ _ (by decide)

theorem withBank_bank {cp : Tab → SMap Word} (hcp : cp ∈ bothCopies) (hb : b < 2) :
    bits (wordAt (cp ((withBank d ch b).tab T.outChain)) (8 * ch)) 30 1 = b := by
  rw [withBank_word d ch hcp, bits_setBits_self, Nat.mod_eq_of_lt (by simpa using hb)]

theorem withBank_live_bits {lo w : Nat} (other : lo + w ≤ 30 ∨ 31 ≤ lo) :
    bits ((withBank d ch b).live T.outChain (8 * ch)) lo w = bits (d.live T.outChain (8 * ch)) lo w :=
  (congrArg (bits · lo w) (withBank_word d ch (cp := Tab.live) (by simp))).trans (bits_setBits_ne _ _ _ _ _ _ other)

theorem withBank_live_ne {i : Nat} (other : i ≠ 8 * ch) : (withBank d ch b).live T.outChain i = d.live T.outChain i :=
  wordAt_writeBothBits_ne (cp := Tab.live) (by simp) _ _ _ _ _ other

theorem withBank_tab_ne {t : Nat} (other : t ≠ T.outChain) : (withBank d ch b).tab t = d.tab t := tab_writeBothBits_ne _ _ _ _ _ other

theorem withBank_frame : { withBank d ch b with tabs := d.tabs } = d := writeBothBits_frame ..

end

/-! ## OUT_SWAP (R210) -/

section
variable {d : Dev} {c : Cmd} (late : Bool)

theorem outSwap_absent (h : d.nChain ≤ c.u16 16) : outSwap d c late = (.bad 2, d) := if_pos h

theorem outSwap_unready (h : c.u16 16 < d.nChain) (bank : (d.bankOf (c.u16 16) (c.u8 18 % 2)).st ≠ .ready) : outSwap d c late = (.bad 8, d) :=
  (if_neg (Nat.not_le.2 h)).trans (if_pos bank)

theorem outSwap_ready (h : c.u16 16 < d.nChain) (bank : (d.bankOf (c.u16 16) (c.u8 18 % 2)).st = .ready) : outSwap d c late =
    (⟨lateOk late, 0, swapCode d (c.u16 16) (c.u8 18 % 2)⟩, withBank d (c.u16 16) (c.u8 18 % 2)) :=
  (if_neg (Nat.not_le.2 h)).trans (if_neg (not_not.2 bank))

end

section
variable {d : Dev} (unfaded : d.out.fades = []) {ch b : Nat}
include unfaded

theorem swapCode_audible (h : b = d.audible ch) : swapCode d ch b = 2 := by simp only [swapCode, unfaded, List.find?_nil, h, if_true]

theorem swapCode_other (h : b ≠ d.audible ch) : swapCode d ch b = if ChainT.en d ch = true ∧ d.chainStarts ch = false then 0 else 3 := by
  simp only [swapCode, unfaded, List.find?_nil, if_neg h, Bool.and_eq_true, Bool.not_eq_true']

end

/-! ## Crossfades (R211, R212) -/

theorem audible_setAud_self (d : Dev) (ch b : Nat) : (d.setAud ch b).audible ch = b := smGet_smSet_self ..

theorem audible_setAud_ne (d : Dev) {ch k : Nat} (b : Nat) (h : k ≠ ch) : (d.setAud ch b).audible k = d.audible k := smGet_smSet_ne _ _ _ h

/-- The one crossfade there is has run its length. -/
theorem endFades_of_one {d : Dev} {ch : Nat} {f : Fade} (one : d.out.fades = [(ch, f)]) (past : f.first + f.len ≤ d.top.tick) :
    d.endFades = { d.setAud ch f.tgt with out := { (d.setAud ch f.tgt).out with fades := [] } } := by
  have gone : d.out.fades.filter (fun x => x.1 != ch) = [] := by simp [one]
  rw [Dev.endFades, one, List.foldl_cons, List.foldl_nil, if_pos past, gone]

/-! ## PATCH_SET (R222) -/

/-- The entries of a PATCH_SET written in both copies. -/
def withPatch (c : Cmd) (d : Dev) : Dev :=
  (List.range (c.u16 18)).foldl (fun d i => d.writeBoth T.outPatch (c.u16 16 + i) (c.u32 (24 + 4 * i))) d

section
variable (c : Cmd) (d : Dev)

section
variable {cp : Tab → SMap Word} (hcp : cp ∈ bothCopies)
include hcp

theorem withPatch_word {i : Nat} (hi : i < c.u16 18) : wordAt (cp ((withPatch c d).tab T.outPatch)) (c.u16 16 + i) = c.u32 (24 + 4 * i) :=
  read_foldl_of_mem (read := fun e n => wordAt (cp (e.tab T.outPatch)) n) (place := (c.u16 16 + ·)) (make := fun i _ => c.u32 (24 + 4 * i))
    (fun e _ _ ne => wordAt_writeBoth_ne hcp e _ _ ne) (fun e _ => wordAt_writeBoth_self hcp e _ _ (u32_lt ..))
    (fun _ _ => Nat.add_left_cancel) List.nodup_range (List.mem_range.2 hi) d

theorem withPatch_word_ne {k : Nat} (other : k < c.u16 16 ∨ c.u16 16 + c.u16 18 ≤ k) :
    wordAt (cp ((withPatch c d).tab T.outPatch)) k = wordAt (cp (d.tab T.outPatch)) k := by
  refine read_foldl_of_ne (read := fun e n => wordAt (cp (e.tab T.outPatch)) n) (place := (c.u16 16 + ·))
    (fun e _ _ ne => wordAt_writeBoth_ne hcp e _ _ ne) (fun i hi => ?_) d
  have := List.mem_range.1 hi
  omega

end

theorem withPatch_tab_ne {t : Nat} (h : t ≠ T.outPatch) : (withPatch c d).tab t = d.tab t :=
  foldl_keeps (Dev.tab · t) (fun _ _ => tab_writeBoth_ne _ _ _ h) _ d

theorem withPatch_frame : { withPatch c d with tabs := d.tabs } = d :=
  foldl_keeps (fun e => { e with tabs := d.tabs }) (f := fun e i => e.writeBoth T.outPatch (c.u16 16 + i) (c.u32 (24 + 4 * i))) (fun _ _ => rfl) _ d

end

section
variable {d : Dev} {c : Cmd} (late : Bool)

theorem patchSet_refused (asked : c.u16 18 ≠ 0) (far : 10 < c.u16 18 ∨ 2048 < c.u16 16 + c.u16 18) : patchSet d c late = (.bad 3, d) :=
  (if_neg asked).trans (if_pos far)

theorem patchSet_writes (fits : c.u16 18 = 0 ∨ c.u16 18 ≤ 10 ∧ c.u16 16 + c.u16 18 ≤ 2048) :
    patchSet d c late = (⟨lateOk late, 0, 0⟩, withPatch c d) := by
  by_cases empty : c.u16 18 = 0
  · rw [patchSet, if_pos empty, withPatch, empty]
    rfl
  · exact (if_neg empty).trans (if_neg (by omega))

end

end Sys2Proof.Proofs
end

section
/-! SUPPORT. One block of a chain, stage by stage (06 R197 to R200, R211, R214 to R218). -/
namespace Sys2Proof.Proofs
open Sys2Proof.Machine Sys2Proof.Laws

/-! ## Stages of a block -/

/-- Block `t` of a chain whose data all came in time. -/
abbrev timelyBlock (d : Dev) (t level c : Nat) (feeds buses : Bank) : ChainOut := chainBlock d t level c feeds buses [] []

/-- The delay line of a chain with the block that stages 1 to 4 give. -/
def lineWith (st : ChainR) (t : Nat) (x : List Int) : SMap (List Int) := smSet (fun _ => []) st.line t (if x.all (· == 0) then [] else x)

/-- Block `t` as the delay and the gain stage make it of the line (R214, R215). -/
def gained (d : Dev) (t c : Nat) (line : SMap (List Int)) : List Int :=
  (List.range d.blockB).map fun m =>
    satH (divEven (histAt d.blockB line ((t * d.blockB + m : Nat) - (chainDelay d c : Int)) * chainV d c) (2 ^ 24))

/-- The limiter's gain at the end of a block, from the gain at its start (R216 to R218). -/
def limiterGain (d : Dev) (level c g : Nat) (x : List Int) : Nat :=
  if unlimited d level c then 2 ^ 24 else
    min (min (2 ^ 24) (g * releaseK (ChainT.release d c) d.blockB d.fs / 2 ^ 24)) (gReq (ceilCode (ChainT.ceil d c)) (peakOf x))

/-- A block under a gain that glides from `g0` to `g` (R217). -/
def glided (b g0 g : Nat) (x : List Int) : List Int :=
  x.zipIdx.map fun p => divEven (p.1 * ((g0 : Int) + divFloor (((g : Int) - g0) * (p.2 + 1 : Nat)) b)) (2 ^ 24)

/-- A block clamped at the chain's ceiling, unless it is unlimited (R217, R218). -/
def ceiled (d : Dev) (level c : Nat) (x : List Int) : List Int :=
  if unlimited d level c then x else x.map (clampI (-(ceilCode (ChainT.ceil d c) : Int)) (ceilCode (ChainT.ceil d c)))

/-- A bank without sections and taps passes its block on. -/
theorem bankBlock_through {d : Dev} {bank : CoefBank} (sections : bank.nsos = 0) (taps : bank.firLen d = 0) (t c : Nat) (run : BankRun)
    (heard : Bool) (lateAt : List Nat) (x : List Int) : (bankBlock d t c bank run heard lateAt x).1 = x := by
  have unfiltered : cascade ((List.range bank.nsos).map (fun k => bank.coef k)) run.sos x = (x, run.sos, 0) := by rw [sections]; rfl
  simp only [bankBlock, unfiltered, taps, if_true]

/-- A gain multiplier that does not move scales every sample by itself. -/
theorem scaled_by_steady (v : Int) (b : Nat) (l : List Int) :
    l.zipIdx.map (fun p => divEven (p.1 * (v + divFloor ((v - v) * (p.2 + 1 : Nat)) b)) (2 ^ 24)) = l.map (fun x => divEven (x * v) (2 ^ 24)) := by
  have steady (n : Nat) : v + divFloor ((v - v) * n) b = v := by rw [divFloor, sub_self, zero_mul, Int.zero_ediv, add_zero]
  simp only [steady]
  exact (List.map_map (f := Prod.fst) (g := fun x => divEven (x * v) (2 ^ 24))).symm.trans (congrArg _ (List.zipIdx_map_fst 0 l))

section
variable {d : Dev} {c : Nat} (t level : Nat) (feeds buses : Bank) (on : (chainRun d c).on = true)
include on

/-- Stages 1 to 4 give the input, where the entry is unchanged and the one bank heard passes it on. -/
theorem timelyBlock_line (kind : (chainRun d c).kind = ChainT.kind d c) (idx : (chainRun d c).idx = ChainT.index d c)
    (unfaded : d.out.fades.find? (fun e => e.1 == c) = none) (bank : d.audible c ≤ 1) (sections : (d.bankOf c (d.audible c)).nsos = 0)
    (taps : (d.bankOf c (d.audible c)).firLen d = 0) :
    (timelyBlock d t level c feeds buses).line = chainInput d feeds buses (ChainT.kind d c) (ChainT.index d c) := by
  rw [chainRun] at on kind idx
  rw [Dev.audible] at bank sections taps
  have heard : smGet (fun _ => 0) d.out.aud c = 0 ∨ smGet (fun _ => 0) d.out.aud c = 1 := by omega
  rcases heard with a | b
  · rw [a] at sections taps
    simp only [chainBlock, on, if_true, kind, idx, and_self, unfaded, a, bankBlock_through sections taps]
  · rw [b] at sections taps
    simp only [chainBlock, on, if_true, kind, idx, and_self, unfaded, b, one_ne_zero, if_false, bankBlock_through sections taps]

/-- Stages 5 and 6, with delay and multiplier unchanged. -/
theorem timelyBlock_look (delay : (chainRun d c).delay = chainDelay d c) (v : (chainRun d c).v = chainV d c) :
    (timelyBlock d t level c feeds buses).next.look =
      gained d t c (lineWith (chainRun d c) t (timelyBlock d t level c feeds buses).line) := by
  rw [chainRun] at on delay v ⊢
  simp only [chainBlock, on, if_true, delay, v, lostAt, List.any_nil, Bool.and_false, Bool.false_eq_true, if_false, scaled_by_steady,
    List.map_map]
  rfl

/-- Stage 7: the limiter's gain, without lookahead. -/
theorem timelyBlock_g (ahead : ChainT.lookahead d c = false) : (timelyBlock d t level c feeds buses).g =
    limiterGain d level c (chainRun d c).g (timelyBlock d t level c feeds buses).next.look := by
  rw [chainRun] at on ⊢
  simp only [chainBlock, on, ahead, if_true, Bool.false_and, Bool.false_eq_true, if_false]
  rfl

/-- Stage 7: the samples, without lookahead. -/
theorem timelyBlock_y (ahead : ChainT.lookahead d c = false) : (timelyBlock d t level c feeds buses).y =
    ceiled d level c (glided d.blockB (chainRun d c).g (timelyBlock d t level c feeds buses).g (timelyBlock d t level c feeds buses).next.look) := by
  rw [chainRun] at on ⊢
  simp only [chainBlock, on, ahead, if_true, Bool.false_and, Bool.false_eq_true, if_false]
  rfl

end

/-! ## The gain that a peak asks, and crossfades (R211, R217) -/

theorem gReq_of_le {c p : Nat} (h : p ≤ c) : gReq c p = 2 ^ 24 := if_pos h

theorem gReq_of_lt {c p : Nat} (h : c < p) : gReq c p = c * 2 ^ 24 / p := if_neg (Nat.not_le.2 h)

theorem fadeAt_target (old new : Int) {k len : Nat} (h : len ≤ k) : fadeAt old new k len = new := if_pos h

theorem fadeAt_between (old new : Int) {k len : Nat} (h : k < len) : fadeAt old new k len = old + divEven ((new - old) * k) len :=
  if_neg (Nat.not_le.2 h)

/-- Settles O32: a swap and a PATCH_SET at their apply boundary, the end of a crossfade, and the stages of a chain's block. The code of a
chain that starts from rest and an empty PATCH_SET beyond the table are the model's choices (logs 107 and 131). -/
theorem swapsCrossfadesAndPatchEntries : Obligations.SwapsCrossfadesAndPatchEntries := by
  unfold Obligations.SwapsCrossfadesAndPatchEntries
  refine ⟨⟨fun s c applies => ?swap, fun s ch f one past => ?ended, fun d ch b => ⟨audible_setAud_self .., fun _ => audible_setAud_ne d b⟩⟩,
    fun s c applies => ?patch, fun d t level c feeds buses => ?block, fun old new k len => ⟨fadeAt_target old new, fadeAt_between old new⟩,
    fun c p => ⟨gReq_of_le, gReq_of_lt⟩⟩
  case swap =>
    intro d ch b
    have bank : b < 2 := Nat.mod_lt _ (by decide)
    refine ⟨fun absent => makes_outSwap applies (outSwap_absent _ absent),
      fun present unready => makes_outSwap applies (outSwap_unready _ present unready),
      fun present ready => ⟨withBank d ch b, makes_outSwap applies (outSwap_ready _ present ready), ?_⟩,
      fun unfaded => ⟨swapCode_audible unfaded, swapCode_other unfaded⟩⟩
    exact ⟨withBank_bank d ch (cp := Tab.live) (by simp) bank, withBank_bank d ch (cp := Tab.staged) (by simp) bank,
      fun _ _ => withBank_live_bits d ch, fun _ => withBank_live_ne d ch, fun _ => withBank_tab_ne d ch, withBank_frame ..⟩
  case ended => exact makes_of _ (exec_crossfadeEnd s) (by rw [endFades_of_one one past])
  case patch =>
    intro d first cnt
    refine ⟨fun asked far => makes_patchSet applies (patchSet_refused _ asked far),
      fun fits => ⟨withPatch c d, makes_patchSet applies (patchSet_writes _ fits), fun i hi => ?_, fun k other => ?_, fun _ => withPatch_tab_ne c d,
        withPatch_frame ..⟩⟩
    · exact ⟨withPatch_word c d (cp := Tab.live) (by simp) hi, withPatch_word c d (cp := Tab.staged) (by simp) hi⟩
    · exact ⟨withPatch_word_ne c d (cp := Tab.live) (by simp) other, withPatch_word_ne c d (cp := Tab.staged) (by simp) other⟩
  case block =>
    intro st b x line y6 cc g raw on kind idx delay v _ unfaded bank sections taps ahead
    have samples : (timelyBlock d t level c feeds buses).next.look = y6 := by
      rw [timelyBlock_look t level feeds buses on delay v, timelyBlock_line t level feeds buses on kind idx unfaded bank sections taps]
      rfl
    have gain : (timelyBlock d t level c feeds buses).g = g := by
      rw [timelyBlock_g t level feeds buses on ahead, samples]
      rfl
    refine ⟨?_, gain, gain⟩
    rw [timelyBlock_y t level feeds buses on ahead, samples, gain]
    rfl

end Sys2Proof.Proofs
end

section
/-! SUPPORT. The measures of an ASRC channel: what one leaves unchanged, and what each makes of a channel in ACQUIRE, LOCKED, LOST and
IDLE (07 R241 to R243, R248). -/
namespace Sys2Proof.Proofs
open Sys2Proof.Machine Sys2Proof.Laws

theorem exec_asrcSettled (a : Fin 256) (dev : Int) (s : State) :
    exec (.asrcSettled a dev) s = s.act (·.ownMeasure (·.asrcSettled a.val dev)) := rfl
theorem exec_asrcAcquireTimeout (a : Fin 256) (s : State) :
    exec (.asrcAcquireTimeout a) s = s.act (·.ownMeasure (·.asrcTimeout a.val)) := rfl
theorem exec_asrcRelock (a : Fin 256) (dev : Int) (s : State) :
    exec (.asrcRelock a dev) s = s.act (·.ownMeasure (·.asrcRelock a.val dev)) := rfl
theorem exec_asrcRatioOut (a : Fin 256) (dev : Int) (s : State) :
    exec (.asrcRatioOut a dev) s = s.act (·.ownMeasure (·.asrcRatio a.val dev)) := rfl

/-! ## A unit's own measures (R396) -/

section
variable {i : Instr} {s : State} {f : Dev → Dev}

/-- A standby ignores what it measures itself. -/
theorem makes_ownMeasure_standby (h : exec i s = s.act (·.ownMeasure f)) (standby : s.dev.isStandby = true) : Makes i s s.dev :=
  makes_of _ h (if_pos standby)

/-- Every other unit acts on it. -/
theorem makes_ownMeasure {e : Dev} (h : exec i s = s.act (·.ownMeasure f)) (active : s.dev.isStandby = false) (acts : f s.dev = e) :
    Makes i s e :=
  makes_of _ h ((if_neg (by simp [active])).trans acts)

end

theorem act_ownMeasure_congr {s : State} {f g : Dev → Dev} (same : f s.dev = g s.dev) : s.act (·.ownMeasure f) = s.act (·.ownMeasure g) := by
  simp [State.act, Dev.ownMeasure, same]

theorem clampI_between {lo hi : Int} (i : Int) (h : lo ≤ hi) : lo ≤ clampI lo hi i ∧ clampI lo hi i ≤ hi := by
  unfold clampI
  split
  · exact ⟨le_rfl, h⟩
  · split <;> omega

/-- A two's complement of `w` bits fits in `w` bits. -/
theorem tc_lt (w : Nat) (i : Int) : tc w i < 2 ^ w := by
  have pos : (0 : Int) < 2 ^ w := by positivity
  have lt := Int.emod_lt_of_pos i pos
  have nonneg := Int.emod_nonneg i pos.ne'
  rw [tc, Int.toNat_lt nonneg]
  exact_mod_cast lt

section
variable (d : Dev) (a : Nat)

/-! ## A channel's record after a write -/

@[simp] theorem asrc_setAsrc_self (x : AsrcS) : (d.setAsrc a x).asrc a = x := by simp [Dev.asrc, Dev.setAsrc]

theorem asrc_setAsrc_ne (x : AsrcS) {b : Nat} (h : b ≠ a) : (d.setAsrc a x).asrc b = d.asrc b := by
  simp [Dev.asrc, Dev.setAsrc, smGet_smSet_ne _ _ _ h]

@[simp] theorem asrc_setFld (f : Field) (v : Nat) : (d.setFld f v).asrc a = d.asrc a := by simp [Dev.asrc]

@[simp] theorem asrc_asrcShow (seen : Int) (b : Nat) : (d.asrcShow a seen).asrc b = d.asrc b := asrc_setFld ..

@[simp] theorem asrc_count (f : Field) : (d.count f).asrc a = d.asrc a := by simp [Dev.asrc]

theorem asrc_asrcLeave_locked {st : Nat} (locked : d.asrcState a = 2) :
    (d.asrcLeave a st).asrc a = { d.asrc a with dying := true, gain := d.asrcGain a, faded := 0 } := by
  simp [Dev.asrcLeave, locked]

/-! ## A channel's status register and the relock count after a write -/

theorem asrcState_fits : (R.SLP_ASRC_STAT_STATE a).lo + (R.SLP_ASRC_STAT_STATE a).w ≤ 32 := by simp [R.SLP_ASRC_STAT_STATE]

theorem asrcDev_fits : (R.SLP_ASRC_STAT_DEV a).lo + (R.SLP_ASRC_STAT_DEV a).w ≤ 32 := by simp [R.SLP_ASRC_STAT_DEV]

theorem asrcDev_below_state : (R.SLP_ASRC_STAT_DEV a).lo + (R.SLP_ASRC_STAT_DEV a).w ≤ (R.SLP_ASRC_STAT_STATE a).lo := by
  simp [R.SLP_ASRC_STAT_DEV, R.SLP_ASRC_STAT_STATE]

@[simp] theorem fld_setAsrc (x : AsrcS) (f : Field) : (d.setAsrc a x).fld f = d.fld f := fld_of_regs rfl rfl f

@[simp] theorem asrcState_setAsrc (x : AsrcS) (b : Nat) : (d.setAsrc a x).asrcState b = d.asrcState b := fld_setAsrc ..

@[simp] theorem asrcState_setFld_self (v : Nat) : (d.setFld (R.SLP_ASRC_STAT_STATE a) v).asrcState a = v % 4 :=
  fld_setFld_self d (R.SLP_ASRC_STAT_STATE a) v (asrcState_fits a)

@[simp] theorem asrcState_asrcShow (seen : Int) : (d.asrcShow a seen).asrcState a = d.asrcState a :=
  fld_setFld_ne d (R.SLP_ASRC_STAT_DEV a) (R.SLP_ASRC_STAT_STATE a) _ (asrcDev_fits a) (.inr (.inr (asrcDev_below_state a)))

@[simp] theorem asrcState_asrcLeave (st : Nat) : (d.asrcLeave a st).asrcState a = st % 4 := by simp [Dev.asrcLeave]

theorem asrcStat_ne_relockCount : (R.SLP_ASRC_STAT_STATE a).addr ≠ R.SLP_RELOCK_COUNT.addr := by
  simp only [R.SLP_ASRC_STAT_STATE, R.SLP_RELOCK_COUNT]
  omega

@[simp] theorem asrcState_count_relock : (d.count R.SLP_RELOCK_COUNT).asrcState a = d.asrcState a :=
  fld_addFld_ne d _ (R.SLP_ASRC_STAT_STATE a) 1 (by decide) (.inl (asrcStat_ne_relockCount a))

@[simp] theorem asrcDev_asrcShow (seen : Int) : (d.asrcShow a seen).fld (R.SLP_ASRC_STAT_DEV a) = tc 24 (satS 24 seen) :=
  (fld_setFld_self d (R.SLP_ASRC_STAT_DEV a) _ (asrcDev_fits a)).trans (Nat.mod_eq_of_lt (tc_lt 24 _))

@[simp] theorem asrcDev_setState (v : Nat) :
    (d.setFld (R.SLP_ASRC_STAT_STATE a) v).fld (R.SLP_ASRC_STAT_DEV a) = d.fld (R.SLP_ASRC_STAT_DEV a) :=
  fld_setFld_ne d (R.SLP_ASRC_STAT_STATE a) (R.SLP_ASRC_STAT_DEV a) v (asrcState_fits a) (.inr (.inl (asrcDev_below_state a)))

@[simp] theorem asrcDev_asrcLeave (st : Nat) : (d.asrcLeave a st).fld (R.SLP_ASRC_STAT_DEV a) = d.fld (R.SLP_ASRC_STAT_DEV a) := by
  simp only [Dev.asrcLeave, asrcDev_setState, apply_ite (Dev.fld · (R.SLP_ASRC_STAT_DEV a)), fld_setAsrc, ite_self]

@[simp] theorem asrcDev_count_relock : (d.count R.SLP_RELOCK_COUNT).fld (R.SLP_ASRC_STAT_DEV a) = d.fld (R.SLP_ASRC_STAT_DEV a) :=
  fld_addFld_ne d _ (R.SLP_ASRC_STAT_DEV a) 1 (by decide) (.inl (asrcStat_ne_relockCount a))

@[simp] theorem relockCount_asrcShow (seen : Int) : (d.asrcShow a seen).fld R.SLP_RELOCK_COUNT = d.fld R.SLP_RELOCK_COUNT :=
  fld_setFld_of_addr d _ (asrcStat_ne_relockCount a).symm

@[simp] theorem relockCount_asrcLeave (st : Nat) : (d.asrcLeave a st).fld R.SLP_RELOCK_COUNT = d.fld R.SLP_RELOCK_COUNT := by
  have unwritten (e : Dev) : (e.setFld (R.SLP_ASRC_STAT_STATE a) st).fld R.SLP_RELOCK_COUNT = e.fld R.SLP_RELOCK_COUNT :=
    fld_setFld_of_addr e st (asrcStat_ne_relockCount a).symm
  simp only [Dev.asrcLeave, unwritten, apply_ite (Dev.fld · R.SLP_RELOCK_COUNT), fld_setAsrc, ite_self]

end

/-! ## What a measure leaves unchanged -/

/-- `e` has the records of the other channels, every register but the status of channel `a` and the relock count, the tables, the device
state and the memories of `d`. -/
structure ChannelOnly (a : Nat) (d e : Dev) : Prop where
  channels : ∀ x, x ≠ a → e.asrc x = d.asrc x
  regs : ∀ r, r ≠ (R.SLP_ASRC_STAT_STATE a).addr → r ≠ R.SLP_RELOCK_COUNT.addr → e.reg r = d.reg r
  tabs : e.tabs = d.tabs
  top : e.top = d.top
  hostMem : e.hostMem = d.hostMem
  dram : e.dram = d.dram

/-- So it has, and its DEV of the channel shows the ratio `seen`. -/
def ShowsOnly (a : Nat) (seen : Int) (d e : Dev) : Prop :=
  (∀ x, x ≠ a → e.asrc x = d.asrc x) ∧ e.fld (R.SLP_ASRC_STAT_DEV a) = tc 24 (satS 24 seen) ∧
    (∀ r, r ≠ (R.SLP_ASRC_STAT_STATE a).addr → r ≠ R.SLP_RELOCK_COUNT.addr → e.reg r = d.reg r) ∧ e.tabs = d.tabs ∧ e.top = d.top ∧
    e.hostMem = d.hostMem ∧ e.dram = d.dram

namespace ChannelOnly
variable {a : Nat} {d e : Dev}

theorem shows {seen : Int} (h : ChannelOnly a d e) (dev : e.fld (R.SLP_ASRC_STAT_DEV a) = tc 24 (satS 24 seen)) : ShowsOnly a seen d e :=
  ⟨h.channels, dev, h.regs, h.tabs, h.top, h.hostMem, h.dram⟩

theorem refl (a : Nat) (d : Dev) : ChannelOnly a d d := ⟨fun _ _ => rfl, fun _ _ _ => rfl, rfl, rfl, rfl, rfl⟩

theorem setAsrc (h : ChannelOnly a d e) (x : AsrcS) : ChannelOnly a d (e.setAsrc a x) :=
  { h with channels := fun b other => (asrc_setAsrc_ne e a x other).trans (h.channels b other) }

theorem setFld (h : ChannelOnly a d e) {f : Field} (v : Nat) (own : f.addr = (R.SLP_ASRC_STAT_STATE a).addr ∨ f.addr = R.SLP_RELOCK_COUNT.addr) :
    ChannelOnly a d (e.setFld f v) where
  channels := h.channels
  regs := fun r status relock => (reg_setFld_ne e f v (by rcases own with own | own <;> rwa [own])).trans (h.regs r status relock)
  tabs := h.tabs
  top := h.top
  hostMem := h.hostMem
  dram := h.dram

theorem asrcShow (h : ChannelOnly a d e) (seen : Int) : ChannelOnly a d (e.asrcShow a seen) := h.setFld _ (.inl rfl)

theorem setState (h : ChannelOnly a d e) (st : Nat) : ChannelOnly a d (e.setFld (R.SLP_ASRC_STAT_STATE a) st) := h.setFld st (.inl rfl)

theorem asrcLeave (h : ChannelOnly a d e) (st : Nat) : ChannelOnly a d (e.asrcLeave a st) := by
  unfold Dev.asrcLeave
  split
  · exact (h.setAsrc _).setState st
  · exact h.setState st

theorem count (h : ChannelOnly a d e) : ChannelOnly a d (e.count R.SLP_RELOCK_COUNT) := h.setFld _ (.inr rfl)

end ChannelOnly

/-! ## What the measures make of a channel (R241, R242) -/

section
variable (d : Dev) (a : Nat) (seen : Int)

/-- Channel `a` has settled at the ratio `seen`: it leaves ACQUIRE for LOCKED (R241). -/
def asrcLocked : Dev :=
  ((d.setAsrc a { d.asrc a with est := seen, faded := 0, unsettled := false, n := 0 }).setFld (R.SLP_ASRC_STAT_STATE a) 2).asrcShow a seen

/-- A LOCKED channel has departed by more than 0.1 %: it is in ACQUIRE and fades out; ASRC_RELOCK is still to be raised (R242). -/
def asrcRelocking : Dev := ((d.asrcLeave a 1).asrcShow a seen).count R.SLP_RELOCK_COUNT

/-- The estimate of a LOCKED channel that tracks the ratio `seen` (R242, log 111). -/
def asrcTrackedEst : Int :=
  clampI (min (d.asrc a).est seen) (max (d.asrc a).est seen) (Config.asrcTrack d.asrcBw (d.asrc a).est seen)

/-- A LOCKED channel stays within 0.1 % and tracks the ratio. -/
def asrcTracked : Dev := (d.setAsrc a { d.asrc a with est := asrcTrackedEst d a seen }).asrcShow a seen

/-- A channel in standby measures without output (R243). -/
def asrcWatched : Dev := (d.setAsrc a { d.asrc a with est := seen }).asrcShow a seen

/-- A ratio beyond 2 % has lost a channel in ACQUIRE or LOCKED; ASRC_LOST is still to be raised (R241). -/
def asrcLostByRatio : Dev :=
  ((d.asrcShow a seen).asrcLeave a 3).setAsrc a { ((d.asrcShow a seen).asrcLeave a 3).asrc a with ratioOut := true }

/-- The ratio of a channel that is not IDLE is within 2 %. -/
def asrcWithinRatio : Dev := (d.asrcShow a seen).setAsrc a { d.asrc a with ratioOut := false }

/-- A LOST channel whose ratio is within 2 % and whose clock is not lost returns to ACQUIRE. -/
def asrcReacquiring : Dev :=
  ((asrcWithinRatio d a seen).setAsrc a { d.asrc a with ratioOut := false, unsettled := false }).setFld (R.SLP_ASRC_STAT_STATE a) 1

/-- The clock of the target of channel `a` is lost. -/
def asrcTargetLost : Bool := ((asrcEntries d).find? (fun x => x.1 == a)).any (fun x => clockLost d x.2)

theorem showsOnly_asrcLocked : ShowsOnly a seen d (asrcLocked d a seen) :=
  ((((ChannelOnly.refl a d).setAsrc _).setState 2).asrcShow seen).shows (asrcDev_asrcShow ..)

theorem showsOnly_asrcRelocking : ShowsOnly a seen d (asrcRelocking d a seen) :=
  (((ChannelOnly.refl a d).asrcLeave 1).asrcShow seen).count.shows (by simp)

theorem showsOnly_asrcTracked : ShowsOnly a seen d (asrcTracked d a seen) :=
  (((ChannelOnly.refl a d).setAsrc _).asrcShow seen).shows (asrcDev_asrcShow ..)

theorem showsOnly_asrcWatched : ShowsOnly a seen d (asrcWatched d a seen) :=
  (((ChannelOnly.refl a d).setAsrc _).asrcShow seen).shows (asrcDev_asrcShow ..)

theorem showsOnly_asrcLostByRatio : ShowsOnly a seen d (asrcLostByRatio d a seen) :=
  ((((ChannelOnly.refl a d).asrcShow seen).asrcLeave 3).setAsrc _).shows (by simp)

theorem showsOnly_asrcReacquiring : ShowsOnly a seen d (asrcReacquiring d a seen) :=
  (((((ChannelOnly.refl a d).asrcShow seen).setAsrc _).setAsrc _).setState 1).shows (by simp)

theorem asrcLocked_state : (asrcLocked d a seen).asrcState a = 2 := by simp [asrcLocked]

theorem asrcLocked_asrc : (asrcLocked d a seen).asrc a = { d.asrc a with est := seen, faded := 0, unsettled := false, n := 0 } := by
  simp [asrcLocked]

theorem asrcLocked_hdr : (asrcLocked d a seen).hdr = d.hdr := (setFld_hdr ..).trans (setFld_hdr ..)

theorem asrcRelocking_state : (asrcRelocking d a seen).asrcState a = 1 := by simp [asrcRelocking]

theorem asrcRelocking_asrc (on : d.asrcState a = 2) :
    (asrcRelocking d a seen).asrc a = { d.asrc a with dying := true, gain := d.asrcGain a, faded := 0 } := by
  simp [asrcRelocking, asrc_asrcLeave_locked d a on]

theorem asrcRelocking_count :
    (asrcRelocking d a seen).fld R.SLP_RELOCK_COUNT = min (d.fld R.SLP_RELOCK_COUNT + 1) (2 ^ R.SLP_RELOCK_COUNT.w - 1) := by
  rw [asrcRelocking, Dev.count, fld_addFld_self _ _ _ (by decide), relockCount_asrcShow, relockCount_asrcLeave]

theorem asrcTracked_state : (asrcTracked d a seen).asrcState a = d.asrcState a := by simp [asrcTracked]

theorem asrcTracked_asrc : (asrcTracked d a seen).asrc a = { d.asrc a with est := asrcTrackedEst d a seen } := by simp [asrcTracked]

theorem asrcTrackedEst_between : min (d.asrc a).est seen ≤ asrcTrackedEst d a seen ∧ asrcTrackedEst d a seen ≤ max (d.asrc a).est seen :=
  clampI_between _ min_le_max

theorem asrcTracked_relockCount : (asrcTracked d a seen).fld R.SLP_RELOCK_COUNT = d.fld R.SLP_RELOCK_COUNT := by simp [asrcTracked]

theorem asrcTracked_hdr : (asrcTracked d a seen).hdr = d.hdr := setFld_hdr ..

theorem asrcWatched_state : (asrcWatched d a seen).asrcState a = d.asrcState a := by simp [asrcWatched]

theorem asrcWatched_est : ((asrcWatched d a seen).asrc a).est = seen := by simp [asrcWatched]

theorem asrcLostByRatio_state : (asrcLostByRatio d a seen).asrcState a = 3 := by simp [asrcLostByRatio]

theorem asrcLostByRatio_ratioOut : ((asrcLostByRatio d a seen).asrc a).ratioOut = true := by simp [asrcLostByRatio]

theorem asrcLostByRatio_dying (on : d.asrcState a = 2) : ((asrcLostByRatio d a seen).asrc a).dying = true := by
  simp [asrcLostByRatio, asrc_asrcLeave_locked (d.asrcShow a seen) a (by simp [on])]

theorem asrcReacquiring_state : (asrcReacquiring d a seen).asrcState a = 1 := by simp [asrcReacquiring]

theorem asrcReacquiring_asrc : (asrcReacquiring d a seen).asrc a = { d.asrc a with ratioOut := false, unsettled := false } := by
  simp [asrcReacquiring]

end

/-! ## Which of these a measure gives -/

section
variable {d : Dev} {a : Nat} {dev : Int}

/-- Beyond 2 % every measure is one of the ratio. -/
theorem asrcSettled_of_far (far : 2000000 < (d.asrcSeen a dev).natAbs) : d.asrcSettled a dev = d.asrcRatio a dev := if_pos far

theorem asrcRelock_of_far (far : 2000000 < (d.asrcSeen a dev).natAbs) : d.asrcRelock a dev = d.asrcRatio a dev := if_pos far

theorem asrcSettled_of_acquire (st : d.asrcState a = 1) (near : (d.asrcSeen a dev).natAbs ≤ 2000000) :
    d.asrcSettled a dev = asrcLocked d a (d.asrcSeen a dev) := by
  simp only [Dev.asrcSettled, near.not_gt, st, if_true, if_false, asrcLocked]

theorem asrcTimeout_of_acquire (st : d.asrcState a = 1) :
    d.asrcTimeout a = (d.setAsrc a { d.asrc a with unsettled := true }).raise F.asrcLost := if_pos st

theorem asrcRelock_of_departed (st : d.asrcState a = 2) (near : (d.asrcSeen a dev).natAbs ≤ 2000000)
    (departed : 100000 < (d.asrcSeen a dev - (d.asrc a).est).natAbs) :
    d.asrcRelock a dev = (asrcRelocking d a (d.asrcSeen a dev)).raise F.asrcRelock := by
  simp only [Dev.asrcRelock, near.not_gt, st, departed, if_true, if_false, asrcRelocking]

theorem asrcRelock_of_close (st : d.asrcState a = 2) (near : (d.asrcSeen a dev).natAbs ≤ 2000000)
    (close : (d.asrcSeen a dev - (d.asrc a).est).natAbs ≤ 100000) : d.asrcRelock a dev = asrcTracked d a (d.asrcSeen a dev) := by
  simp only [Dev.asrcRelock, near.not_gt, st, close.not_gt, if_true, if_false, asrcTracked, asrcTrackedEst]

theorem asrcRatio_of_idle (st : d.asrcState a = 0) : d.asrcRatio a dev = d.asrcWatch a (d.asrcSeen a dev) := if_pos st

theorem asrcSettled_of_idle (st : d.asrcState a = 0) : d.asrcSettled a dev = d.asrcWatch a (d.asrcSeen a dev) := by
  rcases Nat.lt_or_ge 2000000 (d.asrcSeen a dev).natAbs with far | near
  · rw [asrcSettled_of_far far, asrcRatio_of_idle st]
  · simp [Dev.asrcSettled, near.not_gt, st]

theorem asrcRelock_of_idle (st : d.asrcState a = 0) : d.asrcRelock a dev = d.asrcWatch a (d.asrcSeen a dev) := by
  rcases Nat.lt_or_ge 2000000 (d.asrcSeen a dev).natAbs with far | near
  · rw [asrcRelock_of_far far, asrcRatio_of_idle st]
  · simp [Dev.asrcRelock, near.not_gt, st]

theorem asrcWatch_of_unwatched (h : d.flag (R.SLP_ASRC_STAT_STANDBY a) = false) (seen : Int) : d.asrcWatch a seen = d := by
  simp [Dev.asrcWatch, h]

theorem asrcWatch_of_standby (h : d.flag (R.SLP_ASRC_STAT_STANDBY a) = true) (seen : Int) : d.asrcWatch a seen = asrcWatched d a seen := if_pos h

theorem asrcRatio_of_far (st : d.asrcState a = 1 ∨ d.asrcState a = 2) (far : 2000000 < (d.asrcSeen a dev).natAbs) :
    d.asrcRatio a dev = (asrcLostByRatio d a (d.asrcSeen a dev)).raise F.asrcLost := by
  have notIdle : d.asrcState a ≠ 0 := by omega
  have notLost : d.asrcState a ≠ 3 := by omega
  simp only [Dev.asrcRatio, notIdle, notLost, far, if_true, if_false, asrcLostByRatio]

theorem asrcRatio_of_near (st : d.asrcState a ≠ 0) (near : (d.asrcSeen a dev).natAbs ≤ 2000000) :
    d.asrcRatio a dev = if d.asrcState a = 3 ∧ asrcTargetLost (asrcWithinRatio d a (d.asrcSeen a dev)) a = false
      then asrcReacquiring d a (d.asrcSeen a dev) else asrcWithinRatio d a (d.asrcSeen a dev) := by
  simp only [Dev.asrcRatio, st, near.not_gt, if_false, asrc_asrcShow]
  refine if_congr (and_congr_right fun _ => Eq.congr_left ?_) rfl rfl
  simp only [asrcTargetLost, asrcWithinRatio]
  cases (asrcEntries _).find? _ <;> rfl

theorem asrcRatio_reacquires (st : d.asrcState a = 3) (near : (d.asrcSeen a dev).natAbs ≤ 2000000)
    (clock : asrcTargetLost (asrcWithinRatio d a (d.asrcSeen a dev)) a = false) : d.asrcRatio a dev = asrcReacquiring d a (d.asrcSeen a dev) := by
  rw [asrcRatio_of_near (by omega) near, if_pos ⟨st, clock⟩]

theorem asrcRatio_stays (st : d.asrcState a ≠ 0) (near : (d.asrcSeen a dev).natAbs ≤ 2000000)
    (stays : d.asrcState a ≠ 3 ∨ asrcTargetLost (asrcWithinRatio d a (d.asrcSeen a dev)) a = true) :
    d.asrcRatio a dev = asrcWithinRatio d a (d.asrcSeen a dev) := by
  rw [asrcRatio_of_near st near, if_neg]
  rintro ⟨lost, clock⟩
  rcases stays with other | gone
  · exact other lost
  · simp [clock] at gone

end

/-- Settles O40: each measure by the state of the channel that it meets. The estimate that stays between the old one and the measured one,
and the 0.1 % of the nominal ratio, are the model's choices (logs 111 and 132). -/
theorem asrcStatesFollowR241AndR242 : Obligations.AsrcStatesFollowR241AndR242 := by
  unfold Obligations.AsrcStatesFollowR241AndR242
  intro s a dev d seen only
  have settled := exec_asrcSettled a dev s
  have timeout := exec_asrcAcquireTimeout a s
  have relock := exec_asrcRelock a dev s
  have ratio := exec_asrcRatioOut a dev s
  refine ⟨fun standby => ⟨makes_ownMeasure_standby settled standby, makes_ownMeasure_standby timeout standby,
    makes_ownMeasure_standby relock standby, makes_ownMeasure_standby ratio standby⟩, fun active => ⟨fun far => ?beyond, fun st near => ?locks,
    fun st => makes_ownMeasure timeout active (asrcTimeout_of_acquire st), fun st near departed => ?relocks, fun st near close => ?tracks,
    fun st unwatched => ?idle, fun st watching => ?watches, fun st far => ?lost, fun st near => ?within⟩⟩
  case beyond =>
    rw [settled, relock, ratio]
    exact ⟨act_ownMeasure_congr (asrcSettled_of_far far), act_ownMeasure_congr (asrcRelock_of_far far)⟩
  case locks =>
    refine ⟨asrcLocked d a seen, makes_ownMeasure settled active (asrcSettled_of_acquire st near), showsOnly_asrcLocked ..,
      asrcLocked_state .., ?_⟩
    rw [asrcLocked_asrc]
    exact ⟨rfl, rfl, rfl, asrcLocked_hdr ..⟩
  case relocks =>
    refine ⟨asrcRelocking d a seen, makes_ownMeasure relock active (asrcRelock_of_departed st near departed), showsOnly_asrcRelocking ..,
      asrcRelocking_state .., ?_⟩
    rw [asrcRelocking_asrc d a seen st]
    exact ⟨rfl, rfl, rfl, asrcRelocking_count ..⟩
  case tracks =>
    obtain ⟨low, high⟩ := asrcTrackedEst_between d a seen
    refine ⟨asrcTracked d a seen, makes_ownMeasure relock active (asrcRelock_of_close st near close), showsOnly_asrcTracked ..,
      (asrcTracked_state ..).trans st, ?_⟩
    rw [asrcTracked_asrc]
    exact ⟨low, high, rfl, asrcTracked_relockCount .., asrcTracked_hdr ..⟩
  case idle =>
    have still := asrcWatch_of_unwatched unwatched (d.asrcSeen a dev)
    exact ⟨makes_ownMeasure settled active ((asrcSettled_of_idle st).trans still),
      makes_ownMeasure relock active ((asrcRelock_of_idle st).trans still), makes_ownMeasure ratio active ((asrcRatio_of_idle st).trans still)⟩
  case watches =>
    have watch := asrcWatch_of_standby watching (d.asrcSeen a dev)
    exact ⟨asrcWatched d a seen, showsOnly_asrcWatched .., (asrcWatched_state ..).trans st, asrcWatched_est ..,
      makes_ownMeasure settled active ((asrcSettled_of_idle st).trans watch),
      makes_ownMeasure relock active ((asrcRelock_of_idle st).trans watch), makes_ownMeasure ratio active ((asrcRatio_of_idle st).trans watch)⟩
  case lost =>
    exact ⟨asrcLostByRatio d a seen, makes_ownMeasure ratio active (asrcRatio_of_far st far), showsOnly_asrcLostByRatio ..,
      asrcLostByRatio_state .., asrcLostByRatio_ratioOut .., asrcLostByRatio_dying d a seen⟩
  case within =>
    intro e lost
    refine ⟨fun out clock => ⟨asrcReacquiring d a seen, makes_ownMeasure ratio active (asrcRatio_reacquires out near clock),
      showsOnly_asrcReacquiring .., asrcReacquiring_state .., ?_⟩, fun stays => makes_ownMeasure ratio active (asrcRatio_stays st near stays)⟩
    rw [asrcReacquiring_asrc]
    exact ⟨rfl, rfl⟩

end Sys2Proof.Proofs
end

section
/-! SUPPORT. The running state of the serial ports and their groups: what is read of it after a write, what a
write to it leaves alone, and the incidents that are counted and reported. -/
namespace Sys2Proof.Proofs
open Sys2Proof.Machine Sys2Proof.Laws

section
variable (d : Dev) (p g : Nat) (x : PortS) (y : Grp)

/-! ## Writes of a port -/

@[simp] theorem port_setPort_self : (d.setPort p x).port p = x := smGet_smSet_self ..

theorem port_setPort_ne {q : Nat} (h : q ≠ p) : (d.setPort p x).port q = d.port q := smGet_smSet_ne _ _ _ h

@[simp] theorem grp_setPort : (d.setPort p x).grp g = d.grp g := (rfl)
@[simp] theorem fld_setPort (f : Field) : (d.setPort p x).fld f = d.fld f := (rfl)
@[simp] theorem dram_setPort : (d.setPort p x).dram = d.dram := (rfl)

/-! ## Writes of a group -/

@[simp] theorem grp_setGrp_self : (d.setGrp g y).grp g = y := smGet_smSet_self ..

theorem grp_setGrp_ne {h : Nat} (n : h ≠ g) : (d.setGrp g y).grp h = d.grp h := smGet_smSet_ne _ _ _ n

@[simp] theorem tabs_setGrp : (d.setGrp g y).tabs = d.tabs := (rfl)
@[simp] theorem hostMem_setGrp : (d.setGrp g y).hostMem = d.hostMem := (rfl)
@[simp] theorem port_setGrp : (d.setGrp g y).port p = d.port p := (rfl)
@[simp] theorem fld_setGrp (f : Field) : (d.setGrp g y).fld f = d.fld f := (rfl)
@[simp] theorem flag_setGrp (f : Field) : (d.setGrp g y).flag f = d.flag f := (rfl)

/-! ## Other writes -/

theorem port_of_sap {d e : Dev} (h : e.sap = d.sap) (p : Nat) : e.port p = d.port p := by rw [Dev.port, h, Dev.port]

theorem grp_of_sap {d e : Dev} (h : e.sap = d.sap) (g : Nat) : e.grp g = d.grp g := by rw [Dev.grp, h, Dev.grp]

variable (f : Field) (v : Nat) (l : List (Field × Nat)) (b : Flag) (t : TickEv)

@[simp] theorem port_setFld : (d.setFld f v).port p = d.port p := (rfl)
@[simp] theorem port_setFlds : (d.setFlds l).port p = d.port p := port_of_sap (setFlds_sap ..) p
@[simp] theorem port_count : (d.count f).port p = d.port p := port_of_sap (count_sap ..) p
@[simp] theorem port_raise : (d.raise b).port p = d.port p := port_of_sap (raise_sap ..) p
@[simp] theorem grp_setFld : (d.setFld f v).grp g = d.grp g := (rfl)
@[simp] theorem reg_raise (a : Nat) : (d.raise b).reg a = d.reg a := reg_of_regs (raise_regs ..) (raise_grade ..) a
@[simp] theorem reg_note (a : Nat) : (d.note t).reg a = d.reg a := reg_of_regs (note_regs ..) (note_grade ..) a

/-! ## Registers apart -/

theorem reg_count_ne {a : Nat} (h : a ≠ f.addr) : (d.count f).reg a = d.reg a := reg_setFld_ne d f _ h

theorem fld_count_of_addr {g : Field} (h : g.addr ≠ f.addr) : (d.count f).fld g = d.fld g := fld_setFld_of_addr d _ h

theorem reg_setFlds_ne {a : Nat} (h : ∀ w ∈ l, a ≠ w.1.addr) : (d.setFlds l).reg a = d.reg a := by
  induction l generalizing d with
  | nil => rfl
  | cons w l ih =>
    rw [List.forall_mem_cons] at h
    exact (ih _ h.2).trans (reg_setFld_ne d w.1 w.2 h.1)

theorem fld_setFlds_of_addr {g : Field} (h : ∀ w ∈ l, g.addr ≠ w.1.addr) : (d.setFlds l).fld g = d.fld g := by
  rw [Dev.fld, reg_setFlds_ne d l h, Dev.fld]

/-- A register of one field that the list names once reads as the list has it. -/
theorem fld_setFlds_of_mem (once : (l.map (·.1.addr)).Nodup) {w : Field × Nat} (hw : w ∈ l) (fits : w.1.lo + w.1.w ≤ 32) :
    (d.setFlds l).fld w.1 = w.2 % 2 ^ w.1.w := by
  induction l generalizing d with
  | nil => simp at hw
  | cons u l ih =>
    obtain ⟨fresh, once⟩ := List.nodup_cons.1 once
    rcases List.mem_cons.1 hw with rfl | hw
    · have other : ∀ u ∈ l, w.1.addr ≠ u.1.addr := fun u hu e => fresh (List.mem_map.2 ⟨u, hu, e.symm⟩)
      exact (fld_setFlds_of_addr _ l other).trans (fld_setFld_self d w.1 w.2 fits)
    · exact ih _ once hw

end

/-! ## What is counted, raised and noted -/

/-- An incident: its counter counts one, its event is raised, and the next boundary's reports see it. -/
def recorded (d : Dev) (f : Field) (b : Flag) (t : TickEv) : Dev := ((d.count f).raise b).note t

section
variable (d : Dev) (f : Field) (b : Flag) (t : TickEv)

@[simp] theorem recorded_sap : (recorded d f b t).sap = d.sap := by simp [recorded]
@[simp] theorem recorded_top : (recorded d f b t).top = d.top := by simp [recorded]
@[simp] theorem recorded_tabs : (recorded d f b t).tabs = d.tabs := by simp [recorded]
@[simp] theorem recorded_dram : (recorded d f b t).dram = d.dram := by simp [recorded]
@[simp] theorem recorded_hostMem : (recorded d f b t).hostMem = d.hostMem := by simp [recorded]
@[simp] theorem port_recorded (p : Nat) : (recorded d f b t).port p = d.port p := port_of_sap (recorded_sap ..) p

theorem recorded_count (fits : f.lo + f.w ≤ 32) : (recorded d f b t).fld f = min (d.fld f + 1) (2 ^ f.w - 1) := by
  rw [recorded, fld_note, fld_raise]
  exact fld_addFld_self d f 1 fits

theorem reg_recorded_ne {a : Nat} (h : a ≠ f.addr) : (recorded d f b t).reg a = d.reg a := by
  rw [recorded, reg_note, reg_raise, reg_count_ne d f h]

theorem fld_recorded_ne {g : Field} (h : g.addr ≠ f.addr) : (recorded d f b t).fld g = d.fld g := by
  rw [Dev.fld, reg_recorded_ne d f b t h, Dev.fld]

end

end Sys2Proof.Proofs
end

section
/-! SUPPORT. The envelope of a port's direction: its bounds, its steps and what it makes of a sample (08 R262, R275). -/
namespace Sys2Proof.Proofs
open Sys2Proof.Machine Sys2Proof.Laws

section
variable (e : Env) (fade : Nat)

/-! ## One frame -/

/-- A frame of a falling envelope lowers its value by one, down to 0. -/
theorem step_of_fall (may : Bool) (h : e.fall = true) : (e.step fade may).g = e.g - 1 ∧ (e.step fade may).f = e.f := by
  rw [Env.step, if_pos h]
  split
  case isTrue last => exact ⟨(Nat.sub_eq_zero_of_le last).symm, rfl⟩
  case isFalse => exact ⟨rfl, rfl⟩

/-- A frame of any other envelope raises its value by one, and from 0 takes the FADE in force, or leaves it. -/
theorem step_of_rise (may : Bool) (h : e.fall = false) :
    ((e.g < e.f ∨ e.g = 0) ∧ (e.step fade may).g = e.g + 1 ∧ (e.step fade may).f = (if e.g = 0 then fade else e.f)) ∨ e.step fade may = e := by
  rw [Env.step, if_neg (by simp [h])]
  split
  case isFalse => exact .inr rfl
  case isTrue rises =>
    refine .inl ⟨by simp_all, ?_⟩
    extract_lets begun raised
    have g : raised.g = e.g + 1 := by simp only [raised, begun]; split <;> rfl
    have f : raised.f = if e.g = 0 then fade else e.f := by simp only [raised, begun]; split <;> rfl
    split <;> exact ⟨g, f⟩

theorem step_le (may : Bool) (pos : 1 ≤ fade) (h : e.g ≤ e.f) : (e.step fade may).g ≤ (e.step fade may).f := by
  cases fall : e.fall
  case true =>
    obtain ⟨g, f⟩ := step_of_fall e fade may fall
    omega
  case false =>
    rcases step_of_rise e fade may fall with ⟨below, g, f⟩ | same
    · split at f <;> omega
    · rwa [same]

/-! ## The start of a fall -/

/-- A fall begun at full has the FADE in force as its length, and any other keeps value and length. -/
theorem startFall_cases (fault : Bool) :
    (e.g ≠ 0 ∧ e.fall = false ∧ e.g = e.f ∧ (e.startFall fade fault).g = fade ∧ (e.startFall fade fault).f = fade ∧
      (e.startFall fade fault).fall = true) ∨
    ((e.g = 0 ∨ e.fall = true ∨ e.g ≠ e.f) ∧ (e.startFall fade fault).g = e.g ∧ (e.startFall fade fault).f = e.f) := by
  unfold Env.startFall
  dsimp only
  split
  case isTrue rests => exact .inr ⟨rests.imp_right .inl, rfl, rfl⟩
  case isFalse sounds =>
    rw [not_or] at sounds
    split
    case isTrue full => exact .inl ⟨sounds.1, by simpa using sounds.2, full, rfl, rfl, rfl⟩
    case isFalse within => exact .inr ⟨.inr (.inr within), rfl, rfl⟩

theorem startFall_le (fault : Bool) (h : e.g ≤ e.f) : (e.startFall fade fault).g ≤ (e.startFall fade fault).f := by
  rcases startFall_cases e fade fault with ⟨-, -, -, g, f, -⟩ | ⟨-, g, f⟩ <;> omega

/-! ## A sample under the envelope -/

/-- Rounding to the nearest keeps between integer bounds. -/
theorem divEven_between {a lo hi : Int} {b : Nat} (pos : 0 < b) (low : lo * b ≤ a) (high : a ≤ hi * b) :
    lo ≤ divEven a b ∧ divEven a b ≤ hi := by
  have posI : (0 : Int) < b := by omega
  have quot := Int.mul_ediv_add_emod a b
  have least : lo ≤ a / b := (Int.le_ediv_iff_mul_le posI).2 low
  have most : a / b ≤ hi := Int.ediv_le_of_le_mul posI high
  have up (r : 0 < a % (b : Int)) : a / b + 1 ≤ hi := by
    have : (a / b) * b < hi * b := by rw [mul_comm]; omega
    exact Int.add_one_le_of_lt (lt_of_mul_lt_mul_right this posI.le)
  unfold divEven
  dsimp only
  split
  · exact ⟨least, most⟩
  · have := up (by omega)
    split
    · omega
    · split <;> omega

theorem apply_of_silent (x : Int) (h : e.g = 0) : e.apply x = 0 := by
  unfold Env.apply
  split
  · rfl
  · simp [h, divEven]

theorem apply_of_full (x : Int) (full : e.g = e.f) (pos : e.f ≠ 0) : e.apply x = x := by
  rw [Env.apply, if_neg pos, full]
  exact divEven_mul_self x (Nat.pos_of_ne_zero pos)

theorem apply_natAbs_le (x : Int) (h : e.g ≤ e.f) : (e.apply x).natAbs ≤ x.natAbs := by
  unfold Env.apply
  split
  case isTrue => exact Nat.zero_le _
  case isFalse pos =>
    have scaled : |x * (e.g : Int)| ≤ x.natAbs * (e.f : Int) := by
      rw [abs_mul, Nat.abs_cast, Int.abs_eq_natAbs]
      exact mul_le_mul_of_nonneg_left (Int.ofNat_le.2 h) (Int.natCast_nonneg _)
    obtain ⟨low, high⟩ := abs_le.1 scaled
    have := divEven_between (Nat.pos_of_ne_zero pos) ((Int.neg_mul ..).trans_le low) high
    omega

end

/-! ## Repeat mode (R275) -/

theorem exec_repeatModeEntry (p : Fin 32) (s : State) : exec (.repeatModeEntry p) s = s.act (·.repeatEntry p.val) := rfl

theorem repeatEntry_of_owned {d : Dev} {p : Nat} (tripped : d.tth.tripped = true) (on : d.effEn tthBase = true)
    (used : d.dirOn p true = true) (owned : d.tth.own.contains p = true) (first : (d.port p).rep = false) :
    d.repeatEntry p = (d.setPort p { d.port p with rep := true }).raise (F.portRepeat p) :=
  if_pos (by simp only [tripped, on, used, owned, first]; rfl)

/-- Settles O36, from what one frame and the start of a fall make of an envelope, and from the bounds of rounding. -/
theorem envelopesStayWithinTheirFade : Obligations.EnvelopesStayWithinTheirFade := by
  unfold Obligations.EnvelopesStayWithinTheirFade
  refine ⟨fun e fade may fault pos within => ⟨step_le e fade may pos within, startFall_le e fade fault within,
    fun falls => ?falls, fun rises => ?rises, fun x => ⟨apply_of_silent e x, apply_of_full e x, apply_natAbs_le e x within⟩,
    fun full sounds rests => ?begins⟩, fun s p tripped on used owned first => ?repeats⟩
  case falls =>
    obtain ⟨g, -⟩ := step_of_fall e fade may falls
    omega
  case rises =>
    rcases step_of_rise e fade may rises with ⟨-, g, -⟩ | same
    · omega
    · rw [same]; omega
  case begins =>
    rcases startFall_cases e fade fault with ⟨-, -, -, -, f, falls⟩ | ⟨not, -, -⟩
    · exact ⟨f, falls⟩
    · simp_all
  case repeats => exact makes_of _ (exec_repeatModeEntry p s) (repeatEntry_of_owned tripped on used owned first)

end Sys2Proof.Proofs
end

section
/-! SUPPORT. What an access to DRAM leaves alone (16 R479, R481, R492): beside DRAM itself it writes registers of the fabric and of the
DRAM controller, events and the place in the free values. -/
namespace Sys2Proof.Proofs
open Sys2Proof.Machine Sys2Proof.Laws

/-- The pages of FAB and DMC. -/
def accessReg (a : Nat) : Prop := 0x20000 ≤ a ∧ a < 0x40000

/-- What an access to DRAM leaves alone, with every register outside these pages. -/
def accessView (d : Dev) : Sap × Top × SMap Tab × List Host.Cell × (Nat → Word) :=
  (d.sap, d.top, d.tabs, d.hostMem, fun a => if a < 0x20000 ∨ 0x40000 ≤ a then d.reg a else 0)

section
variable {d e : Dev} (same : accessView e = accessView d)
include same

theorem sap_of_accessView : e.sap = d.sap := congrArg (·.1) same
theorem top_of_accessView : e.top = d.top := congrArg (·.2.1) same
theorem tabs_of_accessView : e.tabs = d.tabs := congrArg (·.2.2.1) same
theorem hostMem_of_accessView : e.hostMem = d.hostMem := congrArg (·.2.2.2.1) same
theorem port_of_accessView (p : Nat) : e.port p = d.port p := port_of_sap (sap_of_accessView same) p

theorem reg_of_accessView {a : Nat} (out : a < 0x20000 ∨ 0x40000 ≤ a) : e.reg a = d.reg a := by
  have := congrFun (congrArg (·.2.2.2.2) same) a
  simpa only [accessView, if_pos out] using this

theorem fld_of_accessView {f : Field} (out : f.addr < 0x20000 ∨ 0x40000 ≤ f.addr) : e.fld f = d.fld f := by
  rw [Dev.fld, reg_of_accessView same out, Dev.fld]

end

section
variable (d : Dev)

theorem accessView_setFlds {l : List (Field × Nat)} (inside : ∀ w ∈ l, accessReg w.1.addr) : accessView (d.setFlds l) = accessView d := by
  have (a : Nat) (out : a < 0x20000 ∨ 0x40000 ≤ a) : (d.setFlds l).reg a = d.reg a :=
    reg_setFlds_ne d l fun w hw e => by
      obtain ⟨low, high⟩ := inside w hw
      omega
  simp +contextual [accessView, this]

theorem accessView_setFld {f : Field} (v : Nat) (inside : accessReg f.addr) : accessView (d.setFld f v) = accessView d :=
  accessView_setFlds d (l := [(f, v)]) (by simpa using inside)

theorem accessView_count {f : Field} (inside : accessReg f.addr) : accessView (d.count f) = accessView d := accessView_setFld d _ inside

@[simp] theorem accessView_raise (f : Flag) : accessView (d.raise f) = accessView d := by simp [accessView]
@[simp] theorem accessView_note (t : TickEv) : accessView (d.note t) = accessView d := by simp [accessView]
@[simp] theorem accessView_drew (n : Nat) : accessView (d.drew n) = accessView d := (rfl)

@[simp] theorem accessView_fabLog (e : FabErr) (write : Bool) (master id addr : Nat) :
    accessView (d.fabLog e write master id addr) = accessView d := by
  have counted : accessView (((d.count R.FAB_ERR_CNT_COUNT).raise e.flag).note .fabErr) = accessView d := by
    rw [accessView_note, accessView_raise, accessView_count d ⟨by decide, by decide⟩]
  unfold Dev.fabLog
  extract_lets raised noted
  split
  · exact (accessView_setFld _ _ ⟨by decide, by decide⟩).trans counted
  · refine (accessView_setFlds _ ?_).trans counted
    simp [accessReg, R.FAB_ERR_INFO_VALID, R.FAB_ERR_INFO_TYPE, R.FAB_ERR_INFO_WRITE, R.FAB_ERR_INFO_MASTER, R.FAB_ERR_INFO_ID,
      R.FAB_ERR_ADDR_LO_ADDR_LO, R.FAB_ERR_ADDR_HI_ADDR_HI]

theorem accessView_wakeRank {c : Nat} (r : Nat) (h : c < 4) : accessView (d.wakeRank c r) = accessView d :=
  accessView_setFld d _ (by simp only [accessReg, R.DMC_CH_STAT_PD]; omega)

@[simp] theorem accessView_wakeRange (a n : Nat) : accessView (d.wakeRange a n) = accessView d :=
  foldl_keeps accessView (fun e _ => accessView_wakeRank e _ (bits_lt ..)) _ d

@[simp] theorem accessView_dramBurst (m : Master) (write : Bool) (a n : Nat) : accessView (d.dramBurst m write a n).2 = accessView d := by
  unfold Dev.dramBurst
  extract_lets inside good out
  have counted : accessView out = accessView d := by
    unfold out
    split
    · rfl
    · rw [accessView_note, accessView_raise, accessView_count d ⟨by decide, by decide⟩]
  split
  · rfl
  · split <;> simp [counted]

@[simp] theorem accessView_dramAccess (m : Master) (write : Bool) (a n : Nat) : accessView (d.dramAccess m write a n).2 = accessView d := by
  refine foldl_keeps (fun x : Bool × Dev => accessView x.2) (fun x r => ?_) _ (true, d)
  exact accessView_dramBurst x.2 m write r.1 r.2

@[simp] theorem accessView_dramRead (m : Master) (a n : Nat) : accessView (d.dramRead m a n).2 = accessView d := accessView_dramAccess d m false a n

@[simp] theorem accessView_dramWrite (m : Master) (a : Nat) (l : List Nat) : accessView (d.dramWrite m a l).2 = accessView d := by
  refine foldl_keeps (fun x : Bool × Dev => accessView x.2) (fun x r => ?_) _ (true, d)
  refine Eq.trans ?_ (accessView_dramBurst x.2 m true r.1 r.2)
  exact (apply_ite accessView ..).trans (ite_self _)

/-! ## Reads -/

@[simp] theorem fabLog_dram (e : FabErr) (write : Bool) (master id addr : Nat) : (d.fabLog e write master id addr).dram = d.dram := by
  unfold Dev.fabLog
  extract_lets raised noted
  split <;> simp [noted, raised]

@[simp] theorem wakeRange_dram (a n : Nat) : (d.wakeRange a n).dram = d.dram := foldl_keeps Dev.dram (fun _ _ => setFld_dram ..) _ d

@[simp] theorem dramBurst_dram (m : Master) (write : Bool) (a n : Nat) : (d.dramBurst m write a n).2.dram = d.dram := by
  unfold Dev.dramBurst
  extract_lets inside good out
  have counted : out.dram = d.dram := by
    unfold out
    split <;> simp
  split
  · rfl
  · split <;> simp [counted]

/-- A read leaves DRAM alone. -/
@[simp] theorem dramRead_dram (m : Master) (a n : Nat) : (d.dramRead m a n).2.dram = d.dram := by
  refine foldl_keeps (fun x : Bool × Dev => x.2.dram) (fun x r => ?_) _ (true, d)
  exact dramBurst_dram x.2 m false r.1 r.2

end

end Sys2Proof.Proofs
end

section
/-! SUPPORT. Memory mode of the serial ports (08 R265 to R269): captured blocks, play blocks, and the records that CAP and PLY rings carry. -/
namespace Sys2Proof.Proofs
open Sys2Proof.Machine Sys2Proof.Laws

theorem exec_captureBlockEnd (p : Fin 32) (s : State) : exec (.captureBlockEnd p) s = s.act (·.captureEnd p.val) := rfl
theorem exec_playBlockStart (p : Fin 32) (s : State) : exec (.playBlockStart p) s = s.act (·.playStart p.val) := rfl
theorem exec_capRecordCopy (p : Fin 32) (s : State) : exec (.capRecordCopy p) s = s.act (·.capCopy p.val) := rfl
theorem exec_plyRecordFetch (p : Fin 32) (s : State) : exec (.plyRecordFetch p) s = s.act (·.plyFetch p.val) := rfl

/-! ## Overruns and underruns (R266 to R269) -/

/-- A block of a port is an overrun. -/
abbrev overran (d : Dev) (p : Nat) : Dev := recorded d (R.PORT_OVERRUN_COUNT p) (F.portOverrun p) (.portXrun p)

/-- A block of a port is an underrun. -/
abbrev underran (d : Dev) (p : Nat) : Dev := recorded d (R.PORT_UNDERRUN_COUNT p) (F.portUnderrun p) (.portXrun p)

theorem overran_count (d : Dev) (p : Nat) : (overran d p).fld (R.PORT_OVERRUN_COUNT p) = min (d.fld (R.PORT_OVERRUN_COUNT p) + 1) 0xFFFF :=
  recorded_count d (R.PORT_OVERRUN_COUNT p) _ _ (by simp [R.PORT_OVERRUN_COUNT])

theorem underran_count (d : Dev) (p : Nat) : (underran d p).fld (R.PORT_UNDERRUN_COUNT p) = min (d.fld (R.PORT_UNDERRUN_COUNT p) + 1) 0xFFFF :=
  recorded_count d (R.PORT_UNDERRUN_COUNT p) _ _ (by simp [R.PORT_UNDERRUN_COUNT])

/-! ## Captured blocks (R265, R266) -/

section
variable {d : Dev} {p : Nat} (mem : PCtl.memory (d.pCtl p) = true) (whole : PCtl.memFrames (d.pCtl p) ≤ (d.port p).cap.frames.length)
include mem whole

theorem captureEnd_of_room
    (room : (d.fld (R.PORT_CAP_WIDX_IDX p) + 2 ^ 32 - d.fld (R.PORT_CAP_RIDX_IDX p)) % 2 ^ 32 < Rec.size d p) : d.captureEnd p =
    ((d.dramWrite .sap (Rec.addr d p false (d.fld (R.PORT_CAP_WIDX_IDX p))) (capRecord d p (d.fld (R.PORT_CAP_WIDX_IDX p)) (d.port p).cap)).2.setFld
      (R.PORT_CAP_WIDX_IDX p) (d.fld (R.PORT_CAP_WIDX_IDX p) + 1)).setPort p { d.port p with cap := .zero } := by
  have block : (PCtl.memory (d.pCtl p) && decide (PCtl.memFrames (d.pCtl p) ≤ (d.port p).cap.frames.length)) = true := by simp [mem, whole]
  exact (if_pos block).trans ((if_pos room).trans
    (congrArg (fun x : PortS => Dev.setPort _ p { x with cap := .zero }) (port_of_accessView (accessView_dramWrite ..) p)))

theorem captureEnd_of_full
    (full : Rec.size d p ≤ (d.fld (R.PORT_CAP_WIDX_IDX p) + 2 ^ 32 - d.fld (R.PORT_CAP_RIDX_IDX p)) % 2 ^ 32) : d.captureEnd p =
    (overran d p).setPort p { d.port p with cap := { CapRun.zero with discont := true }, inE := { (d.port p).inE with g := 0, fall := false } } := by
  have block : (PCtl.memory (d.pCtl p) && decide (PCtl.memFrames (d.pCtl p) ≤ (d.port p).cap.frames.length)) = true := by simp [mem, whole]
  exact (if_pos block).trans ((if_neg (Nat.not_lt.2 full)).trans (congrArg (fun x : PortS => Dev.setPort _ p
    { x with cap := { CapRun.zero with discont := true }, inE := { x.inE with g := 0, fall := false } }) (port_recorded ..)))

end

/-! ## Play blocks (R267) -/

/-- A play block has begun, and the write index at its start is noted. -/
def playBegun (d : Dev) (p : Nat) : Dev :=
  d.setPort p { d.port p with ply := { (d.port p).ply with seen := d.fld (R.PORT_PLY_WIDX_IDX p), begun := true } }

@[simp] theorem playBegun_fld (d : Dev) (p : Nat) (f : Field) : (playBegun d p).fld f = d.fld f := fld_setPort ..
@[simp] theorem playBegun_dram (d : Dev) (p : Nat) : (playBegun d p).dram = d.dram := dram_setPort ..

@[simp] theorem playBegun_port (d : Dev) (p : Nat) : (playBegun d p).port p =
    { d.port p with ply := { (d.port p).ply with seen := d.fld (R.PORT_PLY_WIDX_IDX p), begun := true } } := port_setPort_self ..

/-- Records that the write index had passed at the start of the block before. -/
def playAhead (d : Dev) (p : Nat) : Nat := ((d.port p).ply.seen + 2 ^ 32 - d.fld (R.PORT_PLY_RIDX_IDX p)) % 2 ^ 32

/-- A fault or a restart has taken up the fall of an underrun. -/
def playFalls (d : Dev) (p : Nat) : Prop :=
  (d.port p).ply.missing = true ∧ (d.port p).outE.fall = true ∧
    ((d.port p).outE.fault = true ∨ (d.port p).want.isSome = true ∨ (d.grp (p / 4)).want.isSome = true)

/-- A play block of a port in memory mode begins now. -/
structure PlayBegins (d : Dev) (p : Nat) : Prop where
  mem : PCtl.memory (d.pCtl p) = true
  on : d.dirOn p true = true
  played : (d.port p).ply.left = []
  awake : d.awake = true
  works : d.works (grpBase (p / 4)) = true
  used : GFmt.slots (d.gFmt (p / 4)) ≠ 0
  runs : (d.grp (p / 4)).restart = false
  once : (d.port p).ply.begun = false
  first : (d.grp (p / 4)).frame % PCtl.memFrames (d.pCtl p) = 0

section
variable {d : Dev} {p : Nat} (begins : PlayBegins d p)
include begins

theorem PlayBegins.goes : ¬ (!d.awake || !d.works (grpBase (p / 4)) || GFmt.slots (d.gFmt (p / 4)) == 0 || (d.grp (p / 4)).restart ||
    (d.port p).ply.begun || (d.grp (p / 4)).frame % PCtl.memFrames (d.pCtl p) != 0) = true := by
  obtain ⟨-, -, -, awake, works, used, runs, once, first⟩ := begins
  simp [awake, works, used, runs, once, first]

theorem PlayBegins.block : (PCtl.memory ((playBegun d p).pCtl p) && (playBegun d p).dirOn p true && (d.port p).ply.left.isEmpty) = true := by
  obtain ⟨mem, on, played, -⟩ := begins
  simp only [played, Bool.and_eq_true, List.isEmpty_nil, and_true]
  exact ⟨mem, on⟩

theorem playStart_of_fall (ahead : 0 < playAhead d p ∧ playAhead d p ≤ 2 ^ 31) (falls : playFalls d p) : d.playStart p = playBegun d p := by
  have taken : ((d.port p).ply.missing && (d.port p).outE.fall && ((d.port p).outE.fault || (d.port p).want.isSome ||
      (d.grp (p / 4)).want.isSome)) = true := by
    simpa [playFalls, and_assoc, or_assoc] using falls
  exact (if_neg begins.goes).trans ((if_pos begins.block).trans ((if_pos ahead).trans (if_pos taken)))

/-- With no record, the block is an underrun and the output starts to fall. -/
theorem playStart_of_none (none : ¬ (0 < playAhead d p ∧ playAhead d p ≤ 2 ^ 31)) : d.playStart p =
    (underran (playBegun d p) p).setPort p { (underran (playBegun d p) p).port p with
      ply := { ((underran (playBegun d p) p).port p).ply with missing := true },
      outE := ((underran (playBegun d p) p).port p).outE.startFall (fadeLen ((underran (playBegun d p) p).fld (R.GRP_CTL_CTL (p / 4)))) false } :=
  (if_neg begins.goes).trans ((if_pos begins.block).trans (if_neg none))

/-- With a record, the block it holds is there to play. -/
theorem playStart_of_record (ahead : 0 < playAhead d p ∧ playAhead d p ≤ 2 ^ 31) (stays : ¬ playFalls d p) :
    ∃ (e : Dev) (frames : List (List Int)), accessView e = accessView (playBegun d p) ∧ frames.length = PCtl.memFrames (d.pCtl p) ∧
      d.playStart p = (e.setFld (R.PORT_PLY_RIDX_IDX p) (d.fld (R.PORT_PLY_RIDX_IDX p) + 1)).setPort p { e.port p with
        ply := { (e.port p).ply with left := frames, missing := false },
        outE := if (d.port p).ply.missing then { (e.port p).outE with fall := false } else (e.port p).outE } := by
  have free : ¬ ((d.port p).ply.missing && (d.port p).outE.fall && ((d.port p).outE.fault || (d.port p).want.isSome ||
      (d.grp (p / 4)).want.isSome)) = true := by
    simpa [playFalls, and_assoc, or_assoc] using stays
  refine ⟨_, _, ?_, ?_, (if_neg begins.goes).trans ((if_pos begins.block).trans ((if_pos ahead).trans (if_neg free)))⟩
  · exact (accessView_dramWrite ..).trans ((accessView_drew ..).trans (accessView_dramRead (playBegun d p) ..))
  · rw [List.length_map, List.length_range]

end

/-! ## Records in the rings (R268, R269) -/

theorem ringFor_lt {d : Dev} {ty link r : Nat} (h : d.ringFor ty link = some r) : r < 64 := List.mem_range.1 (List.mem_of_find?_eq_some h)

section
variable (d : Dev) (r : Nat)

@[simp] theorem ringAdvance_dram : (d.ringAdvance r).dram = d.dram := (rfl)
@[simp] theorem ringAdvance_hostMem : (d.ringAdvance r).hostMem = d.hostMem := (rfl)

theorem ringAdvance_index : (d.ringAdvance r).fld (R.RING_DEV_IDX_DEV_IDX r) = (d.fld (R.RING_DEV_IDX_DEV_IDX r) + 1) % 2 ^ 32 :=
  (fld_setFld_self d (R.RING_DEV_IDX_DEV_IDX r) _ (by simp [R.RING_DEV_IDX_DEV_IDX])).trans (Nat.mod_mod ..)

theorem ringAdvance_fld_ne {f : Field} (h : f.addr ≠ (R.RING_DEV_IDX_DEV_IDX r).addr) : (d.ringAdvance r).fld f = d.fld f :=
  fld_setFld_of_addr d _ h

variable (o : Nat) (l : List Nat)


theorem ringBack_index : (d.ringBack r o l).fld (R.RING_DEV_IDX_DEV_IDX r) = (d.fld (R.RING_DEV_IDX_DEV_IDX r) + 1) % 2 ^ 32 :=
  ringAdvance_index ..

end

/-- A ring of a type serves a port in memory mode. -/
structure RingServes (d : Dev) (ty p r : Nat) : Prop where
  ring : d.ringFor ty p = some r
  host : PCtl.host (d.pCtl p) = true
  mem : PCtl.memory (d.pCtl p) = true
  live : d.ringLive r = true
  awake : d.awake = true

section
variable {d : Dev} {p r : Nat}

section
variable (serves : RingServes d 6 p r) (record : d.fld (R.PORT_CAP_RIDX_IDX p) ≠ d.fld (R.PORT_CAP_WIDX_IDX p))
include serves record

theorem RingServes.copies : ¬ (!PCtl.host (d.pCtl p) || !PCtl.memory (d.pCtl p) ||
    d.fld (R.PORT_CAP_RIDX_IDX p) == d.fld (R.PORT_CAP_WIDX_IDX p) || !d.ringLive r || !d.awake) = true := by
  simp [serves.host, serves.mem, serves.live, serves.awake, record]

theorem capCopy_of_empty (empty : d.ringPosted r = 0) :
    d.capCopy p = (d.ringDrop r).setFld (R.PORT_CAP_RIDX_IDX p) (d.fld (R.PORT_CAP_RIDX_IDX p) + 1) := by
  unfold Dev.capCopy
  rw [serves.ring]
  exact (if_neg (serves.copies record)).trans (if_pos empty)

/-- A record that is copied, or dropped for want of space in its buffer, takes a posted entry. -/
theorem capCopy_of_posted (posted : d.ringPosted r ≠ 0) : ∃ (e : Dev) (l : List Nat),
    d.capCopy p = (e.ringBack r 16 l).setFld (R.PORT_CAP_RIDX_IDX p) (d.fld (R.PORT_CAP_RIDX_IDX p) + 1) ∧ e.sap = d.sap ∧ e.dram = d.dram ∧
      e.fld (R.RING_DEV_IDX_DEV_IDX r) = d.fld (R.RING_DEV_IDX_DEV_IDX r) := by
  have low := ringFor_lt serves.ring
  have page : (R.RING_DEV_IDX_DEV_IDX r).addr < 0x20000 := by simp only [R.RING_DEV_IDX_DEV_IDX]; omega
  have apart : (R.RING_DEV_IDX_DEV_IDX r).addr ≠ (R.PORT_OVERRUN_COUNT p).addr := by
    simp only [R.RING_DEV_IDX_DEV_IDX, R.PORT_OVERRUN_COUNT]; omega
  have same (a n k : Nat) : accessView ((d.dramRead .hre a n).2.drew k) = accessView d := by rw [accessView_drew, accessView_dramRead]
  unfold Dev.capCopy
  rw [serves.ring]
  refine ⟨_, _, (if_neg (serves.copies record)).trans (if_neg posted), ?_⟩
  split
  · exact ⟨(hostWrite_sap ..).trans (sap_of_accessView (same ..)), (hostWrite_dram ..).trans (dramRead_dram d .hre _ _),
      (fld_of_regs (hostWrite_regs ..) (hostWrite_grade ..) _).trans (fld_of_accessView (same ..) (.inl page))⟩
  · exact ⟨(recorded_sap ..).trans (sap_of_accessView (same ..)), (recorded_dram ..).trans (dramRead_dram d .hre _ _),
      (fld_recorded_ne _ _ _ _ apart).trans (fld_of_accessView (same ..) (.inl page))⟩

end

section
variable (serves : RingServes d 7 p r) (posted : d.ringPosted r ≠ 0)
  (room : (d.fld (R.PORT_PLY_WIDX_IDX p) + 2 ^ 32 - d.fld (R.PORT_PLY_RIDX_IDX p)) % 2 ^ 32 < Rec.size d p)
include serves posted room

theorem RingServes.fetches : ¬ (!PCtl.host (d.pCtl p) || !PCtl.memory (d.pCtl p) ||
    decide (Rec.size d p ≤ (d.fld (R.PORT_PLY_WIDX_IDX p) + 2 ^ 32 - d.fld (R.PORT_PLY_RIDX_IDX p)) % 2 ^ 32) || !d.ringLive r ||
    d.ringPosted r == 0 || !d.awake) = true := by
  simp only [serves.host, serves.mem, serves.live, serves.awake, decide_eq_false (Nat.not_le.2 room), beq_false_of_ne posted]
  decide

/-- The entry at the device index of a ring. -/
def ringEntry (d : Dev) (r : Nat) : List Nat := memRead d.hostMem (d.ringAddr r (d.fld (R.RING_DEV_IDX_DEV_IDX r))) 16

theorem plyFetch_of_stride (fits : ofLe (slice (ringEntry d r) 8 4) = Rec.stride d p) : d.plyFetch p =
    (((d.dramWrite .hre (Rec.addr d p true (d.fld (R.PORT_PLY_WIDX_IDX p)))
      (memRead d.hostMem (ofLe (slice (ringEntry d r) 0 8)) (Rec.stride d p))).2.ringAdvance r).setFld (R.PORT_PLY_WIDX_IDX p)
        (d.fld (R.PORT_PLY_WIDX_IDX p) + 1)) := by
  unfold Dev.plyFetch
  rw [serves.ring]
  exact (if_neg (serves.fetches posted room)).trans (if_pos fits)

theorem plyFetch_of_other_length (other : ofLe (slice (ringEntry d r) 8 4) ≠ Rec.stride d p) : d.plyFetch p = (underran d p).ringAdvance r := by
  unfold Dev.plyFetch
  rw [serves.ring]
  exact (if_neg (serves.fetches posted room)).trans (if_neg other)

end

end

/-- Settles O35, from what the end of a captured block, the start of a play block and the two copies of records do in each case. -/
theorem memoryModeRecordsAreWrittenAndPlayed : Obligations.MemoryModeRecordsAreWrittenAndPlayed := by
  unfold Obligations.MemoryModeRecordsAreWrittenAndPlayed
  refine ⟨fun s p mem whole => ⟨fun room => ?stores, fun full => ?overruns⟩,
    fun s p mem on played awake works used runs once first => ?block,
    fun s p r ring host mem live posted awake record => ?copies, fun s p r ring host mem live empty awake record => ?drops,
    fun s p r ring host mem live posted awake room => ?fetches⟩
  case stores => exact makes_of _ (exec_captureBlockEnd p s) (captureEnd_of_room mem whole room)
  case overruns =>
    refine ⟨_, makes_of _ (exec_captureBlockEnd p s) (captureEnd_of_full mem whole full), ?_⟩
    simp only [fld_setPort, dram_setPort, port_setPort_self]
    exact ⟨overran_count .., trivial, rfl, trivial, recorded_dram .., fld_recorded_ne _ _ _ _ (by simp [R.PORT_CAP_WIDX_IDX, R.PORT_OVERRUN_COUNT])⟩
  case block =>
    have begins : PlayBegins s.dev p := ⟨mem, on, played, awake, works, used, runs, once, first⟩
    refine ⟨fun ahead stays => ?plays, fun ahead falls => makes_of _ (exec_playBlockStart p s) (playStart_of_fall begins ahead falls),
      fun none => ⟨_, makes_of _ (exec_playBlockStart p s) (playStart_of_none begins none), ?underruns⟩⟩
    case plays =>
      obtain ⟨e, frames, same, long, acts⟩ := playStart_of_record begins ahead stays
      refine ⟨_, makes_of _ (exec_playBlockStart p s) acts, ?_⟩
      rw [fld_setPort, port_setPort_self, port_of_accessView same, playBegun_port]
      exact ⟨fld_setFld_self e (R.PORT_PLY_RIDX_IDX p) _ (by simp [R.PORT_PLY_RIDX_IDX]), long, rfl, rfl⟩
    case underruns =>
      have control : (underran (playBegun s.dev p) p).fld (R.GRP_CTL_CTL (p.val / 4)) = s.dev.fld (R.GRP_CTL_CTL (p.val / 4)) :=
        (fld_recorded_ne _ _ _ _ (by simp only [R.GRP_CTL_CTL, R.PORT_UNDERRUN_COUNT]; omega)).trans (playBegun_fld ..)
      have index : (underran (playBegun s.dev p) p).fld (R.PORT_PLY_RIDX_IDX p) = s.dev.fld (R.PORT_PLY_RIDX_IDX p) :=
        (fld_recorded_ne _ _ _ _ (by simp [R.PORT_PLY_RIDX_IDX, R.PORT_UNDERRUN_COUNT])).trans (playBegun_fld ..)
      simp only [fld_setPort, dram_setPort, port_setPort_self, port_recorded, playBegun_port, control]
      exact ⟨trivial, trivial, (underran_count ..).trans (by rw [playBegun_fld]), index, (recorded_dram ..).trans (playBegun_dram ..)⟩
  case copies =>
    obtain ⟨e, l, acts, sap, dram, index⟩ := capCopy_of_posted ⟨ring, host, mem, live, awake⟩ record posted
    have low := ringFor_lt ring
    refine ⟨_, makes_of _ (exec_capRecordCopy p s) acts, fld_setFld_self _ (R.PORT_CAP_RIDX_IDX p) _ (by simp [R.PORT_CAP_RIDX_IDX]), ?_, dram, sap⟩
    rw [fld_setFld_of_addr _ _ (by simp only [R.RING_DEV_IDX_DEV_IDX, R.PORT_CAP_RIDX_IDX]; omega), ringBack_index, index]
  case drops => exact makes_of _ (exec_capRecordCopy p s) (capCopy_of_empty ⟨ring, host, mem, live, awake⟩ record empty)
  case fetches =>
    have serves : RingServes s.dev 7 p r := ⟨ring, host, mem, live, awake⟩
    have low := ringFor_lt ring
    have page : (R.RING_DEV_IDX_DEV_IDX r).addr < 0x20000 := by simp only [R.RING_DEV_IDX_DEV_IDX]; omega
    have write : (R.PORT_PLY_WIDX_IDX p).addr ≠ (R.RING_DEV_IDX_DEV_IDX r).addr := by
      simp only [R.PORT_PLY_WIDX_IDX, R.RING_DEV_IDX_DEV_IDX]; omega
    have count : (R.PORT_UNDERRUN_COUNT p).addr ≠ (R.RING_DEV_IDX_DEV_IDX r).addr := by
      simp only [R.PORT_UNDERRUN_COUNT, R.RING_DEV_IDX_DEV_IDX]; omega
    by_cases fits : ofLe (slice (ringEntry s.dev r) 8 4) = Rec.stride s.dev p
    case pos =>
      refine ⟨_, makes_of _ (exec_plyRecordFetch p s) (plyFetch_of_stride serves posted room fits), ?_, ?_,
        fun _ => fld_setFld_self _ (R.PORT_PLY_WIDX_IDX p) _ (by simp [R.PORT_PLY_WIDX_IDX]), fun other => absurd fits other⟩
      · rw [fld_setFld_of_addr _ _ write.symm, ringAdvance_index, fld_of_accessView (accessView_dramWrite ..) (.inl page)]
      · rw [setFld_hostMem, ringAdvance_hostMem, hostMem_of_accessView (accessView_dramWrite ..)]
    case neg =>
      refine ⟨_, makes_of _ (exec_plyRecordFetch p s) (plyFetch_of_other_length serves posted room fits), ?_, ?_, fun same => absurd same fits,
        fun _ => ⟨?_, ?_, ?_⟩⟩
      · rw [ringAdvance_index, fld_recorded_ne _ _ _ _ count.symm]
      · rw [ringAdvance_hostMem, recorded_hostMem]
      · rw [ringAdvance_dram, recorded_dram]
      · rw [ringAdvance_fld_ne _ _ write, fld_recorded_ne _ _ _ _ (by simp [R.PORT_PLY_WIDX_IDX, R.PORT_UNDERRUN_COUNT])]
      · rw [ringAdvance_fld_ne _ _ count, underran_count]

end Sys2Proof.Proofs
end

section
/-! SUPPORT. The configuration of the serial ports (08 R251, R252, R260, R261): the checks of PORT_CFG, masks in shadow and in force, and the
restart of a port whose envelopes are at 0. -/
namespace Sys2Proof.Proofs
open Sys2Proof.Machine Sys2Proof.Laws

theorem exec_portCfg (c : Cmd) (s : State) : exec (.portCfg c) s = s.act (·.row .portCfg c) := rfl
theorem effect_portCfg (d : Dev) (c : Cmd) (late : Bool) : d.effect .portCfg c late = done (portCfg d c late) := rfl
theorem exec_maskApply (p : Fin 32) (s : State) : exec (.maskApply p) s = s.act (·.maskApply p.val) := rfl
theorem exec_portRestartApply (p : Fin 32) (s : State) : exec (.portRestartApply p) s =
    s.act (fun d => ((d.grpApply (p.val / 4)).portApply p.val).refFollow) := rfl

theorem makes_portCfg {s : State} {c : Cmd} {p : Cpl} {e : Dev} (h : s.dev.applies .portCfg c)
    (acts : portCfg (s.dev.unqueue c) c ((s.dev.unqueue c).isLate c) = (p, e)) : Makes (.portCfg c) s (e.ends c p) := by
  refine makes_of _ (exec_portCfg c s) (row_done (by decide) h ?_)
  rw [effect_portCfg, cmdLate_of_other (by decide) (by decide), acts]

/-! ## The checks (R252) -/

section
variable {d : Dev} {c : Cmd} {late : Bool}

/-- Bits of byte 16 that are reserved in the form of the command. -/
def reservedBits (c : Cmd) : Nat := c.u8 16 &&& (if Pc.group c then 0x78 else 0x60)

/-- The command brings a GRP_FMT that fails the checks. -/
def formatFails (d : Dev) (c : Cmd) : Prop := (Pc.group c && bitAt (Pc.sel c) 0 && fmtBad d (Pc.fmt c)) = true

/-- More slots would be enabled in a direction than there are. -/
def slotsExceed (d : Dev) (c : Cmd) : Prop := d.cap 1024 < askedSlots d c false ∨ d.cap 1024 < askedSlots d c true

theorem portCfg_of_nothing (empty : Pc.sel c = 0) : portCfg d c late = (⟨lateOk late, 0, 0⟩, d) := if_pos empty

variable (asked : Pc.sel c ≠ 0)
include asked

theorem portCfg_of_reserved (set : reservedBits c ≠ 0) : portCfg d c late = (⟨.badTable, 2, 0⟩, d) := (if_neg asked).trans (if_pos set)

variable (clear : reservedBits c = 0)
include clear

theorem portCfg_of_format (fails : formatFails d c) : portCfg d c late = (⟨.badTable, 3, 0⟩, d) :=
  (if_neg asked).trans ((if_neg (not_not.2 clear)).trans (if_pos fails))

variable (fits : ¬ formatFails d c)
include fits

theorem portCfg_of_excess (exceeds : slotsExceed d c) : portCfg d c late = (⟨.noSpace, 0, 0⟩, d) :=
  (if_neg asked).trans ((if_neg (not_not.2 clear)).trans ((if_neg fits).trans (if_pos exceeds)))

theorem portCfg_of_room (room : ¬ slotsExceed d c) :
    portCfg d c late = (⟨lateOk late, 0, 0⟩, if Pc.group c then groupCfg d c else portCfgPort d c) :=
  (if_neg asked).trans ((if_neg (not_not.2 clear)).trans ((if_neg fits).trans (if_neg room)))

end

/-! ## Masks (R260) -/

/-- Both pending bits of a port stand in one register and read as they are written. -/
theorem pending_setFlds (d : Dev) (p a b : Nat) :
    (d.setFlds [(R.PORT_PEND_IN p, a), (R.PORT_PEND_OUT p, b)]).fld (R.PORT_PEND_IN p) = a % 2 ∧
    (d.setFlds [(R.PORT_PEND_IN p, a), (R.PORT_PEND_OUT p, b)]).fld (R.PORT_PEND_OUT p) = b % 2 := by
  have other := fld_setFld_ne (d.setFld (R.PORT_PEND_IN p) a) (R.PORT_PEND_OUT p) (R.PORT_PEND_IN p) b (by simp [R.PORT_PEND_OUT])
    (by simp [apart, R.PORT_PEND_IN, R.PORT_PEND_OUT])
  exact ⟨other.trans (fld_setFld_self d (R.PORT_PEND_IN p) a (by simp [R.PORT_PEND_IN])),
    fld_setFld_self _ (R.PORT_PEND_OUT p) b (by simp [R.PORT_PEND_OUT])⟩

theorem fld_setPending_ne (d : Dev) (p a b : Nat) {f : Field} (h : f.addr ≠ (R.PORT_PEND_IN p).addr) :
    (d.setFlds [(R.PORT_PEND_IN p, a), (R.PORT_PEND_OUT p, b)]).fld f = d.fld f :=
  fld_setFlds_of_addr d _ (by simpa using ⟨h, h⟩)

theorem b2n_mod_two (b : Bool) : b2n b % 2 = b2n b := by cases b <;> rfl

/-- A mask in shadow, where there is one, is written to its register. -/
def putMask (d : Dev) (f : Field) (m : Option Nat) : Dev := match m with | some m => d.setFld f m | none => d

section
variable (d : Dev) (f : Field) (m : Option Nat)

theorem putMask_keeps {α : Type} (view : Dev → α) (h : ∀ v, view (d.setFld f v) = view d) : view (putMask d f m) = view d := by
  cases m
  · rfl
  · exact h _

theorem putMask_fld (fits : f.lo + f.w ≤ 32) : (putMask d f m).fld f = (m.map (· % 2 ^ f.w)).getD (d.fld f) := by
  cases m
  · rfl
  · exact fld_setFld_self d f _ fits

theorem putMask_fld_ne {g : Field} (h : g.addr ≠ f.addr) : (putMask d f m).fld g = d.fld g :=
  putMask_keeps d f m (·.fld g) fun v => fld_setFld_of_addr d v h

end

/-- Both masks of a port as they come in force. -/
def masksPut (d : Dev) (p : Nat) : Dev := putMask (putMask d (R.PORT_MASK_IN_MASK p) (d.port p).maskIn) (R.PORT_MASK_OUT_MASK p) (d.port p).maskOut

theorem maskApply_eq (d : Dev) (p : Nat) : d.maskApply p =
    ((masksPut d p).setPort p { (masksPut d p).port p with maskIn := none, maskOut := none }).setFlds
      [(R.PORT_PEND_IN p, 0), (R.PORT_PEND_OUT p, 0)] := rfl

/-- The fields that a mask coming in force writes. -/
def maskFields (p : Nat) : List Field := [R.PORT_MASK_IN_MASK p, R.PORT_MASK_OUT_MASK p, R.PORT_PEND_IN p, R.PORT_PEND_OUT p]

section
variable (d : Dev) (p : Nat)

section
variable {α : Type} (view : Dev → α) (h : ∀ f ∈ maskFields p, ∀ d v, view (Dev.setFld d f v) = view d)
include h

theorem masksPut_keeps : view (masksPut d p) = view d :=
  (putMask_keeps _ _ _ view (h _ (by simp [maskFields]) _)).trans (putMask_keeps _ _ _ view (h _ (by simp [maskFields]) _))

/-- What neither these fields nor the port's running state show is as it was. -/
theorem maskApply_keeps (hp : ∀ d x, view (Dev.setPort d p x) = view d) : view (d.maskApply p) = view d :=
  (h _ (by simp [maskFields]) _ _).trans ((h _ (by simp [maskFields]) _ _).trans ((hp ..).trans (masksPut_keeps d p view h)))

end

theorem maskApply_port_self : (d.maskApply p).port p = { d.port p with maskIn := none, maskOut := none } := by
  rw [maskApply_eq, port_setFlds, port_setPort_self, masksPut_keeps d p (·.port p) (fun _ _ _ _ => rfl)]

theorem maskApply_port_ne {q : Nat} (h : q ≠ p) : (d.maskApply p).port q = d.port q :=
  maskApply_keeps d p (·.port q) (fun _ _ _ _ => rfl) (fun _ _ => port_setPort_ne _ _ _ h)

theorem maskApply_pending : (d.maskApply p).fld (R.PORT_PEND_IN p) = 0 ∧ (d.maskApply p).fld (R.PORT_PEND_OUT p) = 0 := pending_setFlds ..

theorem maskApply_maskIn : (d.maskApply p).fld (R.PORT_MASK_IN_MASK p) =
    ((d.port p).maskIn.map (· % 2 ^ 32)).getD (d.fld (R.PORT_MASK_IN_MASK p)) := by
  rw [maskApply_eq, fld_setPending_ne _ _ _ _ (by simp [R.PORT_MASK_IN_MASK, R.PORT_PEND_IN]), fld_setPort, masksPut,
    putMask_fld_ne _ _ _ (by simp [R.PORT_MASK_IN_MASK, R.PORT_MASK_OUT_MASK])]
  exact putMask_fld d (R.PORT_MASK_IN_MASK p) _ (by simp [R.PORT_MASK_IN_MASK])

theorem maskApply_maskOut : (d.maskApply p).fld (R.PORT_MASK_OUT_MASK p) =
    ((d.port p).maskOut.map (· % 2 ^ 32)).getD (d.fld (R.PORT_MASK_OUT_MASK p)) := by
  rw [maskApply_eq, fld_setPending_ne _ _ _ _ (by simp [R.PORT_MASK_OUT_MASK, R.PORT_PEND_IN]), fld_setPort, masksPut]
  refine (putMask_fld _ (R.PORT_MASK_OUT_MASK p) _ (by simp [R.PORT_MASK_OUT_MASK])).trans ?_
  rw [putMask_fld_ne _ _ _ (by simp [R.PORT_MASK_IN_MASK, R.PORT_MASK_OUT_MASK])]
  rfl

end

/-! ## Restarts (R261) -/

theorem grpApply_of_none {d : Dev} {g : Nat} (none : (d.grp g).want = none) : d.grpApply g = d := by
  unfold Dev.grpApply
  rw [none]

/-- The words of a port's configuration, PORT_CTL first. -/
def portWords (p : Nat) (w : List Nat) : List (Field × Nat) :=
  [(R.PORT_CTL_CTL p, w.getD 0 0), (R.PORT_CAP_BASE_LO_BASE p, w.getD 1 0), (R.PORT_CAP_BASE_HI_BASE p, w.getD 2 0),
    (R.PORT_PLY_BASE_LO_BASE p, w.getD 3 0), (R.PORT_PLY_BASE_HI_BASE p, w.getD 4 0)]

theorem portWords_read (d : Dev) (p : Nat) (w : List Nat) : ∀ x ∈ portWords p w, (d.setFlds (portWords p w)).fld x.1 = x.2 % 2 ^ 32 := by
  have once : ((portWords p w).map (·.1.addr)).Nodup := by
    simp [portWords, R.PORT_CTL_CTL, R.PORT_CAP_BASE_LO_BASE, R.PORT_CAP_BASE_HI_BASE, R.PORT_PLY_BASE_LO_BASE, R.PORT_PLY_BASE_HI_BASE]
  have whole : ∀ x ∈ portWords p w, x.1.lo = 0 ∧ x.1.w = 32 := by
    simp [portWords, R.PORT_CTL_CTL, R.PORT_CAP_BASE_LO_BASE, R.PORT_CAP_BASE_HI_BASE, R.PORT_PLY_BASE_LO_BASE, R.PORT_PLY_BASE_HI_BASE]
  intro x hx
  obtain ⟨lo, wide⟩ := whole x hx
  rw [fld_setFlds_of_mem d _ once hx (by omega), wide]

/-- An envelope that its direction's restart concerns waits for two right frames. -/
def envRestarted (b : Bool) (e : Env) : Env := if b then { e with fall := false, silent := false, wait := 2, fault := false } else e

/-- A port once its configuration has been applied. -/
def portRestarted (d : Dev) (p : Nat) (w : List Nat) : PortS :=
  let x := d.port p
  let i := (portInvolved d p w).1
  let o := (portInvolved d p w).2
  { x with want := none, inE := envRestarted i x.inE, outE := envRestarted o x.outE, cap := if i then .zero else x.cap,
           ply := if o then { PlyRun.zero with seen := x.ply.seen } else x.ply, inQ := if i then [] else x.inQ, outQ := if o then [] else x.outQ }

section
variable {d : Dev} {p : Nat}

theorem portApply_of_none (rests : (d.port p).want = none) : d.portApply p = d := by
  unfold Dev.portApply
  rw [rests]

theorem portApply_of_want {w : List Nat} (waits : (d.port p).want = some w) : d.portApply p =
    if (!(portInvolved d p w).1 || (d.port p).inE.g == 0) && (!(portInvolved d p w).2 || (d.port p).outE.g == 0) then
      (d.setFlds (portWords p w)).setPort p (portRestarted d p w)
    else d := by
  unfold Dev.portApply
  rw [waits]
  rfl

theorem portApply_of_quiet {w : List Nat} (waits : (d.port p).want = some w) (quietIn : (portInvolved d p w).1 = true → (d.port p).inE.g = 0)
    (quietOut : (portInvolved d p w).2 = true → (d.port p).outE.g = 0) :
    d.portApply p = (d.setFlds (portWords p w)).setPort p (portRestarted d p w) := by
  rw [portApply_of_want waits]
  refine if_pos ?_
  cases i : (portInvolved d p w).1 <;> cases o : (portInvolved d p w).2 <;> simp_all

/-- A waiting configuration applies, or nothing happens. -/
theorem portApply_cases (d : Dev) (p : Nat) :
    d.portApply p = d ∨ ∃ w, d.portApply p = (d.setFlds (portWords p w)).setPort p (portRestarted d p w) := by
  cases want : (d.port p).want with
  | none => exact .inl (portApply_of_none want)
  | some w =>
    rw [portApply_of_want want]
    split
    · exact .inr ⟨w, rfl⟩
    · exact .inl rfl

theorem portApply_port_ne {q : Nat} (h : q ≠ p) : (d.portApply p).port q = d.port q := by
  rcases portApply_cases d p with same | ⟨w, applied⟩
  · rw [same]
  · rw [applied, port_setPort_ne _ _ _ h, port_setFlds]

theorem onEnv_port_ne (out : Bool) (f : Env → Env) {q : Nat} (h : q ≠ p) : (d.onEnv p out f).port q = d.port q := port_setPort_ne _ _ _ h

end

/-! ## The port form (R260, R261) -/

section
variable (d : Dev) (c : Cmd)

/-- The port of a command with the masks it brings in shadow. -/
def shadowed : PortS :=
  { d.port (Pc.port c) with maskIn := if bitAt (Pc.sel c) 1 then some (c.u32 24) else (d.port (Pc.port c)).maskIn,
                            maskOut := if bitAt (Pc.sel c) 2 then some (c.u32 28) else (d.port (Pc.port c)).maskOut }

/-- The part with the masks of a command in shadow, shown as pending. -/
def masksShadowed : Dev :=
  (d.setPort (Pc.port c) (shadowed d c)).setFlds
    [(R.PORT_PEND_IN (Pc.port c), b2n (shadowed d c).maskIn.isSome), (R.PORT_PEND_OUT (Pc.port c), b2n (shadowed d c).maskOut.isSome)]

theorem masksShadowed_port : (masksShadowed d c).port (Pc.port c) = shadowed d c := by rw [masksShadowed, port_setFlds, port_setPort_self]

theorem masksShadowed_port_ne {q : Nat} (h : q ≠ Pc.port c) : (masksShadowed d c).port q = d.port q := by
  rw [masksShadowed, port_setFlds, port_setPort_ne _ _ _ h]

theorem masksShadowed_fld_ne {f : Field} (h : f.addr ≠ (R.PORT_PEND_IN (Pc.port c)).addr) : (masksShadowed d c).fld f = d.fld f :=
  fld_setPending_ne _ _ _ _ h

theorem masksShadowed_pending :
    (masksShadowed d c).fld (R.PORT_PEND_IN (Pc.port c)) = b2n (shadowed d c).maskIn.isSome ∧
    (masksShadowed d c).fld (R.PORT_PEND_OUT (Pc.port c)) = b2n (shadowed d c).maskOut.isSome := by
  obtain ⟨pin, pout⟩ := pending_setFlds (d.setPort (Pc.port c) (shadowed d c)) (Pc.port c) (b2n (shadowed d c).maskIn.isSome)
    (b2n (shadowed d c).maskOut.isSome)
  rw [b2n_mod_two] at pin pout
  exact ⟨pin, pout⟩

/-- A direction that a restart concerns starts to fall. -/
def fallIf (b : Bool) (d : Dev) (p : Nat) (out : Bool) (fade : Nat) : Dev := if b then d.onEnv p out (Env.startFall fade false) else d

theorem fallIf_port_ne (b : Bool) {p : Nat} (out : Bool) (fade : Nat) {q : Nat} (h : q ≠ p) : (fallIf b d p out fade).port q = d.port q := by
  unfold fallIf
  split
  · exact onEnv_port_ne _ _ h
  · rfl

/-- A configuration waits for a port: the envelopes it restarts start to fall, and it applies once they are at 0. -/
def portWants (d : Dev) (p : Nat) (new : List Nat) : Dev :=
  let fade := fadeLen (d.fld (R.GRP_CTL_CTL (p / 4)))
  (fallIf (portInvolved d p new).2 (fallIf (portInvolved d p new).1 (d.setPort p { d.port p with want := some new }) p false fade)
    p true fade).portApply p

theorem portWants_port_ne {p : Nat} (new : List Nat) {q : Nat} (h : q ≠ p) : (portWants d p new).port q = d.port q := by
  rw [portWants, portApply_port_ne h, fallIf_port_ne _ _ _ _ h, fallIf_port_ne _ _ _ _ h, port_setPort_ne _ _ _ h]

/-- The port form shadows its masks; of what else it brings, a configuration is made that waits. -/
theorem portCfgPort_eq : ∃ new, portCfgPort d c =
    if bitAt (Pc.sel c) 0 || bitAt (Pc.sel c) 3 then portWants (masksShadowed d c) (Pc.port c) new else masksShadowed d c := by
  unfold portCfgPort
  extract_lets p sel x inMask outMask shown old new
  have mask : outMask = shadowed d c := by
    unfold outMask inMask shadowed
    split <;> split <;> rfl
  have same : shown = masksShadowed d c := by rw [masksShadowed, ← mask]
  refine ⟨new, ?_⟩
  rw [← same]
  rfl

theorem portCfgPort_of_masks (masks : (bitAt (Pc.sel c) 0 || bitAt (Pc.sel c) 3) = false) : portCfgPort d c = masksShadowed d c := by
  obtain ⟨new, h⟩ := portCfgPort_eq d c
  rw [h, masks]
  rfl

theorem portCfgPort_port_ne {q : Nat} (h : q ≠ Pc.port c) : (portCfgPort d c).port q = d.port q := by
  obtain ⟨new, eq⟩ := portCfgPort_eq d c
  rw [eq]
  split
  · exact (portWants_port_ne _ new h).trans (masksShadowed_port_ne d c h)
  · exact masksShadowed_port_ne d c h

end

/-- Settles O33, from the checks of PORT_CFG, the port form, and what puts masks and waiting configurations in force. -/
theorem portConfigurationIsCheckedShadowedAndRestarted : Obligations.PortConfigurationIsCheckedShadowedAndRestarted := by
  unfold Obligations.PortConfigurationIsCheckedShadowedAndRestarted
  refine ⟨fun s c applies => ?configures, fun s p => ?applies, fun s p ctl b0 b1 b2 b3 waits rests quietIn quietOut => ?restarts⟩
  case configures =>
    refine ⟨fun empty => makes_portCfg applies (portCfg_of_nothing empty), fun asked set => makes_portCfg applies (portCfg_of_reserved asked set),
      fun asked clear fails => makes_portCfg applies (portCfg_of_format asked clear fails),
      fun asked clear fits full => makes_portCfg applies (portCfg_of_excess asked clear fits full),
      fun asked clear fits room => ?_⟩
    have acts := makes_portCfg applies (portCfg_of_room asked clear fits room)
    refine ⟨fun group => by rwa [group, if_pos rfl] at acts, fun port => ?_⟩
    rw [port, if_neg (by decide)] at acts
    refine ⟨_, acts, fun q => portCfgPort_port_ne _ c, fun masks => ?_⟩
    rw [portCfgPort_of_masks _ c masks, masksShadowed_port]
    obtain ⟨pin, pout⟩ := masksShadowed_pending (s.dev.unqueue c) c
    have stays {f : Field} (h : f.addr ≠ (R.PORT_PEND_IN (Pc.port c)).addr) := masksShadowed_fld_ne (s.dev.unqueue c) c h
    exact ⟨rfl, rfl, pin, pout, stays (by simp [R.PORT_MASK_IN_MASK, R.PORT_PEND_IN]), stays (by simp [R.PORT_MASK_OUT_MASK, R.PORT_PEND_IN]),
      stays (by simp [R.PORT_CTL_CTL, R.PORT_PEND_IN])⟩
  case applies =>
    obtain ⟨pin, pout⟩ := maskApply_pending s.dev p
    refine ⟨_, makes_of _ (exec_maskApply p s) rfl, maskApply_maskIn .., maskApply_maskOut .., ?_, ?_, pin, pout,
      fun q => maskApply_port_ne s.dev p.val, ?_⟩
    · rw [maskApply_port_self]
    · rw [maskApply_port_self]
    · have same := maskApply_keeps s.dev p.val (fun d => (d.tabs, d.hdr, d.hostMem, d.dram)) (fun _ _ _ _ => rfl) (fun _ _ => rfl)
      simpa using same
  case restarts =>
    have applied := portApply_of_quiet waits quietIn quietOut
    have read := portWords_read s.dev p.val [ctl, b0, b1, b2, b3]
    simp only [portWords, List.forall_mem_cons] at read
    obtain ⟨control, capLo, capHi, plyLo, plyHi, -⟩ := read
    refine ⟨s.dev.portApply p.val, makes_of _ (exec_portRestartApply p s) (by rw [grpApply_of_none rests]), ?_⟩
    simp only [applied, fld_setPort, port_setPort_self]
    exact ⟨control, capLo, capHi, plyLo, plyHi, rfl, fun i => congrArg Env.wait (if_pos i), fun o => congrArg Env.wait (if_pos o),
      fun i => if_neg (by simp [i]), fun o => if_neg (by simp [o]), fun q h => (port_setPort_ne _ _ _ h).trans (port_setFlds ..)⟩

end Sys2Proof.Proofs
end

section
/-! SUPPORT. What the work of the ports at a frame leaves of their groups (08 R256, R260, R262, R266, R267): it writes the ports' state and
registers, and DRAM. -/
namespace Sys2Proof.Proofs
open Sys2Proof.Machine Sys2Proof.Laws

/-- What the work of a port leaves alone, with every register from the groups' on. -/
def groupView (d : Dev) : SMap Grp × Top × SMap Tab × List Host.Cell × (Nat → Word) :=
  (d.sap.grps, d.top, d.tabs, d.hostMem, fun i => d.reg (0xC8000 + i))

section
variable (d : Dev)

@[simp] theorem groupView_setPort (p : Nat) (x : PortS) : groupView (d.setPort p x) = groupView d := (rfl)
@[simp] theorem groupView_raise (f : Flag) : groupView (d.raise f) = groupView d := by simp [groupView]
@[simp] theorem groupView_note (t : TickEv) : groupView (d.note t) = groupView d := by simp [groupView]

theorem groupView_of_accessView {d e : Dev} (same : accessView e = accessView d) : groupView e = groupView d := by
  have (i : Nat) : e.reg (0xC8000 + i) = d.reg (0xC8000 + i) := reg_of_accessView same (.inr (by omega))
  simp only [groupView, this, sap_of_accessView same, top_of_accessView same, tabs_of_accessView same, hostMem_of_accessView same]

theorem groupView_setFlds {l : List (Field × Nat)} (low : ∀ w ∈ l, w.1.addr < 0xC8000) : groupView (d.setFlds l) = groupView d := by
  have (i : Nat) : (d.setFlds l).reg (0xC8000 + i) = d.reg (0xC8000 + i) :=
    reg_setFlds_ne d l fun w hw e => by
      have := low w hw
      omega
  simp [groupView, this]

theorem groupView_setFld {f : Field} (v : Nat) (low : f.addr < 0xC8000) : groupView (d.setFld f v) = groupView d :=
  groupView_setFlds d (l := [(f, v)]) (by simpa using low)

theorem groupView_recorded {f : Field} (b : Flag) (t : TickEv) (low : f.addr < 0xC8000) : groupView (recorded d f b t) = groupView d := by
  rw [recorded, groupView_note, groupView_raise]
  exact groupView_setFld d _ low

@[simp] theorem groupView_onEnv (p : Nat) (out : Bool) (f : Env → Env) : groupView (d.onEnv p out f) = groupView d := groupView_setPort ..

@[simp] theorem groupView_onEnvs (g : Nat) (f : Env → Env) : groupView (d.onEnvs g f) = groupView d :=
  foldl_keeps groupView (fun e p => by rw [groupView_onEnv, groupView_onEnv]) _ d

@[simp] theorem groupView_frameIn (p num : Nat) (may live : Bool) (words : List Nat) : groupView (d.frameIn p num may live words) = groupView d := by
  unfold Dev.frameIn
  extract_lets
  (repeat' split) <;> rfl

@[simp] theorem groupView_frameOut (p : Nat) (may clock : Bool) : groupView (d.frameOut p may clock) = groupView d := by
  unfold Dev.frameOut
  extract_lets
  split <;> rfl

theorem groupView_repeatEntry (p : Nat) : groupView (d.repeatEntry p) = groupView d := by
  unfold Dev.repeatEntry
  split
  · rw [groupView_raise, groupView_setPort]
  · rfl

section
variable {p : Nat} (low : p < 32)
include low

theorem groupView_captureEnd : groupView (d.captureEnd p) = groupView d := by
  unfold Dev.captureEnd
  dsimp only
  split
  · split
    · refine (groupView_setPort ..).trans ((groupView_setFld _ _ ?_).trans (groupView_of_accessView (accessView_dramWrite ..)))
      simp only [R.PORT_CAP_WIDX_IDX]; omega
    · refine (groupView_setPort ..).trans (groupView_recorded d (F.portOverrun p) (.portXrun p) ?_)
      simp only [R.PORT_OVERRUN_COUNT]; omega
  · rfl

theorem groupView_portApply : groupView (d.portApply p) = groupView d := by
  rcases portApply_cases d p with same | ⟨w, applied⟩
  · rw [same]
  · rw [applied, groupView_setPort]
    refine groupView_setFlds d ?_
    simp only [portWords, List.forall_mem_cons, R.PORT_CTL_CTL, R.PORT_CAP_BASE_LO_BASE, R.PORT_CAP_BASE_HI_BASE, R.PORT_PLY_BASE_LO_BASE,
      R.PORT_PLY_BASE_HI_BASE, List.not_mem_nil, false_imp_iff, implies_true, and_true]
    omega

theorem groupView_maskApply : groupView (d.maskApply p) = groupView d := by
  have fields : ∀ f ∈ maskFields p, f.addr < 0xC8000 := by
    simp only [maskFields, List.forall_mem_cons, R.PORT_MASK_IN_MASK, R.PORT_MASK_OUT_MASK, R.PORT_PEND_IN, R.PORT_PEND_OUT, List.not_mem_nil,
      false_imp_iff, implies_true, and_true]
    omega
  exact maskApply_keeps d p groupView (fun f hf e v => groupView_setFld e v (fields f hf)) fun e => groupView_setPort e p

theorem groupView_playStart : groupView (d.playStart p) = groupView d := by
  unfold Dev.playStart
  dsimp only
  split
  · rfl
  · split
    · split
      · split
        · rfl
        · refine (groupView_setPort ..).trans ((groupView_setFld _ _ ?_).trans (groupView_of_accessView (d := playBegun d p)
            ((accessView_dramWrite ..).trans ((accessView_drew ..).trans (accessView_dramRead (playBegun d p) ..)))))
          simp only [R.PORT_PLY_RIDX_IDX]; omega
      · refine (groupView_setPort ..).trans (groupView_recorded (playBegun d p) (F.portUnderrun p) (.portXrun p) ?_)
        simp only [R.PORT_UNDERRUN_COUNT]; omega
    · rfl

theorem groupView_frameStart : groupView (d.frameStart p) = groupView d := by
  unfold Dev.frameStart
  extract_lets begun masked
  have masks : groupView masked = groupView begun := by
    unfold masked
    split
    · split
      · exact groupView_maskApply begun low
      · rfl
    · rfl
  rw [groupView_repeatEntry, groupView_playStart masked low, masks, groupView_portApply _ low, groupView_captureEnd d low]

end

/-- Work of a group's ports, port by port. -/
theorem groupView_ports {g : Nat} (low : g < 8) {step : Dev → Nat → Dev} (h : ∀ e p, p < 32 → groupView (step e p) = groupView e) :
    groupView ((grpPorts g).foldl step d) = groupView d := by
  refine List.foldlRecOn (motive := fun e => groupView e = groupView d) _ step rfl fun e same p hp => (h e p ?_).trans same
  simp only [grpPorts, List.mem_cons, List.not_mem_nil, or_false] at hp
  omega

end

end Sys2Proof.Proofs
end

section
/-! SUPPORT. A frame of a port group (08 R256, R259, R270, R271): what it counts, and what it leaves of every other group. -/
namespace Sys2Proof.Proofs
open Sys2Proof.Machine Sys2Proof.Laws

/-- What a frame of a group is judged by, beside what it leaves alone. -/
structure FrameView where
  others : Nat → Grp
  top : Top
  tabs : SMap Tab
  hostMem : List Host.Cell
  errors : Nat
  frame : Nat
  good : Nat

/-- What a part shows of a frame of group `g`; the group's own state shows in its frames and right frames alone. -/
def frameView (g : Nat) (d : Dev) : FrameView :=
  ⟨fun h => if h = g then Grp.zero else d.grp h, d.top, d.tabs, d.hostMem, d.fld (R.GRP_FRAME_ERR_COUNT g), (d.grp g).frame, (d.grp g).good⟩

section
variable {g : Nat} (d : Dev)

theorem frameView_of_groupView {d e : Dev} (same : groupView e = groupView d) : frameView g e = frameView g d := by
  have grp (h : Nat) : e.grp h = d.grp h := by rw [Dev.grp, show e.sap.grps = d.sap.grps from congrArg (·.1) same, Dev.grp]
  have reg : e.reg (0xC8000 + (0x110 + 0x400 * g)) = d.reg (0xC8000 + (0x110 + 0x400 * g)) := congrFun (congrArg (·.2.2.2.2) same) _
  have errors : e.fld (R.GRP_FRAME_ERR_COUNT g) = d.fld (R.GRP_FRAME_ERR_COUNT g) := by
    rw [Dev.fld, show (R.GRP_FRAME_ERR_COUNT g).addr = 0xC8000 + (0x110 + 0x400 * g) by simp only [R.GRP_FRAME_ERR_COUNT]; omega, reg, Dev.fld,
      show (R.GRP_FRAME_ERR_COUNT g).addr = 0xC8000 + (0x110 + 0x400 * g) by simp only [R.GRP_FRAME_ERR_COUNT]; omega]
  have top : e.top = d.top := congrArg (·.2.1) same
  have tabs : e.tabs = d.tabs := congrArg (·.2.2.1) same
  have host : e.hostMem = d.hostMem := congrArg (·.2.2.2.1) same
  simp only [frameView, grp, errors, top, tabs, host]

/-- A write of the group's state shows its frames and right frames. -/
theorem frameView_setGrp (y : Grp) : frameView g (d.setGrp g y) = { frameView g d with frame := y.frame, good := y.good } := by
  have others : (fun h => if h = g then Grp.zero else (d.setGrp g y).grp h) = fun h => if h = g then Grp.zero else d.grp h := by
    funext h
    split
    · rfl
    · rename_i ne
      exact grp_setGrp_ne _ _ _ ne
  simp only [frameView, others, grp_setGrp_self]
  rfl

/-- A write of the group's state that keeps both shows nothing. -/
theorem frameView_setGrp_of {d e : Dev} (same : frameView g e = frameView g d) {y : Grp} (frame : y.frame = (d.grp g).frame)
    (good : y.good = (d.grp g).good) : frameView g (e.setGrp g y) = frameView g d := by
  rw [frameView_setGrp, same, frame, good]
  rfl

theorem frameView_setFld {f : Field} (v : Nat) (ne : (R.GRP_FRAME_ERR_COUNT g).addr ≠ f.addr) : frameView g (d.setFld f v) = frameView g d := by
  rw [frameView, fld_setFld_of_addr d v ne]
  rfl

@[simp] theorem frameView_raise (f : Flag) : frameView g (d.raise f) = frameView g d := frameView_of_groupView (groupView_raise ..)
@[simp] theorem frameView_note (t : TickEv) : frameView g (d.note t) = frameView g d := frameView_of_groupView (groupView_note ..)

theorem frameView_recorded_ne {f : Field} (b : Flag) (t : TickEv) (ne : (R.GRP_FRAME_ERR_COUNT g).addr ≠ f.addr) :
    frameView g (recorded d f b t) = frameView g d := by
  rw [recorded, frameView_note, frameView_raise]
  exact frameView_setFld d _ ne

/-- A frame error counts one, up to the counter's maximum. -/
theorem frameView_error (b : Flag) (t : TickEv) : frameView g (recorded d (R.GRP_FRAME_ERR_COUNT g) b t) =
    { frameView g d with errors := min (d.fld (R.GRP_FRAME_ERR_COUNT g) + 1) 0xFFFF } := by
  have errors := recorded_count d (R.GRP_FRAME_ERR_COUNT g) b t (by simp [R.GRP_FRAME_ERR_COUNT])
  have grp (h : Nat) : (recorded d (R.GRP_FRAME_ERR_COUNT g) b t).grp h = d.grp h := grp_of_sap (recorded_sap ..) h
  simp only [frameView, errors, grp, recorded_top, recorded_tabs, recorded_hostMem]
  rfl

theorem frameView_declare : frameView g (d.declare g) = frameView g d :=
  frameView_setFld d _ (by simp [R.GRP_FRAME_ERR_COUNT, R.GRP_STAT_LOCKED])

theorem frameView_onEnvs (h : Nat) (f : Env → Env) : frameView g (d.onEnvs h f) = frameView g d := frameView_of_groupView (groupView_onEnvs ..)

/-- A stage that acts under a condition shows nothing where its act shows nothing. -/
theorem view_ite {α : Type} (view : Dev → α) {c : Prop} [Decidable c] {a b : Dev} (h : c → view a = view b) :
    view (if c then a else b) = view b := by
  split
  · exact h ‹_›
  · rfl

end

/-! ## Resynchronisation (R270, R271) -/

theorem resync_cases (d : Dev) (g : Nat) : d.resync g = d ∨ d.resync g = d.setFld (R.GRP_STAT_SYNC_STATE g) 2 := by
  unfold Dev.resync
  dsimp only
  split
  · exact .inr rfl
  · exact .inl rfl

theorem resync_keeps {α : Type} (view : Dev → α) (d : Dev) (g : Nat) (h : view (d.setFld (R.GRP_STAT_SYNC_STATE g) 2) = view d) :
    view (d.resync g) = view d := by
  rcases resync_cases d g with same | set
  · rw [same]
  · rw [set, h]

theorem resync_grp (d : Dev) (g h : Nat) : (d.resync g).grp h = d.grp h := resync_keeps (·.grp h) d g (grp_setFld ..)

theorem resync_gFmt (d : Dev) (g : Nat) : (d.resync g).gFmt g = d.gFmt g :=
  resync_keeps (·.fld (R.GRP_FMT_FMT g)) d g (fld_setFld_of_addr d _ (by simp [R.GRP_FMT_FMT, R.GRP_STAT_SYNC_STATE]))

theorem frameView_resync (d : Dev) (g : Nat) : frameView g (d.resync g) = frameView g d :=
  resync_keeps (frameView g) d g (frameView_setFld d _ (by simp [R.GRP_FRAME_ERR_COUNT, R.GRP_STAT_SYNC_STATE]))

theorem resync_of_right {d : Dev} {g : Nat} (lost : d.fld (R.GRP_STAT_SYNC_STATE g) = 1 ∨ d.fld (R.GRP_STAT_SYNC_STATE g) = 3)
    (right : 2 ≤ (d.grp g).good) (runs : (d.grp g).restart = false) : d.resync g = d.setFld (R.GRP_STAT_SYNC_STATE g) 2 :=
  if_pos (by simp [lost, right, runs])

/-! ## One frame -/

/-- A working group in use, with nothing that waits for a frame boundary. -/
structure GroupRuns (d : Dev) (g : Nat) : Prop where
  awake : d.awake = true
  works : d.works (grpBase g) = true
  fmt : (d.grp g).want = none
  ctl : (d.grp g).ctlWant = none
  runs : (d.grp g).restart = false
  used : GFmt.slots (d.gFmt g) ≠ 0

/-- An external group's frame does not arrive. -/
def frameGone (w : Nat) (f : TdmFrame) : Bool := GFmt.clkSrc w == 2 && f.bclks == 0

/-- An external group's frame has another BCLK count than SLOTS × WIDTH. -/
def frameWrong (w : Nat) (f : TdmFrame) : Bool := GFmt.clkSrc w == 2 && !frameGone w f && f.bclks != GFmt.slots w * GFmt.width w

theorem frameGone_iff (w : Nat) (f : TdmFrame) : frameGone w f = true ↔ GFmt.clkSrc w = 2 ∧ f.bclks = 0 := by simp [frameGone]

theorem frameWrong_iff (w : Nat) (f : TdmFrame) : frameWrong w f = true ↔
    GFmt.clkSrc w = 2 ∧ f.bclks ≠ 0 ∧ f.bclks ≠ GFmt.slots w * GFmt.width w := by
  simp only [frameWrong, frameGone, Bool.and_eq_true, Bool.not_eq_true', Bool.and_eq_false_iff, beq_iff_eq, beq_eq_false_iff_ne, bne_iff_ne]
  tauto

/-- What a frame of a running group shows. -/
def framed (v : FrameView) (gone wrong : Bool) : FrameView :=
  { v with
    errors := if wrong then min (v.errors + 1) 0xFFFF else v.errors
    frame := v.frame + 1
    good := if !gone && !wrong then v.good + 1 else 0 }

theorem tdmFrame_frameView {d : Dev} {g : Nat} (low : g < 8) (runs : GroupRuns d g) (f : TdmFrame) :
    frameView g (d.tdmFrame g f) = framed (frameView g d) (frameGone (d.gFmt g) f) (frameWrong (d.gFmt g) f) := by
  obtain ⟨awake, works, fmt, ctl, running, used⟩ := runs
  unfold Dev.tdmFrame
  rw [if_neg (by simp [awake, works])]
  extract_lets applied _ begun w started ext fade st gone wrong right sync x φ slip afresh slipped declared num _ numbered _ measured counted
    inFallen may moved outFallen settled unsynced y first stood
  have same : applied = d.resync g := grpApply_of_none (by rw [resync_grp, fmt])
  have kept : begun = d.resync g := by
    unfold begun
    rw [same, resync_grp, ctl]
  have format : w = d.gFmt g := by rw [← resync_gFmt, ← kept]
  have isGone : gone = frameGone (d.gFmt g) f := by rw [← format]; rfl
  have isWrong : wrong = frameWrong (d.gFmt g) f := by rw [← format]; rfl
  rw [if_neg (by rw [format, kept, resync_grp, running]; simp [used])]
  -- nothing is judged until a wrong frame is counted
  have hBegun : frameView g begun = frameView g d := by rw [kept, frameView_resync]
  have hStarted : frameView g started = frameView g begun :=
    frameView_of_groupView (groupView_ports begun low fun e p => groupView_frameStart e)
  have hSlipped : frameView g slipped = frameView g started := view_ite (frameView g) fun _ =>
    frameView_setGrp_of ((frameView_onEnvs ..).trans
      (frameView_recorded_ne started _ _ (by simp [R.GRP_FRAME_ERR_COUNT, R.GRP_SLIP_COUNT]))) rfl rfl
  have hDeclared : frameView g declared = frameView g slipped := view_ite (frameView g) fun _ => frameView_declare slipped
  have hNumbered : frameView g numbered = frameView g declared := frameView_setGrp_of rfl rfl rfl
  have hMeasured : frameView g measured = frameView g numbered := view_ite (frameView g) fun _ =>
    (frameView_setFld _ _ (by simp [R.GRP_FRAME_ERR_COUNT, R.GRP_PHASE_PHI0])).trans (frameView_setGrp_of rfl rfl rfl)
  have before : frameView g measured = frameView g d := by rw [hMeasured, hNumbered, hDeclared, hSlipped, hStarted, hBegun]
  have errors : measured.fld (R.GRP_FRAME_ERR_COUNT g) = (frameView g d).errors := congrArg FrameView.errors before
  have hCounted : frameView g counted =
      { frameView g d with errors := if wrong then min ((frameView g d).errors + 1) 0xFFFF else (frameView g d).errors } := by
    unfold counted
    split
    · exact (frameView_error ..).trans (by rw [before, ← errors])
    · exact before
  -- the directions
  have hInFallen : frameView g inFallen = frameView g counted := view_ite (frameView g) fun _ =>
    frameView_of_groupView (foldl_keeps groupView (fun e p => groupView_onEnv ..) _ counted)
  have hMoved : frameView g moved = frameView g inFallen :=
    frameView_of_groupView (foldl_keeps groupView (fun e p => (groupView_frameOut ..).trans (groupView_frameIn ..)) _ inFallen)
  have hOutFallen : frameView g outFallen = frameView g moved := view_ite (frameView g) fun _ =>
    frameView_of_groupView (foldl_keeps groupView (fun e p => groupView_onEnv ..) _ moved)
  have hSettled : frameView g settled = frameView g outFallen := by
    unfold settled
    split
    · exact frameView_onEnvs ..
    · exact frameView_onEnvs ..
  have hUnsynced : frameView g unsynced = frameView g settled := view_ite (frameView g) fun _ =>
    frameView_setFld settled _ (by simp [R.GRP_FRAME_ERR_COUNT, R.GRP_STAT_SYNC_STATE])
  have directions : frameView g unsynced = frameView g counted := by rw [hUnsynced, hSettled, hOutFallen, hMoved, hInFallen]
  -- the group
  have frame : y.frame = (frameView g d).frame := congrArg FrameView.frame (directions.trans hCounted)
  have good : y.good = (frameView g d).good := congrArg FrameView.good (directions.trans hCounted)
  have hStood : frameView g stood = framed (frameView g d) gone wrong := by
    unfold stood
    rw [frameView_setGrp, directions, hCounted, frame, good]
    rfl
  rw [← isGone, ← isWrong, ← hStood]
  refine view_ite (frameView g) fun _ => frameView_of_groupView (groupView_ports stood low fun e p hp => view_ite groupView fun _ => ?_)
  exact groupView_setFld e _ (by simp only [R.PORT_TS_OUT_TS]; omega)

end Sys2Proof.Proofs
end

section
/-! SUPPORT. Clocks and rates of port groups (08 R259, R270, R272): a clock that is lost, a rate out of its window, and its recovery. -/
namespace Sys2Proof.Proofs
open Sys2Proof.Machine Sys2Proof.Laws

theorem exec_tdmFrame (g : Fin 8) (f : TdmFrame) (s : State) : exec (.tdmFrame g f) s = s.act (fun d => (d.tdmFrame g.val f).refFollow) := rfl
theorem exec_groupResync (g : Fin 8) (s : State) : exec (.groupResync g) s = s.act (fun d => (d.resync g.val).refFollow) := rfl
theorem exec_clkLost (g : Fin 8) (s : State) : exec (.clkLost g) s = s.act (fun d => (d.clkLost g.val).refFollow) := rfl
theorem exec_rateChg (g : Fin 8) (dev : Int) (s : State) : exec (.rateChg g dev) s = s.act (·.ownMeasure (·.rateWindow g.val dev)) := rfl
theorem exec_groupRateRecover (g : Fin 8) (s : State) : exec (.groupRateRecover g) s = s.act (·.ownMeasure (·.rateRecover g.val)) := rfl

/-! ## The envelopes of a group -/

section
variable (d : Dev) (g : Nat) (f : Env → Env)

/-- What the running state of no port shows is as it was. -/
theorem onEnvs_keeps {α : Type} (view : Dev → α) (h : ∀ d p x, view (Dev.setPort d p x) = view d) : view (d.onEnvs g f) = view d :=
  foldl_keeps view (fun _ _ => (h ..).trans (h ..)) _ d

/-- Both directions of a port take the step. -/
theorem onEnv_both_port (p : Nat) :
    ((d.onEnv p false f).onEnv p true f).port p = { d.port p with inE := f (d.port p).inE, outE := f (d.port p).outE } := by
  simp [Dev.onEnv]

theorem port_foldl_onEnv {l : List Nat} (once : l.Nodup) {p : Nat} (hp : p ∈ l) :
    (l.foldl (fun d p => (d.onEnv p false f).onEnv p true f) d).port p =
      { d.port p with inE := f (d.port p).inE, outE := f (d.port p).outE } := by
  have other (e : Dev) {q : Nat} (n : p ≠ q) : ((e.onEnv q false f).onEnv q true f).port p = e.port p :=
    (onEnv_port_ne _ _ n).trans (onEnv_port_ne _ _ n)
  induction l generalizing d with
  | nil => simp at hp
  | cons q l ih =>
    obtain ⟨fresh, once⟩ := List.nodup_cons.1 once
    rw [List.foldl_cons]
    by_cases same : p = q
    case pos =>
      subst same
      refine Eq.trans ?_ (onEnv_both_port d f p)
      exact List.foldlRecOn (motive := fun e => e.port p = ((d.onEnv p false f).onEnv p true f).port p) l _ rfl
        fun e he r hr => (other e fun n => fresh (by rwa [n])).trans he
    case neg => rw [ih _ once ((List.mem_cons.1 hp).resolve_left same), other d same]

theorem port_onEnvs {p : Nat} (hp : p ∈ grpPorts g) :
    (d.onEnvs g f).port p = { d.port p with inE := f (d.port p).inE, outE := f (d.port p).outE } :=
  port_foldl_onEnv d f (by simp [grpPorts]) hp

end

/-! ## A lost clock (R270) -/

/-- The status of a group whose clock is lost. -/
def clockStatus (d : Dev) (g : Nat) : Dev := ((d.count (R.GRP_CLK_LOST_COUNT g)).raise (F.clkLost g)).setFld (R.GRP_STAT_SYNC_STATE g) 3

/-- A group whose clock is lost, before its envelopes fall. -/
def clockGone (d : Dev) (g : Nat) : Dev :=
  (clockStatus d g).setGrp g { (clockStatus d g).grp g with good := 0, measure := true }

section
variable (d : Dev) (g : Nat)

theorem clockStatus_sync : (clockStatus d g).fld (R.GRP_STAT_SYNC_STATE g) = 3 :=
  fld_setFld_self _ (R.GRP_STAT_SYNC_STATE g) 3 (by simp [R.GRP_STAT_SYNC_STATE])

theorem clockStatus_count : (clockStatus d g).fld (R.GRP_CLK_LOST_COUNT g) = min (d.fld (R.GRP_CLK_LOST_COUNT g) + 1) 0xFFFF := by
  rw [clockStatus, fld_setFld_of_addr _ _ (by simp [R.GRP_CLK_LOST_COUNT, R.GRP_STAT_SYNC_STATE]), fld_raise]
  exact fld_addFld_self d (R.GRP_CLK_LOST_COUNT g) 1 (by simp [R.GRP_CLK_LOST_COUNT])

theorem clockStatus_control : (clockStatus d g).fld (R.GRP_CTL_CTL g) = d.fld (R.GRP_CTL_CTL g) := by
  rw [clockStatus, fld_setFld_of_addr _ _ (by simp [R.GRP_CTL_CTL, R.GRP_STAT_SYNC_STATE]), fld_raise,
    fld_count_of_addr _ _ (by simp [R.GRP_CLK_LOST_COUNT, R.GRP_CTL_CTL])]

theorem clockStatus_port (p : Nat) : (clockStatus d g).port p = d.port p := by simp [clockStatus]

theorem clockGone_tabs : (clockGone d g).tabs = d.tabs := by simp [clockGone, clockStatus]

theorem clockGone_good : ((clockGone d g).grp g).good = 0 := by rw [clockGone, grp_setGrp_self]

variable {d g}

theorem clkLost_of_clock (awake : d.awake = true) (works : d.works (grpBase g) = true) (ext : GFmt.clkSrc (d.gFmt g) = 2)
    (used : GFmt.slots (d.gFmt g) ≠ 0) (clock : d.fld (R.GRP_STAT_SYNC_STATE g) ≠ 3) :
    d.clkLost g = (clockGone d g).onEnvs g (Env.startFall (fadeLen (d.fld (R.GRP_CTL_CTL g))) true) := by
  rw [← clockStatus_control]
  exact if_pos (by simp [awake, works, ext, used, clock])

end

/-! ## Rates (R272) -/

theorem rateStat_apart (g : Nat) :
    apart (R.GRP_STAT_RATE_OUT g) (R.GRP_STAT_DEV g) ∧ apart (R.GRP_STAT_LOCKED g) (R.GRP_STAT_DEV g) ∧
    apart (R.GRP_STAT_LOCKED g) (R.GRP_STAT_RATE_OUT g) ∧ apart (R.GRP_STAT_DEV g) (R.GRP_STAT_RATE_OUT g) := by
  simp [apart, R.GRP_STAT_RATE_OUT, R.GRP_STAT_DEV, R.GRP_STAT_LOCKED]

/-- DEV shows a deviation. -/
def devShown (d : Dev) (g : Nat) (dev : Int) : Dev := d.setFld (R.GRP_STAT_DEV g) (tc 16 (satS 16 dev))

/-- A deviation beyond 1,000 ppm is reported. -/
def rateOut (d : Dev) (g : Nat) (dev : Int) : Dev := ((devShown d g dev).raise (F.grpRateChg g)).setFld (R.GRP_STAT_RATE_OUT g) 1

/-- A synchronous external group out of its window is free. -/
def rateFreed (d : Dev) (g : Nat) (dev : Int) : Dev :=
  ((rateOut d g dev).setGrp g { (rateOut d g dev).grp g with recover := false }).declare g

section
variable (d : Dev) (g : Nat) (dev : Int)

theorem devShown_dev : (devShown d g dev).fld (R.GRP_STAT_DEV g) = tc 16 (satS 16 dev) :=
  (fld_setFld_self d (R.GRP_STAT_DEV g) _ (by simp [R.GRP_STAT_DEV])).trans (Nat.mod_eq_of_lt (tc_lt 16 _))

theorem devShown_rateOut : (devShown d g dev).fld (R.GRP_STAT_RATE_OUT g) = d.fld (R.GRP_STAT_RATE_OUT g) :=
  fld_setFld_ne d _ _ _ (by simp [R.GRP_STAT_DEV]) (rateStat_apart g).2.2.2

theorem rateOut_dev : (rateOut d g dev).fld (R.GRP_STAT_DEV g) = tc 16 (satS 16 dev) := by
  rw [rateOut, fld_setFld_ne _ _ _ _ (by simp [R.GRP_STAT_RATE_OUT]) (rateStat_apart g).1, fld_raise, devShown_dev]

theorem rateOut_rateOut : (rateOut d g dev).fld (R.GRP_STAT_RATE_OUT g) = 1 :=
  fld_setFld_self _ (R.GRP_STAT_RATE_OUT g) 1 (by simp [R.GRP_STAT_RATE_OUT])

theorem rateOut_gFmt : (rateOut d g dev).gFmt g = d.gFmt g := by
  rw [Dev.gFmt, rateOut, fld_setFld_of_addr _ _ (by simp [R.GRP_FMT_FMT, R.GRP_STAT_RATE_OUT]), fld_raise, devShown,
    fld_setFld_of_addr _ _ (by simp [R.GRP_FMT_FMT, R.GRP_STAT_DEV]), Dev.gFmt]

theorem rateOut_memory : (rateOut d g dev).tabs = d.tabs ∧ (rateOut d g dev).hostMem = d.hostMem := by simp [rateOut, devShown]

theorem fld_declare {f : Field} (h : apart (R.GRP_STAT_LOCKED g) f) : (d.declare g).fld f = d.fld f :=
  fld_setFld_ne _ _ _ _ (by simp [R.GRP_STAT_LOCKED]) h

theorem rateFreed_dev : (rateFreed d g dev).fld (R.GRP_STAT_DEV g) = tc 16 (satS 16 dev) := by
  rw [rateFreed, fld_declare _ _ (rateStat_apart g).2.1, fld_setGrp, rateOut_dev]

theorem rateFreed_rateOut : (rateFreed d g dev).fld (R.GRP_STAT_RATE_OUT g) = 1 := by
  rw [rateFreed, fld_declare _ _ (rateStat_apart g).2.2.1, fld_setGrp, rateOut_rateOut]

theorem rateFreed_memory : (rateFreed d g dev).tabs = d.tabs ∧ (rateFreed d g dev).hostMem = d.hostMem := by
  simp [rateFreed, Dev.declare, rateOut_memory]

/-- No external group with its rate out of the window is declared locked (R259). -/
theorem declare_of_rateOut (ext : GFmt.clkSrc (d.gFmt g) = 2) (out : d.flag (R.GRP_STAT_RATE_OUT g) = true) :
    (d.declare g).fld (R.GRP_STAT_LOCKED g) = 0 := by
  refine (fld_setFld_self d (R.GRP_STAT_LOCKED g) _ (by simp [R.GRP_STAT_LOCKED])).trans ?_
  simp [ext, out, b2n]

theorem rateFreed_locked (ext : GFmt.clkSrc (d.gFmt g) = 2) : (rateFreed d g dev).fld (R.GRP_STAT_LOCKED g) = 0 := by
  refine declare_of_rateOut _ g ?_ ?_
  · rw [Dev.gFmt, fld_setGrp, ← Dev.gFmt, rateOut_gFmt, ext]
  · rw [flag_setGrp, Dev.flag, rateOut_rateOut]
    rfl

variable {d g dev} (works : d.works (grpBase g) = true) (used : GFmt.slots (d.gFmt g) ≠ 0)
include works used

theorem rateWindow_within (near : dev.natAbs ≤ 1000) : d.rateWindow g dev = devShown d g dev :=
  (if_neg (by simp [works, used])).trans (if_neg (Nat.not_lt.2 near))

theorem rateWindow_of_other (far : 1000 < dev.natAbs) (other : ¬ (GFmt.clkSrc (d.gFmt g) = 2 ∧ GFmt.sync (d.gFmt g) = true)) :
    d.rateWindow g dev = rateOut d g dev :=
  (if_neg (by simp [works, used])).trans ((if_pos far).trans (if_neg other))

/-- Of a synchronous external group directions fall silent beside. -/
theorem rateWindow_of_sync (far : 1000 < dev.natAbs) (sync : GFmt.clkSrc (d.gFmt g) = 2 ∧ GFmt.sync (d.gFmt g) = true) {α : Type}
    (view : Dev → α) (h : ∀ d p x, view (Dev.setPort d p x) = view d) : view (d.rateWindow g dev) = view (rateFreed d g dev) := by
  refine (congrArg view ((if_neg (by simp [works, used])).trans ((if_pos far).trans (if_pos sync)))).trans ?_
  refine foldl_keeps view (fun e p => foldl_keeps view (fun e out => ?_) _ e) _ (rateFreed d g dev)
  split
  · rfl
  · exact h ..

end

section
variable {d : Dev} {g : Nat} (works : d.works (grpBase g) = true) (out : d.flag (R.GRP_STAT_RATE_OUT g) = true)
include works out

theorem rateRecover_of_sync (sync : GFmt.clkSrc (d.gFmt g) = 2 ∧ GFmt.sync (d.gFmt g) = true) :
    d.rateRecover g = d.setGrp g { d.grp g with recover := true } :=
  (if_neg (by simp [works, out])).trans (if_pos sync)

theorem rateRecover_of_other (other : ¬ (GFmt.clkSrc (d.gFmt g) = 2 ∧ GFmt.sync (d.gFmt g) = true)) :
    d.rateRecover g = d.setFld (R.GRP_STAT_RATE_OUT g) 0 :=
  (if_neg (by simp [works, out])).trans (if_neg other)

end

/-- Settles O34: a frame by what it shows of its group, the other commands by what each makes of the group's status and envelopes. -/
theorem framesClocksAndRatesOfGroups : Obligations.FramesClocksAndRatesOfGroups := by
  unfold Obligations.FramesClocksAndRatesOfGroups
  refine ⟨fun s g f awake works fmt ctl running used => ?frame, fun s g lost right running => ?resync, fun s g awake works ext used clock => ?clock,
    fun s g dev active works used => ?rate, fun s g active works out => ⟨fun ext sync => ?marks, fun other => ?clears⟩⟩
  case frame =>
    have shown := tdmFrame_frameView g.isLt ⟨awake, works, fmt, ctl, running, used⟩ f
    intro ext wrong gone
    have isWrong : frameWrong (s.dev.gFmt g.val) f = true ↔ wrong := frameWrong_iff ..
    have isGone : frameGone (s.dev.gFmt g.val) f = true ↔ gone := frameGone_iff ..
    have good := congrArg FrameView.good shown
    have errors := congrArg FrameView.errors shown
    refine ⟨_, makes_of _ (exec_tdmFrame g f s) rfl, congrArg FrameView.frame shown, fun right => good.trans (if_pos ?_),
      fun bad => good.trans (if_neg ?_),
      fun bad => errors.trans (if_pos (isWrong.2 bad)), fun right => errors.trans (if_neg (mt isWrong.1 right)), fun h other => ?_,
      congrArg FrameView.top shown, congrArg FrameView.tabs shown, congrArg FrameView.hostMem shown⟩
    · rw [← isWrong, ← isGone] at right
      simp [right]
    · rw [← isWrong, ← isGone] at bad
      rcases bad with bad | bad <;> simp [bad]
    · have := congrFun (congrArg FrameView.others shown) h
      simpa [frameView, framed, other] using this
  case resync => exact makes_of _ (exec_groupResync g s) (congrArg Dev.refFollow (resync_of_right lost right running))
  case clock =>
    refine ⟨s.dev.clkLost g.val, makes_of _ (exec_clkLost g s) rfl, ?_⟩
    rw [clkLost_of_clock awake works ext used clock]
    have fields (f : Field) : ((clockGone s.dev g.val).onEnvs g.val (Env.startFall (fadeLen (s.dev.fld (R.GRP_CTL_CTL g.val))) true)).fld f =
        (clockStatus s.dev g.val).fld f :=
      (onEnvs_keeps _ _ _ (·.fld f) fun _ _ _ => fld_setPort ..).trans (fld_setGrp ..)
    refine ⟨(fields _).trans (clockStatus_sync ..), ?_, (fields _).trans (clockStatus_count ..), fun p hp => ?_, ?_⟩
    · rw [onEnvs_keeps _ _ _ (fun e => (e.grp g.val).good) fun _ _ _ => by rw [grp_setPort], clockGone_good]
    · rw [port_onEnvs _ _ _ hp, clockGone, port_setGrp, clockStatus_port]
      exact ⟨rfl, rfl⟩
    · rw [onEnvs_keeps _ _ _ Dev.tabs fun _ _ _ => rfl, clockGone_tabs]
  case rate =>
    refine ⟨s.dev.rateWindow g.val dev, makes_ownMeasure (exec_rateChg g dev s) active rfl, ?_⟩
    rcases Nat.lt_or_ge 1000 dev.natAbs with far | near
    case inr =>
      rw [rateWindow_within works used near]
      have off : ¬ 1000 < dev.natAbs := Nat.not_lt.2 near
      exact ⟨devShown_dev .., fun far => absurd far off, fun _ => devShown_rateOut .., fun far => absurd far off, rfl, rfl⟩
    case inl =>
      have off : ¬ dev.natAbs ≤ 1000 := Nat.not_le.2 far
      have reports {d : Dev} {f : Field} (h : d.fld f = 1) : d.flag f = true := by rw [Dev.flag, h]; rfl
      by_cases sync : GFmt.clkSrc (s.dev.gFmt g.val) = 2 ∧ GFmt.sync (s.dev.gFmt g.val) = true
      case pos =>
        have fields (f : Field) : (s.dev.rateWindow g.val dev).fld f = (rateFreed s.dev g.val dev).fld f :=
          rateWindow_of_sync works used far sync (·.fld f) fun _ _ _ => fld_setPort ..
        have tabs := rateWindow_of_sync works used far sync Dev.tabs fun _ _ _ => rfl
        have host := rateWindow_of_sync works used far sync Dev.hostMem fun _ _ _ => rfl
        obtain ⟨keptTabs, keptHost⟩ := rateFreed_memory s.dev g.val dev
        refine ⟨(fields _).trans (rateFreed_dev ..), fun _ => reports ((fields _).trans (rateFreed_rateOut ..)),
          fun near => absurd near off, fun _ ext _ => ?_,
          tabs.trans keptTabs, host.trans keptHost⟩
        rw [Dev.flag, fields, rateFreed_locked _ _ _ ext]
        rfl
      case neg =>
        rw [rateWindow_of_other works used far sync]
        exact ⟨rateOut_dev .., fun _ => reports (rateOut_rateOut ..), fun near => absurd near off, fun _ ext out => absurd ⟨ext, out⟩ sync,
          rateOut_memory ..⟩
  case marks => exact makes_ownMeasure (exec_groupRateRecover g s) active (rateRecover_of_sync works out ⟨ext, sync⟩)
  case clears => exact makes_ownMeasure (exec_groupRateRecover g s) active (rateRecover_of_other works out (by rwa [not_and_or, Bool.not_eq_true]))

end Sys2Proof.Proofs
end

section
/-! SUPPORT. The running state of the MACs (09): what is read of it after a write, and what counters, events and free values leave alone. -/
namespace Sys2Proof.Proofs
open Sys2Proof.Machine Sys2Proof.Laws

/-! ## A key written twice -/

section
variable {α : Type} (k : Nat) (v : α) (l : SMap α)

theorem filter_smInsert : (smInsert k v l).filter (fun e => e.1 != k) = l.filter (fun e => e.1 != k) := by
  induction l with
  | nil => simp [smInsert]
  | cons e r ih =>
    obtain ⟨j, w⟩ := e
    rw [smInsert]
    split
    · simp [List.filter_cons]
    · simp only [List.filter_cons, ih]

/-- The second of two writes of a key stands alone. -/
theorem smSet_smSet_self [DecidableEq α] (d : Nat → α) (w : α) : smSet d (smSet d l k v) k w = smSet d l k w := by
  have rest : (smSet d l k v).filter (fun e => e.1 != k) = l.filter (fun e => e.1 != k) := by
    unfold smSet
    split <;> simp [filter_smInsert]
  rw [smSet, rest, smSet]

end

/-! ## Writes of a MAC -/

section
variable (d : Dev) (m : Nat) (x : EthM)

@[simp] theorem mac_setMac_self : (d.setMac m x).mac m = x := smGet_smSet_self ..

theorem mac_of_eth {d e : Dev} (h : e.eth = d.eth) (m : Nat) : e.mac m = d.mac m := by rw [Dev.mac, h, Dev.mac]

theorem setMac_setMac_self (y : EthM) : (d.setMac m x).setMac m y = d.setMac m y := by
  simp only [Dev.setMac, smSet_smSet_self]

@[simp] theorem reg_setMac (a : Nat) : (d.setMac m x).reg a = d.reg a := (rfl)
@[simp] theorem fld_setMac (f : Field) : (d.setMac m x).fld f = d.fld f := (rfl)
@[simp] theorem flag_setMac (f : Field) : (d.setMac m x).flag f = d.flag f := (rfl)
@[simp] theorem regs_setMac : (d.setMac m x).regs = d.regs := (rfl)
@[simp] theorem hdr_setMac : (d.setMac m x).hdr = d.hdr := (rfl)

theorem raise_setMac (f : Flag) : (d.setMac m x).raise f = (d.raise f).setMac m x := by
  have enabled : (d.setMac m x).effEn f.base = d.effEn f.base := rfl
  unfold Dev.raise
  rw [enabled]
  split <;> rfl

variable (f : Flag) (b : Bool) (g : Field) (v n : Nat) (l : List (Field × Nat))

@[simp] theorem mac_raise : (d.raise f).mac m = d.mac m := mac_of_eth (raise_eth ..) m
@[simp] theorem mac_raiseIf : (d.raiseIf b f).mac m = d.mac m := mac_of_eth (raiseIf_eth ..) m
@[simp] theorem mac_setFld : (d.setFld g v).mac m = d.mac m := (rfl)
@[simp] theorem mac_setFlds : (d.setFlds l).mac m = d.mac m := mac_of_eth (setFlds_eth ..) m
@[simp] theorem mac_drew : (d.drew n).mac m = d.mac m := (rfl)

end

/-! ## Counters (R306) -/

/-- A counter of a MAC. -/
def counter (d : Dev) (m k : Nat) : Nat := smGet (fun _ => 0) (d.mac m).cnt k

section
variable (d : Dev) (m k n : Nat)

theorem counter_of_mac {d e : Dev} {m : Nat} (h : e.mac m = d.mac m) (k : Nat) : counter e m k = counter d m k := by rw [counter, h, counter]

theorem cnt_eq : d.cnt m k n = d.setMac m { d.mac m with
    cnt := smSet (fun _ => 0) (d.mac m).cnt k (min (counter d m k + n) (2 ^ 64 - 1)) } := (rfl)

@[simp] theorem counter_cnt_self : counter (d.cnt m k n) m k = min (counter d m k + n) (2 ^ 64 - 1) := by
  rw [counter, cnt_eq, mac_setMac_self, smGet_smSet_self]

theorem counter_cnt_ne {j : Nat} (h : j ≠ k) : counter (d.cnt m k n) m j = counter d m j := by
  rw [counter, cnt_eq, mac_setMac_self, smGet_smSet_ne _ _ _ h, counter]

/-- A MAC written back as it stands makes no difference to what counts in it afterwards. -/
theorem cnt_setMac_mac : (d.setMac m (d.mac m)).cnt m k n = d.cnt m k n := by
  rw [cnt_eq, mac_setMac_self, counter_of_mac (mac_setMac_self d m _), setMac_setMac_self, cnt_eq]

@[simp] theorem fld_cnt (f : Field) : (d.cnt m k n).fld f = d.fld f := (rfl)
@[simp] theorem flag_cnt (f : Field) : (d.cnt m k n).flag f = d.flag f := (rfl)
@[simp] theorem fifo_cnt : ((d.cnt m k n).mac m).fifo = (d.mac m).fifo := by simp [cnt_eq]

end

/-! ## All but the counters -/

/-- A MAC without its counters, and the part's registers, tables, memories, streams and state. -/
def macView (m : Nat) (d : Dev) : EthM × (SMap Word × Grade) × SMap Tab × Top × (List Host.Cell × List Host.Cell) × Str :=
  ({ d.mac m with cnt := [] }, (d.regs, d.grade), d.tabs, d.top, (d.hostMem, d.dram), d.str)

section
variable (d : Dev) (m : Nat)

@[simp] theorem macView_cnt (k n : Nat) : macView m (d.cnt m k n) = macView m d := by
  rw [cnt_eq, macView, mac_setMac_self]
  rfl

@[simp] theorem macView_drew (n : Nat) : macView m (d.drew n) = macView m d := (rfl)

@[simp] theorem macView_raiseIf (b : Bool) (f : Flag) : macView m (d.raiseIf b f) = macView m d := by simp [macView]

variable {d m} {e : Dev} (same : macView m e = macView m d)
include same

theorem regs_of_macView : e.regs = d.regs := congrArg (·.2.1.1) same
theorem grade_of_macView : e.grade = d.grade := congrArg (·.2.1.2) same
theorem tabs_of_macView : e.tabs = d.tabs := congrArg (·.2.2.1) same
theorem top_of_macView : e.top = d.top := congrArg (·.2.2.2.1) same
theorem hostMem_of_macView : e.hostMem = d.hostMem := congrArg (·.2.2.2.2.1.1) same
theorem dram_of_macView : e.dram = d.dram := congrArg (·.2.2.2.2.1.2) same
theorem str_of_macView : e.str = d.str := congrArg (·.2.2.2.2.2) same
theorem fifo_of_macView : (e.mac m).fifo = (d.mac m).fifo := congrArg (·.1.fifo) same
theorem hold_of_macView : (e.mac m).hold = (d.mac m).hold := congrArg (·.1.hold) same
theorem filt_of_macView : (e.mac m).filt = (d.mac m).filt := congrArg (·.1.filt) same
theorem fld_of_macView (f : Field) : e.fld f = d.fld f := fld_of_regs (regs_of_macView same) (grade_of_macView same) f
theorem flag_of_macView (f : Field) : e.flag f = d.flag f := flag_of_regs (regs_of_macView same) (grade_of_macView same) f

end

end Sys2Proof.Proofs
end

section
/-! The receive path of a MAC (09 R287 to R292): the checks of a frame, and where one that passes goes. Settles O42. -/
namespace Sys2Proof.Proofs
open Sys2Proof.Machine Sys2Proof.Laws

theorem exec_ethRxFrame (m : Fin 2) (f : RxFrame) (s : State) : exec (.ethRxFrame m f) s = s.act (·.ethRx m.val f) := rfl

theorem ethTake_of_off {d : Dev} {m : Nat} (off : d.macOn m = false) (f : RxFrame) : d.ethTake m f = d := if_pos (by simp [off])

theorem ethRx_of_loop {d : Dev} {m : Nat} (loop : d.flag (R.ETH_MODE_LOOP m) = true) (f : RxFrame) : d.ethRx m f = d := if_pos loop

theorem ethRx_of_lane {d : Dev} {m : Nat} (lane : d.flag (R.ETH_MODE_LOOP m) = false) (f : RxFrame) : d.ethRx m f = d.ethTake m f :=
  if_neg (by simp [lane])

/-! ## The codewords of a frame (R284) -/

/-- The part once the codewords that a frame brings have been counted. -/
def codewordsCounted (d : Dev) (m : Nat) (f : RxFrame) : Dev :=
  if d.fecOn m then ((d.drew 1).cnt m Cnt.fecCorr f.corr).cnt m Cnt.fecUncorr f.uncorr else d.drew 1

/-- The part when the checks of a frame begin. -/
def frameArrived (d : Dev) (m : Nat) (f : RxFrame) : Dev :=
  (codewordsCounted d m f).raiseIf (d.fecOn m && decide (0 < f.uncorr)) (F.fecUncorr m)

section
variable (d : Dev) (m : Nat) (f : RxFrame)

@[simp] theorem macView_frameArrived : macView m (frameArrived d m f) = macView m d := by
  rw [frameArrived, macView_raiseIf, codewordsCounted]
  split <;> simp

theorem counter_frameArrived (k : Nat) : counter (frameArrived d m f) m k = counter (codewordsCounted d m f) m k :=
  counter_of_mac (mac_raiseIf ..) k

theorem counter_frameArrived_ne {k : Nat} (corr : k ≠ Cnt.fecCorr) (uncorr : k ≠ Cnt.fecUncorr) :
    counter (frameArrived d m f) m k = counter d m k := by
  rw [counter_frameArrived, codewordsCounted]
  split
  · rw [counter_cnt_ne _ _ _ _ uncorr, counter_cnt_ne _ _ _ _ corr]
    rfl
  · rfl

theorem counter_frameArrived_fec (on : d.fecOn m = true) :
    counter (frameArrived d m f) m Cnt.fecCorr = min (counter d m Cnt.fecCorr + f.corr) (2 ^ 64 - 1) ∧
      counter (frameArrived d m f) m Cnt.fecUncorr = min (counter d m Cnt.fecUncorr + f.uncorr) (2 ^ 64 - 1) := by
  rw [counter_frameArrived, counter_frameArrived, codewordsCounted, if_pos on]
  constructor
  · rw [counter_cnt_ne _ _ _ _ (by decide), counter_cnt_self]
    rfl
  · rw [counter_cnt_self, counter_cnt_ne _ _ _ _ (by decide)]
    rfl

end

/-! ## The checks (R287) -/

/-- A frame without its FCS. -/
def frameBody (f : RxFrame) : List Nat := f.bytes.take (f.bytes.length - 4)

/-- The counter of the first check that a frame fails. -/
def failedCheck (d : Dev) (m : Nat) (f : RxFrame) : Option Nat :=
  if (f.codeErr || (d.fecOn m && f.touched)) = true then some Cnt.rxCodeErr
  else if f.bytes.length ≤ 63 then some Cnt.rxRunt
  else if d.fld (R.ETH_MAXFRM_MAXFRM m) < f.bytes.length then some Cnt.rxOversize
  else if leBytes 4 (fcsOf (frameBody f)) ≠ f.bytes.drop (f.bytes.length - 4) then some Cnt.rxFcsErr
  else none

/-- The stamp of a frame (R303). -/
def arrivalStamp (d : Dev) (m : Nat) (f : RxFrame) : Nat :=
  (d.ethStamp m (-(f.ago : Int)) (-(sx 16 (d.fld (R.ETH_TS_LAT_RX_LAT m))))).1

section
variable {d : Dev} {m : Nat} (f : RxFrame)

/-- At a working MAC a frame counts in the counter of the first check it fails, or is accepted. -/
theorem ethTake_of_on (on : d.macOn m = true) : d.ethTake m f = match failedCheck d m f with
    | some k => (frameArrived d m f).cnt m k 1
    | none => ((frameArrived d m f).rxAccept m (frameBody f) (arrivalStamp d m f)).txKick m := by
  have maxFrame : (frameArrived d m f).fld (R.ETH_MAXFRM_MAXFRM m) = d.fld (R.ETH_MAXFRM_MAXFRM m) :=
    fld_of_macView (macView_frameArrived d m f) _
  have checks : d.ethTake m f =
      if (f.codeErr || (d.fecOn m && f.touched)) = true then (frameArrived d m f).cnt m Cnt.rxCodeErr 1
      else if f.bytes.length ≤ 63 then (frameArrived d m f).cnt m Cnt.rxRunt 1
      else if (frameArrived d m f).fld (R.ETH_MAXFRM_MAXFRM m) < f.bytes.length then (frameArrived d m f).cnt m Cnt.rxOversize 1
      else if (leBytes 4 (fcsOf (frameBody f)) != f.bytes.drop (f.bytes.length - 4)) = true then (frameArrived d m f).cnt m Cnt.rxFcsErr 1
      else ((frameArrived d m f).rxAccept m (frameBody f) (arrivalStamp d m f)).txKick m := if_neg (by simp [on])
  rw [checks, maxFrame, failedCheck]
  simp only [bne_iff_ne]
  split_ifs <;> rfl

theorem failedCheck_counts {k : Nat} (fails : failedCheck d m f = some k) : k ≠ Cnt.fecCorr ∧ k ≠ Cnt.fecUncorr := by
  unfold failedCheck at fails
  split_ifs at fails <;> cases fails <;> decide

end

/-! ## Where an accepted frame goes (R290 to R292) -/

/-- The part once an accepted frame has been counted. -/
def frameCounted (d : Dev) (m : Nat) (l : List Nat) : Dev :=
  let d := (d.cnt m Cnt.rxOk 1).cnt m Cnt.rxOctets (l.length + 4)
  if l.take 6 == List.replicate 6 0xFF then d.cnt m Cnt.rxBcast 1 else if bitAt ((l.take 6).getD 0 0) 0 then d.cnt m Cnt.rxMcast 1 else d

section
variable (d : Dev) (m : Nat) (l : List Nat)

@[simp] theorem macView_frameCounted : macView m (frameCounted d m l) = macView m d := by
  simp only [frameCounted]
  split_ifs <;> simp

theorem counter_frameCounted_filtered : counter (frameCounted d m l) m Cnt.rxFiltered = counter d m Cnt.rxFiltered := by
  have other {k : Nat} (h : Cnt.rxFiltered ≠ k) (e : Dev) (n : Nat) : counter (e.cnt m k n) m Cnt.rxFiltered = counter e m Cnt.rxFiltered :=
    counter_cnt_ne _ _ _ _ h
  simp only [frameCounted]
  split_ifs <;> simp only [other (show Cnt.rxFiltered ≠ Cnt.rxOk by decide), other (show Cnt.rxFiltered ≠ Cnt.rxOctets by decide),
    other (show Cnt.rxFiltered ≠ Cnt.rxBcast by decide), other (show Cnt.rxFiltered ≠ Cnt.rxMcast by decide)]

variable {d m} in
/-- The tag of an address rests on the filter and the registers alone. -/
theorem ethTag_of_macView {e : Dev} (same : macView m e = macView m d) (da : List Nat) : ethTag e m da = ethTag d m da := by
  simp only [ethTag, filt_of_macView same, flag_of_macView same]

end

section
variable {d : Dev} {m : Nat} {l : List Nat} (data : ofBe (slice l 12 2) ≠ 0x8808) (ts : Nat)
include data

theorem rxAccept_of_host (host : (ethTag d m (l.take 6)).1 = 1) : d.rxAccept m l ts =
    (frameCounted d m l).fifoPush m ⟨l, ts, d.fld (R.ETH_TS_CTL_TB m), (ethTag d m (l.take 6)).2⟩ := by
  have tag := ethTag_of_macView (macView_frameCounted d m l) (l.take 6)
  have base := fld_of_macView (macView_frameCounted d m l) (R.ETH_TS_CTL_TB m)
  rw [← base, ← tag]
  rw [← tag] at host
  refine (if_neg data).trans ((if_neg ?_).trans (if_pos host))
  exact fun untagged => absurd (untagged.symm.trans host) (by decide)

theorem rxAccept_of_untagged (untagged : (ethTag d m (l.take 6)).1 = 0) : d.rxAccept m l ts = (frameCounted d m l).cnt m Cnt.rxFiltered 1 := by
  rw [← ethTag_of_macView (macView_frameCounted d m l)] at untagged
  exact (if_neg data).trans (if_pos untagged)

end

/-! ## The host FIFO (R292) -/

@[simp] theorem setFifo_fifo (d : Dev) (m : Nat) (l : List EthFrame) : ((d.setFifo m l).mac m).fifo = l := by
  simp only [Dev.setFifo]
  split_ifs <;> rw [mac_setMac_self]

theorem fifoPush_of_room {d : Dev} {m : Nat} {f : EthFrame} (room : (d.mac m).bytesIn + f.bytes.length + 4 ≤ 262144) :
    d.fifoPush m f = d.setFifo m ((d.mac m).fifo ++ [f]) := if_neg (Nat.not_lt.2 room)

section
variable {d e : Dev} {m : Nat} {l : List Nat} (same : macView m e = macView m d) (data : ofBe (slice l 12 2) ≠ 0x8808)
include same data

/-- A HOST frame that fits is last in the FIFO. -/
theorem fifo_rxAccept_of_host (host : (ethTag d m (l.take 6)).1 = 1) (room : (d.mac m).bytesIn + l.length + 4 ≤ 262144) (ts : Nat) :
    ((e.rxAccept m l ts).mac m).fifo =
      (d.mac m).fifo ++ [⟨l, ts, d.fld (R.ETH_TS_CTL_TB m), (ethTag d m (l.take 6)).2⟩] := by
  have fifo := fifo_of_macView ((macView_frameCounted e m l).trans same)
  have held : ((frameCounted e m l).mac m).bytesIn = (d.mac m).bytesIn := by rw [EthM.bytesIn, fifo, EthM.bytesIn]
  have tag := ethTag_of_macView same (l.take 6)
  rw [rxAccept_of_host data ts (by rw [tag, host]), fifoPush_of_room (by rw [held]; exact room), setFifo_fifo, fifo, tag, fld_of_macView same]

variable (untagged : (ethTag d m (l.take 6)).1 = 0) (ts : Nat)
include untagged

theorem fifo_rxAccept_of_untagged : ((e.rxAccept m l ts).mac m).fifo = (d.mac m).fifo := by
  rw [rxAccept_of_untagged data ts (by rw [ethTag_of_macView same, untagged]), fifo_cnt]
  exact fifo_of_macView ((macView_frameCounted ..).trans same)

theorem filtered_rxAccept_of_untagged :
    counter (e.rxAccept m l ts) m Cnt.rxFiltered = min (counter e m Cnt.rxFiltered + 1) (2 ^ 64 - 1) := by
  rw [rxAccept_of_untagged data ts (by rw [ethTag_of_macView same, untagged]), counter_cnt_self, counter_frameCounted_filtered]

end

/-- Settles O42: a frame that fails a check by the check's counter, one that passes by where its tag sends it. -/
theorem receivedFramesAreCheckedThenSorted : Obligations.ReceivedFramesAreCheckedThenSorted := by
  unfold Obligations.ReceivedFramesAreCheckedThenSorted
  intro s m f
  refine ⟨fun rests => makes_of _ (exec_ethRxFrame m f s) ?rests, fun on lane => ?_⟩
  case rests =>
    cases lane : s.dev.flag (R.ETH_MODE_LOOP m.val) with
    | true => exact ethRx_of_loop lane f
    | false => exact (ethRx_of_lane lane f).trans (ethTake_of_off (rests.resolve_right (by simp [lane])) f)
  have acts {e : Dev} (h : s.dev.ethTake m.val f = e) : Makes (.ethRxFrame m f) s e :=
    makes_of _ (exec_ethRxFrame m f s) ((ethRx_of_lane lane f).trans h)
  have arrived := macView_frameArrived s.dev m.val f
  refine ⟨fun k fails => ?drops, fun passes => ?passes⟩
  case drops =>
    change failedCheck s.dev m.val f = some k at fails
    obtain ⟨notCorr, notUncorr⟩ := failedCheck_counts f fails
    have same := (macView_cnt (frameArrived s.dev m.val f) m.val k 1).trans arrived
    have kept {j : Nat} (h : j ≠ k) := counter_cnt_ne (frameArrived s.dev m.val f) m.val k 1 h
    refine ⟨(frameArrived s.dev m.val f).cnt m.val k 1, acts (by rw [ethTake_of_on f on, fails]), ?_,
      fun j other corr uncorr => (kept other).trans (counter_frameArrived_ne _ _ f corr uncorr), fun fec => ?_,
      fifo_of_macView same, hold_of_macView same, regs_of_macView same, tabs_of_macView same, top_of_macView same,
      hostMem_of_macView same, dram_of_macView same, str_of_macView same⟩
    · exact (counter_cnt_self ..).trans (by rw [counter_frameArrived_ne _ _ f notCorr notUncorr]; rfl)
    · obtain ⟨corr, uncorr⟩ := counter_frameArrived_fec s.dev m.val f fec
      exact ⟨(kept notCorr.symm).trans corr, (kept notUncorr.symm).trans uncorr⟩
  case passes =>
    change failedCheck s.dev m.val f = none at passes
    refine ⟨frameArrived s.dev m.val f, arrivalStamp s.dev m.val f, acts (by rw [ethTake_of_on f on, passes]; rfl),
      regs_of_macView arrived, tabs_of_macView arrived, top_of_macView arrived, hostMem_of_macView arrived, fifo_of_macView arrived,
      fun j corr uncorr => counter_frameArrived_ne _ _ f corr uncorr, fun data host room => fifo_rxAccept_of_host arrived data host room _,
      fun data untagged => ⟨?filtered, fifo_rxAccept_of_untagged arrived data untagged _⟩⟩
    refine (filtered_rxAccept_of_untagged arrived data untagged _).trans ?_
    rw [counter_frameArrived_ne _ _ f (by decide) (by decide)]
    rfl

end Sys2Proof.Proofs
end

section
/-! SUPPORT. Registers of the MACs with an effect, and their links (09 R281, R283, R289, R300, R306). -/
namespace Sys2Proof.Proofs
open Sys2Proof.Machine Sys2Proof.Laws

section
variable {i : Instr} {s : State} {b : Nat} {f : Dev → Dev} (means : exec i s = s.act (fun d => d.ifOpen b f))
include means

/-- A command of a register that does not respond changes nothing (R37). -/
theorem makes_of_closed (closed : s.dev.opens b = false) : Makes i s s.dev := makes_of _ means (if_neg (by simp [closed]))

theorem makes_of_open (responds : s.dev.opens b = true) {d : Dev} (e : f s.dev = d) : Makes i s d := makes_of _ means ((if_pos responds).trans e)

end

theorem exec_ethModeWrite (m : Fin 2) (v : Word) (s : State) :
    exec (.ethModeWrite m v) s = s.act (fun d => d.ifOpen (ethBase m.val) (·.ethModeWrite m.val v)) := rfl
theorem exec_ethPauseCtlWrite (m : Fin 2) (v : Word) (s : State) :
    exec (.ethPauseCtlWrite m v) s = s.act (fun d => d.ifOpen (ethBase m.val) (fun d => (d.pauseCtlWrite m.val v).txKick m.val)) := rfl
theorem exec_ethMacHiWrite (m : Fin 2) (e : Fin 32) (v : Word) (s : State) :
    exec (.ethMacHiWrite m e v) s = s.act (fun d => d.ifOpen (ethBase m.val) (·.ethMacHi m.val e.val v)) := rfl
theorem exec_linkChg (m : Fin 2) (v : BitVec 5) (s : State) : exec (.linkChg m v) s = s.act (·.ethLink m.val v.toNat) := rfl

/-! ## Fields of one register -/

section
variable {l : List (Field × Nat)} (fit : ∀ w ∈ l, w.1.lo + w.1.w ≤ 32)
include fit

theorem fld_setFlds_of_apart (d : Dev) {g : Field} (h : ∀ w ∈ l, apart w.1 g) : (d.setFlds l).fld g = d.fld g := by
  induction l generalizing d with
  | nil => rfl
  | cons w l ih =>
    rw [List.forall_mem_cons] at fit h
    exact (ih fit.2 _ h.2).trans (fld_setFld_ne d w.1 g w.2 fit.1 h.1)

/-- Fields that share no bit read as written. -/
theorem fld_setFlds_of_pairwise (d : Dev) (h : l.Pairwise (fun a b => apart b.1 a.1)) {w : Field × Nat} (hw : w ∈ l) :
    (d.setFlds l).fld w.1 = w.2 % 2 ^ w.1.w := by
  induction l generalizing d with
  | nil => simp at hw
  | cons u l ih =>
    rw [List.forall_mem_cons] at fit
    obtain ⟨first, rest⟩ := List.pairwise_cons.1 h
    rcases List.mem_cons.1 hw with rfl | hw
    · exact (fld_setFlds_of_apart fit.2 _ first).trans (fld_setFld_self d w.1 w.2 fit.1)
    · exact ih fit.2 _ rest hw

end

theorem bits_mod_two (x lo : Nat) : bits x lo 1 % 2 ^ 1 = bits x lo 1 := Nat.mod_eq_of_lt (bits_lt x lo 1)

theorem flag_of_fld {d : Dev} {f : Field} {b : Bool} (h : d.fld f = b2n b) : d.flag f = b := by
  rw [Dev.flag, h]
  cases b <;> rfl

/-! ## ETH_MODE (R281) -/

/-- The fields of ETH_MODE as a write gives them. -/
def modeFields (m : Nat) (v : Word) : List (Field × Nat) :=
  [(R.ETH_MODE_LOOP m, bits v.toNat 8 1), (R.ETH_MODE_RX_INV m, bits v.toNat 4 1), (R.ETH_MODE_TX_INV m, bits v.toNat 3 1),
    (R.ETH_MODE_FEC m, bits v.toNat 2 1), (R.ETH_MODE_SPEED m, bits v.toNat 0 1)]

section
variable (d : Dev) (m : Nat) (v : Word)

theorem modeFields_addr : ∀ w ∈ modeFields m v, w.1.addr = (R.ETH_MODE_LOOP m).addr ∧ w.1.w = 1 := by
  simp [modeFields, R.ETH_MODE_LOOP, R.ETH_MODE_RX_INV, R.ETH_MODE_TX_INV, R.ETH_MODE_FEC, R.ETH_MODE_SPEED]

theorem modeFields_read : ∀ w ∈ modeFields m v, (d.setFlds (modeFields m v)).fld w.1 = w.2 := by
  have fit : ∀ w ∈ modeFields m v, w.1.lo + w.1.w ≤ 32 := by
    simp [modeFields, R.ETH_MODE_LOOP, R.ETH_MODE_RX_INV, R.ETH_MODE_TX_INV, R.ETH_MODE_FEC, R.ETH_MODE_SPEED]
  have parts : (modeFields m v).Pairwise (fun a b => apart b.1 a.1) := by
    simp [modeFields, apart, R.ETH_MODE_LOOP, R.ETH_MODE_RX_INV, R.ETH_MODE_TX_INV, R.ETH_MODE_FEC, R.ETH_MODE_SPEED]
  have bit : ∀ w ∈ modeFields m v, w.2 % 2 ^ 1 = w.2 := by simp only [modeFields, List.forall_mem_cons, bits_mod_two]; simp
  intro w hw
  rw [fld_setFlds_of_pairwise fit d parts hw, (modeFields_addr m v w hw).2, bit w hw]

theorem ethModeWrite_of_enabled (on : d.effEn (ethBase m) = true) : d.ethModeWrite m v = d.raise (F.ethCfgRefused m) := if_pos on

theorem ethModeWrite_of_disabled (off : d.effEn (ethBase m) = false) : d.ethModeWrite m v = d.setFlds (modeFields m v) := if_neg (by simp [off])

end

/-! ## ETH_PAUSE_CTL (R300, R301) -/

section
variable (d : Dev) (m : Nat) (v : Word)

/-- The fields of ETH_PAUSE_CTL as a write gives them. -/
def pauseFields (m : Nat) (v : Word) : List (Field × Nat) :=
  [(R.ETH_PAUSE_CTL_OBEY m, bits v.toNat 1 1), (R.ETH_PAUSE_CTL_GEN m, bits v.toNat 0 1)]

theorem pauseFields_fit : ∀ w ∈ pauseFields m v, w.1.lo + w.1.w ≤ 32 := by simp [pauseFields, R.ETH_PAUSE_CTL_OBEY, R.ETH_PAUSE_CTL_GEN]

theorem pauseFields_read : ∀ w ∈ pauseFields m v, (d.setFlds (pauseFields m v)).fld w.1 = w.2 := by
  have parts : (pauseFields m v).Pairwise (fun a b => apart b.1 a.1) := by simp [pauseFields, apart, R.ETH_PAUSE_CTL_OBEY, R.ETH_PAUSE_CTL_GEN]
  have bit : ∀ w ∈ pauseFields m v, w.2 % 2 ^ w.1.w = w.2 := by simp [pauseFields, R.ETH_PAUSE_CTL_OBEY, R.ETH_PAUSE_CTL_GEN, bits]
  exact fun w hw => (fld_setFlds_of_pairwise (pauseFields_fit m v) d parts hw).trans (bit w hw)

/-- What a write of ETH_PAUSE_CTL queues: an XON where it clears GEN with XOFF active. -/
def writeQueues (d : Dev) (m : Nat) (v : Word) : List Nat :=
  if d.flag (R.ETH_PAUSE_CTL_GEN m) = true ∧ bitAt v.toNat 0 = false ∧ d.flag (R.ETH_PAUSE_STAT_XOFF_ACTIVE m) = true then [0] else []

theorem pauseCtlWrite_eq : d.pauseCtlWrite m v =
    if (d.flag (R.ETH_PAUSE_CTL_GEN m) && !bitAt v.toNat 0 && (d.setFlds (pauseFields m v)).flag (R.ETH_PAUSE_STAT_XOFF_ACTIVE m)) = true then
      (d.setFlds (pauseFields m v)).setMac m { (d.setFlds (pauseFields m v)).mac m with pq := ((d.setFlds (pauseFields m v)).mac m).pq ++ [0] }
    else d.setFlds (pauseFields m v) := (rfl)

theorem pauseCtlWrite_fld (f : Field) : (d.pauseCtlWrite m v).fld f = (d.setFlds (pauseFields m v)).fld f := by
  rw [pauseCtlWrite_eq]
  split
  · exact fld_setMac ..
  · rfl

theorem pauseCtlWrite_pq : ((d.pauseCtlWrite m v).mac m).pq = (d.mac m).pq ++ writeQueues d m v := by
  have xoff : (d.setFlds (pauseFields m v)).flag (R.ETH_PAUSE_STAT_XOFF_ACTIVE m) = d.flag (R.ETH_PAUSE_STAT_XOFF_ACTIVE m) := by
    rw [Dev.flag, fld_setFlds_of_apart (pauseFields_fit m v), Dev.flag]
    simp [pauseFields, apart, R.ETH_PAUSE_CTL_OBEY, R.ETH_PAUSE_CTL_GEN, R.ETH_PAUSE_STAT_XOFF_ACTIVE]
  rw [pauseCtlWrite_eq, xoff, writeQueues]
  simp only [Bool.and_eq_true, Bool.not_eq_true', and_assoc]
  split
  · rw [mac_setMac_self, mac_setFlds]
  · rw [mac_setFlds, List.append_nil]

end

/-! ## ETH_MAC_HI (R289) -/

/-- The LO word of a filter entry. -/
def filterLo (m e : Nat) : Field := if m = 0 then R.ETHA_MAC_LO_ADDR_LO e else R.ETHB_MAC_LO_ADDR_LO e

/-- The fields of the HI word of a filter entry as a write gives them. -/
def filterHi (m e : Nat) (v : Word) : List (Field × Nat) :=
  [(if m = 0 then R.ETHA_MAC_HI_TAG e else R.ETHB_MAC_HI_TAG e, bits v.toNat 16 2),
    (if m = 0 then R.ETHA_MAC_HI_ADDR_HI e else R.ETHB_MAC_HI_ADDR_HI e, bits v.toNat 0 16)]

theorem ethMacHi_eq (d : Dev) (m e : Nat) (v : Word) : d.ethMacHi m e v = (d.setFlds (filterHi m e v)).setMac m { d.mac m with
    filt := smSet (fun _ => (0, 0)) (d.mac m).filt e (d.fld (filterLo m e), v.toNat % 2 ^ 18) } := by
  have lo : (d.setFlds (filterHi m e v)).fld (filterLo m e) = d.fld (filterLo m e) := by
    refine fld_setFlds_of_addr d _ ?_
    by_cases a : m = 0 <;> simp [filterHi, filterLo, a, R.ETHA_MAC_LO_ADDR_LO, R.ETHA_MAC_HI_TAG, R.ETHA_MAC_HI_ADDR_HI, R.ETHB_MAC_LO_ADDR_LO,
      R.ETHB_MAC_HI_TAG, R.ETHB_MAC_HI_ADDR_HI]
  rw [← lo, ← mac_setFlds d m (filterHi m e v)]
  rfl

/-! ## Counters (R306) -/

/-- The registers of a counter. -/
def counterLo (m k : Nat) : Field := if m = 0 then R.ETHA_CNT_LO_LO k else R.ETHB_CNT_LO_LO k
def counterHi (m k : Nat) : Field := if m = 0 then R.ETHA_CNT_HI_HI k else R.ETHB_CNT_HI_HI k

theorem exec_ethCounterRead (m : Fin 2) (k : Fin 25) (s : State) :
    exec (.ethCounterRead m k) s = s.act (·.busReadAt (counterLo m k).addr) := by
  rw [counterLo, apply_ite Field.addr]
  rfl

theorem cntRead_eq (d : Dev) (m k : Nat) : d.cntRead m k = (counter d m k % 2 ^ 32,
    (d.setMac m { d.mac m with cnt := smSet (fun _ => 0) (d.mac m).cnt k 0 }).setFld (counterHi m k) (counter d m k / 2 ^ 32)) := (rfl)

/-- The LO words are registers with a rule of their own. -/
theorem counterLo_place (m : Fin 2) (k : Fin 25) : decoded (counterLo m k).addr = true ∧ headerOf (counterLo m k).addr = none ∧
    (counterLo m k).addr % 4 = 0 ∧ (counterLo m k).addr / 0x10000 * 0x10000 = ethBase m ∧ (counterLo m k).addr < 0xA0000 := by
  revert m k
  decide +kernel

theorem readHit_counterLo (m : Fin 2) (k : Fin 25) : readHit (counterLo m k).addr = some (fun d => d.cntRead m k) := by
  fin_cases m
  · fin_cases k <;> rfl
  · fin_cases k <;> rfl

/-- What a read of a counter's LO word makes of the part. -/
def counterTaken (d : Dev) (m k : Nat) : Dev := { (d.cntRead m k).2 with bus := ⟨BitVec.ofNat 64 (counter d m k % 2 ^ 32), false⟩ }

theorem rstLow_of_opens {d : Dev} {b : Nat} (h : d.opens b = true) : d.boot.rstLow = false := by
  simp only [Dev.opens, Bool.and_eq_true, Bool.not_eq_true'] at h
  exact h.1

theorem busReadAt_counterLo {d : Dev} {m : Fin 2} (responds : d.opens (ethBase m) = true) (k : Fin 25) :
    d.busReadAt (counterLo m k).addr = counterTaken d m k := by
  obtain ⟨named, noHeader, aligned, unit, low⟩ := counterLo_place m k
  have present : entryAbsent d (counterLo m k).addr = false := by
    simp only [entryAbsent, Bool.or_eq_false_iff, Bool.and_eq_false_iff, decide_eq_false_iff_not]
    omega
  have gives : getReg d (counterLo m k).addr = d.cntRead m k := getReg_rule noHeader present (readHit_counterLo m k)
  have lanes : bits (15 : BitVec 8).toNat 0 4 = 15 := by decide
  rw [Dev.busReadAt, busRead_word (rstLow_of_opens responds) rfl aligned]
  dsimp only
  rw [lanes, busRead32_open named (by rwa [unit]), gives, counterTaken, cntRead_eq, Nat.mod_mod]

section
variable (d : Dev) (m k : Nat)

theorem mac_counterTaken : (counterTaken d m k).mac m = { d.mac m with cnt := smSet (fun _ => 0) (d.mac m).cnt k 0 } :=
  mac_setMac_self d m _

theorem counter_counterTaken_self : counter (counterTaken d m k) m k = 0 := by
  rw [counter, mac_counterTaken, smGet_smSet_self]

theorem counter_counterTaken_ne {j : Nat} (h : j ≠ k) : counter (counterTaken d m k) m j = counter d m j := by
  rw [counter, mac_counterTaken, smGet_smSet_ne _ _ _ h, counter]

theorem counterTaken_hi : (counterTaken d m k).fld (counterHi m k) = counter d m k / 2 ^ 32 % 2 ^ 32 := by
  have word : (counterHi m k).lo = 0 ∧ (counterHi m k).w = 32 := by
    by_cases a : m = 0 <;> simp [counterHi, a, R.ETHA_CNT_HI_HI, R.ETHB_CNT_HI_HI]
  refine (fld_setFld_self (d.setMac m _) (counterHi m k) _ (by omega)).trans ?_
  rw [word.2]
  rfl

end

/-! ## The link (R283, R512) -/

/-- The indications with which a link acts: a lane found inverted has no block lock until RX_INV is changed. -/
def linkWord (d : Dev) (m v : Nat) : Nat := if (d.mac m).rev = some (d.flag (R.ETH_MODE_RX_INV m)) then setBits v 0 1 0 else v

theorem bitAt_linkWord (d : Dev) (m v : Nat) {i : Nat} (h : i ≠ 0) : bitAt (linkWord d m v) i = bitAt v i := by
  unfold linkWord
  split
  · exact bitAt_setBits_ne v 0 h
  · rfl

/-- The link is up with the indications `w`. -/
def linkUp (d : Dev) (m w : Nat) : Bool := bitAt w 0 && !bitAt w 1 && (bitAt w 2 || !d.fecOn m) && !bitAt w 3 && !bitAt w 4

theorem linkWord_eq (d : Dev) (m v : Nat) :
    (if decide ((d.mac m).rev = some (d.flag (R.ETH_MODE_RX_INV m))) = true then setBits v 0 1 0 else v) = linkWord d m v := by
  simp only [linkWord, decide_eq_true_eq]

theorem linkUp_eq (d : Dev) (m v : Nat) : linkUp d m (linkWord d m v) =
    (bitAt (linkWord d m v) 0 && !bitAt v 1 && (bitAt v 2 || !d.fecOn m) && !bitAt v 3 && !bitAt v 4) := by
  rw [linkUp, bitAt_linkWord d m v (by decide : 1 ≠ 0), bitAt_linkWord d m v (by decide : 2 ≠ 0), bitAt_linkWord d m v (by decide : 3 ≠ 0),
    bitAt_linkWord d m v (by decide : 4 ≠ 0)]

/-- The fields of ETH_LINK with the indications `w`. -/
def linkFields (m w : Nat) (up : Bool) : List (Field × Nat) :=
  [(R.ETH_LINK_REMOTE_FAULT m, bits w 4 1), (R.ETH_LINK_LOCAL_FAULT m, bits w 3 1), (R.ETH_LINK_FEC_ALIGN m, bits w 2 1),
    (R.ETH_LINK_HI_BER m, bits w 1 1), (R.ETH_LINK_BLOCK_LOCK m, bits w 0 1), (R.ETH_LINK_LINK_UP m, b2n up)]

/-- The indications stand beside LINK_UP in their order. -/
theorem indication_mem_linkFields (m w : Nat) (up : Bool) {n : Nat} (h : n < 5) :
    ((⟨(R.ETH_LINK_LINK_UP m).addr, n + 1, 1⟩, bits w n 1) : Field × Nat) ∈ linkFields m w up := by
  interval_cases n <;> simp [linkFields, R.ETH_LINK_REMOTE_FAULT, R.ETH_LINK_LOCAL_FAULT, R.ETH_LINK_FEC_ALIGN, R.ETH_LINK_HI_BER,
    R.ETH_LINK_BLOCK_LOCK, R.ETH_LINK_LINK_UP]

theorem linkFields_read (d : Dev) (m w : Nat) (up : Bool) : ∀ x ∈ linkFields m w up, (d.setFlds (linkFields m w up)).fld x.1 = x.2 := by
  have fit : ∀ x ∈ linkFields m w up, x.1.lo + x.1.w ≤ 32 := by
    simp [linkFields, R.ETH_LINK_REMOTE_FAULT, R.ETH_LINK_LOCAL_FAULT, R.ETH_LINK_FEC_ALIGN, R.ETH_LINK_HI_BER, R.ETH_LINK_BLOCK_LOCK,
      R.ETH_LINK_LINK_UP]
  have parts : (linkFields m w up).Pairwise (fun a b => apart b.1 a.1) := by
    simp [linkFields, apart, R.ETH_LINK_REMOTE_FAULT, R.ETH_LINK_LOCAL_FAULT, R.ETH_LINK_FEC_ALIGN, R.ETH_LINK_HI_BER, R.ETH_LINK_BLOCK_LOCK,
      R.ETH_LINK_LINK_UP]
  have bit : ∀ x ∈ linkFields m w up, x.2 % 2 ^ x.1.w = x.2 := by
    simp [linkFields, R.ETH_LINK_REMOTE_FAULT, R.ETH_LINK_LOCAL_FAULT, R.ETH_LINK_FEC_ALIGN, R.ETH_LINK_HI_BER, R.ETH_LINK_BLOCK_LOCK,
      R.ETH_LINK_LINK_UP, bits, b2n_mod_two]
  exact fun x hx => (fld_setFlds_of_pairwise fit d parts hx).trans (bit x hx)

section
variable (d : Dev) (m : Nat)

/-- A dropped stream packet counts in a register of STR. -/
theorem reg_strDrop (x : Nat) {a : Nat} (low : a < 0xA8000) : (d.strDrop x).reg a = d.reg a := by
  rw [Dev.strDrop, reg_note, reg_count_ne _ _ (by simp only [R.STR_TX_DROP_COUNT]; omega)]

@[simp] theorem mac_strDrop (x : Nat) : (d.strDrop x).mac m = d.mac m := mac_of_eth ((note_eth ..).trans (count_eth ..)) m

theorem reg_stxDrop {a : Nat} (low : a < 0xA8000) : (d.stxDrop m).reg a = d.reg a :=
  foldl_keeps (·.reg a) (fun e p => by split; exacts [reg_strDrop e p.stream low, rfl]) _ (d.setMac m _)

theorem counter_stxDrop (k : Nat) : counter (d.stxDrop m) m k = counter d m k := by
  have packets : (d.stxDrop m).mac m = { d.mac m with stx := [] } :=
    (foldl_keeps (·.mac m) (fun e p => by split; exacts [mac_strDrop e m p.stream, rfl]) _ (d.setMac m _)).trans (mac_setMac_self ..)
  rw [counter, packets, counter]

/-- A link that falls is counted, and what waits there to be sent is dropped. -/
def linkFallen (fell : Bool) : Dev := if fell then (d.cnt m Cnt.linkDown 1).stxDrop m else d

/-- A lane whose error rate has risen is counted and reported. -/
def berCounted (rose : Bool) : Dev := if rose then (d.cnt m Cnt.hiBer 1).raise (F.hiBer m) else d

/-- The part once the indications of a link have changed, before its transmitter is served. -/
def linkTold (v : Nat) : Dev :=
  let w := linkWord d m v
  berCounted ((linkFallen (d.setFlds (linkFields m w (linkUp d m w))) m (d.flag (R.ETH_LINK_LINK_UP m) && !linkUp d m w)).raiseIf
    (d.flag (R.ETH_LINK_LINK_UP m) != linkUp d m w) (F.linkChg m)) m (bitAt w 1 && !d.flag (R.ETH_LINK_HI_BER m))

theorem ethLink_of_off {d : Dev} {m : Nat} (off : d.macOn m = false) (v : Nat) : d.ethLink m v = d := if_pos (by simp [off])

theorem ethLink_of_on {d : Dev} {m : Nat} (on : d.macOn m = true) (v : Nat) : d.ethLink m v = (linkTold d m v).txKick m := if_neg (by simp [on])

theorem fld_linkTold (v : Nat) {f : Field} (low : f.addr < 0xA8000) :
    (linkTold d m v).fld f = (d.setFlds (linkFields m (linkWord d m v) (linkUp d m (linkWord d m v)))).fld f := by
  have fallen (e : Dev) (fell : Bool) : (linkFallen e m fell).fld f = e.fld f := by
    unfold linkFallen
    split
    · rw [Dev.fld, reg_stxDrop _ _ low, ← Dev.fld, fld_cnt]
    · rfl
  have counted (e : Dev) (rose : Bool) : (berCounted e m rose).fld f = e.fld f := by
    unfold berCounted
    split
    · rw [fld_raise, fld_cnt]
    · rfl
  have told (e : Dev) (b : Bool) (x : Flag) : (e.raiseIf b x).fld f = e.fld f := fld_of_regs (raiseIf_regs ..) (raiseIf_grade ..) f
  exact (counted ..).trans ((told ..).trans (fallen ..))

theorem linkTold_field (mac : m < 2) (v : Nat) : ∀ x ∈ linkFields m (linkWord d m v) (linkUp d m (linkWord d m v)), (linkTold d m v).fld x.1 = x.2 := by
  have addr : ∀ x ∈ linkFields m (linkWord d m v) (linkUp d m (linkWord d m v)), x.1.addr = (R.ETH_LINK_LINK_UP m).addr := by
    simp [linkFields, R.ETH_LINK_REMOTE_FAULT, R.ETH_LINK_LOCAL_FAULT, R.ETH_LINK_FEC_ALIGN, R.ETH_LINK_HI_BER, R.ETH_LINK_BLOCK_LOCK,
      R.ETH_LINK_LINK_UP]
  intro x hx
  refine (fld_linkTold d m v ?_).trans (linkFields_read d m _ _ x hx)
  rw [addr x hx]
  simp only [R.ETH_LINK_LINK_UP]
  omega

theorem counter_linkTold (v : Nat) : counter (linkTold d m v) m Cnt.linkDown =
    if d.flag (R.ETH_LINK_LINK_UP m) = true ∧ linkUp d m (linkWord d m v) = false then min (counter d m Cnt.linkDown + 1) (2 ^ 64 - 1)
    else counter d m Cnt.linkDown := by
  have shown (l : List (Field × Nat)) : counter (d.setFlds l) m Cnt.linkDown = counter d m Cnt.linkDown := counter_of_mac (mac_setFlds ..) _
  have fallen (e : Dev) (fell : Bool) : counter (linkFallen e m fell) m Cnt.linkDown =
      if fell = true then min (counter e m Cnt.linkDown + 1) (2 ^ 64 - 1) else counter e m Cnt.linkDown := by
    unfold linkFallen
    split
    · rw [counter_stxDrop, counter_cnt_self]
    · rfl
  have counted (e : Dev) (rose : Bool) : counter (berCounted e m rose) m Cnt.linkDown = counter e m Cnt.linkDown := by
    unfold berCounted
    split
    · rw [counter_of_mac (mac_raise ..), counter_cnt_ne _ _ _ _ (by decide)]
    · rfl
  rw [linkTold, counted, counter_of_mac (mac_raiseIf ..), fallen, shown]
  simp only [Bool.and_eq_true, Bool.not_eq_true']

end

end Sys2Proof.Proofs
end

section
/-! SUPPORT. Pauses, host frames and the NRX and NTX rings (09 R294 to R302). -/
namespace Sys2Proof.Proofs
open Sys2Proof.Machine Sys2Proof.Laws

theorem exec_pauseHoldExpire (m : Fin 2) (s : State) : exec (.pauseHoldExpire m) s = s.act (·.holdExpire m.val) := rfl
theorem exec_xoffRefresh (m : Fin 2) (s : State) : exec (.xoffRefresh m) s = s.act (fun d => (d.xoffRefresh m.val).txKick m.val) := rfl
theorem exec_nrxCopy (m : Fin 2) (s : State) : exec (.nrxCopy m) s = s.act (·.nrxCopy m.val) := rfl
theorem exec_ntxFrame (m : Fin 2) (lead : Nat) (readErr : Bool) (s : State) :
    exec (.ntxFrame m lead readErr) s = s.act (·.ntxFrame m.val lead readErr) := rfl
theorem exec_txFrameBoundary (m : Fin 2) (lead : Nat) (readErr : Bool) (s : State) :
    exec (.txFrameBoundary m lead readErr) s = s.act (·.txBoundary m.val lead readErr) := rfl

theorem macOn_iff (d : Dev) (m : Nat) : d.macOn m = true ↔ d.works (ethBase m) = true ∧ d.awake = true := by simp [Dev.macOn]

/-! ## Pauses (R301, R302) -/

section
variable {d : Dev} {m : Nat}

theorem holdExpire_of_off (off : d.macOn m = false) : d.holdExpire m = d := if_neg (by simp [off])

theorem holdExpire_of_on (on : d.macOn m = true) : d.holdExpire m = (d.endHold m true).txKick m := if_pos on

theorem endHold_of_none (none : (d.mac m).hold = none) (whole : Bool) : d.endHold m whole = d := by
  simp only [Dev.endHold, none]

/-- A hold of `q` quanta that has lasted its time counts what of it has not been counted. -/
theorem endHold_of_whole {q : Nat} (hold : (d.mac m).hold = some q) : d.endHold m true = d.setMac m
    { d.pausedAdd m (q * d.quantum m - d.heldOf m q (d.mac m).held) (d.mac m) with hold := none, held := 0 } := by
  simp only [Dev.endHold, hold]
  rfl

theorem counter_endHold {q : Nat} (hold : (d.mac m).hold = some q) : counter (d.endHold m true) m Cnt.rxPausedQuanta =
    min (counter d m Cnt.rxPausedQuanta + ((d.mac m).part + (q * d.quantum m - min (q * d.quantum m) (25 * (d.mac m).held))) / d.quantum m)
      (2 ^ 64 - 1) := by
  rw [endHold_of_whole hold, counter, mac_setMac_self]
  exact smGet_smSet_self ..

/-- A further XOFF is due: generation is on, XOFF is active and the FIFO is above the low watermark (R301). -/
def xoffDue (d : Dev) (m : Nat) : Prop :=
  d.macOn m = true ∧ d.flag (R.ETH_PAUSE_CTL_GEN m) = true ∧ d.flag (R.ETH_PAUSE_STAT_XOFF_ACTIVE m) = true ∧
    256 * d.lowMark m < 100 * (d.mac m).fill

theorem xoffDue_iff (d : Dev) (m : Nat) : xoffDue d m ↔ (d.macOn m && d.flag (R.ETH_PAUSE_CTL_GEN m) &&
    d.flag (R.ETH_PAUSE_STAT_XOFF_ACTIVE m) && decide (256 * d.lowMark m < 100 * (d.mac m).fill)) = true := by
  simp [xoffDue, and_assoc]

theorem xoffRefresh_of_due (due : xoffDue d m) :
    d.xoffRefresh m = d.setMac m { d.mac m with pq := (d.mac m).pq ++ [d.fld (R.ETH_PAUSE_QUANTA m)] } := if_pos ((xoffDue_iff d m).1 due)

theorem xoffRefresh_of_not_due (rests : ¬ xoffDue d m) : d.xoffRefresh m = d := if_neg (mt (xoffDue_iff d m).2 rests)

end

/-! ## Copies into the NRX ring (R295, R296) -/

section
variable {d : Dev} {m r : Nat}

theorem nrxCopy_of_no_ring (none : d.ringFor 4 m = none) : d.nrxCopy m = d := by
  unfold Dev.nrxCopy
  rw [none]

theorem nrxCopy_of_no_frame (empty : (d.mac m).fifo = []) : d.nrxCopy m = d := by
  unfold Dev.nrxCopy
  rw [empty]
  cases d.ringFor 4 m <;> rfl

theorem nrxCopy_of_off (off : d.macOn m = false) : d.nrxCopy m = d := by
  unfold Dev.nrxCopy
  split
  · exact if_pos (by simp [off])
  · rfl

/-- The start of the entry at the device index of a ring. -/
def ringHead (d : Dev) (r n : Nat) : List Nat := memRead d.hostMem (d.ringAddr r (d.fld (R.RING_DEV_IDX_DEV_IDX r))) n

theorem nrxPlan_nil (d : Dev) (r i : Nat) : ∀ k, nrxPlan d r i k [] = ([], [])
  | 0 => rfl
  | _ + 1 => rfl

/-- A usable buffer takes what it holds of a frame, and the buffers after it the rest. -/
theorem nrxPlan_of_usable (i k : Nat) {l : List Nat} (frame : l ≠ []) {n : Nat} (size : ofLe (slice (memRead d.hostMem (d.ringAddr r i) 12) 8 4) = n)
    (usable : n % 64 = 0 ∧ 256 ≤ n ∧ n ≤ 65536) : nrxPlan d r i (k + 1) l =
      (⟨ofLe (slice (memRead d.hostMem (d.ringAddr r i) 12) 0 8), some (l.take n)⟩ :: (nrxPlan d r (i + 1) k (l.drop n)).1,
        (nrxPlan d r (i + 1) k (l.drop n)).2) := by
  subst size
  exact (if_neg (by simpa using frame)).trans (if_neg (by omega))

/-- A usable first buffer that holds the whole frame takes it. -/
theorem nrxPlan_of_room {k : Nat} {l : List Nat} (frame : l ≠ []) (posted : 0 < k) {n : Nat} (size : ofLe (slice (ringHead d r 12) 8 4) = n)
    (usable : n % 64 = 0 ∧ 256 ≤ n ∧ n ≤ 65536) (room : l.length ≤ n) :
    nrxPlan d r (d.fld (R.RING_DEV_IDX_DEV_IDX r)) k l = ([⟨ofLe (slice (ringHead d r 12) 0 8), some l⟩], []) := by
  obtain ⟨k, rfl⟩ := Nat.exists_eq_succ_of_ne_zero posted.ne'
  rw [nrxPlan_of_usable _ k frame size usable, List.drop_of_length_le room, nrxPlan_nil, List.take_of_length_le room]
  rfl

theorem nrxCopy_of_room {f : EthFrame} {rest : List EthFrame} (ring : d.ringFor 4 m = some r) (fifo : (d.mac m).fifo = f :: rest)
    (on : d.macOn m = true) (live : d.ringLive r = true) (posted : 0 < d.ringPosted r)
    (plan : nrxPlan d r (d.fld (R.RING_DEV_IDX_DEV_IDX r)) (min (d.ringPosted r) (d.ringSize r)) f.bytes =
      ([⟨ofLe (slice (ringHead d r 12) 0 8), some f.bytes⟩], [])) :
    d.nrxCopy m = (((((d.hostWrite (ofLe (slice (ringHead d r 12) 0 8)) f.bytes).nrxBack r f
      ⟨ofLe (slice (ringHead d r 12) 0 8), some f.bytes⟩ true true false).cnt m Cnt.rxToHost 1).setFifo m rest).txKick m) := by
  unfold Dev.nrxCopy
  rw [ring, fifo]
  refine (if_neg (by simp [on, live, posted.ne'])).trans ?_
  rw [plan]
  rfl

end

/-! ## A host frame's turn (R297, R298) -/

/-- Nothing goes before a host frame at a working transmitter, and its ring has an entry posted. -/
structure HostTurn (d : Dev) (m r : Nat) : Prop where
  on : d.macOn m = true
  free : (d.mac m).busy = false
  unheld : (d.mac m).hold = none
  ring : d.ringFor 5 m = some r
  live : d.ringLive r = true
  posted : 0 < d.ringPosted r

/-- Why the frame of the entry is not sent, as its status says. -/
def ntxRefusal (d : Dev) (m r : Nat) (readErr : Bool) : Option Nat :=
  if ofLe (slice (ringHead d r 32) 8 2) < 14 then some 1
  else if d.fld (R.ETH_MAXFRM_MAXFRM m) < ofLe (slice (ringHead d r 32) 8 2) + 4 then some 2
  else if readErr = true then some 3
  else if d.flag (R.ETH_LINK_LINK_UP m) = false then some 4
  else none

/-- The stamp of a host frame whose SFD crosses the pins `lead` later. -/
def hostStamp (d : Dev) (m lead : Nat) : Nat := (d.ethStamp m lead (sx 16 (d.fld (R.ETH_TS_LAT_TX_LAT m)))).1

/-- The part once the frame of the entry has been sent. -/
def hostSent (d : Dev) (m r lead : Nat) : Dev :=
  ((d.drew 1).cnt m Cnt.txHost 1).ethSend m (oneStep (ringHead d r 32)
    (memRead d.hostMem (ofLe (slice (ringHead d r 32) 0 8)) (ofLe (slice (ringHead d r 32) 8 2))) (hostStamp d m lead)) (hostStamp d m lead)

/-- The part once that frame's entry has been written back, with its stamp where the entry asks for it. -/
def hostReported (d : Dev) (m r lead : Nat) : Dev :=
  (hostSent d m r lead).ntxBack m r 0 (if (ringHead d r 32).getD 10 0 % 4 != 0 then hostStamp d m lead else 0)

/-- The part once a frame has been refused. -/
def hostRefused (d : Dev) (m r st : Nat) : Dev :=
  (((if st = 3 then d.raise F.dmaErr else d).cnt m Cnt.txDrop 1).raise (F.txDrop m)).ringBack r 32
    ([st, 0, 0, 0] ++ leBytes 4 0 ++ List.replicate 23 0)

section
variable {d : Dev} {m r : Nat}

theorem ntxDrop_eq {st : Nat} (refused : st ≠ 0) : d.ntxDrop m r st =
    ((d.cnt m Cnt.txDrop 1).raise (F.txDrop m)).ringBack r 32 ([st, 0, 0, 0] ++ leBytes 4 0 ++ List.replicate 23 0) := by
  rw [Dev.ntxDrop, Dev.ntxBack, if_pos ⟨rfl, refused⟩]

theorem HostTurn.takes (turn : HostTurn d m r) (lead : Nat) (readErr : Bool) : d.ntxTake m lead readErr =
    match ntxRefusal d m r readErr with
    | some st => hostRefused d m r st
    | none => hostReported d m r lead := by
  obtain ⟨on, free, unheld, ring, live, posted⟩ := turn
  have acts : d.ntxTake m lead readErr =
      if ofLe (slice (ringHead d r 32) 8 2) < 14 then d.ntxDrop m r 1
      else if d.fld (R.ETH_MAXFRM_MAXFRM m) < ofLe (slice (ringHead d r 32) 8 2) + 4 then d.ntxDrop m r 2
      else if readErr = true then (d.raise F.dmaErr).ntxDrop m r 3
      else if (!d.flag (R.ETH_LINK_LINK_UP m)) = true then d.ntxDrop m r 4
      else hostReported d m r lead := by
    unfold Dev.ntxTake
    rw [ring]
    exact if_neg (by simp [on, free, unheld, live, posted.ne'])
  rw [acts, ntxRefusal]
  simp only [Bool.not_eq_true']
  split_ifs
  · exact ntxDrop_eq (by decide)
  · exact ntxDrop_eq (by decide)
  · exact ntxDrop_eq (by decide)
  · exact ntxDrop_eq (by decide)
  · rfl

/-- With nothing queued the transmitter leaves the part as it is, but that it may write the MAC back as it stands. -/
theorem txKick_of_nothing (pauses : (d.mac m).pq = []) (packets : (d.mac m).stx = []) :
    d.txKick m = d ∨ d.txKick m = d.setMac m (d.mac m) := by
  have serves : d.txKick m = if (!d.txFree m) = true then d else if (d.mac m).hold.isSome = true then d
      else d.setMac m { d.mac m with stx := [] } := by
    unfold Dev.txKick
    rw [pauses, packets]
    rfl
  have same : { d.mac m with stx := [] } = d.mac m := by rw [← packets]
  rw [serves, same]
  split_ifs
  · exact .inl rfl
  · exact .inl rfl
  · exact .inr rfl

end

section
variable (d : Dev) (m r : Nat)

/-- A MAC written back as it stands makes no difference to a frame that is refused. -/
theorem hostRefused_setMac_mac (st : Nat) : hostRefused (d.setMac m (d.mac m)) m r st = hostRefused d m r st := by
  have again : (if st = 3 then (d.setMac m (d.mac m)).raise F.dmaErr else d.setMac m (d.mac m)) =
      (if st = 3 then d.raise F.dmaErr else d).setMac m ((if st = 3 then d.raise F.dmaErr else d).mac m) := by
    split_ifs
    · rw [raise_setMac, mac_raise]
    · rfl
  rw [hostRefused, again, cnt_setMac_mac, hostRefused]

/-- Nor to one that is sent. -/
theorem hostReported_setMac_mac (lead : Nat) : hostReported (d.setMac m (d.mac m)) m r lead = hostReported d m r lead := by
  have counted : ((d.setMac m (d.mac m)).drew 1).cnt m Cnt.txHost 1 = (d.drew 1).cnt m Cnt.txHost 1 := cnt_setMac_mac (d.drew 1) m Cnt.txHost 1
  have sent : hostSent (d.setMac m (d.mac m)) m r lead = hostSent d m r lead := by
    rw [hostSent, counted]
    rfl
  rw [hostReported, sent]
  rfl

theorem busy_hostSent (lead : Nat) : ((hostSent d m r lead).mac m).busy = true := by
  simp only [hostSent, Dev.ethSend, mac_setMac_self]

variable {d m r}

/-- With nothing else queued, a posted host frame is sent, or refused with the first reason that holds. -/
theorem HostTurn.acts (turn : HostTurn d m r) (pauses : (d.mac m).pq = []) (packets : (d.mac m).stx = []) (lead : Nat) (readErr : Bool) :
    d.ntxFrame m lead readErr = match ntxRefusal d m r readErr with
      | some st => hostRefused d m r st
      | none => hostReported d m r lead := by
  rw [Dev.ntxFrame]
  rcases txKick_of_nothing pauses packets with same | again
  case inl => rw [same, turn.takes]
  case inr =>
    have kept : HostTurn (d.setMac m (d.mac m)) m r :=
      ⟨turn.on, by rw [mac_setMac_self, turn.free], by rw [mac_setMac_self, turn.unheld], turn.ring, turn.live, turn.posted⟩
    have reasons : ntxRefusal (d.setMac m (d.mac m)) m r readErr = ntxRefusal d m r readErr := rfl
    rw [again, kept.takes, reasons]
    simp only [hostRefused_setMac_mac, hostReported_setMac_mac]

end

/-! ## The end of a frame (R299, R302) -/

section
variable (d : Dev) (m : Nat)

/-- The transmitter is free again. -/
def frameEnded : Dev := d.setMac m { d.mac m with busy := false }

/-- A hold that waited for the end of the frame has started. -/
def holdBegun : Dev := match (d.mac m).holdNext with | some q => (frameEnded d m).startHold m q | none => frameEnded d m

theorem holdBegun_of_none (none : (d.mac m).holdNext = none) : holdBegun d m = frameEnded d m := by
  simp only [holdBegun, none]

theorem holdBegun_of_some {q : Nat} (waits : (d.mac m).holdNext = some q) : holdBegun d m =
    (d.setMac m { d.mac m with busy := false, hold := some q, held := 0, holdNext := none }).raise (F.pauseRx m) := by
  simp only [holdBegun, waits, Dev.startHold, frameEnded, mac_setMac_self, setMac_setMac_self]

theorem busy_holdBegun : ((holdBegun d m).mac m).busy = false := by
  cases waits : (d.mac m).holdNext with
  | none => rw [holdBegun_of_none d m waits, frameEnded, mac_setMac_self]
  | some q => rw [holdBegun_of_some d m waits, mac_raise, mac_setMac_self]

theorem flag_holdBegun (f : Field) : (holdBegun d m).flag f = d.flag f := by
  cases waits : (d.mac m).holdNext with
  | none => rw [holdBegun_of_none d m waits, frameEnded, flag_setMac]
  | some q => rw [holdBegun_of_some d m waits, flag_raise, flag_setMac]

/-- The frame that the receive path takes in loopback (R281). -/
def loopFrame : RxFrame := ⟨(d.mac m).last, false, false, 0, 0, (holdBegun d m).byteTime m (d.mac m).last.length⟩

theorem txBoundary_eq (lead : Nat) (readErr : Bool) : d.txBoundary m lead readErr =
    ((if ((d.mac m).busy && (holdBegun d m).flag (R.ETH_MODE_LOOP m)) = true then (holdBegun d m).ethTake m (loopFrame d m)
      else holdBegun d m).txKick m).ntxTake m lead readErr := by
  unfold Dev.txBoundary holdBegun
  rfl

end

end Sys2Proof.Proofs
end

section
/-! MAC registers, the link, counters, pauses and host frames (09 R281 to R306). Settles O43. -/
namespace Sys2Proof.Proofs
open Sys2Proof.Machine Sys2Proof.Laws

/-- Settles O43: registers, link, counter and pauses by what each command makes of them, host frames by their turn. -/
theorem macRegistersLinkAndHostFrames : Obligations.MacRegistersLinkAndHostFrames := by
  unfold Obligations.MacRegistersLinkAndHostFrames
  refine ⟨⟨fun s m v => ⟨fun closed => ?closed, fun responds => ⟨fun on => ?enabled, fun off => ?mode, ?pause⟩⟩,
      fun s m i v => ⟨fun closed => makes_of_closed (exec_ethMacHiWrite m i v s) closed, fun responds => ?filter⟩,
      fun s m v => ⟨fun off => makes_of _ (exec_linkChg m v s) (ethLink_of_off off _), fun on => ?link⟩, fun s m k responds => ?counter,
      fun s m => ⟨fun off => makes_of _ (exec_pauseHoldExpire m s) (holdExpire_of_off off), fun q on hold => ?hold, fun on none => ?noHold,
        fun due => ?due, fun rests => ?rests⟩⟩,
    fun s m r f rest ring fifo awake live posted size works mult low high frame room => ?copy, fun s m idle => ?noCopy,
    fun s m lead r readErr works awake free unheld pauses packets ring live posted => ?send, fun s m lead readErr => ?boundary⟩
  case closed => exact ⟨makes_of_closed (exec_ethModeWrite m v s) closed, makes_of_closed (exec_ethPauseCtlWrite m v s) closed⟩
  case enabled => exact makes_of_open (exec_ethModeWrite m v s) responds (ethModeWrite_of_enabled s.dev m v on)
  case mode =>
    have reads := modeFields_read s.dev m v
    have stays {r : Nat} (other : r ≠ (R.ETH_MODE_LOOP m).addr) : ∀ w ∈ modeFields m v, r ≠ w.1.addr := fun w hw =>
      (modeFields_addr m v w hw).1 ▸ other
    exact ⟨_, makes_of_open (exec_ethModeWrite m v s) responds (ethModeWrite_of_disabled s.dev m v off),
      reads (R.ETH_MODE_SPEED m, bits v.toNat 0 1) (by simp [modeFields]), reads (R.ETH_MODE_FEC m, bits v.toNat 2 1) (by simp [modeFields]),
      reads (R.ETH_MODE_TX_INV m, bits v.toNat 3 1) (by simp [modeFields]), reads (R.ETH_MODE_RX_INV m, bits v.toNat 4 1) (by simp [modeFields]),
      reads (R.ETH_MODE_LOOP m, bits v.toNat 8 1) (by simp [modeFields]), fun r other => reg_setFlds_ne _ _ (stays other),
      setFlds_eth .., setFlds_hdr ..⟩
  case pause =>
    have reads := pauseFields_read s.dev m v
    exact ⟨s.dev.pauseCtlWrite m v, makes_of_open (exec_ethPauseCtlWrite m v s) responds rfl,
      (pauseCtlWrite_fld ..).trans (reads (R.ETH_PAUSE_CTL_GEN m, bits v.toNat 0 1) (by simp [pauseFields])),
      (pauseCtlWrite_fld ..).trans (reads (R.ETH_PAUSE_CTL_OBEY m, bits v.toNat 1 1) (by simp [pauseFields])), pauseCtlWrite_pq ..⟩
  case filter =>
    refine ⟨_, makes_of_open (exec_ethMacHiWrite m i v s) responds (ethMacHi_eq ..), ?_⟩
    rw [mac_setMac_self]
    exact ⟨smGet_smSet_self .., fun j other => smGet_smSet_ne _ _ _ other, rfl, rfl, setFlds_hdr ..⟩
  case link =>
    have told := linkTold_field s.dev m m.isLt v.toNat
    have up := linkUp_eq s.dev m v.toNat
    rw [linkWord_eq, ← up]
    refine ⟨linkTold s.dev m v.toNat, makes_of _ (exec_linkChg m v s) (ethLink_of_on on _), ?_,
      fun n hn => told _ (indication_mem_linkFields m _ _ hn), counter_linkTold s.dev m v.toNat⟩
    exact flag_of_fld (told (R.ETH_LINK_LINK_UP m, b2n _) (by simp [linkFields]))
  case counter =>
    refine ⟨counterTaken s.dev m k, makes_of _ (exec_ethCounterRead m k s) (busReadAt_counterLo responds k), rfl, ?_, ?_, fun j other => ?_⟩
    · exact counter_counterTaken_self s.dev m k
    · exact counterTaken_hi s.dev m k
    · exact counter_counterTaken_ne s.dev m k other
  case hold =>
    refine ⟨_, makes_of _ (exec_pauseHoldExpire m s) (holdExpire_of_on on), ?_, ?_, counter_endHold hold⟩
    · rw [endHold_of_whole hold, mac_setMac_self]
    · rw [endHold_of_whole hold, mac_setMac_self]
  case noHold => exact makes_of _ (exec_pauseHoldExpire m s) ((holdExpire_of_on on).trans (by rw [endHold_of_none none]))
  case due => exact makes_of _ (exec_xoffRefresh m s) (congrArg (·.txKick m.val) (xoffRefresh_of_due due))
  case rests => exact makes_of _ (exec_xoffRefresh m s) (congrArg (·.txKick m.val) (xoffRefresh_of_not_due rests))
  case copy =>
    have on : s.dev.macOn m = true := (macOn_iff ..).2 ⟨works, awake⟩
    exact makes_of _ (exec_nrxCopy m s) (nrxCopy_of_room ring fifo on live posted
      (nrxPlan_of_room frame (lt_min posted size) rfl ⟨mult, low, high⟩ room))
  case noCopy =>
    refine makes_of _ (exec_nrxCopy m s) ?_
    rcases idle with none | empty | asleep
    · exact nrxCopy_of_no_ring none
    · exact nrxCopy_of_no_frame empty
    · exact nrxCopy_of_off (by rw [Dev.macOn, asleep, Bool.and_false])
  case send =>
    have turn : HostTurn s.dev m r := ⟨(macOn_iff ..).2 ⟨works, awake⟩, free, unheld, ring, live, posted⟩
    have acts := turn.acts pauses packets lead readErr
    refine ⟨fun st refused => makes_of _ (exec_ntxFrame m lead readErr s) ?_, fun sends => ⟨hostStamp s.dev m lead, s.dev.drew 1, rfl, rfl, rfl,
      makes_of _ (exec_ntxFrame m lead readErr s) ?_, busy_hostSent s.dev m r lead⟩⟩
    · change ntxRefusal s.dev m r readErr = some st at refused
      rw [acts, refused]
      rfl
    · change ntxRefusal s.dev m r readErr = none at sends
      rw [acts, sends]
      simp only [hostReported, bne_iff_ne]
      rfl
  case boundary =>
    have acts := makes_of _ (exec_txFrameBoundary m lead readErr s) (txBoundary_eq s.dev m lead readErr)
    rw [flag_holdBegun] at acts
    refine ⟨holdBegun s.dev m, busy_holdBegun s.dev m, fun none => holdBegun_of_none s.dev m none, fun q waits => ?_, fun stays => ?_, fun loops => ?_⟩
    · rw [holdBegun_of_some s.dev m waits, mac_raise, mac_setMac_self, raise_regs]
      exact ⟨rfl, rfl, rfl, rfl⟩
    · rwa [if_neg (by simpa using stays)] at acts
    · rwa [if_pos (by simpa using loops)] at acts

end Sys2Proof.Proofs
end

section
/-! SUPPORT. STREAM_CFG: the entry that results, its check, and the words it writes in both copies (10 R312, R313, 02 R79). -/
namespace Sys2Proof.Proofs
open Sys2Proof.Machine Sys2Proof.Laws

theorem exec_streamCfg (c : Cmd) (s : State) : exec (.streamCfg c) s = s.act (·.row .streamCfg c) := rfl
theorem effect_streamCfg (d : Dev) (c : Cmd) (late : Bool) : d.effect .streamCfg c late = done (streamCfg d c late) := rfl

theorem makes_streamCfg {s : State} {c : Cmd} {p : Cpl} {e : Dev} (h : s.dev.applies .streamCfg c)
    (acts : streamCfg (s.dev.unqueue c) c ((s.dev.unqueue c).isLate c) = (p, e)) : Makes (.streamCfg c) s (e.ends c p) := by
  refine makes_of _ (exec_streamCfg c s) (row_done (by decide) h ?_)
  rw [effect_streamCfg, cmdLate_of_other (by decide) (by decide), acts]

/-! ## The entry that results (R312, R313) -/

/-- The table that a STREAM_CFG names, the words of one entry, and the first word given. -/
def cfgTable (c : Cmd) : Nat := if bitAt (c.u8 16) 0 = true then T.strTx else T.strRx
def cfgSize (c : Cmd) : Nat := if bitAt (c.u8 16) 0 = true then 64 else 32
def cfgFirst (c : Cmd) : Nat := cfgSize c * c.u8 17 + c.u8 18

/-- The live table as the command would leave it. -/
def cfgLive (d : Dev) (c : Cmd) : SMap Word :=
  (List.range (c.u8 19)).foldl (fun m i => wordSet m (cfgFirst c + i) (c.u32 (24 + 4 * i))) (d.tab (cfgTable c)).live

/-- The entry that results. -/
def cfgEntry (d : Dev) (c : Cmd) : List Nat :=
  if bitAt (c.u8 16) 0 = true then txWords (cfgLive d c) (c.u8 17) else rxWords (cfgLive d c) (c.u8 17)

/-- The check of R312 that the entry that results fails, if it is enabled. -/
def cfgCheck (d : Dev) (c : Cmd) : Option Nat :=
  if bitAt (c.u8 16) 0 = true then
    (if StrE.en (txWords (cfgLive d c) (c.u8 17)) = true then txCheck d (listedTx (cfgLive d c)) (txWords (cfgLive d c) (c.u8 17)) else none)
  else if StrE.en (rxWords (cfgLive d c) (c.u8 17)) = true then
    rxCheck d (listedRx (cfgLive d c)) (c.u8 17) (rxWords (cfgLive d c) (c.u8 17))
  else none

/-! ## The words in both copies (R79) -/

/-- The part with the words of the command in both copies. -/
def cfgWritten (c : Cmd) (d : Dev) : Dev :=
  (List.range (c.u8 19)).foldl (fun d i => d.writeBoth (cfgTable c) (cfgFirst c + i) (c.u32 (24 + 4 * i))) d

section
variable (c : Cmd) (d : Dev)

section
variable {cp : Tab → SMap Word} (hcp : cp ∈ bothCopies)
include hcp

theorem cfgWritten_word {i : Nat} (given : cfgFirst c ≤ i ∧ i < cfgFirst c + c.u8 19) :
    wordAt (cp ((cfgWritten c d).tab (cfgTable c))) i = c.u32 (24 + 4 * (i - cfgFirst c)) := by
  obtain ⟨k, rfl⟩ := Nat.exists_eq_add_of_le given.1
  rw [Nat.add_sub_cancel_left]
  exact read_foldl_of_mem (read := fun e n => wordAt (cp (e.tab (cfgTable c))) n) (place := (cfgFirst c + ·))
    (make := fun k _ => c.u32 (24 + 4 * k)) (fun e _ _ ne => wordAt_writeBoth_ne hcp e _ _ ne)
    (fun e _ => wordAt_writeBoth_self hcp e _ _ (u32_lt ..)) (fun _ _ => Nat.add_left_cancel) List.nodup_range
    (List.mem_range.2 (Nat.lt_of_add_lt_add_left given.2)) d

theorem cfgWritten_word_ne {i : Nat} (other : ¬ (cfgFirst c ≤ i ∧ i < cfgFirst c + c.u8 19)) :
    wordAt (cp ((cfgWritten c d).tab (cfgTable c))) i = wordAt (cp (d.tab (cfgTable c))) i := by
  refine read_foldl_of_ne (read := fun e n => wordAt (cp (e.tab (cfgTable c))) n) (place := (cfgFirst c + ·))
    (fun e _ _ ne => wordAt_writeBoth_ne hcp e _ _ ne) (fun k hk => ?_) d
  have := List.mem_range.1 hk
  omega

end

theorem cfgWritten_tab_ne {u : Nat} (other : u ≠ cfgTable c) : (cfgWritten c d).tab u = d.tab u :=
  foldl_keeps (Dev.tab · u) (fun _ _ => tab_writeBoth_ne _ _ _ other) _ d

theorem cfgWritten_changed : ((cfgWritten c d).tab (cfgTable c)).changed = (d.tab (cfgTable c)).changed :=
  foldl_keeps (fun e => (e.tab (cfgTable c)).changed) (fun e i => by rw [Dev.writeBoth, tab_setTab_self]) _ d

theorem cfgWritten_frame : { cfgWritten c d with tabs := d.tabs } = d :=
  foldl_keeps (fun e => { e with tabs := d.tabs }) (f := fun e i => e.writeBoth (cfgTable c) (cfgFirst c + i) (c.u32 (24 + 4 * i)))
    (fun _ _ => rfl) _ d

end

/-! ## The command (R313) -/

section
variable {d : Dev} {c : Cmd} (late : Bool)

theorem streamCfg_empty (empty : c.u8 19 = 0) : streamCfg d c late = (⟨lateOk late, 0, 0⟩, d) := if_pos empty

variable (asked : c.u8 19 ≠ 0)
include asked

theorem streamCfg_far (far : 10 < c.u8 19 ∨ cfgSize c < c.u8 18 + c.u8 19) : streamCfg d c late = (.bad 3, d) := (if_neg asked).trans (if_pos far)

/-- A STREAM_CFG within the entry is judged by the entry that results. -/
theorem streamCfg_judged (few : c.u8 19 ≤ 10) (fits : c.u8 18 + c.u8 19 ≤ cfgSize c) : streamCfg d c late =
    match cfgCheck d c with
    | some k => if k = 5 ∨ k = 6 then (⟨.noSpace, 0, 0⟩, d) else (.bad 3, d)
    | none => (⟨lateOk late, 0, 0⟩, cfgWritten c d) := by
  have near : ¬ (10 < c.u8 19 ∨ cfgSize c < c.u8 18 + c.u8 19) := by omega
  have check : (if (!StrE.en (cfgEntry d c)) = true then none
      else if bitAt (c.u8 16) 0 = true then txCheck d (listedTx (cfgLive d c)) (cfgEntry d c)
      else rxCheck d (listedRx (cfgLive d c)) (c.u8 17) (cfgEntry d c)) = cfgCheck d c := by
    unfold cfgCheck cfgEntry
    split
    · cases StrE.en (txWords (cfgLive d c) (c.u8 17)) <;> rfl
    · cases StrE.en (rxWords (cfgLive d c) (c.u8 17)) <;> rfl
  rw [← check]
  exact (if_neg asked).trans (if_neg near)

theorem streamCfg_refused (few : c.u8 19 ≤ 10) (fits : c.u8 18 + c.u8 19 ≤ cfgSize c) {k : Nat} (fails : cfgCheck d c = some k) :
    streamCfg d c late = (if k = 5 ∨ k = 6 then ⟨.noSpace, 0, 0⟩ else .bad 3, d) := by
  rw [streamCfg_judged late asked few fits, fails]
  exact (apply_ite (·, d) ..).symm

theorem streamCfg_writes (few : c.u8 19 ≤ 10) (fits : c.u8 18 + c.u8 19 ≤ cfgSize c) (passes : cfgCheck d c = none) :
    streamCfg d c late = (⟨lateOk late, 0, 0⟩, cfgWritten c d) := by
  rw [streamCfg_judged late asked few fits, passes]

end

end Sys2Proof.Proofs
end

section
/-! SUPPORT. Receive streams: the check of the rate, and streams and paths that fall silent (10 R316, R320, 13 R396). -/
namespace Sys2Proof.Proofs
open Sys2Proof.Machine Sys2Proof.Laws

theorem exec_streamRateCheck (x : Fin 256) (seen : Int) (s : State) :
    exec (.streamRateCheck x seen) s = s.act (·.ownMeasure (·.strRateCheck x.val seen)) := rfl
theorem exec_streamRateRecover (x : Fin 256) (s : State) :
    exec (.streamRateRecover x) s = s.act (·.ownMeasure (·.strRateRecover x.val)) := rfl
theorem exec_streamInactive (x : Fin 256) (s : State) : exec (.streamInactive x) s = s.act (·.streamInactive x.val) := rfl
theorem exec_pathLost (x : Fin 256) (m : Fin 2) (s : State) : exec (.pathLost x m) s = s.act (·.pathLost x.val m.val) := rfl

/-! ## The check of 1,024 packets (R316) -/

/-- What a stream's measurement shows, with the rate in ppm that the outside names where no time has passed on TB (log 114). -/
def rateShown (d : Dev) (x : Nat) (seen : Int) : Int := ((d.rx x).meas.dev (StrE.fn (d.rxE x)) 1000000).getD seen

/-- The rate is more than 0.1 % off. -/
def rateFar (d : Dev) (x : Nat) (seen : Int) : Prop :=
  let fn := StrE.fn (d.rxE x)
  let ns := (d.rx x).meas.span.2
  if ((d.rx x).meas.dev fn 1000000).isSome = true then
    fn * ns < 1000 * ((((d.rx x).meas.span.1 * 10 ^ 9 : Nat) : Int) - (fn * ns : Nat)).natAbs
  else 1000 < seen.natAbs

/-- The stream measures anew, and DEV shows what it has measured. -/
def rateMeasured (d : Dev) (x : Nat) (seen : Int) : Dev :=
  (d.setRx x { d.rx x with meas := { (d.rx x).meas with count := 0, rtp0 := (d.rx x).meas.rtp, ts0 := (d.rx x).meas.ts } }).setFld
    (R.STR_RX_STAT_DEV x) (tc 16 (satS 16 (rateShown d x seen)))

section
variable {d : Dev} {x : Nat} (seen : Int)

theorem strRateCheck_of_unready (unready : rxLocked d x (d.rxE x) = false ∨ (d.rx x).meas.count < 1024) : d.strRateCheck x seen = d := by
  refine if_neg fun due => ?_
  simp only [Bool.and_eq_true, decide_eq_true_eq] at due
  rcases unready with free | few
  · exact absurd due.1.2 (by simp [free])
  · omega

variable (works : d.works strBase = true) (enabled : StrE.en (d.rxE x) = true)
include works enabled

section
variable (locked : rxLocked d x (d.rxE x) = true) (used : 1024 ≤ (d.rx x).meas.count)
include locked used

theorem strRateCheck_of_far (far : rateFar d x seen) :
    d.strRateCheck x seen = ((rateMeasured d x seen).setFld (R.STR_RX_STAT_RATE_OUT x) 1).raise F.strRateChg :=
  (if_pos (by simp [works, enabled, locked, used])).trans (if_pos far)

theorem strRateCheck_of_near (near : ¬ rateFar d x seen) : d.strRateCheck x seen = rateMeasured d x seen :=
  (if_pos (by simp [works, enabled, locked, used])).trans (if_neg near)

end

theorem strRateRecover_of_out (out : d.flag (R.STR_RX_STAT_RATE_OUT x) = true) :
    d.strRateRecover x = d.setRx x { d.rx x with recover := true } := if_pos (by simp [works, enabled, out])

end

/-! ## Streams and paths without packets (R320) -/

theorem streamInactive_of_playing {d : Dev} {x : Nat} (works : d.works strBase = true) (playing : d.fld (R.STR_RX_STAT_STATE x) = 2) :
    d.streamInactive x = (d.setFld (R.STR_RX_STAT_STATE x) 3).raise F.streamInactive := if_pos (by simp [works, playing])

/-- The path of a stream on network `m`, and on the other one. -/
def ownPath (x m : Nat) : Field := if m = 0 then R.STR_RX_STAT_PATH_A x else R.STR_RX_STAT_PATH_B x
def otherPath (x m : Nat) : Field := if m = 0 then R.STR_RX_STAT_PATH_B x else R.STR_RX_STAT_PATH_A x

/-- A lost path is told of while the stream uses both networks and the other path still reads 1. -/
def pathTold (d : Dev) (x m : Nat) : Bool := StrE.en (d.rxE x) && StrE.netA (d.rxE x) && StrE.netB (d.rxE x) && d.flag (otherPath x m)

section
variable {d : Dev} {x m : Nat} (works : d.works strBase = true) (up : d.flag (ownPath x m) = true)
include works up

theorem pathLost_of_up : d.pathLost x m = (d.setFld (ownPath x m) 0).raiseIf (pathTold d x m) F.pathLost :=
  if_pos (by rw [works, Bool.true_and]; exact up)

theorem pathLost_told (told : pathTold d x m = true) : d.pathLost x m = (d.setFld (ownPath x m) 0).raise F.pathLost :=
  (pathLost_of_up works up).trans (if_pos told)

theorem pathLost_untold (untold : pathTold d x m = false) : d.pathLost x m = d.setFld (ownPath x m) 0 :=
  (pathLost_of_up works up).trans (if_neg (by simp [untold]))

end

end Sys2Proof.Proofs
end

section
/-! SUPPORT. Transmit packets: forming one, offering it to the MACs, and taking a late one away (10 R324 to R326, 13 R387). -/
namespace Sys2Proof.Proofs
open Sys2Proof.Machine Sys2Proof.Laws

theorem exec_txPacketQueue (x : Fin 256) (s : State) :
    exec (.txPacketQueue x) s = s.act (fun d => ((d.txForm x.val (d.top.tick - 1)).2).txKicks) := rfl
theorem exec_txLate (m : Fin 2) (x : Fin 256) (s : State) : exec (.txLate m x) s = s.act (·.txLate m.val x.val) := rfl

theorem mac_setMac_ne (d : Dev) {m j : Nat} (y : EthM) (other : j ≠ m) : (d.setMac m y).mac j = d.mac j := smGet_smSet_ne _ _ _ other

/-! ## A packet offered to a MAC (R326, R387) -/

/-- A packet with the bytes `l` joins the queue of MAC `m`: the stream uses the network, this part sends stream packets, the frame is not
beyond MAXFRM, and the link is up. -/
def joinsQueue (d : Dev) (e : List Nat) (m : Nat) (l : List Nat) : Prop :=
  StrE.net e m = true ∧ d.sendsStreams = true ∧ l.length + 4 ≤ d.fld (R.ETH_MAXFRM_MAXFRM m) ∧ d.flag (R.ETH_LINK_LINK_UP m) = true

/-- The part once the packet of stream `x` has been offered to MAC `m`. -/
def packetOffered (x : Nat) (e : List Nat) (m : Nat) (l : List Nat) (d : Dev) : Dev :=
  if (StrE.net e m && d.sendsStreams) = true then d.strQueue m x l else d

section
variable {d : Dev} {e l : List Nat} {m : Nat} (x : Nat)

theorem packetOffered_joins (joins : joinsQueue d e m l) :
    packetOffered x e m l d = d.setMac m { d.mac m with stx := (d.mac m).stx ++ [⟨x, l⟩] } := by
  obtain ⟨net, sends, short, up⟩ := joins
  exact (if_pos (by rw [net, sends]; rfl)).trans (if_neg (by simp [up, short]))

/-- A packet that joins no queue is dropped and counted, or was not to be sent there. -/
theorem packetOffered_drops (drops : ¬ joinsQueue d e m l) : packetOffered x e m l d = d ∨ packetOffered x e m l d = d.strDrop x := by
  by_cases sent : (StrE.net e m && d.sendsStreams) = true
  · obtain ⟨net, sends⟩ := Bool.and_eq_true_iff.1 sent
    refine .inr ((if_pos sent).trans (if_pos ?_))
    by_contra room
    rw [not_or, Nat.not_lt, Bool.not_eq_false] at room
    exact drops ⟨net, sends, room⟩
  · exact .inl (if_neg sent)

theorem packetOffered_mac_of_drop (drops : ¬ joinsQueue d e m l) : (packetOffered x e m l d).mac m = d.mac m := by
  rcases packetOffered_drops x drops with same | dropped
  · rw [same]
  · rw [dropped, mac_strDrop]

variable (d e l m)

/-- Offering a packet keeps all that a new queue and a dropped packet keep. -/
theorem packetOffered_keeps {β : Type} (view : Dev → β) (queue : ∀ y, view (d.setMac m y) = view d) (drop : view (d.strDrop x) = view d) :
    view (packetOffered x e m l d) = view d := by
  by_cases joins : joinsQueue d e m l
  · rw [packetOffered_joins x joins, queue]
  · rcases packetOffered_drops x joins with same | dropped
    · rw [same]
    · rw [dropped, drop]

theorem packetOffered_mac_ne {j : Nat} (other : j ≠ m) : (packetOffered x e m l d).mac j = d.mac j :=
  packetOffered_keeps d e l m x (·.mac j) (fun y => mac_setMac_ne d y other) (mac_strDrop ..)

/-- Offering a packet leaves every field but the stream's count of dropped ones. -/
theorem packetOffered_fld {f : Field} (other : f.addr ≠ (R.STR_TX_DROP_COUNT x).addr) : (packetOffered x e m l d).fld f = d.fld f :=
  packetOffered_keeps d e l m x (·.fld f) (fun _ => fld_setMac ..) ((fld_note ..).trans (fld_count_of_addr _ _ other))

end

/-! ## A packet is formed (R324) -/

/-- The fields of STR_TX_STAT once a packet with the number `n` has been formed. -/
def sentFields (x n : Nat) : List (Field × Nat) := [(R.STR_TX_STAT_ACTIVE x, 1), (R.STR_TX_STAT_SEQ x, n % 2 ^ 16)]

theorem sentFields_addr (x n : Nat) : ∀ w ∈ sentFields x n, w.1.addr = (R.STR_TX_STAT_SEQ x).addr := by
  simp [sentFields, R.STR_TX_STAT_ACTIVE, R.STR_TX_STAT_SEQ]

theorem sentFields_read (d : Dev) (x n : Nat) : ∀ w ∈ sentFields x n, (d.setFlds (sentFields x n)).fld w.1 = w.2 := by
  have fit : ∀ w ∈ sentFields x n, w.1.lo + w.1.w ≤ 32 := by simp [sentFields, R.STR_TX_STAT_ACTIVE, R.STR_TX_STAT_SEQ]
  have parts : (sentFields x n).Pairwise (fun a b => apart b.1 a.1) := by simp [sentFields, apart, R.STR_TX_STAT_ACTIVE, R.STR_TX_STAT_SEQ]
  have whole : ∀ w ∈ sentFields x n, w.2 % 2 ^ w.1.w = w.2 := by simp [sentFields, R.STR_TX_STAT_ACTIVE, R.STR_TX_STAT_SEQ]
  exact fun w hw => (fld_setFlds_of_pairwise fit d parts hw).trans (whole w hw)

/-- The part once the next packet of stream `x`, whose one entry is `e`, has been formed: the samples that neither the next packet nor
block `t - 1` needs are gone. -/
def packetFormed (d : Dev) (x t : Nat) (e : List Nat) : Dev :=
  (d.setTx x { d.tx x with q := (d.tx x).q + 1, line := (d.tx x).line.filter (fun p =>
    decide (min (((d.tx x).q + 1) * StrE.pkt e) (d.txStart (d.tx x) e (t - 1)) ≤ p.1)) }).setFlds
      (sentFields x (StrE.seqRef e + (d.tx x).q))

/-- The packet of stream `x` that is next, for network `m`. -/
def nextPacket (d : Dev) (x : Nat) (e : List Nat) (m : Nat) : List Nat := rtpPacket e (d.tx x).line (d.tx x).q m

/-- The part once the packet has been formed and offered to both MACs. -/
def packetQueued (d : Dev) (x t : Nat) (e : List Nat) : Dev :=
  packetOffered x e 1 (nextPacket d x e 1) (packetOffered x e 0 (nextPacket d x e 0) (packetFormed d x t e))

theorem txForm_of_due {d : Dev} {x t t0 : Nat} {e : List Nat} (works : d.works strBase = true) (one : (d.tx x).cfgs = [(t0, e)]) (entry : e ≠ [])
    (media : StrE.aux e = false) (frames : 0 < StrE.pkt e) (passed : ((d.tx x).q + 1) * StrE.pkt e ≤ d.gridAt (StrE.fn e) t) :
    d.txForm x t = (true, packetQueued d x t e) := by
  have start : d.txStart (d.tx x) e t = d.gridAt (StrE.fn e) t := if_neg (by simp [media])
  have pick : txPick d (d.tx x) (d.tx x).cfgs = some (e, (d.tx x).q, (d.tx x).cfgs) := by
    rw [one]
    exact if_neg (by simpa using entry)
  have due : ¬ (StrE.pkt e = 0 ∨ d.txStart (d.tx x) e t < ((d.tx x).q + 1) * StrE.pkt e ∨ (!d.works strBase) = true) := by
    rw [start, works]
    simp only [Bool.not_true, Bool.false_eq_true, or_false]
    omega
  unfold Dev.txForm
  simp only [pick]
  exact if_neg due

/-! ## What the packet leaves alone, and where it waits -/

/-- What decides about a packet at MAC `m`, with the MAC itself. -/
def offerView (m : Nat) (d : Dev) : EthM × Bool × Nat × Bool :=
  (d.mac m, d.sendsStreams, d.fld (R.ETH_MAXFRM_MAXFRM m), d.flag (R.ETH_LINK_LINK_UP m))

theorem joinsQueue_of_offerView {d g : Dev} {m : Nat} (same : offerView m g = offerView m d) (e l : List Nat) :
    joinsQueue g e m l ↔ joinsQueue d e m l := by
  simp only [offerView, Prod.mk.injEq] at same
  obtain ⟨-, sends, longest, up⟩ := same
  rw [joinsQueue, sends, longest, up, joinsQueue]

/-- The queue that a packet joins ends with it; a MAC whose queue it does not join is as it was. -/
theorem packetOffered_queue {d g : Dev} {m : Nat} (same : offerView m g = offerView m d) (x : Nat) (e l : List Nat) :
    (joinsQueue d e m l → ((packetOffered x e m l g).mac m).stx = (d.mac m).stx ++ [⟨x, l⟩]) ∧
    (¬ joinsQueue d e m l → (packetOffered x e m l g).mac m = d.mac m) := by
  have mac : g.mac m = d.mac m := congrArg Prod.fst same
  rw [← joinsQueue_of_offerView same]
  refine ⟨fun joins => ?_, fun drops => ?_⟩
  · rw [packetOffered_joins x joins, mac_setMac_self, mac]
  · rw [packetOffered_mac_of_drop x drops, mac]

theorem sendsStreams_of {d g : Dev} (hdr : g.hdr = d.hdr) (tth : g.tth = d.tth) : g.sendsStreams = d.sendsStreams := by
  rw [Dev.sendsStreams, effEn_of_hdr hdr, tth, Dev.sendsStreams]

theorem sendsStreams_packetOffered (d : Dev) (e : List Nat) (m : Nat) (l : List Nat) (x : Nat) :
    (packetOffered x e m l d).sendsStreams = d.sendsStreams :=
  packetOffered_keeps d e l m x Dev.sendsStreams (fun _ => rfl) (sendsStreams_of (by simp [Dev.strDrop]) (by simp [Dev.strDrop]))

/-- The packet at one MAC decides nothing about it at the other. -/
theorem offerView_packetOffered (d : Dev) (e : List Nat) {m j : Nat} (l : List Nat) {x : Nat} (other : j ≠ m) :
    offerView j (packetOffered x e m l d) = offerView j d := by
  have longest := packetOffered_fld d e l m x (f := R.ETH_MAXFRM_MAXFRM j) (by simp only [R.ETH_MAXFRM_MAXFRM, R.STR_TX_DROP_COUNT]; omega)
  have up := packetOffered_fld d e l m x (f := R.ETH_LINK_LINK_UP j) (by simp only [R.ETH_LINK_LINK_UP, R.STR_TX_DROP_COUNT]; omega)
  rw [offerView, packetOffered_mac_ne d e l m x other, sendsStreams_packetOffered, longest, Dev.flag, up, offerView, Dev.flag]

section
variable (d : Dev) (x t : Nat) (e : List Nat)

theorem packetFormed_tx : ((packetFormed d x t e).tx x).q = (d.tx x).q + 1 := by
  rw [packetFormed, Dev.tx, setFlds_str, Dev.setTx, smGet_smSet_self]

theorem packetFormed_fld {f : Field} (other : f.addr ≠ (R.STR_TX_STAT_SEQ x).addr) : (packetFormed d x t e).fld f = d.fld f :=
  fld_setFlds_of_addr (d.setTx x _) _ fun w hw => (sentFields_addr x _ w hw).symm ▸ other

theorem offerView_packetFormed (m : Nat) : offerView m (packetFormed d x t e) = offerView m d := by
  have sends : (packetFormed d x t e).sendsStreams = d.sendsStreams := sendsStreams_of (setFlds_hdr (d.setTx x _) _) (setFlds_tth (d.setTx x _) _)
  have longest := packetFormed_fld d x t e (f := R.ETH_MAXFRM_MAXFRM m) (by simp only [R.ETH_MAXFRM_MAXFRM, R.STR_TX_STAT_SEQ]; omega)
  have up := packetFormed_fld d x t e (f := R.ETH_LINK_LINK_UP m) (by simp only [R.ETH_LINK_LINK_UP, R.STR_TX_STAT_SEQ]; omega)
  rw [offerView, sends, longest, Dev.flag, up, packetFormed, mac_setFlds]
  rfl

/-- Offering the packet keeps all that new queues and dropped packets keep. -/
theorem packetQueued_keeps {β : Type} (view : Dev → β) (queue : ∀ g m y, view (Dev.setMac g m y) = view g)
    (drop : ∀ g, view (Dev.strDrop g x) = view g) :
    view (packetQueued d x t e) = view (packetFormed d x t e) :=
  (packetOffered_keeps _ e _ 1 x view (queue _ 1) (drop _)).trans (packetOffered_keeps _ e _ 0 x view (queue _ 0) (drop _))

theorem packetQueued_tx : ((packetQueued d x t e).tx x).q = (d.tx x).q + 1 :=
  (packetQueued_keeps d x t e (fun g => (g.tx x).q) (fun _ _ _ => rfl) (fun g => by simp [Dev.tx, Dev.strDrop])).trans (packetFormed_tx ..)

/-- STR_TX_STAT reads as the packet has left it: dropped packets count in another register. -/
theorem packetQueued_fld : ∀ w ∈ sentFields x (StrE.seqRef e + (d.tx x).q), (packetQueued d x t e).fld w.1 = w.2 := by
  intro w hw
  have other : w.1.addr ≠ (R.STR_TX_DROP_COUNT x).addr := by simp [sentFields_addr x _ w hw, R.STR_TX_STAT_SEQ, R.STR_TX_DROP_COUNT]
  exact (packetQueued_keeps d x t e (·.fld w.1) (fun g m y => fld_setMac ..) (fun g => (fld_note ..).trans (fld_count_of_addr _ _ other))).trans
    (sentFields_read (d.setTx x _) x _ w hw)

theorem packetQueued_memory : (packetQueued d x t e).tabs = d.tabs ∧ (packetQueued d x t e).hostMem = d.hostMem := by
  have kept := packetQueued_keeps d x t e (fun g => (g.tabs, g.hostMem)) (fun _ _ _ => rfl) (fun g => by simp [Dev.strDrop])
  simp only [Prod.mk.injEq, packetFormed, setFlds_tabs, setFlds_hostMem] at kept
  exact kept

/-- The packet joins the queue of each MAC that can carry it, and leaves the other MAC alone. -/
theorem packetQueued_queue {m : Nat} (mac : m < 2) :
    (joinsQueue d e m (nextPacket d x e m) → ((packetQueued d x t e).mac m).stx = (d.mac m).stx ++ [⟨x, nextPacket d x e m⟩]) ∧
    (¬ joinsQueue d e m (nextPacket d x e m) → (packetQueued d x t e).mac m = d.mac m) := by
  have formed := offerView_packetFormed d x t e m
  obtain rfl | rfl : m = 0 ∨ m = 1 := by omega
  · rw [packetQueued, packetOffered_mac_ne _ _ _ _ _ (by decide)]
    exact packetOffered_queue formed x e _
  · exact packetOffered_queue ((offerView_packetOffered _ e _ (by decide)).trans formed) x e _

end

/-! ## A late packet (R326) -/

/-- The first element picked is the one before which none is. -/
theorem takeFirst_of_split {α : Type} {p : α → Bool} {a : α} (l r : List α) (picked : p a = true) (before : ∀ b ∈ l, p b = false) :
    takeFirst p (l ++ a :: r) = some (a, l ++ r) := by
  induction l with
  | nil => exact if_pos picked
  | cons b l ih =>
    rw [List.forall_mem_cons] at before
    rw [List.cons_append, takeFirst, if_neg (by simp [before.1]), ih before.2]
    rfl

theorem txLate_of_split {d : Dev} {m x : Nat} {p : StxPkt} {l r : List StxPkt} (waits : (d.mac m).stx = l ++ p :: r) (own : p.stream = x)
    (first : ∀ q ∈ l, q.stream ≠ x) :
    d.txLate m x = (((d.setMac m { d.mac m with stx := l ++ r }).count (R.STR_TX_LATE_COUNT x)).raise F.txLate).note .strLate := by
  have late : takeFirst (fun q : StxPkt => q.stream == x) (d.mac m).stx = some (p, l ++ r) := by
    rw [waits, takeFirst_of_split l r (by simp [own]) (by simpa using first)]
  simp only [Dev.txLate, late]

end Sys2Proof.Proofs
end

section
/-! Media streams: STREAM_CFG, rates, silence and transmit packets (10 R312, R313, R316, R320, R324, R326). Settles O41. -/
namespace Sys2Proof.Proofs
open Sys2Proof.Machine Sys2Proof.Laws

/-- Settles O41: STREAM_CFG by the entry that results, receive streams by what each measure makes of them, and a transmit packet by
where it is offered. Where no time has passed on TB the rate is the operand's, the model's choice (log 114). -/
theorem streamEntriesRatesAndPackets : Obligations.StreamEntriesRatesAndPackets := by
  unfold Obligations.StreamEntriesRatesAndPackets
  refine ⟨fun s c applies => ?cfg,
    fun s x seen => ⟨fun standby => ?standby, fun active works enabled => ⟨fun locked used => ⟨?far, ?near⟩, ?unready, ?recover⟩⟩,
    fun s x m works => ⟨?inactive, fun up => ⟨?told, ?untold⟩⟩, fun s x t e => ?packet, fun s m x p l r waits own first => ?late⟩
  case cfg =>
    refine ⟨fun empty => makes_streamCfg applies (streamCfg_empty _ empty),
      fun asked far => makes_streamCfg applies (streamCfg_far _ asked far), fun asked few fits =>
      ⟨fun k fails => makes_streamCfg applies (streamCfg_refused _ asked few fits fails), fun passes =>
        ⟨cfgWritten c (s.dev.unqueue c), makes_streamCfg applies (streamCfg_writes _ asked few fits passes), fun i given => ?_, fun i other => ?_,
          fun u other => cfgWritten_tab_ne c _ other, cfgWritten_changed .., ?_⟩⟩⟩
    · exact ⟨cfgWritten_word c _ (cp := Tab.live) (by simp) given, cfgWritten_word c _ (cp := Tab.staged) (by simp) given⟩
    · exact ⟨cfgWritten_word_ne c _ (cp := Tab.live) (by simp) other, cfgWritten_word_ne c _ (cp := Tab.staged) (by simp) other⟩
    · have frame := cfgWritten_frame c (s.dev.unqueue c)
      exact ⟨(congrArg Dev.regs frame :), (congrArg Dev.hostMem frame :), (congrArg Dev.str frame :), (congrArg Dev.top frame :)⟩
  case standby =>
    exact ⟨makes_ownMeasure_standby (exec_streamRateCheck x seen s) standby, makes_ownMeasure_standby (exec_streamRateRecover x s) standby⟩
  case far => exact fun far => makes_ownMeasure (exec_streamRateCheck x seen s) active (strRateCheck_of_far seen works enabled locked used far)
  case near => exact fun near => makes_ownMeasure (exec_streamRateCheck x seen s) active (strRateCheck_of_near seen works enabled locked used near)
  case unready => exact fun unready => makes_ownMeasure (exec_streamRateCheck x seen s) active (strRateCheck_of_unready seen unready)
  case recover => exact fun out => makes_ownMeasure (exec_streamRateRecover x s) active (strRateRecover_of_out works enabled out)
  case inactive => exact fun playing => makes_of _ (exec_streamInactive x s) (streamInactive_of_playing works playing)
  case told =>
    rintro ⟨enabled, netA, netB, other⟩
    refine makes_of _ (exec_pathLost x m s) (pathLost_told works up ?_)
    change s.dev.flag (otherPath x m) = true at other
    simp [pathTold, enabled, netA, netB, other]
  case untold =>
    intro alone
    refine makes_of _ (exec_pathLost x m s) (pathLost_untold works up ?_)
    change _ ∨ _ ∨ _ ∨ s.dev.flag (otherPath x m) = false at alone
    simpa only [pathTold, Bool.and_eq_false_iff, or_assoc] using alone
  case packet =>
    intro d works one entry media frames passed
    have formed := txForm_of_due works one entry media frames passed
    have stat := packetQueued_fld d x (d.top.tick - 1) e
    refine ⟨packetQueued d x (d.top.tick - 1) e, makes_of _ (exec_txPacketQueue x s) (by rw [formed]), packetQueued_tx .., ?_, ?_,
      fun m mac => packetQueued_queue d x _ e mac, packetQueued_memory ..⟩
    · exact flag_of_fld (stat (R.STR_TX_STAT_ACTIVE x, 1) (by simp [sentFields]))
    · exact stat (R.STR_TX_STAT_SEQ x, _) (by simp [sentFields])
  case late => exact makes_of _ (exec_txLate m x s) (txLate_of_split waits own first)

end Sys2Proof.Proofs
end

section
/-! Every command completes, and a run takes one command a step (01, 02). Settles O1, O3 and O4. -/
namespace Sys2Proof.Proofs
open Sys2Proof.Machine

/-- Settles O1: what `step` does with a command at the front. -/
theorem stepRunsTheFrontCommand : Obligations.StepRunsTheFrontCommand := by
  unfold Obligations.StepRunsTheFrontCommand
  intro c rest s front
  simp only [step, front]

/-- Settles O3: a command acts on the part alone. -/
theorem noCommandStopsThePart : Obligations.NoCommandStopsThePart := by
  unfold Obligations.NoCommandStopsThePart
  intro c s
  obtain ⟨d, made⟩ := exists_makes c s
  exact ⟨_, made, rfl⟩

/-- A step answers a next state and takes one command off the queue, where one waits. -/
theorem step_drops_one (s : State) : ∃ t : State, step s = .next t ∧ t.pending = s.pending.drop 1 := by
  cases waiting : s.pending with
  | nil => exact ⟨{ s with dev := (s.dev.timePasses 1).vector0 }, by simp only [step, waiting, State.act], waiting⟩
  | cons c rest =>
    obtain ⟨t, made, queue⟩ := noCommandStopsThePart c { s with pending := rest }
    exact ⟨t, (stepRunsTheFrontCommand c rest s waiting).trans made, queue⟩

/-- Settles O4, by induction on the number of steps. -/
theorem queueOfNCommandsDrainsInNSteps : Obligations.QueueOfNCommandsDrainsInNSteps := by
  unfold Obligations.QueueOfNCommandsDrainsInNSteps
  intro s k
  induction k generalizing s with
  | zero => exact ⟨s, rfl, rfl⟩
  | succ k ih =>
    obtain ⟨t, stepped, queue⟩ := step_drops_one s
    obtain ⟨u, ran, rest⟩ := ih t
    refine ⟨u, ?_, by rw [rest, queue, List.drop_drop, Nat.add_comm]⟩
    have first : Sys2Proof.core.step s = .next t := stepped
    simpa only [Host.Core.run, first] using ran

end Sys2Proof.Proofs
end

section
/-! SUPPORT. How a DSP core issues an instruction: what an executed one retires with, and what stops the core (14 R426, R428, R436, R446). -/
namespace Sys2Proof.Proofs
open Sys2Proof.Machine Sys2Proof.Laws

@[simp] theorem core_setCore_self (d : Dev) (k : Nat) (x : Core) : (d.setCore k x).core k = x := smGet_smSet_self ..

theorem core_setCore_ne (d : Dev) {k j : Nat} (x : Core) (h : j ≠ k) : (d.setCore k x).core j = d.core j := smGet_smSet_ne _ _ _ h

/-! ## Registers of a core (R426) -/

section Registers
variable (x : Core) (n : Nat)

theorem dN_setD_self (v : Int) : (x.setD n v).dN n = (BitVec.ofInt 32 v).toNat := congrArg BitVec.toNat (smGet_smSet_self ..)

theorem dN_setD_ne (v : Int) {m : Nat} (h : m ≠ n) : (x.setD n v).dN m = x.dN m := congrArg BitVec.toNat (smGet_smSet_ne _ _ _ h)

theorem aN_setA_self (v : Int) : (x.setA n v).aN n = (BitVec.ofInt 32 v).toNat := congrArg BitVec.toNat (smGet_smSet_self ..)

@[simp] theorem xI_setX_self (v : Int) : (x.setX n v).xI n = v := smGet_smSet_self ..

theorem xI_setX_ne (v : Int) {m : Nat} (h : m ≠ n) : (x.setX n v).xI m = x.xI m := smGet_smSet_ne _ _ _ h

theorem dN_lt : x.dN n < 2 ^ 32 := (smGet (fun _ => 0#32) x.d n).isLt

theorem dI_eq_toInt : x.dI n = (smGet (fun _ => 0#32) x.d n).toInt := sx_toNat _

/-- A data register read as a number lies in 32 bits. -/
theorem dI_fits : -2 ^ 31 ≤ x.dI n ∧ x.dI n < 2 ^ 31 := by
  rw [dI_eq_toInt]
  exact ⟨BitVec.le_toInt _, BitVec.toInt_lt⟩

/-- A data register that takes a 32-bit number reads as that number. -/
theorem dI_setD_self {v : Int} (h : -2 ^ 31 ≤ v ∧ v < 2 ^ 31) : (x.setD n v).dI n = v := by
  rw [dI_eq_toInt, show smGet (fun _ => 0#32) (x.setD n v).d n = BitVec.ofInt 32 v from smGet_smSet_self .., BitVec.toInt_ofInt]
  exact Int.bmod_eq_of_le (by omega) (by omega)

end Registers

/-! ## Saturation (R428, R429) -/

/-- A saturated number fits. -/
theorem satS_fits {w : Nat} (v : Int) : -2 ^ (w - 1) ≤ satS w v ∧ satS w v < 2 ^ (w - 1) := by
  have pos : (0 : Int) < 2 ^ (w - 1) := by positivity
  have range := clampI_between v (show -(2 ^ (w - 1) : Int) ≤ 2 ^ (w - 1) - 1 by omega)
  exact ⟨range.1, by unfold satS; omega⟩

theorem satS_of_fits {w : Nat} {v : Int} (h : -2 ^ (w - 1) ≤ v ∧ v < 2 ^ (w - 1)) : satS w v = v := by
  unfold satS clampI
  rw [if_neg (by omega), if_neg (by omega)]

section Results
variable (x : Core) (n : Nat) (v : Int)

@[simp] theorem xI_accum_self : (x.accum n v).xI n = satS 72 v := smGet_smSet_self ..

theorem xI_accum_ne {m : Nat} (h : m ≠ n) : (x.accum n v).xI m = x.xI m := smGet_smSet_ne _ _ _ h

@[simp] theorem ov_accum : (x.accum n v).ov = (x.ov || decide (satS 72 v ≠ v)) := congrArg (x.ov || ·) (by simp [bne, BEq.beq])

theorem dI_setSat_self : (x.setSat n v).dI n = satS 32 v := dI_setD_self x n (satS_fits v)

theorem dN_setSat_ne {m : Nat} (h : m ≠ n) : (x.setSat n v).dN m = x.dN m := dN_setD_ne x n _ h

@[simp] theorem sat_setSat : (x.setSat n v).sat = (x.sat || decide (satS 32 v ≠ v)) := congrArg (x.sat || ·) (by simp [bne, BEq.beq])

end Results

/-! ## The program counter moves on (R433 to R436) -/

/-- The core `x` with data registers, accumulators and sticky bits of `y`. -/
def withResults (x y : Core) : Core := { x with d := y.d, x := y.x, sat := y.sat, ov := y.ov }

/-- Where control goes does not depend on results. -/
theorem next_withResults (x y : Core) : (withResults x y).next = withResults x.next y := by
  unfold Core.next withResults
  dsimp only
  repeat' split
  all_goals rfl

/-- Moving on changes the program counter, the loop stack, the repeat count and the delay slots alone. -/
theorem next_frame (x : Core) : x.next = { x with pc := x.next.pc, loops := x.next.loops, rep := x.next.rep, slot := x.next.slot } := by
  unfold Core.next
  dsimp only
  repeat' split
  all_goals rfl

/-- An operation gives results alone: it changes data registers, accumulators and sticky bits. -/
def resultsOnly (x y : Core) : Prop := y = withResults x y

theorem next_of_resultsOnly {x y : Core} (h : resultsOnly x y) : y.next = withResults x.next y := by
  rw [← next_withResults, ← h]

theorem goesOn_next {x y : Core} (h : resultsOnly x y) : x.goesOn y.next := by
  rw [next_of_resultsOnly h, Core.goesOn, next_frame x]
  exact ⟨rfl, rfl, rfl, rfl, rfl, rfl, rfl, rfl, rfl, rfl, rfl, rfl, rfl, rfl, rfl, rfl, rfl, rfl⟩

/-- What an instruction put into data registers, accumulators and sticky bits stays as the core moves on. -/
theorem next_results (y : Core) : y.next.d = y.d ∧ y.next.x = y.x ∧ y.next.sat = y.sat ∧ y.next.ov = y.ov := by
  rw [next_frame]
  exact ⟨rfl, rfl, rfl, rfl⟩

@[simp] theorem next_d (y : Core) : y.next.d = y.d := (next_results y).1
@[simp] theorem next_x (y : Core) : y.next.x = y.x := (next_results y).2.1
@[simp] theorem next_sat (y : Core) : y.next.sat = y.sat := (next_results y).2.2.1
@[simp] theorem next_ov (y : Core) : y.next.ov = y.ov := (next_results y).2.2.2
@[simp] theorem next_dN (y : Core) (n : Nat) : y.next.dN n = y.dN n := by simp [Core.dN]
@[simp] theorem next_dI (y : Core) (n : Nat) : y.next.dI n = y.dI n := by simp [Core.dI]
@[simp] theorem next_xI (y : Core) (n : Nat) : y.next.xI n = y.xI n := by simp [Core.xI]

/-! ## Issue (R430, R431, R446) -/

section Issue
variable {d : Dev} {k : Nat} {ctl ok : Bool} {dst : List Nat} {ops : List MemOp} {f : Nat → Core → Core}

/-- An instruction that may not stand where it stands, or does not exist, stops the core with ILLEGAL. -/
theorem issueGo_illegal (runs : coreRuns d k = true) (bad : ok = false ∨ opsOk ops = false ∨ ctl = true ∧ (d.core k).barred = true) :
    d.issueGo k ctl ok dst ops f = (false, d.coreStop k 1) := by
  have bar : (!ok || !opsOk ops || (ctl && (d.core k).barred)) = true := by
    rcases bad with h | h | ⟨h, h'⟩ <;> simp [*]
  rw [Dev.issueGo, if_neg (by simp [runs])]
  exact if_pos bar

/-- An instruction that the core executes: its operation on the registers that it read, then the memory operations. -/
theorem issueGo_executes (h : d.executes k dst ops) (free : ctl = true → (d.core k).barred = false) :
    d.issueGo k ctl true dst ops f = (true, (d.setCore k (d.spent k (f ((d.core k).free 0) (d.core k)))).afterOps k (d.core k) ops) := by
  obtain ⟨runs, stand, ready, once, onceA⟩ := h
  have noFault : ops.findSome? (fun m => opFault d k (d.core k) m) = none := List.findSome?_eq_none_iff.2 (fun m hm => (ready m hm).1)
  have noStall : ops.any (fun m => opStalls (d.core k) m) = false := List.any_eq_false.2 (fun m hm => by simp [(ready m hm).2])
  have legal : (!true || !opsOk ops || (ctl && (d.core k).barred)) = false := by
    cases ctl <;> simp_all
  rw [Dev.issueGo, if_neg (by simp [runs])]
  simp only [legal, Bool.false_eq_true, if_false, noFault, noStall, once, onceA, List.isEmpty_nil, Bool.and_self, if_true]
  rfl

/-- An instruction that the core executes where it may stand retires with its operation's result. -/
theorem retires_issue {i : Instr} {s : State} {P : Core → Prop} {g : Dev → Dev} (meaning : exec i s = s.act g)
    (acts : g s.dev = s.dev.issue k ctl true dst ops f) (h : s.dev.executes k dst ops) (place : ctl = true → (s.dev.core k).barred = false)
    (result : P (f ((s.dev.core k).free 0) (s.dev.core k))) : Retires i s k ops P :=
  ⟨_, makes_of g meaning (acts.trans (congrArg Prod.snd (issueGo_executes h place) :)), result⟩

/-- A plain instruction: its result, moved on. -/
theorem retires_plain {i : Instr} {s : State} {P : Core → Prop} (meaning : exec i s = s.act (fun d => d.plain k true dst ops f))
    (h : s.dev.executes k dst ops) (result : P ((f ((s.dev.core k).free 0) (s.dev.core k)).next)) : Retires i s k ops P :=
  retires_issue meaning rfl h (by simp) result

/-- A control instruction (R434, R436). -/
theorem retires_control {i : Instr} {s : State} {P : Core → Prop} {g : Dev → Dev} (meaning : exec i s = s.act g)
    (acts : g s.dev = s.dev.control k true ops f) (h : s.dev.executes k [] ops) (place : (s.dev.core k).barred = false)
    (result : P ((s.dev.core k).again (f ((s.dev.core k).free 0) { s.dev.core k with rep := none }))) : Retires i s k ops P :=
  retires_issue meaning acts h (fun _ => place) result

end Issue

end Sys2Proof.Proofs
end

section
/-! The multiply group (14 R428). Settles O50. -/
namespace Sys2Proof.Proofs
open Sys2Proof.Machine Sys2Proof.Laws

/-- What an instruction that puts `v` into accumulator `n` alone leaves. -/
theorem accum_next (c : Core) (n : Nat) (v : Int) : let g := (c.accum n v).next
    g.xI n = satS 72 v ∧ g.ov = (c.ov || decide (satS 72 v ≠ v)) ∧ (∀ m, m ≠ n → g.xI m = c.xI m) ∧ g.d = c.d ∧ g.sat = c.sat ∧ c.goesOn g := by
  refine ⟨?_, ?_, fun m other => ?_, next_d _, next_sat _, goesOn_next rfl⟩
  · rw [next_xI, xI_accum_self]
  · rw [next_ov, ov_accum]
  · rw [next_xI, xI_accum_ne c n v other]

/-- Settles O50: each instruction of the group puts its sum into accumulators by `Core.accum`. -/
theorem productsAccumulateExactly : Obligations.ProductsAccumulateExactly := by
  unfold Obligations.ProductsAccumulateExactly
  intro s k x y a b e f ops c P Q one
  refine ⟨fun h => ⟨retires_plain rfl h (accum_next ..), retires_plain rfl h (accum_next ..), retires_plain rfl h (accum_next ..),
    retires_plain rfl h (accum_next ..), ?clr, ?pmac⟩, ?same⟩
  case clr =>
    refine retires_plain rfl h ⟨?_, next_ov _, fun n other => ?_, next_d _, next_sat _, goesOn_next rfl⟩
    · rw [next_xI, xI_setX_self]
    · rw [next_xI, xI_setX_ne c _ _ other]
  case pmac =>
    intro differ
    have apart : x.val ≠ y.val := fun h => differ (Fin.ext h)
    have meaning : exec (.pmac k x y a b e f ops) s = s.act (fun d => d.plain k.val true [] ops (fun _ c =>
        (c.accum x.val (c.xI x.val + c.dI a.val * c.dI b.val)).accum y.val (c.xI y.val + c.dI e.val * c.dI f.val))) := by
      rw [show true = (x != y) by simpa using differ]; rfl
    refine retires_plain meaning h ⟨?_, ?_, fun n hx hy => ?_, ?_, next_d _, next_sat _, goesOn_next rfl⟩
    · rw [next_xI, xI_accum_ne _ _ _ apart, xI_accum_self]
    · rw [next_xI, xI_accum_self]
    · rw [next_xI, xI_accum_ne _ _ _ hy, xI_accum_ne _ _ _ hx]
    · rw [next_ov, ov_accum, ov_accum]
  case same =>
    intro runs
    refine makes_of (·.plain k.val (x != x) [] ops (fun _ c =>
      (c.accum x.val (c.xI x.val + c.dI a.val * c.dI b.val)).accum x.val (c.xI x.val + c.dI e.val * c.dI f.val))) rfl ?_
    simp only [Dev.plain, Dev.issue]
    rw [issueGo_illegal runs (.inl (bne_self_eq_false x))]

end Sys2Proof.Proofs
end

section
/-! Extractions (14 R429). Settles O51. -/
namespace Sys2Proof.Proofs
open Sys2Proof.Machine Sys2Proof.Laws

/-! ## Rounding a quotient (R11, R429) -/

/-- Rounding half to even: the nearest, the even one of two. -/
theorem divEven_nearest (a : Int) {b : Nat} (pos : 0 < b) :
    2 * (a - divEven a b * b).natAbs ≤ b ∧ (2 * (a - divEven a b * b).natAbs = b → divEven a b % 2 = 0) := by
  have rest := Int.mul_ediv_add_emod a b
  have low := Int.emod_nonneg a (b := (b : Int)) (by omega)
  have high := Int.emod_lt_of_pos a (b := (b : Int)) (by omega)
  simp only [divEven]
  generalize a / (b : Int) = q at *
  generalize a % (b : Int) = r at *
  have down : a - q * b = r := by rw [← rest]; ring
  have up : a - (q + 1) * b = r - b := by rw [← rest]; ring
  repeat' split
  all_goals simp only [down, up]
  all_goals omega

/-- Rounding half away from zero: the nearest, the larger in magnitude of two. -/
theorem divAway_nearest (a : Int) {b : Nat} (pos : 0 < b) :
    2 * (a - divAway a b * b).natAbs ≤ b ∧ (2 * (a - divAway a b * b).natAbs = b → a.natAbs ≤ (divAway a b * b).natAbs) := by
  have nearest (m : Int) (nonneg : 0 ≤ m) : -(b : Int) < 2 * (m - (2 * m + b) / (2 * b) * b) ∧ 2 * (m - (2 * m + b) / (2 * b) * b) ≤ b ∧
      2 * (m - (2 * m + b) / (2 * b) * b) ≠ b ∨ -(b : Int) = 2 * (m - (2 * m + b) / (2 * b) * b) := by
    have rest := Int.mul_ediv_add_emod (2 * m + b) (2 * b)
    have low := Int.emod_nonneg (2 * m + b) (b := 2 * (b : Int)) (by omega)
    have high := Int.emod_lt_of_pos (2 * m + b) (b := 2 * (b : Int)) (by omega)
    have twice : 2 * (b : Int) * ((2 * m + b) / (2 * b)) = 2 * ((2 * m + b) / (2 * b) * b) := by ring
    omega
  unfold divAway
  split
  case isTrue nonneg =>
    have := nearest a nonneg
    omega
  case isFalse negative =>
    have := nearest (-a) (by omega)
    rw [Int.neg_mul]
    omega

/-- Rounding toward minus infinity. -/
theorem divFloor_between (a : Int) {b : Nat} (pos : 0 < b) : divFloor a b * b ≤ a ∧ a < (divFloor a b + 1) * b := by
  have positive : (0 : Int) < b := by omega
  exact ⟨Int.ediv_mul_le a (by omega), Int.lt_ediv_add_one_mul_self a positive⟩

/-- What an instruction that puts `v`, saturated, into data register `n` leaves. -/
theorem setSat_next (c : Core) (n : Nat) (v : Int) : let g := (c.setSat n v).next
    g.dI n = satS 32 v ∧ g.sat = (c.sat || decide (satS 32 v ≠ v)) ∧ (∀ m, m ≠ n → g.dN m = c.dN m) ∧ g.x = c.x ∧ g.ov = c.ov ∧ c.goesOn g := by
  refine ⟨?_, ?_, fun m other => ?_, next_x _, next_ov _, goesOn_next rfl⟩
  · rw [next_dI, dI_setSat_self]
  · rw [next_sat, sat_setSat]
  · rw [next_dN, dN_setSat_ne c n v other]

/-- Settles O51: each extraction saturates its own rounding of the quotient. -/
theorem extractionsRoundAndSaturate : Obligations.ExtractionsRoundAndSaturate := by
  unfold Obligations.ExtractionsRoundAndSaturate
  intro s k t x sh ops h c X near tie into
  have pos : 0 < 2 ^ sh.val := by positivity
  have even := divEven_nearest X pos
  have away := divAway_nearest X pos
  have floor := divFloor_between X pos
  push_cast at even away floor
  refine ⟨⟨divEven X (2 ^ sh.val), even.1, even.2, retires_plain rfl h (setSat_next ..)⟩,
    ⟨divAway X (2 ^ sh.val), away.1, away.2, retires_plain rfl h (setSat_next ..)⟩,
    ⟨divFloor X (2 ^ sh.val), floor.1, floor.2, retires_plain rfl h (setSat_next ..)⟩, fun u g product scale => retires_plain rfl h ?_⟩
  rw [← product, ← scale]
  exact (setSat_next ..).1

end Sys2Proof.Proofs
end

section
/-! SUPPORT. Data instructions of a DSP core: exponents, shifts, words and addresses (14 R424, R427, R430 to R432). -/
namespace Sys2Proof.Proofs
open Sys2Proof.Machine Sys2Proof.Laws

/-! ## Exponents (R430) -/

theorem bitLen_between {n : Nat} (pos : 0 < n) : 2 ^ (bitLen n - 1) ≤ n ∧ n < 2 ^ bitLen n ∧ 1 ≤ bitLen n := by
  rw [bitLen, if_neg (by omega)]
  exact ⟨Nat.log2_self_le (by omega), Nat.lt_log2_self, by omega⟩

theorem bitLen_le {n w : Nat} (h : n < 2 ^ w) : bitLen n ≤ w := by
  rcases Nat.eq_zero_or_pos n with rfl | pos
  · simp [bitLen]
  · obtain ⟨low, -, -⟩ := bitLen_between pos
    have := (Nat.pow_lt_pow_iff_right (by omega : 1 < 2)).1 (Nat.lt_of_le_of_lt low h)
    omega

/-- A number of `m` bits brought to `w` bits lies in the upper half of them. -/
theorem scaled_between {m w : Nat} (pos : 0 < m) (h : m < 2 ^ w) : 2 ^ (w - 1) ≤ m * 2 ^ (w - bitLen m) ∧ m * 2 ^ (w - bitLen m) < 2 ^ w := by
  obtain ⟨low, high, one⟩ := bitLen_between pos
  have fits := bitLen_le h
  have lowS := Nat.mul_le_mul_right (2 ^ (w - bitLen m)) low
  have highS := Nat.mul_lt_mul_of_pos_right high (Nat.two_pow_pos (w - bitLen m))
  rw [← Nat.pow_add, show bitLen m - 1 + (w - bitLen m) = w - 1 by omega] at lowS
  rw [← Nat.pow_add, show bitLen m + (w - bitLen m) = w by omega] at highS
  exact ⟨lowS, highS⟩

theorem signBits_le (w : Nat) (v : Int) : signBits w v ≤ w - 1 := Nat.sub_le ..

/-- The exponent of R430: how far a number can be shifted before it leaves half scale. -/
theorem signBits_scales {v : Int} (h : -2 ^ 31 ≤ v ∧ v < 2 ^ 31) :
    (v = 0 ∨ v = -1 → signBits 32 v = 31) ∧ (0 < v → 2 ^ 30 ≤ v * 2 ^ signBits 32 v ∧ v * 2 ^ signBits 32 v < 2 ^ 31) ∧
      (v < -1 → -2 ^ 31 ≤ v * 2 ^ signBits 32 v ∧ v * 2 ^ signBits 32 v < -2 ^ 30) := by
  refine ⟨by rintro (rfl | rfl) <;> rfl, fun positive => ?_, fun negative => ?_⟩
  · obtain ⟨m, rfl⟩ := Int.eq_ofNat_of_zero_le positive.le
    have eq : signBits 32 m = 31 - bitLen m := by simp [signBits, not_lt.2 positive.le]
    obtain ⟨low, high⟩ := scaled_between (m := m) (w := 31) (by omega) (by omega)
    rw [eq]
    zify at low high
    exact ⟨low, high⟩
  · obtain ⟨m, hm⟩ := Int.eq_ofNat_of_zero_le (show 0 ≤ -v - 1 by omega)
    have eq : signBits 32 v = 31 - bitLen m := by simp [signBits, show v < 0 by omega, hm]
    obtain ⟨low, high⟩ := scaled_between (m := m) (w := 31) (by omega) (by omega)
    have fits := bitLen_le (n := m) (w := 31) (by omega)
    have one := (bitLen_between (n := m) (by omega)).2.1
    have top : (m + 1) * 2 ^ (31 - bitLen m) ≤ 2 ^ 31 := by
      have := Nat.mul_le_mul_right (2 ^ (31 - bitLen m)) (Nat.succ_le_of_lt one)
      rwa [← Nat.pow_add, show bitLen m + (31 - bitLen m) = 31 by omega] at this
    have unit := Nat.two_pow_pos (31 - bitLen m)
    rw [eq, show v = -((m : Int) + 1) by omega]
    norm_num at low
    zify at low top unit
    generalize (2 : Int) ^ (31 - bitLen m) = p at *
    constructor <;> linarith

/-- Scaled by its exponent a number keeps 32 bits. -/
theorem scaled_fits {v : Int} (h : -2 ^ 31 ≤ v ∧ v < 2 ^ 31) : -2 ^ 31 ≤ v * 2 ^ signBits 32 v ∧ v * 2 ^ signBits 32 v < 2 ^ 31 := by
  obtain ⟨zero, positive, negative⟩ := signBits_scales h
  rcases lt_trichotomy v 0 with neg | rfl | pos
  · rcases eq_or_ne v (-1) with rfl | other
    · decide
    · obtain ⟨low, high⟩ := negative (by omega)
      exact ⟨low, by omega⟩
  · decide
  · obtain ⟨low, high⟩ := positive pos
    exact ⟨by omega, high⟩

/-! ## Words of two-operand instructions (R430) -/

section Words
variable (a b : Word)

theorem ofInt_toInt_add : BitVec.ofInt 32 (a.toInt + b.toInt) = a + b := by rw [BitVec.ofInt_add, BitVec.ofInt_toInt, BitVec.ofInt_toInt]

theorem ofInt_toInt_sub : BitVec.ofInt 32 (a.toInt - b.toInt) = a - b := by
  rw [Int.sub_eq_add_neg, BitVec.ofInt_add, BitVec.ofInt_neg, BitVec.ofInt_toInt, BitVec.ofInt_toInt, BitVec.sub_eq_add_neg]

/-- Which of two words is the lesser. -/
theorem slt_iff_toInt : a.slt b = true ↔ a.toInt < b.toInt := by rw [BitVec.slt_eq_decide, decide_eq_true_eq]

theorem ofInt_toInt_min : BitVec.ofInt 32 (min a.toInt b.toInt) = if a.slt b then a else b := by
  by_cases less : a.slt b = true
  · rw [if_pos less, min_eq_left ((slt_iff_toInt a b).1 less).le, BitVec.ofInt_toInt]
  · rw [if_neg less, min_eq_right (not_lt.1 (mt (slt_iff_toInt a b).2 less)), BitVec.ofInt_toInt]

theorem ofInt_toInt_max : BitVec.ofInt 32 (max a.toInt b.toInt) = if a.slt b then b else a := by
  by_cases less : a.slt b = true
  · rw [if_pos less, max_eq_right ((slt_iff_toInt a b).1 less).le, BitVec.ofInt_toInt]
  · rw [if_neg less, max_eq_left (not_lt.1 (mt (slt_iff_toInt a b).2 less)), BitVec.ofInt_toInt]

theorem ofInt_toInt_sshiftRight (n : Nat) : BitVec.ofInt 32 (divFloor a.toInt (2 ^ n)) = a.sshiftRight n := by
  rw [BitVec.sshiftRight, Int.shiftRight_eq_div_pow, divFloor]

end Words

/-- What an instruction that puts `v` into data register `n` leaves. -/
theorem setD_next (c : Core) (n : Nat) (v : Int) : let g := (c.setD n v).next
    g.dN n = (BitVec.ofInt 32 v).toNat ∧ g.sat = c.sat ∧ (∀ m, m ≠ n → g.dN m = c.dN m) ∧ g.x = c.x ∧ g.ov = c.ov ∧ c.goesOn g := by
  refine ⟨?_, next_sat _, fun m other => ?_, next_x _, next_ov _, goesOn_next rfl⟩
  · rw [next_dN, dN_setD_self]
  · rw [next_dN, dN_setD_ne c n v other]

/-- The words that a data register holds. -/
def dWord (c : Core) (n : Nat) : Word := smGet (fun _ => 0#32) c.d n

theorem ofNat_dN (c : Core) (n : Nat) : BitVec.ofNat 32 (c.dN n) = dWord c n := BitVec.ofNat_toNat _ _

theorem ofInt_not (w : Word) : BitVec.ofInt 32 (2 ^ 32 - 1 - (w.toNat : Int)) = ~~~ w := by
  have low := w.isLt
  rw [show (2 ^ 32 - 1 - (w.toNat : Int)) = ((2 ^ 32 - 1 - w.toNat : Nat) : Int) by omega, BitVec.ofInt_natCast]
  refine BitVec.eq_of_toNat_eq ?_
  rw [BitVec.toNat_ofNat, BitVec.toNat_not]
  omega

/-- The word of a two-operand instruction that does not saturate, where R430 states it. -/
theorem ofInt_aluValue (free : Nat) (a b : Word) : let word (f : AluFn) : Word := BitVec.ofInt 32 (aluValue f free a.toNat b.toNat)
    word .add = a + b ∧ word .sub = a - b ∧ word .band = a &&& b ∧ word .bor = a ||| b ∧ word .bxor = a ^^^ b ∧
    word .min = (if a.slt b then a else b) ∧ word .max = (if a.slt b then b else a) ∧
    (b.toNat < 32 → word .lsl = a <<< b.toNat ∧ word .lsr = a >>> b.toNat ∧ word .asr = a.sshiftRight b.toNat) := by
  simp only [aluValue, sx_toNat]
  refine ⟨ofInt_toInt_add a b, ofInt_toInt_sub a b, ?_, ?_, ?_, ofInt_toInt_min a b, ofInt_toInt_max a b, fun small => ?_⟩
  · rw [BitVec.ofInt_natCast, ← BitVec.toNat_and, BitVec.ofNat_toNat, BitVec.setWidth_eq]
  · rw [BitVec.ofInt_natCast, ← BitVec.toNat_or, BitVec.ofNat_toNat, BitVec.setWidth_eq]
  · rw [BitVec.ofInt_natCast, ← BitVec.toNat_xor, BitVec.ofNat_toNat, BitVec.setWidth_eq]
  · rw [if_pos small, if_pos small, if_pos small]
    refine ⟨?_, ?_, ofInt_toInt_sshiftRight a _⟩
    · rw [BitVec.ofInt_natCast]
      exact BitVec.eq_of_toNat_eq (by simp [Nat.shiftLeft_eq])
    · rw [BitVec.ofInt_natCast]
      refine BitVec.eq_of_toNat_eq ?_
      rw [BitVec.toNat_ofNat, BitVec.toNat_ushiftRight, Nat.shiftRight_eq_div_pow]
      exact Nat.mod_eq_of_lt (Nat.lt_of_le_of_lt (Nat.div_le_self ..) a.isLt)

/-! ## Shifts by a signed amount (R430) -/

theorem ashValue_left {v n : Int} (left : 0 ≤ n) (few : n ≤ 31) : ashValue v n = v * 2 ^ n.toNat := by
  rw [ashValue, if_pos left, Nat.min_eq_left (by omega)]

theorem ashValue_right {v n : Int} (right : n < 0) (few : -31 ≤ n) : ashValue v n = divEven v (2 ^ n.natAbs) := by
  rw [ashValue, if_neg (by omega), Nat.min_eq_left (by omega)]

/-- A right shift stays within 32 bits. -/
theorem divEven_fits {v : Int} (h : -2 ^ 31 ≤ v ∧ v < 2 ^ 31) (n : Nat) (some : 0 < n) : -2 ^ 31 ≤ divEven v (2 ^ n) ∧ divEven v (2 ^ n) < 2 ^ 31 := by
  have two : (2 : Int) ≤ (2 ^ n : Nat) := by
    have := Nat.pow_le_pow_right (show 0 < 2 by omega) some
    omega
  have := divEven_between (a := v) (lo := -2 ^ 31) (hi := 2 ^ 30) (b := 2 ^ n) (by positivity) (by nlinarith) (by nlinarith)
  omega

/-! ## Addresses (R431, R432) -/

/-- A modified address stays in its buffer and moves by the amount, around the buffer's end (R432). -/
theorem ringAdd_wraps {a n l : Nat} (x : Int) (some : 0 < l) (fits : l ≤ 2 ^ n) (least : ∀ j, l ≤ 2 ^ j → n ≤ j) :
    let b := a / 2 ^ n * 2 ^ n
    (b : Int) ≤ ringAdd a l x ∧ ringAdd a l x < b + l ∧ (ringAdd a l x - (a + x)) % l = 0 := by
  intro b
  have size : (if l = 1 then 0 else (l - 1).log2 + 1) = n := by
    split
    case isTrue one => exact (Nat.le_zero.1 (least 0 (by omega))).symm
    case isFalse more =>
      have low := Nat.log2_self_le (n := l - 1) (by omega)
      have high := Nat.lt_log2_self (n := l - 1)
      have := least ((l - 1).log2 + 1) (by omega)
      have : (l - 1).log2 < n := (Nat.pow_lt_pow_iff_right (by omega : 1 < 2)).1 (by omega)
      omega
  have start : a - a % 2 ^ n = b := by
    have := Nat.div_add_mod' a (2 ^ n)
    omega
  have below : b ≤ a := Nat.div_mul_le_self ..
  have eq : ringAdd a l x = b + ((a : Int) - b + x) % l := by
    rw [ringAdd, if_neg (by omega)]
    simp only [size, start]
    rw [Nat.cast_sub below]
  have low := Int.emod_nonneg ((a : Int) - b + x) (b := (l : Int)) (by omega)
  have high := Int.emod_lt_of_pos ((a : Int) - b + x) (b := (l : Int)) (by omega)
  refine ⟨by omega, by omega, Int.emod_eq_zero_of_dvd ⟨-(((a : Int) - b + x) / l), ?_⟩⟩
  have := Int.mul_ediv_add_emod ((a : Int) - b + x) l
  rw [eq]
  linarith

/-! ## Words of local memory (R423, R424) -/

theorem memRead_lt (m : List Host.Cell) (n : Nat) : ∀ a, ∀ b ∈ memRead m a n, b < 256 := by
  induction n with
  | zero => simp [memRead]
  | succ n ih =>
    intro a b hb
    rcases List.mem_cons.1 hb with rfl | hb
    · exact (memGet m a).isLt
    · exact ih _ b hb

theorem ofLe_lt {l : List Nat} (h : ∀ b ∈ l, b < 256) : ofLe l < 2 ^ (8 * l.length) := by
  induction l with
  | nil => simp [ofLe]
  | cons b r ih =>
    have := ih (fun x hx => h x (List.mem_cons_of_mem _ hx))
    have := h b (List.mem_cons_self ..)
    rw [ofLe, List.length_cons, show 8 * (r.length + 1) = 8 * r.length + 8 by ring, Nat.pow_add]
    omega

theorem memRead_length (m : List Host.Cell) (n : Nat) : ∀ a, (memRead m a n).length = n := by
  induction n with
  | zero => intro a; rfl
  | succ n ih => intro a; rw [memRead, List.length_cons, ih]

theorem memLe_lt (m : List Host.Cell) (a n : Nat) : memLe m a n < 2 ^ (8 * n) := by
  have := ofLe_lt (memRead_lt m n a)
  rwa [memRead_length] at this

section Local
variable {d : Dev} {k ea : Nat} (near : ea < 0x80000)
include near

theorem loadCounts_local : d.loadCounts k ea = d := if_neg (by simp only [staleRead]; simp; omega)

theorem storeCounts_local : d.storeCounts k ea = d := if_neg (by omega)

theorem coreRead_local (idle : (d.core k).q = []) : d.coreRead k ea = (some (memLe d.localMem (k * 0x80000 + ea) 4), d) := by
  rw [Dev.coreRead, if_pos near]
  simp only [Dev.localWord, idle]

theorem coreWrite_local (v : Nat) : d.coreWrite k ea v = { d with localMem := memWrite d.localMem (k * 0x80000 + ea) (leBytes 4 v) } := if_pos near

end Local

section Word
variable {d : Dev} {k : Nat} {x0 : Core} {m : MemOp} (narrow : m.wide = false) (near : (effective x0 m).1 < 0x80000)
include narrow near

theorem opLoad_local (load : m.store = false) (idle : (d.core k).q = []) : d.opLoad k x0 m =
    d.setCore k ((d.core k).setD m.reg.val (memLe d.localMem (k * 0x80000 + (effective x0 m).1) 4 : Nat)) := by
  simp only [Dev.opLoad, load, narrow, loadCounts_local near, coreRead_local near idle, Bool.false_eq_true, if_false, Option.getD_some]

/-- A word loaded and its address register modified. -/
theorem afterOps_load (load : m.store = false) (idle : (d.core k).q = []) : d.afterOps k x0 [m] =
    (d.setCore k ((d.core k).setD m.reg.val (memLe d.localMem (k * 0x80000 + (effective x0 m).1) 4 : Nat))).opModify k x0 m := by
  rw [← opLoad_local narrow near load idle]
  exact if_neg (by simp [load])

theorem opStore_local (store : m.store = true) : d.opStore k x0 m =
    { d with localMem := memWrite d.localMem (k * 0x80000 + (effective x0 m).1) (leBytes 4 (x0.dN m.reg.val)) } := by
  simp only [Dev.opStore, store, narrow, storeCounts_local near, coreWrite_local near, Bool.false_eq_true, if_false, if_true]

/-- A word stored and its address register modified. -/
theorem afterOps_store (store : m.store = true) : d.afterOps k x0 [m] =
    let e := d.opModify k x0 m
    { e with localMem := memWrite e.localMem (k * 0x80000 + (effective x0 m).1) (leBytes 4 (x0.dN m.reg.val)) } := by
  have nothing : d.opLoad k x0 m = d := if_pos store
  rw [← opStore_local narrow near store]
  simp only [Dev.afterOps, List.foldl_cons, List.foldl_nil, nothing]

end Word

/-- The core `y` after the post-modification of an operation that the registers `x0` address. -/
def modified (x0 : Core) (m : MemOp) (y : Core) : Core :=
  match (effective x0 m).2 with
  | some v => y.setA m.a.val v
  | none => y

theorem core_opModify (d : Dev) (k : Nat) (x0 : Core) (m : MemOp) : (d.opModify k x0 m).core k = modified x0 m (d.core k) := by
  cases new : (effective x0 m).2 <;> simp only [Dev.opModify, modified, new, core_setCore_self]

theorem opModify_frame (d : Dev) (k : Nat) (x0 : Core) (m : MemOp) : { d.opModify k x0 m with dsp := d.dsp } = d := by
  unfold Dev.opModify
  split <;> rfl

theorem modified_d (x0 : Core) (m : MemOp) (y : Core) : (modified x0 m y).d = y.d := by
  unfold modified
  split <;> rfl

theorem modified_aN (x0 : Core) (m : MemOp) (y : Core) : (modified x0 m y).aN m.a.val =
    (match (effective x0 m).2 with | some v => tc 32 v | none => y.aN m.a.val) := by
  unfold modified
  split
  · rw [aN_setA_self, BitVec.toNat_ofInt]; rfl
  · rfl

end Sys2Proof.Proofs
end

section
/-! Data instructions (14 R424, R427, R430 to R432). Settles O52. -/
namespace Sys2Proof.Proofs
open Sys2Proof.Machine Sys2Proof.Laws

section Retire
variable {s : State} {k : Fin 16} {t : Fin 32} {ops : List MemOp}

/-- What an instruction that writes data register `t` alone leaves of the rest. -/
def restKept (c : Core) (t : Nat) (g : Core) : Prop := (∀ n, n ≠ t → g.dN n = c.dN n) ∧ g.x = c.x ∧ g.ov = c.ov ∧ c.goesOn g

/-- An instruction that puts a number of 32 bits into a data register. -/
theorem retires_number {i : Instr} {v : Int} {f : Nat → Core → Core} (h : s.dev.executes k.val [t.val] ops)
    (meaning : exec i s = s.act (fun d => d.plain k.val true [t.val] ops f))
    (gives : f ((s.dev.core k.val).free 0) (s.dev.core k.val) = (s.dev.core k.val).setD t.val v) (fits : -2 ^ 31 ≤ v ∧ v < 2 ^ 31) :
    Retires i s k.val ops (fun g => g.dI t.val = v ∧ g.sat = (s.dev.core k.val).sat ∧ restKept (s.dev.core k.val) t.val g) := by
  obtain ⟨-, sat, rest⟩ := setD_next (s.dev.core k.val) t.val v
  refine retires_plain meaning h ?_
  rw [gives]
  exact ⟨(next_dI ..).trans (dI_setD_self _ _ fits), sat, rest⟩

/-- An ALU instruction that puts a word into a data register. -/
theorem retires_word {op : AluOp} {v : Int} {w : Word} (h : s.dev.executes k.val [t.val] ops) (dest : aluDest op = [t.val])
    (gives : aluApply op ((s.dev.core k.val).free 0) (s.dev.core k.val) = (s.dev.core k.val).setD t.val v) (word : BitVec.ofInt 32 v = w) :
    Retires (.aluOp k op ops) s k.val ops
      (fun g => g.dN t.val = w.toNat ∧ g.sat = (s.dev.core k.val).sat ∧ restKept (s.dev.core k.val) t.val g) := by
  have meaning : exec (.aluOp k op ops) s = s.act (fun d => d.plain k.val true [t.val] ops (fun n c => aluApply op n c)) := by rw [← dest]; rfl
  refine retires_plain meaning h ?_
  rw [gives, ← word]
  exact setD_next ..

/-- An ALU instruction that saturates. -/
theorem retires_saturated {op : AluOp} {v : Int} (h : s.dev.executes k.val [t.val] ops) (dest : aluDest op = [t.val])
    (gives : aluApply op ((s.dev.core k.val).free 0) (s.dev.core k.val) = (s.dev.core k.val).setSat t.val v) :
    Retires (.aluOp k op ops) s k.val ops (fun g => g.dI t.val = satS 32 v ∧
      g.sat = ((s.dev.core k.val).sat || decide (satS 32 v ≠ v)) ∧ restKept (s.dev.core k.val) t.val g) := by
  have meaning : exec (.aluOp k op ops) s = s.act (fun d => d.plain k.val true [t.val] ops (fun n c => aluApply op n c)) := by rw [← dest]; rfl
  refine retires_plain meaning h ?_
  rw [gives]
  exact setSat_next ..

end Retire

/-- A plain instruction with no operation of its own. -/
theorem makes_plain {s : State} {k : Fin 16} {ops : List MemOp} {i : Instr} (h : s.dev.executes k.val [] ops)
    (meaning : exec i s = s.act (fun d => d.plain k.val true [] ops (fun _ c => c))) :
    Makes i s ((s.dev.setCore k.val (s.dev.spent k.val (s.dev.core k.val).next)).afterOps k.val (s.dev.core k.val) ops) := by
  obtain ⟨c, made, same⟩ := retires_plain (P := fun c => c = (s.dev.core k.val).next) meaning h rfl
  rwa [same] at made

/-- A core whose operation `m` is done, as a load or a store of `m`'s register, and what it leaves of its registers. -/
theorem modified_next (c : Core) (m : MemOp) (b : Bool) (n : Nat) (y : Core) (same : y.a = c.a) :
    (modified c { m with store := b } y).aN m.a.val = (match (effective c m).2 with | some v => tc 32 v | none => c.aN m.a.val) ∧
      (modified c { m with store := b } y).dN n = y.dN n := by
  have addr : y.aN m.a.val = c.aN m.a.val := by rw [Core.aN, same]; rfl
  refine ⟨?_, by rw [Core.dN, modified_d]; rfl⟩
  rw [← addr]
  exact modified_aN c { m with store := b } y

section Local
variable {s : State} {k : Fin 16} {m : MemOp} (narrow : m.wide = false) (near : (effective (s.dev.core k.val) m).1 < 0x80000)
include narrow near

/-- A word loaded from local memory with no transfer in progress. -/
theorem load_local (idle : (s.dev.core k.val).q = []) (h : s.dev.executes k.val [] [{ m with store := false }]) : let c := s.dev.core k.val
    ∃ e : Dev, Makes (.load k m []) s e ∧ (e.core k.val).dN m.reg.val = memLe s.dev.localMem (k.val * 0x80000 + (effective c m).1) 4 ∧
      (∀ n, n ≠ m.reg.val → (e.core k.val).dN n = c.dN n) ∧
      (e.core k.val).aN m.a.val = (match (effective c m).2 with | some v => tc 32 v | none => c.aN m.a.val) ∧ e.localMem = s.dev.localMem ∧
      e.dram = s.dev.dram ∧ e.regs = s.dev.regs := by
  intro c
  have quiet : ((s.dev.setCore k.val (s.dev.spent k.val c.next)).core k.val).q = [] := by
    rw [core_setCore_self]
    exact (congrArg Core.q (next_frame c) :).trans idle
  have made := makes_plain (i := .load k m []) h rfl
  rw [afterOps_load (m := { m with store := false }) narrow near rfl quiet, core_setCore_self] at made
  refine ⟨_, made, ?_⟩
  rw [core_opModify, core_setCore_self]
  have fits := memLe_lt s.dev.localMem (k.val * 0x80000 + (effective c m).1) 4
  have kept (n : Nat) := modified_next c m false n ((s.dev.spent k.val c.next).setD m.reg.val
    (memLe s.dev.localMem (k.val * 0x80000 + (effective c m).1) 4 : Nat)) (congrArg Core.a (next_frame c) :)
  have frame (e : Dev) := opModify_frame e k.val c { m with store := false }
  refine ⟨?_, fun n other => ?_, (kept 0).1, (congrArg Dev.localMem (frame _) :), (congrArg Dev.dram (frame _) :), (congrArg Dev.regs (frame _) :)⟩
  · refine (kept _).2.trans ?_
    rw [dN_setD_self, BitVec.ofInt_natCast, BitVec.toNat_ofNat]
    exact Nat.mod_eq_of_lt fits
  · refine (kept n).2.trans ?_
    rw [dN_setD_ne _ _ _ other]
    exact next_dN c n

/-- A word stored to local memory. -/
theorem store_local (h : s.dev.executes k.val [] [{ m with store := true }]) : let c := s.dev.core k.val
    ∃ e : Dev, Makes (.store k m []) s e ∧ e.localMem = memWrite s.dev.localMem (k.val * 0x80000 + (effective c m).1) (leBytes 4 (c.dN m.reg.val)) ∧
      (e.core k.val).d = c.d ∧ e.dram = s.dev.dram ∧ e.regs = s.dev.regs ∧
      (e.core k.val).aN m.a.val = (match (effective c m).2 with | some v => tc 32 v | none => c.aN m.a.val) := by
  intro c
  have made := makes_plain (i := .store k m []) h rfl
  rw [afterOps_store (m := { m with store := true }) narrow near rfl] at made
  have frame (e : Dev) := opModify_frame e k.val c { m with store := true }
  have core : ((s.dev.setCore k.val (s.dev.spent k.val c.next)).opModify k.val c { m with store := true }).core k.val =
      modified c { m with store := true } (s.dev.spent k.val c.next) := by rw [core_opModify, core_setCore_self]
  refine ⟨_, made, ?_, (congrArg Core.d core :).trans ((modified_d ..).trans (next_d c)), (congrArg Dev.dram (frame _) :),
    (congrArg Dev.regs (frame _) :), (congrArg (Core.aN · m.a.val) core :).trans (modified_next c m true 0 (s.dev.spent k.val c.next) (congrArg Core.a (next_frame c) :)).1⟩
  exact (congrArg (memWrite · _ _) (congrArg Dev.localMem (frame _) :) :)

end Local

/-- Settles O52: exponents by `signBits_scales`, words by `ofInt_aluValue`, memory operations one by one. -/
theorem dataInstructionsActAsR430Says : Obligations.DataInstructionsActAsR430Says := by
  unfold Obligations.DataInstructionsActAsR430Says
  refine ⟨?results, ?wide, ?operations, ?words, fun a n l x some fits least => ringAdd_wraps x some fits least⟩
  case results =>
    intro s k t a b ops h c v kept
    refine ⟨?exponents, fun left few => ?left, fun right few => ?right, ?alu⟩
    case exponents =>
      have small := signBits_le 32 v
      obtain ⟨zero, positive, negative⟩ := signBits_scales (dI_fits c a.val)
      have least := dI_fits c t.val
      exact ⟨signBits 32 v, small, zero, positive, negative, retires_number h rfl rfl (by omega),
        retires_number h rfl rfl (scaled_fits (dI_fits c a.val)), retires_number h rfl rfl (by omega)⟩
    case left =>
      refine retires_plain (f := fun _ c => c.setSat t.val (ashValue (c.dI a.val) (c.dI b.val))) rfl h ?_
      rw [ashValue_left left few]
      obtain ⟨value, -, rest⟩ := setSat_next c t.val (v * 2 ^ (c.dI b.val).toNat)
      exact ⟨value, rest⟩
    case right =>
      have fits := divEven_fits (dI_fits c a.val) (c.dI b.val).natAbs (by omega)
      refine retires_plain (f := fun _ c => c.setSat t.val (ashValue (c.dI a.val) (c.dI b.val))) rfl h ?_
      rw [ashValue_right right few]
      obtain ⟨value, sat, rest⟩ := setSat_next c t.val (divEven v (2 ^ (c.dI b.val).natAbs))
      rw [show satS 32 (divEven v _) = divEven v _ from satS_of_fits fits] at value sat
      refine ⟨value, sat.trans ?_, rest⟩
      simp
    case alu =>
      intro gives sat A B
      have wordA : A = dWord c a.val := ofNat_dN ..
      have wordB : B = dWord c b.val := ofNat_dN ..
      have words := ofInt_aluValue (c.free 0) (dWord c a.val) (dWord c b.val)
      rw [← wordA, ← wordB] at words
      have valueA : A.toNat = c.dN a.val := by rw [wordA]; rfl
      have valueB : B.toNat = c.dN b.val := by rw [wordB]; rfl
      simp only [valueA, valueB] at words
      obtain ⟨add, sub, band, bor, bxor, least, most, shifts⟩ := words
      refine ⟨retires_word h rfl rfl add, retires_word h rfl rfl sub, retires_word h rfl rfl band, retires_word h rfl rfl bor,
        retires_word h rfl rfl bxor, retires_word h rfl rfl least, retires_word h rfl rfl most, retires_saturated h rfl rfl,
        retires_saturated h rfl rfl, fun small => ?_, ?_, fun r => ?_⟩
      · obtain ⟨lsl, lsr, asr⟩ := shifts small
        exact ⟨retires_word h rfl rfl lsl, retires_word h rfl rfl lsr, retires_word h rfl rfl asr⟩
      · rw [wordA]
        exact retires_word h rfl rfl (ofInt_not (dWord c a.val))
      · have moved := retires_word (op := .mov (.d t) r) (w := BitVec.ofNat 32 (c.read (c.free 0) r)) h rfl rfl (BitVec.ofInt_natCast ..)
        rwa [BitVec.toNat_ofNat] at moved
  case wide =>
    intro s k t x ops h
    have small := signBits_le 72 ((s.dev.core k.val).xI x.val)
    refine retires_plain rfl h ((next_dI ..).trans (dI_setD_self _ _ ?_))
    dsimp only
    omega
  case operations =>
    intro s k m ops c
    exact ⟨fun h => makes_plain h rfl, fun h => makes_plain h rfl⟩
  case words =>
    intro s k m c ea at_ narrow near idle
    exact ⟨fun h => load_local narrow near idle h, fun h => store_local narrow near h⟩

end Sys2Proof.Proofs
end

section
/-! Control instructions (14 R433 to R437, R446). Settles O53. -/
namespace Sys2Proof.Proofs
open Sys2Proof.Machine Sys2Proof.Laws

/-! ## The program counter and the repeat count (R433 to R436) -/

/-- Under a REP with repeats left a control instruction is executed again at its own address. -/
theorem again_of_repeats {x : Core} {n : Nat} (repeats : x.rep = some (n + 2)) (y : Core) : x.again y = { y with pc := x.pc, rep := some (n + 1) } := by
  simp only [Core.again, repeats]

theorem again_of_last {x : Core} (last : ∀ n, x.rep ≠ some (n + 2)) (y : Core) : x.again y = y := by
  unfold Core.again
  split
  case h_1 n repeats => exact absurd repeats (last n)
  case h_2 => rfl

/-- Repeating changes the program counter and the repeat count alone. -/
theorem again_frame (x y : Core) : x.again y = { y with pc := (x.again y).pc, rep := (x.again y).rep } := by
  unfold Core.again
  split <;> rfl

/-- Where a control instruction leaves its core depends on its own program counter alone, the repeats on its own repeat count. -/
theorem again_pc (x : Core) {y z : Core} (same : y.pc = z.pc) : (x.again y).pc = (x.again z).pc := by
  unfold Core.again
  split
  · rfl
  · exact same

theorem again_rep (x : Core) {y z : Core} (same : y.rep = z.rep) : (x.again y).rep = (x.again z).rep := by
  unfold Core.again
  split
  · rfl
  · exact same

section Next
variable {x : Core}

theorem next_repeats {n : Nat} (repeats : x.rep = some (n + 2)) : x.next = { x with rep := some (n + 1) } := by simp only [Core.next, repeats]

theorem next_last_repeat (last : x.rep = some 1) : x.next = { x with pc := (x.pc + 8) % 2 ^ 20, rep := none } := by simp only [Core.next, last]

variable (single : x.rep = none)
include single

theorem next_first_slot {t : Nat} (slot : x.slot = some (t, 2)) : x.next = { x with pc := (x.pc + 8) % 2 ^ 20, slot := some (t, 1) } := by
  simp only [Core.next, single, slot]

theorem next_last_slot {t : Nat} (slot : x.slot = some (t, 1)) : x.next = { x with pc := t, slot := none } := by
  simp only [Core.next, single, slot]

variable (straight : x.slot = none)
include straight

theorem next_loop_back {e : LoopE} {r : List LoopE} (loops : x.loops = e :: r) (ends : e.le = x.pc) (more : 1 < e.lc) :
    x.next = { x with pc := e.ls, loops := { e with lc := e.lc - 1 } :: r } := by
  simp only [Core.next, single, straight, loops, if_pos ends, if_pos more]

theorem next_loop_over {e : LoopE} {r : List LoopE} (loops : x.loops = e :: r) (ends : e.le = x.pc) (last : e.lc ≤ 1) :
    x.next = { x with pc := (x.pc + 8) % 2 ^ 20, loops := r } := by
  simp only [Core.next, single, straight, loops, if_pos ends, if_neg (not_lt.2 last)]

theorem next_inside_loop {e : LoopE} {r : List LoopE} (loops : x.loops = e :: r) (inside : e.le ≠ x.pc) :
    x.next = { x with pc := (x.pc + 8) % 2 ^ 20 } := by
  simp only [Core.next, single, straight, loops, if_neg inside]

theorem next_without_loop (loops : x.loops = []) : x.next = { x with pc := (x.pc + 8) % 2 ^ 20 } := by
  simp only [Core.next, single, straight, loops]

end Next

/-! ## Places where no control instruction may stand (R436) -/

section Barred
variable {d : Dev} {k : Nat} (runs : coreRuns d k = true) (barred : (d.core k).barred = true) (ops : List MemOp)
include runs barred

theorem control_barred (ok : Bool) (f : Nat → Core → Core) : d.control k ok ops f = d.coreStop k 1 :=
  congrArg Prod.snd (issueGo_illegal runs (.inr (.inr ⟨rfl, barred⟩)) :)

theorem issue_barred (dst : List Nat) (f : Nat → Core → Core) : d.issue k true true dst ops f = d.coreStop k 1 :=
  congrArg Prod.snd (issueGo_illegal runs (.inr (.inr ⟨rfl, barred⟩)) :)

theorem coreLoop_barred (c : Count) (stop : Nat) : d.coreLoop k c stop ops = d.coreStop k 1 :=
  (if_neg (by simp [barred])).trans (control_barred runs barred ops _ _)

theorem coreLpop_barred (a b e : Nat) : d.coreLpop k a b e ops = d.coreStop k 1 :=
  (if_neg (by simp [barred])).trans (issue_barred runs barred ops _ _)

theorem coreLpush_barred (a b e : Nat) : d.coreLpush k a b e ops = d.coreStop k 1 :=
  (if_neg (by simp [barred])).trans (control_barred runs barred ops _ _)

theorem coreTget_barred : d.coreTget k ops = d.coreStop k 1 :=
  (if_neg (by simp [barred])).trans (issue_barred runs barred ops _ _)

theorem coreTdone_barred (a : Nat) : d.coreTdone k a ops = d.coreStop k 1 := by
  rw [Dev.coreTdone, if_neg (by simp [barred])]
  simp only [issueGo_illegal runs (.inr (.inr ⟨rfl, barred⟩)), Bool.false_eq_true, if_false]

end Barred

/-! ## Loops (R433) -/

section Loops
variable {d : Dev} {k : Nat} (free : (d.core k).barred = false) (ops : List MemOp)
include free

theorem coreLoop_fifth (runs : coreRuns d k = true) {c : Count} (ok : countOk 12 c = true) (some : countOf (d.core k) 24 c ≠ 0)
    (full : (d.core k).loops.length = 4) (stop : Nat) : d.coreLoop k c stop ops = d.coreStop k 2 :=
  if_pos (by simp [runs, free, some, full, ok])

theorem coreLpop_empty (runs : coreRuns d k = true) (empty : (d.core k).loops = []) (a b e : Nat) : d.coreLpop k a b e ops = d.coreStop k 3 :=
  if_pos (by simp [runs, free, empty])

theorem coreLpush_fifth (runs : coreRuns d k = true) (full : (d.core k).loops.length = 4) (a b e : Nat) : d.coreLpush k a b e ops = d.coreStop k 2 :=
  if_pos (by simp [runs, free, full])

end Loops

section Push
variable {d : Dev} {k : Nat} (ops : List MemOp)

theorem coreLoop_skips {c : Count} (ok : countOk 12 c = true) (none : countOf (d.core k) 24 c = 0) (stop : Nat) :
    d.coreLoop k c stop ops = d.control k true ops (fun _ x => { x with pc := (stop + 8) % 2 ^ 20 }) := by
  simp [Dev.coreLoop, none, ok]

theorem coreLoop_pushes {c : Count} (ok : countOk 12 c = true) (some : countOf (d.core k) 24 c ≠ 0) (room : (d.core k).loops.length ≠ 4)
    (stop : Nat) : d.coreLoop k c stop ops = d.control k true ops (fun _ x =>
      { x with pc := (x.pc + 8) % 2 ^ 20, loops := ⟨countOf (d.core k) 24 c, (x.pc + 8) % 2 ^ 20, stop % 2 ^ 20⟩ :: x.loops }) := by
  simp [Dev.coreLoop, some, room, ok]

theorem coreLpush_pushes (room : (d.core k).loops.length ≠ 4) (a b e : Nat) : d.coreLpush k a b e ops = d.control k true ops (fun _ x =>
    { x with pc := (x.pc + 8) % 2 ^ 20, loops := ⟨x.dN a % 2 ^ 24, x.dN b % 2 ^ 20, x.dN e % 2 ^ 20⟩ :: x.loops }) :=
  if_neg (by simp [room])

/-- The core `x` with the entry `l` moved from its loop stack into three data registers. -/
def popped (x : Core) (l : LoopE) (r : List LoopE) (a b e : Nat) : Core :=
  { ((x.setD a l.lc).setD b l.ls).setD e l.le with loops := r, pc := (x.pc + 8) % 2 ^ 20, rep := none }

theorem coreLpop_pops {l : LoopE} {r : List LoopE} (full : (d.core k).loops = l :: r) (a b e : Nat) : d.coreLpop k a b e ops =
    d.issue k true true [a, b, e] ops (fun _ x => match x.loops with | l :: r => x.again (popped x l r a b e) | [] => x) :=
  if_neg (by simp [full])

/-- Three registers named once each. -/
theorem once_of_doubled {a b e : Nat} {l : List Nat} (h : doubled ([a, b, e] ++ l) = []) : a ≠ b ∧ a ≠ e ∧ b ≠ e := by
  have a_new : ¬ (b :: e :: l).contains a = true := fun twice => by rw [List.cons_append, doubled, if_pos (by simpa using twice)] at h; simp at h
  rw [List.cons_append, doubled, if_neg (by simpa using a_new)] at h
  have b_new : ¬ (e :: l).contains b = true := fun twice => by rw [List.cons_append, doubled, if_pos (by simpa using twice)] at h; simp at h
  simp_all

theorem dN_popped {a b e : Nat} (x : Core) (l : LoopE) (r : List LoopE) (h : a ≠ b ∧ a ≠ e ∧ b ≠ e) :
    (popped x l r a b e).dN a = l.lc % 2 ^ 32 ∧ (popped x l r a b e).dN b = l.ls % 2 ^ 32 ∧ (popped x l r a b e).dN e = l.le % 2 ^ 32 := by
  have same (n : Nat) : (popped x l r a b e).dN n = (((x.setD a l.lc).setD b l.ls).setD e l.le).dN n := rfl
  have word (n : Nat) : (BitVec.ofInt 32 (n : Int)).toNat = n % 2 ^ 32 := by rw [BitVec.ofInt_natCast, BitVec.toNat_ofNat]
  refine ⟨?_, ?_, ?_⟩ <;> rw [same]
  · rw [dN_setD_ne _ _ _ h.2.1, dN_setD_ne _ _ _ h.1, dN_setD_self, word]
  · rw [dN_setD_ne _ _ _ h.2.2, dN_setD_self, word]
  · rw [dN_setD_self, word]

end Push

/-! ## Rows -/

section Rows
variable (s : State) (k : Fin 16) (ops : List MemOp)

theorem exec_loop (c : Count) (stop : Nat) : exec (.loop k c stop ops) s = s.act (·.coreLoop k.val c stop ops) := rfl
theorem exec_lpop (a b e : Fin 32) : exec (.lpop k a b e ops) s = s.act (·.coreLpop k.val a.val b.val e.val ops) := rfl
theorem exec_lpush (a b e : Fin 32) : exec (.lpush k a b e ops) s = s.act (·.coreLpush k.val a.val b.val e.val ops) := rfl
theorem exec_rep (c : Count) : exec (.rep k c ops) s = s.act (·.coreRep k.val c ops) := rfl
theorem exec_branch (t : Nat) (taken : Bool) : exec (.branch k t taken ops) s =
    s.act (·.control k.val true ops (fun _ c => c.branch (if taken then t else c.pc + 24))) := rfl
theorem exec_call (t : Nat) : exec (.call k t ops) s =
    s.act (·.control k.val true ops (fun _ c => { c.branch t with calls := (c.pc + 24) % 2 ^ 20 :: c.calls })) := rfl
theorem exec_return : exec (.return k ops) s =
    s.act (·.control k.val true ops (fun n c => { c.branch (c.calls.headD n) with calls := c.calls.drop 1 })) := rfl
theorem exec_rti : exec (.rti k ops) s = s.act (·.coreRti k.val ops) := rfl
theorem exec_tget : exec (.tget k ops) s = s.act (·.coreTget k.val ops) := rfl
theorem exec_tdone (a : Fin 32) : exec (.tdone k a ops) s = s.act (·.coreTdone k.val a.val ops) := rfl

end Rows

section Places
variable {s : State} {k : Fin 16} {ops : List MemOp}

/-- Every instruction that R436 bars from some places stops the core there. -/
theorem makes_barred (runs : coreRuns s.dev k.val = true) (barred : (s.dev.core k.val).barred = true) (n : Count) (e : Nat) (a b f : Fin 32)
    (taken : Bool) (i : Instr) (hi : i ∈ [Instr.loop k n e ops, .rep k n ops, .lpop k a b f ops, .lpush k a b f ops, .branch k e taken ops,
      .call k e ops, .tdone k a ops, .rti k ops, .tget k ops, .return k ops]) : Makes i s (s.dev.coreStop k.val 1) := by
  simp only [List.mem_cons, List.not_mem_nil, or_false] at hi
  rcases hi with rfl | rfl | rfl | rfl | rfl | rfl | rfl | rfl | rfl | rfl
  · exact makes_of _ (exec_loop ..) (coreLoop_barred runs barred ops n e)
  · exact makes_of _ (exec_rep ..) (control_barred runs barred ops _ _)
  · exact makes_of _ (exec_lpop ..) (coreLpop_barred runs barred ops ..)
  · exact makes_of _ (exec_lpush ..) (coreLpush_barred runs barred ops ..)
  · exact makes_of _ (exec_branch ..) (control_barred runs barred ops _ _)
  · exact makes_of _ (exec_call ..) (control_barred runs barred ops _ _)
  · exact makes_of _ (exec_tdone ..) (coreTdone_barred runs barred ops _)
  · exact makes_of _ (exec_rti ..) (control_barred runs barred ops _ _)
  · exact makes_of _ (exec_tget ..) (coreTget_barred runs barred ops)
  · exact makes_of _ (exec_return ..) (control_barred runs barred ops _ _)

/-- LPOP takes the top entry of the loop stack into three data registers. -/
theorem retires_lpop {a b e : Fin 32} {l : LoopE} {r : List LoopE} (free : (s.dev.core k.val).barred = false)
    (full : (s.dev.core k.val).loops = l :: r) (h : s.dev.executes k.val [a.val, b.val, e.val] ops) : let x := s.dev.core k.val
    Retires (.lpop k a b e ops) s k.val ops (fun g => g.loops = r ∧
      g.pc = (x.again { x with pc := (x.pc + 8) % 2 ^ 20, rep := none }).pc ∧ g.rep = (x.again { x with rep := none }).rep ∧
      g.dN a.val = l.lc % 2 ^ 32 ∧ g.dN b.val = l.ls % 2 ^ 32 ∧ g.dN e.val = l.le % 2 ^ 32 ∧ g.x = x.x ∧ g.a = x.a) := by
  intro x
  refine retires_issue (exec_lpop ..) (coreLpop_pops ops full ..) h (fun _ => free) ?_
  obtain ⟨-, -, -, once, -⟩ := h
  obtain ⟨lc, ls, le⟩ := dN_popped x l r (once_of_doubled once)
  have frame := again_frame x (popped x l r a.val b.val e.val)
  simp only [full]
  exact ⟨(congrArg Core.loops frame :), again_pc x rfl, again_rep x rfl, (congrArg (Core.dN · a.val) frame :).trans lc,
    (congrArg (Core.dN · b.val) frame :).trans ls, (congrArg (Core.dN · e.val) frame :).trans le, (congrArg Core.x frame :), (congrArg Core.a frame :)⟩

/-- RTI restores the program counter and SR. -/
theorem retires_rti (free : (s.dev.core k.val).barred = false) (h : s.dev.executes k.val [] ops) : let x := s.dev.core k.val
    Retires (.rti k ops) s k.val ops (fun g => g.pc = (x.again { x with pc := x.ipc, rep := none }).pc ∧
      g.rep = (x.again { x with rep := none }).rep ∧ g.ie = bitAt x.isr 2 ∧ g.late = bitAt x.isr 3 ∧ g.sat = bitAt x.isr 1 ∧
      g.ov = bitAt x.isr 0 ∧ g.loops = x.loops ∧ g.d = x.d ∧ g.x = x.x ∧ g.a = x.a) := by
  intro x
  let y : Core := { ({ x with rep := none } : Core).restoreSr x.isr with pc := x.ipc }
  have frame := again_frame x y
  exact retires_control (exec_rti ..) rfl h free ⟨again_pc x rfl, again_rep x rfl, (congrArg Core.ie frame :), (congrArg Core.late frame :),
    (congrArg Core.sat frame :), (congrArg Core.ov frame :), (congrArg Core.loops frame :), (congrArg Core.d frame :), (congrArg Core.x frame :),
    (congrArg Core.a frame :)⟩

theorem countOf_single (x : Core) (w : Nat) (c : Count) : countOf { x with rep := none } w c = countOf x w c := by cases c <;> rfl

section Rep
variable {c : Count} (free : (s.dev.core k.val).barred = false) (ok : countOk 16 c = true) (h : s.dev.executes k.val [] ops)
include free ok h

theorem retires_rep_skips (none : countOf (s.dev.core k.val) 16 c = 0) : let x := s.dev.core k.val
    Retires (.rep k c ops) s k.val ops (fun g => g = x.again { x with pc := (x.pc + 16) % 2 ^ 20, rep := .none }) := by
  intro x
  refine retires_control (exec_rep ..) (congrArg (fun b => s.dev.control k.val b ops _) ok) h free ?_
  simp only [countOf_single, none, if_true]
  rfl

theorem retires_rep_repeats (some : countOf (s.dev.core k.val) 16 c ≠ 0) : let x := s.dev.core k.val
    Retires (.rep k c ops) s k.val ops (fun g => g = x.again { x with pc := (x.pc + 8) % 2 ^ 20, rep := .some (countOf x 16 c) }) := by
  intro x
  refine retires_control (exec_rep ..) (congrArg (fun b => s.dev.control k.val b ops _) ok) h free ?_
  simp only [countOf_single, if_neg some]
  rfl

end Rep

end Places

/-- Settles O53: the places of R436 first, then each instruction by what it makes of the program counter and the stacks. -/
theorem controlInstructionsFollowR433ToR437 : Obligations.ControlInstructionsFollowR433ToR437 := by
  unfold Obligations.ControlInstructionsFollowR433ToR437
  refine ⟨?instructions, fun x y => ⟨fun n repeats => again_of_repeats repeats y, fun last => again_of_last last y⟩, ?next⟩
  case instructions =>
    intro s k ops x after runs
    refine ⟨fun barred i hi => ?fixed, fun barred n e a b f taken i hi => ?named, fun free c stop ok => ?loop, fun free a b e => ?stack,
      fun free h c t => ?transfers⟩
    case fixed =>
      refine makes_barred (ops := ops) runs barred (.imm 0) 0 0 0 0 true i ?_
      simp only [List.mem_cons, List.not_mem_nil, or_false] at hi ⊢
      tauto
    case named =>
      refine makes_barred (ops := ops) runs barred n e a b f taken i ?_
      simp only [List.mem_cons, List.not_mem_nil, or_false] at hi ⊢
      tauto
    case loop =>
      exact ⟨fun none h => retires_control (exec_loop ..) (coreLoop_skips ops ok none stop) h free rfl,
        fun some room h => retires_control (exec_loop ..) (coreLoop_pushes ops ok some room stop) h free rfl,
        fun some full => makes_of _ (exec_loop ..) (coreLoop_fifth free ops runs ok some full stop)⟩
    case stack =>
      exact ⟨fun empty => makes_of _ (exec_lpop ..) (coreLpop_empty free ops runs empty ..), fun l r full h => retires_lpop free full h,
        fun full => makes_of _ (exec_lpush ..) (coreLpush_fifth free ops runs full ..),
        fun room h => retires_control (exec_lpush ..) (coreLpush_pushes ops room ..) h free rfl⟩
    case transfers =>
      refine ⟨fun ok skips => retires_rep_skips free ok h skips, fun ok repeats => retires_rep_repeats free ok h repeats,
        retires_control (exec_branch ..) rfl h free rfl, retires_control (exec_branch ..) rfl h free rfl,
        retires_control (exec_call ..) rfl h free rfl, fun r l calls => retires_control (exec_return ..) rfl h free ?_, retires_rti free h⟩
      have back : (s.dev.core k.val).calls = r :: l := calls
      simp only [back, List.headD_cons, List.drop_one, List.tail_cons]
      rfl
  case next =>
    intro x after
    exact ⟨fun n => next_repeats, next_last_repeat, fun single t => next_first_slot single, fun single t => next_last_slot single,
      fun single straight e r loops => ⟨next_loop_back single straight loops, next_loop_over single straight loops,
        next_inside_loop single straight loops⟩, next_without_loop⟩

end Sys2Proof.Proofs
end

section
/-! SUPPORT. What counting, raising, noting and the Tether link leave alone of the part. -/
namespace Sys2Proof.Proofs
open Sys2Proof.Machine Sys2Proof.Laws

/-- The part but for its registers, its headers and what is noted for reports. -/
def unbooked (d : Dev) : Dev := { d with regs := [], hdr := [], ev := [] }

/-- The part but for those, Tether's own state and the place in the stream of free values. -/
def untold (d : Dev) : Dev := { unbooked d with tth := Tth.reset, free := 0 }

section Unbooked
variable (d : Dev)

@[simp] theorem unbooked_setFld (f : Field) (v : Nat) : unbooked (d.setFld f v) = unbooked d := (rfl)

@[simp] theorem unbooked_setFlds (l : List (Field × Nat)) : unbooked (d.setFlds l) = unbooked d :=
  foldl_keeps unbooked (f := fun d (p : Field × Nat) => d.setFld p.1 p.2) (fun _ _ => rfl) l d

@[simp] theorem unbooked_addFld (f : Field) (n : Nat) : unbooked (d.addFld f n) = unbooked d := by
  unfold Dev.addFld
  split <;> rfl

@[simp] theorem unbooked_count (f : Field) : unbooked (d.count f) = unbooked d := unbooked_addFld d f 1

@[simp] theorem unbooked_raise (f : Flag) : unbooked (d.raise f) = unbooked d := by
  unfold Dev.raise
  split <;> rfl

@[simp] theorem unbooked_raiseIf (c : Bool) (f : Flag) : unbooked (d.raiseIf c f) = unbooked d := by
  unfold Dev.raiseIf
  split
  · exact unbooked_raise d f
  · rfl

@[simp] theorem unbooked_note (t : TickEv) : unbooked (d.note t) = unbooked d := by
  unfold Dev.note
  split <;> rfl

theorem untold_of_unbooked {d e : Dev} (h : unbooked e = unbooked d) : untold e = untold d := by rw [untold, untold, h]

/-! ## Trips and the link (R392, R406, R450) -/

@[simp] theorem untold_trip (may : Bool) : untold (d.trip may) = untold d := by
  unfold Dev.trip
  repeat' split
  · exact (untold_of_unbooked (unbooked_raise ..)).trans rfl
  all_goals rfl

@[simp] theorem unbooked_cvuCompute (k : Nat) (pre l : List Nat) : unbooked (d.cvuCompute k pre l).2 = unbooked d := by
  unfold Dev.cvuCompute
  split
  · exact unbooked_count ..
  · rfl

theorem untold_tthSend (f : FrameHead → Sent) : untold (d.tthSend f) = untold d :=
  (untold_of_unbooked (unbooked_cvuCompute (d.drew 1) 1 _ _) :)

@[simp] theorem untold_tell (c : Chunk) : untold (d.tell c) = untold d := by
  unfold Dev.tell
  split
  · exact untold_tthSend ..
  · rfl

@[simp] theorem untold_tellPersist (a : Nat) (l : List Nat) : untold (d.tellPersist a l) = untold d := by
  unfold Dev.tellPersist
  split
  · refine foldl_keeps untold (fun e p => ?_) _ d
    split
    · dsimp only
      split
      · exact untold_tell ..
      · rfl
    · rfl
  · rfl

end Unbooked
end Sys2Proof.Proofs
end

section
/-! Cores start, take interrupts and tasks, and transfer (14 R437 to R451; 15 R467, R468). Settles O54. -/
namespace Sys2Proof.Proofs
open Sys2Proof.Machine Sys2Proof.Laws

/-! ## Registers of a unit that responds (R37) -/

section Open
variable {i : Instr} {s : State} {b : Nat} {f : Dev → Dev} (meaning : exec i s = s.act (fun d => d.ifOpen b f))
include meaning

theorem makes_open (opens : s.dev.opens b = true) : Makes i s (f s.dev) := makes_of _ meaning (if_pos opens)

theorem makes_closed (closed : s.dev.opens b = false) : Makes i s s.dev := makes_of _ meaning (if_neg (by simp [closed]))

end Open

/-! ## Starts and the mailbox (R446, R449, R451) -/

section Start
variable {d : Dev} {k : Nat}

/-- A core without a task that an exception stops. -/
theorem coreStop_taskless (idle : (d.core k).task = false) (cause : Nat) : d.coreStop k cause =
    ((d.setFlds [(R.CORE_EXC_CAUSE k, cause), (R.CORE_EXC_PC_PC k, (d.core k).pc)]).raise (F.coreExc k)).setCore k
      { d.core k with st := .stopped, cause := cause, task := false } := by
  rw [Dev.coreStop]
  exact if_neg (by simp [idle])

theorem coreStop_shows (idle : (d.core k).task = false) (cause : Nat) :
    ((d.coreStop k cause).core k).st = .stopped ∧ (d.coreStop k cause).fld (R.CORE_EXC_CAUSE k) = cause % 2 ^ 8 := by
  rw [coreStop_taskless idle, core_setCore_self]
  refine ⟨rfl, ?_⟩
  calc (((d.setFlds [(R.CORE_EXC_CAUSE k, cause), (R.CORE_EXC_PC_PC k, (d.core k).pc)]).raise (F.coreExc k)).setCore k _).fld
        (R.CORE_EXC_CAUSE k)
      = (d.setFlds [(R.CORE_EXC_CAUSE k, cause), (R.CORE_EXC_PC_PC k, (d.core k).pc)]).fld (R.CORE_EXC_CAUSE k) := fld_raise ..
    _ = cause % 2 ^ 8 := fld_setFlds_of_mem d _ (w := (R.CORE_EXC_CAUSE k, cause)) (by simp [R.CORE_EXC_CAUSE, R.CORE_EXC_PC_PC]) (by simp)
        (show 24 + 8 ≤ 32 by omega)

theorem coreStart_idle (h : (d.core k).st ≠ .held ∨ d.works (coreBase k) = false ∨ d.awake = false) : d.coreStart k = d :=
  if_neg (by rintro ⟨held, works, awake⟩; simp [held, works, awake] at h)

theorem ctl_intPend (i : Nat) : (smGet (fun _ => 0#32) ((d.intPend k i).core k).ctl 0x2C).toNat =
    ((smGet (fun _ => 0#32) (d.core k).ctl 0x2C).toNat ||| 2 ^ i) % 2 ^ 32 := by
  rw [Dev.intPend, core_setCore_self]
  exact congrArg BitVec.toNat (smGet_smSet_self ..)

@[simp] theorem reg_intPend (i a : Nat) : (d.intPend k i).reg a = d.reg a := reg_of_regs rfl rfl a

@[simp] theorem fld_intPend (i : Nat) (f : Field) : (d.intPend k i).fld f = d.fld f := fld_of_regs rfl rfl f

/-- An interrupt that is set pends. -/
theorem pends_intPend {i : Nat} (few : i < 32) : bitAt (smGet (fun _ => 0#32) ((d.intPend k i).core k).ctl 0x2C).toNat i = true := by
  rw [ctl_intPend, bitAt_eq_testBit, Nat.testBit_mod_two_pow, Nat.testBit_or, Nat.testBit_two_pow_self]
  simp [few]

end Start

section Calls
variable (s : State) (k : Fin 16) (ops : List MemOp)

theorem exec_coreStart : exec (.coreStart k) s = s.act (·.coreStart k.val) := rfl
theorem exec_coreMboxWrite (v : Word) : exec (.coreMboxWrite k v) s = s.act (fun d => d.ifOpen (coreBase k.val) (·.coreMbox k.val v)) := rfl
theorem exec_interrupt : exec (.interrupt k) s = s.act (·.coreInterrupt k.val) := rfl
theorem exec_dwait (n : Nat) : exec (.dwait k n ops) s = s.act (·.coreDwait k.val n ops) := rfl
theorem exec_dmaCmd (v : Word) : exec (.dmaCmd k v ops) s = s.act (·.coreDmaCmd k.val v.toNat ops) := rfl
theorem exec_msg (v : Word) : exec (.msg k v ops) s = s.act (·.coreMsg k.val v.toNat ops) := rfl
theorem exec_dmaTransferDone (err : Bool) : exec (.dmaTransferDone k err) s = s.act (·.dmaDone k.val err) := rfl

end Calls

theorem makes_coreMbox {s : State} {k : Fin 16} (v : Word) (opens : s.dev.opens (coreBase k.val) = true) : let d := s.dev
    let pend (e : Dev) : Nat := (smGet (fun _ => 0#32) (e.core k.val).ctl 0x2C).toNat
    ∃ e : Dev, Makes (.coreMboxWrite k v) s e ∧ e.fld (R.CORE_MBOX_MBOX k.val) = v.toNat ∧ pend e = pend d ||| 4 ∧
      (∀ r, r ≠ (R.CORE_MBOX_MBOX k.val).addr → e.reg r = d.reg r) := by
  refine ⟨s.dev.coreMbox k.val v, makes_open (f := (·.coreMbox k.val v)) (exec_coreMboxWrite ..) opens, ?_, ?_, fun r other => ?_⟩
  · have field := fld_setFld_self s.dev (R.CORE_MBOX_MBOX k.val) v.toNat (by simp [R.CORE_MBOX_MBOX])
    rw [Dev.coreMbox, fld_intPend, field]
    exact Nat.mod_eq_of_lt v.isLt
  · exact (ctl_intPend 2).trans (Nat.mod_eq_of_lt (Nat.or_lt_two_pow (BitVec.isLt _) (by omega)))
  · rw [Dev.coreMbox, reg_intPend]
    exact reg_setFld_ne _ _ _ other

/-! ## Tasks (R440, R441, R444, R467, R468) -/

section Tasks
variable {d : Dev} {k : Nat} {i : Inst}

@[simp] theorem fmn_dspMissed : d.dspMissed.fmn = d.fmn :=
  (congrArg Dev.fmn (untold_trip _ _) :).trans ((raise_fmn ..).trans (count_fmn ..))

/-- The only delivered run of an entry ends with TDONE. -/
theorem instEnd_alone (r : Nat) (run : d.fmn.run = [i]) (core : i.core = some k) (live : i.dead = false) (once : i.periodic = false)
    (inTime : i.missed = false) :
    let st : Status × Nat := if FTask.count i ≠ 0 ∧ sealAt d i.block ≤ d.top.tick then (.late, 2) else if i.late = true then (.late, 1) else (.ok, 0)
    ∃ e : Dev, d.instEnd k (some r) = e.complete i.cmd ⟨st.1, st.2, fmnResult i.block r k i.entry i.seq i.wait⟩ ∧ e.fmn.run = [] ∧
      e.fmn.ready = d.fmn.ready ∧ e.fmn.lists = d.fmn.lists := by
  have found : d.fmn.run.find? (fun i => i.core == some k) = some i := by simp [run, core]
  have gone : d.fmn.run.filter (fun j => j.core != some k) = [] := by simp [run, core]
  rw [Dev.instEnd, found]
  dsimp only
  rw [gone, live]
  by_cases late : FTask.count i ≠ 0 ∧ sealAt d i.block ≤ d.top.tick
  · refine ⟨({ d with fmn := { d.fmn with run := [] } } : Dev).dspMissed, ?_, by simp, by simp, by simp⟩
    have after : ¬ d.top.tick < sealAt { d with fmn := { d.fmn with run := [] } } i.block := Nat.not_lt.2 late.2
    simp [once, inTime, late, after]
  · refine ⟨({ d with fmn := { d.fmn with run := [] } } : Dev), ?_, rfl, rfl, rfl⟩
    have before : FTask.count i = 0 ∨ d.top.tick < sealAt { d with fmn := { d.fmn with run := [] } } i.block :=
      (Decidable.not_and_iff_or_not.1 late).imp not_not.1 Nat.not_le.1
    rcases before with none | before <;> cases overdue : i.late <;> simp [*]

end Tasks
/-! ## Interrupts (R437, R438) -/

/-- R438: where a core takes an interrupt. -/
def mayInterrupt (d : Dev) (k : Nat) : Prop := let x := d.core k
  d.works (coreBase k) = true ∧ d.awake = true ∧ intReady x ≠ 0 ∧ x.ie = true ∧ x.slot = none ∧ x.rep = none ∧ (x.ha3 = true ∨ x.loops = []) ∧
    (x.st = .running ∨ (∃ t, x.st = .waiting t) ∨ ∃ t, x.st = .dwait t)

section Interrupt
variable {d : Dev} {k : Nat}

theorem coreInterrupt_barred (not : ¬ mayInterrupt d k) : d.coreInterrupt k = d := by
  rw [Dev.coreInterrupt]
  refine if_neg (fun may => not ?_)
  cases st : (d.core k).st <;> simp_all [mayInterrupt]

theorem coreInterrupt_taken (may : mayInterrupt d k) : let x := d.core k
    let i := if bitAt (intReady x) 0 = true then 0 else if bitAt (intReady x) 1 = true then 1 else 2
    x.vectors + 4 * i < 0x80000 → x.q = [] → d.coreInterrupt k = d.setCore k
      { x with st := .running, ipc := x.pc, isr := x.sr, ie := false, pc := memLe d.localMem (k * 0x80000 + (x.vectors + 4 * i)) 4 % 2 ^ 20 } := by
  intro x i near idle
  rw [Dev.coreInterrupt, if_pos]
  · dsimp only
    rw [coreRead_local near idle]
  · obtain ⟨works, awake, ready, ie, slot, rep, loops, st⟩ := may
    rcases st with st | ⟨t, st⟩ | ⟨t, st⟩ <;> simp [*]

end Interrupt

/-! ## DWAIT, DMA_CMD and MSG (R445, R447) -/

section Stores
variable {s : State} {k : Fin 16} {ops : List MemOp}

theorem retires_dwait {n : Nat} {P : Core → Prop} (h : s.dev.executes k.val [] ops)
    (result : P (if (s.dev.core k.val).q.length ≤ n then (s.dev.core k.val).next else { s.dev.core k.val with st := .dwait n })) :
    Retires (.dwait k n ops) s k.val ops P := retires_issue (exec_dwait ..) rfl h (by simp) result

section Beside
variable (h : s.dev.executes k.val [] ops) (beside : besideStore ops = true) (v : Word)
include h beside

theorem makes_dmaCmd_queues (room : (s.dev.core k.val).q.length < 8) : Makes (.dmaCmd k v ops) s
    (((s.dev.setCore k.val (s.dev.spent k.val (s.dev.core k.val).next)).afterOps k.val (s.dev.core k.val) ops).dmaQueue k.val v.toNat) := by
  refine makes_of _ (exec_dmaCmd ..) ?_
  rw [Dev.coreDmaCmd, if_neg (by simp [room]), beside, issueGo_executes h (by simp)]
  exact if_pos rfl

theorem makes_msg : Makes (.msg k v ops) s
    (((s.dev.setCore k.val (s.dev.spent k.val (s.dev.core k.val).next)).afterOps k.val (s.dev.core k.val) ops).ctlWrite k.val 0x34 v.toNat) := by
  refine makes_of _ (exec_msg ..) ?_
  rw [Dev.coreMsg, beside, issueGo_executes h (by simp)]
  exact if_pos rfl

end Beside

theorem besideStore_false (h : 1 < ops.length ∨ ∃ m ∈ ops, m.store = true) : besideStore ops = false := by
  rcases h with many | ⟨m, hm, stores⟩
  · simp [besideStore, many]
  · simp only [besideStore, Bool.and_eq_false_iff, List.all_eq_false]
    exact .inr ⟨m, hm, by simp [stores]⟩

section Illegal
variable (runs : coreRuns s.dev k.val = true) (bad : besideStore ops = false) (v : Word)
include runs bad

theorem makes_dmaCmd_illegal : Makes (.dmaCmd k v ops) s (s.dev.coreStop k.val 1) := by
  refine makes_of _ (exec_dmaCmd ..) ?_
  rw [Dev.coreDmaCmd, if_neg (by simp [bad]), issueGo_illegal runs (.inl bad)]
  exact if_neg (by simp)

theorem makes_msg_illegal : Makes (.msg k v ops) s (s.dev.coreStop k.val 1) := by
  refine makes_of _ (exec_msg ..) ?_
  rw [Dev.coreMsg, issueGo_illegal runs (.inl bad)]
  exact if_neg (by simp)

end Illegal
end Stores

/-! ## The end of a transfer (R445) -/

/-- A core that waited for a place or for its transfers looks again. -/
def resumed (d : Dev) (k : Nat) : Dev :=
  let y := d.core k
  match y.st with
  | .stalled => d.setCore k { y with st := .running }
  | .dwait n => if y.q.length ≤ n then d.setCore k { y with st := .running }.next else d
  | _ => d

/-- What follows a transfer that the fabric took. -/
def transferOver (d : Dev) (k : Nat) (irq : Bool) : Dev := resumed (if irq then d.intPend k 1 else d) k

theorem core_of_untold {d e : Dev} (h : untold e = untold d) (k : Nat) : e.core k = d.core k := by
  have cores : e.dsp = d.dsp := (congrArg Dev.dsp h :)
  rw [Dev.core, cores, Dev.core]

section Transfer
variable (d : Dev) (k : Nat) (irq : Bool)

theorem resumed_frame : { resumed d k with dsp := d.dsp } = d := by
  unfold resumed
  dsimp only
  repeat' split
  all_goals rfl

theorem resumed_core : ((resumed d k).core k).q = (d.core k).q ∧ ((resumed d k).core k).ctl = (d.core k).ctl := by
  unfold resumed
  dsimp only
  split
  · rw [core_setCore_self]
    exact ⟨rfl, rfl⟩
  · split
    · rw [core_setCore_self, next_frame]
      exact ⟨rfl, rfl⟩
    · exact ⟨rfl, rfl⟩
  · exact ⟨rfl, rfl⟩

theorem transferOver_dram : (transferOver d k irq).dram = d.dram :=
  (congrArg Dev.dram (resumed_frame ..) :).trans (by cases irq <;> rfl)

theorem transferOver_localMem : (transferOver d k irq).localMem = d.localMem :=
  (congrArg Dev.localMem (resumed_frame ..) :).trans (by cases irq <;> rfl)

theorem transferOver_q : ((transferOver d k irq).core k).q = (d.core k).q := by
  rw [transferOver, (resumed_core ..).1]
  cases irq
  · rfl
  · simp only [if_true, Dev.intPend, core_setCore_self]

theorem transferOver_pends : bitAt (smGet (fun _ => 0#32) ((transferOver d k true).core k).ctl 0x2C).toNat 1 = true := by
  rw [transferOver, (resumed_core ..).2]
  exact pends_intPend (by omega)

/-- What a transfer that the fabric took leaves. -/
theorem transferOver_leaves {r : List Dma} (rest : (d.core k).q = r) : let e := transferOver d k irq
    e.dram = d.dram ∧ e.localMem = d.localMem ∧ (e.core k).q = r ∧
      (irq = true → bitAt (smGet (fun _ => 0#32) (e.core k).ctl 0x2C).toNat 1 = true) := by
  refine ⟨transferOver_dram .., transferOver_localMem .., (transferOver_q ..).trans rest,
    fun asked => ?_⟩
  rw [asked]
  exact transferOver_pends ..

end Transfer

section Done
variable {d : Dev} {k : Nat} {t : Dma} {r : List Dma} (first : (d.core k).q = t :: r) (free : d.heldInReset (coreBase k) = false)
include first free

theorem dmaDone_error : ∃ id, id < 256 ∧ d.dmaDone k true =
    ((((d.setCore k { d.core k with q := r }).fabLog .slverr t.toDram (Master.quad (k / 4)).index id t.ext).drew 1).coreStop k 6) :=
  ⟨_, Nat.mod_lt _ (by omega), by simp only [Dev.dmaDone, first, free, if_true, Bool.false_eq_true, if_false, Bool.true_or]; rfl⟩

theorem dmaDone_beyond (beyond : 0x80000 < t.loc + t.len) : d.dmaDone k false = (d.setCore k { d.core k with q := r }).coreStop k 6 := by
  simp only [Dev.dmaDone, first, free, Bool.false_eq_true, if_false, Bool.false_or, beyond, decide_true, if_true]

section Lawful
variable (inside : t.loc + t.len ≤ 0x80000) (loc : t.loc % 4 = 0) (ext : t.ext % 4 = 0) (len : t.len % 4 = 0) (long : 0 < t.len)
  (few : t.len ≤ 65536)
include inside loc ext len long few

theorem dmaDone_out (out : t.toDram = true) {g : Dev}
    (taken : (d.setCore k { d.core k with q := r }).dramWrite (.quad (k / 4)) t.ext (memRead d.localMem (k * 0x80000 + t.loc) t.len) = (true, g)) :
    d.dmaDone k false = transferOver (g.tellPersist t.ext (memRead d.localMem (k * 0x80000 + t.loc) t.len)) k t.irq := by
  have within : ¬ 0x80000 < t.loc + t.len := by omega
  have lawful : (t.loc % 4 != 0 || t.ext % 4 != 0 || t.len % 4 != 0 || t.len == 0 || decide (65536 < t.len)) = false := by
    simp [loc, ext, len]; omega
  simp only [Dev.dmaDone, first, free, Bool.false_eq_true, if_false, Bool.false_or, within, decide_false, lawful, out, if_true]
  rw [show (d.setCore k { d.core k with q := r }).localMem = d.localMem from rfl, taken]
  rfl

theorem dmaDone_in (into : t.toDram = false) {g : Dev} {l : List Nat}
    (taken : (d.setCore k { d.core k with q := r }).dramRead (.quad (k / 4)) t.ext t.len = (some l, g)) :
    d.dmaDone k false = transferOver { g with localMem := memWrite g.localMem (k * 0x80000 + t.loc) l } k t.irq := by
  have within : ¬ 0x80000 < t.loc + t.len := by omega
  have lawful : (t.loc % 4 != 0 || t.ext % 4 != 0 || t.len % 4 != 0 || t.len == 0 || decide (65536 < t.len)) = false := by
    simp [loc, ext, len]; omega
  simp only [Dev.dmaDone, first, free, Bool.false_eq_true, if_false, Bool.false_or, within, decide_false, lawful, into]
  rw [taken]
  rfl

end Lawful
end Done

/-- Settles O54: each clause by the lemma above about its function. -/
theorem coresStartTakeTasksAndTransfer : Obligations.CoresStartTakeTasksAndTransfer := by
  unfold Obligations.CoresStartTakeTasksAndTransfer
  refine ⟨?starts, ?mailbox, ?interrupts, ?tasks, fun d k r i => instEnd_alone r, ?stores, ?transfers⟩
  case starts =>
    intro s k d w
    refine ⟨fun h => makes_of _ (exec_coreStart ..) (coreStart_idle h), fun held works awake => ⟨fun magic => ?_, fun magic => ?_⟩⟩
    · refine makes_of _ (exec_coreStart ..) ?_
      rw [Dev.coreStart, if_pos ⟨held, works, awake⟩]
      exact if_neg (not_not.2 magic)
    · refine ⟨_, makes_of _ (exec_coreStart ..) ((if_pos ⟨held, works, awake⟩).trans (if_pos magic)), ?_⟩
      exact coreStop_shows (by rw [core_setCore_self]; rfl) 0x10
  case mailbox => exact fun s k v => ⟨makes_coreMbox v, makes_closed (exec_coreMboxWrite ..)⟩
  case interrupts =>
    intro s k d x n i may
    exact ⟨fun not => makes_of _ (exec_interrupt ..) (coreInterrupt_barred not),
      fun taken near idle => makes_of _ (exec_interrupt ..) (coreInterrupt_taken taken near idle)⟩
  case tasks =>
    intro s k a ops
    dsimp only
    intro runs free
    refine ⟨fun task => ?_, fun idle => ?_, fun idle h => ?_, fun task h => ?_⟩
    · exact makes_of _ (exec_tget ..) (if_pos (by simp [runs, free, task]))
    · exact makes_of _ (exec_tdone ..) (if_pos (by simp [runs, free, idle]))
    · exact retires_issue (exec_tget ..) (if_neg (by simp [idle])) h (fun _ => free) rfl
    · refine makes_of _ (exec_tdone ..) ?_
      rw [Dev.coreTdone, if_neg (by simp [task]), issueGo_executes h (fun _ => free)]
      exact if_pos rfl
  case stores =>
    intro s k n v ops
    dsimp only
    refine ⟨fun h => ⟨fun few => ?_, fun many => ?_, fun beside => ⟨makes_dmaCmd_queues h beside v, makes_msg h beside v⟩⟩,
      fun runs beside full => ?_, fun runs bad => ?_⟩
    · exact retires_dwait h (if_pos few)
    · exact retires_dwait h (if_neg (Nat.not_le.2 many))
    · exact makes_of _ (exec_dmaCmd ..) (if_pos (by simp [runs, beside, full]))
    · exact ⟨makes_dmaCmd_illegal runs (besideStore_false bad) v, makes_msg_illegal runs (besideStore_false bad) v⟩
  case transfers =>
    intro s k err d x
    refine ⟨fun none => ?_, fun t r first free => ⟨?_, ?_, ?_⟩⟩
    · exact makes_of _ (exec_dmaTransferDone ..) (by rw [Dev.dmaDone, none])
    · rintro rfl
      obtain ⟨id, few, ends⟩ := dmaDone_error first free
      exact ⟨id, few, makes_of _ (exec_dmaTransferDone ..) ends⟩
    · rintro rfl beyond
      exact makes_of _ (exec_dmaTransferDone ..) (dmaDone_beyond first free beyond)
    · rintro rfl inside loc ext len long few
      refine ⟨fun out g taken keeps => ?_, fun into g l taken keeps => ?_⟩
      · have told := untold_tellPersist g t.ext (memRead d.localMem (k.val * 0x80000 + t.loc) t.len)
        have rest : ((g.tellPersist t.ext (memRead d.localMem (k.val * 0x80000 + t.loc) t.len)).core k.val).q = r := by
          rw [core_of_untold told, keeps, core_setCore_self]
        obtain ⟨dram, mem, q, pends⟩ := transferOver_leaves _ k.val t.irq rest
        exact ⟨_, makes_of _ (exec_dmaTransferDone ..) (dmaDone_out first free inside loc ext len long few out taken),
          dram.trans (congrArg Dev.dram told :), mem.trans (congrArg Dev.localMem told :), q, pends⟩
      · have rest : (({ g with localMem := memWrite g.localMem (k.val * 0x80000 + t.loc) l } : Dev).core k.val).q = r :=
          (congrArg Core.q keeps).trans (congrArg Core.q (core_setCore_self ..))
        obtain ⟨dram, mem, q, pends⟩ := transferOver_leaves _ k.val t.irq rest
        exact ⟨_, makes_of _ (exec_dmaTransferDone ..) (dmaDone_in first free inside loc ext len long few into taken), mem, dram, q, pends⟩

end Sys2Proof.Proofs
end

section
/-! SUPPORT. Ferryman's lists: a run that becomes ready, an entry that is relisted, a submission's checks (15 R455 to R462). -/
namespace Sys2Proof.Proofs
open Sys2Proof.Machine Sys2Proof.Laws

/-- A command that acts and has yet to complete. -/
theorem row_unfinished {d e : Dev} {op : Opcode} {c : Cmd} (hop : op ≠ .sceneCommit) (h : d.applies op c)
    (acts : (d.unqueue c).effect op c ((d.unqueue c).cmdLate op c) = (none, e)) : d.row op c = e.afterCommands := by
  rw [row_applies hop h, acts]

theorem exec_fmnSubmit (c : Cmd) (s : State) : exec (.fmnSubmit c) s = s.act (·.row .fmnSubmit c) := rfl
theorem exec_fmnCancel (c : Cmd) (s : State) : exec (.fmnCancel c) s = s.act (·.row .fmnCancel c) := rfl

/-! ## Counters of the lists (R456) -/

section Counters
variable {d e : Dev} {l : Nat}

theorem listAt_of_src (src : fmnSrc e l = fmnSrc d l) (t : Nat) (m : SMap Nat) : listAt e l t m = listAt d l t m := by
  rw [listAt, src, listAt]

theorem fmnSrc_of_reg (same : e.reg (R.FMN_LIST_CFG_SRC l).addr = d.reg (R.FMN_LIST_CFG_SRC l).addr) : fmnSrc e l = fmnSrc d l := by
  rw [fmnSrc, Dev.fld, same, fmnSrc, Dev.fld]

/-- The counters of Ferryman stand beside the lists' configuration. -/
theorem fmnSrc_count (few : l < 4) {f : Field} (at' : 0x110140 ≤ f.addr) : fmnSrc (d.count f) l = fmnSrc d l :=
  fmnSrc_of_reg (reg_count_ne d f (by simp only [R.FMN_LIST_CFG_SRC]; omega))

end Counters

/-! ## A run that becomes ready (R460, R461) -/

/-- The run, with the words of its entry as they stand. -/
def readied (d : Dev) (e : Nat) (c : Cmd) (periodic : Bool) (block : Nat) (late : Bool) : Inst :=
  ⟨e, (List.range 6).map (fun n => asRead T.fmnTask (2 + n) (d.live T.fmnTask (8 * e + 2 + n))), block % 2 ^ 48, late, c, periodic, d.tbu.now,
    none, 0, 0, false, false⟩

section Ready
variable (d : Dev) (e : Nat) (c : Cmd) (periodic : Bool) (block : Nat) (late : Bool)

theorem unbooked_makeReady : unbooked (d.makeReady e c periodic block late) =
    unbooked { d with fmn := { d.fmn with ready := d.fmn.ready ++ [readied d e c periodic block late] } } := by
  unfold Dev.makeReady
  dsimp only
  split
  · simp only [unbooked_note, unbooked_raise, unbooked_count]
    rfl
  · simp only [unbooked_count]
    rfl

theorem reg_makeReady {a : Nat} (released : a ≠ R.FMN_RELEASED_COUNT.addr) (overdue : a ≠ R.FMN_LATE_COUNT.addr) :
    (d.makeReady e c periodic block late).reg a = d.reg a := by
  have same : (({ d with fmn := { d.fmn with ready := d.fmn.ready ++ [readied d e c periodic block late] } } : Dev).count
      R.FMN_RELEASED_COUNT).reg a = d.reg a := reg_count_ne _ _ released
  unfold Dev.makeReady
  dsimp only
  split
  · rw [reg_note, reg_raise, reg_count_ne _ _ overdue]
    exact same
  · exact same

end Ready

/-! ## A periodic entry that is relisted (R462) -/

section Relist
variable (d : Dev) (l : Nat) (w : FWait)

/-- Periods until an entry's next due point above the counter `now`. -/
def periodsOn (w : FWait) (now : Nat) : Nat := if w.due ≤ now then (now - w.due) / w.period + 1 else 1

theorem periodsOn_pos (now : Nat) : 1 ≤ periodsOn w now := by
  unfold periodsOn
  split
  · exact Nat.le_add_left ..
  · exact Nat.le_refl _

theorem periodsOn_passes (periodic : 0 < w.period) (now : Nat) : now < w.due + periodsOn w now * w.period := by
  unfold periodsOn
  split
  · have := Nat.lt_mul_div_succ (now - w.due) periodic
    rw [Nat.mul_comm] at this
    omega
  · omega

theorem periodsOn_first (now : Nat) : periodsOn w now = 1 ∨ w.due + (periodsOn w now - 1) * w.period ≤ now := by
  unfold periodsOn
  split
  · have := Nat.div_mul_le_self (now - w.due) w.period
    exact .inr (by rw [Nat.add_sub_cancel]; omega)
  · exact .inl rfl

/-- The entry as it goes back into its list. -/
def relisted (now : Nat) : FWait := { w with due := w.due + periodsOn w now * w.period }

/-- The due points passed over are counted and noted. -/
def skipped (d : Dev) (k : Nat) : Dev := if 1 < k then (d.addFld R.FMN_SKIP_COUNT (k - 1)).note .fmnSkip else d

theorem unbooked_skipped (k : Nat) : unbooked (skipped d k) = unbooked d := by
  unfold skipped
  split
  · exact (unbooked_note ..).trans (unbooked_addFld ..)
  · rfl

theorem reinsert_eq : d.reinsert l w = { skipped d (periodsOn w (listAfter d l)) with
    fmn := { d.fmn with lists := listInsert (l, relisted w (listAfter d l)) d.fmn.lists } } := by
  have fmn : (skipped d (periodsOn w (listAfter d l))).fmn = d.fmn := (congrArg Dev.fmn (unbooked_skipped ..) :)
  rw [← fmn]
  rfl

theorem unbooked_reinsert : unbooked (d.reinsert l w) =
    unbooked { d with fmn := { d.fmn with lists := listInsert (l, relisted w (listAfter d l)) d.fmn.lists } } := by
  rw [reinsert_eq]
  exact congrArg (fun e : Dev => ({ e with fmn := { d.fmn with lists := listInsert (l, relisted w (listAfter d l)) d.fmn.lists } } : Dev))
    (unbooked_skipped d _)

theorem reg_reinsert {a : Nat} (skips : a ≠ R.FMN_SKIP_COUNT.addr) : (d.reinsert l w).reg a = d.reg a := by
  have same (n : Nat) : ((d.addFld R.FMN_SKIP_COUNT n).note .fmnSkip).reg a = d.reg a := by
    rw [reg_note, Dev.addFld]
    split
    · rfl
    · exact reg_setFld_ne _ _ _ skips
  calc (d.reinsert l w).reg a = (skipped d (periodsOn w (listAfter d l))).reg a := by rw [reinsert_eq]; exact reg_of_regs rfl rfl a
    _ = d.reg a := by
      unfold skipped
      split
      · exact same _
      · rfl

end Relist

/-! ## A submission that is accepted (R458 to R460) -/

/-- The part with an accepted submission counted. -/
def accepted (d : Dev) : Dev := { d.count R.FMN_SUBMITTED_COUNT with fmn := { d.fmn with order := d.fmn.order + 1 } }

/-- The submission as it waits. -/
def submitted (d : Dev) (c : Cmd) : FWait := ⟨FCmd.due c, d.fmn.order, FCmd.entry c, FCmd.period c, c⟩

/-- The tick whose boundary the command applies at, A of R460. -/
def fmnTick (d : Dev) : Nat := if d.running = true then d.top.tick else d.top.tick + 1

/-- The part with an entry in a delay list. -/
def withEntry (d : Dev) (l : Nat) (w : FWait) : Dev := { d with fmn := { d.fmn with lists := listInsert (l, w) d.fmn.lists } }

section Submit
variable {d : Dev} {c : Cmd} (entry : FCmd.entry c ≤ 4095) (list : ¬ (4 < FCmd.list c ∨ FCmd.list c = 4 ∧ FCmd.period c ≠ 0))
  (new : fmnScheduled d (FCmd.entry c) = false) (room : ¬ (FCmd.list c < 4 ∧ 1024 ≤ (d.fmn.lists.filter (fun x => x.1 == FCmd.list c)).length))
include entry list new room

/-- What an accepted submission does. -/
theorem fmnSubmit_accepted (late : Bool) : fmnSubmit d c late =
    if !d.works fmnBase then (none, withEntry (accepted d) (FCmd.list c) (submitted d c))
    else if FCmd.list c = 4 then (none, (accepted d).makeReady (FCmd.entry c) c false (fmnTick d + 2 ^ 48 - 1) late)
    else if listBefore (accepted d) (FCmd.list c) < FCmd.due c then (none, withEntry (accepted d) (FCmd.list c) (submitted d c))
    else
      let e := (accepted d).makeReady (FCmd.entry c) c (FCmd.period c != 0)
        (if fmnSrc (accepted d) (FCmd.list c) = 0 then FCmd.due c + 2 ^ 48 - 1 else fmnTick d + 2 ^ 48 - 1) true
      (none, if FCmd.period c = 0 then e else e.reinsert (FCmd.list c) (submitted d c)) := by
  rw [fmnSubmit]
  dsimp only
  rw [if_neg (by omega), if_neg list, if_neg (by simp [new]), if_neg room]
  have running : (d.count R.FMN_SUBMITTED_COUNT).running = d.running := by
    rw [Dev.running, Dev.flag, fld_count_of_addr d _ (by decide), Dev.running, Dev.flag]
    rfl
  have fmn : (d.count R.FMN_SUBMITTED_COUNT).fmn = d.fmn := count_fmn ..
  rw [running, fmn]
  rfl

end Submit

/-! ## What a completion leaves alone (R69, R90, R93) -/

/-- The part but for the rings, host memory and the Tether link beside what `unbooked` leaves out. -/
def unanswered (d : Dev) : Dev := { unbooked d with hre := Hre.reset, hostMem := [], tth := Tth.reset }

theorem unanswered_of_unbooked {d e : Dev} (h : unbooked e = unbooked d) : unanswered e = unanswered d := by rw [unanswered, h, unanswered]

section Complete
variable (d : Dev) (c : Cmd)

@[simp] theorem unanswered_unlink : unanswered (d.unlink c) = unanswered d := by
  unfold Dev.unlink
  dsimp only
  split <;> rfl

@[simp] theorem unanswered_ringPut (r : Nat) (body : List Nat) : unanswered (d.ringPut r body) = unanswered d := (rfl)

@[simp] theorem unanswered_ringDrop (r : Nat) : unanswered (d.ringDrop r) = unanswered d :=
  unanswered_of_unbooked ((unbooked_raise ..).trans (unbooked_count ..))

@[simp] theorem unanswered_writeCpl (p : Cpl) : unanswered (d.writeCpl c p) = unanswered d := by
  unfold Dev.writeCpl
  dsimp only
  split
  · exact unanswered_unlink ..
  · split
    · exact (unanswered_ringPut ..).trans (unanswered_unlink ..)
    · exact (unanswered_ringDrop ..).trans (unanswered_unlink ..)

@[simp] theorem unanswered_complete (p : Cpl) : unanswered (d.complete c p) = unanswered d := (unanswered_writeCpl d c p :)

@[simp] theorem complete_fmn (p : Cpl) : (d.complete c p).fmn = d.fmn := (congrArg Dev.fmn (unanswered_complete d c p) :)
@[simp] theorem complete_tabs (p : Cpl) : (d.complete c p).tabs = d.tabs := (congrArg Dev.tabs (unanswered_complete d c p) :)

theorem reg_unlink (a : Nat) : (d.unlink c).reg a = d.reg a := by
  unfold Dev.unlink
  dsimp only
  split <;> exact reg_of_regs rfl rfl a

/-- A completion writes a ring's index or its count of drops, whatever ring it goes to. -/
theorem reg_complete {a : Nat} (index : a % 32 ≠ 16) (drops : a % 32 ≠ 28) (p : Cpl) : (d.complete c p).reg a = d.reg a := by
  have put (e : Dev) (r : Nat) (body : List Nat) : (e.ringPut r body).reg a = e.reg a :=
    ringPut_reg_ne e body (by simp only [R.RING_DEV_IDX_DEV_IDX]; omega)
  have drop (e : Dev) (r : Nat) : (e.ringDrop r).reg a = e.reg a :=
    (reg_raise ..).trans (reg_count_ne _ _ (by simp only [R.RING_DROP_COUNT]; omega))
  calc (d.complete c p).reg a = (d.writeCpl c p).reg a := reg_of_regs rfl rfl a
    _ = d.reg a := by
      unfold Dev.writeCpl
      dsimp only
      split
      · exact reg_unlink ..
      · split
        · exact (put ..).trans (reg_unlink ..)
        · exact (drop ..).trans (reg_unlink ..)

end Complete
end Sys2Proof.Proofs
end

section
/-! FMN_SUBMIT and FMN_CANCEL (15 R455 to R464). Settles O48. -/
namespace Sys2Proof.Proofs
open Sys2Proof.Machine Sys2Proof.Laws

/-! ## What an accepted submission keeps -/

/-- It counts, and keeps the instances delivered, the tables, the counter and host memory. -/
def submitKeeps (d g : Dev) : Prop := g.fmn.run = d.fmn.run ∧ g.tabs = d.tabs ∧ g.top = d.top ∧ g.hostMem = d.hostMem ∧
  g.fld R.FMN_SUBMITTED_COUNT = min (d.fld R.FMN_SUBMITTED_COUNT + 1) (2 ^ R.FMN_SUBMITTED_COUNT.w - 1)

section Keeps
variable {d g : Dev}

theorem submitKeeps_of {F : Fmn} (frame : unbooked g = unbooked { d with fmn := F }) (run : F.run = d.fmn.run)
    (reg : g.reg R.FMN_SUBMITTED_COUNT.addr = (accepted d).reg R.FMN_SUBMITTED_COUNT.addr) : submitKeeps d g := by
  have fmn : g.fmn = F := (congrArg Dev.fmn frame :)
  refine ⟨(congrArg Fmn.run fmn).trans run, (congrArg Dev.tabs frame :), (congrArg Dev.top frame :), (congrArg Dev.hostMem frame :), ?_⟩
  rw [Dev.fld, reg]
  exact fld_addFld_self d R.FMN_SUBMITTED_COUNT 1 (by decide)

theorem submitKeeps_withEntry (l : Nat) (w : FWait) : submitKeeps d (withEntry (accepted d) l w) := submitKeeps_of (F := (withEntry (accepted d) l w).fmn) rfl rfl rfl

variable (e : Nat) (c : Cmd) (periodic : Bool) (block : Nat) (late : Bool)

theorem makeReady_fmn : (d.makeReady e c periodic block late).fmn = { d.fmn with ready := d.fmn.ready ++ [readied d e c periodic block late] } :=
  (congrArg Dev.fmn (unbooked_makeReady d e c periodic block late) :)

theorem makeReady_ready : ((accepted d).makeReady e c periodic block late).fmn.ready = d.fmn.ready ++ [readied d e c periodic block late] := by
  rw [makeReady_fmn]
  rfl

theorem makeReady_lists : ((accepted d).makeReady e c periodic block late).fmn.lists = d.fmn.lists := by
  rw [makeReady_fmn]
  rfl

theorem reinsert_fmn (l : Nat) (w : FWait) :
    (d.reinsert l w).fmn = { d.fmn with lists := listInsert (l, relisted w (listAfter d l)) d.fmn.lists } :=
  (congrArg Dev.fmn (unbooked_reinsert d l w) :)

theorem submitKeeps_makeReady : submitKeeps d ((accepted d).makeReady e c periodic block late) :=
  submitKeeps_of (unbooked_makeReady ..) rfl (reg_makeReady _ _ _ _ _ _ (by decide) (by decide))

theorem submitKeeps_reinsert (l : Nat) (w : FWait) : submitKeeps d (((accepted d).makeReady e c periodic block late).reinsert l w) := by
  have ready := unbooked_makeReady (accepted d) e c periodic block late
  refine submitKeeps_of ((unbooked_reinsert ..).trans (congrArg (fun g : Dev => ({ g with fmn := _ } : Dev)) ready)) ?_ ?_
  · exact (congrArg (fun g : Dev => g.fmn.run) ready :)
  · exact (reg_reinsert _ _ _ (by decide)).trans (reg_makeReady _ _ _ _ _ _ (by decide) (by decide))

end Keeps
/-! ## Where an accepted submission goes (R460) -/

section Goes
variable {d : Dev} {c : Cmd} (late : Bool) (entry : FCmd.entry c ≤ 4095) (lawful : ¬ (4 < FCmd.list c ∨ FCmd.list c = 4 ∧ FCmd.period c ≠ 0))
  (new : fmnScheduled d (FCmd.entry c) = false) (room : ¬ (FCmd.list c < 4 ∧ 1024 ≤ (d.fmn.lists.filter (fun x => x.1 == FCmd.list c)).length))

theorem fmnSrc_accepted {l : Nat} (few : l < 4) : fmnSrc (accepted d) l = fmnSrc d l := by
  have same : fmnSrc (accepted d) l = fmnSrc (d.count R.FMN_SUBMITTED_COUNT) l := fmnSrc_of_reg (reg_of_regs rfl rfl _)
  exact same.trans (fmnSrc_count few (by decide))

theorem listBefore_accepted {l : Nat} (few : l < 4) : listBefore (accepted d) l = listBefore d l := by
  have running : (accepted d).running = d.running :=
    congrArg (· && d.top.started) (congrArg (· == 1) (fld_count_of_addr d R.FMN_SUBMITTED_COUNT (g := R.TOP_RATE_TICK_RUN) (by decide)))
  rw [listBefore, listAt_of_src (fmnSrc_accepted few), running]
  rfl

theorem listAfter_makeReady {l : Nat} (few : l < 4) (e : Nat) (periodic : Bool) (block : Nat) :
    listAfter ((accepted d).makeReady e c periodic block late) l = listAfter d l := by
  have frame := unbooked_makeReady (accepted d) e c periodic block late
  have top : ((accepted d).makeReady e c periodic block late).top = d.top := (congrArg Dev.top frame :)
  have nxt : ((accepted d).makeReady e c periodic block late).fmn.nxt = d.fmn.nxt := (congrArg (fun g : Dev => g.fmn.nxt) frame :)
  have src : fmnSrc ((accepted d).makeReady e c periodic block late) l = fmnSrc d l := by
    refine Eq.trans (fmnSrc_of_reg (reg_makeReady _ _ _ _ _ _ ?_ ?_)) (fmnSrc_accepted few)
    all_goals simp only [R.FMN_LIST_CFG_SRC, R.FMN_RELEASED_COUNT, R.FMN_LATE_COUNT]; omega
  rw [listAfter, listAt_of_src src, top, nxt, listAfter]

include entry lawful new room

theorem fmnSubmit_idle (idle : d.works fmnBase = false) :
    fmnSubmit d c late = (none, withEntry (accepted d) (FCmd.list c) (submitted d c)) := by
  rw [fmnSubmit_accepted entry lawful new room, if_pos (by simp [idle])]

theorem fmnSubmit_now (now : FCmd.list c = 4) (works : d.works fmnBase = true) :
    fmnSubmit d c late = (none, (accepted d).makeReady (FCmd.entry c) c false (fmnTick d + 2 ^ 48 - 1) late) := by
  rw [fmnSubmit_accepted entry lawful new room, if_neg (by simp [works]), if_pos now]

theorem fmnSubmit_ahead (few : FCmd.list c < 4) (ahead : listBefore d (FCmd.list c) < FCmd.due c) :
    fmnSubmit d c late = (none, withEntry (accepted d) (FCmd.list c) (submitted d c)) := by
  rw [fmnSubmit_accepted entry lawful new room, if_neg (show ¬ FCmd.list c = 4 by omega), listBefore_accepted few, if_pos ahead, ite_self]

theorem fmnSubmit_overdue (few : FCmd.list c < 4) (works : d.works fmnBase = true) (overdue : FCmd.due c ≤ listBefore d (FCmd.list c)) :
    fmnSubmit d c late = (none,
      let e := (accepted d).makeReady (FCmd.entry c) c (FCmd.period c != 0)
        ((if fmnSrc d (FCmd.list c) = 0 then FCmd.due c else fmnTick d) + 2 ^ 48 - 1) true
      if FCmd.period c = 0 then e else e.reinsert (FCmd.list c) (submitted d c)) := by
  rw [fmnSubmit_accepted entry lawful new room, if_neg (by simp [works]), if_neg (show ¬ FCmd.list c = 4 by omega), listBefore_accepted few,
    if_neg (Nat.not_lt.2 overdue), fmnSrc_accepted few]
  by_cases source : fmnSrc d (FCmd.list c) = 0
  · rw [if_pos source, if_pos source]
  · rw [if_neg source, if_neg source]

end Goes

/-! ## A submission that fails (R459) -/

section Fails
variable {d : Dev} {c : Cmd} (late : Bool)

/-- A submission that fails, with the RESULT of R459. -/
def submitFails (d : Dev) (c : Cmd) (st : Status) (n : Nat) : Option Cpl × Dev := done (⟨st, n, fmnResult 0 0 255 (FCmd.entry c) 0 0⟩, d)

theorem fmnSubmit_beyond (beyond : 4095 < FCmd.entry c) : fmnSubmit d c late = submitFails d c .badTable 2 := if_pos beyond

variable (entry : FCmd.entry c ≤ 4095)
include entry

theorem fmnSubmit_unlawful (bad : 4 < FCmd.list c ∨ FCmd.list c = 4 ∧ FCmd.period c ≠ 0) : fmnSubmit d c late = submitFails d c .badTable 3 :=
  (if_neg (Nat.not_lt.2 entry)).trans (if_pos bad)

variable (lawful : ¬ (4 < FCmd.list c ∨ FCmd.list c = 4 ∧ FCmd.period c ≠ 0))
include lawful

theorem fmnSubmit_again (again : fmnScheduled d (FCmd.entry c) = true) : fmnSubmit d c late = submitFails d c .noSpace 1 :=
  (if_neg (Nat.not_lt.2 entry)).trans ((if_neg lawful).trans (if_pos again))

theorem fmnSubmit_full (new : fmnScheduled d (FCmd.entry c) = false)
    (full : FCmd.list c < 4 ∧ 1024 ≤ (d.fmn.lists.filter (fun x => x.1 == FCmd.list c)).length) : fmnSubmit d c late = submitFails d c .noSpace 2 :=
  (if_neg (Nat.not_lt.2 entry)).trans ((if_neg lawful).trans ((if_neg (by simp [new])).trans (if_pos full)))

end Fails

/-! ## FMN_CANCEL (R463, R464) -/

/-- The part with an entry taken out of the lists. -/
def withoutEntry (d : Dev) (e : Nat) : Dev := { d with fmn := { d.fmn with
  lists := d.fmn.lists.filter (fun x => x.2.entry != e), ready := d.fmn.ready.filter (fun i => i.entry != e) } }

section Cancel
variable {d : Dev} {c : Cmd}

/-- What a completed submission and the count leave. -/
def cancelLeaves (d g : Dev) (e : Nat) : Prop := g.fmn = (withoutEntry d e).fmn ∧ g.tabs = d.tabs ∧
  g.fld R.FMN_CANCELLED_COUNT = min (d.fld R.FMN_CANCELLED_COUNT + 1) (2 ^ R.FMN_CANCELLED_COUNT.w - 1)

theorem cancelLeaves_counted (d : Dev) (e : Nat) : cancelLeaves d ((withoutEntry d e).count R.FMN_CANCELLED_COUNT) e :=
  ⟨count_fmn .., count_tabs .., fld_addFld_self (withoutEntry d e) R.FMN_CANCELLED_COUNT 1 (by decide)⟩

theorem cancelLeaves_complete {g : Dev} {e : Nat} (h : cancelLeaves d g e) (x : Cmd) (p : Cpl) : cancelLeaves d (g.complete x p) e := by
  obtain ⟨fmn, tabs, counts⟩ := h
  refine ⟨(complete_fmn ..).trans fmn, (complete_tabs ..).trans tabs, ?_⟩
  rw [Dev.fld, reg_complete _ _ (by decide) (by decide)]
  exact counts

theorem fmnCancel_scheduled (late : Bool) (entry : FCmd.entry c ≤ 4095) (waits : fmnScheduled d (FCmd.entry c) = true) :
    ∃ g : Dev, fmnCancel d c late = (⟨lateOk late, 0, 0⟩, g) ∧ cancelLeaves d g (FCmd.entry c) := by
  rw [fmnCancel, if_neg (Nat.not_lt.2 entry), if_neg (by simp [waits])]
  refine ⟨_, rfl, ?_⟩
  have counted := cancelLeaves_counted d (FCmd.entry c)
  split
  · exact cancelLeaves_complete counted ..
  · exact cancelLeaves_complete counted ..
  · exact counted

theorem scheduled_withoutEntry (d : Dev) (e : Nat) : fmnScheduled (withoutEntry d e) e = false := by
  simp [fmnScheduled, withoutEntry]

end Cancel

/-- Settles O48: a submission fails, waits or is ready by the lemma above; a cancelled one leaves lists and instances. -/
theorem submissionsAreScheduledAsR460Says : Obligations.SubmissionsAreScheduledAsR460Says := by
  unfold Obligations.SubmissionsAreScheduledAsR460Says
  refine ⟨fun s c applies => ?submit, fun s c applies => ?cancel⟩
  case submit =>
    intro d e l p bad full a w inst same
    have fails {st : Status} {n : Nat} (h : ∀ late, fmnSubmit d c late = submitFails d c st n) : bad st n :=
      makes_of _ (exec_fmnSubmit c s) (row_done (by decide) applies (h _))
    have unfinished {g : Dev} (h : fmnSubmit d c (d.isLate c) = (none, g)) : Makes (.fmnSubmit c) s g.afterCommands :=
      makes_of _ (exec_fmnSubmit c s) (row_unfinished (by decide) applies
        ((congrArg (fmnSubmit d c) (cmdLate_of_other (by decide) (by decide) d c)).trans h))
    refine ⟨fun beyond => fails fun late => fmnSubmit_beyond late beyond, fun entry unlawful => fails fun late => fmnSubmit_unlawful late entry unlawful,
      fun entry lawful => ⟨fun again => fails fun late => fmnSubmit_again late entry lawful again,
        fun new full => fails fun late => fmnSubmit_full late entry lawful new full, fun new room => ⟨fun idle => ?_, fun now works => ?_,
          fun few ahead => ?_, fun few works overdue => ?_⟩⟩⟩
    · exact ⟨_, unfinished (fmnSubmit_idle _ entry lawful new room idle), submitKeeps_withEntry .., rfl, rfl⟩
    · have once : decide (p ≠ 0) = false := decide_eq_false fun more => lawful (.inr ⟨now, more⟩)
      refine ⟨_, unfinished (fmnSubmit_now _ entry lawful new room now works), submitKeeps_makeReady .., makeReady_lists .., ?_⟩
      rw [makeReady_ready, ← once]
      rfl
    · exact ⟨_, unfinished (fmnSubmit_ahead _ entry lawful new room few ahead), submitKeeps_withEntry .., rfl, rfl⟩
    · have made := unfinished (fmnSubmit_overdue _ entry lawful new room few works overdue)
      rw [show (FCmd.period c != 0) = decide (p ≠ 0) from Bool.eq_iff_iff.2 (by simp [p])] at made
      by_cases once : p = 0
      · rw [if_pos once] at made
        exact ⟨_, 1, made, submitKeeps_makeReady .., Nat.le_refl 1, makeReady_ready .., fun _ => makeReady_lists .., fun more => absurd once more⟩
      · rw [if_neg once] at made
        have after := listAfter_makeReady (d := d) (c := c) true few e (decide (p ≠ 0))
        refine ⟨_, periodsOn w (listAfter d l), made, submitKeeps_reinsert .., periodsOn_pos .., ?_, fun none => absurd none once, fun _ => ?_⟩
        · rw [reinsert_fmn]
          exact makeReady_ready ..
        · refine ⟨?_, periodsOn_passes w (Nat.pos_of_ne_zero once) _, periodsOn_first w _⟩
          rw [reinsert_fmn, after, makeReady_lists]
          rfl
  case cancel =>
    intro d e
    have cancels {p : Cpl} {g : Dev} (h : fmnCancel d c (d.isLate c) = (p, g)) : Makes (.fmnCancel c) s (g.ends c p) :=
      makes_of _ (exec_fmnCancel c s) (row_done (by decide) applies
        (congrArg done ((congrArg (fmnCancel d c) (cmdLate_of_other (by decide) (by decide) d c)).trans h)))
    refine ⟨fun beyond => cancels (if_pos beyond), fun entry new => cancels ((if_neg (Nat.not_lt.2 entry)).trans (if_pos (by simp [show fmnScheduled d (FCmd.entry c) = false from new]))),
      fun entry waits => ?_⟩
    obtain ⟨g, cancelled, fmn, tabs, counts⟩ := fmnCancel_scheduled (d.isLate c) entry waits
    refine ⟨g, cancels cancelled, ?_, fun x => ?_, fun i => ?_, ?_, tabs, counts⟩
    · rw [fmnScheduled, fmn]
      exact scheduled_withoutEntry d e
    · simp [fmn, withoutEntry, e]
    · simp [fmn, withoutEntry, e]
    · rw [fmn]
      rfl

end Sys2Proof.Proofs
end

section
/-! Accesses to DRAM: bursts, grants and refusals, and the map (16 R476, R479, R483, R484, R487). Settles O37. -/
namespace Sys2Proof.Proofs
open Sys2Proof.Machine Sys2Proof.Laws

/-! ## Bursts (R476) -/

section Bursts
variable {a n : Nat}

/-- Burst `i` of an access. -/
def burstAt (a n i : Nat) : Nat × Nat :=
  (max a ((a / 4096 + i) * 4096), min (a + n) ((a / 4096 + i + 1) * 4096) - max a ((a / 4096 + i) * 4096))

theorem burstsOf_eq (some : n ≠ 0) : burstsOf a n = (List.range ((a + n - 1) / 4096 + 1 - a / 4096)).map (burstAt a n) := if_neg some

theorem burstAt_bounds {i : Nat} (some : n ≠ 0) (h : i < (a + n - 1) / 4096 + 1 - a / 4096) : let r := burstAt a n i
    r.2 ≠ 0 ∧ a ≤ r.1 ∧ r.1 + r.2 ≤ a + n ∧ r.1 / 4096 = (r.1 + r.2 - 1) / 4096 := by
  simp only [burstAt]
  omega

theorem burstsOf_bounds {r : Nat × Nat} (h : r ∈ burstsOf a n) : r.2 ≠ 0 ∧ a ≤ r.1 ∧ r.1 + r.2 ≤ a + n ∧ r.1 / 4096 = (r.1 + r.2 - 1) / 4096 := by
  by_cases some : n = 0
  · simp [burstsOf, some] at h
  · rw [burstsOf_eq some] at h
    obtain ⟨i, hi, rfl⟩ := List.mem_map.1 h
    exact burstAt_bounds some (List.mem_range.1 hi)

theorem burstsOf_covers {x : Nat} (low : a ≤ x) (high : x < a + n) : ∃ r ∈ burstsOf a n, r.1 ≤ x ∧ x < r.1 + r.2 := by
  refine ⟨burstAt a n (x / 4096 - a / 4096), ?_, ?_⟩
  · rw [burstsOf_eq (by omega)]
    exact List.mem_map_of_mem (List.mem_range.2 (by omega))
  · simp only [burstAt]
    omega

theorem burstsOf_apart : (burstsOf a n).Pairwise (fun p q => p.1 + p.2 ≤ q.1) := by
  by_cases some : n = 0
  · simp [burstsOf, some]
  · rw [burstsOf_eq some, List.pairwise_map]
    refine List.pairwise_lt_range.imp_of_mem (fun {i j} hi hj before => ?_)
    have := List.mem_range.1 hi
    have := List.mem_range.1 hj
    simp only [burstAt]
    omega

/-- Bytes of one page go in one burst. -/
theorem burstsOf_page (some : n ≠ 0) (page : a / 4096 = (a + n - 1) / 4096) : burstsOf a n = [(a, n)] := by
  rw [burstsOf_eq some, show (a + n - 1) / 4096 + 1 - a / 4096 = 1 by omega]
  simp only [List.range_one, List.map_cons, List.map_nil, burstAt]
  congr 2 <;> omega

end Bursts

/-! ## A write, burst by burst (R476, R479) -/

section Write
variable (d : Dev) (m : Master) {a : Nat} {l : List Nat}

theorem dramWrite_page (some : l ≠ []) (page : a / 4096 = (a + l.length - 1) / 4096) : d.dramWrite m a l =
    let x := d.dramBurst m true a l.length
    (x.1, if x.1 then { x.2 with dram := memWrite x.2.dram a l } else x.2) := by
  rw [Dev.dramWrite, burstsOf_page (List.length_pos_iff.2 some).ne' page]
  simp

theorem dramWrite_bursts (a : Nat) (l : List Nat) : d.dramWrite m a l = (burstsOf a l.length).foldl (fun (x : Bool × Dev) r =>
    let y := x.2.dramWrite m r.1 ((l.drop (r.1 - a)).take r.2)
    (x.1 && y.1, y.2)) (true, d) := by
  rw [Dev.dramWrite]
  refine List.foldl_ext _ _ _ fun x r hr => ?_
  obtain ⟨some, low, high, page⟩ := burstsOf_bounds hr
  have piece : ((l.drop (r.1 - a)).take r.2).length = r.2 := by
    rw [List.length_take, List.length_drop]
    omega
  rw [dramWrite_page x.2 m (List.ne_nil_of_length_pos (by omega)) (by rw [piece]; exact page), piece]

end Write
/-! ## Writes of registers alone -/

/-- The part but for its registers. -/
def unregistered (d : Dev) : Dev := { d with regs := [] }

section Unregistered
variable (d : Dev)

theorem frame_of_unregistered {d e : Dev} (h : unregistered e = unregistered d) : { e with regs := d.regs } = d :=
  (congrArg (fun x : Dev => ({ x with regs := d.regs } : Dev)) h :)

@[simp] theorem unregistered_setFld (f : Field) (v : Nat) : unregistered (d.setFld f v) = unregistered d := (rfl)

@[simp] theorem unregistered_setFlds (l : List (Field × Nat)) : unregistered (d.setFlds l) = unregistered d :=
  foldl_keeps unregistered (f := fun d (p : Field × Nat) => d.setFld p.1 p.2) (fun _ _ => rfl) l d

@[simp] theorem unregistered_count (f : Field) : unregistered (d.count f) = unregistered d := (rfl)

end Unregistered

/-! ## The fabric's log (R481) -/

section Log
variable (d : Dev) (e : FabErr) (write : Bool) (master id addr : Nat)

/-- The error counted. -/
def fabCounted (d : Dev) (e : FabErr) : Dev := ((d.count R.FAB_ERR_CNT_COUNT).raise e.flag).note .fabErr

/-- What the log holds of the first error. -/
def fabEntry (e : FabErr) (write : Bool) (master id addr : Nat) : List (Field × Nat) :=
  [(R.FAB_ERR_INFO_VALID, 1), (R.FAB_ERR_INFO_TYPE, e.code), (R.FAB_ERR_INFO_WRITE, b2n write), (R.FAB_ERR_INFO_MASTER, master),
    (R.FAB_ERR_INFO_ID, id), (R.FAB_ERR_ADDR_LO_ADDR_LO, addr % 2 ^ 32), (R.FAB_ERR_ADDR_HI_ADDR_HI, addr / 2 ^ 32)]

theorem fabLog_eq : d.fabLog e write master id addr = if (fabCounted d e).flag R.FAB_ERR_INFO_VALID then
    (fabCounted d e).setFld R.FAB_ERR_INFO_OVERFLOW 1 else (fabCounted d e).setFlds (fabEntry e write master id addr) := rfl

theorem fld_fabCounted_ne {f : Field} (other : f.addr ≠ R.FAB_ERR_CNT_COUNT.addr) : (fabCounted d e).fld f = d.fld f := by
  rw [fabCounted, fld_note, fld_raise, fld_count_of_addr d _ other]

theorem flag_fabCounted : (fabCounted d e).flag R.FAB_ERR_INFO_VALID = d.flag R.FAB_ERR_INFO_VALID :=
  congrArg (· == 1) (fld_fabCounted_ne d e (by decide))

theorem fabEntry_addr {w : Field × Nat} (h : w ∈ fabEntry e write master id addr) : 0x20150 ≤ w.1.addr ∧ w.1.addr < 0x2015C := by
  revert w
  simp [fabEntry, R.FAB_ERR_INFO_VALID, R.FAB_ERR_INFO_TYPE, R.FAB_ERR_INFO_WRITE, R.FAB_ERR_INFO_MASTER, R.FAB_ERR_INFO_ID,
    R.FAB_ERR_ADDR_LO_ADDR_LO, R.FAB_ERR_ADDR_HI_ADDR_HI]

theorem fld_fabLog_of_addr {f : Field} (out : f.addr < 0x20150 ∨ 0x2015C ≤ f.addr) :
    (d.fabLog e write master id addr).fld f = (fabCounted d e).fld f := by
  rw [fabLog_eq]
  split
  · exact fld_setFld_of_addr _ _ (by simp only [R.FAB_ERR_INFO_OVERFLOW]; omega)
  · refine fld_setFlds_of_addr _ _ fun w hw => ?_
    have := fabEntry_addr e write master id addr hw
    omega

theorem fabLog_counts : (d.fabLog e write master id addr).fld R.FAB_ERR_CNT_COUNT =
    min (d.fld R.FAB_ERR_CNT_COUNT + 1) (2 ^ R.FAB_ERR_CNT_COUNT.w - 1) := by
  rw [fld_fabLog_of_addr _ _ _ _ _ _ (.inr (by decide)), fabCounted, fld_note, fld_raise]
  exact fld_addFld_self d _ 1 (by decide)

/-- What a free log then shows. -/
theorem fabLog_entry (free : d.flag R.FAB_ERR_INFO_VALID = false) {w : Field × Nat} (h : w ∈ fabEntry e write master id addr) :
    (d.fabLog e write master id addr).fld w.1 = w.2 % 2 ^ w.1.w := by
  rw [fabLog_eq, flag_fabCounted, if_neg (by simp [free])]
  refine fld_setFlds_of_pairwise ?_ _ ?_ h
  all_goals simp [fabEntry, apart, R.FAB_ERR_INFO_VALID, R.FAB_ERR_INFO_TYPE, R.FAB_ERR_INFO_WRITE, R.FAB_ERR_INFO_MASTER, R.FAB_ERR_INFO_ID,
    R.FAB_ERR_ADDR_LO_ADDR_LO, R.FAB_ERR_ADDR_HI_ADDR_HI]

theorem fabLog_valid : (d.fabLog e write master id addr).flag R.FAB_ERR_INFO_VALID = true := by
  cases held : d.flag R.FAB_ERR_INFO_VALID
  · exact flag_of_fld (fabLog_entry d e write master id addr held (w := (R.FAB_ERR_INFO_VALID, 1)) (by simp [fabEntry]))
  · rw [fabLog_eq, flag_fabCounted, if_pos held]
    refine Eq.trans (congrArg (· == 1) (fld_setFld_ne _ R.FAB_ERR_INFO_OVERFLOW R.FAB_ERR_INFO_VALID 1 (by decide) (.inr (.inr (Nat.le_refl 31))))) ?_
    exact (flag_fabCounted d e).trans held

end Log

/-! ## A burst (R479, R484, R487) -/

section Burst
variable (d : Dev) (m : Master) (write : Bool) {a n : Nat}

theorem reg_wakeRange {x : Nat} (low : x < 0x30000) : (d.wakeRange a n).reg x = d.reg x :=
  foldl_keeps (fun e : Dev => e.reg x) (fun e _ => reg_setFld_ne e _ _ (by simp only [R.DMC_CH_STAT_PD]; omega)) _ d

@[simp] theorem unregistered_wakeRange : unregistered (d.wakeRange a n) = unregistered d := foldl_keeps unregistered (fun _ _ => unregistered_setFld ..) _ d

/-- The access is refused beyond the fitted total, with the delays unchecked, or outside the regions. -/
def dramRefuses (d : Dev) (a n : Nat) : Prop :=
  d.dramTotal < a + n ∨ d.flag R.DMC_CHECK_CHECKED = false ∨ d.inRegions a n = false

theorem dramBurst_granted (some : n ≠ 0) (low : a + n ≤ d.dramTotal) (checked : d.flag R.DMC_CHECK_CHECKED = true) (inside : d.inRegions a n = true) :
    d.dramBurst m write a n = (true, d.wakeRange a n) :=
  (if_neg some).trans (if_pos (by simp [low, checked, inside]))

/-- An access outside the regions, as DMC counts it. -/
def outsideCounted (d : Dev) (a n : Nat) : Dev := if d.inRegions a n then d else ((d.count R.DMC_OUTSIDE_COUNT).raise F.dmcOutside).note .dmcOutside

theorem dramBurst_refused (some : n ≠ 0) (refuses : dramRefuses d a n) : ∃ id, d.dramBurst m write a n =
    (false, ((outsideCounted d a n).fabLog .slverr write m.index id a).drew 1) := by
  have bad : (decide (a + n ≤ d.dramTotal) && d.flag R.DMC_CHECK_CHECKED && d.inRegions a n) = false := by
    rcases refuses with beyond | unchecked | outside
    · simp [beyond]
    · simp [unchecked]
    · simp [outside]
  exact ⟨_, (if_neg some).trans (if_neg (by simp [bad]))⟩

theorem fld_outsideCounted_ne {f : Field} (other : f.addr ≠ R.DMC_OUTSIDE_COUNT.addr) : (outsideCounted d a n).fld f = d.fld f := by
  unfold outsideCounted
  split
  · rfl
  · rw [fld_note, fld_raise, fld_count_of_addr d _ other]

theorem outsideCounted_counts (outside : d.inRegions a n = false) :
    (outsideCounted d a n).fld R.DMC_OUTSIDE_COUNT = min (d.fld R.DMC_OUTSIDE_COUNT + 1) (2 ^ R.DMC_OUTSIDE_COUNT.w - 1) := by
  rw [outsideCounted, if_neg (by simp [outside]), fld_note, fld_raise]
  exact fld_addFld_self d _ 1 (by decide)

theorem index_lt (m : Master) : m.index < 16 := by
  cases m with
  | quad q => simp only [Master.index]; omega
  | _ => decide

end Burst

section Outcome
variable {d : Dev} {m : Master} {a : Nat} {l : List Nat} (some : l ≠ []) (page : a / 4096 = (a + l.length - 1) / 4096)
include some page

theorem dramWrite_granted (low : a + l.length ≤ d.dramTotal) (checked : d.flag R.DMC_CHECK_CHECKED = true)
    (inside : d.inRegions a l.length = true) : d.dramWrite m a l =
      (true, { d.wakeRange a l.length with dram := memWrite d.dram a l }) := by
  rw [dramWrite_page d m some page, dramBurst_granted d m true (List.length_pos_iff.2 some).ne' low checked inside]
  dsimp only
  rw [if_pos rfl, wakeRange_dram]

theorem dramWrite_refused (refuses : dramRefuses d a l.length) : ∃ id, d.dramWrite m a l =
    (false, ((outsideCounted d a l.length).fabLog .slverr true m.index id a).drew 1) := by
  obtain ⟨id, burst⟩ := dramBurst_refused d m true (List.length_pos_iff.2 some).ne' refuses
  refine ⟨id, ?_⟩
  rw [dramWrite_page d m some page, burst]
  rfl

end Outcome

/-! ## The map (R483) -/

section Map
variable {d : Dev} {a b : Nat}

/-- Byte of its channel that an address names. -/
def channelByte (k a : Nat) : Nat := a / 2 ^ (k + 2) * 2 ^ k + a % 2 ^ k

theorem address_of_channelByte {k : Nat} (byte : channelByte k a = channelByte k b) (channel : bits a k 2 = bits b k 2) : a = b := by
  have pos : 0 < 2 ^ k := by positivity
  have high : a / 2 ^ (k + 2) = b / 2 ^ (k + 2) := by
    have := congrArg (· / 2 ^ k) byte
    simpa only [channelByte, Nat.mul_add_div pos, Nat.mul_comm _ (2 ^ k), Nat.div_eq_of_lt (Nat.mod_lt _ pos), Nat.add_zero] using this
  have low : a % 2 ^ k = b % 2 ^ k := by
    have := congrArg (· % 2 ^ k) byte
    simpa only [channelByte, Nat.mul_add_mod, Nat.mul_comm _ (2 ^ k), Nat.mod_mod] using this
  rw [split_field a k 2, split_field b k 2, high, low, channel]

theorem channelByte_lt {k n : Nat} (h : a < 4 * n * 2 ^ k) : channelByte k a < n * 2 ^ k := by
  have pos : 0 < 2 ^ k := by positivity
  have high : a / 2 ^ (k + 2) < n := by
    rw [Nat.div_lt_iff_lt_mul (by positivity), pow_add]
    calc a < 4 * n * 2 ^ k := h
      _ = n * (2 ^ k * 2 ^ 2) := by ring
  calc channelByte k a < a / 2 ^ (k + 2) * 2 ^ k + 2 ^ k := Nat.add_lt_add_left (Nat.mod_lt _ pos) _
    _ = (a / 2 ^ (k + 2) + 1) * 2 ^ k := by ring
    _ ≤ n * 2 ^ k := Nat.mul_le_mul_right _ high

/-- DENSITY gives three sizes. -/
theorem rank_bits (d : Dev) : 29 + min 2 (d.fld R.DMC_CFG_DENSITY) = 29 ∨ 29 + min 2 (d.fld R.DMC_CFG_DENSITY) = 30 ∨
    29 + min 2 (d.fld R.DMC_CFG_DENSITY) = 31 := by omega

/-- Column, bank, row and rank give the byte of the channel back. -/
theorem channelByte_of_place {r x y : Nat} (size : r = 29 ∨ r = 30 ∨ r = 31) (rank : x / 2 ^ r = y / 2 ^ r)
    (bank : bits x 11 4 ^^^ bits x 15 4 = bits y 11 4 ^^^ bits y 15 4) (row : bits x 15 (r - 15) = bits y 15 (r - 15))
    (col : bits x 0 11 = bits y 0 11) : x = y := by
  have high : x / 2 ^ 15 = y / 2 ^ 15 := by
    rcases size with rfl | rfl | rfl <;> simp only [bits] at row <;> omega
  have low : bits x 15 4 = bits y 15 4 := by simp only [bits, high]
  have mid : bits x 11 4 = bits y 11 4 := by
    rw [low] at bank
    exact Nat.xor_left_inj.1 bank
  simp only [bits] at mid col
  omega

theorem channelByte_rank {k : Nat} (lgrain : k ≤ 16) (ha : a < d.dramTotal) :
    channelByte k a / 2 ^ (29 + min 2 (d.fld R.DMC_CFG_DENSITY)) < d.ranks := by
  have split : 2 ^ (29 + min 2 (d.fld R.DMC_CFG_DENSITY)) = 2 ^ (29 + min 2 (d.fld R.DMC_CFG_DENSITY) - k) * 2 ^ k := by
    rw [← pow_add]
    congr 1
    omega
  rw [Nat.div_lt_iff_lt_mul (by positivity), split, ← Nat.mul_assoc]
  refine channelByte_lt ?_
  rwa [← Nat.mul_assoc, Nat.mul_assoc _ (2 ^ _) (2 ^ k), ← split]

theorem ranks_cases (d : Dev) : d.ranks = 1 ∨ d.ranks = 2 := by
  unfold Dev.ranks
  split <;> simp

/-- The map is injective below the fitted total. -/
theorem dramPlace_injective (lgrain : d.fld R.DMC_CFG_GRAIN ≤ 16) (ha : a < d.dramTotal) (hb : b < d.dramTotal)
    (same : d.dramPlace a = d.dramPlace b) : a = b := by
  injection same with channel rank bank row col
  refine address_of_channelByte (channelByte_of_place (rank_bits d) ?_ bank row col) channel
  have near := channelByte_rank lgrain ha
  have near' := channelByte_rank lgrain hb
  rcases ranks_cases d with one | two
  · rw [one, Nat.lt_one_iff] at near near'
    rw [near, near']
  · rw [two] at near near'
    rw [if_pos two, if_pos two] at rank
    calc channelByte _ a / 2 ^ _ = bits (channelByte _ a) _ 1 := (Nat.mod_eq_of_lt near).symm
      _ = bits (channelByte _ b) _ 1 := rank
      _ = channelByte _ b / 2 ^ _ := Nat.mod_eq_of_lt near'

end Map

/-- Settles O37: bursts, grants and refusals, and the map's injectivity. -/
theorem dramAccessesFollowR479AndR484 : Obligations.DramAccessesFollowR479AndR484 := by
  unfold Obligations.DramAccessesFollowR479AndR484
  refine ⟨fun a n => ⟨fun r => burstsOf_bounds, fun x => burstsOf_covers, burstsOf_apart⟩, dramWrite_bursts, fun d m a l some page => ⟨?_, ?_⟩,
    fun d a b _ => dramPlace_injective⟩
  · intro low checked inside
    rw [dramWrite_granted some page low checked inside]
    have frame : unregistered (d.wakeRange a l.length) = unregistered d := unregistered_wakeRange ..
    refine ⟨rfl, rfl, ?_, (congrArg Dev.hdr frame :), (congrArg Dev.hostMem frame :)⟩
    exact congrArg (fun w : Word => bits w.toNat _ _) (reg_wakeRange d (by decide))
  · intro refuses
    obtain ⟨id, written⟩ := dramWrite_refused (m := m) some page refuses
    rw [written]
    have entry (free : d.flag R.FAB_ERR_INFO_VALID = false) {w : Field × Nat} := fabLog_entry (outsideCounted d a l.length) .slverr true m.index id a
      (w := w) ((congrArg (· == 1) (fld_outsideCounted_ne d (by decide))).trans free)
    refine ⟨rfl, ?_, ?_, fabLog_valid .., fun free => ⟨?_, ?_, ?_⟩, fun outside => ?_⟩
    · exact (fabLog_dram ..).trans (by unfold outsideCounted; split <;> simp)
    · exact (fabLog_counts ..).trans (by rw [fld_outsideCounted_ne d (by decide)])
    · exact entry free (w := (R.FAB_ERR_INFO_TYPE, 1)) (by simp [fabEntry, FabErr.code])
    · exact (entry free (w := (R.FAB_ERR_INFO_MASTER, m.index)) (by simp [fabEntry])).trans (Nat.mod_eq_of_lt (index_lt m))
    · exact (entry free (w := (R.FAB_ERR_ADDR_LO_ADDR_LO, a % 2 ^ 32)) (by simp [fabEntry])).trans (Nat.mod_mod ..)
    · exact (fld_fabLog_of_addr _ _ _ _ _ _ (.inr (by decide))).trans ((fld_fabCounted_ne _ _ (by decide)).trans (outsideCounted_counts d outside))

end Sys2Proof.Proofs
end

section
/-! The DRAM controller's configuration, delay check, refreshes and power-down (16 R482 to R492). Settles O38. -/
namespace Sys2Proof.Proofs
open Sys2Proof.Machine Sys2Proof.Laws

section Calls
variable (s : State)

theorem exec_dmcCfgWrite (v : Word) : exec (.dmcCfgWrite v) s = s.act (fun d => d.ifOpen dmcBase (·.dmcCfgWrite v)) := rfl
theorem exec_dlyWrite (lane : Fin 8) (i : Fin 4) (v : Word) : exec (.dlyWrite lane i v) s =
    s.act (fun d => d.ifOpen dmcBase (·.dlyWrite lane.val i.val v)) := rfl
theorem exec_dmcCheckGo (v : Word) : exec (.dmcCheckGo v) s = s.act (fun d => d.ifOpen dmcBase (·.dmcCheckWrite (v ||| 0x80000000#32))) := rfl
theorem exec_dmcRecheckWrite (v : Word) : exec (.dmcRecheckWrite v) s = s.act (fun d => d.ifOpen dmcBase (·.dmcCheckWrite v)) := rfl
theorem exec_checkDone (lanes : BitVec 8) : exec (.checkDone lanes) s = s.act (·.checkDone lanes.toNat) := rfl
theorem exec_dramRecheck (bad : Bool) : exec (.dramRecheck bad) s = s.act (·.dramRecheck bad) := rfl
theorem exec_mr4Poll (l : List Mr4) : exec (.mr4Poll l) s = s.act (·.mr4Poll l) := rfl
theorem exec_refreshExpiry (c : Fin 4) (qos : List Queued) : exec (.refreshExpiry c qos) s = s.act (·.refreshExpiry c.val qos) := rfl
theorem exec_owedRefreshFlush (c : Fin 4) (qos : List Queued) : exec (.owedRefreshFlush c qos) s = s.act (·.owedFlush c.val qos) := rfl
theorem exec_rankPowerDown (c : Fin 4) (r : Fin 2) : exec (.rankPowerDown c r) s = s.act (·.rankPowerDown c.val r.val) := rfl

end Calls

theorem flag_false_of_fld {d : Dev} {f : Field} (h : d.fld f = 0) : d.flag f = false := flag_of_fld h

/-! ## DMC_CFG and the delays (R482, R486, R487) -/

section Config
variable (d : Dev) (v : Word)

/-- What a write of DMC_CFG in SETUP stores. -/
def cfgStored (v : Word) : List (Field × Nat) :=
  [(R.DMC_CFG_GRAIN, clampN 7 16 (bits v.toNat 20 5)), (R.DMC_CFG_DENSITY, bits v.toNat 16 2), (R.DMC_CFG_RANKS2, bits v.toNat 8 1),
    (R.DMC_CHECK_CHECKED, 0)]

theorem fld_cfgStored {w : Field × Nat} (h : w ∈ cfgStored v) : (d.setFlds (cfgStored v)).fld w.1 = w.2 % 2 ^ w.1.w := by
  refine fld_setFlds_of_pairwise ?_ d ?_ h
  all_goals simp [cfgStored, apart, R.DMC_CFG_GRAIN, R.DMC_CFG_DENSITY, R.DMC_CFG_RANKS2, R.DMC_CHECK_CHECKED]

theorem dmcCfgWrite_stores : let e := d.setFlds (cfgStored v)
    e.fld R.DMC_CFG_GRAIN = clampN 7 16 (bits v.toNat 20 5) ∧ e.fld R.DMC_CFG_DENSITY = bits v.toNat 16 2 ∧
      e.fld R.DMC_CFG_RANKS2 = bits v.toNat 8 1 ∧ e.flag R.DMC_CHECK_CHECKED = false := by
  have grain : clampN 7 16 (bits v.toNat 20 5) < 32 := by unfold clampN; split_ifs <;> omega
  refine ⟨?_, ?_, ?_, flag_false_of_fld (fld_cfgStored d v (w := (R.DMC_CHECK_CHECKED, 0)) (by simp [cfgStored]))⟩
  · exact (fld_cfgStored d v (w := (R.DMC_CFG_GRAIN, clampN 7 16 (bits v.toNat 20 5))) List.mem_cons_self).trans (Nat.mod_eq_of_lt grain)
  · exact (fld_cfgStored d v (w := (R.DMC_CFG_DENSITY, bits v.toNat 16 2)) (by simp [cfgStored])).trans (Nat.mod_eq_of_lt (bits_lt ..))
  · exact (fld_cfgStored d v (w := (R.DMC_CFG_RANKS2, bits v.toNat 8 1)) (by simp [cfgStored])).trans (Nat.mod_eq_of_lt (bits_lt ..))

theorem dmcCfgWrite_setup {d : Dev} (setup : d.top.st = .setup) (v : Word) : d.dmcCfgWrite v = d.setFlds (cfgStored v) := if_pos setup

theorem dlyWrite_unchecks (l i : Nat) : (d.dlyWrite l i v).flag R.DMC_CHECK_CHECKED = false ∧ unregistered (d.dlyWrite l i v) = unregistered d := by
  refine ⟨flag_false_of_fld (fld_setFld_self _ R.DMC_CHECK_CHECKED 0 (by decide)), (unregistered_setFld ..).trans ?_⟩
  split <;> exact unregistered_setFld ..

/-- The register that the write names takes the word. -/
theorem dlyWrite_stores (l : Nat) : (d.dlyWrite l 0 v).fld (R.DLY_WL_WL l) = v.toNat % 2 ^ (R.DLY_WL_WL l).w ∧
    (d.dlyWrite l 1 v).fld (R.DLY_RG_RG l) = v.toNat % 2 ^ (R.DLY_RG_RG l).w ∧
    (d.dlyWrite l 2 v).fld (R.DLY_WDSK_WDSK l) = v.toNat % 2 ^ (R.DLY_WDSK_WDSK l).w ∧
    (d.dlyWrite l 3 v).fld (R.DLY_RDSK_RDSK l) = v.toNat % 2 ^ (R.DLY_RDSK_RDSK l).w := by
  have stored {f : Field} (out : R.DMC_CHECK_CHECKED.addr < f.addr) (fits : f.lo + f.w ≤ 32) :
      ((d.setFld f v.toNat).setFld R.DMC_CHECK_CHECKED 0).fld f = v.toNat % 2 ^ f.w :=
    (fld_setFld_of_addr _ _ out.ne').trans (fld_setFld_self d f _ fits)
  refine ⟨stored ?_ ?_, stored ?_ ?_, stored ?_ ?_, stored ?_ ?_⟩
  all_goals simp only [R.DMC_CHECK_CHECKED, R.DLY_WL_WL, R.DLY_RG_RG, R.DLY_WDSK_WDSK, R.DLY_RDSK_RDSK]; omega

end Config

/-! ## The check and rechecks (R487, R488) -/

section Check
variable (d : Dev)

@[simp] theorem unregistered_wakeAll : unregistered d.wakeAll = unregistered d :=
  foldl_keeps unregistered (fun e _ => foldl_keeps unregistered (fun _ _ => unregistered_setFld ..) _ e) _ d

/-- Waking ranks writes the channels' status alone. -/
theorem reg_wakeAll {a : Nat} (out : a < 0x30110 ∨ 0x30120 ≤ a) : d.wakeAll.reg a = d.reg a := by
  unfold Dev.wakeAll
  refine List.foldlRecOn (motive := fun e : Dev => e.reg a = d.reg a) _ _ rfl fun e same c hc => Eq.trans ?_ same
  have channel : c < 4 := List.mem_range.1 hc
  exact foldl_keeps (fun e : Dev => e.reg a) (fun e r => reg_setFld_ne e _ _ (by simp only [R.DMC_CH_STAT_PD]; omega)) _ e

theorem fld_wakeAll {f : Field} (out : f.addr < 0x30110 ∨ 0x30120 ≤ f.addr) : d.wakeAll.fld f = d.fld f := by
  rw [Dev.fld, reg_wakeAll d out, Dev.fld]

/-- The check's places depend on the organisation alone. -/
theorem checkPlaces_of_cfg {d e : Dev} (same : e.reg 0x30100 = d.reg 0x30100) : e.checkPlaces = d.checkPlaces := by
  have field (lo w : Nat) : e.fld ⟨0x30100, lo, w⟩ = d.fld ⟨0x30100, lo, w⟩ := by rw [Dev.fld, same, Dev.fld]
  have ranks : e.ranks = d.ranks := by rw [Dev.ranks, Dev.flag, R.DMC_CFG_RANKS2, field]; rfl
  have size : e.rankSize = d.rankSize := by rw [Dev.rankSize, R.DMC_CFG_DENSITY, field]; rfl
  have addr (c ca : Nat) : e.dramAddr c ca = d.dramAddr c ca := by rw [Dev.dramAddr, R.DMC_CFG_GRAIN, field]; rfl
  simp only [Dev.checkPlaces, ranks, size, addr]

theorem checkWordsStand_wakeAll : d.wakeAll.checkWordsStand = d.checkWordsStand := by
  rw [Dev.checkWordsStand, checkPlaces_of_cfg (reg_wakeAll d (.inl (by decide))), Dev.checkWordsStand]
  have dram : d.wakeAll.dram = d.dram := (congrArg Dev.dram (unregistered_wakeAll d) :)
  rw [dram]

/-- MARGIN and RECHECK as a write of DMC_CHECK has them. -/
def marginStored (v : Word) : List (Field × Nat) := [(R.DMC_CHECK_MARGIN, bits v.toNat 8 8), (R.DMC_CHECK_RECHECK, bits v.toNat 0 8)]

theorem fld_marginStored (v : Word) : (d.setFlds (marginStored v)).fld R.DMC_CHECK_MARGIN = bits v.toNat 8 8 ∧
    (d.setFlds (marginStored v)).fld R.DMC_CHECK_RECHECK = bits v.toNat 0 8 := by
  have stored {w : Field × Nat} (h : w ∈ marginStored v) : (d.setFlds (marginStored v)).fld w.1 = w.2 % 2 ^ w.1.w := by
    refine fld_setFlds_of_pairwise ?_ d ?_ h
    all_goals simp [marginStored, apart, R.DMC_CHECK_MARGIN, R.DMC_CHECK_RECHECK]
  constructor
  · exact (stored (w := (R.DMC_CHECK_MARGIN, bits v.toNat 8 8)) (by simp [marginStored])).trans (Nat.mod_eq_of_lt (bits_lt ..))
  · exact (stored (w := (R.DMC_CHECK_RECHECK, bits v.toNat 0 8)) (by simp [marginStored])).trans (Nat.mod_eq_of_lt (bits_lt ..))

/-- A check that begins. -/
def checkBegun (d : Dev) (v : Word) : Dev :=
  let d := d.setFlds (marginStored v)
  { d.wakeAll with dram := d.checkPlaces.foldl (fun m (p : Nat × Nat) => memWrite m p.1 (leBytes 4 p.2)) d.dram }.setFld R.DMC_CHECK_BUSY 1

theorem dmcCheckWrite_begins {v : Word} (go : bitAt v.toNat 31 = true) (setup : d.top.st = .setup) (idle : d.flag R.DMC_CHECK_BUSY = false)
    (works : d.works dmcBase = true) : d.dmcCheckWrite v = checkBegun d v := if_pos (by simp [go, setup, idle, works])

theorem dmcCheckWrite_stores {v : Word} (stay : bitAt v.toNat 31 = false) : d.dmcCheckWrite v = d.setFlds (marginStored v) :=
  if_neg (by simp [stay])

theorem checkPlaces_margin (v : Word) : (d.setFlds (marginStored v)).checkPlaces = d.checkPlaces :=
  checkPlaces_of_cfg (reg_setFlds_ne d _ (by simp [marginStored, R.DMC_CHECK_MARGIN, R.DMC_CHECK_RECHECK]))

theorem checkBegun_dram (v : Word) :
    (checkBegun d v).dram = d.checkPlaces.foldl (fun m p => memWrite m p.1 (leBytes 4 p.2)) d.dram := by
  rw [checkBegun, setFld_dram]
  dsimp only
  rw [checkPlaces_margin, setFlds_dram]

theorem checkBegun_shows (v : Word) : (checkBegun d v).flag R.DMC_CHECK_BUSY = true ∧ (checkBegun d v).fld R.DMC_CHECK_MARGIN = bits v.toNat 8 8 ∧
    (checkBegun d v).fld R.DMC_CHECK_RECHECK = bits v.toNat 0 8 ∧
    (checkBegun d v).dram = d.checkPlaces.foldl (fun m p => memWrite m p.1 (leBytes 4 p.2)) d.dram ∧ (checkBegun d v).hdr = d.hdr := by
  obtain ⟨margin, recheck⟩ := fld_marginStored d v
  have kept {f : Field} (reg : f.addr = 0x30180) (apart : apart R.DMC_CHECK_BUSY f) : (checkBegun d v).fld f = (d.setFlds (marginStored v)).fld f := by
    refine (fld_setFld_ne _ _ _ _ (by decide) apart).trans ?_
    exact (fld_of_regs rfl rfl f).trans (fld_wakeAll _ (.inr (by rw [reg]; decide)))
  refine ⟨flag_of_fld (fld_setFld_self _ R.DMC_CHECK_BUSY 1 (by decide)), (kept rfl (.inr (.inl (by decide)))).trans margin,
    (kept rfl (.inr (.inl (by decide)))).trans recheck, ?_, ?_⟩
  · exact checkBegun_dram d v
  · rw [checkBegun, setFld_hdr]
    exact (congrArg Dev.hdr (unregistered_wakeAll (d.setFlds (marginStored v))) :).trans (setFlds_hdr ..)

end Check
section Ends
variable {d : Dev}

/-- The end of a check, and the lanes that failed. -/
def checkEnded (d : Dev) (lanes : Nat) : Dev := (d.setFlds [(R.DMC_CHECK_BUSY, 0), (R.DMC_CHECK_FAIL_LANE, lanes)]).raise F.checkDone

/-- A check that no lane fails. -/
def checkPassed (d : Dev) : Dev := { d.setFlds [(R.DMC_CHECK_CHECKED, 1), (R.DMC_CHECK_FAIL, 0)] with dmc := { d.dmc with fault := false, causeNew := false } }

/-- A check that lanes fail. -/
def checkFailed (d : Dev) : Dev := (d.setFld R.DMC_CHECK_FAIL 1).raise F.checkFail

theorem checkDone_ends (busy : d.flag R.DMC_CHECK_BUSY = true) (lanes : Nat) : d.checkDone lanes =
    if lanes % 256 = 0 then checkPassed (checkEnded d (lanes % 256)) else checkFailed (checkEnded d (lanes % 256)) := by
  rw [Dev.checkDone, if_pos busy]
  rfl

theorem fld_checkEnded (lanes : Nat) : (checkEnded d lanes).fld R.DMC_CHECK_BUSY = 0 ∧
    (checkEnded d lanes).fld R.DMC_CHECK_FAIL_LANE = lanes % 256 ∧ (checkEnded d lanes).fld R.DMC_CHECK_CHECKED = d.fld R.DMC_CHECK_CHECKED := by
  have fit : ∀ w ∈ [(R.DMC_CHECK_BUSY, 0), (R.DMC_CHECK_FAIL_LANE, lanes)], w.1.lo + w.1.w ≤ 32 := by
    simp [R.DMC_CHECK_BUSY, R.DMC_CHECK_FAIL_LANE]
  have stored {w : Field × Nat} (h : w ∈ [(R.DMC_CHECK_BUSY, 0), (R.DMC_CHECK_FAIL_LANE, lanes)]) :=
    fld_setFlds_of_pairwise fit d (by simp [apart, R.DMC_CHECK_BUSY, R.DMC_CHECK_FAIL_LANE]) h
  refine ⟨(fld_raise ..).trans (stored (w := (R.DMC_CHECK_BUSY, 0)) (by simp)),
    (fld_raise ..).trans (stored (w := (R.DMC_CHECK_FAIL_LANE, lanes)) (by simp)), (fld_raise ..).trans (fld_setFlds_of_apart fit d ?_)⟩
  simp [apart, R.DMC_CHECK_BUSY, R.DMC_CHECK_FAIL_LANE, R.DMC_CHECK_CHECKED]

/-- CHECKED and FAIL of a check that passes; the rest stands. -/
theorem fld_checkPassed (d : Dev) : (checkPassed d).fld R.DMC_CHECK_CHECKED = 1 ∧ (checkPassed d).fld R.DMC_CHECK_FAIL = 0 ∧
    (checkPassed d).fld R.DMC_CHECK_BUSY = d.fld R.DMC_CHECK_BUSY ∧ (checkPassed d).fld R.DMC_CHECK_FAIL_LANE = d.fld R.DMC_CHECK_FAIL_LANE := by
  have fit : ∀ w ∈ [(R.DMC_CHECK_CHECKED, 1), (R.DMC_CHECK_FAIL, 0)], w.1.lo + w.1.w ≤ 32 := by
    simp [R.DMC_CHECK_CHECKED, R.DMC_CHECK_FAIL]
  have same (f : Field) : (checkPassed d).fld f = (d.setFlds [(R.DMC_CHECK_CHECKED, 1), (R.DMC_CHECK_FAIL, 0)]).fld f :=
    fld_of_regs (by rw [checkPassed]) (by rw [checkPassed]) f
  have stored {w : Field × Nat} (h : w ∈ [(R.DMC_CHECK_CHECKED, 1), (R.DMC_CHECK_FAIL, 0)]) :=
    fld_setFlds_of_pairwise fit d (by simp [apart, R.DMC_CHECK_CHECKED, R.DMC_CHECK_FAIL]) h
  refine ⟨(same _).trans (stored (w := (R.DMC_CHECK_CHECKED, 1)) (by simp)), (same _).trans (stored (w := (R.DMC_CHECK_FAIL, 0)) (by simp)),
    (same _).trans (fld_setFlds_of_apart fit d ?_), (same _).trans (fld_setFlds_of_apart fit d ?_)⟩
  all_goals simp [apart, R.DMC_CHECK_BUSY, R.DMC_CHECK_FAIL_LANE, R.DMC_CHECK_CHECKED, R.DMC_CHECK_FAIL]

theorem fld_checkFailed (d : Dev) : (checkFailed d).fld R.DMC_CHECK_FAIL = 1 ∧ (checkFailed d).fld R.DMC_CHECK_CHECKED = d.fld R.DMC_CHECK_CHECKED ∧
    (checkFailed d).fld R.DMC_CHECK_BUSY = d.fld R.DMC_CHECK_BUSY ∧ (checkFailed d).fld R.DMC_CHECK_FAIL_LANE = d.fld R.DMC_CHECK_FAIL_LANE := by
  have kept {f : Field} (apart : apart R.DMC_CHECK_FAIL f) : (checkFailed d).fld f = d.fld f :=
    (fld_raise ..).trans (fld_setFld_ne d _ _ 1 (by decide) apart)
  refine ⟨(fld_raise ..).trans (fld_setFld_self d R.DMC_CHECK_FAIL 1 (by decide)), kept ?_, kept ?_, kept ?_⟩
  all_goals simp [apart, R.DMC_CHECK_BUSY, R.DMC_CHECK_FAIL_LANE, R.DMC_CHECK_CHECKED, R.DMC_CHECK_FAIL]

theorem checkEnded_dram (lanes : Nat) : (checkEnded d lanes).dram = d.dram := (raise_dram ..).trans (setFlds_dram ..)

theorem checkPassed_dram (d : Dev) : (checkPassed d).dram = d.dram := by
  rw [checkPassed, setFlds_dram]

/-- A check that ends as its lanes came out. -/
theorem checkDone_shows (busy : d.flag R.DMC_CHECK_BUSY = true) (lanes : BitVec 8) : let e := d.checkDone lanes.toNat
    e.flag R.DMC_CHECK_BUSY = false ∧ e.fld R.DMC_CHECK_FAIL_LANE = lanes.toNat ∧
      (lanes = 0#8 → e.flag R.DMC_CHECK_CHECKED = true ∧ e.flag R.DMC_CHECK_FAIL = false ∧ e.dmc.fault = false) ∧
      (lanes ≠ 0#8 → e.flag R.DMC_CHECK_FAIL = true ∧ e.fld R.DMC_CHECK_CHECKED = d.fld R.DMC_CHECK_CHECKED) ∧ e.dram = d.dram := by
  have fits : lanes.toNat % 256 = lanes.toNat := Nat.mod_eq_of_lt lanes.isLt
  have none : lanes.toNat = 0 ↔ lanes = 0#8 := by rw [← BitVec.toNat_inj]; rfl
  obtain ⟨idle, shown, checked⟩ := fld_checkEnded (d := d) lanes.toNat
  rw [fits] at shown
  rw [checkDone_ends busy, fits]
  by_cases pass : lanes = 0#8
  · obtain ⟨one, zero, busy', lane'⟩ := fld_checkPassed (checkEnded d lanes.toNat)
    rw [if_pos (none.2 pass)]
    exact ⟨flag_false_of_fld (busy'.trans idle), lane'.trans shown, fun _ => ⟨flag_of_fld one, flag_false_of_fld zero, rfl⟩, fun some => absurd pass some,
      (checkPassed_dram _).trans (checkEnded_dram _)⟩
  · obtain ⟨one, checked', busy', lane'⟩ := fld_checkFailed (checkEnded d lanes.toNat)
    rw [if_neg (mt none.1 pass)]
    exact ⟨flag_false_of_fld (busy'.trans idle), lane'.trans shown, fun none => absurd none pass, fun _ => ⟨flag_of_fld one, checked'.trans checked⟩,
      (raise_dram ..).trans ((setFld_dram ..).trans (checkEnded_dram _))⟩

theorem dramRecheck_stands (run : d.top.st = .run) (asked : d.fld R.DMC_CHECK_RECHECK ≠ 0) (works : d.works dmcBase = true)
    (stands : d.checkWordsStand = true) : d.dramRecheck false = d.wakeAll := by
  rw [Dev.dramRecheck, if_pos ⟨run, asked, works⟩]
  exact if_neg (by simp [checkWordsStand_wakeAll, stands])

theorem safeCauses_dram {d : Dev} (new : d.dmc.causeNew = true) : 5 ∈ d.safeCauses := by simp [Dev.safeCauses, new]

/-- A recheck that finds a mismatch. -/
def recheckFailed (d : Dev) : Dev := let e := (d.setFld R.DMC_CHECK_CHECKED 0).raise F.checkFail
  { e with dmc := { e.dmc with fault := true, causeNew := true } }

theorem recheckFailed_shows (d : Dev) : (recheckFailed d).flag R.DMC_CHECK_CHECKED = false ∧ (recheckFailed d).dmc.fault = true ∧
    (recheckFailed d).dmc.causeNew = true ∧ 5 ∈ (recheckFailed d).safeCauses := by
  refine ⟨?_, rfl, rfl, safeCauses_dram rfl⟩
  have unchecked : (d.setFld R.DMC_CHECK_CHECKED 0).flag R.DMC_CHECK_CHECKED = false :=
    flag_false_of_fld (fld_setFld_self _ R.DMC_CHECK_CHECKED 0 (by decide))
  exact (flag_of_regs (d := (d.setFld R.DMC_CHECK_CHECKED 0).raise F.checkFail) rfl rfl _).trans ((flag_raise ..).trans unchecked)

theorem dramRecheck_fails (run : d.top.st = .run) (asked : d.fld R.DMC_CHECK_RECHECK ≠ 0) (works : d.works dmcBase = true) {bad : Bool}
    (fails : bad = true ∨ d.checkWordsStand = false) : d.dramRecheck bad = recheckFailed d.wakeAll := by
  have mismatch : (bad || !d.wakeAll.checkWordsStand) = true := by
    rw [checkWordsStand_wakeAll]
    rcases fails with h | h <;> simp [h]
  rw [Dev.dramRecheck, if_pos ⟨run, asked, works⟩]
  exact if_pos mismatch

end Ends

/-! ## Refreshes and power-down (R490, R492) -/

section Refresh
variable {d : Dev} {c : Nat} {qos : List Queued}

/-- One more refresh is owed. -/
def postponed (d : Dev) (c : Nat) : Dev := (d.setFld (R.DMC_CH_STAT_OWED c) (d.fld (R.DMC_CH_STAT_OWED c) + 1)).count R.DMC_POSTPONED_COUNT

theorem postponed_shows (few : d.fld (R.DMC_CH_STAT_OWED c) < 8) (channel : c < 4) :
    (postponed d c).fld (R.DMC_CH_STAT_OWED c) = d.fld (R.DMC_CH_STAT_OWED c) + 1 ∧
      (postponed d c).fld R.DMC_POSTPONED_COUNT = min (d.fld R.DMC_POSTPONED_COUNT + 1) (2 ^ R.DMC_POSTPONED_COUNT.w - 1) ∧
      unregistered (postponed d c) = unregistered d := by
  have other : (R.DMC_CH_STAT_OWED c).addr ≠ R.DMC_POSTPONED_COUNT.addr := by simp only [R.DMC_CH_STAT_OWED, R.DMC_POSTPONED_COUNT]; omega
  refine ⟨?_, ?_, (unregistered_count ..).trans (unregistered_setFld ..)⟩
  · rw [postponed, fld_count_of_addr _ _ other, fld_setFld_self d (R.DMC_CH_STAT_OWED c) _ (by simp [R.DMC_CH_STAT_OWED])]
    exact Nat.mod_eq_of_lt (by simp only [R.DMC_CH_STAT_OWED] at *; omega)
  · refine (fld_addFld_self _ R.DMC_POSTPONED_COUNT 1 (by decide)).trans ?_
    rw [fld_setFld_of_addr _ _ other.symm]

variable (awake : d.awake = true) (works : d.works dmcBase = true)
include awake works

theorem refreshExpiry_postpones (window : d.windowOpen qos = true) (may : d.flag R.DMC_REF_POSTPONE_EN = true) (cool : d.hotInterval c = false)
    (few : d.fld (R.DMC_CH_STAT_OWED c) < 8) : d.refreshExpiry c qos = postponed d c :=
  (if_pos (by simp [awake, works])).trans (if_pos (by simp [window, may, cool, few]))

theorem refreshExpiry_forces (window : d.windowOpen qos = true)
    (not : d.flag R.DMC_REF_POSTPONE_EN = false ∨ d.hotInterval c = true ∨ 8 ≤ d.fld (R.DMC_CH_STAT_OWED c)) :
    d.refreshExpiry c qos = ((d.count R.DMC_FORCED_COUNT).raise F.forcedRef).note .dmcForced := by
  have barred : (d.flag R.DMC_REF_POSTPONE_EN && !d.hotInterval c && d.windowOpen qos && decide (d.fld (R.DMC_CH_STAT_OWED c) < 8)) = false := by
    rcases not with h | h | h <;> simp [h]
  exact (if_pos (by simp [awake, works])).trans ((if_neg (by simp [barred])).trans (if_pos window))

theorem refreshExpiry_passes (shut : d.windowOpen qos = false) : d.refreshExpiry c qos = d :=
  (if_pos (by simp [awake, works])).trans ((if_neg (by simp [shut])).trans (if_neg (by simp [shut])))

theorem owedFlush_flushes (shut : d.windowOpen qos = false) : d.owedFlush c qos = d.setFld (R.DMC_CH_STAT_OWED c) 0 :=
  if_pos (by simp [awake, works, shut])

end Refresh

/-- A rank's bit of PD set, and the other as it was. -/
theorem rankPowerDown_shows {d : Dev} {c r : Nat} (awake : d.awake = true) (works : d.works dmcBase = true)
    (timer : d.fld R.DMC_PD_TIMER_PD_TIMER ≠ 0) (rank : r < d.ranks) (channel : c < 4)
    (idle : d.retains (d.dramTotal / d.ranks * r) (d.dramTotal / d.ranks * (r + 1)) = false) : let e := d.rankPowerDown c r
    bitAt (e.fld (R.DMC_CH_STAT_PD c)) r = true ∧
      (∀ q, q < 2 → q ≠ r → bitAt (e.fld (R.DMC_CH_STAT_PD c)) q = bitAt (d.fld (R.DMC_CH_STAT_PD c)) q) ∧ unregistered e = unregistered d := by
  have does : d.rankPowerDown c r = d.setFld (R.DMC_CH_STAT_PD c) (setBits (d.fld (R.DMC_CH_STAT_PD c)) r 1 1) :=
    if_pos (by simp [awake, works, timer, rank, channel, idle])
  have two : r < 2 := by rcases ranks_cases d with h | h <;> omega
  have pd : (d.setFld (R.DMC_CH_STAT_PD c) (setBits (d.fld (R.DMC_CH_STAT_PD c)) r 1 1)).fld (R.DMC_CH_STAT_PD c) =
      setBits (d.fld (R.DMC_CH_STAT_PD c)) r 1 1 :=
    (fld_setFld_self d (R.DMC_CH_STAT_PD c) _ (by simp [R.DMC_CH_STAT_PD])).trans
      (Nat.mod_eq_of_lt (setBits_lt _ _ _ _ 2 (fld_lt d (R.DMC_CH_STAT_PD c)) (by omega)))
  intro e
  rw [show e = _ from does, pd]
  exact ⟨bitAt_setBits_self .., fun q _ other => bitAt_setBits_ne _ _ other, unregistered_setFld ..⟩

theorem windowOpen_iff (d : Dev) (l : List Queued) : d.windowOpen l = true ↔ ∃ q ∈ l, d.fld R.DMC_RT_QOS_RT_QOS ≤ d.qosOf q := by
  simp [Dev.windowOpen]

/-! ## A poll of MR4 (R489, R491) -/

/-- Reports of a channel's ranks. -/
def reportsOf (d : Dev) (l : List Mr4) (c : Nat) : List Mr4 := (l.drop (d.ranks * c)).take d.ranks

/-- A channel's status as its ranks report. -/
def mr4Stored (rs : List Mr4) (c : Nat) : List (Field × Nat) :=
  [(R.DMC_CH_STAT_HOT c, b2n (rs.any (·.twice))), (R.DMC_CH_STAT_OVERTEMP c, b2n (rs.any (·.tooHot))),
    (R.DMC_CH_STAT_MR4_RATE c, (rs.map (·.code.toNat)).foldl max 0)]

/-- The channel's status, with the events of its changes. -/
def mr4Shown (d : Dev) (rs : List Mr4) (c : Nat) : Dev :=
  let d := d.raiseIf (d.flag (R.DMC_CH_STAT_HOT c) != rs.any (·.twice)) F.hotChg
  (d.raiseIf (rs.any (·.tooHot) && !d.flag (R.DMC_CH_STAT_OVERTEMP c)) F.dmcOvertemp).setFlds (mr4Stored rs c)

/-- A channel that becomes hot owes twice as many refreshes, which it issues at once. -/
def burstBegun (d : Dev) (c : Nat) : Dev :=
  let o := min 16 (2 * d.fld (R.DMC_CH_STAT_OWED c))
  let left := (o * d.fld R.DMC_REF_TRFC + 1) / 2
  ({ d with dmc := { d.dmc with burst := smSet (fun _ => 0) d.dmc.burst c left } }.setFld (R.DMC_CH_STAT_OWED c) o).count R.DMC_HOT_BURST_COUNT

/-- One channel of a poll. -/
def mr4Channel (l : List Mr4) (d : Dev) (c : Nat) : Dev :=
  let e := mr4Shown d (reportsOf d l c) c
  if e.hotInterval c && !d.hotInterval c && e.fld (R.DMC_CH_STAT_OWED c) != 0 then burstBegun e c else e

theorem mr4Poll_eq {d : Dev} (awake : d.awake = true) (works : d.works dmcBase = true) (l : List Mr4) :
    d.mr4Poll l = (List.range 4).foldl (mr4Channel l) d := if_pos (by simp [awake, works])

/-- What a poll leaves of channel `c` of the part `d`, as `e`. -/
def mr4Leaves (l : List Mr4) (d e : Dev) (c : Nat) : Prop :=
  e.flag (R.DMC_CH_STAT_HOT c) = (reportsOf d l c).any (·.twice) ∧ e.flag (R.DMC_CH_STAT_OVERTEMP c) = (reportsOf d l c).any (·.tooHot) ∧
    e.fld (R.DMC_CH_STAT_MR4_RATE c) = ((reportsOf d l c).map (·.code.toNat)).foldl max 0 ∧
    let hot := e.hotInterval c
    let o := d.fld (R.DMC_CH_STAT_OWED c)
    let left := (min 16 (2 * o) * d.fld R.DMC_REF_TRFC + 1) / 2
    (d.hotInterval c = false → hot = true → o ≠ 0 → e.fld (R.DMC_CH_STAT_OWED c) = min 16 (2 * o) ∧
      (left ≠ 0 → smGet (fun _ => 0) e.dmc.burst c = left)) ∧
    (d.hotInterval c = true ∨ hot = false ∨ o = 0 → e.fld (R.DMC_CH_STAT_OWED c) = o)

/-- What a channel's part of a poll depends on and changes. -/
def sameChannel (d e : Dev) (c : Nat) : Prop := e.reg (R.DMC_CH_STAT_HOT c).addr = d.reg (R.DMC_CH_STAT_HOT c).addr ∧
  e.reg R.DMC_CFG_GRAIN.addr = d.reg R.DMC_CFG_GRAIN.addr ∧ e.reg R.DMC_REF_TRFC.addr = d.reg R.DMC_REF_TRFC.addr ∧
  smGet (fun _ => 0) e.dmc.burst c = smGet (fun _ => 0) d.dmc.burst c

section Poll
variable {l : List Mr4} {d e g : Dev} {c j : Nat}

theorem sameChannel_refl : sameChannel d d c := ⟨rfl, rfl, rfl, rfl⟩

theorem sameChannel_trans (h : sameChannel d e c) (k : sameChannel e g c) : sameChannel d g c :=
  ⟨k.1.trans h.1, k.2.1.trans h.2.1, k.2.2.1.trans h.2.2.1, k.2.2.2.trans h.2.2.2⟩

theorem fld_of_sameChannel (h : sameChannel d e c) {f : Field} (at' : f.addr = 0x30110 + 0x4 * c) : e.fld f = d.fld f := by
  rw [Dev.fld, at', show e.reg (0x30110 + 0x4 * c) = _ from h.1, Dev.fld, at']
  rfl

theorem hotInterval_of_sameChannel (h : sameChannel d e c) : e.hotInterval c = d.hotInterval c := by
  rw [Dev.hotInterval, Dev.flag, Dev.flag, fld_of_sameChannel h rfl, fld_of_sameChannel h rfl]
  rfl

theorem reportsOf_of_sameChannel (h : sameChannel d e c) : reportsOf e l c = reportsOf d l c := by
  have ranks : e.ranks = d.ranks := by
    rw [Dev.ranks, Dev.flag, Dev.fld, show e.reg R.DMC_CFG_RANKS2.addr = d.reg R.DMC_CFG_RANKS2.addr from h.2.1]
    rfl
  rw [reportsOf, ranks, reportsOf]

/-- The outcome depends on the channel before and after alone. -/
theorem mr4Leaves_of_same {d' e' : Dev} (before : sameChannel d d' c) (h : mr4Leaves l d' e c) (after : sameChannel e e' c) : mr4Leaves l d e' c := by
  have trfc : d'.fld R.DMC_REF_TRFC = d.fld R.DMC_REF_TRFC := by rw [Dev.fld, before.2.2.1, Dev.fld]
  unfold mr4Leaves at h ⊢
  rw [reportsOf_of_sameChannel before, fld_of_sameChannel before rfl, hotInterval_of_sameChannel before, trfc] at h
  rw [hotInterval_of_sameChannel after, Dev.flag, Dev.flag, fld_of_sameChannel after rfl, fld_of_sameChannel after rfl, fld_of_sameChannel after rfl,
    fld_of_sameChannel after rfl, after.2.2.2]
  exact h

/-! ### One channel -/

theorem reg_mr4Shown (rs : List Mr4) {a : Nat} (other : a ≠ 0x30110 + 0x4 * c) : (mr4Shown d rs c).reg a = d.reg a := by
  refine (reg_setFlds_ne _ _ (by simp [mr4Stored, R.DMC_CH_STAT_HOT, R.DMC_CH_STAT_OVERTEMP, R.DMC_CH_STAT_MR4_RATE, other])).trans ?_
  exact reg_of_regs (by simp) (by simp) a

theorem fld_mr4Shown (rs : List Mr4) : (mr4Shown d rs c).flag (R.DMC_CH_STAT_HOT c) = rs.any (·.twice) ∧
    (mr4Shown d rs c).flag (R.DMC_CH_STAT_OVERTEMP c) = rs.any (·.tooHot) ∧
    (mr4Shown d rs c).fld (R.DMC_CH_STAT_MR4_RATE c) = (rs.map (·.code.toNat)).foldl max 0 ∧
    (mr4Shown d rs c).fld (R.DMC_CH_STAT_OWED c) = d.fld (R.DMC_CH_STAT_OWED c) := by
  have fit : ∀ w ∈ mr4Stored rs c, w.1.lo + w.1.w ≤ 32 := by
    simp [mr4Stored, R.DMC_CH_STAT_HOT, R.DMC_CH_STAT_OVERTEMP, R.DMC_CH_STAT_MR4_RATE]
  have stored {w : Field × Nat} (h : w ∈ mr4Stored rs c) : (mr4Shown d rs c).fld w.1 = w.2 % 2 ^ w.1.w :=
    fld_setFlds_of_pairwise fit _ (by simp [mr4Stored, apart, R.DMC_CH_STAT_HOT, R.DMC_CH_STAT_OVERTEMP, R.DMC_CH_STAT_MR4_RATE]) h
  have rate : (rs.map (·.code.toNat)).foldl max 0 < 2 ^ 5 := by
    refine List.foldlRecOn (motive := (· < 2 ^ 5)) _ _ (by omega) fun n few m hm => ?_
    obtain ⟨r, -, rfl⟩ := List.mem_map.1 hm
    exact Nat.max_lt.2 ⟨few, r.code.isLt⟩
  refine ⟨flag_of_fld ((stored (w := (R.DMC_CH_STAT_HOT c, b2n (rs.any (·.twice)))) (by simp [mr4Stored])).trans (b2n_mod_two _)),
    flag_of_fld ((stored (w := (R.DMC_CH_STAT_OVERTEMP c, b2n (rs.any (·.tooHot)))) (by simp [mr4Stored])).trans (b2n_mod_two _)),
    (stored (w := (R.DMC_CH_STAT_MR4_RATE c, (rs.map (·.code.toNat)).foldl max 0)) (by simp [mr4Stored])).trans (Nat.mod_eq_of_lt rate), ?_⟩
  refine (fld_setFlds_of_apart fit _ ?_).trans (fld_of_regs (by simp) (by simp) _)
  simp [mr4Stored, apart, R.DMC_CH_STAT_HOT, R.DMC_CH_STAT_OVERTEMP, R.DMC_CH_STAT_MR4_RATE, R.DMC_CH_STAT_OWED]

theorem reg_burstBegun {a : Nat} (other : a ≠ 0x30110 + 0x4 * c) (counter : a ≠ 0x30198) : (burstBegun d c).reg a = d.reg a :=
  (reg_count_ne _ _ counter).trans ((reg_setFld_ne _ _ _ other).trans (reg_of_regs rfl rfl a))

theorem fld_burstBegun (channel : c < 4) : (burstBegun d c).fld (R.DMC_CH_STAT_OWED c) = min 16 (2 * d.fld (R.DMC_CH_STAT_OWED c)) ∧
    (∀ f : Field, f.addr = 0x30110 + 0x4 * c → apart (R.DMC_CH_STAT_OWED c) f → (burstBegun d c).fld f = d.fld f) := by
  constructor
  · refine (fld_count_of_addr _ _ (by simp only [R.DMC_CH_STAT_OWED, R.DMC_HOT_BURST_COUNT]; omega)).trans ?_
    refine (fld_setFld_self _ (R.DMC_CH_STAT_OWED c) _ (by simp [R.DMC_CH_STAT_OWED])).trans (Nat.mod_eq_of_lt ?_)
    simp only [R.DMC_CH_STAT_OWED]
    omega
  · intro f at' other
    refine (fld_count_of_addr _ _ (by rw [at']; simp only [R.DMC_HOT_BURST_COUNT]; omega)).trans ?_
    exact (fld_setFld_ne _ _ _ _ (by simp [R.DMC_CH_STAT_OWED]) other).trans (fld_of_regs rfl rfl f)

theorem burst_burstBegun : (burstBegun d c).dmc.burst =
    smSet (fun _ => 0) d.dmc.burst c ((min 16 (2 * d.fld (R.DMC_CH_STAT_OWED c)) * d.fld R.DMC_REF_TRFC + 1) / 2) := by
  rw [burstBegun, count_dmc, setFld_dmc]

theorem mr4Shown_dmc (rs : List Mr4) : (mr4Shown d rs c).dmc = d.dmc := by simp [mr4Shown]

theorem mr4Channel_leaves (channel : c < 4) : mr4Leaves l d (mr4Channel l d c) c := by
  obtain ⟨hot, overtemp, rate, owed⟩ := fld_mr4Shown (d := d) (c := c) (reportsOf d l c)
  have trfc : (mr4Shown d (reportsOf d l c) c).fld R.DMC_REF_TRFC = d.fld R.DMC_REF_TRFC := by
    rw [Dev.fld, reg_mr4Shown _ (by simp only [R.DMC_REF_TRFC]; omega), Dev.fld]
  unfold mr4Channel
  dsimp only
  rw [owed]
  split
  next begins =>
    simp only [Bool.and_eq_true, Bool.not_eq_true', bne_iff_ne, ne_eq] at begins
    obtain ⟨⟨became, was⟩, some⟩ := begins
    obtain ⟨twice, kept⟩ := fld_burstBegun (d := mr4Shown d (reportsOf d l c) c) channel
    have keptHot := kept (R.DMC_CH_STAT_HOT c) rfl (.inr (.inr (Nat.le_of_ble_eq_true rfl)))
    have keptOver := kept (R.DMC_CH_STAT_OVERTEMP c) rfl (.inr (.inr (Nat.le_of_ble_eq_true rfl)))
    have keptRate := kept (R.DMC_CH_STAT_MR4_RATE c) rfl (.inr (.inl (Nat.le_of_ble_eq_true rfl)))
    have interval : (burstBegun (mr4Shown d (reportsOf d l c) c) c).hotInterval c = true := by
      rw [Dev.hotInterval, Dev.flag, Dev.flag, keptHot, keptOver]
      exact became
    refine ⟨(congrArg (· == 1) keptHot).trans hot, (congrArg (· == 1) keptOver).trans overtemp, keptRate.trans rate, fun _ _ _ => ⟨by rw [twice, owed], fun _ => ?_⟩,
      fun not => ?_⟩
    · rw [burst_burstBegun, smGet_smSet_self, owed, trfc]
    · rw [interval, was] at not
      simp [some] at not
  next stays =>
    refine ⟨hot, overtemp, rate, fun was became some => absurd ?_ stays, fun _ => owed⟩
    simp [was, became, some]

/-- The other channels stand as they were. -/
theorem mr4Channel_same (other : c ≠ j) (hc : c < 4) (hj : j < 4) : sameChannel d (mr4Channel l d j) c := by
  have shown {a : Nat} (out : a ≠ 0x30110 + 0x4 * j) (counter : a ≠ 0x30198) : (mr4Channel l d j).reg a = d.reg a := by
    unfold mr4Channel
    dsimp only
    split
    · exact (reg_burstBegun out counter).trans (reg_mr4Shown _ out)
    · exact reg_mr4Shown _ out
  refine ⟨shown ?_ ?_, shown ?_ ?_, shown ?_ ?_, ?_⟩
  · simp only [R.DMC_CH_STAT_HOT]; omega
  · simp only [R.DMC_CH_STAT_HOT]; omega
  · simp only [R.DMC_CFG_GRAIN]; omega
  · simp only [R.DMC_CFG_GRAIN]; omega
  · simp only [R.DMC_REF_TRFC]; omega
  · simp only [R.DMC_REF_TRFC]; omega
  · unfold mr4Channel
    dsimp only
    split
    · rw [burst_burstBegun, smGet_smSet_ne _ _ _ other, mr4Shown_dmc]
    · rw [mr4Shown_dmc]

/-- A poll of some channels, each once. -/
theorem mr4_channels (hc : c < 4) (cs : List Nat) (few : ∀ j ∈ cs, j < 4) (once : cs.Nodup) : ∀ d : Dev,
    (c ∉ cs → sameChannel d (cs.foldl (mr4Channel l) d) c) ∧ (c ∈ cs → mr4Leaves l d (cs.foldl (mr4Channel l) d) c) := by
  induction cs with
  | nil => exact fun d => ⟨fun _ => sameChannel_refl, by simp⟩
  | cons j cs ih =>
    intro d
    obtain ⟨fresh, once⟩ := List.nodup_cons.1 once
    rw [List.forall_mem_cons] at few
    obtain ⟨rest, leaves⟩ := ih few.2 once (mr4Channel l d j)
    refine ⟨fun out => ?_, fun inside => ?_⟩
    · rw [List.mem_cons, not_or] at out
      exact sameChannel_trans (mr4Channel_same out.1 hc few.1) (rest out.2)
    · rcases List.mem_cons.1 inside with rfl | later
      · exact mr4Leaves_of_same sameChannel_refl (mr4Channel_leaves hc) (rest fresh)
      · exact mr4Leaves_of_same (mr4Channel_same (by rintro rfl; exact fresh later) hc few.1) (leaves later) sameChannel_refl

end Poll

/-- The part but for its DRAM controller beside what `unbooked` leaves out. -/
def unrefreshed (d : Dev) : Dev := { unbooked d with dmc := Dmc.reset }

theorem kept_of_unrefreshed {d e : Dev} (h : unrefreshed e = unrefreshed d) : e.tabs = d.tabs ∧ e.dram = d.dram ∧ e.top = d.top :=
  ⟨(congrArg Dev.tabs h :), (congrArg Dev.dram h :), (congrArg Dev.top h :)⟩

theorem unrefreshed_mr4Channel (l : List Mr4) (d : Dev) (c : Nat) : unrefreshed (mr4Channel l d c) = unrefreshed d := by
  have shown (rs : List Mr4) : unbooked (mr4Shown d rs c) = unbooked d := by
    rw [mr4Shown, unbooked_setFlds, unbooked_raiseIf, unbooked_raiseIf]
  have begun (e : Dev) : unrefreshed (burstBegun e c) = unrefreshed e := by
    rw [burstBegun, unrefreshed, unbooked_count, unbooked_setFld]
    rfl
  unfold mr4Channel
  dsimp only
  split
  · rw [begun, unrefreshed, shown, unrefreshed]
  · rw [unrefreshed, shown, unrefreshed]

/-- Settles O38: configuration and check first, then refreshes, the poll and power-down. -/
theorem dramConfigurationChecksAndRefreshes : Obligations.DramConfigurationChecksAndRefreshes := by
  unfold Obligations.DramConfigurationChecksAndRefreshes
  refine ⟨⟨fun s v opens => ⟨fun setup => ?_, fun other => ?_⟩, fun s lane i v opens => ?_, fun s v opens setup idle works => ?_, fun s v opens stay => ?_,
    fun s lanes busy => ?_, fun s bad run asked works => ⟨fun fails => ?_, fun good stands => ?_⟩⟩,
    ⟨fun s c qos awake works => ⟨fun window may cool few => ?_, fun window not => ?_, fun shut => ⟨?_, ?_⟩⟩, fun s l awake works => ?_,
      fun s c r awake works timer rank idle => ?_⟩, windowOpen_iff⟩
  · obtain ⟨grain, density, ranks, unchecked⟩ := dmcCfgWrite_stores s.dev v
    exact ⟨_, makes_of _ (exec_dmcCfgWrite ..) ((if_pos opens).trans (dmcCfgWrite_setup setup v)), grain, density, ranks, unchecked,
      frame_of_unregistered (unregistered_setFlds ..)⟩
  · exact makes_of _ (exec_dmcCfgWrite ..) ((if_pos opens).trans (if_neg other))
  · obtain ⟨unchecked, frame⟩ := dlyWrite_unchecks s.dev v lane.val i.val
    obtain ⟨wl, rg, wdsk, rdsk⟩ := dlyWrite_stores s.dev v lane.val
    exact ⟨_, makes_open (f := (·.dlyWrite lane.val i.val v)) (exec_dlyWrite ..) opens, unchecked, frame_of_unregistered frame, fun h => h ▸ wl,
      fun h => h ▸ rg, fun h => h ▸ wdsk, fun h => h ▸ rdsk⟩
  · have go : bitAt (v ||| 0x80000000#32).toNat 31 = true := by
      rw [bitAt_eq_testBit, BitVec.toNat_or, Nat.testBit_or]
      exact Bool.or_true _
    have low (lo : Nat) (h : lo + 8 ≤ 16) : bits (v ||| 0x80000000#32).toNat lo 8 = bits v.toNat lo 8 := by
      refine Nat.eq_of_testBit_eq fun i => ?_
      rw [bits_testBit, bits_testBit, BitVec.toNat_or, Nat.testBit_or]
      by_cases inside : i < 8
      · rw [show (0x80000000#32).toNat = 2 ^ 31 from rfl, Nat.testBit_two_pow_of_ne (by omega), Bool.or_false]
      · simp [inside]
    obtain ⟨begun, margin, recheck, dram, hdr⟩ := checkBegun_shows s.dev (v ||| 0x80000000#32)
    exact ⟨_, makes_of _ (exec_dmcCheckGo ..) ((if_pos opens).trans (dmcCheckWrite_begins s.dev go setup idle works)), begun,
      margin.trans (low 8 (by omega)), recheck.trans (low 0 (by omega)), dram, hdr⟩
  · exact makes_of _ (exec_dmcRecheckWrite ..) ((if_pos opens).trans (dmcCheckWrite_stores s.dev stay))
  · exact ⟨_, makes_of _ (exec_checkDone ..) rfl, checkDone_shows busy lanes⟩
  · exact ⟨_, makes_of _ (exec_dramRecheck ..) (dramRecheck_fails run asked works fails), recheckFailed_shows _⟩
  · exact makes_of _ (exec_dramRecheck ..) (by rw [good]; exact dramRecheck_stands run asked works stands)
  · obtain ⟨owed, counts, frame⟩ := postponed_shows few c.isLt
    exact ⟨_, makes_of _ (exec_refreshExpiry ..) (refreshExpiry_postpones awake works window may cool few), owed, counts, frame_of_unregistered frame⟩
  · exact makes_of _ (exec_refreshExpiry ..) (refreshExpiry_forces awake works window not)
  · exact makes_of _ (exec_refreshExpiry ..) (refreshExpiry_passes awake works shut)
  · exact makes_of _ (exec_owedRefreshFlush ..) (owedFlush_flushes awake works shut)
  · have frame : unrefreshed ((List.range 4).foldl (mr4Channel l) s.dev) = unrefreshed s.dev := foldl_keeps unrefreshed (unrefreshed_mr4Channel l) _ _
    refine ⟨_, makes_of _ (exec_mr4Poll ..) (mr4Poll_eq awake works l), fun c hc => ?_, kept_of_unrefreshed frame⟩
    exact (mr4_channels hc (List.range 4) (fun j => List.mem_range.1) List.nodup_range s.dev).2 (List.mem_range.2 hc)
  · obtain ⟨bit, others, frame⟩ := rankPowerDown_shows awake works timer rank c.isLt idle
    exact ⟨_, makes_of _ (exec_rankPowerDown ..) rfl, bit, others, frame_of_unregistered frame⟩

end Sys2Proof.Proofs
end

section
/-! Reads of a time base while RST_N is low (11 R332; 17 R519). Refutes O45. -/
namespace Sys2Proof.Proofs
open Sys2Proof.Machine Sys2Proof.Laws

theorem exec_tbNsRead (b : Fin 4) (s : State) : exec (.tbNsRead b) s = s.act (·.busReadAt (R.TB_NS_NS b.val).addr) := rfl

/-- While RST_N is low the link is not there: no access is answered, and the bus stands as it was. -/
theorem busReadAt_rstLow {d : Dev} (low : d.boot.rstLow = true) (a : Nat) : d.busReadAt a = d := if_pos low

/-- RST_N is low, and base 0 stands at 1 ns. -/
def heldWithTime : State :=
  ⟨[], { State.reset.dev with boot := { State.reset.dev.boot with rstLow := true }, tbu := { State.reset.dev.tbu with bases := [(0, { TBase.zero with val := 2 ^ 64 })] } }⟩

/-- Refutes O45: while RST_N is low, a read of TB_NS is not answered (R519), so the bus does not show the base's ns. -/
theorem not_timeBasesServosAndCaptures : ¬ Obligations.TimeBasesServosAndCaptures := by
  unfold Obligations.TimeBasesServosAndCaptures
  intro h
  obtain ⟨-, read, -⟩ := h
  obtain ⟨e, reads, bus, -⟩ := read heldWithTime 0
  have unanswered : Makes (.tbNsRead 0) heldWithTime heldWithTime.dev := makes_of _ (exec_tbNsRead ..) (busReadAt_rstLow rfl _)
  have same : e.bus = heldWithTime.dev.bus := by
    rw [← vector0_bus e, makes_vector0 reads unanswered, vector0_bus]
  exact absurd (bus.symm.trans same) (by decide +kernel)

end Sys2Proof.Proofs
end

section
/-! SUPPORT. Time bases and their servos: what a jump, a change of state and a rate write leave (11 R333 to R339). -/
namespace Sys2Proof.Proofs
open Sys2Proof.Machine Sys2Proof.Laws

/-- The part but for its time bases and the receive streams beside what `unbooked` leaves out. -/
def untimed (d : Dev) : Dev := { unbooked d with tbu := Tbu.reset, str := Str.reset }

theorem untimed_of_unbooked {d e : Dev} (h : unbooked e = unbooked d) : untimed e = untimed d := by rw [untimed, h, untimed]

@[simp] theorem base_setBase_self (d : Dev) (b : Nat) (x : TBase) : (d.setBase b x).base b = x := smGet_smSet_self ..

theorem base_setBase_ne (d : Dev) {a b : Nat} (x : TBase) (h : a ≠ b) : (d.setBase b x).base a = d.base a := smGet_smSet_ne _ _ _ h

theorem base_of_tbu {d e : Dev} (h : e.tbu = d.tbu) (b : Nat) : e.base b = d.base b := by rw [Dev.base, h, Dev.base]

/-- A number of 32 bits, stored and read back. -/
theorem sx_tc_32 {v : Int} (h : -2 ^ 31 ≤ v ∧ v < 2 ^ 31) : sx 32 (tc 32 v % 2 ^ 32) = v := by
  unfold sx tc
  dsimp only
  split <;> omega

/-- The servo's source depends on TB_SERVO alone. -/
theorem servoSrc_of_reg {d e : Dev} {b : Nat} (same : ∀ f : Field, f.addr = 0x6020C + 0x80 * b → f.lo + f.w ≤ 30 → e.fld f = d.fld f) :
    e.servoSrc b = d.servoSrc b := by
  have src := same (R.TB_SERVO_SRC b) rfl (show 0 + 3 ≤ 30 by omega)
  have tb := same (R.TB_SERVO_SRC_TB b) rfl (show 4 + 2 ≤ 30 by omega)
  rw [Dev.servoSrc, src, tb, Dev.servoSrc]

theorem servoSrc_of_regs {d e : Dev} (regs : e.regs = d.regs) (grade : e.grade = d.grade) (b : Nat) : e.servoSrc b = d.servoSrc b :=
  servoSrc_of_reg fun f _ _ => fld_of_regs regs grade f

/-! ## A change of state (R339) -/

section State
variable (d : Dev) (b st : Nat)

/-- The base with its servo in state `st`. -/
def inServoState (x : TBase) (st : Nat) : TBase :=
  if x.state = st then x else { x with state := st, good := 0, outl := 0, locked := x.locked || st == 2 }

@[simp] theorem base_servoState_self : (d.servoState b st).base b = inServoState (d.base b) st := by
  unfold Dev.servoState inServoState
  dsimp only
  split
  · rfl
  · exact (base_of_tbu ((raise_tbu ..).trans (setFld_tbu ..)) b).trans (base_setBase_self ..)

theorem base_servoState_ne {a : Nat} (h : a ≠ b) : (d.servoState b st).base a = d.base a := by
  unfold Dev.servoState
  dsimp only
  split
  · rfl
  · exact (base_of_tbu ((raise_tbu ..).trans (setFld_tbu ..)) a).trans (base_setBase_ne d _ h)

@[simp] theorem untimed_servoState : untimed (d.servoState b st) = untimed d := by
  unfold Dev.servoState
  dsimp only
  split
  · rfl
  · exact (untimed_of_unbooked ((unbooked_raise ..).trans (unbooked_setFld ..))).trans rfl

theorem reg_servoState {a : Nat} (h : a ≠ 0x6020C + 0x80 * b) : (d.servoState b st).reg a = d.reg a := by
  unfold Dev.servoState
  dsimp only
  split
  · rfl
  · exact (reg_raise ..).trans ((reg_setFld_ne _ (R.TB_SERVO_STATE b) _ h).trans (reg_of_regs rfl rfl a))

/-- STATE stands above the servo's configuration. -/
theorem fld_servoState {f : Field} (low : f.lo + f.w ≤ 30) : (d.servoState b st).fld f = d.fld f := by
  by_cases h : f.addr = 0x6020C + 0x80 * b
  · unfold Dev.servoState
    dsimp only
    split
    · rfl
    · refine (fld_raise ..).trans ((fld_setFld_ne _ (R.TB_SERVO_STATE b) f _ (Nat.le_refl 32) ?_).trans (fld_of_regs rfl rfl f))
      exact .inr (.inl low)
  · rw [Dev.fld, reg_servoState d b st h, Dev.fld]

@[simp] theorem servoSrc_servoState (a : Nat) : (d.servoState b st).servoSrc a = d.servoSrc a :=
  servoSrc_of_reg fun _ _ low => fld_servoState d b st low

@[simp] theorem tbRate_servoState (a : Nat) : (d.servoState b st).tbRate a = d.tbRate a := by
  have other : (R.TB_RATE_RATE a).addr ≠ 0x6020C + 0x80 * b := by simp only [R.TB_RATE_RATE]; omega
  rw [Dev.tbRate, Dev.fld, reg_servoState d b st other, Dev.tbRate, Dev.fld]

end State

/-! ## A jump (R336, R351) -/

section Jump
variable (d : Dev) (b val : Nat)

theorem base_baseJump_self : (d.baseJump b val).base b =
    { d.base b with val := val % 2 ^ 96, sec := ((d.baseJump b val).base b).sec, moved := ((d.baseJump b val).base b).moved } := by
  obtain ⟨sec, moved, jumped⟩ : ∃ sec moved, (d.baseJump b val).base b = { d.base b with val := val % 2 ^ 96, sec := sec, moved := moved } :=
    ⟨_, _, smGet_smSet_self ..⟩
  rw [jumped]

theorem base_baseJump_ne {a : Nat} (h : a ≠ b) : (d.baseJump b val).base a = d.base a := base_setBase_ne d _ h

@[simp] theorem regs_baseJump : (d.baseJump b val).regs = d.regs := (rfl)
@[simp] theorem grade_baseJump : (d.baseJump b val).grade = d.grade := (rfl)
@[simp] theorem untimed_baseJump : untimed (d.baseJump b val) = untimed d := (rfl)

theorem fld_baseJump (f : Field) : (d.baseJump b val).fld f = d.fld f := fld_of_regs (regs_baseJump ..) (grade_baseJump ..) f

theorem servoSrc_baseJump (a : Nat) : (d.baseJump b val).servoSrc a = d.servoSrc a := servoSrc_of_regs (regs_baseJump ..) (grade_baseJump ..) a

theorem tbRate_baseJump (a : Nat) : (d.baseJump b val).tbRate a = d.tbRate a := by rw [Dev.tbRate, fld_baseJump, Dev.tbRate]

end Jump
end Sys2Proof.Proofs
end

section
/-! TIME_STEER (11 R333 to R336). Settles O44. -/
namespace Sys2Proof.Proofs
open Sys2Proof.Machine Sys2Proof.Laws

/-! ## A base that a command moves (R336) -/

/-- What a SET or STEP of base `b` leaves beside its value. -/
def steered (d e : Dev) (b : Nat) : Prop :=
  (∀ x, x ≠ b → e.base x = d.base x) ∧ e.top = d.top ∧ e.tabs = d.tabs ∧ e.hostMem = d.hostMem ∧
    (d.servoSrc b = 0 → e.base b = { d.base b with val := (e.base b).val, sec := (e.base b).sec, moved := (e.base b).moved } ∧ e.regs = d.regs) ∧
    (d.servoSrc b ≠ 0 → (e.base b).state = 1 ∧ (e.base b).integ = (d.base b).integ ∧ (e.base b).good = 0 ∧ (e.base b).outl = 0) ∧
    e.tbRate b = d.tbRate b

section Moved
variable (d : Dev) (b val : Nat)

/-- An active servo acquires. -/
def acquires (d : Dev) (b : Nat) : Dev := (d.servoState b 1).setBase b { (d.servoState b 1).base b with good := 0, outl := 0 }

theorem baseMoved_off (off : d.servoSrc b = 0) : d.baseMoved b val = d.baseJump b val := if_pos ((servoSrc_baseJump ..).trans off)

theorem baseMoved_on (on : d.servoSrc b ≠ 0) : d.baseMoved b val = acquires (d.baseJump b val) b :=
  if_neg (fun off => on ((servoSrc_baseJump ..).symm.trans off))

theorem base_acquires : (acquires d b).base b = { inServoState (d.base b) 1 with good := 0, outl := 0 } := by
  rw [acquires, base_setBase_self, base_servoState_self]

theorem inServoState_kept (x : TBase) (st : Nat) : (inServoState x st).state = st ∧ (inServoState x st).val = x.val ∧ (inServoState x st).integ = x.integ := by
  unfold inServoState
  split
  next same => exact ⟨same, rfl, rfl⟩
  next => exact ⟨rfl, rfl, rfl⟩

theorem val_baseMoved : ((d.baseMoved b val).base b).val = val % 2 ^ 96 := by
  by_cases off : d.servoSrc b = 0
  · rw [baseMoved_off d b val off, base_baseJump_self]
  · rw [baseMoved_on d b val off, base_acquires, base_baseJump_self]
    exact (inServoState_kept _ 1).2.1

theorem steered_of_untimed {d e : Dev} (h : untimed e = untimed d) : e.top = d.top ∧ e.tabs = d.tabs ∧ e.hostMem = d.hostMem :=
  ⟨(congrArg Dev.top h :), (congrArg Dev.tabs h :), (congrArg Dev.hostMem h :)⟩

theorem baseMoved_steers : steered d (d.baseMoved b val) b := by
  by_cases off : d.servoSrc b = 0
  · rw [baseMoved_off d b val off]
    obtain ⟨top, tabs, host⟩ := steered_of_untimed (untimed_baseJump d b val)
    refine ⟨fun x => base_baseJump_ne d b val, top, tabs, host, fun _ => ⟨?_, regs_baseJump ..⟩, fun on => absurd off on, tbRate_baseJump ..⟩
    rw [base_baseJump_self]
  · rw [baseMoved_on d b val off]
    have frame : untimed (acquires (d.baseJump b val) b) = untimed d := (untimed_servoState (d.baseJump b val) b 1 :).trans (untimed_baseJump ..)
    obtain ⟨top, tabs, host⟩ := steered_of_untimed frame
    have kept := inServoState_kept ((d.baseJump b val).base b) 1
    refine ⟨fun x other => ?_, top, tabs, host, fun none => absurd none off, fun _ => ?_, ?_⟩
    · exact (base_setBase_ne _ _ other).trans ((base_servoState_ne _ b 1 other).trans (base_baseJump_ne d b val other))
    · rw [base_acquires]
      exact ⟨kept.1, kept.2.2.trans (by rw [base_baseJump_self]), rfl, rfl⟩
    · exact (tbRate_servoState (d.baseJump b val) b 1 b :).trans (tbRate_baseJump ..)

end Moved

/-! ## The operations (R334, R335) -/

section Operations
variable {d : Dev} {c : Cmd} (late : Bool)

theorem timeSteer_beyond (beyond : 3 < Steer.tb c) : timeSteer d c late = (.bad 2, d) := by
  rw [timeSteer, steerDetail, if_pos beyond]

variable (within : Steer.tb c ≤ 3)
include within

theorem timeSteer_unknown (unknown : 3 < Steer.op c) : timeSteer d c late = (.bad 3, d) := by
  rw [timeSteer, steerDetail, if_neg (Nat.not_lt.2 within), if_pos unknown]

theorem timeSteer_refused (bad : (Steer.op c = 2 ∧ d.servoSrc (Steer.tb c) ≠ 0) ∨ (Steer.op c = 3 ∧ d.servoSrc (Steer.tb c) ≠ 1)) :
    timeSteer d c late = (.bad 7, d) := by
  have op : ¬ 3 < Steer.op c := by omega
  rw [timeSteer, steerDetail, if_neg (Nat.not_lt.2 within), if_neg op, if_pos bad]

theorem steerDetail_passes (op : Steer.op c ≤ 3)
    (good : ¬ ((Steer.op c = 2 ∧ d.servoSrc (Steer.tb c) ≠ 0) ∨ (Steer.op c = 3 ∧ d.servoSrc (Steer.tb c) ≠ 1))) : steerDetail d c = none := by
  rw [steerDetail, if_neg (Nat.not_lt.2 within), if_neg (Nat.not_lt.2 op), if_neg good]

theorem timeSteer_set (op : Steer.op c = 0) : timeSteer d c late = steerSet d c late := by
  rw [timeSteer, steerDetail_passes within (by omega) (by omega), op]
  rfl

theorem timeSteer_step (op : Steer.op c = 1) : timeSteer d c late = steerStep d c late := by
  rw [timeSteer, steerDetail_passes within (by omega) (by omega), op]
  rfl

theorem timeSteer_rate (op : Steer.op c = 2) (off : d.servoSrc (Steer.tb c) = 0) : timeSteer d c late = steerRate d c late := by
  rw [timeSteer, steerDetail_passes within (by omega) (by omega), op]
  rfl

theorem timeSteer_offset (op : Steer.op c = 3) (sw : d.servoSrc (Steer.tb c) = 1) : timeSteer d c late = steerOffset d c late := by
  rw [timeSteer, steerDetail_passes within (by omega) (by omega), op]
  rfl

end Operations

/-- A base that stands at `v`, taken back by `n`, without its last 32 bits of fraction. -/
theorem takenBack_set {v n : Nat} (h : v < 2 ^ 64) : ((v * 2 ^ 32 + n) % 2 ^ 96 + 2 ^ 96 - n % 2 ^ 96) % 2 ^ 96 / 2 ^ 32 = v := by omega

theorem takenBack_step (x : Int) (n : Nat) :
    ((((x % 2 ^ 96).toNat % 2 ^ 96 + 2 ^ 96 - n % 2 ^ 96) % 2 ^ 96 / 2 ^ 32 : Nat) : Int) = (x - n) % 2 ^ 96 / 2 ^ 32 := by omega

/-! ## The command's form -/

theorem op_withBits (c : Cmd) {k : Nat} (few : k < 256) : Steer.op (c.withBits 17 8 k) = k := by
  have payload : (c.withBits 17 8 k).payload.toNat = setBits c.payload.toNat 8 8 k := toNat_ofNat_setBits c.payload k (by decide)
  rw [Steer.op, Cmd.u8, Cmd.bitsAt, payload]
  exact (bits_setBits_self ..).trans (Nat.mod_eq_of_lt few)

theorem makes_timeSteer {s : State} {c0 : Cmd} {k : Nat} {i : Instr}
    (row : (i, k) ∈ [(Instr.timeSteerSet c0, 0), (Instr.timeSteerStep c0, 1), (Instr.timeSteerRate c0, 2), (Instr.timeSteerOffset c0, 3)])
    (applies : s.dev.applies .timeSteer (c0.withBits 17 8 k)) {p : Cpl} {e : Dev} (steers : timeSteer (s.dev.unqueue (c0.withBits 17 8 k))
      (c0.withBits 17 8 k) ((s.dev.unqueue (c0.withBits 17 8 k)).isLate (c0.withBits 17 8 k)) = (p, e)) : Makes i s (e.ends (c0.withBits 17 8 k) p) ∧ k < 4 := by
  have done := row_done (by decide) applies (congrArg done
    ((congrArg (timeSteer _ _) (cmdLate_of_other (by decide) (by decide) (s.dev.unqueue (c0.withBits 17 8 k)) (c0.withBits 17 8 k))).trans steers))
  simp only [List.mem_cons, Prod.mk.injEq, List.not_mem_nil, or_false] at row
  rcases row with ⟨rfl, rfl⟩ | ⟨rfl, rfl⟩ | ⟨rfl, rfl⟩ | ⟨rfl, rfl⟩
  · exact ⟨makes_row s c0 (.timeSteer, .timeSteerSet, (·.withBits 17 8 0)) (by simp [tickRows]) applies.1 _ done, by omega⟩
  · exact ⟨makes_row s c0 (.timeSteer, .timeSteerStep, (·.withBits 17 8 1)) (by simp [tickRows]) applies.1 _ done, by omega⟩
  · exact ⟨makes_row s c0 (.timeSteer, .timeSteerRate, (·.withBits 17 8 2)) (by simp [tickRows]) applies.1 _ done, by omega⟩
  · exact ⟨makes_row s c0 (.timeSteer, .timeSteerOffset, (·.withBits 17 8 3)) (by simp [tickRows]) applies.1 _ done, by omega⟩

/-- Settles O44: each operation by its own lemma, after the refusals. -/
theorem timeSteerMovesBasesAsR334Says : Obligations.TimeSteerMovesBasesAsR334Says := by
  unfold Obligations.TimeSteerMovesBasesAsR334Says
  refine ⟨fun s c0 k i row => ?_, fun d c due passes within unknown => ?_⟩
  · intro c applies d b lt since answer moved
    have few : k < 4 := (makes_timeSteer row applies rfl).2
    have op : Steer.op c = k := op_withBits c0 (by omega)
    have makes {p : Cpl} {e : Dev} (steers : timeSteer d c (d.isLate c) = (p, e)) : Makes i s (e.ends c p) := (makes_timeSteer row applies steers).1
    refine ⟨fun beyond => makes (timeSteer_beyond _ beyond), fun within => ⟨fun set => ?_, fun step => ?_, fun rate on => ?_, fun rate off => ?_,
      fun offset other => ?_, fun offset sw => ?_⟩⟩
    · have value := val_baseMoved d b (c.u64 24 * 2 ^ 32 + since)
      refine ⟨_, ?_, baseMoved_steers .., value⟩
      have made := makes (timeSteer_set _ within (op.trans set))
      rwa [show steerCpl (d.baseMoved b (c.u64 24 * 2 ^ 32 + since)) b since (d.isLate c) = ⟨lt, 0, c.u64 24⟩ by
        rw [steerCpl, value, takenBack_set (v := c.u64 24) (bits_lt ..)]] at made
    · have value := val_baseMoved d b ((((d.base b).val : Int) + sx 32 (c.u32 24) * 2 ^ 64) % 2 ^ 96).toNat
      refine ⟨_, _, makes (timeSteer_step _ within (op.trans step)), baseMoved_steers .., ?_, ?_⟩
      · rw [value]
        omega
      · rw [value]
        exact takenBack_step ..
    · exact makes (timeSteer_refused _ within (.inl ⟨op.trans rate, on⟩))
    · refine ⟨_, makes (timeSteer_rate _ within (op.trans rate) off), setFld_tbu .., ?_, fun a other => reg_setFld_ne _ _ _ other⟩
      rw [Dev.tbRate, fld_setFld_self d (R.TB_RATE_RATE b) _ (Nat.le_refl 32)]
      exact sx_tc_32 (by have := clampI_between (sx 32 (c.u32 24)) (show (-500000000 : Int) ≤ 500000000 by omega); omega)
    · exact makes (timeSteer_refused _ within (.inr ⟨op.trans offset, other⟩))
    · exact makes (timeSteer_offset _ within (op.trans offset) sw)
  · have acts : (d.unqueue c).effect .timeSteer c ((d.unqueue c).cmdLate .timeSteer c) = done (.bad 3, d.unqueue c) :=
      congrArg done (timeSteer_unknown _ within unknown)
    rw [Dev.applyEntry, if_neg (by simp [due]), if_neg (by simp), Dev.applyCmd, passes, acts]
    rfl

end Sys2Proof.Proofs
end

section
/-! References: their judgement, measurement, activity and qualification (12 R351 to R356, R373). Settles O46. -/
namespace Sys2Proof.Proofs
open Sys2Proof.Machine Sys2Proof.Laws

theorem works_raiseIf (d : Dev) (c : Bool) (f : Flag) (b : Nat) : (d.raiseIf c f).works b = d.works b := by
  unfold Dev.raiseIf
  split
  · exact raise_works ..
  · rfl

theorem fld_raiseIf (d : Dev) (c : Bool) (x : Flag) (f : Field) : (d.raiseIf c x).fld f = d.fld f :=
  fld_of_regs (raiseIf_regs ..) (raiseIf_grade ..) f

/-! ## The state that a reference takes (R355) -/

/-- The next state of a reference. -/
def nextQ (en act hard nom : Bool) (q : Nat) : Nat :=
  let q := if !en then 0 else if q = 0 then 1 else q
  let q := if 2 ≤ q && !act then 1 else q
  let q := if q == 2 && hard then 1 else q
  if q == 1 && act && !hard && nom then 2 else q

section Next
variable {act hard nom : Bool} {q : Nat}

theorem nextQ_disabled : nextQ false act hard nom q = 0 := by simp [nextQ]

theorem nextQ_lost (few : q < 4) : nextQ true false hard nom q = 1 := by
  rcases (show q = 0 ∨ q = 1 ∨ q = 2 ∨ q = 3 by omega) with rfl | rfl | rfl | rfl <;> cases hard <;> rfl

theorem nextQ_beyond (below : q ≤ 2) : nextQ true act true nom q = 1 := by
  rcases (show q = 0 ∨ q = 1 ∨ q = 2 by omega) with rfl | rfl | rfl <;> cases act <;> rfl

theorem nextQ_validates (below : q ≤ 1) : nextQ true true false true q = 2 := by
  rcases (show q = 0 ∨ q = 1 by omega) with rfl | rfl <;> rfl

theorem nextQ_stays : nextQ true true false nom 2 = 2 := rfl

theorem nextQ_qualified : nextQ true true hard nom 3 = 3 := by cases hard <;> rfl

theorem nextQ_lt (few : q < 4) (en : Bool) : nextQ en act hard nom q < 4 := by
  unfold nextQ
  dsimp only
  split_ifs <;> omega

end Next

/-! ## The limits (R354, R356) -/

/-- A time base's FOFS is its RATE. -/
def refOffset (d : Dev) (i : Nat) : Dev := if 9 ≤ i ∧ i < 13 then d.setFld (R.REF_IN_FOFS_FOFS i) (tc 32 (d.tbRate (i - 9))) else d

/-- The reference with its offset and its limits as they stand. -/
def refJudged (d : Dev) (i : Nat) : Dev := if i < 13 then (refOffset d i).refLimits i else refOffset d i

theorem refEval_eq (d : Dev) (i : Nat) : d.refEval i = let e := refJudged d i
    e.setFlds [(R.REF_IN_STAT_ACTIVE i, b2n (refActive e i)),
      (R.REF_IN_STAT_QSTATE i, nextQ (e.flag (R.REF_IN_CFG_EN i)) (refActive e i) (e.flag (R.REF_IN_STAT_HARD i)) (refNomOk e i) (e.qstate i))] := rfl

/-- Beyond HARD, as the reference is judged. -/
def beyondHard (d : Dev) (i : Nat) : Bool :=
  if i = 13 then d.flag (R.REF_IN_STAT_HARD 13) else
    decide (1000 * d.fld R.REF_HARD_HARD < (if 9 ≤ i then d.tbRate (i - 9) else d.fofs i).natAbs)

section Judged
variable (d : Dev) (i : Nat)

theorem reg_refOffset {a : Nat} (h : a ≠ 0x7040C + 0x20 * i) : (refOffset d i).reg a = d.reg a := by
  unfold refOffset
  split
  · exact reg_setFld_ne d (R.REF_IN_FOFS_FOFS i) _ h
  · rfl

theorem sx_fld_32 (d : Dev) (f : Field) : -2 ^ 31 ≤ sx 32 (d.fld f) ∧ sx 32 (d.fld f) < 2 ^ 31 := by
  unfold sx
  dsimp only
  split <;> omega

theorem fofs_refOffset : (refOffset d i).fofs i = if 9 ≤ i ∧ i < 13 then d.tbRate (i - 9) else d.fofs i := by
  unfold refOffset
  split
  · rw [Dev.fofs, fld_setFld_self d (R.REF_IN_FOFS_FOFS i) _ (Nat.le_refl 32)]
    exact sx_tc_32 (sx_fld_32 ..)
  · rfl

theorem fld_refOffset {f : Field} (h : f.addr ≠ 0x7040C + 0x20 * i) : (refOffset d i).fld f = d.fld f := by
  rw [Dev.fld, reg_refOffset d i h, Dev.fld]

/-- SOFT and HARD as the limits give them. -/
def limitsStored (d : Dev) (i : Nat) : List (Field × Nat) :=
  [(R.REF_IN_STAT_SOFT i, b2n (decide (1000 * d.fld R.REF_SOFT_SOFT < (d.fofs i).natAbs))),
    (R.REF_IN_STAT_HARD i, b2n (decide (1000 * d.fld R.REF_HARD_HARD < (d.fofs i).natAbs)))]

theorem fld_refLimits (f : Field) : (d.refLimits i).fld f = (d.setFlds (limitsStored d i)).fld f := fld_raiseIf ..

theorem hard_refLimits : (d.refLimits i).flag (R.REF_IN_STAT_HARD i) = decide (1000 * d.fld R.REF_HARD_HARD < (d.fofs i).natAbs) := by
  refine flag_of_fld ((fld_refLimits ..).trans ?_)
  refine (fld_setFlds_of_pairwise (w := (R.REF_IN_STAT_HARD i, b2n _)) ?_ d ?_ (by rw [limitsStored]; exact List.mem_cons_of_mem _ List.mem_cons_self)).trans (b2n_mod_two _)
  all_goals simp [limitsStored, apart, R.REF_IN_STAT_SOFT, R.REF_IN_STAT_HARD]

theorem reg_refJudged {a : Nat} (offset : a ≠ 0x7040C + 0x20 * i) (status : a ≠ 0x70408 + 0x20 * i) : (refJudged d i).reg a = d.reg a := by
  unfold refJudged
  split
  · refine (reg_of_regs (raiseIf_regs ..) (raiseIf_grade ..) a).trans ((reg_setFlds_ne _ _ ?_).trans (reg_refOffset d i offset))
    simp [R.REF_IN_STAT_SOFT, R.REF_IN_STAT_HARD, status]
  · exact reg_refOffset d i offset

theorem fld_refJudged_of_addr {f : Field} (offset : f.addr ≠ 0x7040C + 0x20 * i) (status : f.addr ≠ 0x70408 + 0x20 * i) :
    (refJudged d i).fld f = d.fld f := by rw [Dev.fld, reg_refJudged d i offset status, Dev.fld]

/-- ACTIVE and QSTATE stand above the limits' bits. -/
theorem fld_refJudged_high {f : Field} (at' : f.addr = 0x70408 + 0x20 * i) (high : 29 ≤ f.lo) : (refJudged d i).fld f = d.fld f := by
  have offset := fld_refOffset d i (f := f) (by omega)
  unfold refJudged
  split
  · refine (fld_refLimits ..).trans ((fld_setFlds_of_apart ?_ _ ?_).trans offset)
    · simp [limitsStored, R.REF_IN_STAT_SOFT, R.REF_IN_STAT_HARD]
    · simp only [limitsStored, List.forall_mem_cons, List.not_mem_nil, false_implies, implies_true, and_true]
      exact ⟨.inr (.inr (show 28 + 1 ≤ f.lo by omega)), .inr (.inr (show 27 + 1 ≤ f.lo by omega))⟩
  · exact offset

theorem hard_refJudged (few : i < 14) : (refJudged d i).flag (R.REF_IN_STAT_HARD i) = beyondHard d i := by
  have hard : (refOffset d i).fld R.REF_HARD_HARD = d.fld R.REF_HARD_HARD := fld_refOffset d i (by simp only [R.REF_HARD_HARD]; omega)
  unfold refJudged beyondHard
  by_cases tether : i = 13
  · subst tether
    rfl
  · rw [if_pos (show i < 13 by omega), if_neg tether, hard_refLimits, hard, fofs_refOffset]
    simp only [show (9 ≤ i ∧ i < 13) = (9 ≤ i) by simp; omega]

theorem unbooked_refJudged : unbooked (refJudged d i) = unbooked d := by
  have offset : unbooked (refOffset d i) = unbooked d := by
    unfold refOffset
    split
    · exact unbooked_setFld ..
    · rfl
  unfold refJudged
  split
  · exact (unbooked_raiseIf ..).trans ((unbooked_setFlds ..).trans offset)
  · exact offset

theorem works_refJudged (b : Nat) : (refJudged d i).works b = d.works b := by
  have offset : (refOffset d i).works b = d.works b := by
    unfold refOffset
    split <;> rfl
  unfold refJudged
  split
  · exact (works_raiseIf ..).trans ((works_of_hdr (setFlds_hdr ..) b).trans offset)
  · exact offset

theorem refActive_refJudged (few : i < 14) : refActive (refJudged d i) i = refActive d i := by
  have act : (refJudged d i).flag (R.REF_IN_STAT_ACTIVE i) = d.flag (R.REF_IN_STAT_ACTIVE i) :=
    congrArg (· == 1) (fld_refJudged_high d i rfl (Nat.le_refl 29))
  have group : refGroup (refJudged d i) i = refGroup d i :=
    congrArg (· % 8) (fld_refJudged_of_addr d i (by simp only [R.REF_IN_CFG_NOM]; omega) (by simp only [R.REF_IN_CFG_NOM]; omega))
  have fmt (g : Nat) : (refJudged d i).gFmt g = d.gFmt g :=
    fld_refJudged_of_addr d i (by simp only [R.GRP_FMT_FMT]; omega) (by simp only [R.GRP_FMT_FMT]; omega)
  have sync (g : Nat) : (refJudged d i).fld (R.GRP_STAT_SYNC_STATE g) = d.fld (R.GRP_STAT_SYNC_STATE g) :=
    fld_refJudged_of_addr d i (by simp only [R.GRP_STAT_SYNC_STATE]; omega) (by simp only [R.GRP_STAT_SYNC_STATE]; omega)
  have base (b : Nat) : (refJudged d i).base b = d.base b := base_of_tbu (congrArg Dev.tbu (unbooked_refJudged d i) :) b
  have tth : (refJudged d i).tth = d.tth := (congrArg Dev.tth (unbooked_refJudged d i) :)
  simp only [refActive, act, group, fmt, sync, base, tth, works_refJudged]

theorem refNomOk_refJudged : refNomOk (refJudged d i) i = refNomOk d i := by
  have nom : (refJudged d i).fld (R.REF_IN_CFG_NOM i) = d.fld (R.REF_IN_CFG_NOM i) :=
    fld_refJudged_of_addr d i (by simp only [R.REF_IN_CFG_NOM]; omega) (by simp only [R.REF_IN_CFG_NOM]; omega)
  simp only [refNomOk, nom]

end Judged

/-! ## A reference that is judged (R351, R355) -/

section Eval
variable (d : Dev) {i : Nat} (few : i < 14)

/-- ACTIVE and QSTATE as the judgement gives them. -/
def evalStored (d : Dev) (i : Nat) : List (Field × Nat) := [(R.REF_IN_STAT_ACTIVE i, b2n (refActive d i)),
  (R.REF_IN_STAT_QSTATE i, nextQ (d.flag (R.REF_IN_CFG_EN i)) (refActive d i) (beyondHard d i) (refNomOk d i) (d.qstate i))]

include few

theorem refEval_stores : d.refEval i = (refJudged d i).setFlds (evalStored d i) := by
  have en : (refJudged d i).flag (R.REF_IN_CFG_EN i) = d.flag (R.REF_IN_CFG_EN i) :=
    congrArg (· == 1) (fld_refJudged_of_addr d i (by simp only [R.REF_IN_CFG_EN]; omega) (by simp only [R.REF_IN_CFG_EN]; omega))
  have state : (refJudged d i).qstate i = d.qstate i := fld_refJudged_high d i rfl (by simp [R.REF_IN_STAT_QSTATE])
  rw [refEval_eq]
  dsimp only
  rw [en, state, refActive_refJudged d i few, hard_refJudged d i few, refNomOk_refJudged]
  rfl

theorem refEval_shows : (d.refEval i).flag (R.REF_IN_STAT_HARD i) = beyondHard d i ∧ (d.refEval i).flag (R.REF_IN_STAT_ACTIVE i) = refActive d i ∧
    (d.refEval i).qstate i = nextQ (d.flag (R.REF_IN_CFG_EN i)) (refActive d i) (beyondHard d i) (refNomOk d i) (d.qstate i) := by
  have fit : ∀ w ∈ evalStored d i, w.1.lo + w.1.w ≤ 32 := by simp [evalStored, R.REF_IN_STAT_ACTIVE, R.REF_IN_STAT_QSTATE]
  have pair : (evalStored d i).Pairwise (fun a b => apart b.1 a.1) := by simp [evalStored, apart, R.REF_IN_STAT_ACTIVE, R.REF_IN_STAT_QSTATE]
  have stored {w : Field × Nat} (h : w ∈ evalStored d i) := fld_setFlds_of_pairwise fit (refJudged d i) pair h
  rw [refEval_stores d few]
  refine ⟨(congrArg (· == 1) (fld_setFlds_of_apart fit _ ?_)).trans (hard_refJudged d i few),
    flag_of_fld ((stored (w := (R.REF_IN_STAT_ACTIVE i, b2n (refActive d i))) List.mem_cons_self).trans (b2n_mod_two _)),
    (stored (List.mem_cons_of_mem _ List.mem_cons_self)).trans (Nat.mod_eq_of_lt (nextQ_lt (fld_lt d (R.REF_IN_STAT_QSTATE i)) _))⟩
  simp [evalStored, apart, R.REF_IN_STAT_ACTIVE, R.REF_IN_STAT_QSTATE, R.REF_IN_STAT_HARD]

theorem refEval_qstate_ne {j : Nat} (other : j ≠ i) : (d.refEval i).qstate j = d.qstate j := by
  rw [refEval_stores d few]
  refine (fld_setFlds_of_addr _ _ ?_).trans (fld_refJudged_of_addr d i ?_ ?_)
  · simp only [evalStored, List.forall_mem_cons, List.not_mem_nil, false_implies, implies_true, and_true]
    simp only [R.REF_IN_STAT_ACTIVE, R.REF_IN_STAT_QSTATE]
    omega
  · simp only [R.REF_IN_STAT_QSTATE]; omega
  · simp only [R.REF_IN_STAT_QSTATE]; omega

end Eval

/-! ## Measurement and activity (R353 to R355) -/

section Acts
variable (d : Dev) (i : Nat)

theorem refMeasure_active (fofs : Int) (works : d.works refBase = true) (act : refActive d i = true) :
    d.refMeasure i fofs = (d.setFld (R.REF_IN_FOFS_FOFS i) (tc 32 (satS 32 fofs))).refFollow := if_pos (by simp [works, act])

theorem refMeasure_idle (fofs : Int) (h : d.works refBase = false ∨ refActive d i = false) : d.refMeasure i fofs = d := if_neg (by rcases h with h | h <;> simp [h])

end Acts

/-! ## A write of REF_IN_CFG (R352) -/

section Configured
variable (d : Dev) (i : Nat) (n : Nat)

/-- The fields that a write of REF_IN_CFG stores. -/
def refCfgStored (i n : Nat) : List (Field × Nat) := [(R.REF_IN_CFG_EN i, bits n 31 1), (R.REF_IN_CFG_RANK_A i, bits n 26 4), (R.REF_IN_CFG_RANK_B i, bits n 22 4),
  (R.REF_IN_CFG_EDGE i, bits n 21 1), (R.REF_IN_CFG_DIFF i, bits n 20 1), (R.REF_IN_CFG_NOM i, bits n 0 18)]

/-- The write changes the kind of the reference. -/
def kindChanges (d : Dev) (i n : Nat) : Bool :=
  d.fld (R.REF_IN_CFG_NOM i) != bits n 0 18 || d.fld (R.REF_IN_CFG_EDGE i) != bits n 21 1 || d.fld (R.REF_IN_CFG_DIFF i) != bits n 20 1

/-- An enabled reference is INVALID after a change of its kind. -/
def requalified (d : Dev) (i : Nat) (chg : Bool) : Dev := if chg && d.qstate i != 0 then d.setFld (R.REF_IN_STAT_QSTATE i) 1 else d

/-- The format of the group that a BCLK reference names is remembered. -/
def formatKept (d : Dev) (i : Nat) : Dev :=
  if 5 ≤ i ∧ i < 9 then { d with ref := { d.ref with fmts := smSet (fun _ => 0) d.ref.fmts i (d.gFmt (refGroup d i)) } } else d

theorem formatKept_shows : (formatKept d i).regs = d.regs ∧ (formatKept d i).grade = d.grade ∧ (formatKept d i).hdr = d.hdr ∧ (formatKept d i).tabs = d.tabs := by
  unfold formatKept
  split <;> exact ⟨rfl, rfl, rfl, rfl⟩

theorem refInCfg_eq (v : Word) (pin : i < 13) :
    d.refInCfg i v = (formatKept (requalified (d.setFlds (refCfgStored i v.toNat)) i (kindChanges d i v.toNat)) i).refFollow := if_neg (by omega)

theorem fld_formatKept (f : Field) : (formatKept d i).fld f = d.fld f := by
  obtain ⟨regs, grade, -, -⟩ := formatKept_shows d i
  exact fld_of_regs regs grade f

theorem requalified_hdr (chg : Bool) : (requalified d i chg).hdr = d.hdr := by
  unfold requalified
  split
  · exact setFld_hdr ..
  · rfl

theorem requalified_tabs (chg : Bool) : (requalified d i chg).tabs = d.tabs := by
  unfold requalified
  split
  · exact setFld_tabs ..
  · rfl

theorem fld_requalified (chg : Bool) {f : Field} (h : f.addr ≠ 0x70408 + 0x20 * i) : (requalified d i chg).fld f = d.fld f := by
  unfold requalified
  split
  · exact fld_setFld_of_addr d (f := R.REF_IN_STAT_QSTATE i) _ h
  · rfl

theorem requalified_keeps {chg : Bool} (h : chg = false ∨ d.qstate i = 0) : requalified d i chg = d := if_neg (by rcases h with h | h <;> simp [h])

theorem qstate_requalified {chg : Bool} (h : chg = true) (on : d.qstate i ≠ 0) : (requalified d i chg).qstate i = 1 := by
  rw [requalified, if_pos (by simp [h, on])]
  exact (fld_setFld_self d (R.REF_IN_STAT_QSTATE i) 1 (Nat.le_refl 32)).trans rfl

/-- The reference as a write of REF_IN_CFG leaves it before REF follows. -/
def refConfigured (d : Dev) (i n : Nat) : Dev := formatKept (requalified (d.setFlds (refCfgStored i n)) i (kindChanges d i n)) i

theorem fld_refConfigured {w : Field × Nat} (h : w ∈ refCfgStored i n) : (refConfigured d i n).fld w.1 = w.2 % 2 ^ w.1.w := by
  have fit : ∀ w ∈ refCfgStored i n, w.1.lo + w.1.w ≤ 32 := by
    simp [refCfgStored, R.REF_IN_CFG_EN, R.REF_IN_CFG_RANK_A, R.REF_IN_CFG_RANK_B, R.REF_IN_CFG_EDGE, R.REF_IN_CFG_DIFF, R.REF_IN_CFG_NOM]
  have pair : (refCfgStored i n).Pairwise (fun a b => apart b.1 a.1) := by
    simp [refCfgStored, apart, R.REF_IN_CFG_EN, R.REF_IN_CFG_RANK_A, R.REF_IN_CFG_RANK_B, R.REF_IN_CFG_EDGE, R.REF_IN_CFG_DIFF, R.REF_IN_CFG_NOM]
  have row : ∀ w ∈ refCfgStored i n, w.1.addr = 0x70400 + 0x20 * i := by
    simp [refCfgStored, R.REF_IN_CFG_EN, R.REF_IN_CFG_RANK_A, R.REF_IN_CFG_RANK_B, R.REF_IN_CFG_EDGE, R.REF_IN_CFG_DIFF, R.REF_IN_CFG_NOM]
  have here := row w h
  exact (fld_formatKept ..).trans ((fld_requalified _ i _ (by omega)).trans (fld_setFlds_of_pairwise fit d pair h))

theorem qstate_refCfg (j : Nat) : (d.setFlds (refCfgStored i n)).qstate j = d.qstate j := by
  refine fld_setFlds_of_addr _ _ ?_
  simp only [refCfgStored, List.forall_mem_cons, List.not_mem_nil, false_implies, implies_true, and_true, R.REF_IN_CFG_EN, R.REF_IN_CFG_RANK_A, R.REF_IN_CFG_RANK_B,
    R.REF_IN_CFG_EDGE, R.REF_IN_CFG_DIFF, R.REF_IN_CFG_NOM, R.REF_IN_STAT_QSTATE]
  omega

theorem qstate_refConfigured_ne {j : Nat} (other : j ≠ i) : (refConfigured d i n).qstate j = d.qstate j :=
  (fld_formatKept ..).trans ((fld_requalified _ i _ (by simp only [R.REF_IN_STAT_QSTATE]; omega)).trans (qstate_refCfg d i n j))

theorem qstate_refConfigured (chg : kindChanges d i n = true) (on : d.qstate i ≠ 0) : (refConfigured d i n).qstate i = 1 :=
  (fld_formatKept ..).trans (qstate_requalified _ i chg (by rwa [qstate_refCfg]))

theorem qstate_refConfigured_stays (h : kindChanges d i n = false ∨ d.qstate i = 0) : (refConfigured d i n).qstate i = d.qstate i := by
  have keeps := requalified_keeps (d.setFlds (refCfgStored i n)) i (h.imp_right (qstate_refCfg d i n i).trans)
  exact (fld_formatKept ..).trans ((congrArg (·.qstate i) keeps).trans (qstate_refCfg d i n i))

theorem refConfigured_keeps : (refConfigured d i n).hdr = d.hdr ∧ (refConfigured d i n).tabs = d.tabs := by
  obtain ⟨-, -, hdr, tabs⟩ := formatKept_shows (requalified (d.setFlds (refCfgStored i n)) i (kindChanges d i n)) i
  exact ⟨hdr.trans ((requalified_hdr ..).trans (setFlds_hdr ..)), tabs.trans ((requalified_tabs ..).trans (setFlds_tabs ..))⟩

theorem kindChanges_iff : kindChanges d i n = true ↔ d.fld (R.REF_IN_CFG_NOM i) ≠ bits n 0 18 ∨ d.fld (R.REF_IN_CFG_EDGE i) ≠ bits n 21 1 ∨
    d.fld (R.REF_IN_CFG_DIFF i) ≠ bits n 20 1 := by simp [kindChanges, or_assoc]

end Configured

/-! ## REF_CMD's form -/

theorem refOp_withBits (c : Cmd) {k : Nat} (few : k < 256) : RefC.op (c.withBits 16 8 k) = k := by
  have payload : (c.withBits 16 8 k).payload.toNat = setBits c.payload.toNat 0 8 k := toNat_ofNat_setBits c.payload k (by decide)
  rw [RefC.op, Cmd.u8, Cmd.bitsAt, payload]
  exact (bits_setBits_self ..).trans (Nat.mod_eq_of_lt few)

/-- REF_CMD's seven forms. -/
def refForms (c : Cmd) : List (Instr × Nat) := [(.select c, 0), (.release c, 1), (.dco c, 2), (.dcoOff c, 3), (.phaseStep c, 4), (.realign c, 5), (.requalify c, 6)]

theorem makes_refForm {s : State} {c0 : Cmd} {k : Nat} {i : Instr} (form : (i, k) ∈ refForms c0) (code : (c0.withBits 16 8 k).code = BitVec.ofNat 8 Opcode.refCmd.code)
    {d : Dev} (row : s.dev.row .refCmd (c0.withBits 16 8 k) = d) : Makes i s d := by
  simp only [refForms, List.mem_cons, Prod.mk.injEq, List.not_mem_nil, or_false] at form
  rcases form with ⟨rfl, rfl⟩ | ⟨rfl, rfl⟩ | ⟨rfl, rfl⟩ | ⟨rfl, rfl⟩ | ⟨rfl, rfl⟩ | ⟨rfl, rfl⟩ | ⟨rfl, rfl⟩
  · exact makes_row s c0 (.refCmd, .select, (·.withBits 16 8 0)) (by simp [tickRows]) code _ row
  · exact makes_row s c0 (.refCmd, .release, (·.withBits 16 8 1)) (by simp [tickRows]) code _ row
  · exact makes_row s c0 (.refCmd, .dco, (·.withBits 16 8 2)) (by simp [tickRows]) code _ row
  · exact makes_row s c0 (.refCmd, .dcoOff, (·.withBits 16 8 3)) (by simp [tickRows]) code _ row
  · exact makes_row s c0 (.refCmd, .phaseStep, (·.withBits 16 8 4)) (by simp [tickRows]) code _ row
  · exact makes_row s c0 (.refCmd, .realign, (·.withBits 16 8 5)) (by simp [tickRows]) code _ row
  · exact makes_row s c0 (.refCmd, .requalify, (·.withBits 16 8 6)) (by simp [tickRows]) code _ row

section RefCmd
variable {s : State} {c0 : Cmd} {k : Nat} {i : Instr} (form : (i, k) ∈ refForms c0) (applies : s.dev.applies .refCmd (c0.withBits 16 8 k))
include form applies

/-- A REF_CMD that completes as it applies. -/
theorem makes_refCmd {p : Cpl} {e : Dev} (acts : refCmd (s.dev.unqueue (c0.withBits 16 8 k)) (c0.withBits 16 8 k)
      ((s.dev.unqueue (c0.withBits 16 8 k)).isLate (c0.withBits 16 8 k)) = (some p, e)) : Makes i s (e.ends (c0.withBits 16 8 k) p) :=
  makes_refForm form applies.1 (row_done (by decide) applies
    ((congrArg (refCmd _ _) (cmdLate_of_other (by decide) (by decide) (s.dev.unqueue (c0.withBits 16 8 k)) (c0.withBits 16 8 k))).trans acts))

/-- A REF_CMD that completes later. -/
theorem makes_refCmd_unfinished {e : Dev} (acts : refCmd (s.dev.unqueue (c0.withBits 16 8 k)) (c0.withBits 16 8 k)
      ((s.dev.unqueue (c0.withBits 16 8 k)).isLate (c0.withBits 16 8 k)) = (none, e)) : Makes i s e.afterCommands :=
  makes_refForm form applies.1 (row_unfinished (by decide) applies
    ((congrArg (refCmd _ _) (cmdLate_of_other (by decide) (by decide) (s.dev.unqueue (c0.withBits 16 8 k)) (c0.withBits 16 8 k))).trans acts))

end RefCmd

section Requalify
variable {d : Dev} {c : Cmd} (late : Bool) (op : RefC.op c = 6)
include op

theorem refCmd_requalify_unknown (h : 13 < RefC.ref c) : refCmd d c late = (some (.bad 2), d) := by
  have detail : refDetail d c = some 2 := by
    rw [refDetail, op]
    exact (if_neg (by omega)).trans (if_pos (.inr (.inr (.inr ⟨rfl, h⟩))))
  rw [refCmd, detail]

theorem refCmd_requalify (h : RefC.ref c ≤ 13) : refCmd d c late = (some ⟨lateOk late, 0, 0⟩, refRequalify d c) := by
  have detail : refDetail d c = none := by
    rw [refDetail, op]
    exact (if_neg (by omega)).trans ((if_neg (by omega)).trans (if_neg (by omega)))
  rw [refCmd, detail, op]
  rfl

end Requalify

theorem exec_refMeasure (r : Fin 14) (x : Int) (s : State) : exec (.refMeasure r x) s = s.act (·.refMeasure r.val x) := rfl
theorem exec_refActivityLoss (r : Fin 5) (s : State) : exec (.refActivityLoss r) s = s.act (·.refActivity r.val false) := rfl
theorem exec_refActivityReturn (r : Fin 5) (s : State) : exec (.refActivityReturn r) s = s.act (·.refActivity r.val true) := rfl
theorem exec_qual (r : Fin 14) (s : State) : exec (.qual r) s = s.act (·.refQual r.val) := rfl
theorem exec_disqual (r : Fin 14) (s : State) : exec (.disqual r) s = s.act (·.refDisqual r.val) := rfl
theorem exec_refInCfgWrite (r : Fin 14) (v : Word) (s : State) : exec (.refInCfgWrite r v) s = s.act (·.refInCfg r.val v) := rfl

/-- Settles O46: the judgement by the state it gives, the rest by what each operation stores. -/
theorem referencesQualifyAsR355Says : Obligations.ReferencesQualifyAsR355Says := by
  unfold Obligations.ReferencesQualifyAsR355Says
  refine ⟨fun d i few => ?eval, fun s r fofs => ?measure, fun s r => ?activity, fun s r => ?qual, fun s r v => ?cfg, fun s c0 => ?requalify⟩
  case eval =>
    intro e hard
    obtain ⟨limit, active, state⟩ := refEval_shows d few
    refine ⟨limit, active, fun off => ?_, fun on => ⟨fun lost => ?_, fun below beyond => ?_, fun low act within nom => ?_, fun two act within => ?_,
      fun three act => ?_⟩, fun j other => refEval_qstate_ne d few other⟩
    · rw [state, off, nextQ_disabled]
    · rw [state, on, lost]
      exact nextQ_lost (fld_lt d (R.REF_IN_STAT_QSTATE i))
    · rw [state, on, show beyondHard d i = true from beyond, nextQ_beyond below]
    · rw [state, on, act, show beyondHard d i = false from within, nom, nextQ_validates low]
    · rw [state, on, act, show beyondHard d i = false from within, two, nextQ_stays]
    · rw [state, on, act, three, nextQ_qualified]
  case measure =>
    exact ⟨fun works act => makes_of _ (exec_refMeasure r fofs s) (refMeasure_active _ _ fofs works act),
      fun idle => makes_of _ (exec_refMeasure r fofs s) (refMeasure_idle _ _ fofs idle)⟩
  case activity =>
    exact ⟨fun works => ⟨makes_of _ (exec_refActivityLoss r s) (if_pos works), makes_of _ (exec_refActivityReturn r s) (if_pos works)⟩,
      fun off => ⟨makes_of _ (exec_refActivityLoss r s) (if_neg (by simp [off])), makes_of _ (exec_refActivityReturn r s) (if_neg (by simp [off]))⟩⟩
  case qual =>
    refine ⟨fun works two => makes_of _ (exec_qual r s) (if_pos (by simp [works, two])),
      fun works three hard => makes_of _ (exec_disqual r s) (if_pos (by simp [works, three, hard])),
      fun other => makes_of _ (exec_qual r s) (if_neg (by simp [other])), fun h => makes_of _ (exec_disqual r s) (if_neg ?_)⟩
    rcases h with h | h <;> simp [h]
  case cfg =>
    intro d n kind
    have stores {w : Field × Nat} (h : w ∈ refCfgStored r.val n) := fld_refConfigured d r.val n h
    refine ⟨fun tether => makes_of _ (exec_refInCfgWrite r v s) (if_pos tether), fun pin => ⟨refConfigured d r.val n,
      makes_of _ (exec_refInCfgWrite r v s) (refInCfg_eq d r.val v pin), ?_, ?_, ?_, ?_, ?_, ?_, fun changes => ?_, fun stays => ?_,
      fun j other => qstate_refConfigured_ne d r.val n other, refConfigured_keeps ..⟩⟩
    · exact (stores (w := (R.REF_IN_CFG_EN r.val, bits n 31 1)) (by simp [refCfgStored])).trans (Nat.mod_eq_of_lt (bits_lt ..))
    · exact (stores (w := (R.REF_IN_CFG_RANK_A r.val, bits n 26 4)) (by simp [refCfgStored])).trans (Nat.mod_eq_of_lt (bits_lt ..))
    · exact (stores (w := (R.REF_IN_CFG_RANK_B r.val, bits n 22 4)) (by simp [refCfgStored])).trans (Nat.mod_eq_of_lt (bits_lt ..))
    · exact (stores (w := (R.REF_IN_CFG_EDGE r.val, bits n 21 1)) (by simp [refCfgStored])).trans (Nat.mod_eq_of_lt (bits_lt ..))
    · exact (stores (w := (R.REF_IN_CFG_DIFF r.val, bits n 20 1)) (by simp [refCfgStored])).trans (Nat.mod_eq_of_lt (bits_lt ..))
    · exact (stores (w := (R.REF_IN_CFG_NOM r.val, bits n 0 18)) (by simp [refCfgStored])).trans (Nat.mod_eq_of_lt (bits_lt ..))
    · exact qstate_refConfigured d r.val n ((kindChanges_iff ..).2 changes)
    · refine qstate_refConfigured_stays d r.val n (stays.imp_left fun same => ?_)
      exact Bool.eq_false_iff.2 fun changes => same ((kindChanges_iff ..).1 changes)
  case requalify =>
    intro c applies d ok
    have form : (Instr.requalify c0, 6) ∈ refForms c0 := by simp [refForms]
    have op : RefC.op c = 6 := refOp_withBits c0 (by decide)
    have done {e : Dev} (known : RefC.ref c ≤ 13) (h : refRequalify d c = e) : Makes (.requalify c0) s (e.ends c ok) :=
      makes_refCmd form applies ((refCmd_requalify _ op known).trans (congrArg (Prod.mk _) h))
    refine ⟨fun unknown => makes_refCmd form applies (refCmd_requalify_unknown _ op unknown), fun pin on => done (by omega) (if_pos ⟨pin, on⟩), fun h => ?_⟩
    rcases h with tether | ⟨pin, off⟩
    · exact done (by omega) (if_neg (by omega))
    · exact done (by omega) (if_neg fun both => both.2 off)

end Sys2Proof.Proofs
end

section
/-! DPLLs and realignments (12 R359 to R378). Settles O47. -/
namespace Sys2Proof.Proofs
open Sys2Proof.Machine Sys2Proof.Laws

/-! ## DPLLs (R361 to R366, R378) -/

theorem dpll_setDpll_self (d : Dev) (p : Nat) (x : Dpll) : (d.setDpll p x).dpll p = x := by
  unfold Dev.dpll Dev.setDpll
  by_cases h : p = 0
  · simp only [if_pos h]
  · simp only [if_neg h]

theorem dpll_setDpll_other (d : Dev) {t : Nat} (h : t ≤ 1) (x : Dpll) : (d.setDpll t x).dpll (1 - t) = d.dpll (1 - t) := by
  rcases (show t = 0 ∨ t = 1 by omega) with rfl | rfl <;> rfl

theorem dpll_of_ref {d e : Dev} (h : e.ref = d.ref) (p : Nat) : e.dpll p = d.dpll p := by rw [Dev.dpll, h, Dev.dpll]

/-- The mean that LOCKED leaves behind (R378). -/
def meanLeft (d : Dev) (p : Nat) : Dev := match (d.dpll p).mean with
  | some m => d.setFld (R.DPLL_AVG_AVG p) (tc 32 (satS 32 m))
  | none => d

/-- What leaving LOCKED does before the new state is stored. -/
def leftLocked (d : Dev) (p : Nat) : Dev := if p = 0 then (meanLeft d p).tripMaskable R.TTH_CTL_UNLOCK_TRIP else meanLeft d p

theorem dpllState_locks (d : Dev) {p : Nat} (h : d.dpllSt p = 2) :
    d.dpllState p 3 = (d.setFld (R.DPLL_STAT_STATE p) 3).raise F.refLockChg := by
  unfold Dev.dpllState
  rw [h]
  rfl

theorem dpllState_unlocks (d : Dev) {p : Nat} (h : d.dpllSt p = 3) :
    d.dpllState p 2 = ((leftLocked d p).setFld (R.DPLL_STAT_STATE p) 2).raise F.refLockChg := by
  unfold Dev.dpllState leftLocked meanLeft
  rw [h]
  cases (d.dpll p).mean with
  | none => by_cases first : p = 0 <;> simp [first, Dev.raiseIf]
  | some m => by_cases first : p = 0 <;> simp [first, Dev.raiseIf]

theorem dpllLock_locks (d : Dev) (p : Nat) (works : d.works refBase = true) (h : d.dpllSt p = 2) :
    d.dpllLock p = ((d.setFld (R.DPLL_STAT_STATE p) 3).raise F.refLockChg).setDpll p
      { d.dpll p with locked := true, err := clampI (-(d.fld (R.DPLL_LOCK_THR p) * (25 * 10 ^ 16))) (d.fld (R.DPLL_LOCK_THR p) * (25 * 10 ^ 16)) (d.dpll p).err } := by
  have same : ((d.setFld (R.DPLL_STAT_STATE p) 3).raise F.refLockChg).dpll p = d.dpll p :=
    dpll_of_ref ((raise_ref ..).trans (setFld_ref ..)) p
  rw [Dev.dpllLock, if_pos (by simp [works, h]), dpllState_locks d h]
  dsimp only
  rw [same]

theorem dpllUnlock_unlocks (d : Dev) (p : Nat) (works : d.works refBase = true) (h : d.dpllSt p = 3) :
    d.dpllUnlock p = ((((leftLocked d p).setFld (R.DPLL_STAT_STATE p) 2).raise F.refLockChg).dpllFresh p (d.fld (R.DPLL_STAT_SEL p))).refFollow := by
  rw [Dev.dpllUnlock, if_pos (by simp [works, h]), dpllState_unlocks d h]

/-- An offset within a period differs from what it was by whole periods. -/
theorem wrapPhase_within (q : Nat) (off : Int) (some' : 0 < q) :
    -(q : Int) < 2 * wrapPhase q off ∧ 2 * wrapPhase q off ≤ q ∧ (off - wrapPhase q off) % q = 0 := by
  have low := Int.emod_nonneg off (show (q : Int) ≠ 0 by omega)
  have high := Int.emod_lt_of_pos off (show (0 : Int) < q by omega)
  have whole := Int.emod_emod_of_dvd off (dvd_refl (q : Int))
  unfold wrapPhase
  rw [Nat.max_eq_right some']
  dsimp only
  have exact' : (off - off % q) % q = 0 := by rw [Int.sub_emod, whole, sub_self, Int.zero_emod]
  split_ifs
  · refine ⟨by omega, by omega, ?_⟩
    rw [show off - (off % q - q) = off - off % q + q by omega, Int.add_emod_right, exact']
  · exact ⟨by omega, by omega, exact'⟩

/-! ## DPLL_CTL and DPLL_FB (R365, R378) -/

theorem raise_hdr_of_hdr {d e : Dev} (h : e.hdr = d.hdr) (f : Flag) : (e.raise f).hdr = (d.raise f).hdr := by
  have en : e.effEn f.base = d.effEn f.base := by simp only [Dev.effEn, Dev.hd, h]
  unfold Dev.raise
  rw [en]
  split
  · simp only [Dev.setHd, Dev.hd, h]
  · exact h

/-- REVERTIVE of DPLL-B stored, and FAMILY stored or refused. -/
def ctlFamily (d : Dev) (n : Nat) : Dev :=
  if !d.flag (R.DPLL_CTL_EN 1) then (d.setFld (R.DPLL_CTL_REVERTIVE 1) (bits n 30 1)).setFld (R.DPLL_CTL_FAMILY 1) (bits n 29 1)
  else (d.setFld (R.DPLL_CTL_REVERTIVE 1) (bits n 30 1)).raiseIf (d.fld (R.DPLL_CTL_FAMILY 1) != bits n 29 1) F.refCfgRefused

theorem dpllCtl_first (d : Dev) (v : Word) : d.dpllCtl 0 v = (d.setFld (R.DPLL_CTL_REVERTIVE 0) (bits v.toNat 30 1)).refFollow := by
  unfold Dev.dpllCtl
  exact if_pos rfl

theorem dpllCtl_second (d : Dev) (v : Word) : d.dpllCtl 1 v = ((ctlFamily d v.toNat).setFld (R.DPLL_CTL_EN 1) (bits v.toNat 31 1)).refFollow := by
  unfold Dev.dpllCtl ctlFamily
  exact if_neg one_ne_zero

section Ctl
variable (d : Dev) (n : Nat)

theorem ctlFamily_disabled (off : d.flag (R.DPLL_CTL_EN 1) = false) : ctlFamily d n =
    (d.setFld (R.DPLL_CTL_REVERTIVE 1) (bits n 30 1)).setFld (R.DPLL_CTL_FAMILY 1) (bits n 29 1) := if_pos (by simp [off])

theorem ctlFamily_enabled (on : d.flag (R.DPLL_CTL_EN 1) = true) : ctlFamily d n =
    (d.setFld (R.DPLL_CTL_REVERTIVE 1) (bits n 30 1)).raiseIf (d.fld (R.DPLL_CTL_FAMILY 1) != bits n 29 1) F.refCfgRefused := if_neg (by simp [on])

theorem fld_ctlFamily {f : Field} (h : apart (R.DPLL_CTL_FAMILY 1) f) : (ctlFamily d n).fld f = (d.setFld (R.DPLL_CTL_REVERTIVE 1) (bits n 30 1)).fld f := by
  unfold ctlFamily
  split
  · exact fld_setFld_ne _ (R.DPLL_CTL_FAMILY 1) _ _ (by decide) h
  · exact fld_raiseIf ..

theorem family_ctlFamily : (ctlFamily d n).fld (R.DPLL_CTL_FAMILY 1) =
    if d.flag (R.DPLL_CTL_EN 1) = true then d.fld (R.DPLL_CTL_FAMILY 1) else bits n 29 1 := by
  by_cases on : d.flag (R.DPLL_CTL_EN 1) = true
  · rw [if_pos on, ctlFamily_enabled d n on, fld_raiseIf]
    exact fld_setFld_ne _ (R.DPLL_CTL_REVERTIVE 1) _ _ (by decide) (.inr (.inl (by decide)))
  · rw [if_neg on, ctlFamily_disabled d n (by simpa using on)]
    exact (fld_setFld_self _ (R.DPLL_CTL_FAMILY 1) _ (by decide)).trans (Nat.mod_eq_of_lt (bits_lt ..))

theorem ctlFamily_keeps : (ctlFamily d n).ref = d.ref ∧ (ctlFamily d n).tabs = d.tabs := by
  unfold ctlFamily
  split
  · exact ⟨(setFld_ref ..).trans (setFld_ref ..), (setFld_tabs ..).trans (setFld_tabs ..)⟩
  · exact ⟨(raiseIf_ref ..).trans (setFld_ref ..), (raiseIf_tabs ..).trans (setFld_tabs ..)⟩

theorem ctlFamily_accepts (h : d.flag (R.DPLL_CTL_EN 1) = false ∨ d.fld (R.DPLL_CTL_FAMILY 1) = bits n 29 1) : (ctlFamily d n).hdr = d.hdr := by
  rcases Bool.eq_false_or_eq_true (d.flag (R.DPLL_CTL_EN 1)) with on | off
  · rw [ctlFamily_enabled d n on, h.resolve_left (by simp [on])]
    simp [Dev.raiseIf]
  · rw [ctlFamily_disabled d n off]
    exact (setFld_hdr ..).trans (setFld_hdr ..)

theorem ctlFamily_refuses (on : d.flag (R.DPLL_CTL_EN 1) = true) (differs : d.fld (R.DPLL_CTL_FAMILY 1) ≠ bits n 29 1) :
    (ctlFamily d n).hdr = (d.raise F.refCfgRefused).hdr := by
  rw [ctlFamily_enabled d n on, Dev.raiseIf, if_pos (by simp [differs])]
  exact raise_hdr_of_hdr (setFld_hdr ..) _

end Ctl

/-- The anchor of a free-running DPLL moves. -/
def anchorMoves (d : Dev) (p : Nat) : Dev := if d.fld (R.DPLL_STAT_STATE p) = 1 then d.setDpll p { d.dpll p with moving := true } else d

theorem dpllFb_eq (d : Dev) (p : Nat) (v : Word) : d.dpllFb p v = (anchorMoves (d.setFld (R.DPLL_FB_FB p) (pptClamp v.toNat)) p).refFollow := rfl

theorem reg_anchorMoves (d : Dev) (p a : Nat) : (anchorMoves d p).reg a = d.reg a := by
  unfold anchorMoves
  split <;> rfl

theorem sx_pptClamp (v : Nat) : sx 32 (pptClamp v % 2 ^ 32) = clampI (-500000000) 500000000 (sx 32 v) := by
  have := clampI_between (sx 32 v) (show (-500000000 : Int) ≤ 500000000 by omega)
  exact sx_tc_32 (by omega)

/-! ## REF_CMD (R359, R366) -/

section Commands
variable {d : Dev} {c : Cmd} (late : Bool)

theorem refDetail_unknown (op : RefC.op c ≤ 4) (h : 1 < RefC.target c ∨ RefC.op c = 0 ∧ 12 < RefC.ref c) : refDetail d c = some 2 :=
  (if_neg (by omega)).trans (if_pos (h.elim (fun t => .inl ⟨op, t⟩) fun r => .inr (.inl r)))

theorem refDetail_disabled (op : RefC.op c ≤ 4) (known : ¬ (1 < RefC.target c ∨ RefC.op c = 0 ∧ 12 < RefC.ref c))
    (h : (RefC.target c = 1 ∧ d.flag (R.DPLL_CTL_EN 1) = false) ∨ (RefC.op c = 4 ∧ (d.dpll (RefC.target c)).dco = false)) : refDetail d c = some 7 :=
  (if_neg (by omega)).trans ((if_neg (by omega)).trans (if_pos (by simpa [op] using h)))

theorem refDetail_passes (op : RefC.op c ≤ 4) (known : ¬ (1 < RefC.target c ∨ RefC.op c = 0 ∧ 12 < RefC.ref c))
    (able : ¬ ((RefC.target c = 1 ∧ d.flag (R.DPLL_CTL_EN 1) = false) ∨ (RefC.op c = 4 ∧ (d.dpll (RefC.target c)).dco = false))) : refDetail d c = none :=
  (if_neg (by omega)).trans ((if_neg (by omega)).trans (if_neg (by simpa [op] using able)))

theorem refCmd_refused {n : Nat} (h : refDetail d c = some n) : refCmd d c late = (some (.bad n), d) := by rw [refCmd, h]

/-- What a REF_CMD that passes its checks does. -/
def refActs (d : Dev) (c : Cmd) : Nat → Dev
  | 0 => refSelect d c
  | 1 => refRelease d c
  | 2 => refDco d c
  | 3 => refDcoOff d c
  | _ => refStep d c

theorem refCmd_acts {k : Nat} (op : RefC.op c = k) (few : k ≤ 4) (passes : refDetail d c = none) :
    refCmd d c late = (some ⟨lateOk late, 0, 0⟩, refActs d c k) := by
  rw [refCmd, passes, op]
  match k with
  | 0 | 1 | 2 | 3 | 4 => rfl

theorem refDetail_realign (op : RefC.op c = 5) : refDetail d c =
    if RefC.ref c ∉ refEdges ∨ RefC.target c = 0 ∨ 7 < RefC.target c then some 2 else none := by
  unfold refDetail
  rw [op]
  refine (if_neg (by decide)).trans ?_
  by_cases bad : RefC.ref c ∉ refEdges ∨ RefC.target c = 0 ∨ 7 < RefC.target c
  · rw [if_pos bad]
    exact if_pos (.inr (.inr (.inl ⟨rfl, by simpa using bad⟩)))
  · rw [if_neg bad, if_neg (by simpa using bad), if_neg (by omega)]

theorem refCmd_realign (op : RefC.op c = 5) (passes : refDetail d c = none) : refCmd d c late =
    (none, { d with ref := { d.ref with realigns := d.ref.realigns ++ [⟨c, late, d.tbu.now⟩] } }) := by
  rw [refCmd, passes, op]
  rfl

end Commands

/-! ## Realignments (R370) -/

theorem target_withBits (c : Cmd) {k : Nat} (few : k < 256) : RefC.target (c.withBits 17 8 k) = k := op_withBits c few

section Place
variable (d : Dev) (i : Nat)

/-- The realignments that wait for the edge. -/
def realignHits (d : Dev) (i : Nat) : List Realign := d.ref.realigns.filter (fun e => RefC.ref e.cmd == i)

/-- An edge ends the realignment. -/
def realignGone (whole : Bool) (i : Nat) (x : Realign) : Bool := RefC.ref x.cmd == i && RefC.target (realignLeft whole x.cmd) == 0

/-- The realignments that still wait after an edge. -/
def realignStay (d : Dev) (i : Nat) : List Realign :=
  (d.ref.realigns.filter (fun e => !realignGone (d.wholeEdge i) i e)).map
    (fun e => if RefC.ref e.cmd == i then { e with cmd := realignLeft (d.wholeEdge i) e.cmd } else e)

/-- The edge to which each output is aligned. -/
def realignTo (whole : Bool) (hit : List Realign) (i : Nat) (m : SMap Nat) (k : Nat) : SMap Nat :=
  if realignNow whole hit k then smSet (fun _ => 0) m k (1 + i) else m

/-- The divider of an output after an edge. -/
def outAfter (d : Dev) (i : Nat) (k : Nat) (x : OutDiv) : OutDiv :=
  if k != 2 && k != 3 && realignNow (d.wholeEdge i) (realignHits d i) (min k 2) then ⟨0, outSetting d k⟩ else x

/-- PPS_OUT's edges are counted. -/
def ppsPlaced (d : Dev) (i : Nat) : Dev :=
  if realignNow (d.wholeEdge i) (realignHits d i) 2 then { d with fmn := { d.fmn with pps := d.fmn.pps + 1 } } else d

/-- The part after an edge that realignments wait for, before REALIGNED. -/
def realignPlaced (d : Dev) (i : Nat) : Dev :=
  { ppsPlaced d i with ref := { (ppsPlaced d i).ref with
      realigns := realignStay d i
      placed := (ppsPlaced d i).ref.placed ++ ((realignHits d i).filter (realignGone (d.wholeEdge i) i)).map (fun e => (e.cmd, e.late))
      aligned := [0, 1, 2].foldl (realignTo (d.wholeEdge i) (realignHits d i) i) d.ref.aligned
      outs := d.ref.outs.mapIdx (outAfter d i) } }

theorem realignPlace_edge (works : d.works refBase = true) (some' : ∃ x ∈ d.ref.realigns, RefC.ref x.cmd = i) :
    d.realignPlace i = (realignPlaced d i).raiseIf ((realignHits d i).any (realignGone (d.wholeEdge i) i)) F.realigned := by
  obtain ⟨x, waits, ref⟩ := some'
  have hit : (realignHits d i).isEmpty = false := List.isEmpty_eq_false_iff.2 (List.ne_nil_of_mem (List.mem_filter.2 ⟨waits, by simp [ref]⟩))
  unfold Dev.realignPlace
  exact if_neg (by simp [works, show (d.ref.realigns.filter (fun e => RefC.ref e.cmd == i)).isEmpty = false from hit])

theorem realignPlace_idle (h : d.works refBase = false ∨ ∀ x ∈ d.ref.realigns, ¬ RefC.ref x.cmd = i) : d.realignPlace i = d := by
  unfold Dev.realignPlace
  refine if_pos ?_
  rcases h with off | none
  · simp [off]
  · simpa using .inl none

theorem realignGone_iff (whole : Bool) (x : Realign) : realignGone whole i x = true ↔ RefC.ref x.cmd = i ∧ (whole = true ∨ RefC.target x.cmd < 4) := by
  have few : RefC.target x.cmd < 2 ^ 8 := bits_lt ..
  cases whole
  · have left : RefC.target (realignLeft false x.cmd) = RefC.target x.cmd / 4 * 4 := target_withBits _ (by omega)
    simp [realignGone, left]
  · have left : RefC.target (realignLeft true x.cmd) = 0 := target_withBits _ (by decide)
    simp [realignGone, left]

theorem mem_realignHits (x : Realign) : x ∈ realignHits d i ↔ x ∈ d.ref.realigns ∧ RefC.ref x.cmd = i := by simp [realignHits]

theorem realignNow_iff (whole : Bool) (k : Nat) : realignNow whole (realignHits d i) k = true ↔
    (k ≠ 2 ∨ whole = true) ∧ ∃ x ∈ d.ref.realigns, RefC.ref x.cmd = i ∧ bitAt (RefC.target x.cmd) k = true := by
  simp [realignNow, mem_realignHits, and_assoc, or_comm]

theorem mem_realignStay (x : Realign) : x ∈ realignStay d i ↔ (x ∈ d.ref.realigns ∧ ¬ RefC.ref x.cmd = i) ∨
    ∃ y ∈ d.ref.realigns, RefC.ref y.cmd = i ∧ ¬ (RefC.ref y.cmd = i ∧ (d.wholeEdge i = true ∨ RefC.target y.cmd < 4)) ∧
      x = { y with cmd := y.cmd.withBits 17 8 (RefC.target y.cmd / 4 * 4) } := by
  simp only [realignStay, List.mem_map, List.mem_filter, Bool.not_eq_true', Bool.eq_false_iff, Ne, realignGone_iff, beq_iff_eq]
  constructor
  · rintro ⟨y, ⟨waits, stays⟩, rfl⟩
    split
    next here =>
      have part : d.wholeEdge i = false := Bool.eq_false_iff.2 fun whole => stays ⟨here, .inl whole⟩
      exact .inr ⟨y, waits, here, stays, by rw [part]; rfl⟩
    next other => exact .inl ⟨waits, other⟩
  · rintro (⟨waits, other⟩ | ⟨y, waits, here, stays, rfl⟩)
    · exact ⟨x, ⟨waits, fun gone => other gone.1⟩, if_neg other⟩
    · have part : d.wholeEdge i = false := Bool.eq_false_iff.2 fun whole => stays ⟨here, .inl whole⟩
      exact ⟨y, ⟨waits, stays⟩, by rw [if_pos here, part]; rfl⟩

theorem ppsPlaced_keeps : (ppsPlaced d i).ref = d.ref ∧ (ppsPlaced d i).regs = d.regs ∧ (ppsPlaced d i).hdr = d.hdr ∧ (ppsPlaced d i).hostMem = d.hostMem := by
  unfold ppsPlaced
  split <;> exact ⟨rfl, rfl, rfl, rfl⟩

theorem realignPlaced_keeps : (realignPlaced d i).regs = d.regs ∧ (realignPlaced d i).hdr = d.hdr ∧ (realignPlaced d i).hostMem = d.hostMem :=
  (ppsPlaced_keeps d i).2

theorem realignPlaced_pps : (realignPlaced d i).fmn.pps = d.fmn.pps + if realignNow (d.wholeEdge i) (realignHits d i) 2 = true then 1 else 0 := by
  show (ppsPlaced d i).fmn.pps = _
  unfold ppsPlaced
  split <;> rfl

theorem mem_placed (x : Cmd × Bool) : x ∈ (realignPlaced d i).ref.placed ↔ x ∈ d.ref.placed ∨
    ∃ y ∈ d.ref.realigns, (RefC.ref y.cmd = i ∧ (d.wholeEdge i = true ∨ RefC.target y.cmd < 4)) ∧ x = (y.cmd, y.late) := by
  show x ∈ (ppsPlaced d i).ref.placed ++ _ ↔ _
  rw [(ppsPlaced_keeps d i).1, List.mem_append, List.mem_map]
  simp only [List.mem_filter, mem_realignHits, realignGone_iff]
  refine or_congr_right ⟨?_, ?_⟩
  · rintro ⟨y, ⟨⟨waits, here⟩, gone⟩, rfl⟩
    exact ⟨y, waits, gone, rfl⟩
  · rintro ⟨y, waits, gone, rfl⟩
    exact ⟨y, ⟨⟨waits, gone.1⟩, gone⟩, rfl⟩

theorem realignTo_ne (whole : Bool) (hit : List Realign) (m : SMap Nat) {k j : Nat} (other : j ≠ k) :
    smGet (fun _ => 0) (realignTo whole hit i m k) j = smGet (fun _ => 0) m j := by
  unfold realignTo
  split
  · exact smGet_smSet_ne _ _ _ other
  · rfl

theorem realignTo_now {whole : Bool} {hit : List Realign} (m : SMap Nat) {k : Nat} (now : realignNow whole hit k = true) :
    smGet (fun _ => 0) (realignTo whole hit i m k) k = 1 + i := by
  rw [realignTo, if_pos now]
  exact smGet_smSet_self ..

theorem realignTo_later {whole : Bool} {hit : List Realign} (m : SMap Nat) {k : Nat} (later : ¬ realignNow whole hit k = true) : realignTo whole hit i m k = m := if_neg later

/-- Each output is aligned by its own step of the fold. -/
theorem aligned_placed {k : Nat} (few : k < 3) : smGet (fun _ => 0) (realignPlaced d i).ref.aligned k =
    smGet (fun _ => 0) (realignTo (d.wholeEdge i) (realignHits d i) i d.ref.aligned k) k := by
  show smGet _ (realignTo _ _ i (realignTo _ _ i (realignTo _ _ i d.ref.aligned 0) 1) 2) k = _
  have step (m : SMap Nat) {j : Nat} := realignTo_ne i (d.wholeEdge i) (realignHits d i) m (k := j) (j := k)
  have self {m m' : SMap Nat} (h : smGet (fun _ => 0) m k = smGet (fun _ => 0) m' k) :
      smGet (fun _ => 0) (realignTo (d.wholeEdge i) (realignHits d i) i m k) k = smGet (fun _ => 0) (realignTo (d.wholeEdge i) (realignHits d i) i m' k) k := by
    by_cases now : realignNow (d.wholeEdge i) (realignHits d i) k = true
    · rw [realignTo_now i m now, realignTo_now i m' now]
    · rw [realignTo_later i m now, realignTo_later i m' now, h]
  rcases (show k = 0 ∨ k = 1 ∨ k = 2 by omega) with rfl | rfl | rfl
  · rw [step _ (by decide), step _ (by decide)]
  · rw [step _ (by decide)]
    exact self (step _ (by decide))
  · exact self ((step _ (by decide)).trans (step _ (by decide)))

theorem outs_placed {k : Nat} {x : OutDiv} (h : d.ref.outs[k]? = some x) : (realignPlaced d i).ref.outs[k]? = some (outAfter d i k x) := by
  show (d.ref.outs.mapIdx (outAfter d i))[k]? = _
  rw [List.getElem?_mapIdx, h]
  rfl

/-- The realignment has waited for 2 s. -/
def realignOld (d : Dev) (i : Nat) (x : Realign) : Bool := RefC.ref x.cmd == i && decide (x.since + 1000000000 ≤ d.tbu.now)

theorem realignOld_iff (x : Realign) : realignOld d i x = true ↔ RefC.ref x.cmd = i ∧ x.since + 1000000000 ≤ d.tbu.now := by simp [realignOld]

theorem realignTimeout_eq : d.realignTimeout i = (d.ref.realigns.filter (realignOld d i)).foldl (fun d e => d.complete e.cmd (Cpl.bad 9))
    { d with ref := { d.ref with realigns := d.ref.realigns.filter (fun e => !realignOld d i e) } } := rfl

theorem realignTimeout_young (h : ∀ x ∈ d.ref.realigns, ¬ realignOld d i x = true) : d.realignTimeout i = d := by
  have none : d.ref.realigns.filter (realignOld d i) = [] := List.filter_eq_nil_iff.2 h
  have all : d.ref.realigns.filter (fun e => !realignOld d i e) = d.ref.realigns := List.filter_eq_self.2 fun x waits => by simp [h x waits]
  rw [realignTimeout_eq, none, all]
  rfl

theorem realignTimeout_old {l m : List Realign} {x : Realign} (split' : d.ref.realigns = l ++ x :: m) (old : realignOld d i x = true)
    (young : ∀ y ∈ l ++ m, ¬ realignOld d i y = true) :
    d.realignTimeout i = ({ d with ref := { d.ref with realigns := l ++ m } }).complete x.cmd (.bad 9) := by
  have young : (∀ y ∈ l, realignOld d i y = false) ∧ ∀ y ∈ m, realignOld d i y = false := by simpa [or_imp, forall_and] using young
  obtain ⟨before, after⟩ := young
  have one : d.ref.realigns.filter (realignOld d i) = [x] := by
    rw [split', List.filter_append, List.filter_cons_of_pos old, List.filter_eq_nil_iff.2 fun y h => by simp [before y h],
      List.filter_eq_nil_iff.2 fun y h => by simp [after y h]]
    rfl
  have rest : d.ref.realigns.filter (fun e => !realignOld d i e) = l ++ m := by
    rw [split', List.filter_append, List.filter_cons_of_neg (by simp [old]), List.filter_eq_self.2 fun y h => by simp [before y h],
      List.filter_eq_self.2 fun y h => by simp [after y h]]
  rw [realignTimeout_eq, one, rest]
  rfl

end Place

theorem exec_dpllLockTime (p : Fin 2) (s : State) : exec (.dpllLockTime p) s = s.act (·.dpllLock p.val) := rfl
theorem exec_dpllUnlock (p : Fin 2) (s : State) : exec (.dpllUnlock p) s = s.act (·.dpllUnlock p.val) := rfl
theorem exec_phaseStepDone (p : Fin 2) (s : State) : exec (.phaseStepDone p) s = s.act (·.phaseStepDone p.val) := rfl
theorem exec_dpllCtlWrite (p : Fin 2) (v : Word) (s : State) : exec (.dpllCtlWrite p v) s = s.act (·.dpllCtl p.val v) := rfl
theorem exec_dpllFbWrite (p : Fin 2) (v : Word) (s : State) : exec (.dpllFbWrite p v) s = s.act (·.dpllFb p.val v) := rfl
theorem exec_realignPlace (r : Fin 14) (s : State) : exec (.realignPlace r) s = s.act (·.realignPlace r.val) := rfl
theorem exec_realignTimeout (r : Fin 14) (s : State) : exec (.realignTimeout r) s = s.act (·.realignTimeout r.val) := rfl

/-- Settles O47: the DPLLs' states and registers, then REF_CMD by its forms, then realignments by their lists. -/
theorem dpllsAndRealignments : Obligations.DpllsAndRealignments := by
  unfold Obligations.DpllsAndRealignments
  refine ⟨⟨fun s p => ?states, fun s p v => ?registers, fun s c0 k i form => ?commands⟩, fun s c0 => ?realign, fun s r => ?edges⟩
  case states =>
    intro d lim
    refine ⟨fun works acquires => makes_of _ (exec_dpllLockTime p s) (dpllLock_locks d p.val works acquires), fun works locked => ⟨_,
      makes_of _ (exec_dpllUnlock p s) (dpllUnlock_unlocks d p.val works locked)⟩, wrapPhase_within,
      fun other => makes_of _ (exec_dpllLockTime p s) (if_neg fun both => ?_), fun other => makes_of _ (exec_dpllUnlock p s) (if_neg fun both => ?_),
      fun dco => makes_of _ (exec_phaseStepDone p s) (if_pos dco), fun other => makes_of _ (exec_phaseStepDone p s) (if_neg other)⟩
    · exact other (by simpa [Dev.dpllSt] using (Bool.and_eq_true_iff.1 both).2)
    · exact other (by simpa [Dev.dpllSt] using (Bool.and_eq_true_iff.1 both).2)
  case registers =>
    intro d
    refine ⟨?ctl, ?fb⟩
    case ctl =>
      rcases (show p = 0 ∨ p = 1 by omega) with rfl | rfl
      · refine ⟨_, makes_of _ (exec_dpllCtlWrite 0 v s) (dpllCtl_first d v), ?_, setFld_ref .., setFld_tabs .., fun second => absurd second (by decide)⟩
        exact (fld_setFld_self _ (R.DPLL_CTL_REVERTIVE 0) _ (by decide)).trans (Nat.mod_eq_of_lt (bits_lt ..))
      · obtain ⟨ref, tabs⟩ := ctlFamily_keeps d v.toNat
        refine ⟨_, makes_of _ (exec_dpllCtlWrite 1 v s) (dpllCtl_second d v), ?_, (setFld_ref ..).trans ref, (setFld_tabs ..).trans tabs, fun _ =>
          ⟨?_, ?_, fun h => (setFld_hdr ..).trans (ctlFamily_accepts d v.toNat h), fun on differs => (setFld_hdr ..).trans (ctlFamily_refuses d v.toNat on differs)⟩⟩
        · refine (fld_setFld_ne _ (R.DPLL_CTL_EN 1) (R.DPLL_CTL_REVERTIVE 1) _ (by decide) (by simp [apart, R.DPLL_CTL_EN, R.DPLL_CTL_REVERTIVE])).trans
            ((fld_ctlFamily d v.toNat (by simp [apart, R.DPLL_CTL_FAMILY, R.DPLL_CTL_REVERTIVE])).trans ?_)
          exact (fld_setFld_self _ (R.DPLL_CTL_REVERTIVE 1) _ (by decide)).trans (Nat.mod_eq_of_lt (bits_lt ..))
        · exact (fld_setFld_self _ (R.DPLL_CTL_EN 1) _ (by decide)).trans (Nat.mod_eq_of_lt (bits_lt ..))
        · exact (fld_setFld_ne _ (R.DPLL_CTL_EN 1) (R.DPLL_CTL_FAMILY 1) _ (by decide) (by simp [apart, R.DPLL_CTL_EN, R.DPLL_CTL_FAMILY])).trans (family_ctlFamily ..)
    case fb =>
      have kept (a : Nat) := reg_anchorMoves (d.setFld (R.DPLL_FB_FB p.val) (pptClamp v.toNat)) p.val a
      refine ⟨_, makes_of _ (exec_dpllFbWrite p v s) (dpllFb_eq d p.val v), ?_, fun free => ?_, fun r other => (kept r).trans (reg_setFld_ne _ _ _ other)⟩
      · have stored : (anchorMoves (d.setFld (R.DPLL_FB_FB p.val) (pptClamp v.toNat)) p.val).fld (R.DPLL_FB_FB p.val) = pptClamp v.toNat % 2 ^ 32 := by
          rw [Dev.fld, kept]
          exact fld_setFld_self _ (R.DPLL_FB_FB p.val) _ (Nat.le_refl 32)
        rw [stored, sx_pptClamp, sx_toNat]
      · have still : (d.setFld (R.DPLL_FB_FB p.val) (pptClamp v.toNat)).fld (R.DPLL_STAT_STATE p.val) = 1 :=
          (fld_setFld_of_addr d _ (by simp only [R.DPLL_STAT_STATE, R.DPLL_FB_FB]; omega)).trans free
        rw [anchorMoves, if_pos still, dpll_setDpll_self]
  case commands =>
    intro c applies d ok t bad2 bad7
    have forms : (i, k) ∈ refForms c0 := by
      simp only [refForms, List.mem_cons] at form ⊢
      tauto
    have few : k ≤ 4 := by
      simp only [List.mem_cons, Prod.mk.injEq, List.not_mem_nil, or_false] at form
      omega
    have op : RefC.op c = k := refOp_withBits c0 (by omega)
    have within : RefC.op c ≤ 4 := op.trans_le few
    have unknown : bad2 ↔ (1 < RefC.target c ∨ RefC.op c = 0 ∧ 12 < RefC.ref c) := by rw [op]
    have unable : bad7 ↔ ((RefC.target c = 1 ∧ d.flag (R.DPLL_CTL_EN 1) = false) ∨ (RefC.op c = 4 ∧ (d.dpll (RefC.target c)).dco = false)) := by rw [op]
    refine ⟨fun bad => makes_refCmd forms applies (refCmd_refused _ (refDetail_unknown within (unknown.1 bad))), fun known bad =>
      makes_refCmd forms applies (refCmd_refused _ (refDetail_disabled within (mt unknown.2 known) (unable.1 bad))), fun known able => ?_⟩
    have acts : Makes i s ((refActs d c k).ends c ok) :=
      makes_refCmd forms applies (refCmd_acts _ op few (refDetail_passes within (mt unknown.2 known) (mt unable.2 able)))
    have target : t ≤ 1 := by
      by_contra more
      exact known (.inl (by omega))
    refine ⟨fun select => ?_, fun release => ?_, fun dco => ?_, fun off => ?_, fun step => ?_⟩
    · rwa [select] at acts
    · rwa [release] at acts
    · rw [dco] at acts
      refine ⟨_, acts, ?_, ?_, ?_, ?_, ?_⟩
      · refine (congrArg (sx 32) (fld_setFld_self d (R.DPLL_DCO_DCO t) _ (Nat.le_refl 32))).trans ((sx_pptClamp _).trans ?_)
        have value : sx 32 (tc 32 (RefC.value c)) = RefC.value c := by
          have fits : -2 ^ 31 ≤ RefC.value c ∧ RefC.value c < 2 ^ 31 := by
            unfold RefC.value sx
            dsimp only
            split <;> omega
          rw [← Nat.mod_eq_of_lt (tc_lt 32 (RefC.value c))]
          exact sx_tc_32 fits
        rw [value]
      · rw [dpll_setDpll_self]
      · rw [dpll_setDpll_self]
      · rw [dpll_setDpll_self]
      · rw [dpll_setDpll_other _ target]
        rfl
    · rwa [off] at acts
    · rwa [step] at acts
  case realign =>
    intro c applies d bad
    have form : (Instr.realign c0, 5) ∈ refForms c0 := by simp [refForms]
    have op : RefC.op c = 5 := refOp_withBits c0 (by decide)
    exact ⟨fun h => makes_refCmd form applies (refCmd_refused _ ((refDetail_realign op).trans (if_pos h))),
      fun h => makes_refCmd_unfinished form applies (refCmd_realign _ op ((refDetail_realign op).trans (if_neg h)))⟩
  case edges =>
    intro d hit whole gone begins
    have ended (x : Realign) : realignGone whole r.val x = true ↔ gone x := realignGone_iff r.val whole x
    have now (k : Nat) : realignNow whole (realignHits d r.val) k = true ↔ begins k := realignNow_iff d r.val whole k
    refine ⟨fun works some' => ?_, fun h => makes_of _ (exec_realignPlace r s) (realignPlace_idle d r.val h), ?_⟩
    · obtain ⟨regs, hdr, mem⟩ := realignPlaced_keeps d r.val
      have any : (realignHits d r.val).any (realignGone whole r.val) = true ↔ ∃ x ∈ d.ref.realigns, gone x := by
        simp only [List.any_eq_true, ended, mem_realignHits]
        exact ⟨fun ⟨x, ⟨waits, _⟩, ends⟩ => ⟨x, waits, ends⟩, fun ⟨x, waits, ends⟩ => ⟨x, ⟨waits, ends.1⟩, ends⟩⟩
      have edge := realignPlace_edge d r.val works some'
      refine ⟨realignPlaced d r.val, fun ends => makes_of _ (exec_realignPlace r s) (edge.trans (if_pos (any.2 ends))), fun none =>
        makes_of _ (exec_realignPlace r s) (edge.trans (if_neg fun h => ?_)), mem_realignStay d r.val, mem_placed d r.val, fun k few => ⟨fun starts => ?_, fun rests => ?_⟩,
        fun k x at' => ⟨fun rests => ?_, fun two three starts => ?_⟩, ?_, regs, hdr, mem⟩
      · obtain ⟨x, waits, ends⟩ := any.1 h
        exact none x waits ends
      · rw [aligned_placed d r.val few]
        exact realignTo_now r.val _ ((now k).2 starts)
      · rw [aligned_placed d r.val few]
        exact congrArg (smGet _ · k) (realignTo_later r.val _ (mt (now k).1 rests))
      · rw [outs_placed d r.val at', outAfter, if_neg]
        intro h
        obtain ⟨⟨two, three⟩, starts⟩ : (k ≠ 2 ∧ k ≠ 3) ∧ realignNow whole (realignHits d r.val) (min k 2) = true := by simpa using h
        exact rests.elim two fun h => h.elim three fun h => h ((now _).1 starts)
      · rw [outs_placed d r.val at', outAfter, if_pos (by simpa [two, three] using (now _).2 starts)]
      · rw [realignPlaced_pps]
        refine congrArg _ (if_congr ((now 2).trans ?_) rfl rfl)
        exact ⟨fun ⟨h, x, waits, here, bit⟩ => ⟨x, waits, here, h.resolve_left (by decide), bit⟩,
          fun ⟨x, waits, here, h, bit⟩ => ⟨.inr h, x, waits, here, bit⟩⟩
    · intro old
      have waited (x : Realign) : realignOld d r.val x = true ↔ old x := realignOld_iff d r.val x
      exact ⟨fun young => makes_of _ (exec_realignTimeout r s) (realignTimeout_young d r.val fun x waits => mt (waited x).1 (young x waits)),
        fun l m x split' overdue young => makes_of _ (exec_realignTimeout r s)
          (realignTimeout_old d r.val split' ((waited x).2 overdue) fun y waits => mt (waited y).1 (young y waits))⟩

end Sys2Proof.Proofs
end

section
/-! The DSPC frequency that a level gives (17 R503, R504; 14 R451). Refutes O55. -/
namespace Sys2Proof.Proofs
open Sys2Proof.Machine Sys2Proof.Laws

/-- F7 of PWR_DSPF, as latched, is 255: 2,550 MHz at level 7. -/
def fastAtSeven : State := ⟨[], { State.reset.dev with latched := [(R.PWR_DSPF_HI_F4.addr, 0xFF000000#32)] }⟩

/-- Refutes O55: MHZ of DSP_FREQ has 11 bits, so it cannot give the 2,550 MHz of a level whose PWR_DSPF, as latched, is 255. The clamp of
PWR_DSPF to 40 to 100 stands in its write alone, and the statement speaks of every state. -/
theorem not_powerFollowsSensorsRailsAndLevels : ¬ Obligations.PowerFollowsSensorsRailsAndLevels := by
  unfold Obligations.PowerFollowsSensorsRailsAndLevels
  intro h
  obtain ⟨-, -, -, -, -, -, -, -, -, -, -, force⟩ := h fastAtSeven
  obtain ⟨-, freq⟩ := force (by decide +kernel) (by decide +kernel)
  have level : fastAtSeven.dev.levelInForce.levelNow = 7 := by decide +kernel
  have asks : 10 * dspfAt fastAtSeven.dev 7 = 2550 := by decide +kernel
  have few := fld_lt fastAtSeven.dev.levelInForce R.DSP_FREQ_MHZ
  rw [freq, level, asks] at few
  exact absurd few (by decide)

end Sys2Proof.Proofs
end

section
/-! The pad monitor (17 R509 to R514). Settles O56. -/
namespace Sys2Proof.Proofs
open Sys2Proof.Machine Sys2Proof.Laws

theorem exec_padCheck (cls : Fin 5) (idx : Fin 64) (j : Nat) (read : Bool) (s : State) :
    exec (.padCheck cls idx j read) s = s.act (·.causeAct (·.padCheck cls.val idx.val j read)) := rfl
theorem exec_pinOpenTestGo (v : Word) (s : State) : exec (.pinOpenTestGo v) s = s.act (·.openTestGo v) := rfl
theorem exec_openTestDone (l : List Nat) (s : State) : exec (.openTestDone l) s = s.act (·.causeAct (·.openTestDone l)) := rfl
theorem exec_pinFlagsClear (v : Word) (s : State) : exec (.pinFlagsClear v) s = s.act (·.pinFlagsClear v.toNat) := rfl
theorem exec_laneReversed (lane : Fin 4) (s : State) : exec (.laneReversed lane) s =
    s.act (·.causeAct (fun d => if lane.val < 2 then (d.laneReversed lane.val).laneHeld lane.val else d.laneReversed lane.val)) := rfl

theorem causeAct_eq {d e : Dev} {f : Dev → Dev} (h : f d = e) : d.causeAct f = if e.safeCauses = d.safeCauses then e else e.safeNow := by
  subst h
  rfl

theorem causeAct_of_same {d e : Dev} {f : Dev → Dev} (h : f d = e) (same : e.safeCauses = d.safeCauses) : d.causeAct f = e :=
  (causeAct_eq h).trans (if_pos same)

/-! ## A fault (R514) -/

section Fault
variable (d : Dev) (cls idx : Nat) (k : PinKind)

/-- The fields in which a fault is recorded. -/
def faultFields : List (Field × Nat) := [(R.PIN_LAST_KIND, k.code), (R.PIN_LAST_CLASS, cls), (R.PIN_LAST_INDEX, idx),
  (R.PIN_FLAGS_CLASS, setBits (d.fld R.PIN_FLAGS_CLASS) cls 1 1)]

theorem fld_faultFields {w : Field × Nat} (h : w ∈ faultFields d cls idx k) : (d.setFlds (faultFields d cls idx k)).fld w.1 = w.2 % 2 ^ w.1.w := by
  have fit : ∀ w ∈ faultFields d cls idx k, w.1.lo + w.1.w ≤ 32 := by
    simp [faultFields, R.PIN_LAST_KIND, R.PIN_LAST_CLASS, R.PIN_LAST_INDEX, R.PIN_FLAGS_CLASS]
  have pair : (faultFields d cls idx k).Pairwise (fun a b => apart b.1 a.1) := by
    simp [faultFields, apart, R.PIN_LAST_KIND, R.PIN_LAST_CLASS, R.PIN_LAST_INDEX, R.PIN_FLAGS_CLASS]
  exact fld_setFlds_of_pairwise fit d pair h

theorem fld_pinFault (f : Field) : (d.pinFault cls idx k).fld f = (d.setFlds (faultFields d cls idx k)).fld f := by
  have raised := fld_raise (d.setFlds (faultFields d cls idx k)) F.pinFault f
  unfold Dev.pinFault
  dsimp only
  split <;> exact raised

theorem fld_pinFault_of_mem {w : Field × Nat} (h : w ∈ faultFields d cls idx k) : (d.pinFault cls idx k).fld w.1 = w.2 % 2 ^ w.1.w :=
  (fld_pinFault ..).trans (fld_faultFields d cls idx k h)

theorem fld_pinFault_of_addr {f : Field} (last : f.addr ≠ 0x140108) (flags : f.addr ≠ 0x140104) : (d.pinFault cls idx k).fld f = d.fld f := by
  refine (fld_pinFault ..).trans (fld_setFlds_of_addr d _ ?_)
  simp only [faultFields, List.forall_mem_cons, List.not_mem_nil, false_implies, implies_true, and_true]
  exact ⟨last, last, last, flags⟩

theorem bitAt_mod_two_pow {n w c : Nat} (h : c < w) : bitAt (n % 2 ^ w) c = bitAt n c := by
  rw [bitAt_eq_testBit, bitAt_eq_testBit, Nat.testBit_mod_two_pow]
  simp [h]

/-- The flag of a class after a fault of a class. -/
theorem flags_pinFault {c : Nat} (few : c < 7) :
    bitAt ((d.pinFault cls idx k).fld R.PIN_FLAGS_CLASS) c = (decide (c = cls) || bitAt (d.fld R.PIN_FLAGS_CLASS) c) := by
  have stored : (d.pinFault cls idx k).fld R.PIN_FLAGS_CLASS = setBits (d.fld R.PIN_FLAGS_CLASS) cls 1 1 % 2 ^ 7 :=
    fld_pinFault_of_mem d cls idx k (w := (R.PIN_FLAGS_CLASS, setBits (d.fld R.PIN_FLAGS_CLASS) cls 1 1)) (by simp [faultFields])
  rw [stored, bitAt_mod_two_pow few]
  by_cases same : c = cls
  · subst same
    simp [bitAt_setBits_self]
  · simp [same, bitAt_setBits_ne _ _ same]

theorem pinFault_pin : (d.pinFault cls idx k).pin =
    if (k = .shortLow ∨ k = .shortHigh) ∧ bitAt (d.fld R.PIN_ACT_ACT) cls = true ∧ d.pin.hiz.contains (64 * cls + idx) = false then
      { d.pin with hiz := d.pin.hiz ++ [64 * cls + idx] } else d.pin := by
  have act : ((d.setFlds (faultFields d cls idx k)).raise F.pinFault).fld R.PIN_ACT_ACT = d.fld R.PIN_ACT_ACT :=
    (fld_raise ..).trans (fld_setFlds_of_addr d _ (by simp [faultFields, R.PIN_LAST_KIND, R.PIN_LAST_CLASS, R.PIN_LAST_INDEX, R.PIN_FLAGS_CLASS, R.PIN_ACT_ACT]))
  have pin : ((d.setFlds (faultFields d cls idx k)).raise F.pinFault).pin = d.pin := (raise_pin ..).trans (setFlds_pin ..)
  unfold Dev.pinFault
  rw [← faultFields]
  dsimp only
  rw [act, pin]
  split
  · rfl
  · exact pin

theorem mem_hiz_pinFault (p : Nat) : p ∈ (d.pinFault cls idx k).pin.hiz ↔
    p ∈ d.pin.hiz ∨ p = 64 * cls + idx ∧ (k = .shortLow ∨ k = .shortHigh) ∧ bitAt (d.fld R.PIN_ACT_ACT) cls = true := by
  rw [pinFault_pin]
  split
  next acts =>
    obtain ⟨short, bit, -⟩ := acts
    simp [short, bit]
  next rests =>
    refine ⟨.inl, fun h => h.elim id fun ⟨pad, short, bit⟩ => ?_⟩
    by_contra free
    exact rests ⟨short, bit, by simpa [← pad] using free⟩

end Fault

/-! ## Levels (R368, R384, R509, R547) -/

theorem padLevel_ownOut (d : Dev) (j : Nat) : padLevel d 4 1 j = if d.tth.ownOut = true then some false else none := rfl

theorem padLevel_hbOut (d : Dev) (j : Nat) : padLevel d 4 0 j = if d.boot.dark = true then none else some (hbLevel d) := rfl

theorem padLevel_clock {d : Dev} {k : Nat} (few : k < 5) (driven : padDriven d 2 k = true) (off : clockOut d k = false) (j : Nat) :
    padLevel d 2 k j = some (k != 2 && k != 3 && bitAt (outSetting d k) 29) := by
  have level : padLevel d 2 k j = some (if k = 5 then tickLevel d else clockLevel d k) :=
    (if_neg (by decide)).trans (if_neg (by simp [driven]))
  rw [level, if_neg (by omega), clockLevel, off]
  simp

/-! ## Checks by readback (R510) -/

section Check
variable {d : Dev} {cls idx j : Nat} {read : Bool}

theorem padCheck_idle (h : d.works pinBase = false ∨ padDriven d cls idx = false) : d.padCheck cls idx j read = d := by
  unfold Dev.padCheck
  exact if_pos (by rcases h with h | h <;> simp [h])

variable (works : d.works pinBase = true) (driven : padDriven d cls idx = true)
include works driven

theorem padCheck_undriven (none : padLevel d cls idx j = none) :
    d.padCheck cls idx j read = if cls = 4 ∧ idx = 1 ∧ read = false then d.pinFault 4 1 .stuckLow else d := by
  unfold Dev.padCheck
  refine (if_neg (by simp [works, driven])).trans ?_
  rw [none]

theorem padCheck_agrees (level : padLevel d cls idx j = some read) : d.padCheck cls idx j read = d.setMiss (64 * cls + idx) 0 := by
  unfold Dev.padCheck
  refine (if_neg (by simp [works, driven])).trans ?_
  rw [level]
  exact if_pos rfl

theorem padCheck_differs {out : Bool} (level : padLevel d cls idx j = some out) (differs : out ≠ read) {n : Nat}
    (count : smGet (fun _ => 0) d.pin.miss (64 * cls + idx) = n) :
    d.padCheck cls idx j read = if min 3 (n + 1) = 3 ∧ (n < 3 ∨ bitAt (d.fld R.PIN_FLAGS_CLASS) cls = false) then
      (d.setMiss (64 * cls + idx) (min 3 (n + 1))).pinFault cls idx (if read = true then .shortHigh else .shortLow)
      else d.setMiss (64 * cls + idx) (min 3 (n + 1)) := by
  unfold Dev.padCheck
  refine (if_neg (by simp [works, driven])).trans ?_
  rw [level]
  refine (if_neg differs).trans ?_
  rw [count]
  simp only [eq_self, eq_iff_iff, iff_true]
  rfl

end Check

theorem setMiss_safeCauses (d : Dev) (pad n : Nat) : (d.setMiss pad n).safeCauses = d.safeCauses := rfl

/-! ## The open test and the flags (R511, R514) -/

section Open
variable (d : Dev)

/-- The open faults of inputs, one after the other. -/
def openFaults (l : List Nat) : Dev := l.foldl (fun d i => d.pinFault 5 i .openPin) d

theorem openTestDone_idle (off : d.flag R.PIN_OPEN_TEST_BUSY = false) (l : List Nat) : d.openTestDone l = d := if_neg (by simp [off])

theorem openTestDone_ends (busy : d.flag R.PIN_OPEN_TEST_BUSY = true) (l : List Nat) :
    d.openTestDone l = openFaults (d.setFld R.PIN_OPEN_TEST_BUSY 0) (l.filter (openClass d)) := if_pos busy

theorem busy_openFaults (l : List Nat) : (openFaults d l).fld R.PIN_OPEN_TEST_BUSY = d.fld R.PIN_OPEN_TEST_BUSY :=
  foldl_keeps (·.fld R.PIN_OPEN_TEST_BUSY) (fun e i => fld_pinFault_of_addr e 5 i .openPin (by decide) (by decide)) l d

theorem flags_openFaults (l : List Nat) :
    bitAt ((openFaults d l).fld R.PIN_FLAGS_CLASS) 5 = (bitAt (d.fld R.PIN_FLAGS_CLASS) 5 || !l.isEmpty) := by
  induction l generalizing d with
  | nil => simp [openFaults]
  | cons i r ih =>
    rw [openFaults, List.foldl_cons, ← openFaults, ih, flags_pinFault d 5 i .openPin (by decide)]
    simp

theorem pinFlagsClear_flags (v : Nat) {c : Nat} (few : c < 7) :
    bitAt ((d.pinFlagsClear v).fld R.PIN_FLAGS_CLASS) c = (bitAt (d.fld R.PIN_FLAGS_CLASS) c && !bitAt v c) := by
  have stored : (d.pinFlagsClear v).fld R.PIN_FLAGS_CLASS = (d.fld R.PIN_FLAGS_CLASS &&& (127 - v % 128)) % 2 ^ 7 :=
    fld_setFld_self d R.PIN_FLAGS_CLASS _ (by decide)
  have rest : 127 - v % 128 = 2 ^ 7 - (v % 2 ^ 7 + 1) := by omega
  rw [stored, bitAt_mod_two_pow few, rest]
  simp only [bitAt_eq_testBit]
  rw [Nat.testBit_and, Nat.testBit_two_pow_sub_succ (Nat.mod_lt _ (by decide)), Nat.testBit_mod_two_pow]
  simp [few]

theorem pinFlagsClear_hiz (v p : Nat) : p ∈ (d.pinFlagsClear v).pin.hiz ↔ p ∈ d.pin.hiz ∧ ¬ (p < 448 ∧ bitAt v (p / 64) = true) := by
  show p ∈ d.pin.hiz.filter (fun pad => !(pad < 448 && bitAt v (pad / 64))) ↔ _
  by_cases low : p < 448 <;> simp [List.mem_filter, low]

end Open

/-! ## Reversed lanes (R512) -/

section Lane
variable {d : Dev} {m : Nat}

theorem laneHeld_off (off : d.macOn m = false) : d.laneHeld m = d := if_neg (by simp [off])

/-- A transmitter whose link is down takes no frame. -/
theorem txKick_of_down (down : d.flag (R.ETH_LINK_LINK_UP m) = false) : d.txKick m = d := by
  have silent : d.txFree m = false := by
    unfold Dev.txFree Dev.laneOut
    rw [down]
    cases d.macOn m <;> cases (d.flag (R.ETH_LINK_LOCAL_FAULT m) || !d.flag (R.ETH_LINK_BLOCK_LOCK m)) <;> rfl
  exact if_pos (by simp [silent])

/-- What leaves a MAC's finding of an inverted lane alone. -/
theorem rev_linkTold (d : Dev) (m v : Nat) : ((linkTold d m v).mac m).rev = (d.mac m).rev := by
  have counted (e : Dev) (k : Nat) : ((e.cnt m k 1).mac m).rev = (e.mac m).rev := by rw [cnt_eq, mac_setMac_self]
  have dropped (e : Dev) : ((e.stxDrop m).mac m).rev = (e.mac m).rev :=
    (foldl_keeps (fun g => (g.mac m).rev) (fun g p => by split; exacts [congrArg EthM.rev (mac_strDrop g m p.stream), rfl]) _ (e.setMac m _)).trans
      (congrArg EthM.rev (mac_setMac_self ..))
  have fallen (e : Dev) (fell : Bool) : ((linkFallen e m fell).mac m).rev = (e.mac m).rev := by
    unfold linkFallen
    split
    · rw [dropped, counted]
    · rfl
  have rose (e : Dev) (b : Bool) : ((berCounted e m b).mac m).rev = (e.mac m).rev := by
    unfold berCounted
    split
    · rw [mac_raise, counted]
    · rfl
  rw [linkTold, rose, mac_raiseIf, fallen, mac_setFlds]

theorem laneHeld_on (few : m < 2) (on : d.macOn m = true) : ((d.laneHeld m).mac m).rev = some (d.flag (R.ETH_MODE_RX_INV m)) ∧
    (d.laneHeld m).flag (R.ETH_LINK_LINK_UP m) = false ∧ (d.laneHeld m).flag (R.ETH_LINK_BLOCK_LOCK m) = false := by
  obtain ⟨e, marked⟩ : ∃ e, e = d.setMac m { d.mac m with rev := some (d.flag (R.ETH_MODE_RX_INV m)) } := ⟨_, rfl⟩
  obtain ⟨v, word⟩ : ∃ v, v = (d.reg (R.ETH_LINK_LINK_UP m).addr).toNat / 2 % 32 := ⟨_, rfl⟩
  have held : d.laneHeld m = e.ethLink m v := by
    subst marked word
    exact if_pos on
  have rev : (e.mac m).rev = some (d.flag (R.ETH_MODE_RX_INV m)) := by rw [marked, mac_setMac_self]
  have inv : e.flag (R.ETH_MODE_RX_INV m) = d.flag (R.ETH_MODE_RX_INV m) := by
    subst marked
    rfl
  have still : e.macOn m = true := by
    subst marked
    exact on
  have unlocked : bitAt (linkWord e m v) 0 = false := by
    rw [linkWord, if_pos (rev.trans (by rw [inv])), bitAt_setBits_self]
    rfl
  have down : linkUp e m (linkWord e m v) = false := by simp [linkUp, unlocked]
  have up : (linkTold e m v).flag (R.ETH_LINK_LINK_UP m) = false := by
    refine flag_of_fld ((linkTold_field e m few v (R.ETH_LINK_LINK_UP m, b2n (linkUp e m (linkWord e m v))) (by simp [linkFields])).trans ?_)
    rw [down]
  have lock : (linkTold e m v).flag (R.ETH_LINK_BLOCK_LOCK m) = false := by
    refine flag_of_fld ((linkTold_field e m few v (R.ETH_LINK_BLOCK_LOCK m, bits (linkWord e m v) 0 1) (by simp [linkFields])).trans ?_)
    rw [bitAt_eq_bits, beq_eq_false_iff_ne] at unlocked
    have := bits_lt (linkWord e m v) 0 1
    show _ = 0
    omega
  rw [held, ethLink_of_on still, txKick_of_down up]
  exact ⟨(rev_linkTold e m v).trans rev, up, lock⟩

end Lane

/-- Settles O56: the checks by the level and the count, a fault by what it records, the open test by its faults. -/
theorem padFaultsAreRecordedAndActedOn : Obligations.PadFaultsAreRecordedAndActedOn := by
  unfold Obligations.PadFaultsAreRecordedAndActedOn
  refine ⟨fun s cls idx j read => ?check, fun d j => ?levels, fun d cls idx k classes pads => ?fault, fun s v l lane => ?others,
    fun d m few => ⟨laneHeld_off, laneHeld_on few⟩⟩
  case check =>
    intro d act pad n clear level
    have acts {e : Dev} (h : d.padCheck cls.val idx.val j read = e) : Makes (.padCheck cls idx j read) s (act e) :=
      makes_of _ (exec_padCheck ..) (causeAct_eq h)
    have rests {e : Dev} (h : d.padCheck cls.val idx.val j read = e) (same : e.safeCauses = d.safeCauses) : Makes (.padCheck cls idx j read) s e :=
      makes_of _ (exec_padCheck ..) (causeAct_of_same h same)
    refine ⟨fun idle => rests (padCheck_idle idle) rfl, fun works driven => ⟨fun none four one low => ?_, fun none other => ?_, fun out drives =>
      ⟨fun agrees => ?_, fun differs few => ?_, fun differs due => ?_, fun differs many flagged => ?_⟩⟩⟩
    · exact acts ((padCheck_undriven works driven none).trans (if_pos ⟨four, one, low⟩))
    · refine rests ((padCheck_undriven works driven none).trans (if_neg ?_)) rfl
      rintro ⟨four, one, low⟩
      simp [four, one, low] at other
    · exact rests (padCheck_agrees works driven (agrees ▸ drives)) (setMiss_safeCauses ..)
    · refine rests ((padCheck_differs works driven drives differs rfl).trans ((if_neg ?_).trans ?_)) (setMiss_safeCauses ..)
      · show ¬ (min 3 (n + 1) = 3 ∧ _)
        omega
      · show d.setMiss pad (min 3 (n + 1)) = _
        rw [Nat.min_eq_right (by omega)]
    · have three : min 3 (n + 1) = 3 := by omega
      refine acts ((padCheck_differs works driven drives differs rfl).trans ((if_pos ?_).trans ?_))
      · exact ⟨three, due.imp (fun two => (show n < 3 by omega)) (·.2)⟩
      · show (d.setMiss pad (min 3 (n + 1))).pinFault _ _ _ = _
        rw [three]
    · have three : min 3 (n + 1) = 3 := by omega
      refine rests ((padCheck_differs works driven drives differs rfl).trans ((if_neg ?_).trans ?_)) (setMiss_safeCauses ..)
      · rintro ⟨-, first | unflagged⟩
        · exact absurd (show n < 3 from first) (by omega)
        · exact flagged unflagged
      · show d.setMiss pad (min 3 (n + 1)) = _
        rw [three]
  case levels =>
    exact ⟨padLevel_ownOut d j, fun dark => (padLevel_hbOut d j).trans (if_pos dark), fun lit => (padLevel_hbOut d j).trans (if_neg (by simp [lit])),
      fun k few driven off => padLevel_clock few driven off j⟩
  case fault =>
    have recorded {w : Field × Nat} (h : w ∈ faultFields d cls idx k) := fld_pinFault_of_mem d cls idx k h
    refine ⟨(recorded (w := (R.PIN_LAST_KIND, k.code)) (by simp [faultFields])).trans (by cases k <;> rfl),
      (recorded (w := (R.PIN_LAST_CLASS, cls)) (by simp [faultFields])).trans (Nat.mod_eq_of_lt (by simp only [R.PIN_LAST_CLASS]; omega)),
      (recorded (w := (R.PIN_LAST_INDEX, idx)) (by simp [faultFields])).trans (Nat.mod_eq_of_lt (by simp only [R.PIN_LAST_INDEX]; omega)),
      ?_, fun c few other => ?_, mem_hiz_pinFault d cls idx k⟩
    · rw [flags_pinFault d cls idx k classes]
      simp
    · rw [flags_pinFault d cls idx k few]
      simp [other]
  case others =>
    intro d act go
    refine ⟨fun starts => makes_of _ (exec_pinOpenTestGo v s) (if_pos ?_), fun rests => makes_of _ (exec_pinOpenTestGo v s) (if_neg ?_), fun busy => ?_,
      fun idle => makes_of _ (exec_openTestDone l s) (causeAct_of_same (openTestDone_idle d idle l) rfl), ?_, ?_⟩
    · obtain ⟨works, bit, state⟩ := starts
      rw [works, bit, state]
      rfl
    · intro h
      simp only [Bool.and_eq_true, beq_iff_eq] at h
      exact rests ⟨h.1.1, h.1.2, h.2⟩
    · have flags : (d.setFld R.PIN_OPEN_TEST_BUSY 0).fld R.PIN_FLAGS_CLASS = d.fld R.PIN_FLAGS_CLASS := fld_setFld_of_addr d 0 (by decide)
      refine ⟨_, makes_of _ (exec_openTestDone l s) (causeAct_eq (openTestDone_ends d busy l)), ?_, ?_, fun i one => ?_⟩
      · exact (busy_openFaults ..).trans (fld_setFld_self d R.PIN_OPEN_TEST_BUSY 0 (by decide))
      · rw [flags_openFaults, flags]
        refine congrArg _ (Bool.eq_iff_iff.2 ?_)
        simp
      · have input : openClass d i = true := List.of_mem_filter (one ▸ List.mem_singleton_self i)
        have few : i < 54 := by
          by_contra more
          simp [openClass, more] at input
        have recorded {w : Field × Nat} (h : w ∈ faultFields (d.setFld R.PIN_OPEN_TEST_BUSY 0) 5 i .openPin) :=
          fld_pinFault_of_mem (d.setFld R.PIN_OPEN_TEST_BUSY 0) 5 i .openPin h
        rw [one]
        exact ⟨recorded (w := (R.PIN_LAST_KIND, PinKind.openPin.code)) (by simp [faultFields]),
          (recorded (w := (R.PIN_LAST_INDEX, i)) (by simp [faultFields])).trans (Nat.mod_eq_of_lt (by simp only [R.PIN_LAST_INDEX]; omega))⟩
    · exact ⟨_, makes_of _ (exec_pinFlagsClear v s) rfl, fun c few => pinFlagsClear_flags d v.toNat few, pinFlagsClear_hiz d v.toNat, rfl⟩
    · intro f
      have reversed : d.laneReversed lane.val = f := rfl
      exact ⟨fun tether => makes_of _ (exec_laneReversed lane s) (causeAct_eq ((if_neg (by omega)).trans reversed)),
        fun mac => makes_of _ (exec_laneReversed lane s) (causeAct_eq ((if_pos mac).trans (congrArg (·.laneHeld lane.val) reversed)))⟩

end Sys2Proof.Proofs
end

section
/-! Boot (18 R520 to R523). Settles O60. -/
namespace Sys2Proof.Proofs
open Sys2Proof.Machine Sys2Proof.Laws

theorem exec_spiBoot (s : State) : exec .spiBoot s = s.act (·.spiBoot) := rfl
theorem exec_hostBootGo (v : Word) (s : State) : exec (.hostBootGo v) s = s.act (·.hostBoot v) := rfl
theorem exec_bootHeaderRead (b : Option (List Nat)) (s : State) : exec (.bootHeaderRead b) s = s.act (·.bootHeader b) := rfl
theorem exec_bootBodyRead (b : Option (List Nat)) (s : State) : exec (.bootBodyRead b) s = s.act (·.bootBody b) := rfl

/-! ## A boot that fails (R522) -/

theorem reg_withBoot (d : Dev) (b : Boot) (a : Nat) : ({ d with boot := b } : Dev).reg a = d.reg a := rfl
theorem top_withBoot (d : Dev) (b : Boot) : ({ d with boot := b } : Dev).top = d.top := rfl

section Fail
variable (d : Dev) (r : BootRun) (err : Nat)

theorem reg_bootFail (a : Nat) : (d.bootFail r err).reg a = (d.setFld R.TOP_BOOT_ERR err).reg a := by
  unfold Dev.bootFail
  exact reg_withBoot ..

theorem bootFail_top : (d.bootFail r err).top = d.top := by
  unfold Dev.bootFail
  exact (top_withBoot ..).trans (setFld_top ..)

theorem bootFail_shows (code : err < 8) : (d.bootFail r err).fld R.TOP_BOOT_ERR = err ∧
    (d.bootFail r err).boot = { d.boot with run := if r.src = 2 then some ⟨3, none⟩ else none } ∧ (d.bootFail r err).top = d.top ∧
    ∀ a, a ≠ R.TOP_BOOT_ERR.addr → (d.bootFail r err).reg a = d.reg a := by
  refine ⟨?_, rfl, bootFail_top .., fun a other => (reg_bootFail ..).trans (reg_setFld_ne d _ err other)⟩
  have stored := fld_setFld_self d R.TOP_BOOT_ERR err (by decide)
  rw [Dev.fld, reg_bootFail, ← Dev.fld, stored]
  exact Nat.mod_eq_of_lt (code.trans (by decide))

end Fail

/-! ## The header (R521) -/

section Header
variable {d : Dev} {r : BootRun}

theorem bootHeader_idle (none : d.boot.run = none) (b : Option (List Nat)) : d.bootHeader b = d := by
  rw [Dev.bootHeader, none]

theorem bootHeader_done {h : List Nat} (run : d.boot.run = some r) (header : r.header = some h) (b : Option (List Nat)) : d.bootHeader b = d := by
  rw [Dev.bootHeader, run]
  exact if_pos (by rw [header]; rfl)

variable (run : d.boot.run = some r) (waits : r.header = none)
include run waits

theorem bootHeader_unread {b : Option (List Nat)} (unread : bootBytes d r 0 256 b = none) : d.bootHeader b = d.bootFail r (readErr r) := by
  rw [Dev.bootHeader, run]
  refine (if_neg (by simp [waits])).trans ?_
  rw [unread]

theorem bootHeader_read {b : Option (List Nat)} {l : List Nat} (read : bootBytes d r 0 256 b = some l) : d.bootHeader b =
    if headerErr d l = 0 then { d with boot := { d.boot with run := some { r with header := some l } } } else d.bootFail r (headerErr d l) := by
  rw [Dev.bootHeader, run]
  refine (if_neg (by simp [waits])).trans ?_
  rw [read]

end Header

section HeaderErr
variable (d : Dev) {l : List Nat}

theorem headerErr_magic (h : ofLe (slice l 0 4) ≠ 0x5140B007 ∨ ofLe (slice l 4 4) ≠ 1) : headerErr d l = 1 := if_pos h

variable (magic : ofLe (slice l 0 4) = 0x5140B007) (version : ofLe (slice l 4 4) = 1)
include magic version

theorem headerErr_length (h : ofLe (slice l 8 4) % 64 ≠ 0 ∨ ofLe (slice l 8 4) < 64 ∨ 0x100000 < ofLe (slice l 8 4)) : headerErr d l = 2 :=
  (if_neg (by simp [magic, version])).trans (if_pos h)

variable (whole : ofLe (slice l 8 4) % 64 = 0) (least : 64 ≤ ofLe (slice l 8 4)) (most : ofLe (slice l 8 4) ≤ 0x100000)
include whole least most

theorem headerErr_key : headerErr d l = match d.boot.keyHash with
    | none => 0
    | some k => if sha384 (slice l 0x20 0x60) = k then 0 else 3 :=
  (if_neg (by simp [magic, version])).trans (if_neg (by omega))

end HeaderErr

/-! ## The body (R520, R521) -/

section Body
variable {d : Dev} {r : BootRun}

theorem bootBody_idle (none : d.boot.run = none) (b : Option (List Nat)) : d.bootBody b = d := by
  rw [Dev.bootBody, none]

theorem bootBody_headless (run : d.boot.run = some r) (waits : r.header = none) (b : Option (List Nat)) : d.bootBody b = d := by
  simp only [Dev.bootBody, run, waits]

variable {h : List Nat} (run : d.boot.run = some r) (header : r.header = some h)
include run header

theorem bootBody_unread {b : Option (List Nat)} (unread : bootBytes d r 256 (ofLe (slice h 8 4)) b = none) : d.bootBody b = d.bootFail r (readErr r) := by
  simp only [Dev.bootBody, run, header, unread]

theorem bootBody_read {b : Option (List Nat)} {l : List Nat} (read : bootBytes d r 256 (ofLe (slice h 8 4)) b = some l) : d.bootBody b =
    if bodyErr d h (bootDigest h l) = 0 then d.bootDone r h (bootDigest h l) else d.bootFail r (bodyErr d h (bootDigest h l)) := by
  simp only [Dev.bootBody, run, header, read]

end Body

section BodyErr
variable (d : Dev) {h digest : List Nat}

/-- The signature over the digest, by the key of the header. -/
def imageSigned (h digest : List Nat) : Bool := ecdsaOk (ofBe (slice h 0x20 48)) (ofBe (slice h 0x50 48)) (ofBe (slice h 0x80 48)) (ofBe (slice h 0xB0 48)) digest

theorem bodyErr_eq : bodyErr d h digest = if !imageSigned h digest then 4 else if ofLe (slice h 0xC 4) < d.boot.minRollback then 5 else 0 := by
  rw [bodyErr, imageSigned]

end BodyErr

/-! ## An authenticated image (R520, R521) -/

section Done
variable (d : Dev) (r : BootRun) (h digest : List Nat)

/-- What an authenticated image records. -/
def bootFields (r : BootRun) (h digest : List Nat) : List (Field × Nat) :=
  [(R.TOP_BOOT_DONE, 1), (R.TOP_BOOT_SRC, r.src), (R.TOP_BOOT_ROLLBACK, ofLe (slice h 0xC 4))] ++
    (List.range 12).map (fun i => (R.TOP_FW_DIGEST_DIGEST i, ofLe (slice digest (4 * i) 4)))

/-- The part with an authenticated image recorded, before SETUP. -/
def bootRecorded : Dev := { d with boot := { d.boot with run := none } }.setFlds (bootFields r h digest)

theorem bootDone_eq : d.bootDone r h digest = (bootRecorded d r h digest).enterSetup := by
  rw [bootRecorded, bootFields, Dev.setFlds, List.foldl_append, List.foldl_map]
  rfl

theorem bootRecorded_fld {w : Field × Nat} (mem : w ∈ bootFields r h digest) : (bootRecorded d r h digest).fld w.1 = w.2 % 2 ^ w.1.w := by
  have fit : ∀ w ∈ bootFields r h digest, w.1.lo + w.1.w ≤ 32 := by
    simp [bootFields, R.TOP_BOOT_DONE, R.TOP_BOOT_SRC, R.TOP_BOOT_ROLLBACK, R.TOP_FW_DIGEST_DIGEST]
  have pair : (bootFields r h digest).Pairwise (fun a b => apart b.1 a.1) := by
    simp [bootFields, apart, List.range_succ, R.TOP_BOOT_DONE, R.TOP_BOOT_SRC, R.TOP_BOOT_ROLLBACK, R.TOP_FW_DIGEST_DIGEST]
  exact fld_setFlds_of_pairwise fit _ pair mem

theorem bootRecorded_keeps : (bootRecorded d r h digest).boot.run = none ∧ (bootRecorded d r h digest).top = d.top :=
  ⟨congrArg Boot.run (setFlds_boot ..), setFlds_top ..⟩

end Done

/-! ## Where the bytes come from (R523) -/

section Bytes
variable (d : Dev) (r : BootRun) (o n : Nat) (l : List Nat)

theorem bootBytes_host (src : r.src = 1) : bootBytes d r o n (some l) = if d.cfg.busMaster = true then
    some (memRead d.hostMem (d.fld R.TOP_BOOT_ADDR_LO_ADDR_LO * 256 + d.fld R.TOP_BOOT_ADDR_HI_ADDR_HI * 2 ^ 32 + o) n) else none := if_pos src

theorem bootBytes_flash (src : r.src ≠ 1) : bootBytes d r o n (some l) = if l.length < n then none else some (l.take n) := if_neg src

end Bytes

/-- Settles O60: the starts, then the header's checks and the body's in their order. -/
theorem bootChecksTheImageThenEntersSetup : Obligations.BootChecksTheImageThenEntersSetup := by
  unfold Obligations.BootChecksTheImageThenEntersSetup
  refine ⟨fun s v => ?starts, fun s b => ?image, fun d r o n l => ⟨rfl, fun src off => ?_, fun src on => ?_, fun src short => ?_, fun src long => ?_⟩⟩
  case starts =>
    intro d spi host
    refine ⟨fun h => makes_of _ (exec_spiBoot s) (if_pos ?_), fun h => makes_of _ (exec_spiBoot s) (if_neg fun may => h ?_),
      fun h => makes_of _ (exec_hostBootGo v s) (if_pos ?_), fun h => makes_of _ (exec_hostBootGo v s) (if_neg fun may => h ?_)⟩
    · obtain ⟨off, due, none, up⟩ := h
      exact ⟨off, due, Option.isNone_iff_eq_none.2 none, up⟩
    · obtain ⟨off, due, none, up⟩ := may
      exact ⟨off, due, Option.isNone_iff_eq_none.1 none, up⟩
    · obtain ⟨go, off, none, free, up⟩ := h
      exact ⟨go, off, Option.isNone_iff_eq_none.2 none, free, up⟩
    · obtain ⟨go, off, none, free, up⟩ := may
      exact ⟨go, off, Option.isNone_iff_eq_none.1 none, free, up⟩
  case image =>
    intro d gone
    have headerFails {r : BootRun} {err : Nat} (code : err < 8) (h : d.bootHeader b = d.bootFail r err) : gone (.bootHeaderRead b) r err :=
      ⟨_, makes_of _ (exec_bootHeaderRead b s) h, bootFail_shows d r _ code⟩
    have bodyFails {r : BootRun} {err : Nat} (code : err < 8) (h : d.bootBody b = d.bootFail r err) : gone (.bootBodyRead b) r err :=
      ⟨_, makes_of _ (exec_bootBodyRead b s) h, bootFail_shows d r _ code⟩
    have readCode (r : BootRun) : readErr r < 8 := by
      unfold readErr
      split <;> decide
    refine ⟨fun none => ⟨makes_of _ (exec_bootHeaderRead b s) (bootHeader_idle none b), makes_of _ (exec_bootBodyRead b s) (bootBody_idle none b)⟩,
      fun r run waits => ⟨makes_of _ (exec_bootBodyRead b s) (bootBody_headless run waits b),
        fun unread => headerFails (readCode r) (bootHeader_unread run waits unread), fun l read => ?_⟩,
      fun r h run header => ⟨makes_of _ (exec_bootHeaderRead b s) (bootHeader_done run header b),
        fun unread => bodyFails (readCode r) (bootBody_unread run header unread), fun l read => ?_⟩⟩
    · intro n
      have judged {err : Nat} (judge : headerErr d l = err) (few : err < 8) (bad : err ≠ 0) : gone (.bootHeaderRead b) r err :=
        headerFails few ((bootHeader_read run waits read).trans (by rw [judge, if_neg bad]))
      refine ⟨fun alien => judged (headerErr_magic d alien) (by decide) (by decide), fun magic version =>
        ⟨fun size => judged (headerErr_length d magic version size) (by decide) (by decide), fun whole least most => ⟨fun k key wrong => ?_, fun right => ?_⟩⟩⟩
      · refine judged ((headerErr_key d magic version whole least most).trans ?_) (err := 3) (by decide) (by decide)
        rw [key]
        exact if_neg wrong
      · have passes : headerErr d l = 0 := by
          rw [headerErr_key d magic version whole least most]
          cases key : d.boot.keyHash with
          | none => rfl
          | some k => exact if_pos (right k key)
        exact makes_of _ (exec_bootHeaderRead b s) ((bootHeader_read run waits read).trans (if_pos passes))
    · intro digest signed
      have judge : bodyErr d h (bootDigest h l) = if !signed then 4 else if ofLe (slice h 0xC 4) < d.boot.minRollback then 5 else 0 := bodyErr_eq d
      have judged {err : Nat} (verdict : bodyErr d h (bootDigest h l) = err) (few : err < 8) (bad : err ≠ 0) : gone (.bootBodyRead b) r err :=
        bodyFails few ((bootBody_read run header read).trans (by rw [verdict, if_neg bad]))
      refine ⟨fun forged => judged (err := 4) (judge.trans (by rw [forged]; rfl)) (by decide) (by decide), fun good old =>
        judged (err := 5) (judge.trans (by rw [good]; exact if_pos old)) (by decide) (by decide), fun good young => ?_⟩
      have passes : bodyErr d h (bootDigest h l) = 0 := judge.trans (by rw [good]; exact if_neg (Nat.not_lt.2 young))
      have done : d.bootBody b = (bootRecorded d r h digest).enterSetup :=
        (bootBody_read run header read).trans ((if_pos passes).trans (bootDone_eq d r h _))
      have recorded {w : Field × Nat} (mem : w ∈ bootFields r h digest) := bootRecorded_fld d r h digest mem
      obtain ⟨ended, top⟩ := bootRecorded_keeps d r h digest
      refine ⟨_, makes_of _ (exec_bootBodyRead b s) done, flag_of_fld (recorded (w := (R.TOP_BOOT_DONE, 1)) (by simp [bootFields])),
        recorded (w := (R.TOP_BOOT_SRC, r.src)) (by simp [bootFields]), recorded (w := (R.TOP_BOOT_ROLLBACK, ofLe (slice h 0xC 4))) (by simp [bootFields]), ended, top,
        fun i few => recorded (w := (R.TOP_FW_DIGEST_DIGEST i, ofLe (slice digest (4 * i) 4))) ?_⟩
      exact List.mem_append_right _ (List.mem_map.2 ⟨i, List.mem_range.2 few, rfl⟩)
  · exact (bootBytes_host d r o n l src).trans (if_neg (by simp [off]))
  · exact (bootBytes_host d r o n l src).trans (if_pos on)
  · exact (bootBytes_flash d r o n l src).trans (if_pos short)
  · exact (bootBytes_flash d r o n l src).trans (if_neg (Nat.not_lt.2 long))

end Sys2Proof.Proofs
end

section
/-! Reset levels (17 R516 to R519, R524, R537). Settles O59. -/
namespace Sys2Proof.Proofs
open Sys2Proof.Machine Sys2Proof.Laws

theorem exec_powerOnReset (s : State) : exec .powerOnReset s = s.act (·.powerOn false) := rfl
theorem exec_supplyLoss (s : State) : exec .supplyLoss s = s.act (·.powerOn true) := rfl
theorem exec_rstNReset (s : State) : exec .rstNReset s = s.act (·.rstLow) := rfl
theorem exec_rstNRise (role bootsel : Bool) (key : Option (List Nat)) (roll : Nat) (s : State) :
    exec (.rstNRise role bootsel key roll) s = s.act (·.rstRise role bootsel key roll) := rfl
theorem exec_perstNReset (s : State) : exec .perstNReset s = s.act (·.softLevel true 2) := rfl
theorem exec_softReset (v : Word) (s : State) : exec (.softReset v) s = s.act (·.resetWrite v) := rfl

/-! ## Power and RST_N (R516, R518, R537) -/

/-- The part as at reset, but for what no reset changes. -/
def cleared (d : Dev) (b : Boot) (j : Jtag) : Dev :=
  { Dev.reset with grade := d.grade, hostMem := d.hostMem, free := d.free, tth := { Tth.reset with ownIn := d.tth.ownIn }, boot := b, jtag := j }

/-- RST_N is low, with the fuses as read. -/
def heldLow (d : Dev) (dark : Bool) : Boot :=
  { Boot.reset with keyHash := d.boot.keyHash, minRollback := d.boot.minRollback, rstLow := true, dark := dark }

section Levels
variable (d : Dev)

theorem powerOn_eq (dark : Bool) : d.powerOn dark = (cleared d (heldLow d dark) .reset).setFld R.TOP_RESET_CAUSE_LEVEL 0 := by
  have same : ({ d.powerReset with boot := { d.powerReset.boot with rstLow := true, dark := dark }, jtag := .reset } : Dev) = cleared d (heldLow d dark) .reset := rfl
  rw [Dev.powerOn, same, Dev.resetCause]

theorem rstLow_eq : d.rstLow = (cleared d (heldLow d d.boot.dark) d.jtag).setFld R.TOP_RESET_CAUSE_LEVEL
    (if d.boot.rstLow = true then d.fld R.TOP_RESET_CAUSE_LEVEL else 1) := by
  have same : ({ d.powerReset with boot := { d.powerReset.boot with rstLow := true } } : Dev) = cleared d (heldLow d d.boot.dark) d.jtag := rfl
  rw [Dev.rstLow, same, Dev.resetCause]

theorem rstRise_low (low : d.boot.rstLow = true) (role bootsel : Bool) (key : Option (List Nat)) (roll : Nat) : d.rstRise role bootsel key roll =
    (cleared d ⟨role, bootsel, key, roll, false, bootsel, none, false⟩ d.jtag).setFld R.TOP_RESET_CAUSE_LEVEL (d.fld R.TOP_RESET_CAUSE_LEVEL) := by
  have same : ({ d.powerReset with boot := ⟨role, bootsel, key, roll, false, bootsel, none, false⟩ } : Dev) =
      cleared d ⟨role, bootsel, key, roll, false, bootsel, none, false⟩ d.jtag := rfl
  rw [Dev.rstRise, if_pos low, same, Dev.resetCause]

end Levels

/-! ## What a soft reset keeps (R6, R516) -/

/-- A fold whose steps give a part of the state one value or leave it alone. -/
theorem foldl_writes {σ ι β : Type} {get : σ → β} {hit : ι → Prop} [DecidablePred hit] {v : β} {step : σ → ι → σ}
    (self : ∀ e k, hit k → get (step e k) = v) (other : ∀ e k, ¬ hit k → get (step e k) = get e) (l : List ι) (e : σ) :
    get (l.foldl step e) = if ∃ k ∈ l, hit k then v else get e := by
  induction l generalizing e with
  | nil => simp
  | cons k r ih =>
    rw [List.foldl_cons, ih]
    by_cases here : hit k
    · simp [here, self e k here]
    · simp [here, other e k here]

section Soft
variable (d e : Dev)

/-- The registers that a soft reset keeps stand again. -/
def regsAgain : Dev := keptRegs.foldl (fun e a => e.setReg a (d.reg a)) e

/-- A base keeps its value, and its second starts anew. -/
def baseAgain (e : Dev) (b : Nat) : Dev := (e.setBase b { TBase.zero with val := (d.base b).val }).ppsNextWrite b 0

/-- The bases keep their values. -/
def basesAgain : Dev := (List.range 4).foldl (baseAgain d) e

theorem softReset_eq (link : Bool) : d.softReset link = basesAgain d (regsAgain d
    { cleared d { d.boot with run := none, spiDue := d.boot.bootsel } d.jtag with cfg := if link then .reset else d.cfg }) := by
  unfold Dev.softReset
  rfl

theorem reg_regsAgain (a : Nat) : (regsAgain d e).reg a = if a ∈ keptRegs then d.reg a else e.reg a := by
  have folded := foldl_writes (get := fun (x : Dev) => x.reg a) (hit := fun k => k = a) (v := d.reg a) (step := fun (x : Dev) k => x.setReg k (d.reg k))
    (fun x k same => same ▸ smGet_smSet_self ..) (fun x k other => smGet_smSet_ne _ _ _ (Ne.symm other)) keptRegs e
  simpa [regsAgain] using folded

theorem regsAgain_tbu : (regsAgain d e).tbu = e.tbu := foldl_keeps (f := fun (e : Dev) a => e.setReg a (d.reg a)) Dev.tbu (fun _ _ => rfl) _ e

/-- What the registers and the bases are not. -/
def unswept (e : Dev) : Dev := { e with regs := [], tbu := .reset }

theorem unswept_regsAgain : unswept (regsAgain d e) = unswept e := foldl_keeps (f := fun (e : Dev) a => e.setReg a (d.reg a)) unswept (fun _ _ => rfl) _ e

theorem unswept_setFld (f : Field) (v : Nat) : unswept (e.setFld f v) = unswept e := rfl

theorem unswept_baseAgain (b : Nat) : unswept (baseAgain d e b) = unswept e := rfl

theorem unswept_basesAgain : unswept (basesAgain d e) = unswept e := foldl_keeps unswept (fun x b => unswept_baseAgain d x b) _ e

theorem basesAgain_since : (basesAgain d e).tbu = { e.tbu with bases := (basesAgain d e).tbu.bases } := by
  have rest := foldl_keeps (fun (x : Dev) => ({ x.tbu with bases := [] } : Tbu)) (f := baseAgain d) (fun _ _ => rfl) (List.range 4) e
  have h : ∀ t u : Tbu, ({ t with bases := [] } : Tbu) = { u with bases := [] } → t = { u with bases := t.bases } := by
    rintro ⟨a, b, c, g⟩ ⟨a', b', c', g'⟩ same
    simp_all
  exact h _ _ rest

/-- A base as a soft reset leaves it. -/
def keptBase (d : Dev) (b : Nat) : TBase :=
  { TBase.zero with val := (d.base b).val, sec := (sx 96 ((d.base b).val % 2 ^ 96) % (10 ^ 9 * 2 ^ 64)).toNat }

theorem base_baseAgain_self (b : Nat) : (baseAgain d e b).base b = keptBase d b := by
  have set : (e.setBase b { TBase.zero with val := (d.base b).val }).base b = { TBase.zero with val := (d.base b).val } := base_setBase_self ..
  unfold baseAgain Dev.ppsNextWrite
  dsimp only
  rw [base_setBase_self, base_of_tbu (setFld_tbu ..), set, keptBase]
  simp

theorem base_baseAgain_ne {b k : Nat} (other : b ≠ k) : (baseAgain d e k).base b = e.base b := by
  unfold baseAgain Dev.ppsNextWrite
  dsimp only
  rw [base_setBase_ne _ _ other, base_of_tbu (setFld_tbu ..), base_setBase_ne _ _ other]

theorem base_basesAgain {b : Nat} (few : b < 4) : (basesAgain d e).base b = keptBase d b := by
  have folded := foldl_writes (get := fun (x : Dev) => x.base b) (hit := fun k => k = b) (v := keptBase d b) (step := baseAgain d)
    (fun x k same => same ▸ base_baseAgain_self d x k) (fun x k other => base_baseAgain_ne d x (Ne.symm other)) (List.range 4) e
  exact folded.trans (if_pos ⟨b, List.mem_range.2 few, rfl⟩)

theorem reg_baseAgain (b a : Nat) : (baseAgain d e b).reg a = ((e.setBase b { TBase.zero with val := (d.base b).val }).setFld (R.TB_PPS_NEXT_NEXT b) 0).reg a := by
  unfold baseAgain Dev.ppsNextWrite
  rfl

/-- A field that is the whole register. -/
theorem fld_whole {d : Dev} {f : Field} (whole : f.lo = 0 ∧ f.w = 32) : d.fld f = (d.reg f.addr).toNat := by
  rw [Dev.fld, bits, whole.1, whole.2, Nat.pow_zero, Nat.div_one]
  exact Nat.mod_eq_of_lt (BitVec.isLt _)

theorem reg_baseAgain_self {b a : Nat} (here : (R.TB_PPS_NEXT_NEXT b).addr = a) : (baseAgain d e b).reg a = 0#32 := by
  subst here
  rw [reg_baseAgain]
  exact BitVec.eq_of_toNat_eq ((fld_whole (f := R.TB_PPS_NEXT_NEXT b) ⟨rfl, rfl⟩).symm.trans (fld_setFld_self _ (R.TB_PPS_NEXT_NEXT b) 0 (Nat.le_refl 32)))

theorem reg_baseAgain_ne {b a : Nat} (other : ¬ (R.TB_PPS_NEXT_NEXT b).addr = a) : (baseAgain d e b).reg a = e.reg a :=
  (reg_baseAgain ..).trans (reg_setFld_ne _ _ _ (Ne.symm other))

theorem reg_basesAgain (a : Nat) : (basesAgain d e).reg a = if ∃ b ∈ List.range 4, (R.TB_PPS_NEXT_NEXT b).addr = a then 0#32 else e.reg a :=
  foldl_writes (get := fun (x : Dev) => x.reg a) (hit := fun b => (R.TB_PPS_NEXT_NEXT b).addr = a) (step := baseAgain d)
    (fun x _ here => reg_baseAgain_self d x here) (fun x _ other => reg_baseAgain_ne d x other) (List.range 4) e

end Soft

theorem resetReg_ppsNext (g : Grade) {b : Nat} (few : b < 4) : resetReg g (R.TB_PPS_NEXT_NEXT b).addr = 0#32 := by
  rcases (show b = 0 ∨ b = 1 ∨ b = 2 ∨ b = 3 by omega) with rfl | rfl | rfl | rfl <;> cases g <;> decide +kernel

theorem mem_keptRegs (a : Nat) : a ∈ keptRegs ↔ (∃ b < 4, a = (R.TB_RATE_RATE b).addr) ∨ ∃ p < 2, a = (R.DPLL_FB_FB p).addr := by
  simp [keptRegs, eq_comm]

section SoftReset
variable (d : Dev) (link : Bool)

theorem reg_softReset (a : Nat) : (d.softReset link).reg a = if a ∈ keptRegs then d.reg a else resetReg d.grade a := by
  rw [softReset_eq, reg_basesAgain, reg_regsAgain]
  have empty (c : PciCfg) (b : Boot) : ({ cleared d b d.jtag with cfg := c } : Dev).reg a = resetReg d.grade a := rfl
  rw [empty]
  split
  next next' =>
    obtain ⟨b, few, here⟩ := next'
    have few := List.mem_range.1 few
    have apart' : a ∉ keptRegs := by
      rw [mem_keptRegs]
      rintro (⟨c, less, same⟩ | ⟨p, less, same⟩)
      · simp only [R.TB_PPS_NEXT_NEXT, R.TB_RATE_RATE] at here same
        omega
      · simp only [R.TB_PPS_NEXT_NEXT, R.DPLL_FB_FB] at here same
        omega
    rw [if_neg apart', ← here, resetReg_ppsNext d.grade few]
  next => rfl

theorem unswept_softReset : unswept (d.softReset link) =
    { cleared d { d.boot with run := none, spiDue := d.boot.bootsel } d.jtag with cfg := if link then .reset else d.cfg } := by
  rw [softReset_eq, unswept_basesAgain, unswept_regsAgain]
  rfl

theorem softReset_tbu : (d.softReset link).tbu = { Tbu.reset with bases := (d.softReset link).tbu.bases } := by
  rw [softReset_eq]
  exact (basesAgain_since ..).trans (by rw [regsAgain_tbu]; rfl)

theorem base_softReset {b : Nat} (few : b < 4) : (d.softReset link).base b = keptBase d b := by
  rw [softReset_eq]
  exact base_basesAgain d _ few

end SoftReset

/-- What a soft reset of a level leaves. -/
structure SoftlyReset (d : Dev) (c : PciCfg) (level : Nat) (e : Dev) : Prop where
  rest : unswept e = { cleared d { d.boot with run := none, spiDue := d.boot.bootsel } d.jtag with cfg := c }
  cause : e.fld R.TOP_RESET_CAUSE_LEVEL = level
  tbu : e.tbu = { Tbu.reset with bases := e.tbu.bases }
  bases : ∀ b, b < 4 → e.tbRate b = d.tbRate b ∧ e.base b = keptBase d b
  fb : ∀ p, p < 2 → e.reg (R.DPLL_FB_FB p).addr = d.reg (R.DPLL_FB_FB p).addr
  regs : ∀ r, (∀ b, b < 4 → r ≠ (R.TB_RATE_RATE b).addr) → (∀ p, p < 2 → r ≠ (R.DPLL_FB_FB p).addr) → r ≠ R.TOP_RESET_CAUSE_LEVEL.addr →
    e.reg r = resetReg d.grade r

theorem softLevel_softlyReset (d : Dev) (up : d.boot.rstLow = false) (link : Bool) {level : Nat} (code : level < 8) :
    SoftlyReset d (if link then .reset else d.cfg) level (d.softLevel link level) := by
  have levels : d.softLevel link level = (d.softReset link).setFld R.TOP_RESET_CAUSE_LEVEL level := if_neg (by simp [up])
  have kept {a : Nat} (other : a ≠ R.TOP_RESET_CAUSE_LEVEL.addr) : ((d.softReset link).setFld R.TOP_RESET_CAUSE_LEVEL level).reg a =
      if a ∈ keptRegs then d.reg a else resetReg d.grade a := (reg_setFld_ne _ _ _ other).trans (reg_softReset ..)
  have again {a : Nat} (mem : a ∈ keptRegs) : ((d.softReset link).setFld R.TOP_RESET_CAUSE_LEVEL level).reg a = d.reg a := by
    refine (kept ?_).trans (if_pos mem)
    rintro rfl
    exact absurd mem (by decide)
  rw [levels]
  refine ⟨(unswept_setFld ..).trans (unswept_softReset ..), (fld_setFld_self _ R.TOP_RESET_CAUSE_LEVEL level (by decide)).trans (Nat.mod_eq_of_lt code),
    ?_, fun b few => ⟨?_, ?_⟩, fun p few => again ((mem_keptRegs _).2 (.inr ⟨p, few, rfl⟩)), fun r rate fb other => (kept other).trans (if_neg ?_)⟩
  · rw [setFld_tbu]
    exact softReset_tbu ..
  · rw [Dev.tbRate, Dev.fld, again ((mem_keptRegs _).2 (.inl ⟨b, few, rfl⟩)), ← Dev.fld, ← Dev.tbRate]
  · rw [base_of_tbu (setFld_tbu ..)]
    exact base_softReset d link few
  · rw [mem_keptRegs]
    rintro (⟨b, few, same⟩ | ⟨p, few, same⟩)
    · exact rate b few same
    · exact fb p few same

/-- Settles O59: the deep levels by the state they write, the soft ones by what they keep. -/
theorem resetLevelsRestoreThePart : Obligations.ResetLevelsRestoreThePart := by
  unfold Obligations.ResetLevelsRestoreThePart
  intro s d clear low soft
  have soft_of {c : PciCfg} {level : Nat} {e : Dev} (h : SoftlyReset d c level e) : soft c level e :=
    ⟨h.rest, h.cause, h.tbu, h.bases, h.fb, h.regs⟩
  refine ⟨makes_of _ (exec_powerOnReset s) (powerOn_eq d false), makes_of _ (exec_supplyLoss s) (powerOn_eq d true), makes_of _ (exec_rstNReset s) (rstLow_eq d),
    fun role bootsel key roll => ⟨fun held => makes_of _ (exec_rstNRise role bootsel key roll s) (rstRise_low d held role bootsel key roll),
      fun up => makes_of _ (exec_rstNRise role bootsel key roll s) (if_neg ?_)⟩, fun held => makes_of _ (exec_perstNReset s) (if_pos held),
    fun up => ⟨_, makes_of _ (exec_perstNReset s) rfl, soft_of (softLevel_softlyReset d up true (level := 2) (by decide))⟩, fun v => ?_⟩
  · simp [show s.dev.boot.rstLow = false from up]
  · intro keyed
    refine ⟨fun h => makes_of _ (exec_softReset v s) ?_, fun key up => ⟨_, makes_of _ (exec_softReset v s) (if_pos key),
      soft_of (softLevel_softlyReset d up false (level := 3) (by decide))⟩⟩
    by_cases key : keyed
    · exact (if_pos key).trans (if_pos (h.resolve_left (not_not_intro key)))
    · exact if_neg key

end Sys2Proof.Proofs
end

section
/-! SUPPORT. What the operations of a pair store, and what they leave alone (13 R387 to R391, R400 to R404). -/
namespace Sys2Proof.Proofs
open Sys2Proof.Machine Sys2Proof.Laws

theorem fld_count_self (d : Dev) (f : Field) (h : f.lo + f.w ≤ 32) : (d.count f).fld f = min (d.fld f + 1) (2 ^ f.w - 1) := fld_addFld_self d f 1 h

@[simp] theorem count_works (d : Dev) (f : Field) (b : Nat) : (d.count f).works b = d.works b := works_of_hdr (count_hdr ..) b

/-- Tether's state but for the mirror, the UNFIT causes and stream ownership. -/
def lasts (t : Tth) : Tth := { t with mirror := .idle, xfer := [], causes := 0, ownStr := false }

/-! ## Mirrors, causes and stream ownership (R387, R402, R403) -/

section Mirror
variable (d : Dev)

theorem mirrorStart_tth : d.mirrorStart.tth = { d.tth with mirror := .transfer, xfer := if d.tth.role = Role.active then xferPlan d else [] } :=
  (raise_tth ..).trans ((count_tth ..).trans (setFld_tth ..))

@[simp] theorem lasts_mirrorStart : lasts d.mirrorStart.tth = lasts d.tth := by
  rw [mirrorStart_tth]
  rfl

theorem mirrorStart_boot : d.mirrorStart.boot = d.boot := (raise_boot ..).trans ((count_boot ..).trans (setFld_boot ..))

theorem works_mirrorStart (b : Nat) : d.mirrorStart.works b = d.works b :=
  (raise_works ..).trans ((count_works ..).trans (works_of_hdr (setFld_hdr ..) b))

theorem fld_mirrorStart {f : Field} (settle : f.addr ≠ 0x120128) (count : f.addr ≠ 0x120148) : d.mirrorStart.fld f = d.fld f :=
  (fld_raise ..).trans ((fld_count_of_addr _ R.TTH_REMIRROR_COUNT count).trans (fld_setFld_of_addr _ (f := R.TTH_SETTLE_LEFT) 0 settle))

theorem remirror_mirrorStart : d.mirrorStart.fld R.TTH_REMIRROR_COUNT = min (d.fld R.TTH_REMIRROR_COUNT + 1) (2 ^ R.TTH_REMIRROR_COUNT.w - 1) := by
  refine (fld_raise ..).trans ((fld_count_self _ R.TTH_REMIRROR_COUNT (by decide)).trans ?_)
  rw [fld_setFld_of_addr _ (f := R.TTH_SETTLE_LEFT) (g := R.TTH_REMIRROR_COUNT) 0 (by decide)]
  rfl

@[simp] theorem lasts_cause (i : Nat) (on : Bool) : lasts (d.cause i on).tth = lasts d.tth := rfl

theorem fld_cause (i : Nat) (on : Bool) (f : Field) : (d.cause i on).fld f = d.fld f := rfl

theorem works_cause (i : Nat) (on : Bool) (b : Nat) : (d.cause i on).works b = d.works b := rfl

theorem ownRefresh_stores : ∃ b, d.ownRefresh = { d with tth := { d.tth with ownStr := b } } := by
  unfold Dev.ownRefresh
  dsimp only
  split
  · exact ⟨d.tth.ownStr, rfl⟩
  split
  · exact ⟨false, rfl⟩
  split
  · exact ⟨true, rfl⟩
  · exact ⟨d.tth.ownStr, rfl⟩

@[simp] theorem lasts_ownRefresh : lasts d.ownRefresh.tth = lasts d.tth := by
  obtain ⟨b, stores⟩ := ownRefresh_stores d
  rw [stores]
  rfl

theorem fld_ownRefresh (f : Field) : d.ownRefresh.fld f = d.fld f := by
  obtain ⟨b, stores⟩ := ownRefresh_stores d
  rw [stores]
  rfl

theorem works_ownRefresh (b : Nat) : d.ownRefresh.works b = d.works b := by
  obtain ⟨c, stores⟩ := ownRefresh_stores d
  rw [stores]
  rfl

end Mirror

/-! ## Joining (R389 to R391) -/

section Joining
variable (d : Dev)

/-- JOIN to STANDBY, before the mirror. -/
def standbyRole (d : Dev) : Dev :=
  { d with tth := { d.tth with role := .standby, ownOut := false, claimed := none, handed := false, causes := d.tth.lasting, since := 0 } }

/-- The peer's firmware as its HELLO gives it. -/
def firmwareJudged (d : Dev) : Dev := if d.tth.peer.any d.fwDiffers then d.cause 1 true else d

/-- The mirror that a new standby starts, or that it has no link. -/
def mirrorOrLink (d : Dev) : Dev := if d.tth.linkOk then d.mirrorStart else d.cause 0 true

theorem becomeStandby_eq : d.becomeStandby = (mirrorOrLink (firmwareJudged (standbyRole d))).ownRefresh := rfl

@[simp] theorem lasts_firmwareJudged : lasts (firmwareJudged d).tth = lasts d.tth := by
  unfold firmwareJudged
  split <;> rfl

theorem fld_firmwareJudged (f : Field) : (firmwareJudged d).fld f = d.fld f := by
  unfold firmwareJudged
  split <;> rfl

@[simp] theorem lasts_mirrorOrLink : lasts (mirrorOrLink d).tth = lasts d.tth := by
  unfold mirrorOrLink
  split
  · exact lasts_mirrorStart d
  · rfl

theorem fld_mirrorOrLink {f : Field} (settle : f.addr ≠ 0x120128) (count : f.addr ≠ 0x120148) : (mirrorOrLink d).fld f = d.fld f := by
  unfold mirrorOrLink
  split
  · exact fld_mirrorStart d settle count
  · rfl

theorem works_becomeStandby (b : Nat) : d.becomeStandby.works b = d.works b := by
  have judged (e : Dev) : (firmwareJudged e).works b = e.works b := by
    unfold firmwareJudged
    split <;> rfl
  have linked (e : Dev) : (mirrorOrLink e).works b = e.works b := by
    unfold mirrorOrLink
    split
    · exact works_mirrorStart e b
    · rfl
  rw [becomeStandby_eq, works_ownRefresh, linked, judged]
  rfl

theorem lasts_becomeStandby : lasts d.becomeStandby.tth = lasts { d.tth with role := .standby, ownOut := false, claimed := none, handed := false, since := 0 } := by
  rw [becomeStandby_eq, lasts_ownRefresh, lasts_mirrorOrLink, lasts_firmwareJudged]
  rfl

theorem fld_becomeStandby {f : Field} (settle : f.addr ≠ 0x120128) (count : f.addr ≠ 0x120148) : d.becomeStandby.fld f = d.fld f := by
  rw [becomeStandby_eq, fld_ownRefresh, fld_mirrorOrLink _ settle count, fld_firmwareJudged]
  rfl

theorem lasts_becomeActive : lasts d.becomeActive.tth = lasts { d.tth with role := .active, ownOut := true, claimed := some d.tbu.now } :=
  lasts_ownRefresh ..

theorem fld_becomeActive (f : Field) : d.becomeActive.fld f = d.fld f := (fld_ownRefresh ..).trans rfl

/-- The conditions under which a unit joins. -/
def joins (d : Dev) : Prop := d.works tthBase = true ∧ d.tth.role = .join ∧ d.top.st = .run

variable {d} {deferred : Bool}

theorem joinStep_rests (h : ¬ joins d) : d.joinStep deferred = d :=
  if_neg fun all => h (by simpa [joins, and_assoc] using all)

theorem joinStep_standby (h : joins d) (other : d.tth.ownIn = true ∨ d.peerActive = true) :
    d.joinStep deferred = (d.raiseIf (!d.tth.ownIn) F.ownFault).becomeStandby :=
  (if_pos (by simpa [joins, and_assoc] using h)).trans (if_pos (by simpa using other))

theorem joinStep_claims (h : joins d) (free : d.tth.ownIn = false) (alone : d.peerActive = false) (may : d.primary = true ∨ deferred = true) :
    d.joinStep deferred = d.becomeActive :=
  (if_pos (by simpa [joins, and_assoc] using h)).trans ((if_neg (by simp [free, alone])).trans (if_pos (by simpa using may)))

theorem joinStep_waits (free : d.tth.ownIn = false) (alone : d.peerActive = false) (may : d.primary = false) (early : deferred = false) :
    d.joinStep deferred = d := by
  by_cases h : joins d
  · exact (if_pos (by simpa [joins, and_assoc] using h)).trans ((if_neg (by simp [free, alone])).trans (if_neg (by simp [may, early])))
  · exact joinStep_rests h

variable (d deferred)

/-- What a step of JOIN can do. -/
theorem joinStep_cases : d.joinStep deferred = d ∨ d.joinStep deferred = (d.raiseIf (!d.tth.ownIn) F.ownFault).becomeStandby ∨
    d.joinStep deferred = d.becomeActive := by
  unfold Dev.joinStep
  split_ifs <;> simp

theorem fld_joinStep {f : Field} (settle : f.addr ≠ 0x120128) (count : f.addr ≠ 0x120148) : (d.joinStep deferred).fld f = d.fld f := by
  rcases joinStep_cases d deferred with rests | standby | active
  · rw [rests]
  · rw [standby, fld_becomeStandby _ settle count, fld_raiseIf]
  · rw [active, fld_becomeActive]

theorem peer_joinStep : (d.joinStep deferred).tth.peer = d.tth.peer := by
  rcases joinStep_cases d deferred with rests | standby | active
  · rw [rests]
  · rw [standby]
    have kept : (d.raiseIf (!d.tth.ownIn) F.ownFault).becomeStandby.tth.peer = (d.raiseIf (!d.tth.ownIn) F.ownFault).tth.peer :=
      (congrArg Tth.peer (lasts_becomeStandby _) :)
    rw [kept, raiseIf_tth]
  · rw [active]
    exact (congrArg Tth.peer (lasts_becomeActive d) :)

end Joining

/-! ## Numbered frames (R400) -/

section Frames
variable (d : Dev)

/-- A frame that is sent takes the next number, and its value is CVU1's. -/
theorem tthSend_tth (f : FrameHead → Sent) : (d.tthSend f).tth =
    { d.tth with txSeq := (d.tth.txSeq + 1) % 2 ^ 32, line := d.tth.line ++ [(d.top.tick, f (d.frameHead d.tth.txSeq).1)] } := by
  have top : (d.frameHead d.tth.txSeq).2.top = d.top := (congrArg Dev.top (unbooked_cvuCompute (d.drew 1) 1 _ _) :)
  unfold Dev.tthSend
  dsimp only
  rw [frameHead_tth, top]

theorem frameHead_seq (q : Nat) : (d.frameHead q).1.seq = BitVec.ofNat 32 q := rfl

theorem frameHead_crc (q : Nat) (works : d.works (cvuBase 1) = true) :
    (d.frameHead q).1.crc = BitVec.ofNat 32 (checkValue (leBytes 8 q) (d.frameHead q).1.payload) := by
  have value : ((d.drew 1).cvuCompute 1 (leBytes 8 q) (Config.framePayload d.free)).1 = checkValue (leBytes 8 q) (Config.framePayload d.free) := by
    unfold Dev.cvuCompute
    rw [if_pos (show (d.drew 1).works (cvuBase 1) = true from works)]
  exact congrArg (BitVec.ofNat 32) value

theorem reg_cvuCompute (k : Nat) (pre l : List Nat) {a : Nat} (other : a ≠ (R.CVU_DONE_COUNT k).addr) : (d.cvuCompute k pre l).2.reg a = d.reg a := by
  unfold Dev.cvuCompute
  split
  · exact reg_count_ne d _ other
  · rfl

theorem reg_tthSend (f : FrameHead → Sent) {a : Nat} (other : a ≠ (R.CVU_DONE_COUNT 1).addr) : (d.tthSend f).reg a = d.reg a :=
  (reg_cvuCompute (d.drew 1) 1 _ _ other :)

end Frames
end Sys2Proof.Proofs
end

section
/-! SUPPORT. HELLO, frames and what they bring (13 R392 to R405). -/
namespace Sys2Proof.Proofs
open Sys2Proof.Machine Sys2Proof.Laws

/-- An event of Tether makes what it does, and then what follows every one. -/
theorem makes_tthAct {i : Instr} {s : State} {f : Dev → Dev} {e : Dev} (means : exec i s = s.act (·.tthAct f)) (h : f s.dev = e) : Makes i s e.tthAfter :=
  makes_of _ means (congrArg Dev.tthAfter h)

/-! ## HELLO (R392) -/

section Hello
variable (d : Dev) (h : Hello)

/-- A HELLO as remembered. -/
def helloHeard (d : Dev) (h : Hello) : Dev := { d with tth := { d.tth with peer := some h } }.setFlds [(R.TTH_PEER_PART, h.part), (R.TTH_PEER_SIREV, h.sirev)]

theorem helloHeard_tth : (helloHeard d h).tth = { d.tth with peer := some h } := setFlds_tth ..

theorem helloHeard_boot : (helloHeard d h).boot = d.boot := setFlds_boot ..

theorem part_helloHeard : (helloHeard d h).fld R.TTH_PEER_PART = h.part % 2 ^ 16 :=
  fld_setFlds_of_pairwise (w := (R.TTH_PEER_PART, h.part)) (by simp [R.TTH_PEER_PART, R.TTH_PEER_SIREV]) _
    (by simp [apart, R.TTH_PEER_PART, R.TTH_PEER_SIREV]) (by simp)

theorem sirev_helloHeard : (helloHeard d h).fld R.TTH_PEER_SIREV = h.sirev % 2 ^ 8 :=
  fld_setFlds_of_pairwise (w := (R.TTH_PEER_SIREV, h.sirev)) (by simp [R.TTH_PEER_PART, R.TTH_PEER_SIREV]) _
    (by simp [apart, R.TTH_PEER_PART, R.TTH_PEER_SIREV]) (by simp)

/-- What TTH_PEER shows of a HELLO, with a MISMATCH. -/
def peerShown (h : Hello) (k : Nat) (e : Dev) : Prop :=
  e.tth.peer = some h ∧ e.fld R.TTH_PEER_PART = h.part % 2 ^ 16 ∧ e.fld R.TTH_PEER_SIREV = h.sirev % 2 ^ 8 ∧ e.fld R.TTH_PEER_MISMATCH = k

variable {d h}

theorem hello_unheard (off : d.works tthBase = false ∨ d.tth.linkOk = false) : d.hello h = d :=
  if_pos (by rcases off with off | off <;> simp [off])

section Heard
variable (works : d.works tthBase = true) (link : d.tth.linkOk = true)
include works link

theorem hello_alien (alien : h.part ≠ 0x5140 ∨ h.sirev ≠ Config.sirev.toNat) : d.hello h = (helloHeard d h).mismatch h 1 := by
  unfold Dev.hello
  exact (if_neg (by simp [works, link])).trans (if_pos alien)

theorem hello_twin (kind : ¬ (h.part ≠ 0x5140 ∨ h.sirev ≠ Config.sirev.toNat)) (twin : h.rolePin = d.boot.role) :
    d.hello h = (helloHeard d h).mismatch h 2 := by
  unfold Dev.hello
  exact (if_neg (by simp [works, link])).trans ((if_neg kind).trans (if_pos (twin.trans (congrArg Boot.role (helloHeard_boot d h)).symm)))

/-- A matching HELLO may end JOIN. -/
def helloJoined (d : Dev) (h : Hello) : Dev := ((helloHeard d h).setFld R.TTH_PEER_MISMATCH 0).joinStep false

theorem hello_matched (kind : ¬ (h.part ≠ 0x5140 ∨ h.sirev ≠ Config.sirev.toNat)) (other : h.rolePin ≠ d.boot.role) : d.hello h =
    if (helloJoined d h).tth.role = .standby then (helloJoined d h).helloStandby h
    else if (helloJoined d h).tth.role = .active then (helloJoined d h).helloActive h else helloJoined d h := by
  unfold Dev.hello
  exact (if_neg (by simp [works, link])).trans ((if_neg kind).trans (if_neg fun twin => other (twin.trans (congrArg Boot.role (helloHeard_boot d h)))))

end Heard

/-- The unit in JOIN is barred, but for a primary beside another JOIN with another part. -/
theorem mismatch_role (e : Dev) (k : Nat) : (e.mismatch h k).tth =
    if e.tth.role = .join ∧ ¬ (k = 1 ∧ h.role = .join ∧ e.primary = true) then { e.tth with role := .barred } else e.tth := by
  have role : ((e.setFld R.TTH_PEER_MISMATCH k).raise F.pairMismatch).tth = e.tth := (raise_tth ..).trans (setFld_tth ..)
  have boot : ((e.setFld R.TTH_PEER_MISMATCH k).raise F.pairMismatch).boot = e.boot := (raise_boot ..).trans (setFld_boot ..)
  unfold Dev.mismatch
  dsimp only
  rw [Dev.primary, role, boot, ← Dev.primary]
  split
  · rfl
  · exact role

theorem fld_mismatch (e : Dev) (k : Nat) (f : Field) : (e.mismatch h k).fld f = (e.setFld R.TTH_PEER_MISMATCH k).fld f := by
  have raised := fld_raise (e.setFld R.TTH_PEER_MISMATCH k) F.pairMismatch f
  unfold Dev.mismatch
  dsimp only
  split <;> exact raised

theorem peerShown_mismatch {k : Nat} (few : k < 4) : peerShown h k ((helloHeard d h).mismatch h k) := by
  refine ⟨?_, ?_, ?_, (fld_mismatch ..).trans ((fld_setFld_self _ R.TTH_PEER_MISMATCH k (by decide)).trans (Nat.mod_eq_of_lt few))⟩
  · rw [mismatch_role, helloHeard_tth]
    split <;> rfl
  · exact (fld_mismatch ..).trans ((fld_setFld_ne _ R.TTH_PEER_MISMATCH _ k (by decide) (.inr (.inr (by decide)))).trans (part_helloHeard d h))
  · exact (fld_mismatch ..).trans ((fld_setFld_ne _ R.TTH_PEER_MISMATCH _ k (by decide) (.inr (.inr (by decide)))).trans (sirev_helloHeard d h))

/-- The peer, the role and TTH_PEER are as before. -/
def peerKept (d e : Dev) : Prop := e.tth.peer = d.tth.peer ∧ e.tth.role = d.tth.role ∧ ∀ f : Field, f.addr = R.TTH_PEER_PART.addr → e.fld f = d.fld f

theorem peerKept_refl (d : Dev) : peerKept d d := ⟨rfl, rfl, fun _ _ => rfl⟩

theorem peerKept_trans {d e g : Dev} (first : peerKept d e) (next' : peerKept e g) : peerKept d g :=
  ⟨next'.1.trans first.1, next'.2.1.trans first.2.1, fun f here => (next'.2.2 f here).trans (first.2.2 f here)⟩

theorem peerKept_mirrorStart (d : Dev) : peerKept d d.mirrorStart :=
  ⟨(congrArg Tth.peer (lasts_mirrorStart d) :), (congrArg Tth.role (lasts_mirrorStart d) :),
    fun _ here => fld_mirrorStart d (by rw [here]; decide) (by rw [here]; decide)⟩

theorem peerKept_cause (d : Dev) (i : Nat) (on : Bool) : peerKept d (d.cause i on) := ⟨rfl, rfl, fun _ _ => rfl⟩

theorem peerKept_count (d : Dev) {f : Field} (other : R.TTH_PEER_PART.addr ≠ f.addr) : peerKept d (d.count f) :=
  ⟨congrArg Tth.peer (count_tth ..), congrArg Tth.role (count_tth ..), fun _ here => fld_count_of_addr d f (by rwa [here])⟩

theorem peerKept_raise (d : Dev) (f : Flag) : peerKept d (d.raise f) :=
  ⟨congrArg Tth.peer (raise_tth ..), congrArg Tth.role (raise_tth ..), fun _ _ => fld_raise ..⟩

/-- A tick count that differs is to be aligned again. -/
def realigning (d : Dev) : Dev := { d with tth := { d.tth with realign := true } }

theorem peerKept_realigning (d : Dev) : peerKept d (realigning d) := ⟨rfl, rfl, fun _ _ => rfl⟩

/-- The active's firmware is judged. -/
def helloJudged (d : Dev) (h : Hello) : Dev := if d.fwDiffers h then d.cause 1 true else d

theorem peerKept_helloJudged (d : Dev) (h : Hello) : peerKept d (helloJudged d h) := by
  unfold helloJudged
  split
  · exact peerKept_cause d 1 true
  · exact peerKept_refl d

theorem helloStandby_eq (d : Dev) (h : Hello) : d.helloStandby h =
    if h.role = .active ∧ h.tick ≠ (helloJudged d h).top.tick ∧ (helloJudged d h).tth.realign = false then
      ((((realigning (helloJudged d h)).cause 4 true).count R.TTH_REALIGN_COUNT).raise F.tthRealign).mirrorStart
    else helloJudged d h := rfl

theorem peerKept_helloStandby (d : Dev) (h : Hello) : peerKept d (d.helloStandby h) := by
  rw [helloStandby_eq]
  split
  · exact peerKept_trans (peerKept_helloJudged d h) (peerKept_trans (peerKept_realigning _) (peerKept_trans (peerKept_cause _ 4 true)
      (peerKept_trans (peerKept_count _ (f := R.TTH_REALIGN_COUNT) (by decide)) (peerKept_trans (peerKept_raise _ _) (peerKept_mirrorStart _)))))
  · exact peerKept_helloJudged d h

theorem peerKept_helloActive (d : Dev) (h : Hello) : peerKept d (d.helloActive h) := by
  unfold Dev.helloActive
  split_ifs
  · exact peerKept_mirrorStart d
  · exact peerKept_refl d
  · exact peerKept_refl d
  · exact ⟨rfl, rfl, fun _ _ => rfl⟩

theorem peerShown_of_kept {k : Nat} {d e : Dev} (shown : peerShown h k d) (kept : peerKept d e) : peerShown h k e := by
  obtain ⟨peer, part, sirev, mismatch⟩ := shown
  obtain ⟨peer', -, flds⟩ := kept
  exact ⟨peer'.trans peer, (flds R.TTH_PEER_PART rfl).trans part, (flds R.TTH_PEER_SIREV rfl).trans sirev, (flds R.TTH_PEER_MISMATCH rfl).trans mismatch⟩

theorem peerShown_helloJoined : peerShown h 0 (helloJoined d h) := by
  have kept (f : Field) (here : f.addr = R.TTH_PEER_PART.addr) : (helloJoined d h).fld f = ((helloHeard d h).setFld R.TTH_PEER_MISMATCH 0).fld f :=
    fld_joinStep _ false (by rw [here]; decide) (by rw [here]; decide)
  refine ⟨(peer_joinStep ..).trans ((congrArg Tth.peer (setFld_tth ..)).trans (congrArg Tth.peer (helloHeard_tth d h))), ?_, ?_,
    (kept R.TTH_PEER_MISMATCH rfl).trans (fld_setFld_self _ R.TTH_PEER_MISMATCH 0 (by decide))⟩
  · exact (kept R.TTH_PEER_PART rfl).trans ((fld_setFld_ne _ R.TTH_PEER_MISMATCH _ 0 (by decide) (.inr (.inr (by decide)))).trans (part_helloHeard d h))
  · exact (kept R.TTH_PEER_SIREV rfl).trans ((fld_setFld_ne _ R.TTH_PEER_MISMATCH _ 0 (by decide) (.inr (.inr (by decide)))).trans (sirev_helloHeard d h))

/-- What follows JOIN keeps the peer and the role. -/
theorem peerKept_followed (e : Dev) : peerKept e (if e.tth.role = .standby then e.helloStandby h else if e.tth.role = .active then e.helloActive h else e) := by
  split_ifs
  · exact peerKept_helloStandby e h
  · exact peerKept_helloActive e h
  · exact peerKept_refl e

/-- A matching active makes a unit in JOIN in RUN a standby. -/
theorem helloJoined_standby (works : d.works tthBase = true) (link : d.tth.linkOk = true) (join : d.tth.role = .join) (run : d.top.st = .run)
    (active : h.role = .active) : (helloJoined d h).tth.role = .standby := by
  obtain ⟨e, heard⟩ : ∃ e, e = (helloHeard d h).setFld R.TTH_PEER_MISMATCH 0 := ⟨_, rfl⟩
  have tth : e.tth = { d.tth with peer := some h } := by rw [heard, setFld_tth, helloHeard_tth]
  have joins' : joins e := by
    refine ⟨?_, by rw [tth]; exact join, ?_⟩
    · have hdr : e.hdr = d.hdr := heard ▸ (setFld_hdr ..).trans (setFlds_hdr ..)
      rw [works_of_hdr hdr]
      exact works
    · have top : e.top = d.top := heard ▸ (setFld_top ..).trans (setFlds_top ..)
      rw [top]
      exact run
  have peer : e.peerActive = true := by simp [Dev.peerActive, tth, link, active]
  rw [helloJoined, ← heard, joinStep_standby joins' (.inr peer)]
  exact (congrArg Tth.role (lasts_becomeStandby _) :)

end Hello

/-! ## Frames received (R400) -/

section Frame
variable (d : Dev) (h : FrameHead) (f : Dev → Dev)

/-- How often the frame has failed. -/
def frameFails (d : Dev) (q : Nat) : Nat := match d.tth.miss.find? (fun x => x.1 == q) with | some x => x.2 | none => 0

/-- The numbers of frames after one that is taken. -/
def frameTaken (d : Dev) (q : Nat) : Dev :=
  { d with tth := { d.tth with rxNext := if frameFails d q = 0 then (q + 1) % 2 ^ 32 else d.tth.rxNext, miss := d.tth.miss.filter (fun x => x.1 != q) } }

/-- The value that CVU1 computes for a frame, and the part then. -/
def frameValue (d : Dev) (h : FrameHead) : Nat × Dev := (frameTaken d h.seq.toNat).cvuCompute 1 (leBytes 8 h.seq.toNat) h.payload

/-- The part that has counted a frame's failure in CVU1. -/
def frameFailed (d : Dev) (h : FrameHead) : Dev := (frameValue d h).2.cvuFail 1 (leBytes 8 h.seq.toNat) (frameValue d h).1 h.crc.toNat

/-- The frame is awaited again. -/
def frameMissed (d : Dev) (h : FrameHead) : Dev :=
  { frameFailed d h with tth := { (frameFailed d h).tth with
      miss := (h.seq.toNat, frameFails d h.seq.toNat + 1) :: d.tth.miss.filter (fun x => x.1 != h.seq.toNat) } }

/-- The frame is asked for again. -/
def frameAgain (d : Dev) (h : FrameHead) : Dev :=
  ((frameMissed d h).tthSend (fun g => .frame ⟨g, (frameFailed d h).top.tick, .resend h.seq⟩)).count R.TTH_RETRY_COUNT

theorem linkFrame_eq : d.linkFrame h f = if frameFails d h.seq.toNat = 0 ∧ h.seq.toNat ≠ d.tth.rxNext then d
    else if ((frameTaken d h.seq.toNat).works (cvuBase 1) && (frameValue d h).1 != h.crc.toNat) = true then
      (if frameFails d h.seq.toNat < 3 then frameAgain d h else (frameFailed d h).declareDown)
    else f (frameValue d h).2 := rfl

variable {d h}

theorem linkFrame_untaken (first : frameFails d h.seq.toNat = 0) (other : h.seq.toNat ≠ d.tth.rxNext) : d.linkFrame h f = d :=
  (linkFrame_eq d h f).trans (if_pos ⟨first, other⟩)

section Taken
variable (taken : frameFails d h.seq.toNat ≠ 0 ∨ h.seq.toNat = d.tth.rxNext)
include taken

theorem linkFrame_good (good : ¬ ((frameTaken d h.seq.toNat).works (cvuBase 1) = true ∧ (frameValue d h).1 ≠ h.crc.toNat)) :
    d.linkFrame h f = f (frameValue d h).2 :=
  (linkFrame_eq d h f).trans ((if_neg fun untaken => taken.elim (· untaken.1) (untaken.2 ·)).trans (if_neg (by simpa using good)))

theorem linkFrame_bad (bad : (frameTaken d h.seq.toNat).works (cvuBase 1) = true ∧ (frameValue d h).1 ≠ h.crc.toNat) :
    d.linkFrame h f = if frameFails d h.seq.toNat < 3 then frameAgain d h else (frameFailed d h).declareDown :=
  (linkFrame_eq d h f).trans ((if_neg fun untaken => taken.elim (· untaken.1) (untaken.2 ·)).trans (if_pos (by simpa using bad)))

end Taken

variable (d h)

theorem frameFailed_tth : (frameFailed d h).tth = (frameTaken d h.seq.toNat).tth := (cvuFail_tth ..).trans (cvuCompute_tth ..)

theorem unbooked_cvuFail (d : Dev) (k : Nat) (pre : List Nat) (got want : Nat) : unbooked (d.cvuFail k pre got want) = unbooked d := by
  simp [Dev.cvuFail]

theorem frameFailed_top : (frameFailed d h).top = d.top :=
  (congrArg Dev.top ((unbooked_cvuFail ..).trans (unbooked_cvuCompute ..)) :)

theorem retry_frameFailed : (frameFailed d h).fld R.TTH_RETRY_COUNT = d.fld R.TTH_RETRY_COUNT := by
  have counted (e : Dev) (got want : Nat) (pre : List Nat) : (e.cvuFail 1 pre got want).fld R.TTH_RETRY_COUNT = e.fld R.TTH_RETRY_COUNT := by
    unfold Dev.cvuFail
    refine (fld_note ..).trans ((fld_raise ..).trans ((fld_setFlds_of_addr _ _ ?_).trans (fld_count_of_addr e (R.CVU_ERR_COUNT 1) (by decide))))
    simp [R.TTH_RETRY_COUNT, R.CVU_TAG_LO_TAG_LO, R.CVU_TAG_HI_TAG_HI, R.CVU_GOT_GOT, R.CVU_EXP_EXP]
  have computed : (frameValue d h).2.fld R.TTH_RETRY_COUNT = (frameTaken d h.seq.toNat).fld R.TTH_RETRY_COUNT := by
    rw [Dev.fld, frameValue, reg_cvuCompute _ 1 _ _ (a := R.TTH_RETRY_COUNT.addr) (by decide), Dev.fld]
  exact (counted ..).trans (computed.trans rfl)

theorem frameAgain_miss : (frameAgain d h).tth.miss = (h.seq.toNat, frameFails d h.seq.toNat + 1) :: d.tth.miss.filter (fun x => x.1 != h.seq.toNat) := by
  rw [frameAgain, count_tth, tthSend_tth]
  rfl

theorem frameAgain_line : ∃ x : MirrorFrame, x.chunk = .resend h.seq ∧ (frameAgain d h).tth.line = d.tth.line ++ [(d.top.tick, .frame x)] := by
  refine ⟨⟨((frameMissed d h).frameHead (frameMissed d h).tth.txSeq).1, (frameFailed d h).top.tick, .resend h.seq⟩, rfl, ?_⟩
  have line : (frameMissed d h).tth.line = d.tth.line := (congrArg Tth.line (frameFailed_tth d h) :)
  have tick : (frameMissed d h).top.tick = d.top.tick := congrArg Top.tick (frameFailed_top d h)
  rw [frameAgain, count_tth, tthSend_tth]
  dsimp only
  rw [line, tick]

theorem frameAgain_retry : (frameAgain d h).fld R.TTH_RETRY_COUNT = min (d.fld R.TTH_RETRY_COUNT + 1) (2 ^ R.TTH_RETRY_COUNT.w - 1) := by
  refine (fld_count_self _ R.TTH_RETRY_COUNT (by decide)).trans ?_
  rw [Dev.fld, reg_tthSend _ _ (a := R.TTH_RETRY_COUNT.addr) (by decide), ← Dev.fld, ← retry_frameFailed d h]
  rfl

end Frame

/-! ## Markers (R396, R399, R405) -/

theorem diverge_markerDigests {d : Dev} {m : Marker} (differs : d.tth.outNow ≠ m.outDigest) :
    (d.markerDigests m).fld R.TTH_DIVERGE_COUNT = min (d.fld R.TTH_DIVERGE_COUNT + 1) (2 ^ R.TTH_DIVERGE_COUNT.w - 1) := by
  have remirrored (e : Dev) : (e.cause 2 true).mirrorStart.tth.outNow = e.tth.outNow ∧
      (e.cause 2 true).mirrorStart.fld R.TTH_DIVERGE_COUNT = e.fld R.TTH_DIVERGE_COUNT :=
    ⟨(congrArg Tth.outNow (lasts_mirrorStart (e.cause 2 true)) :), fld_mirrorStart (e.cause 2 true) (by decide) (by decide)⟩
  have counts {e : Dev} (now : e.tth.outNow = d.tth.outNow ∧ e.fld R.TTH_DIVERGE_COUNT = d.fld R.TTH_DIVERGE_COUNT) :
      (if e.tth.outNow = m.outDigest then e else ((e.count R.TTH_DIVERGE_COUNT).raise F.diverge).note .tthDiverge).fld R.TTH_DIVERGE_COUNT =
        min (d.fld R.TTH_DIVERGE_COUNT + 1) (2 ^ R.TTH_DIVERGE_COUNT.w - 1) := by
    rw [if_neg (by rw [now.1]; exact differs), fld_note, fld_raise, fld_count_self _ _ (by decide), now.2]
  unfold Dev.markerDigests
  dsimp only
  refine counts ?_
  cases d.tth.mirror with
  | transfer => exact ⟨rfl, rfl⟩
  | idle =>
    dsimp only
    split
    · exact ⟨rfl, rfl⟩
    · exact remirrored d
  | settling =>
    dsimp only
    split
    · exact remirrored d
    · split <;> exact ⟨rfl, rfl⟩

/-- The UNFIT causes after a marker has been compared for BUDGET. -/
def budgetCauses (d : Dev) (m : Marker) : Nat :=
  if d.fld R.PWR_LEVEL_OWN < m.level then setBits d.tth.causes 6 1 1
  else if d.fld R.PWR_LEVEL_OWN = m.level then setBits d.tth.causes 6 1 0 else d.tth.causes

theorem markerBudget_tth (d : Dev) (m : Marker) : (d.markerBudget m).tth = { d.tth with causes := budgetCauses d m } := by
  unfold budgetCauses
  unfold Dev.markerBudget
  dsimp only
  split_ifs <;> rfl

/-! ## Chunks and the state copy (R403) -/

/-- A piece that missed its tick is asked for again. -/
def pieceAgain (d : Dev) (f : MirrorFrame) : Dev :=
  ({ d with tth := { d.tth with miss := (f.head.seq.toNat, 1) :: d.tth.miss } }.tthSend (fun g => .frame ⟨g, d.top.tick, .resend f.head.seq⟩)).count R.TTH_RETRY_COUNT

theorem chunk_eq (d : Dev) {f : MirrorFrame} (request : ∀ q, f.chunk ≠ .resend q) (copied : ∀ i j, f.chunk ≠ .copied i j) :
    d.chunk f = if !d.isStandby then d
      else if d.tth.mirror == .transfer && f.chunk.piece.isSome && f.tick != d.top.tick then pieceAgain d f else d.mirrored f.chunk := by
  unfold Dev.chunk
  split
  next q here => exact absurd here (request q)
  next i j here => exact absurd here (copied i j)
  next => rfl

theorem pieceAgain_shows (d : Dev) (f : MirrorFrame) : (pieceAgain d f).tth.miss = (f.head.seq.toNat, 1) :: d.tth.miss ∧ (pieceAgain d f).tabs = d.tabs ∧
    (pieceAgain d f).dram = d.dram ∧ (pieceAgain d f).localMem = d.localMem := by
  have untold' : untold (pieceAgain d f) = untold d :=
    (untold_of_unbooked (unbooked_count ..)).trans ((untold_tthSend ..).trans rfl)
  refine ⟨?_, (congrArg Dev.tabs untold' :), (congrArg Dev.dram untold' :), (congrArg Dev.localMem untold' :)⟩
  rw [pieceAgain, count_tth, tthSend_tth]

section State
variable (d : Dev) (m : MirrorState)

/-- The running state of the active, as a standby takes it. -/
def stateTaken (d : Dev) (m : MirrorState) : Dev :=
  { d with xpt := m.xpt
           obj := { d.obj with moves := m.obj.moves, admitted := m.obj.admitted, pHist := m.obj.pHist,
                               rend := m.obj.rend.foldl (fun r e => smSet (fun _ => ObjR.zero) r e.1 (copyObjR d.top.tick (d.rendOf e.1) e.2)) [] }
           out := { m.out with banks := d.out.banks, chains := m.out.chains.foldl (fun r e =>
             smSet (fun _ => ChainR.zero) r e.1 (copyChain d.top.tick (smGet (fun _ => ChainR.zero) d.out.chains e.1) e.2)) [] }
           slp := m.slp, fmn := m.fmn, tth := { d.tth with mirror := .settling } }

/-- The bases go to the active's. -/
def basesTaken (d : Dev) (m : MirrorState) : Dev := (List.range 4).foldl (fun d b => d.baseJump b (m.bases.getD b 0)) (stateTaken d m)

/-- The sets from a tick on are dropped, and LINK, DIGEST and TICK are no causes any more. -/
def resumes (e : Dev) (n : Nat) : Dev := (((e.dropAllSets n).cause 0 false).cause 2 false).cause 4 false

theorem untimed_basesTaken : untimed (basesTaken d m) = untimed (stateTaken d m) :=
  foldl_keeps (f := fun (d : Dev) b => d.baseJump b (m.bases.getD b 0)) untimed (fun e b => untimed_baseJump e b _) _ _

theorem regs_basesTaken : (basesTaken d m).regs = d.regs :=
  foldl_keeps (f := fun (d : Dev) b => d.baseJump b (m.bases.getD b 0)) Dev.regs (fun _ _ => rfl) _ _

theorem val_basesTaken {b : Nat} (few : b < 4) : ((basesTaken d m).base b).val = m.bases.getD b 0 % 2 ^ 96 := by
  have folded := foldl_writes (get := fun (x : Dev) => (x.base b).val) (hit := fun k => k = b) (v := m.bases.getD b 0 % 2 ^ 96)
    (step := fun (d : Dev) b => d.baseJump b (m.bases.getD b 0)) (fun x k same => by subst same; rw [base_baseJump_self])
    (fun x k other => congrArg TBase.val (base_baseJump_ne x k _ (Ne.symm other))) (List.range 4) (stateTaken d m)
  exact folded.trans (if_pos ⟨b, List.mem_range.2 few, rfl⟩)

theorem settleTicks_of {d e : Dev} (latched : e.latched = d.latched) (grade : e.grade = d.grade) (tabs : e.tabs = d.tabs)
    (rate : ∀ f : Field, f.addr = R.TOP_RATE_BLOCK.addr → e.fld f = d.fld f) (pipe : e.fld R.TOP_PIPE_DSP_LAG = d.fld R.TOP_PIPE_DSP_LAG) :
    settleTicks e = settleTicks d := by
  have block : e.blockB = d.blockB := by rw [Dev.blockB, rate R.TOP_RATE_BLOCK rfl, Dev.blockB]
  have mult : e.rateM = d.rateM := by rw [Dev.rateM, rate R.TOP_RATE_FS_MULT rfl, Dev.rateM]
  have family : e.flag R.TOP_RATE_FAMILY = d.flag R.TOP_RATE_FAMILY := congrArg (· == 1) (rate R.TOP_RATE_FAMILY rfl)
  have lat (f : Field) : e.lat f = d.lat f := by rw [Dev.lat, latched, grade, Dev.lat]
  have tab (t : Nat) : e.tab t = d.tab t := by rw [Dev.tab, tabs, Dev.tab]
  simp only [settleTicks, winOf, tapCap, Dev.cap, Dev.fs, Dev.familyHz, block, mult, family, lat, tab, pipe]

theorem stateIn_eq : d.stateIn m = (resumes (basesTaken d m) d.top.tick).setFld R.TTH_SETTLE_LEFT (settleTicks ((basesTaken d m).dropAllSets d.top.tick)) := by
  have tick : (basesTaken d m).top = d.top := (congrArg Dev.top (untimed_basesTaken d m) :)
  have same : d.stateIn m = (((((basesTaken d m).dropAllSets (basesTaken d m).top.tick).cause 0 false).cause 2 false).cause 4 false).setFld R.TTH_SETTLE_LEFT
      (settleTicks ((basesTaken d m).dropAllSets (basesTaken d m).top.tick)) := by
    unfold Dev.stateIn
    rfl
  rw [same, tick, resumes]

end State
end Sys2Proof.Proofs
end

section
/-! Pairs compare and mirror (13 R392 to R405). Settles O58. -/
namespace Sys2Proof.Proofs
open Sys2Proof.Machine Sys2Proof.Laws

theorem exec_hello (h : Hello) (s : State) : exec (.hello h) s = s.act (·.tthAct (·.hello h)) := rfl
theorem exec_helloSend (s : State) : exec .helloSend s = s.act (·.helloSend) := rfl
theorem exec_mirrorAck (cs : Nat) (s : State) : exec (.mirrorAck cs) s = s.act (·.mirrorAck cs) := rfl
theorem exec_mirrorAckTimeout (s : State) : exec .mirrorAckTimeout s = s.act (·.tthAct (·.ackTimeout)) := rfl
theorem exec_settleDone (s : State) : exec .settleDone s = s.act (·.tthAct (·.settleDone)) := rfl
theorem exec_tickMarker (x : MarkerIn) (s : State) : exec (.tickMarker x) s = s.act (·.tthAct (·.tickMarker x)) := rfl
theorem exec_mirrorCommand (m : MirrorCmd) (data : List Nat) (s : State) : exec (.mirrorCommand m data) s = s.act (·.tthAct (·.mirrorCommand m data)) := rfl
theorem exec_mirrorFrame (f : MirrorFrame) (s : State) : exec (.mirrorFrame f) s = s.act (·.tthAct (·.mirrorFrame f)) := rfl
theorem exec_mirrorStateCopy (m : MirrorState) (s : State) : exec (.mirrorStateCopy m) s = s.act (·.tthAct (·.stateCopy m)) := rfl

/-! ## What waits (R393, R404) -/

theorem mirrorAck_none {d : Dev} (none : d.tth.acks = []) (cs : Nat) : d.mirrorAck cs = d := by
  rw [Dev.mirrorAck, none]

theorem mirrorAck_first {d : Dev} {c : Cmd} {r : List Cmd} (acks : d.tth.acks = c :: r) (cs : Nat) : d.mirrorAck cs =
    (({ d with tth := { d.tth with acks := r } }.shareCmd { c with fetch := cs }).takeCmd { c with fetch := cs }).afterCommands := by
  rw [Dev.mirrorAck, acks]

/-- Settling is over: the count is 0 and the digests agree at the marker's tick. -/
def settled (d : Dev) : Prop := ∃ m, d.tth.marker = some m ∧ d.isStandby = true ∧ d.tth.mirror = .settling ∧ d.fld R.TTH_SETTLE_LEFT = 0 ∧
  m.tick = d.top.tick ∧ d.digest = m.digest

theorem settleDone_settled {d : Dev} (h : settled d) : d.settleDone = { d with tth := { d.tth with mirror := .idle } } := by
  obtain ⟨m, marker, standby, settling, left, tick, digest⟩ := h
  rw [Dev.settleDone, marker]
  exact if_pos (by simp [standby, settling, left, tick, digest])

theorem settleDone_unsettled {d : Dev} (h : ¬ settled d) : d.settleDone = d := by
  unfold Dev.settleDone
  split
  next m marker => exact if_neg fun all => h ⟨m, marker, by simpa [and_assoc] using all⟩
  next => rfl

/-! ## What arrives (R396, R400, R403) -/

section Arrivals
variable {d : Dev}

/-- The unit works and has its link. -/
def linked (d : Dev) : Prop := d.works tthBase = true ∧ d.tth.linkOk = true

theorem linked_iff : (d.works tthBase && d.tth.linkOk) = true ↔ linked d := by simp [linked]

theorem tickMarker_linked (on : linked d) (x : MarkerIn) :
    d.tickMarker x = d.linkFrame x.marker.head (fun d => if d.isStandby = true then d.markerIn x else d) := if_pos (linked_iff.2 on)

theorem tickMarker_unlinked (off : ¬ linked d) (x : MarkerIn) : d.tickMarker x = d := if_neg (mt linked_iff.1 off)

theorem mirrorFrame_linked (on : linked d) (f : MirrorFrame) : d.mirrorFrame f = d.linkFrame f.head (·.chunk f) := if_pos (linked_iff.2 on)

theorem mirrorFrame_unlinked (off : ¬ linked d) (f : MirrorFrame) : d.mirrorFrame f = d := if_neg (mt linked_iff.1 off)

theorem mirrorCommand_linked (on : linked d) (m : MirrorCmd) (data : List Nat) : d.mirrorCommand m data =
    d.linkFrame m.head (fun d => if d.isStandby = true ∧ d.awake = true ∧ d.paqTaken = false then d.takeMirrored m.cmd data else d) := by
  refine (if_pos (linked_iff.2 on)).trans (congrArg (d.linkFrame m.head) (funext fun e => ?_))
  exact if_congr (by simp [and_assoc]) rfl rfl

theorem mirrorCommand_unlinked (off : ¬ linked d) (m : MirrorCmd) (data : List Nat) : d.mirrorCommand m data = d := if_neg (mt linked_iff.1 off)

end Arrivals

theorem markerIn_eq (d : Dev) (x : MarkerIn) : d.markerIn x =
    (x.marker.asrc.foldl (fun (d : Dev) a => d.asrcDeclared a.1.val a.2.1.val a.2.2)
      (x.marker.streams.foldl (fun (d : Dev) x => d.streamDeclared x.1.val x.2)
        (x.marker.groups.foldl (fun (d : Dev) g => d.groupDeclared g.1.val g.2)
          ({ d with tth := { d.tth with marker := some x.marker, markers := true } }.setFld R.TTH_LINK_DELAY
            (clampI 0 0xFFFF (x.delay + sx 16 (d.fld R.TTH_SKEW_SKEW))).toNat)))).markerCheck := by
  unfold Dev.markerIn
  rfl

/-! ## The state copy (R403) -/

section Copy
variable {d : Dev} {m : MirrorState}

theorem stateCopy_off (off : d.works tthBase = false) : d.stateCopy m = d := if_pos (by simp [off])

theorem stateCopy_alone (role : d.tth.role ≠ .active) (down : d.tth.linkOk = false) : d.stateCopy m = d := by
  by_cases works : d.works tthBase = true
  · exact (if_neg (by simp [works])).trans ((if_neg role).trans (if_neg (by simp [down])))
  · exact stateCopy_off (by simpa using works)

theorem stateCopy_received (works : d.works tthBase = true) (role : d.tth.role ≠ .active) (link : d.tth.linkOk = true) : d.stateCopy m =
    d.linkFrame m.head (fun d => if d.isStandby = true ∧ d.tth.mirror = .transfer then d.stateIn m else d) := by
  refine (if_neg (by simp [works])).trans ((if_neg role).trans ((if_pos link).trans (congrArg (d.linkFrame m.head) (funext fun e => ?_))))
  exact if_congr (by simp) rfl rfl

theorem stateCopy_active (works : d.works tthBase = true) (role : d.tth.role = .active) : d.stateCopy m =
    if (d.pairActive && d.tth.mirror == .transfer && d.tth.xfer.isEmpty) = true then
      { d with tth := { d.tth with mirror := .settling } }.tthSend (fun h => .state (ownState d h))
    else d := (if_neg (by simp [works])).trans (if_pos role)

section Resumes
variable (e : Dev) (n : Nat)

/-- Resuming writes the pan stage's sets and the causes alone. -/
theorem resumes_keeps {α : Type} (p : Dev → α) (tth : ∀ (d : Dev) i on, p (d.cause i on) = p d) (sets : ∀ (d : Dev) n, p (d.dropAllSets n) = p d) :
    p (resumes e n) = p e := by
  rw [resumes, tth, tth, tth, sets]

theorem settleTicks_resumes (v : Nat) : settleTicks ((resumes e n).setFld R.TTH_SETTLE_LEFT v) = settleTicks (e.dropAllSets n) := by
  have stored : settleTicks ((resumes e n).setFld R.TTH_SETTLE_LEFT v) = settleTicks (resumes e n) :=
    settleTicks_of (setFld_latched ..) (setFld_grade ..) (setFld_tabs ..) (fun f here => fld_setFld_of_addr _ (f := R.TTH_SETTLE_LEFT) v (by rw [here]; decide))
      (fld_setFld_of_addr _ (f := R.TTH_SETTLE_LEFT) (g := R.TOP_PIPE_DSP_LAG) v (by decide))
  exact stored.trans (settleTicks_of rfl rfl rfl (fun _ _ => rfl) rfl)

end Resumes

/-- A view that neither the bases nor resuming touch shows what the standby took. -/
theorem copied_keeps {α : Type} (p : Dev → α) (d : Dev) (m : MirrorState) (v : Nat) (timeless : ∀ e t : Dev, untimed e = untimed t → p e = p t)
    (tth : ∀ (d : Dev) i on, p (d.cause i on) = p d) (sets : ∀ (d : Dev) n, p (d.dropAllSets n) = p d) (regs : ∀ (d : Dev) f v, p (d.setFld f v) = p d) :
    p ((resumes (basesTaken d m) d.top.tick).setFld R.TTH_SETTLE_LEFT v) = p (stateTaken d m) := by
  rw [regs, resumes_keeps _ _ p tth sets]
  exact timeless _ _ (untimed_basesTaken d m)

theorem stateIn_shows (d : Dev) (m : MirrorState) : (d.stateIn m).tth.mirror = .settling ∧ (d.stateIn m).xpt = m.xpt ∧ (d.stateIn m).slp = m.slp ∧
    (d.stateIn m).fmn = m.fmn ∧ (d.stateIn m).obj.moves = m.obj.moves ∧ (d.stateIn m).obj.admitted = m.obj.admitted ∧ (d.stateIn m).out.banks = d.out.banks ∧
    (∀ b, b < 4 → ((d.stateIn m).base b).val = m.bases.getD b 0 % 2 ^ 96) ∧
    (d.stateIn m).fld R.TTH_SETTLE_LEFT = settleTicks (d.stateIn m) % 2 ^ R.TTH_SETTLE_LEFT.w ∧
    (d.stateIn m).tabs = d.tabs ∧ (d.stateIn m).hostMem = d.hostMem ∧ (d.stateIn m).top = d.top := by
  rw [stateIn_eq]
  refine ⟨?_, ?_, ?_, ?_, ?_, ?_, ?_, fun b few => ?_, ?_, ?_, ?_, ?_⟩
  · exact copied_keeps (fun e => e.tth.mirror) d m _ (fun _ _ view => (congrArg (fun e : Dev => e.tth.mirror) view :)) (fun _ _ _ => rfl) (fun _ _ => rfl) (fun _ _ _ => rfl)
  · exact copied_keeps Dev.xpt d m _ (fun _ _ view => (congrArg Dev.xpt view :)) (fun _ _ _ => rfl) (fun _ _ => rfl) setFld_xpt
  · exact copied_keeps Dev.slp d m _ (fun _ _ view => (congrArg Dev.slp view :)) (fun _ _ _ => rfl) (fun _ _ => rfl) setFld_slp
  · exact copied_keeps Dev.fmn d m _ (fun _ _ view => (congrArg Dev.fmn view :)) (fun _ _ _ => rfl) (fun _ _ => rfl) setFld_fmn
  · exact copied_keeps (fun e => e.obj.moves) d m _ (fun _ _ view => (congrArg (fun e : Dev => e.obj.moves) view :)) (fun _ _ _ => rfl) (fun _ _ => rfl) (fun _ _ _ => rfl)
  · exact copied_keeps (fun e => e.obj.admitted) d m _ (fun _ _ view => (congrArg (fun e : Dev => e.obj.admitted) view :)) (fun _ _ _ => rfl) (fun _ _ => rfl) (fun _ _ _ => rfl)
  · exact copied_keeps (fun e => e.out.banks) d m _ (fun _ _ view => (congrArg (fun e : Dev => e.out.banks) view :)) (fun _ _ _ => rfl) (fun _ _ => rfl) (fun _ _ _ => rfl)
  · rw [base_of_tbu ((setFld_tbu ..).trans (resumes_keeps _ _ Dev.tbu (fun _ _ _ => rfl) (fun _ _ => rfl)))]
    exact val_basesTaken d m few
  · rw [settleTicks_resumes]
    exact fld_setFld_self _ R.TTH_SETTLE_LEFT _ (by decide)
  · exact copied_keeps Dev.tabs d m _ (fun _ _ view => (congrArg Dev.tabs view :)) (fun _ _ _ => rfl) (fun _ _ => rfl) setFld_tabs
  · exact copied_keeps Dev.hostMem d m _ (fun _ _ view => (congrArg Dev.hostMem view :)) (fun _ _ _ => rfl) (fun _ _ => rfl) setFld_hostMem
  · exact copied_keeps Dev.top d m _ (fun _ _ view => (congrArg Dev.top view :)) (fun _ _ _ => rfl) (fun _ _ => rfl) setFld_top

end Copy

/-- Settles O58: HELLO by what it shows and whom it bars, frames by their numbers and values, then what each of them brings. -/
theorem pairsCompareAndMirror : Obligations.PairsCompareAndMirror := by
  unfold Obligations.PairsCompareAndMirror
  refine ⟨fun s h => ?hello, fun s => ?waits, fun d h f => ?frame, fun d f a v w => ?sends, fun s x => ?marker, fun d m => ⟨markerBudget_tth d m, diverge_markerDigests⟩,
    fun s m data f => ?command, fun d f request copied => ?chunk, fun d t v o a k tick l w => ?pieces, fun s m => ?copy⟩
  case hello =>
    intro d bad1
    refine ⟨fun off => makes_tthAct (exec_hello h s) (hello_unheard off), fun works link => ⟨d.hello h, makes_tthAct (exec_hello h s) rfl, ?_⟩⟩
    have heard : (helloHeard d h).tth = { d.tth with peer := some h } := helloHeard_tth d h
    have primary : (helloHeard d h).primary = d.primary := congrArg (fun b : Boot => !b.role) (helloHeard_boot d h)
    by_cases alien : bad1
    · obtain ⟨peer, part, sirev, code⟩ := peerShown_mismatch (d := d) (h := h) (k := 1) (by decide)
      rw [hello_alien works link alien, mismatch_role, heard, primary]
      refine ⟨?_, part, sirev, code.trans (if_pos alien).symm, fun _ out => ?_, fun _ join => ?_, fun kind => absurd alien kind, fun kind => absurd alien kind⟩
      · split <;> rfl
      · rw [if_neg fun both => out both.1]
      · by_cases alone : h.role = .join ∧ d.primary = true
        · rw [if_neg (by simp [alone]), if_pos alone]
          exact join
        · rw [if_pos ⟨join, by simpa using alone⟩, if_neg alone]
    · by_cases twin : h.rolePin = d.boot.role
      · obtain ⟨peer, part, sirev, code⟩ := peerShown_mismatch (d := d) (h := h) (k := 2) (by decide)
        rw [hello_twin works link alien twin, mismatch_role, heard, primary]
        refine ⟨?_, part, sirev, code.trans ((if_neg alien).trans (if_pos twin)).symm, fun _ out => ?_, fun foreign => absurd foreign alien, fun _ _ join => ?_,
          fun _ other => absurd twin other⟩
        · split <;> rfl
        · rw [if_neg fun both => out both.1]
        · rw [if_pos ⟨join, by simp⟩]
      · have kept := peerKept_followed (h := h) (helloJoined d h)
        rw [← hello_matched works link alien twin] at kept
        obtain ⟨peer, part, sirev, code⟩ := peerShown_of_kept peerShown_helloJoined kept
        exact ⟨peer, part, sirev, code.trans ((if_neg alien).trans (if_neg twin)).symm, fun bad => absurd bad (not_or.2 ⟨alien, twin⟩), fun foreign => absurd foreign alien,
          fun _ same => absurd same twin, fun _ _ join run active => kept.2.1.trans (helloJoined_standby works link join run active)⟩
  case waits =>
    intro d
    refine ⟨fun works link => makes_of _ (exec_helloSend s) (if_pos (linked_iff.2 ⟨works, link⟩)),
      fun off => makes_of _ (exec_helloSend s) (if_neg fun up => ?off),
      fun cs none => makes_of _ (exec_mirrorAck cs s) (mirrorAck_none none cs), fun cs c r acks => makes_of _ (exec_mirrorAck cs s) (mirrorAck_first acks cs),
      fun none => makes_tthAct (exec_mirrorAckTimeout s) (if_pos (List.isEmpty_iff.2 none)), fun some' => makes_tthAct (exec_mirrorAckTimeout s) (if_neg (mt List.isEmpty_iff.1 some')),
      fun done => makes_tthAct (exec_settleDone s) (settleDone_settled done), fun rests => makes_tthAct (exec_settleDone s) (settleDone_unsettled rests)⟩
    case off =>
      obtain ⟨works, link⟩ := linked_iff.1 up
      rcases off with off | off
      · exact Bool.false_ne_true (off.symm.trans works)
      · exact Bool.false_ne_true (off.symm.trans link)
  case frame =>
    intro q fails n c bad g
    refine ⟨fun first other => linkFrame_untaken f first other, fun taken => ⟨fun good => linkFrame_good f taken good,
      fun wrong many => (linkFrame_bad f taken wrong).trans (if_neg (Nat.not_lt.2 many)), fun wrong few => ?_⟩⟩
    rw [(linkFrame_bad f taken wrong).trans (if_pos few)]
    exact ⟨frameAgain_miss d h, frameAgain_line d h, frameAgain_retry d h⟩
  case sends =>
    refine ⟨⟨_, tthSend_tth d f, frameHead_seq d _, frameHead_crc d _⟩, fun pair => ⟨if_pos pair, fun mirrored => ?_⟩, fun alone => if_neg (by simp [alone]),
      fun standby mirrored => if_pos (by simp [standby, mirrored])⟩
    have active : d.isStandby = false := by
      have role : d.tth.role = .active := by
        simp only [Dev.pairActive, Bool.and_eq_true, beq_iff_eq] at pair
        exact pair.1
      simp [Dev.isStandby, role]
    exact (if_neg (by simp [active])).trans (congrArg w ((if_pos mirrored).trans (if_pos pair)))
  case marker =>
    intro d on
    exact ⟨fun off => makes_tthAct (exec_tickMarker x s) (tickMarker_unlinked off x), fun up => makes_tthAct (exec_tickMarker x s) (tickMarker_linked up x), markerIn_eq d x⟩
  case command =>
    intro d on
    refine ⟨fun off => ⟨makes_tthAct (exec_mirrorCommand m data s) (mirrorCommand_unlinked off m data), makes_tthAct (exec_mirrorFrame f s) (mirrorFrame_unlinked off f)⟩,
      fun up => ⟨makes_tthAct (exec_mirrorCommand m data s) (mirrorCommand_linked up m data), makes_tthAct (exec_mirrorFrame f s) (mirrorFrame_linked up f)⟩, ?_⟩
    unfold Dev.takeMirrored
    rfl
  case chunk =>
    have acts := chunk_eq d request copied
    refine ⟨fun other => acts.trans (if_pos (by simp [other])), fun standby now => acts.trans ((if_neg (by simp [standby])).trans (if_neg ?_)),
      fun standby transfer piece missed => ?_⟩
    · rcases now with h | h | h <;> simp [h]
    · rw [acts.trans ((if_neg (by simp [standby])).trans (if_pos (by simp [transfer, missed, Option.isSome_iff_ne_none, piece])))]
      exact pieceAgain_shows d f
  case pieces =>
    refine ⟨?_, ?_, rfl, rfl, rfl⟩
    · exact congrArg Tab.staged (tab_setTab_self ..)
    · exact congrArg Tab.live (tab_setTab_self ..)
  case copy =>
    intro d
    refine ⟨fun off => makes_tthAct (exec_mirrorStateCopy m s) ?_, fun works active => ⟨fun pair transfer sent => ?_, fun other => ?_⟩,
      fun works role link => makes_tthAct (exec_mirrorStateCopy m s) (stateCopy_received works role link), stateIn_shows d m⟩
    · rcases off with off | ⟨role, down⟩
      · exact stateCopy_off off
      · exact stateCopy_alone role down
    · exact makes_tthAct (exec_mirrorStateCopy m s) ((stateCopy_active works active).trans (if_pos (by simp [pair, transfer, sent])))
    · exact makes_tthAct (exec_mirrorStateCopy m s) ((stateCopy_active works active).trans (if_neg (by rcases other with h | h | h <;> simp [h])))

end Sys2Proof.Proofs
end

section
/-! SUPPORT. No command moves a heartbeat path: what the loss of the link lets go on alone leaves both paths as they stand (13 R393, R411). -/
namespace Sys2Proof.Proofs
open Sys2Proof.Machine Sys2Proof.Laws

/-- The heartbeat paths that a unit hears: the pin's and the link's. -/
def paths (t : Tth) : Bool × Bool := (t.hbOk, t.linkOk)

variable (d : Dev)

@[simp] theorem foldl_tth {β : Type} {f : Dev → β → Dev} (keeps : ∀ e x, (f e x).tth = e.tth) (l : List β) : (l.foldl f d).tth = d.tth :=
  foldl_keeps Dev.tth keeps l d

/-! ## Rows that leave the tether's state alone -/

@[simp] theorem setMv_tth (j : Nat) (v : ObjMoves) : (d.setMv j v).tth = d.tth := (rfl)
@[simp] theorem setBank_tth (c b : Nat) (x : CoefBank) : (d.setBank c b x).tth = d.tth := (rfl)
@[simp] theorem setAud_tth (c b : Nat) : (d.setAud c b).tth = d.tth := (rfl)
@[simp] theorem setBase_tth (b : Nat) (x : TBase) : (d.setBase b x).tth = d.tth := (rfl)
@[simp] theorem setDpll_tth (p : Nat) (x : Dpll) : (d.setDpll p x).tth = d.tth := (rfl)
@[simp] theorem setGrp_tth (g : Nat) (x : Grp) : (d.setGrp g x).tth = d.tth := (rfl)
@[simp] theorem setPort_tth (p : Nat) (x : PortS) : (d.setPort p x).tth = d.tth := (rfl)
@[simp] theorem setRx_tth (s : Nat) (x : RxS) : (d.setRx s x).tth = d.tth := (rfl)
@[simp] theorem setTx_tth (x : Nat) (v : TxS) : (d.setTx x v).tth = d.tth := (rfl)
@[simp] theorem setAsrc_tth (a : Nat) (x : AsrcS) : (d.setAsrc a x).tth = d.tth := (rfl)
@[simp] theorem setCommitW_tth (i : CmdId) (f : CommitW → CommitW) : (d.setCommitW i f).tth = d.tth := (rfl)
@[simp] theorem setPaq_tth (l : List PaqE) : (d.setPaq l).tth = d.tth := (rfl)
@[simp] theorem unqueue_tth (c : Cmd) : (d.unqueue c).tth = d.tth := (rfl)
@[simp] theorem enqueue_tth (op : Opcode) (c : Cmd) : (d.enqueue op c).tth = d.tth := by simp [Dev.enqueue, apply_ite Dev.tth]
@[simp] theorem enlist_tth (c : Cmd) : (d.enlist c).tth = d.tth := by simp [Dev.enlist, apply_ite Dev.tth]
@[simp] theorem wroteFor_tth (i : CmdId) : (d.wroteFor i).tth = d.tth := (rfl)
@[simp] theorem captureReads_tth : d.captureReads.tth = d.tth := (rfl)
@[simp] theorem writeBoth_tth (t i v : Nat) : (d.writeBoth t i v).tth = d.tth := (rfl)
@[simp] theorem writeBothBits_tth (t i lo w v : Nat) : (d.writeBothBits t i lo w v).tth = d.tth := (rfl)

/-! ## Objects, nodes, chains and patches (R111 to R116, R170, R207 to R222) -/

@[simp] theorem dropSets_tth (j t : Nat) : (d.dropSets j t).tth = d.tth := (rfl)
@[simp] theorem dropAllSets_tth (t : Nat) : (d.dropAllSets t).tth = d.tth := (rfl)
@[simp] theorem objFetched_tth (c : Cmd) : (d.objFetched c).tth = d.tth := by simp [Dev.objFetched, apply_ite Dev.tth]
@[simp] theorem unseen_tth (op : Opcode) (c : Cmd) : (d.unseen op c).tth = d.tth := by simp [Dev.unseen, apply_ite Dev.tth]
@[simp] theorem objWord_tth (j n v : Nat) : (d.objWord j n v).tth = d.tth := by simp [Dev.objWord, apply_ite Dev.tth]
@[simp] theorem kfLate_tth (late : Bool) : (d.kfLate late).tth = d.tth := by simp [Dev.kfLate, apply_ite Dev.tth]

@[simp] theorem objSet_tth (c : Cmd) (late : Bool) : (objSet d c late).2.tth = d.tth := by
  simp [objSet, apply_ite Prod.snd, apply_ite Dev.tth]

@[simp] theorem objKeyframe_tth (c : Cmd) (first : Nat) (late : Bool) : (objKeyframe d c first late).2.tth = d.tth := by
  simp [objKeyframe, apply_ite Prod.snd, apply_ite Dev.tth]

@[simp] theorem xptNodes_tth (c : Cmd) (late : Bool) : (xptNodes d c late).2.tth = d.tth := by
  simp [xptNodes, apply_ite Prod.snd, apply_ite Dev.tth]

@[simp] theorem xptRampSet_tth (c : Cmd) (late : Bool) : (xptRampSet d c late).2.tth = d.tth := by
  simp [xptRampSet, apply_ite Prod.snd, apply_ite Dev.tth]

@[simp] theorem outSwap_tth (c : Cmd) (late : Bool) : (outSwap d c late).2.tth = d.tth := by
  simp [outSwap, apply_ite Prod.snd, apply_ite Dev.tth]

@[simp] theorem outBankLoad_tth (c : Cmd) (late : Bool) : (outBankLoad d c late).2.tth = d.tth := by
  simp [outBankLoad, apply_ite Prod.snd, apply_ite Dev.tth]

@[simp] theorem patchSet_tth (c : Cmd) (late : Bool) : (patchSet d c late).2.tth = d.tth := by
  simp [patchSet, apply_ite Prod.snd, apply_ite Dev.tth]

@[simp] theorem mtrCfg_tth (c : Cmd) (late : Bool) : (mtrCfg d c late).2.tth = d.tth := by
  simp [mtrCfg, apply_ite Prod.snd, apply_ite Dev.tth]

@[simp] theorem tableRead_tth (c : Cmd) (late : Bool) : (d.tableRead c late).2.tth = d.tth := by
  unfold Dev.tableRead
  split <;> rfl

/-! ## Commits (R87, R89, R116) -/

@[simp] theorem panValidate_tth : d.panValidate.2.tth = d.tth := by
  unfold Dev.panValidate
  dsimp only
  split
  · split
    · exact setFlds_tth ..
    · simp
  · rfl

@[simp] theorem outValidate_tth : d.outValidate.2.tth = d.tth := by
  unfold Dev.outValidate
  dsimp only
  split <;> simp

@[simp] theorem strValidate_tth : d.strValidate.2.tth = d.tth := by
  unfold Dev.strValidate
  dsimp only
  split <;> simp

@[simp] theorem swapMoves_tth : d.swapMoves.tth = d.tth := by simp [Dev.swapMoves]
@[simp] theorem discardStaged_tth : d.discardStaged.tth = d.tth := by simp [Dev.discardStaged]
@[simp] theorem swapStaged_tth : d.swapStaged.tth = d.tth := by simp [Dev.swapStaged, apply_ite Dev.tth]
@[simp] theorem commitChecks_tth (e : PaqE) : (d.commitChecks e).tth = d.tth := by simp [Dev.commitChecks, apply_ite Dev.tth]

/-! ## Ports and streams (R252, R260, R313, R320) -/

@[simp] theorem onEnv_tth (p : Nat) (out : Bool) (f : Env → Env) : (d.onEnv p out f).tth = d.tth := by simp [Dev.onEnv]
@[simp] theorem onEnvs_tth (g : Nat) (f : Env → Env) : (d.onEnvs g f).tth = d.tth := by simp [Dev.onEnvs]
@[simp] theorem declare_tth (g : Nat) : (d.declare g).tth = d.tth := setFld_tth ..

@[simp] theorem grpApply_tth (g : Nat) : (d.grpApply g).tth = d.tth := by
  unfold Dev.grpApply
  split
  · rfl
  · simp [apply_ite Dev.tth]

@[simp] theorem portApply_tth (p : Nat) : (d.portApply p).tth = d.tth := by
  unfold Dev.portApply
  split
  · rfl
  · simp [apply_ite Dev.tth]

@[simp] theorem groupCfg_tth (c : Cmd) : (groupCfg d c).tth = d.tth := by simp [groupCfg, apply_ite Dev.tth]
@[simp] theorem portCfgPort_tth (c : Cmd) : (portCfgPort d c).tth = d.tth := by simp [portCfgPort, apply_ite Dev.tth]

@[simp] theorem portCfg_tth (c : Cmd) (late : Bool) : (portCfg d c late).2.tth = d.tth := by
  simp [portCfg, apply_ite Prod.snd, apply_ite Dev.tth]

@[simp] theorem sapRefresh_tth : d.sapRefresh.tth = d.tth := by simp [Dev.sapRefresh, apply_ite Dev.tth]

@[simp] theorem streamCfg_tth (c : Cmd) (late : Bool) : (streamCfg d c late).2.tth = d.tth := by
  unfold streamCfg
  extract_lets tx s first count size t ok put m e bad
  split
  · rfl
  · split
    · rfl
    · clear_value bad
      cases bad
      case some =>
        dsimp only
        split <;> rfl
      case none => exact foldl_tth d (fun _ _ => writeBoth_tth ..) _

@[simp] theorem rxFollow_tth (s : Nat) : (d.rxFollow s).tth = d.tth := by simp [Dev.rxFollow, apply_ite Dev.tth]

@[simp] theorem txFollow_tth (x t : Nat) : (d.txFollow x t).tth = d.tth := by
  unfold Dev.txFollow
  dsimp only
  split <;> simp [Dev.txFresh, Dev.txPlace, apply_ite Dev.tth]

@[simp] theorem strFollow_tth (t : Nat) : (d.strFollow t).tth = d.tth := by simp [Dev.strFollow]

/-! ## Time bases (R334 to R341) -/

@[simp] theorem servoState_tth (b st : Nat) : (d.servoState b st).tth = d.tth := by simp [Dev.servoState, apply_ite Dev.tth]
@[simp] theorem baseJump_tth (b val : Nat) : (d.baseJump b val).tth = d.tth := (rfl)
@[simp] theorem baseMoved_tth (b val : Nat) : (d.baseMoved b val).tth = d.tth := by simp [Dev.baseMoved, apply_ite Dev.tth]
@[simp] theorem showOffset_tth (b : Nat) (θ : Fl) : (d.showOffset b θ).tth = d.tth := (rfl)
@[simp] theorem servoLoop_tth (b : Nat) (θ t : Fl) : (d.servoLoop b θ t).tth = d.tth := by simp [Dev.servoLoop, apply_ite Dev.tth]
@[simp] theorem servoSample_tth (b : Nat) (θ t : Fl) : (d.servoSample b θ t).tth = d.tth := by simp [Dev.servoSample, apply_ite Dev.tth]

@[simp] theorem timeSteer_tth (c : Cmd) (late : Bool) : (timeSteer d c late).2.tth = d.tth := by
  unfold timeSteer
  split
  · rfl
  · split <;> simp [steerSet, steerStep, steerRate, steerOffset]

/-! ## Ferryman, banks, patches and ASRC channels (R47, R211, R222, R236, R460) -/

@[simp] theorem makeReady_tth (e : Nat) (c : Cmd) (periodic : Bool) (block : Nat) (late : Bool) : (d.makeReady e c periodic block late).tth = d.tth := by
  simp [Dev.makeReady, apply_ite Dev.tth]

@[simp] theorem reinsert_tth (l : Nat) (w : FWait) : (d.reinsert l w).tth = d.tth := by simp [Dev.reinsert, apply_ite Dev.tth]

@[simp] theorem fmnSubmit_tth (c : Cmd) (late : Bool) : (fmnSubmit d c late).2.tth = d.tth := by
  unfold fmnSubmit
  extract_lets e l p fail submitted a w fmn counted fmn' ready
  have rests : counted.tth = d.tth := count_tth d R.FMN_SUBMITTED_COUNT
  split_ifs
  · rfl
  · rfl
  · rfl
  · rfl
  · exact rests
  · exact (makeReady_tth ..).trans rests
  · exact rests
  · exact (makeReady_tth ..).trans rests
  · exact (reinsert_tth ..).trans ((makeReady_tth ..).trans rests)

@[simp] theorem judgeBanks_tth : d.judgeBanks.tth = d.tth := by simp [Dev.judgeBanks, Dev.judgeBank, apply_ite Dev.tth]
@[simp] theorem patchConflicts_tth : d.patchConflicts.tth = d.tth := by simp [Dev.patchConflicts]
@[simp] theorem asrcRenew_tth (a target : Nat) (est : Int) : (d.asrcRenew a target est).tth = d.tth := (rfl)
@[simp] theorem asrcLeave_tth (a st : Nat) : (d.asrcLeave a st).tth = d.tth := by simp [Dev.asrcLeave, apply_ite Dev.tth]

@[simp] theorem asrcServe_tth (a : Nat) : (d.asrcServe a).tth = d.tth := by
  unfold Dev.asrcServe
  split
  · simp
  · simp [apply_ite Dev.tth]

@[simp] theorem asrcService_tth : d.asrcService.tth = d.tth := by simp [Dev.asrcService, Dev.noAsrc, Dev.asrcIdle, apply_ite Dev.tth]

/-! ## Rows that change more of the tether, but no path (R69, R361, R393, R406) -/

@[simp] theorem paths_trip (may : Bool) : paths (d.trip may).tth = paths d.tth := by
  unfold Dev.trip
  split
  · split
    · rw [raise_tth]
      rfl
    · rfl
    · rfl
  · rfl

theorem foldl_paths {β : Type} {f : Dev → β → Dev} (keeps : ∀ e x, paths (f e x).tth = paths e.tth) (l : List β) : paths (l.foldl f d).tth = paths d.tth :=
  foldl_keeps (fun e => paths e.tth) keeps l d

@[simp] theorem paths_complete (c : Cmd) (p : Cpl) : paths (d.complete c p).tth = paths d.tth := by
  have written : paths (d.complete c p).tth = paths (d.writeCpl c p).tth := rfl
  rw [written, writeCpl_tth]

@[simp] theorem paths_tell (x : Chunk) : paths (d.tell x).tth = paths d.tth := by
  unfold Dev.tell
  split
  · rw [tthSend_tth]
    rfl
  · rfl

@[simp] theorem paths_dpllState (p st : Nat) : paths (d.dpllState p st).tth = paths d.tth := by
  unfold Dev.dpllState
  dsimp only
  split
  · rfl
  · simp only [raiseIf_tth, setFld_tth, Dev.tripMaskable, apply_ite Dev.tth, apply_ite paths, paths_trip, ite_self]
    split <;> rfl

@[simp] theorem paths_dpllPhase (b p : Nat) : paths (d.dpllPhase b p).tth = paths d.tth := by
  simp [Dev.dpllPhase, apply_ite Dev.tth, apply_ite paths]

@[simp] theorem paths_refPhases : paths d.refPhases.tth = paths d.tth :=
  foldl_paths d (fun e b => by simp [apply_ite Dev.tth, apply_ite paths]) _

@[simp] theorem refEval_tth (i : Nat) : (d.refEval i).tth = d.tth := by simp [Dev.refEval, Dev.refLimits, apply_ite Dev.tth]
@[simp] theorem refFormats_tth : d.refFormats.tth = d.tth := foldl_tth d (fun e i => by simp [apply_ite Dev.tth]) _
@[simp] theorem dpllFresh_tth (p i : Nat) : (d.dpllFresh p i).tth = d.tth := (rfl)

@[simp] theorem paths_dpllEval (p : Nat) : paths (d.dpllEval p).tth = paths d.tth := by
  simp [Dev.dpllEval, apply_ite Dev.tth, apply_ite paths]

@[simp] theorem paths_refFollow : paths d.refFollow.tth = paths d.tth := by
  simp [Dev.refFollow, apply_ite Dev.tth, apply_ite paths]

@[simp] theorem paths_refCmd (c : Cmd) (late : Bool) : paths (refCmd d c late).2.tth = paths d.tth := by
  unfold refCmd
  split
  · rfl
  · split <;> simp [refSelect, refRelease, refDco, refDcoOff, refStep, refRequalify, apply_ite Dev.tth, apply_ite paths]

@[simp] theorem paths_fmnCancel (c : Cmd) (late : Bool) : paths (fmnCancel d c late).2.tth = paths d.tth := by
  unfold fmnCancel
  dsimp only
  split_ifs
  · rfl
  · rfl
  · split <;> simp

/-! ## Commands (R76, R84, R87, R208) -/

@[simp] theorem paths_afterCommands : paths d.afterCommands.tth = paths d.tth := by
  simp [Dev.afterCommands, apply_ite Dev.tth]

theorem paths_effect (op : Opcode) (c : Cmd) (late : Bool) : paths (d.effect op c late).2.tth = paths d.tth := by
  cases op <;> simp [Dev.effect, done, kfCounted, apply_ite Prod.snd, apply_ite Dev.tth]

theorem paths_applyCmd (op : Opcode) (c : Cmd) : paths (d.applyCmd op c).tth = paths d.tth := by
  have acts := paths_effect (d.unqueue c) op c ((d.unqueue c).cmdLate op c)
  unfold Dev.applyCmd
  dsimp only
  split
  · simp
  · split <;> simp_all

@[simp] theorem paths_commitOver (c : Cmd) : paths (d.commitOver c).tth = paths d.tth := (rfl)

@[simp] theorem paths_commitAct (e : PaqE) (late : Bool) : paths (d.commitAct e late).tth = paths d.tth := by
  simp [Dev.commitAct, apply_ite Prod.snd, apply_ite Dev.tth]

@[simp] theorem paths_commitTry (e : PaqE) (late : Bool) : paths (d.commitTry e late).tth = paths d.tth := by
  unfold Dev.commitTry
  dsimp only
  split <;> simp [apply_ite Dev.tth, apply_ite paths]

@[simp] theorem paths_applyEntry (e : PaqE) : paths (d.applyEntry e).tth = paths d.tth := by
  simp [Dev.applyEntry, paths_applyCmd, apply_ite Dev.tth, apply_ite paths]

theorem paths_actOrWait (op : Opcode) (c : Cmd) : paths (d.actOrWait op c).tth = paths d.tth := by
  simp [Dev.actOrWait, apply_ite Dev.tth]

theorem paths_barrierTry (b : Barrier) : paths (d.barrierTry b).tth = paths d.tth := by
  unfold Dev.barrierTry
  split
  · rfl
  · split <;> simp [Dev.barrierEnd, apply_ite Dev.tth, apply_ite paths]

theorem paths_tableWrite (c : Cmd) : paths (d.tableWrite c).tth = paths d.tth := by
  unfold Dev.tableWrite Dev.startWrite
  split
  · simp
  · split
    · rfl
    · split <;> simp

theorem paths_takeOp (op : Opcode) (c : Cmd) : paths (d.takeOp op c).tth = paths d.tth := by
  cases op <;> simp [Dev.takeOp, paths_actOrWait, paths_barrierTry, paths_tableWrite]

theorem paths_takeCmd (c : Cmd) : paths (d.takeCmd c).tth = paths d.tth := by
  unfold Dev.takeCmd
  split
  · simp
  · exact paths_takeOp ..

theorem paths_writeDone (c : Cmd) (err : Option Nat) : paths (d.writeDone c err).tth = paths d.tth := by
  simp [Dev.writeDone, Dev.writeOver, apply_ite Dev.tth, apply_ite paths]

theorem paths_bankOver (ch b : Nat) (err : Option Nat) (l : List Nat) (v : Nat) (wrong : Bool) : paths (d.bankOver ch b err l v wrong).tth = paths d.tth := by
  have completes (e : Dev) (l : List (Cmd × Bool × Nat)) (n : Nat) :
      paths (l.foldl (fun (d : Dev) x => d.complete x.1 ⟨.badTable, n, x.2.2⟩) e).tth = paths e.tth := foldl_paths e (fun _ _ => paths_complete ..) l
  unfold Dev.bankOver
  dsimp only
  split
  · rfl
  · simp [apply_ite Dev.tth, apply_ite paths, completes]

theorem paths_bankLoaded (ch b : Nat) (c : Cmd) (err : Option Nat) : paths (d.bankLoaded ch b c err).tth = paths d.tth := by
  simp [Dev.bankLoaded, paths_bankOver, apply_ite Dev.tth, apply_ite paths]

theorem paths_shareEnd (x : Share) : paths (d.shareEnd x).tth = paths d.tth := by
  unfold Dev.shareEnd
  split
  · rfl
  · split
    · exact paths_writeDone ..
    · split
      · split
        · exact paths_bankLoaded ..
        · rfl
      · rfl

/-- The loss of the link takes its path and leaves the pin's (R393). -/
theorem paths_linkLost : paths d.linkLost.tth = (d.tth.hbOk, false) := by
  have ends (e : Dev) (l : List Share) : paths (l.foldl Dev.shareEnd e).tth = paths e.tth := foldl_paths e (fun e x => paths_shareEnd e x) l
  have takes (e : Dev) (f : Dev → Nat) (l : List Cmd) : paths (l.foldl (fun d c => d.takeCmd { c with fetch := f d }) e).tth = paths e.tth :=
    foldl_paths e (fun e _ => paths_takeCmd e _) l
  have unlinked (e : Dev) : paths (e.cause 0 true).tth = paths e.tth := rfl
  simp only [Dev.linkLost, apply_ite Dev.tth, apply_ite paths, paths_afterCommands, takes _ (fun d => d.top.tick), unlinked, ite_self, ends]
  rfl

end Sys2Proof.Proofs
end

section
/-! SUPPORT. What trips, claims, takeovers and handovers make of roles, OWN_OUT and owned outputs (13 R384 to R391, R406 to R414). -/
namespace Sys2Proof.Proofs
open Sys2Proof.Machine Sys2Proof.Laws

section Roles
variable {d : Dev}

/-! ## Trips and retirement (R390, R406) -/

/-- An active that has tripped. -/
def tripped (d : Dev) : Dev := { d with tth := { d.tth with role := .tripped, tripped := true, handover := none, kept := false } }

/-- A standby that has tripped retires. -/
def retired (d : Dev) : Dev :=
  { d with tth := { d.tth with role := .retired, ownOut := false, handover := none, incoming := false, mirror := .idle, markers := false } }

theorem trip_active (on : d.works tthBase = true) (role : d.tth.role = .active) : d.trip true = (tripped d).raise F.tripped := by
  unfold Dev.trip
  rw [if_pos (by simp [on]), role]
  rfl

theorem trip_standby (on : d.works tthBase = true) (role : d.tth.role = .standby) : d.trip true = retired d := by
  unfold Dev.trip
  rw [if_pos (by simp [on]), role]
  rfl

theorem trip_other (other : ¬ d.works tthBase = true ∨ d.tth.role ≠ .active ∧ d.tth.role ≠ .standby) : d.trip true = d := by
  unfold Dev.trip
  by_cases on : d.works tthBase = true
  · obtain ⟨active, standby⟩ := other.resolve_left (not_not.2 on)
    rw [if_pos (by simp [on])]
    split
    next role => exact absurd role active
    next role => exact absurd role standby
    next => rfl
  · exact if_neg (by simp [on])

@[simp] theorem retireCheck_own : d.retireCheck.tth.own = d.tth.own := by
  unfold Dev.retireCheck
  split <;> rfl

/-! ## Outputs (R387, R388) -/

theorem mem_own_giveUp (o p : Nat) : p ∈ (d.giveUp o).tth.own ↔ p ∈ d.tth.own ∧ p ≠ o := by
  unfold Dev.giveUp
  split
  · simp [apply_ite Dev.tth]
  next absent =>
    have out : o ∉ d.tth.own := by simpa using absent
    exact ⟨fun owns => ⟨owns, fun same => out (same ▸ owns)⟩, And.left⟩

theorem ownership_off (off : d.works tthBase = false) (o : Nat) : d.ownership o = d := if_pos (by simp [off])

section Governed
variable {o : Nat} (on : d.works tthBase = true)
include on

theorem ownership_ungoverned (free : ownable d o = false) : d.ownership o = d.giveUp o :=
  (if_neg (by simp [on])).trans (if_pos (by simp [free]))

theorem ownership_held (governed : ownable d o = true) (held : d.ownHeld = true) : d.ownership o = d :=
  (if_neg (by simp [on])).trans ((if_neg (by simp [governed])).trans (if_pos held))

theorem ownership_moves (governed : ownable d o = true) (moves : d.ownHeld = false) : d.ownership o =
    if d.mayOwn then { d with tth := { d.tth with own := if d.tth.own.contains o then d.tth.own else d.tth.own ++ [o] } }
    else if !d.tth.ownOut then d.giveUp o else d :=
  (if_neg (by simp [on])).trans ((if_neg (by simp [governed])).trans (if_neg (by simp [moves])))

end Governed

theorem mem_own_gains (l : List Nat) (o p : Nat) : p ∈ (if l.contains o then l else l ++ [o]) ↔ p ∈ l ∨ p = o := by
  split
  next has =>
    have owns : o ∈ l := by simpa using has
    exact ⟨.inl, fun h => h.elim id fun same => same ▸ owns⟩
  next => simp

theorem ownHeld_iff : d.ownHeld = true ↔ d.tth.kept = true ∨ ∃ h, d.tth.handover = some h ∧ d.top.tick < h := by
  unfold Dev.ownHeld
  cases d.tth.handover <;> simp

theorem young_iff : d.young = true ↔ ∃ n, d.tth.claimed = some n ∧ d.tbu.now ≤ n + 500 := by
  unfold Dev.young
  cases d.tth.claimed <;> simp

theorem mayOwn_iff : d.mayOwn = true ↔ d.tth.ownOut = true ∧ d.tth.ownIn = false ∧ (d.primary = true ∨ ∀ n, d.tth.claimed = some n → n + 500 < d.tbu.now) := by
  have grown : d.young = false ↔ ∀ n, d.tth.claimed = some n → n + 500 < d.tbu.now := by
    rw [← Bool.not_eq_true, young_iff]
    simp
  simp [Dev.mayOwn, grown, and_assoc]

/-! ## Takeover (R408) -/

/-- The conditions of a takeover. -/
def takesOver (d : Dev) : Prop := d.works tthBase = true ∧ d.tth.role = .standby ∧ d.tth.peerLost = true ∧ d.tth.ownIn = false ∧
  (d.tth.lossFit = true ∨ d.flag R.TTH_CTL_TAKEOVER_WHEN_UNFIT = true)

/-- A standby that has become the active. -/
def tookOver (d : Dev) : Dev :=
  { d with tth := { d.tth with role := .active, ownOut := true, handover := none, mirror := .idle, causes := d.tth.lasting } }

theorem takeover_takes (h : takesOver d) : d.takeover = ((tookOver d).ownRefresh.count R.TTH_TAKEOVER_COUNT).raise F.takeover :=
  if_pos (by simpa [takesOver, and_assoc] using h)

theorem takeover_rests (h : ¬ takesOver d) : d.takeover = d := if_neg fun all => h (by simpa [takesOver, and_assoc] using all)

theorem lasts_takeover_takes (h : takesOver d) : lasts d.takeover.tth = lasts { d.tth with role := .active, ownOut := true, handover := none } := by
  rw [takeover_takes h, raise_tth, count_tth, lasts_ownRefresh]
  rfl

theorem fld_takeover_takes (h : takesOver d) : d.takeover.fld R.TTH_TAKEOVER_COUNT =
    min (d.fld R.TTH_TAKEOVER_COUNT + 1) (2 ^ R.TTH_TAKEOVER_COUNT.w - 1) := by
  rw [takeover_takes h, fld_raise, fld_count_self _ _ (by decide), fld_ownRefresh]
  rfl

theorem lasts_of_same {t u : Tth} (h : lasts t = lasts u) : t.role = u.role ∧ t.ownOut = u.ownOut ∧ t.ownIn = u.ownIn ∧ t.kept = u.kept ∧ t.handover = u.handover ∧
    t.peerLost = u.peerLost ∧ t.lossFit = u.lossFit ∧ paths t = paths u :=
  ⟨(congrArg Tth.role h :), (congrArg Tth.ownOut h :), (congrArg Tth.ownIn h :), (congrArg Tth.kept h :), (congrArg Tth.handover h :),
    (congrArg Tth.peerLost h :), (congrArg Tth.lossFit h :), (congrArg paths h :)⟩

end Roles
end Sys2Proof.Proofs
end

section
/-! SUPPORT. Lost paths, OWN_IN and handovers, step by step (13 R384 to R413). -/
namespace Sys2Proof.Proofs
open Sys2Proof.Machine Sys2Proof.Laws

theorem exec_trip (s : State) : exec .trip s = s.act (·.tthAct (·.trip true)) := rfl
theorem exec_tickStall (s : State) : exec .tickStall s =
    s.act (·.tthAct (fun d => if d.top.st = .run then { d with tth := { d.tth with stall := true } }.trip true else d)) := rfl
theorem exec_hbPathAlive (s : State) : exec .hbPathAlive s =
    s.act (·.tthAct (fun d => if d.works tthBase then { d with tth := { d.tth with hbOk := true, peerLost := false } } else d)) := rfl
theorem exec_tetherDown (s : State) : exec .tetherDown s = s.act (·.tthAct (·.declareDown)) := rfl
theorem exec_tetherLinkUp (s : State) : exec .tetherLinkUp s = s.act (·.tthAct (·.linkUp)) := rfl
theorem exec_ownReleaseDelay (s : State) : exec .ownReleaseDelay s = s.act (·.tthAct (fun d =>
    if !d.heartbeat && d.tth.ownOut then ({ d with tth := { d.tth with ownOut := false } }.ownRefresh).retireCheck else d)) := rfl
theorem exec_ownDeferExpiry (s : State) : exec .ownDeferExpiry s = s.act (·.tthAct (fun d => if d.primary then d else d.joinStep true)) := rfl
theorem exec_handover (s : State) : exec .handover s = s.act (·.tthAct (·.handoverStart)) := rfl
theorem exec_reclaim (s : State) : exec .reclaim s = s.act (·.tthAct (·.reclaim)) := rfl
theorem exec_handoverAnnounce (h : Nat) (s : State) : exec (.handoverAnnounce h) s = s.act (·.tthAct (fun d =>
    if d.works tthBase && d.tth.linkOk && (d.tth.role == .active || d.tth.role == .standby) then d.announce h else d)) := rfl
theorem exec_handoverExecute (s : State) : exec .handoverExecute s = s.act (·.tthAct (fun d => d.handoverStep.ownRefresh)) := rfl
theorem exec_hbLost (pin link : Bool) (s : State) : exec (.hbLost pin link) s = s.act (·.tthAct (·.pathStop pin link)) := rfl
theorem exec_ownInChange (level : Bool) (s : State) : exec (.ownInChange level) s = s.act (·.tthAct (·.ownInChange level)) := rfl
theorem exec_padForceHiz (o : Fin 45) (s : State) : exec (.padForceHiz o) s = s.act (·.tthAct (fun d => if d.tth.ownOut then d else d.giveUp o.val)) := rfl
theorem exec_ownershipChange (o : Fin 45) (s : State) : exec (.ownershipChange o) s = s.act (·.tthAct (·.ownership o.val)) := rfl

section Paths
variable {d : Dev}

/-! ## Paths that stop (R386, R410, R411) -/

/-- The pin path has stopped. -/
def pinStopped (d : Dev) : Dev := { d with tth := { d.tth with hbOk := false } }

/-- Both paths have stopped: the peer is lost, its fitness judged as `fit` says. -/
def bothStopped (d : Dev) (fit : Bool) : Dev := (({ d with tth := { d.tth with peerLost := true, lossFit := fit } }).raise F.peerLost).takeover

theorem pathStop_none {pin link : Bool} (p : (pin && d.tth.hbOk) = false) (l : (link && d.tth.linkOk) = false) : d.pathStop pin link = d :=
  if_pos (by rw [p, l]; rfl)

theorem pathStop_some {pin link : Bool} (p q : Bool) (hp : (pin && d.tth.hbOk) = p) (hq : (link && d.tth.linkOk) = q) (any : (!p && !q) = false) :
    d.pathStop pin link =
      let e := if p then pinStopped d else d
      let e := if q then e.linkLost.raise F.tetherDown else e
      if !e.tth.hbOk && !e.tth.linkOk then bothStopped e (d.fitCode == 0) else if p then e.raise F.hbLost else e := by
  subst hp hq
  exact if_neg (by simp only [any]; decide)

theorem pathStop_pin {pin link : Bool} (p : (pin && d.tth.hbOk) = true) (l : (link && d.tth.linkOk) = false) (up : d.tth.linkOk = true) :
    d.pathStop pin link = (pinStopped d).raise F.hbLost := by
  have linked : (pinStopped d).tth.linkOk = true := up
  rw [pathStop_some true false p l rfl]
  simp [linked]

theorem lost_linkLost (d : Dev) : (d.linkLost.raise F.tetherDown).tth.hbOk = d.tth.hbOk ∧ (d.linkLost.raise F.tetherDown).tth.linkOk = false := by
  rw [raise_tth]
  exact Prod.ext_iff.1 (paths_linkLost d)

theorem pathStop_link {pin link : Bool} (p : (pin && d.tth.hbOk) = false) (l : (link && d.tth.linkOk) = true) (alive : d.tth.hbOk = true) :
    d.pathStop pin link = d.linkLost.raise F.tetherDown := by
  obtain ⟨hb, _⟩ := lost_linkLost d
  rw [pathStop_some false true p l rfl]
  simp [-raise_tth, hb, alive]

theorem pathStop_both {pin link : Bool} (p : (pin && d.tth.hbOk) = true) (l : (link && d.tth.linkOk) = true) :
    d.pathStop pin link = bothStopped ((pinStopped d).linkLost.raise F.tetherDown) (d.fitCode == 0) := by
  obtain ⟨hb, down⟩ := lost_linkLost (pinStopped d)
  have silent : (pinStopped d).tth.hbOk = false := rfl
  rw [pathStop_some true true p l rfl]
  simp [-raise_tth, hb, down, silent]

/-- The link is cut, with nothing that waits. -/
def linkCut (d : Dev) : Dev :=
  { d with tth := { d.tth with linkOk := false, markers := false, mirror := .idle, acks := [], miss := [], commits := [], shared := [], xfer := [] } }

theorem linkLost_quiet (acks : d.tth.acks = []) (shared : d.tth.shared = []) :
    d.linkLost = if d.tth.role = .standby then (linkCut d).cause 0 true else linkCut d := by
  unfold Dev.linkLost
  rw [acks, shared]
  rfl

theorem linkLost_regs (acks : d.tth.acks = []) (shared : d.tth.shared = []) : d.linkLost.regs = d.regs ∧ d.linkLost.hdr = d.hdr ∧ d.linkLost.grade = d.grade := by
  rw [linkLost_quiet acks shared]
  split <;> exact ⟨rfl, rfl, rfl⟩

theorem lasts_linkLost (acks : d.tth.acks = []) (shared : d.tth.shared = []) : lasts d.linkLost.tth = lasts (linkCut d).tth := by
  rw [linkLost_quiet acks shared]
  split <;> rfl

theorem bit_takeover_keeps {b i : Nat} (h : bitAt (d.hd b).event.toNat i = true) : bitAt (d.takeover.hd b).event.toNat i = true := by
  by_cases takes : takesOver d
  · rw [takeover_takes takes]
    obtain ⟨c, stores⟩ := ownRefresh_stores (tookOver d)
    refine bit_raise_keeps ?_ F.takeover
    rw [hd_of_hdr (count_hdr ..), stores]
    exact h
  · rwa [takeover_rests takes]

/-- The peer is known to be lost. -/
def peerGone (d : Dev) (fit : Bool) : Dev := ({ d with tth := { d.tth with peerLost := true, lossFit := fit } }).raise F.peerLost

section Lost
variable (acks : d.tth.acks = []) (shared : d.tth.shared = []) (fit : Bool)
include acks shared

theorem lasts_peerGone : lasts (peerGone ((pinStopped d).linkLost.raise F.tetherDown) fit).tth =
    lasts { (linkCut (pinStopped d)).tth with peerLost := true, lossFit := fit } := by
  have cut : lasts ((pinStopped d).linkLost.raise F.tetherDown).tth = lasts (linkCut (pinStopped d)).tth := by
    rw [raise_tth]
    exact lasts_linkLost (d := pinStopped d) acks shared
  rw [peerGone, raise_tth]
  exact (congrArg (fun t : Tth => { t with peerLost := true, lossFit := fit }) cut :)

theorem fld_peerGone (f : Field) : (peerGone ((pinStopped d).linkLost.raise F.tetherDown) fit).fld f = d.fld f := by
  obtain ⟨regs, _, grade⟩ := linkLost_regs (d := pinStopped d) acks shared
  have lost : (peerGone ((pinStopped d).linkLost.raise F.tetherDown) fit).fld f = ((pinStopped d).linkLost.raise F.tetherDown).fld f := fld_raise ..
  rw [lost, fld_raise]
  exact fld_of_regs regs grade f

theorem works_peerGone (b : Nat) : (peerGone ((pinStopped d).linkLost.raise F.tetherDown) fit).works b = d.works b := by
  obtain ⟨_, hdr, _⟩ := linkLost_regs (d := pinStopped d) acks shared
  have lost : (peerGone ((pinStopped d).linkLost.raise F.tetherDown) fit).works b = ((pinStopped d).linkLost.raise F.tetherDown).works b := raise_works ..
  rw [lost, raise_works]
  exact works_of_hdr hdr b

theorem tetherDown_bothStopped (en : d.effEn tthBase = true) :
    bitAt ((bothStopped ((pinStopped d).linkLost.raise F.tetherDown) fit).hd tthBase).event.toNat F.tetherDown.bit = true := by
  obtain ⟨_, hdr, _⟩ := linkLost_regs (d := pinStopped d) acks shared
  have raised : bitAt (((pinStopped d).linkLost.raise F.tetherDown).hd tthBase).event.toNat F.tetherDown.bit = true :=
    bit_raise (f := F.tetherDown) ((effEn_of_hdr hdr _).trans en) (by decide)
  refine bit_takeover_keeps (bit_raise_keeps ?_ F.peerLost)
  exact raised

end Lost

end Paths

/-! ## OWN_IN (R384, R391, R408, R413, R414) -/

section OwnIn
variable {d : Dev} {level : Bool}

/-- The level of OWN_IN as the unit has it. -/
def ownInSet (d : Dev) (level : Bool) : Dev := { d with tth := { d.tth with ownIn := level } }

/-- A secondary yields a claim that is fresh. -/
def claimYielded (d : Dev) (level : Bool) : Dev := if level && d.tth.role == .active && !d.primary && d.young then d.becomeStandby else d

/-- The handover has come to the boundary before its own. -/
def handoverNear (d : Dev) : Bool := match d.tth.handover with | some h => decide (h ≤ d.top.tick + 1) | none => false

/-- An assertion of OWN_OUT that waited for OWN_IN. -/
def ownOutReturned (d : Dev) (level : Bool) : Dev :=
  if !level && !d.tth.ownOut && ((d.tth.role == .active && d.tth.handover.isNone) || (d.tth.role == .standby && d.tth.incoming && handoverNear d)) then
    { d with tth := { d.tth with ownOut := true, kept := false } }
  else d

theorem ownInChange_off (off : d.works tthBase = false) : d.ownInChange level = ownInSet d level := by
  have unset : (!(ownInSet d level).works tthBase) = true := congrArg (!·) off
  exact if_pos unset

section Works
variable (on : d.works tthBase = true)
include on

theorem ownInChange_on : d.ownInChange level =
    (((ownOutReturned (claimYielded (ownInSet d level) level) level).joinStep false).takeover).ownRefresh := by
  have set : (!(ownInSet d level).works tthBase) = false := congrArg (!·) on
  exact if_neg (ne_true_of_eq_false set)

theorem lasts_ownInChange : lasts (d.ownInChange level).tth =
    lasts (((ownOutReturned (claimYielded (ownInSet d level) level) level).joinStep false).takeover).tth := by
  rw [ownInChange_on on, lasts_ownRefresh]

end Works

theorem ownIn_claimYielded : (claimYielded d level).tth.ownIn = d.tth.ownIn := by
  unfold claimYielded
  split
  · obtain ⟨_, _, ownIn, _⟩ := lasts_of_same (lasts_becomeStandby d)
    exact ownIn
  · rfl

theorem ownIn_ownOutReturned : (ownOutReturned d level).tth.ownIn = d.tth.ownIn := by
  unfold ownOutReturned
  split <;> rfl

theorem ownIn_joinStep (deferred : Bool) : (d.joinStep deferred).tth.ownIn = d.tth.ownIn := by
  rcases joinStep_cases d deferred with rests | standby | active
  · rw [rests]
  · obtain ⟨_, _, ownIn, _⟩ := lasts_of_same (lasts_becomeStandby (d.raiseIf (!d.tth.ownIn) F.ownFault))
    rw [standby, ownIn, raiseIf_tth]
  · obtain ⟨_, _, ownIn, _⟩ := lasts_of_same (lasts_becomeActive d)
    rw [active, ownIn]

theorem ownIn_takeover : d.takeover.tth.ownIn = d.tth.ownIn := by
  by_cases takes : takesOver d
  · obtain ⟨_, _, ownIn, _⟩ := lasts_of_same (lasts_takeover_takes takes)
    exact ownIn
  · rw [takeover_rests takes]

theorem claimYielded_rests (h : ¬ (level = true ∧ d.tth.role = .active)) : claimYielded d level = d :=
  if_neg fun all => h (by simp at all; exact ⟨all.1.1.1, all.1.1.2⟩)

theorem claimYielded_yields (role : d.tth.role = .active) (secondary : d.primary = false) (young : d.young = true) :
    claimYielded d true = d.becomeStandby := if_pos (by simp [role, secondary, young])

theorem ownOutReturned_rests (h : ¬ (level = false ∧ (d.tth.role = .active ∨ d.tth.role = .standby))) : ownOutReturned d level = d :=
  if_neg fun all => h (by simp at all; exact ⟨all.1.1, all.2.imp And.left fun far => far.1.1⟩)

theorem ownOutReturned_cases (d : Dev) (level : Bool) :
    ownOutReturned d level = d ∨ ownOutReturned d level = { d with tth := { d.tth with ownOut := true, kept := false } } := by
  unfold ownOutReturned
  split <;> simp

theorem ownOutReturned_active (role : d.tth.role = .active) (out : d.tth.ownOut = false) (none : d.tth.handover = none) :
    ownOutReturned d false = { d with tth := { d.tth with ownOut := true, kept := false } } := if_pos (by simp [role, out, none])

theorem takeover_asserted (asserted : d.tth.ownIn = true) : d.takeover = d :=
  takeover_rests fun ⟨_, _, _, free, _⟩ => Bool.false_ne_true (free.symm.trans asserted)

theorem takeover_active (role : d.tth.role = .active) : d.takeover = d :=
  takeover_rests fun ⟨_, standby, _⟩ => Role.noConfusion (standby.symm.trans role)

theorem joinStep_other {deferred : Bool} (other : d.tth.role ≠ .join) : d.joinStep deferred = d := joinStep_rests fun ⟨_, join, _⟩ => other join

section Changes
variable (on : d.works tthBase = true)
include on

theorem ownIn_ownInChange : (d.ownInChange level).tth.ownIn = level := by
  obtain ⟨_, _, ownIn, _⟩ := lasts_of_same (lasts_ownInChange (level := level) on)
  rw [ownIn, ownIn_takeover, ownIn_joinStep, ownIn_ownOutReturned, ownIn_claimYielded]
  rfl

/-- In JOIN nothing is yielded or returned. -/
theorem lasts_ownInChange_join (join : d.tth.role = .join) : lasts (d.ownInChange level).tth = lasts (((ownInSet d level).joinStep false).takeover).tth := by
  have role : (ownInSet d level).tth.role = .join := join
  rw [lasts_ownInChange on, claimYielded_rests (by simp [role]), ownOutReturned_rests (by simp [role])]

theorem ownInChange_join_asserted (join : d.tth.role = .join) (run : d.top.st = .run) :
    (d.ownInChange true).tth.role = .standby ∧ (d.ownInChange true).tth.ownOut = false := by
  have steps : (ownInSet d true).joinStep false = ((ownInSet d true).raiseIf (!(ownInSet d true).tth.ownIn) F.ownFault).becomeStandby :=
    joinStep_standby ⟨on, join, run⟩ (.inl rfl)
  have asserted : ((ownInSet d true).joinStep false).tth.ownIn = true := ownIn_joinStep false
  obtain ⟨role, ownOut, _⟩ := lasts_of_same (lasts_ownInChange_join (level := true) on join)
  obtain ⟨role', ownOut', _⟩ := lasts_of_same (lasts_becomeStandby ((ownInSet d true).raiseIf (!(ownInSet d true).tth.ownIn) F.ownFault))
  rw [role, ownOut, takeover_asserted asserted, steps]
  exact ⟨role', ownOut'⟩

theorem ownInChange_join_claims (join : d.tth.role = .join) (run : d.top.st = .run) (alone : d.peerActive = false) (primary : d.primary = true) :
    (d.ownInChange false).tth.role = .active ∧ (d.ownInChange false).tth.ownOut = true := by
  have steps : (ownInSet d false).joinStep false = (ownInSet d false).becomeActive := joinStep_claims ⟨on, join, run⟩ rfl alone (.inl primary)
  obtain ⟨role, ownOut, _⟩ := lasts_of_same (lasts_ownInChange_join (level := false) on join)
  obtain ⟨role', ownOut', _⟩ := lasts_of_same (lasts_becomeActive (ownInSet d false))
  rw [role, ownOut, steps, takeover_active role']
  exact ⟨role', ownOut'⟩

theorem ownInChange_takes (standby : d.tth.role = .standby) (lost : d.tth.peerLost = true)
    (may : d.tth.lossFit = true ∨ d.flag R.TTH_CTL_TAKEOVER_WHEN_UNFIT = true) :
    (d.ownInChange false).tth.role = .active ∧ (d.ownInChange false).tth.ownOut = true := by
  have role : (ownOutReturned (ownInSet d false) false).tth.role = .standby := by
    rcases ownOutReturned_cases (ownInSet d false) false with rests | returns
    · rw [rests]
      exact standby
    · rw [returns]
      exact standby
  have takes : takesOver (ownOutReturned (ownInSet d false) false) := by
    rcases ownOutReturned_cases (ownInSet d false) false with rests | returns
    · rw [rests]
      exact ⟨on, standby, lost, rfl, may⟩
    · rw [returns]
      exact ⟨on, standby, lost, rfl, may⟩
  have stays : claimYielded (ownInSet d false) false = ownInSet d false := claimYielded_rests (by simp)
  obtain ⟨role', ownOut', _⟩ := lasts_of_same (lasts_ownInChange (level := false) on)
  obtain ⟨role'', ownOut'', _⟩ := lasts_of_same (lasts_takeover_takes takes)
  rw [role', ownOut', stays, joinStep_other (by rw [role]; decide)]
  exact ⟨role'', ownOut''⟩

theorem ownInChange_yields (active : d.tth.role = .active) (secondary : d.primary = false) (young : d.young = true) :
    (d.ownInChange true).tth.role = .standby ∧ (d.ownInChange true).tth.ownOut = false := by
  have yields : claimYielded (ownInSet d true) true = (ownInSet d true).becomeStandby := claimYielded_yields active secondary young
  obtain ⟨role', ownOut', ownIn', _⟩ := lasts_of_same (lasts_becomeStandby (ownInSet d true))
  obtain ⟨role, ownOut, _⟩ := lasts_of_same (lasts_ownInChange (level := true) on)
  have standby : (ownInSet d true).becomeStandby.tth.role = .standby := role'
  rw [role, ownOut, yields, ownOutReturned_rests (by simp), joinStep_other (by rw [standby]; decide), takeover_asserted ownIn']
  exact ⟨role', ownOut'⟩

theorem ownInChange_returns (active : d.tth.role = .active) (out : d.tth.ownOut = false) (none : d.tth.handover = none) :
    (d.ownInChange false).tth.role = .active ∧ (d.ownInChange false).tth.ownOut = true ∧ (d.ownInChange false).tth.kept = false := by
  have stays : claimYielded (ownInSet d false) false = ownInSet d false := claimYielded_rests (by simp)
  have returns := ownOutReturned_active (d := ownInSet d false) active out none
  have role' : (ownOutReturned (ownInSet d false) false).tth.role = .active := by
    rw [returns]
    exact active
  obtain ⟨role, ownOut, _, kept, _⟩ := lasts_of_same (lasts_ownInChange (level := false) on)
  rw [role, ownOut, kept, stays, joinStep_other (by rw [role']; decide), takeover_active role', returns]
  exact ⟨active, rfl, rfl⟩

end Changes

end OwnIn

/-! ## Handover (R412, R413) -/

section Handover
variable {d : Dev}

theorem announce_tth (h : Nat) : (d.announce h).tth = { d.tth with handover := some h, incoming := decide (d.tth.role = .standby) } :=
  (setFld_tth ..).trans (by cases d.tth.role <;> rfl)

theorem fld_announce (h : Nat) : (d.announce h).fld R.TTH_HANDOVER_TICK = h % 2 ^ 32 :=
  (fld_setFld_self _ R.TTH_HANDOVER_TICK _ (by decide)).trans (Nat.mod_mod ..)

theorem announceBoth_tth (d : Dev) : d.announceBoth.tth = { d.tth with handover := some (d.top.tick + 4), incoming := decide (d.tth.role = .standby), line := d.tth.line ++ [(d.top.tick, Sent.announce (d.top.tick + 4))] } :=
  (congrArg (fun t : Tth => { t with line := d.tth.line ++ [(d.top.tick, Sent.announce (d.top.tick + 4))] }) (announce_tth (d := d) (d.top.tick + 4)) :)

theorem fld_announceBoth (d : Dev) : d.announceBoth.fld R.TTH_HANDOVER_TICK = (d.top.tick + 4) % 2 ^ 32 := (fld_announce (d := d) (d.top.tick + 4) :)

/-- A handover is to start. -/
def handsOver (d : Dev) : Prop := d.works tthBase = true ∧ d.tth.role = .active ∧ d.fitPresent = true ∧ d.tth.handover = none

theorem handoverStart_announces (h : handsOver d) : d.handoverStart = d.announceBoth := if_pos (by simpa [handsOver, and_assoc] using h)

theorem handoverStart_rests (h : ¬ handsOver d) : d.handoverStart = d := if_neg fun all => h (by simpa [handsOver, and_assoc] using all)

/-- The primary takes back what it has handed over. -/
def reclaims (d : Dev) : Prop := d.works tthBase = true ∧ d.tth.role = .standby ∧ d.primary = true ∧ d.flag R.TTH_CTL_REVERT = true ∧ d.fitCode = 0 ∧ d.tth.handover = none

theorem reclaim_announces (h : reclaims d) : d.reclaim = d.announceBoth := if_pos (by simpa [reclaims, and_assoc] using h)

theorem reclaim_rests (h : ¬ reclaims d) : d.reclaim = d := if_neg fun all => h (by simpa [reclaims, and_assoc] using all)

/-- The incoming unit is the active, and knows its peer as the standby. -/
def handoverTaken (d : Dev) : Dev :=
  { d with tth := { d.tth with role := .active, handover := none, incoming := false, markers := false, ownOut := d.tth.ownOut || !d.tth.ownIn,
                               peer := d.tth.peer.map (fun (h : Hello) => { h with role := Role.standby, fit := 0, causes := 0 }) } }

/-- The outgoing unit is the standby, and knows its peer as the active. -/
def handoverGiven (d : Dev) : Dev :=
  { d with tth := { d.tth with role := .standby, handover := none, handed := true, ownOut := false, causes := d.tth.lasting, mirror := .idle,
                               xfer := [], since := d.hre.serial, peer := d.tth.peer.map (fun (h : Hello) => { h with role := Role.active }) } }

section Step
variable {h : Nat} (on : d.works tthBase = true) (announced : d.tth.handover = some h)
include on announced

theorem handoverStep_announced : d.handoverStep =
    if d.top.tick + 1 = h then
      if d.tth.incoming then (if d.tth.role == .standby && !d.tth.ownIn then { d with tth := { d.tth with ownOut := true } } else d)
      else if d.tth.role == .active then { d with tth := { d.tth with ownOut := false } } else d
    else if h ≤ d.top.tick then
      if d.tth.incoming && d.tth.role == .standby then (handoverTaken d).ownRefresh.raise F.handover
      else if !d.tth.incoming && d.tth.role == .active then (handoverGiven d).ownRefresh.raise F.handover
      else { d with tth := { d.tth with handover := none, incoming := false } }
    else d := by
  unfold Dev.handoverStep
  dsimp only
  rw [announced]
  exact if_neg (by simp [on])

theorem handover_asserts (near : d.top.tick + 1 = h) (incoming : d.tth.incoming = true) (role : d.tth.role = .standby) (free : d.tth.ownIn = false) :
    d.handoverStep.ownRefresh.tth.ownOut = true ∧ d.handoverStep.ownRefresh.tth.role = .standby := by
  obtain ⟨role', ownOut, _⟩ := lasts_of_same (lasts_ownRefresh d.handoverStep)
  rw [role', ownOut, handoverStep_announced on announced, if_pos near, if_pos incoming, if_pos (by simp [role, free])]
  exact ⟨rfl, role⟩

theorem handover_releases (near : d.top.tick + 1 = h) (outgoing : d.tth.incoming = false) (role : d.tth.role = .active) :
    d.handoverStep.ownRefresh.tth.ownOut = false ∧ d.handoverStep.ownRefresh.tth.role = .active := by
  obtain ⟨role', ownOut, _⟩ := lasts_of_same (lasts_ownRefresh d.handoverStep)
  rw [role', ownOut, handoverStep_announced on announced, if_pos near, if_neg (by simp [outgoing]), if_pos (by simp [role])]
  exact ⟨rfl, role⟩

theorem handover_takes (come : h ≤ d.top.tick) (incoming : d.tth.incoming = true) (role : d.tth.role = .standby) :
    d.handoverStep.ownRefresh.tth.role = .active ∧ d.handoverStep.ownRefresh.tth.ownOut = (d.tth.ownOut || !d.tth.ownIn) ∧
      d.handoverStep.ownRefresh.tth.handover = none := by
  obtain ⟨role', ownOut, _, _, handover, _⟩ := lasts_of_same (lasts_ownRefresh d.handoverStep)
  have taken := handoverStep_announced on announced
  rw [if_neg (by omega), if_pos come, if_pos (by simp [incoming, role])] at taken
  rw [role', ownOut, handover, taken, raise_tth]
  obtain ⟨role'', ownOut', _, _, handover', _⟩ := lasts_of_same (lasts_ownRefresh (handoverTaken d))
  exact ⟨role'', ownOut', handover'⟩

theorem handover_gives (come : h ≤ d.top.tick) (outgoing : d.tth.incoming = false) (role : d.tth.role = .active) :
    d.handoverStep.ownRefresh.tth.role = .standby ∧ d.handoverStep.ownRefresh.tth.ownOut = false ∧ d.handoverStep.ownRefresh.tth.handover = none := by
  obtain ⟨role', ownOut, _, _, handover, _⟩ := lasts_of_same (lasts_ownRefresh d.handoverStep)
  have given := handoverStep_announced on announced
  rw [if_neg (by omega), if_pos come, if_neg (by simp [outgoing]), if_pos (by simp [outgoing, role])] at given
  rw [role', ownOut, handover, given, raise_tth]
  obtain ⟨role'', ownOut', _, _, handover', _⟩ := lasts_of_same (lasts_ownRefresh (handoverGiven d))
  exact ⟨role'', ownOut', handover'⟩

end Step
end Handover
end Sys2Proof.Proofs
end

section
/-! The roles of a pair, from trips to handovers (13 R384 to R413). Settles O57. -/
namespace Sys2Proof.Proofs
open Sys2Proof.Machine Sys2Proof.Laws

/-! ## The link comes up (R392, R403) -/

section LinkUp
variable {d : Dev}

/-- The link is up, with nothing sent on it or received. -/
def linkRaised (d : Dev) : Dev := { d with tth := { d.tth with linkOk := true, peerLost := false, line := [], txSeq := 0, rxNext := 0, miss := [] } }

/-- A standby, or an active with one, starts a full mirror. -/
def pairMirrored (d : Dev) : Dev := if d.tth.role = .standby ∨ (d.tth.role = .active ∧ d.standbyPresent = true) then d.mirrorStart else d

theorem lasts_pairMirrored : lasts (pairMirrored d).tth = lasts d.tth := by
  unfold pairMirrored
  split
  · exact lasts_mirrorStart d
  · rfl

theorem works_pairMirrored (b : Nat) : (pairMirrored d).works b = d.works b := by
  unfold pairMirrored
  split
  · exact works_mirrorStart d b
  · rfl

theorem pairMirrored_top : (pairMirrored d).top = d.top := by
  unfold pairMirrored
  split
  · exact (raise_top ..).trans ((count_top ..).trans (setFld_top ..))
  · rfl

theorem helloSend_linked (on : d.works tthBase = true) (link : d.tth.linkOk = true) : d.helloSend = { d with tth := { d.tth with sent := some (ownHello d) } } :=
  if_pos (by simp [on, link])

section Up
variable (on : d.works tthBase = true) (down : d.tth.linkOk = false)
include on down

theorem linkUp_up : d.linkUp = (pairMirrored (linkRaised d)).helloSend := if_neg (by simp [on, down])

theorem linkUp_tth : d.linkUp.tth = { (pairMirrored (linkRaised d)).tth with sent := some (ownHello (pairMirrored (linkRaised d))) } := by
  have works : (pairMirrored (linkRaised d)).works tthBase = true := (works_pairMirrored ..).trans on
  have link : (pairMirrored (linkRaised d)).tth.linkOk = true := (congrArg Tth.linkOk (lasts_pairMirrored (d := linkRaised d)) :)
  rw [linkUp_up on down, helloSend_linked works link]

theorem linkUp_shows : d.linkUp.tth.linkOk = true ∧ d.linkUp.tth.peerLost = false ∧
    ∃ h, d.linkUp.tth.sent = some h ∧ h.role = d.tth.role ∧ h.tick = d.top.tick ∧ h.part = 0x5140 := by
  have kept := lasts_pairMirrored (d := linkRaised d)
  rw [linkUp_tth on down]
  exact ⟨(congrArg Tth.linkOk kept :), (congrArg Tth.peerLost kept :), _, rfl, (congrArg Tth.role kept :), congrArg Top.tick (pairMirrored_top (d := linkRaised d)), rfl⟩

theorem linkUp_mirrors (standby : d.tth.role = .standby) : d.linkUp.tth.mirror = .transfer ∧
    d.linkUp.fld R.TTH_REMIRROR_COUNT = min (d.fld R.TTH_REMIRROR_COUNT + 1) (2 ^ R.TTH_REMIRROR_COUNT.w - 1) := by
  have mirrors : pairMirrored (linkRaised d) = (linkRaised d).mirrorStart := if_pos (.inl standby)
  have works : (pairMirrored (linkRaised d)).works tthBase = true := (works_pairMirrored ..).trans on
  have link : (pairMirrored (linkRaised d)).tth.linkOk = true := (congrArg Tth.linkOk (lasts_pairMirrored (d := linkRaised d)) :)
  constructor
  · rw [linkUp_tth on down, mirrors, mirrorStart_tth]
  · rw [linkUp_up on down, helloSend_linked works link, mirrors]
    exact remirror_mirrorStart (linkRaised d)

end Up
end LinkUp

/-! ## Both paths stopped, nothing waiting (R386, R408) -/

section Stopped
variable {d : Dev} (acks : d.tth.acks = []) (shared : d.tth.shared = []) (fit : Bool)

/-- The unit once both paths have stopped, before a takeover. -/
def stopped (d : Dev) (fit : Bool) : Dev := peerGone ((pinStopped d).linkLost.raise F.tetherDown) fit

include acks shared

theorem stopped_shows : (stopped d fit).tth.role = d.tth.role ∧ (stopped d fit).tth.ownOut = d.tth.ownOut ∧ (stopped d fit).tth.ownIn = d.tth.ownIn ∧
    (stopped d fit).tth.peerLost = true ∧ (stopped d fit).tth.lossFit = fit ∧ paths (stopped d fit).tth = (false, false) := by
  obtain ⟨role, ownOut, ownIn, _, _, lost, lossFit, paths⟩ := lasts_of_same (lasts_peerGone acks shared fit)
  exact ⟨role, ownOut, ownIn, lost, lossFit, paths⟩

theorem takesOver_stopped : takesOver (stopped d fit) ↔ d.works tthBase = true ∧ d.tth.role = .standby ∧ d.tth.ownIn = false ∧
    (fit = true ∨ d.flag R.TTH_CTL_TAKEOVER_WHEN_UNFIT = true) := by
  obtain ⟨role, _, ownIn, lost, lossFit, _⟩ := stopped_shows acks shared fit
  have works : (stopped d fit).works tthBase = d.works tthBase := works_peerGone acks shared fit tthBase
  have flag : (stopped d fit).flag R.TTH_CTL_TAKEOVER_WHEN_UNFIT = d.flag R.TTH_CTL_TAKEOVER_WHEN_UNFIT := congrArg (· == 1) (fld_peerGone acks shared fit _)
  simp [takesOver, works, role, lost, ownIn, lossFit, flag]

theorem bothStopped_rests (stays : ¬ takesOver (stopped d fit)) :
    (stopped d fit).takeover.tth.role = d.tth.role ∧ (stopped d fit).takeover.tth.ownOut = d.tth.ownOut := by
  obtain ⟨role, ownOut, _⟩ := stopped_shows acks shared fit
  rw [takeover_rests stays]
  exact ⟨role, ownOut⟩

theorem bothStopped_takes (takes : takesOver (stopped d fit)) :
    (stopped d fit).takeover.tth.role = .active ∧ (stopped d fit).takeover.tth.ownOut = true ∧
      (stopped d fit).takeover.fld R.TTH_TAKEOVER_COUNT = min (d.fld R.TTH_TAKEOVER_COUNT + 1) (2 ^ R.TTH_TAKEOVER_COUNT.w - 1) := by
  obtain ⟨role, ownOut, _⟩ := lasts_of_same (lasts_takeover_takes takes)
  have count : (stopped d fit).fld R.TTH_TAKEOVER_COUNT = d.fld R.TTH_TAKEOVER_COUNT := fld_peerGone acks shared fit _
  exact ⟨role, ownOut, count ▸ fld_takeover_takes takes⟩

theorem bothStopped_lost : (stopped d fit).takeover.tth.peerLost = true ∧ (stopped d fit).takeover.tth.hbOk = false ∧ (stopped d fit).takeover.tth.linkOk = false := by
  obtain ⟨_, _, _, lost, _, silent⟩ := stopped_shows acks shared fit
  obtain ⟨hb, link⟩ := Prod.ext_iff.1 silent
  by_cases takes : takesOver (stopped d fit)
  · obtain ⟨_, _, _, _, _, lost', _, silent'⟩ := lasts_of_same (lasts_takeover_takes takes)
    obtain ⟨hb', link'⟩ := Prod.ext_iff.1 silent'
    exact ⟨lost'.trans lost, hb'.trans hb, link'.trans link⟩
  · rw [takeover_rests takes]
    exact ⟨lost, hb, link⟩

end Stopped

/-- Settles O57: each event by what its step makes of the unit; the two paths stop together, whatever the loss of the link lets go on. -/
theorem rolesOwnershipAndHandover : Obligations.RolesOwnershipAndHandover := by
  unfold Obligations.RolesOwnershipAndHandover
  refine ⟨fun s => ?events, fun s pin link => ?stops, fun s level => ?ownIn, fun s o => ?outputs⟩
  case events =>
    intro d tth on
    refine ⟨fun works role => makes_tthAct (exec_trip s) (trip_active works role), fun works role => makes_tthAct (exec_trip s) (trip_standby works role),
      fun other => makes_tthAct (exec_trip s) (trip_other other), fun run => makes_tthAct (exec_tickStall s) (if_pos run),
      fun rests => makes_tthAct (exec_tickStall s) (if_neg rests), fun works => makes_tthAct (exec_hbPathAlive s) (if_pos works),
      fun off => makes_tthAct (exec_hbPathAlive s) (if_neg off), fun _ => makes_tthAct (exec_tetherDown s) rfl, fun down => ?_, fun works down => ?_, fun other => ?_,
      fun silent out => makes_tthAct (exec_ownReleaseDelay s) (if_pos (by simp [silent, out, d])), fun other => makes_tthAct (exec_ownReleaseDelay s) (if_neg ?_),
      fun works secondary join run free alone => ?_, fun primary => makes_tthAct (exec_ownDeferExpiry s) (if_pos primary),
      fun works role fit none => makes_tthAct (exec_handover s) (handoverStart_announces ⟨works, role, fit, none⟩), announceBoth_tth d, fld_announceBoth d,
      fun other => makes_tthAct (exec_handover s) (handoverStart_rests ?_), ?_, fun h works link role => ?_, fun h works announced => ?_⟩
    · exact makes_tthAct (exec_tetherDown s) (pathStop_none rfl (by simpa using down))
    · obtain ⟨link, lost, hello⟩ := linkUp_shows works down
      exact ⟨d.linkUp, makes_tthAct (exec_tetherLinkUp s) rfl, link, lost, hello, linkUp_mirrors works down⟩
    · exact makes_tthAct (exec_tetherLinkUp s) (if_pos (by simpa [on] using other))
    · rcases other with beats | out
      · simp [beats, d]
      · simp [out, d]
    · have claims : d.joinStep true = d.becomeActive := joinStep_claims ⟨works, join, run⟩ free alone (.inr rfl)
      obtain ⟨role, out, _⟩ := lasts_of_same (lasts_becomeActive d)
      exact ⟨d.becomeActive, makes_tthAct (exec_ownDeferExpiry s) ((if_neg (by simp [secondary, d])).trans claims), role, out⟩
    · rintro ⟨works, role, fit, none⟩
      rcases other with off | role' | unfit | some'
      · exact off works
      · exact role' role
      · exact Bool.false_ne_true (unfit.symm.trans fit)
      · exact some' none
    · exact ⟨fun may => makes_tthAct (exec_reclaim s) (reclaim_announces may), fun may => makes_tthAct (exec_reclaim s) (reclaim_rests may)⟩
    · refine ⟨d.announce h, makes_tthAct (exec_handoverAnnounce h s) (if_pos ?_), announce_tth h, fld_announce h⟩
      simpa [and_assoc] using And.intro works (And.intro link role)
    · have makes : Makes .handoverExecute s d.handoverStep.ownRefresh.tthAfter := makes_tthAct (exec_handoverExecute s) rfl
      exact ⟨fun near incoming role free => ⟨_, makes, handover_asserts works announced near incoming role free⟩,
        fun near outgoing role => ⟨_, makes, handover_releases works announced near outgoing role⟩,
        fun come incoming role => ⟨_, makes, handover_takes works announced come incoming role⟩,
        fun come outgoing role => ⟨_, makes, handover_gives works announced come outgoing role⟩⟩
  case stops =>
    intro d p l
    refine ⟨fun hp hl => makes_tthAct (exec_hbLost pin link s) (pathStop_none hp hl), fun hp hl up => makes_tthAct (exec_hbLost pin link s) (pathStop_pin hp hl up),
      fun hp hl alive => makes_tthAct (exec_hbLost pin link s) (pathStop_link hp hl alive), fun hp hl => makes_tthAct (exec_hbLost pin link s) (pathStop_both hp hl),
      fun hp hl acks shared => ⟨_, makes_tthAct (exec_hbLost pin link s) (pathStop_both hp hl), fun en => tetherDown_bothStopped acks shared _ en, ?_⟩⟩
    have takes := takesOver_stopped acks shared (d.fitCode == 0)
    obtain ⟨lost, hb, down⟩ := bothStopped_lost acks shared (d.fitCode == 0)
    refine ⟨lost, hb, down, fun other => bothStopped_rests acks shared _ fun active => ?_, fun standby works free may => bothStopped_takes acks shared _ (takes.2 ?_),
      fun standby bars => (bothStopped_rests acks shared _ fun active => ?_).1.trans standby⟩
    · obtain ⟨_, standby, _⟩ := takes.1 active
      exact other standby
    · exact ⟨works, standby, free, by simpa using may⟩
    · obtain ⟨_, _, free, may⟩ := takes.1 active
      rcases bars with asserted | ⟨unfit, never⟩
      · exact Bool.false_ne_true (free.symm.trans asserted)
      · rcases may with fit | always
        · exact unfit (by simpa using fit)
        · exact Bool.false_ne_true (never.symm.trans always)
  case ownIn =>
    intro d
    refine ⟨fun off => makes_tthAct (exec_ownInChange level s) (ownInChange_off off), fun works => ⟨_, makes_tthAct (exec_ownInChange level s) rfl, ownIn_ownInChange works,
      fun join run asserted => ?_, fun join run free alone primary => ?_, fun standby free lost may => ?_, fun active asserted secondary young => ?_,
      fun active free out none => ?_⟩⟩
    · subst asserted
      exact ownInChange_join_asserted works join run
    · subst free
      exact ownInChange_join_claims works join run alone primary
    · subst free
      exact ownInChange_takes works standby lost may
    · subst asserted
      exact ownInChange_yields works active secondary (young_iff.2 young)
    · subst free
      exact ownInChange_returns works active out none
  case outputs =>
    intro d held settled
    have heldIff : d.ownHeld = true ↔ held := ownHeld_iff
    have may : d.mayOwn = true ↔ d.tth.ownOut = true ∧ d.tth.ownIn = false ∧ settled := mayOwn_iff
    refine ⟨fun out => makes_tthAct (exec_padForceHiz o s) (if_pos out),
      fun released => ⟨_, makes_tthAct (exec_padForceHiz o s) (if_neg (by simp [released, d])), mem_own_giveUp o.val⟩, fun rests => ?_,
      fun works free => ⟨_, makes_tthAct (exec_ownershipChange o s) (ownership_ungoverned works free), mem_own_giveUp o.val⟩, fun works governed moves => ?_⟩
    · by_cases works : d.works tthBase = true
      · obtain ⟨governed, held'⟩ := rests.resolve_left (by simp [works])
        exact makes_tthAct (exec_ownershipChange o s) (ownership_held works governed (heldIff.2 held'))
      · exact makes_tthAct (exec_ownershipChange o s) (ownership_off (by simpa using works) _)
    · have step := ownership_moves (o := o.val) works governed (by simpa using mt heldIff.1 moves)
      refine ⟨fun out free ready => ?_, fun released => ?_, fun out waits => ?_⟩
      · exact ⟨_, makes_tthAct (exec_ownershipChange o s) (step.trans (if_pos (may.2 ⟨out, free, ready⟩))), mem_own_gains d.tth.own o.val⟩
      · have barred : ¬ d.mayOwn = true := fun gains => Bool.false_ne_true (released.symm.trans (may.1 gains).1)
        exact ⟨_, makes_tthAct (exec_ownershipChange o s) (step.trans ((if_neg barred).trans (if_pos (by simp [released])))), mem_own_giveUp o.val⟩
      · have barred : ¬ d.mayOwn = true := fun gains => by
          obtain ⟨_, free, ready⟩ := may.1 gains
          exact waits.elim (fun asserted => Bool.false_ne_true (free.symm.trans asserted)) fun unready => unready ready
        exact makes_tthAct (exec_ownershipChange o s) (step.trans ((if_neg barred).trans (if_neg (by simp [out]))))

end Sys2Proof.Proofs
end
